-- ==== Sys2Proof/Word.lean ====
section
/-! DEFINITION. The word types of the YX-128 host window (02, R5) and of its engines (05), and
the one shape of sparse table the state uses. -/

namespace Sys2Proof

/-- A byte. -/
abbrev W8 := BitVec 8

/-- A half word. -/
abbrev W16 := BitVec 16

/-- A register word of the host window (R5). -/
abbrev W32 := BitVec 32

/-- A word of a Bolgil register or of data memory (05). -/
abbrev W64 := BitVec 64

/-- A Bolgil accumulator, Q64.64 in two's complement (05). -/
abbrev W128 := BitVec 128

/-- A sparse table: entries with strictly rising keys, none equal to the table's default. -/
abbrev Tbl (α : Type) := List (Nat × α)

end Sys2Proof
end

