-- ==== Sys2Proof/Config.lean ====
section
/-! DEFINITION. What the manual leaves open or takes from outside: constants without a body, so
that nothing in Lean can evaluate one. Each is named in the assumption log. -/

namespace Sys2Proof

/-- A fresh free value: the `n`-th word drawn for a value the manual leaves open (nonces,
random keys, undefined values). -/
opaque Config.free : Nat → W64

/-- SHA-256 (FIPS 180-4) of a byte string (R230, R356): an uninterpreted function. -/
opaque Config.sha256 : List W8 → BitVec 256

/-- HMAC-SHA-256 of a message under a key (R307, R353): an uninterpreted function. -/
opaque Config.hmac : List W8 → List W8 → BitVec 256

/-- HKDF-SHA-256 of input key material, salt and info (R346): an uninterpreted function. -/
opaque Config.hkdf : List W8 → List W8 → List W8 → List W8

/-- PBKDF2-HMAC-SHA-256 of a password verifier (R353): an uninterpreted function. -/
opaque Config.pbkdf2 : List W8 → List W8 → BitVec 256

/-- ECDSA P-256 signature of a digest under key generation `g` of the module (R231). -/
opaque Config.sign : Nat → BitVec 256 → BitVec 512

/-- ECDSA P-256 verification of a digest under a public key; the empty key names the vendor authority
key in OTP (R340, R356). -/
opaque Config.verify : List W8 → BitVec 256 → BitVec 512 → Bool

/-- The SRAM PUF response corrected with the helper data of an enrolment (R333). -/
opaque Config.pufKey : Nat → List W8

/-- The 256-bit OTP secret (R333). -/
opaque Config.otpSecret : List W8

/-- The fixed test root from mask ROM (R333). -/
opaque Config.testRoot : List W8

/-- ECDH of the key-agreement key and a peer's public key (R339): the shared secret Z. -/
opaque Config.agree : List W8 → List W8 → List W8

/-- The vendor image key in OTP (R356). -/
opaque Config.vendorImageKey : List W8

/-- The first 4 bytes of AES encryption of 16 zero bytes under a key (R343). -/
opaque Config.kcv : List W8 → List W8

/-- AES-128-CBC encryption with an IV of zero (R321). -/
opaque Config.cbcSeal : BitVec 128 → List W8 → List W8

/-- AES-128-CBC decryption with an IV of zero (R321). -/
opaque Config.cbcOpen : BitVec 128 → List W8 → List W8

/-- AES-GCM decryption of a byte string under a key and nonce with additional data; none when the tag fails. -/
opaque Config.gcmOpen : List W8 → List W8 → List W8 → List W8 → Option (List W8)

/-- AES-CCM protection of a byte string under a key and nonce with additional data (R321). -/
opaque Config.ccmSeal : BitVec 128 → List W8 → List W8 → List W8 → List W8

/-- AES-CCM opening; none when the tag fails (R321). -/
opaque Config.ccmOpen : BitVec 128 → List W8 → List W8 → List W8 → Option (List W8)

/-- AES-CMAC (R321, R313). -/
opaque Config.cmac : BitVec 128 → List W8 → BitVec 128

/-- AES key unwrap of RFC 3394 (R343); none when the check value fails. -/
opaque Config.unwrap : List W8 → List W8 → Option (List W8)

/-- IAPWS-IF97 of a single-phase point in binary64: property 0 enthalpy, 1 density, 2 entropy, 3 heat
capacity; region 1, 2 or 3; pressure and temperature (R112, R146). -/
opaque Config.if97Pt : Nat → Nat → W64 → W64 → W64

/-- A saturated value of IAPWS-IF97 (region 4) in binary64: property as for `if97Pt`; the vapour, else the
liquid; the saturation temperature (R112, R146). -/
opaque Config.if97Sat : Nat → Bool → W64 → W64

/-- The saturation temperature Ts(p) of IAPWS-IF97 in binary64 (R112). -/
opaque Config.if97Ts : W64 → W64

/-- The saturation pressure ps(T) of IAPWS-IF97 in binary64 (R112). -/
opaque Config.if97Ps : W64 → W64

/-- The boundary pressure pB23(T) of IAPWS-IF97 in binary64 (R145). -/
opaque Config.if97Pb23 : W64 → W64

/-- The boundary temperature TB23(p) of IAPWS-IF97 in binary64 (R145). -/
opaque Config.if97Tb23 : W64 → W64

/-- Whether six Newton steps converge at a region 3 point of pressure and temperature (R146). -/
opaque Config.if97Conv : W64 → W64 → Bool

/-- The water-vapour partial pressure pv of moist air in binary64; p, T, humidity (R147). -/
opaque Config.airPv : W64 → W64 → W64 → W64

/-- Moist air in binary64: property 0 compressibility factor, 1 density; p, T, humidity (R112, R147). -/
opaque Config.air : Nat → W64 → W64 → W64 → W64

/-- A chain's sample shifted by a phase correction (R70): TAP_CAL_PHASE in 10 ns, the sample period in
grid instants, and the calibrated samples, newest first. The manual does not give the interpolation. -/
opaque Config.phaseShift : Int → Nat → List Int → Int

/-- The 32-bit word of a calibrated sample as a recording carries it (R134): the manual does not
give its coding. -/
opaque Config.sampleWord : Int → W32

/-- The response code byte of an ISO 15118 answer: message and failure (R257, R266): the standard's
codes are not in the manual. -/
opaque Config.v2gCode : Nat → Bool → W8

/-- The Ethernet frame that carries an ISO 15118 answer (R258, R406): the encodings of the standards it rests on are
not in the manual. -/
opaque Config.v2gFrame : List Int → List W8

/-- The 8-byte header SLIPRX writes before the data: identifier, length and receive time (R122);
the manual does not place the fields. -/
opaque Config.slipHeader : W32 → Nat → W32 → W64

/-- The status code LEDGER_UNSIGNED of a SIGNATURE record (R231): the manual gives it no number. -/
opaque Config.ledgerUnsigned : W32

/-- The ledger public key of a key generation, x then y (R335). -/
opaque Config.ledgerPub : Nat → BitVec 512

/-- The P-256 public key of a private key, x then y (R335). -/
opaque Config.pubKey : List W8 → BitVec 512

/-- ECDSA P-256 signature of a digest under a private key (R334, R335). -/
opaque Config.ecdsa : List W8 → BitVec 256 → BitVec 512

/-- The X.509 v3 certificate in DER of a public key with a subject serialNumber, a subject organizationalUnitName or
none, self-signed or issued by the manufacturing CA (R335). -/
opaque Config.certDer : (serial ou : List W8) → (pub : BitVec 512) → (selfSigned : Bool) → List W8

end Sys2Proof
end

