-- ==== Sys2Proof/Syntax.lean ====
section
/-! DEFINITION. The commands of the YX-128: one constructor of `Instr` per row of
`opcode_table.json`, with the operands each row needs, and the small types of those operands.
Rows that are commands of the command bank carry a `CmdReq`; rows that are Bolgil instructions
carry the thread that executes them (`Exec`) and the instruction's fields (05); rows that are
events of the world carry what the event measures. -/

namespace Sys2Proof

/-- A master of the host window: 0 the host port, 1-4 YHP sessions 0-3 (02, Masters). -/
abbrev Master5 := Fin 5

/-- A tap T000-T127 (03). -/
abbrev TapNo := Fin 128

/-- A meter point MP00-MP63 (07). -/
abbrev MpNo := Fin 64

/-- A drive D00-D47 (13). -/
abbrev DriveNo := Fin 48

/-- A Bolgil register field x0-x31 (R93). -/
abbrev Reg := Fin 32

/-- An accumulator field w0-w15 (R93). -/
abbrev WReg := Fin 16

/-- A command written by master `m`: its arguments, then its code (R43). `early` says that the
code is written before the bank's previous command has been acknowledged. -/
structure CmdReq where
  m : Master5 := 0
  early : Bool := false
  a0 : W32 := 0
  a1 : W32 := 0
  a2 : W32 := 0
  a3 : W32 := 0
  deriving DecidableEq, Repr

/-- The thread that executes a Bolgil instruction: the head or the replay thread of engine Qk
(Q-profile), or the bay sequencer (S-profile) (R92). -/
inductive Exec where
  | head (k : Fin 8)
  | replay (k : Fin 8)
  | bay
  deriving DecidableEq, Repr

/-- Rounding of FCVT.I (R102). -/
inductive Rounding where
  | rne | rz | rdn | rup
  deriving DecidableEq, Repr

/-- Condition of FCMP (R102). -/
inductive FCond where
  | eq | lt | le | un
  deriving DecidableEq, Repr

/-- What a TLS client presents on connecting to port 6170 (02, 16). -/
inductive TlsClient where
  | anonymous
  | clientKey (key : List W8)
  | vendorChain
  deriving DecidableEq, Repr

/-- A YHP message from host software: header and payload words (02, YHP). -/
structure YhpIn where
  kind : W8 := 0
  n : Nat := 0
  req : W16 := 0
  payload : List W32 := []
  deriving DecidableEq, Repr

/-- How a session close reaches the engines: as R182 has it; before the legal change of a CG3 commit that redefines
the meter point (R182); or made by the billing block without the engine, with no boundary gate (R183). -/
inductive SessEnd where
  | plain
  | redefined
  | billed
  deriving DecidableEq, Repr

/-- The change a context event makes (R75, R74). -/
inductive CtxChange where
  | clockStep
  | tzCommit
  | demandClose (interval : W32)
  | billingClose
  | tariffSwitch (tariff : BitVec 6)
  | calendar (tariff : BitVec 6)
  | quality (mp par : Nat) (value : Option W64)
  | direction (mp : Nat) (rev : Bool)
  | legal (group : Nat) (bank : Bool) (resets quals : List Nat)
  | chainReset (tap : Nat)
  | modeSet (flag : Bool)
  | billZero
  | sessClose (mp : Nat) (no : W32) (how : SessEnd)
  | sessOpen (mp : Nat) (no : W32) (fixed : BitVec 6)
  deriving DecidableEq, Repr

/-- A context event: stamp, source (0 TIME, 1 DIR, 2 QUAL, 3 CMD) and change (R74, R75); `ord` is its place among
the boundaries that one step forward skips, 0 for every other event (R190). -/
structure CtxEv where
  stamp : Nat := 0
  src : Nat := 0
  change : CtxChange := .clockStep
  ord : Nat := 0
  deriving DecidableEq, Repr

/-- What the two converters of one tap deliver for one sample instant, before calibration (03):
the primary code in units of range / 2^23, the check code in units of range / 2^15, and on PULSE
taps the edges each counter counted in the period, the ns from the last counted edge to the
instant and the short pulses filtered out. -/
structure RawSample where
  p : Int := 0
  c : Int := 0
  pEdges : Nat := 0
  cEdges : Nat := 0
  edge : Option Nat := none
  glitches : Nat := 0
  deriving DecidableEq, Repr

/-- What the front-end monitor measures in a routine round (R61, R65): the shared element's deviation from its
nominal value, in millionths of it, and the excitation at the round's start in millionths of the range of the tap
it is read on (the odd tap of a pair, the LOOP tap itself). -/
structure Excitation where
  dev : Int := 0
  mon : Int := 0
  deriving DecidableEq, Repr

/-- What the check chain reads on the references in one round (R60): deviations from 0 V, +0.9
and -0.9 of range in millionths of range, or the edges counted of the test signal. -/
structure RefReading where
  zero : Int := 0
  plus : Int := 0
  minus : Int := 0
  edges : Nat := 1500
  /-- 03 R61: what the front-end monitor measured of the shared element, in a routine round of a tap that has one -/
  exc : Option Excitation := none
  deriving DecidableEq, Repr

/-- What TAP_FAULT_CLEAR finds (R68): the tap, and whether the excitation compliance of an RTD is still lost. -/
structure TapClear where
  t : TapNo
  lost : Bool := false
  deriving DecidableEq, Repr

/-- A PTP message as received (R196). -/
inductive PtpMsg where
  | announce (dataset : List Nat) (id : W64) (utcOffset : W8) (leap : Int) (leapAt : Int)
  | sync (twoStep : Bool) (seq : W16) (origin : Int) (rx : Int)
  | followUp (seq : W16) (origin : Int)
  | delay (peer : Bool) (d : Int)
  deriving DecidableEq, Repr

/-- A PTP frame (R196): the Ethernet port of J6 it came in on, UDP rather than IEEE 802.3 transport, the
domain, the identity of the clock that sent it, and the message. -/
structure PtpFrame where
  port : Bool := false
  udp : Bool := false
  domain : W8 := 0
  src : W64 := 0
  msg : PtpMsg
  deriving DecidableEq, Repr

/-- What the module finds when the supply is applied or a host reset ends (R374): the outage by the AO
counter in grid instants, whether that counter was lost, the readiness bits whose functions start,
the supplies in 10 mV, the switch words of SF and the Edge logic, the safety drives whose switch test fails (bit i
for D(40+i)), the cell in 20 mV, and the stored images that no longer match their digests: copies of tally and bay
images (index, second copy), NOR slots A and B. -/
structure PowerOn where
  outage : Nat := 0
  aoLost : Bool := false
  up : BitVec 20 := 0xFFFFF
  mainV : BitVec 12 := 2400
  auxV : BitVec 12 := 0
  swSf : W16 := 0
  swEdge : W16 := 0
  swBad : W8 := 0
  voutA : W16 := 2400
  voutB : W16 := 2400
  cell : W8 := 150
  badImgs : List (Fin 32 × Bool) := []
  badBays : List (Fin 4 × Bool) := []
  badSlots : BitVec 2 := 0
  deriving DecidableEq, Repr

/-- A periodic HK report (R15): the supplies and the backplate temperature. -/
structure HkReport where
  mainV : BitVec 12 := 0
  auxV : BitVec 12 := 0
  voutA : W16 := 0
  voutB : W16 := 0
  backplate : Int := 2500
  deriving DecidableEq, Repr

/-- A request of the vehicle over ISO 15118 (R258, R259): 1-10 the messages of the table V2G
exchange area, 11 a charge loop, 12 ServiceDiscovery, 0 a request for an unsupported function. -/
structure V2gReq where
  msg : Nat := 0
  proto : Nat := 1
  service : W64 := 0
  payment : W64 := 0
  cert : W64 := 0
  emaid : List W8 := []
  evccid : W64 := 0
  ev : List W64 := []
  stop : W64 := 0
  deriving DecidableEq, Repr

/-- What a tag replies to the reader's authentication (R321, R313): the first status other than OK, RndB, the token of
AUTH2, the protected reply of AUTH3 and, of a badge, that of the SREAD of block 0. -/
structure AuthReply where
  st : W8 := 0
  rndB : BitVec 128 := 0
  token : List W8 := []
  opened : List W8 := []
  block0 : List W8 := []
  deriving DecidableEq, Repr

/-- A badge seen in one poll (R312): its UID (first byte received lowest), and what it replies to an
authentication (R313). -/
structure BadgeSeen where
  uid : W64 := 0
  len : BitVec 4 := 4
  auth : AuthReply := {}
  supported : Bool := true
  deriving DecidableEq, Repr

/-- A Crossing tag that answers a REQ (R319, R323): its identifier, SELACK fields, and what it replies to an
authentication. -/
structure TagSeen where
  id : W64 := 0
  auth : AuthReply := {}
  batt : Bool := false
  cls : W8 := 0
  medium : W8 := 0
  deriving DecidableEq, Repr

/-- Three samples of the positive plateau of CP in millivolts, in order (R253). -/
structure Plateaus where
  first : Int := 0
  second : Int := 0
  third : Int := 0
  deriving DecidableEq, Repr

/-- A READ_STATUS reply of the modem (R406): the status byte and the CRC-16 after it. -/
structure ModemStatus where
  status : W8 := 0
  crc : W16 := 0
  deriving DecidableEq, Repr

/-- A READ_FRAME reply of the modem (R406): the length, the frame bytes and the CRC-16 after them. -/
structure ModemFrame where
  len : W16 := 0
  bytes : List W8 := []
  crc : W16 := 0
  deriving DecidableEq, Repr

/-- What an open-load measurement of a drive yields (R275, R276): a command aborts it. -/
inductive OpenLoad where
  | load | noLoad | aborted
  deriving DecidableEq, Repr

/-- What an off-pulse, or a cut, of the safety drives shows (R277, R299): the drives on which the open
switch of the channel conducts, bit i for D(40+i). -/
structure StuckSeen where
  pulse : W8 := 0
  cut : W8 := 0
  deriving DecidableEq, Repr

/-- The inputs that each channel sees fall in a test pulse (R293). -/
structure Fell where
  sf : W16 := 0
  edge : W16 := 0
  deriving DecidableEq, Repr

/-- The answer of a tracked tag to a transfer (R331). -/
structure XferReply where
  index : Nat := 0
  auth : AuthReply := {}
  answered : Bool := true
  status : W8 := 0
  data : List W8 := []
  deriving DecidableEq, Repr

/-- What one poll of the reader finds (R311, R312, R323); `bad` numbers the replies to REQ and SEL, from 0, that the
reader receives without a collision and with a bad CRC (R319). -/
structure PollResult where
  antennaOk : Bool := true
  badges : List BadgeSeen := []
  tags : List TagSeen := []
  replies : List XferReply := []
  crcErrors : Nat := 0
  bad : List Nat := []
  deriving DecidableEq, Repr

/-- The check data of the partner's last demand interval (R391): whether it can be compared (neither
PARTIAL nor IRREGULAR), and the tier-0 increment of each register in 2^-64 counts, by identity. -/
structure PairCheck where
  ok : Bool := true
  regs : List (Nat × Int) := []
  deriving DecidableEq, Repr

/-- A heartbeat of the tandem partner (R384), with what the pair link carries beside it: the post
number and PREFER (R383), whether the partner is active by failover (R389), whether it hands its role
over (R390), and check data (R391). `macOk` is clear for a frame that does not verify. -/
structure Heartbeat where
  udp : Bool := false
  id : W64 := 0
  role : BitVec 2 := 0
  mode : BitVec 4 := 0
  ready : BitVec 20 := 0
  seq : W32 := 0
  safe : W8 := 0
  trial : Bool := false
  post : BitVec 18 := 0
  prefer : Bool := false
  failover : Bool := false
  handOver : Bool := false
  check : Option PairCheck := none
  macOk : Bool := true
  deriving DecidableEq, Repr

/-- The lockstep islands of R14 besides the engines, BS and SV. -/
inductive Island where
  | lk | nx | sc | sf
  deriving DecidableEq, Repr

/-- The commands of the block: one constructor per row of the opcode table. -/
inductive Instr where
  /-- HOST_PORT_FRAME (R27): A complete host-port read or write frame framed by CS_N is received and answered with start nibble, data, status and CRC; refusals, bad CRC, unaligned address and unknown opcode are handled here -/
  | hostFrame (op : W8) (addr : BitVec 24) (data : W32) (crc : W8)
  /-- HOST_PORT_FRAME_ABANDONED (R28): CS_N rises before the check nibbles of a write frame are complete, so nothing is written -/
  | hostFrameAbandoned
  /-- HOST_PORT_ENABLE (R373): 20 ms after MAIN or AUX is applied the host port starts answering frames; frames begun earlier are ignored -/
  | hostPortEnable
  /-- SYS_HINT_STATUS_WRITE (R29): A write-1-to-clear write to SYS_HINT_STATUS clears the selected hint bits -/
  | sysHintStatusWrite (m : Master5) (v : W32)
  /-- REGISTER_WRITE (R6): A word write to a register without behaviour of its own is applied, ignored or refused by access code, role and reserved-bit rules, counting ACCESS_DENIED where refused -/
  | registerWrite (m : Master5) (addr : W32) (v : W32)
  /-- ISLAND_TIMEOUT (R17): An island does not answer a register access across its bridge within 2 µs; the bridge completes it with TIMEOUT and raises ISLAND_TIMEOUT -/
  | islandTimeout (m : Master5) (addr : W32) (write : Bool)
  /-- YHP_CONNECT (R23): A TLS connection on TCP port 6170 is accepted and takes the lowest free session number, or gets NO_RESOURCE and is closed as the fifth -/
  | yhpConnect (client : TlsClient)
  /-- YHP_CONNECTION_CLOSE (R355): A YHP connection closes and its session ends, releasing landings, shadow claims and queue claims -/
  | yhpConnectionClose (sess : Fin 4)
  /-- YHP_READ (R30): A YHP READ message is performed as n word reads in payload order and answered with data and status bytes -/
  | yhpRead (sess : Fin 4) (msg : YhpIn)
  /-- YHP_WRITE (R31): A YHP WRITE message is performed as word writes in order, aborting the rest after the first refused operation -/
  | yhpWrite (sess : Fin 4) (msg : YhpIn)
  /-- YHP_COMMAND (R30): A YHP COMMAND message writes the command arguments and code into the session's bank and replies with CMD_STATUS -/
  | yhpCommand (sess : Fin 4) (msg : YhpIn)
  /-- QUEUE_PUSH (R237): A complete packet of a queue owned by a YHP session is popped and pushed as a QUEUE message once the TLS connection accepts it -/
  | queuePush (q : Fin 8)
  /-- LAND_REQ_WRITE (R36): A write of LANDn_REQ clears VALID and ERR, sets BUSY and starts a fill of the landing -/
  | landReqWrite (m : Master5) (n : Fin 16) (v : W32)
  /-- LAND_FILL_COMPLETE (R36): Within 50 µs the landing fill loads D0–D3 from one commit and sets VALID, or sets ERR with a status code -/
  | landFillComplete (n : Fin 16)
  /-- LAND_D3_READ (R36): A read of LANDn_D3 returns the held snapshot word and clears VALID -/
  | landD3Read (m : Master5) (n : Fin 16)
  /-- CFG_SHADOW_WRITE (R38): A write to a CMT register changes the group's shadow and claims the group for the master, or is refused while another master holds the claim -/
  | cfgShadowWrite (m : Master5) (addr : W32) (v : W32)
  /-- CFG_COMMIT (R39): A CFG_COMMIT write with OP commit checks the group and applies a non-legal group at once or schedules a legal one under a ticket -/
  | cfgCommit (m : Master5) (g : BitVec 4)
  /-- CFG_DISCARD (R38): A CFG_COMMIT write with OP discard copies live into shadow and releases the claim, or returns LOCKED for another master's claim -/
  | cfgDiscard (m : Master5) (g : BitVec 4)
  /-- LEGAL_CHANGE_APPLY (R40): At the chosen sample instant s a legal commit takes effect as a context event with a boundary gate, switching live registers, CFG_REF and point-table bank, and records CONFIG_CHANGE_LEGAL -/
  | legalChangeApply
  /-- CFG_CRC_PASS (R41): A group's pass of the running CRC-32C ends and is compared with CFG_REF, raising CFG_MISMATCH with reload and reaction, or CFG_RESOLVED on a later match -/
  | cfgCrcPass (g : Fin 12) (bad : List (W32×W32))
  /-- CFG_PERSIST (R42): A mismatch unresolved after 1 s raises CFG_PERSIST and, for CG1–CG3, sets quarantine cause CONFIG -/
  | cfgPersist (g : Fin 12)
  /-- TICKET_COMPLETION (R45): A long operation completes and a NOTICE packet with its ticket and final status is written to FQ0 and recorded for CMD_TICKET_STATE -/
  | ticketCompletion (t : W16) (status : W8) (result : W32)
  /-- NOP (R46): Command NOP returns OK and does nothing else -/
  | nop (r : CmdReq)
  /-- TICKET_CANCEL (R46): Command TICKET_CANCEL ends an outstanding operation at its next safe point, completing its ticket with ABORTED -/
  | ticketCancel (r : CmdReq)
  /-- SYS_MODE_SET (R377): Command SYS_MODE_SET sets or clears the COMMISSION flag as a legal change at a stamp with boundary gates -/
  | sysModeSet (r : CmdReq)
  /-- SYS_QUAR_CLR (R378): Command SYS_QUAR_CLR clears named quarantine causes whose condition has gone, or returns INTEGRITY -/
  | sysQuarClr (r : CmdReq)
  /-- SYS_RESTART (R381): Command SYS_RESTART performs a forced gate and final save at its stamp and resets the module with cause HOST -/
  | sysRestart (r : CmdReq)
  /-- HOLDUP_TEST (R212): Command HOLDUP_TEST runs a hold-up bank test and completes with the measured hold-up or INTEGRITY -/
  | holdupTest (r : CmdReq)
  /-- TAP_REF_NOW (R60): Command TAP_REF_NOW schedules one reference round on a tap at the next window start, completing OK on a pass or INTEGRITY on a fail -/
  | tapRefNow (r : CmdReq)
  /-- TAP_CHAIN_RESET (R62): Command TAP_CHAIN_RESET returns a tap's arbiter to NORMAL at the next sample instant as a legal change -/
  | tapChainReset (r : CmdReq)
  /-- TAP_GLITCH_CLR (R53): Command TAP_GLITCH_CLR clears the PULSE_GLITCH count of a tap -/
  | tapGlitchClr (r : CmdReq)
  /-- QE_RESTART (R87): Command QE_RESTART reloads a HALTED or FAILED engine from step 2 of the engine restart -/
  | qeRestart (r : CmdReq)
  /-- QE_CNT_CLR (R90): Command QE_CNT_CLR clears the stall, sidestep, forced, skip and maximum-cycle counters of an engine -/
  | qeCntClr (r : CmdReq)
  /-- QE_TRACE (R12): Command QE_TRACE switches committed-path trace packets of an engine to FQ7 on or off -/
  | qeTrace (r : CmdReq)
  /-- QE_IMG_INSTALL (R127): Command QE_IMG_INSTALL checks a staged tally image, installs and seals it at a library index and records it in the ledger -/
  | qeImgInstall (r : CmdReq)
  /-- QE_IMG_REMOVE (R129): Command QE_IMG_REMOVE clears a tally library index -/
  | qeImgRemove (r : CmdReq)
  /-- QE_TAP_RECORD (R134): Command QE_TAP_RECORD sends TAPREC packets of up to four taps to FQ7 for a stated duration -/
  | qeTapRecord (r : CmdReq)
  /-- TAP_RECORD_END (R134): The recording duration of QE_TAP_RECORD expires and the ticket completes with the dropped-packet count -/
  | tapRecordEnd (k : Fin 8)
  /-- BILL_CLOSE (R176): Command BILL_CLOSE closes the billing period at a stamp that is a multiple of 8 -/
  | billClose (r : CmdReq)
  /-- BILL_SESS_CLOSE (R182): Command BILL_SESS_CLOSE closes an open transfer session with reason 0x11 -/
  | billSessClose (r : CmdReq)
  /-- BILL_ZERO (R178): Command BILL_ZERO zeroes every billing register, history, fraction, spill and session record at a stamp, in COMMISSION only -/
  | billZero (r : CmdReq)
  /-- BILL_LP_READ (R184): Command BILL_LP_READ sends load-profile entries of a channel as LOADP packets to FQ1 -/
  | billLpRead (r : CmdReq)
  /-- TARIFF_SCHEDULE (R167): Command TARIFF_SCHEDULE checks the passive tariff set, locks it and schedules its activation -/
  | tariffSchedule (r : CmdReq)
  /-- TARIFF_UNSCHEDULE (R168): Command TARIFF_UNSCHEDULE cancels a scheduled activation and unlocks the passive set -/
  | tariffUnschedule (r : CmdReq)
  /-- TARIFF_COPY (R166): Command TARIFF_COPY copies the active tariff set into the passive set -/
  | tariffCopy (r : CmdReq)
  /-- TIME_ADJUST (R197): Command TIME_ADJUST slews civil time by a signed offset of up to 1 s -/
  | timeAdjust (r : CmdReq)
  /-- TIME_SET (R198): Command TIME_SET slews or steps civil time to a given UTC value -/
  | timeSet (r : CmdReq)
  /-- EVT_READ (R220): Command EVT_READ sends archived event entries from a start SIX to FQ3 -/
  | evtRead (r : CmdReq)
  /-- EVT_CNT_CLR (R216): Command EVT_CNT_CLR clears the counters and times of one or all event sources -/
  | evtCntClr (r : CmdReq)
  /-- LEDGER_READ (R233): Command LEDGER_READ sends ledger records from a start SEQ as LEDGER packets to FQ1 -/
  | ledgerRead (r : CmdReq)
  /-- LEDGER_ACK (R232): Command LEDGER_ACK allows ledger records up to a SEQ to be overwritten -/
  | ledgerAck (r : CmdReq)
  /-- FERRY_TEST (R243): Command FERRY_TEST passes 2,048 test words through an owned queue in parity mode and checks the poisoned word is flagged -/
  | ferryTest (r : CmdReq)
  /-- DISP_TEST (R227): Command DISP_TEST lights all pixels for 2 s, blanks them for 2 s and resumes the list -/
  | dispTest (r : CmdReq)
  /-- BAY_SIGNAL (R249): Command BAY_SIGNAL writes the host signal slot in the bay exchange area and latches bay event 24 -/
  | baySignal (r : CmdReq)
  /-- BAY_RESTART (R250): Command BAY_RESTART runs steps 2–4 of the bay fault and reloads the bay program -/
  | bayRestart (r : CmdReq)
  /-- BAY_TRIP_CLR (R265): Command BAY_TRIP_CLR clears a bay trip latch whose cause has gone -/
  | bayTripClr (r : CmdReq)
  /-- BAY_IMG_INSTALL (R247): Command BAY_IMG_INSTALL checks a staged bay image and installs it at a bay library index -/
  | bayImgInstall (r : CmdReq)
  /-- BAY_IMG_REMOVE (R247): Command BAY_IMG_REMOVE clears a bay library index -/
  | bayImgRemove (r : CmdReq)
  /-- DRV_CLR (R273): Command DRV_CLR clears a drive's thermal latch and OC_LOCK and reloads its retries when the junction is below 150 °C -/
  | drvClr (r : CmdReq)
  /-- DRV_RECLAIM (R282): Command DRV_RECLAIM makes platform firmware claim every drive die after a resolved CG5 mismatch -/
  | drvReclaim (r : CmdReq)
  /-- DRV_TEST_NOW (R276): Command DRV_TEST_NOW runs the off-pulse or open-load test that fits a standard drive's state -/
  | drvTestNow (r : CmdReq)
  /-- LINK_PT_READ (R328): Command LINK_PT_READ reads one plate-tag block into LINK_BUF, or queues it while the block is held by a field transaction -/
  | linkPtRead (r : CmdReq)
  /-- LINK_PT_WRITE (R328): Command LINK_PT_WRITE writes one host-area plate-tag block from LINK_BUF with optional version check -/
  | linkPtWrite (r : CmdReq)
  /-- LINK_XFER (R331): Command LINK_XFER reads or writes one block of a tracked Crossing tag and sends TAGDATA to FQ4 -/
  | linkXfer (r : CmdReq)
  /-- LINK_CNT_CLR (R312): Command LINK_CNT_CLR clears LINK_CNT -/
  | linkCntClr (r : CmdReq)
  /-- KEY_CHALLENGE (R353): Command KEY_CHALLENGE places a fresh nonce in KEY_NONCE -/
  | keyChallenge (r : CmdReq)
  /-- KEY_LOGIN (R353): Command KEY_LOGIN authenticates an account by HMAC or password and opens a session with its role -/
  | keyLogin (r : CmdReq)
  /-- KEY_LOGOUT (R355): Command KEY_LOGOUT ends the master's session -/
  | keyLogout (r : CmdReq)
  /-- KEY_PASSWD (R355): Command KEY_PASSWD writes a new password verifier for an account by the two-half commit -/
  | keyPasswd (r : CmdReq)
  /-- KEY_ACCT_SET (R353): Command KEY_ACCT_SET enables, disables or configures an account's role, method and slot -/
  | keyAcctSet (r : CmdReq)
  /-- KEY_UPDATE (R341): Command KEY_UPDATE checks a staged key message and commits it into a slot with the two-half commit and anti-replay counter -/
  | keyUpdate (r : CmdReq)
  /-- KEY_REPLACE (R343): Command KEY_REPLACE replaces a COMPAT slot's AES key from an RFC 3394 wrapped value -/
  | keyReplace (r : CmdReq)
  /-- KEY_INVALIDATE (R345): Command KEY_INVALIDATE empties a slot and condemns its dependants -/
  | keyInvalidate (r : CmdReq)
  /-- KEY_DERIVE (R346): Command KEY_DERIVE writes an HKDF child key of a parent into an empty or condemned slot -/
  | keyDerive (r : CmdReq)
  /-- KEY_LC_SET (R347): Command KEY_LC_SET changes the life-cycle state, writing records and destroying and generating keys as the table requires -/
  | keyLcSet (r : CmdReq)
  /-- UPD_STAGE (R357): Command UPD_STAGE opens a staging for one image of a kind and length under a ticket -/
  | updStage (r : CmdReq)
  /-- UPD_CHUNK (R357): Command UPD_CHUNK appends bytes from UPD_BUF to a staging in order -/
  | updChunk (r : CmdReq)
  /-- STAGING_TIMEOUT (R357): A staging without a chunk for 60 s ends its ticket with TIMEOUT -/
  | stagingTimeout (t : W16)
  /-- STAGED_IMAGE_EXPIRY (R357): A staged DRAM image not consumed within 3,600 s of completion is discarded -/
  | stagedImageExpiry (t : W16)
  /-- UPD_ACTIVATE (R362): Command UPD_ACTIVATE starts a changeover to the staged platform image -/
  | updActivate (r : CmdReq)
  /-- UPD_REVERT (R367): Command UPD_REVERT reverts a trial image to the previous image -/
  | updRevert (r : CmdReq)
  /-- UPD_DISCARD (R357): Command UPD_DISCARD discards a staged image or the staged NOR slot -/
  | updDiscard (r : CmdReq)
  /-- PAIR_SWITCH (R390): Command PAIR_SWITCH hands the active role to the standby module without a gap -/
  | pairSwitch (r : CmdReq)
  /-- ADD (R100): Instruction ADD writes the wrapping 64-bit sum of two registers -/
  | add (e : Exec) (rd : Reg) (rs1 : Reg) (rs2 : Reg)
  /-- SUB (R100): Instruction SUB writes the wrapping 64-bit difference of two registers -/
  | sub (e : Exec) (rd : Reg) (rs1 : Reg) (rs2 : Reg)
  /-- AND (R100): Instruction AND writes the bitwise AND of two registers -/
  | and (e : Exec) (rd : Reg) (rs1 : Reg) (rs2 : Reg)
  /-- OR (R100): Instruction OR writes the bitwise OR of two registers -/
  | or (e : Exec) (rd : Reg) (rs1 : Reg) (rs2 : Reg)
  /-- XOR (R100): Instruction XOR writes the bitwise XOR of two registers -/
  | xor (e : Exec) (rd : Reg) (rs1 : Reg) (rs2 : Reg)
  /-- MUL (R100): Instruction MUL writes the low 64 bits of the product -/
  | mul (e : Exec) (rd : Reg) (rs1 : Reg) (rs2 : Reg)
  /-- MULH (R100): Instruction MULH writes the high 64 bits of the signed 128-bit product -/
  | mulh (e : Exec) (rd : Reg) (rs1 : Reg) (rs2 : Reg)
  /-- DIV (R100): Instruction DIV writes the quotient truncated toward zero, trapping on zero or overflow -/
  | div (e : Exec) (rd : Reg) (rs1 : Reg) (rs2 : Reg)
  /-- REM (R100): Instruction REM writes the remainder with the sign of the dividend, trapping on zero or overflow -/
  | rem (e : Exec) (rd : Reg) (rs1 : Reg) (rs2 : Reg)
  /-- SLT (R100): Instruction SLT writes 1 if the first register is signed-less than the second, else 0 -/
  | slt (e : Exec) (rd : Reg) (rs1 : Reg) (rs2 : Reg)
  /-- SLTU (R100): Instruction SLTU writes 1 if the first register is unsigned-less than the second, else 0 -/
  | sltu (e : Exec) (rd : Reg) (rs1 : Reg) (rs2 : Reg)
  /-- MIN (R100): Instruction MIN writes the signed minimum of two registers -/
  | min (e : Exec) (rd : Reg) (rs1 : Reg) (rs2 : Reg)
  /-- MAX (R100): Instruction MAX writes the signed maximum of two registers -/
  | max (e : Exec) (rd : Reg) (rs1 : Reg) (rs2 : Reg)
  /-- SHL (R100): Instruction SHL shifts left by (x[rs2] + fn) mod 64 -/
  | shl (e : Exec) (rd : Reg) (rs1 : Reg) (rs2 : Reg) (sh : BitVec 6)
  /-- SHR (R100): Instruction SHR shifts right with zero fill by (x[rs2] + fn) mod 64 -/
  | shr (e : Exec) (rd : Reg) (rs1 : Reg) (rs2 : Reg) (sh : BitVec 6)
  /-- SRA (R100): Instruction SRA shifts right with sign fill by (x[rs2] + fn) mod 64 -/
  | sra (e : Exec) (rd : Reg) (rs1 : Reg) (rs2 : Reg) (sh : BitVec 6)
  /-- ADDI (R100): Instruction ADDI adds a sign-extended immediate -/
  | addi (e : Exec) (rd : Reg) (rs1 : Reg) (imm : W16)
  /-- ANDI (R100): Instruction ANDI ANDs a zero-extended immediate -/
  | andi (e : Exec) (rd : Reg) (rs1 : Reg) (imm : W16)
  /-- ORI (R100): Instruction ORI ORs a zero-extended immediate -/
  | ori (e : Exec) (rd : Reg) (rs1 : Reg) (imm : W16)
  /-- LUI (R100): Instruction LUI sets a register to imm16 × 2^16 with bit 31 extended -/
  | lui (e : Exec) (rd : Reg) (imm : W16)
  /-- FADD (R101): Instruction FADD writes the binary64 sum -/
  | fadd (e : Exec) (rd : Reg) (rs1 : Reg) (rs2 : Reg)
  /-- FSUB (R101): Instruction FSUB writes the binary64 difference -/
  | fsub (e : Exec) (rd : Reg) (rs1 : Reg) (rs2 : Reg)
  /-- FMUL (R101): Instruction FMUL writes the binary64 product -/
  | fmul (e : Exec) (rd : Reg) (rs1 : Reg) (rs2 : Reg)
  /-- FDIV (R101): Instruction FDIV writes the binary64 quotient, trapping on invalid, division by zero or overflow -/
  | fdiv (e : Exec) (rd : Reg) (rs1 : Reg) (rs2 : Reg)
  /-- FSQRT (R101): Instruction FSQRT writes the binary64 square root -/
  | fsqrt (e : Exec) (rd : Reg) (rs1 : Reg)
  /-- FMA (R101): Instruction FMA writes x[rs1] × x[rs2] + x[rs3] with one rounding -/
  | fma (e : Exec) (rd : Reg) (rs1 : Reg) (rs2 : Reg) (rs3 : Reg)
  /-- FCVT_I (R102): Instruction FCVT.I converts binary64 to a signed 64-bit integer with the rounding its fn selects -/
  | fcvtI (e : Exec) (rm : Rounding) (rd : Reg) (rs1 : Reg)
  /-- FCVT_F_INT (R102): Instruction FCVT.F from integer converts a signed integer to binary64 -/
  | fcvtFInt (e : Exec) (rd : Reg) (rs1 : Reg)
  /-- FCVT_F_ACC (R102): Instruction FCVT.F from accumulator rounds a Q64.64 accumulator to binary64 -/
  | fcvtFAcc (e : Exec) (rd : Reg) (wa : WReg)
  /-- FCMP (R102): Instruction FCMP writes 1 or 0 for the EQ, LT, LE or UN comparison -/
  | fcmp (e : Exec) (cond : FCond) (rd : Reg) (rs1 : Reg) (rs2 : Reg)
  /-- LD (R103): Instruction LD loads a 64-bit data-memory word -/
  | ld (e : Exec) (rd : Reg) (rs1 : Reg) (imm : W16)
  /-- ST (R103): Instruction ST stores a 64-bit word, undo-logged at the head or into the overlay in replay -/
  | st (e : Exec) (rs2 : Reg) (rs1 : Reg) (imm : W16)
  /-- LDW (R103): Instruction LDW loads a 128-bit accumulator from data memory -/
  | ldw (e : Exec) (wa : WReg) (rs1 : Reg) (imm : W8)
  /-- STW (R103): Instruction STW stores a 128-bit accumulator as two words -/
  | stw (e : Exec) (wa : WReg) (rs1 : Reg) (imm : W8)
  /-- TAP (R105): Instruction TAP reads the arbiter-selected chain's value, crossing or edge of a group tap, with look-back -/
  | tap (e : Exec) (rd : Reg) (rs1 : Reg) (imm : W16)
  /-- TAPC (R105): Instruction TAPC reads the check chain of a group tap -/
  | tapc (e : Exec) (rd : Reg) (rs1 : Reg) (imm : W16)
  /-- TAPST (R105): Instruction TAPST reads a tap's state and fault flags at the read instant -/
  | tapst (e : Exec) (rd : Reg) (rs1 : Reg) (imm : W16)
  /-- MACW (R107): Instruction MACW adds or subtracts the exactly rounded product of two registers to an accumulator -/
  | macw (e : Exec) (wa : WReg) (rs1 : Reg) (rs2 : Reg) (neg : Bool)
  /-- ADDW (R107): Instruction ADDW adds a selected source to an accumulator -/
  | addw (e : Exec) (wa : WReg) (wb : WReg) (rs1 : Reg) (sel : BitVec 2)
  /-- CLRW (R107): Instruction CLRW sets an accumulator to zero -/
  | clrw (e : Exec) (wa : WReg)
  /-- BIN (R108): Instruction BIN adds an accumulator to the segment bin keyed by meter point, slot, context direction, tariff, interval and session -/
  | bin (e : Exec) (wa : WReg) (rs1 : Reg) (slot : Fin 8) (keep : Bool)
  /-- BINS (R108): Instruction BINS adds an accumulator's magnitude to the FWD or REV bin by its sign -/
  | bins (e : Exec) (wa : WReg) (rs1 : Reg) (slot : Fin 8) (keep : Bool)
  /-- SPILL (R154): Instruction SPILL adds an accumulator to the spill accumulator of a meter point's slot at commit -/
  | spill (e : Exec) (wa : WReg) (rs1 : Reg) (slot : Fin 8) (keep : Bool)
  /-- CTX (R110): Instruction CTX reads the context word, SIX, session number or D of the instant -/
  | ctx (e : Exec) (rd : Reg) (rs1 : Reg) (sel : W16)
  /-- MARK (R109): Instruction MARK feeds a value to the meter point's direction unit, setting CUTOFF and running hysteresis and dwell -/
  | mark (e : Exec) (rs1 : Reg) (rs2 : Reg)
  /-- IF97H (R112): Instruction IF97H evaluates specific enthalpy by IAPWS-IF97 -/
  | if97h (e : Exec) (rd : Reg) (rs1 : Reg) (rs2 : Reg) (pair : BitVec 5)
  /-- IF97D (R112): Instruction IF97D evaluates density by IAPWS-IF97 -/
  | if97d (e : Exec) (rd : Reg) (rs1 : Reg) (rs2 : Reg) (pair : BitVec 5)
  /-- IF97S (R112): Instruction IF97S evaluates specific entropy by IAPWS-IF97 -/
  | if97s (e : Exec) (rd : Reg) (rs1 : Reg) (rs2 : Reg) (pair : BitVec 5)
  /-- IF97C (R112): Instruction IF97C evaluates isobaric heat capacity by IAPWS-IF97 -/
  | if97c (e : Exec) (rd : Reg) (rs1 : Reg) (rs2 : Reg) (pair : BitVec 5)
  /-- IF97X (R112): Instruction IF97X returns the region code, saturation temperature or saturation pressure -/
  | if97x (e : Exec) (rd : Reg) (rs1 : Reg) (rs2 : Reg) (pair : BitVec 5)
  /-- AIRZ (R112): Instruction AIRZ evaluates the compressibility factor of moist air -/
  | airz (e : Exec) (rd : Reg) (rs1 : Reg) (rs2 : Reg) (rs3 : Reg)
  /-- AIRD (R112): Instruction AIRD evaluates the density of moist air -/
  | aird (e : Exec) (rd : Reg) (rs1 : Reg) (rs2 : Reg) (rs3 : Reg)
  /-- GATE (R114): Instruction GATE places a gate at the next instant when one is due, taking a checkpoint -/
  | gate (e : Exec)
  /-- FENCE (R115): Instruction FENCE waits for all earlier instructions and hands out pushed live items -/
  | fence (e : Exec)
  /-- PUSHL (R111): Instruction PUSHL appends a speculative live item for the instant, at the head only -/
  | pushl (e : Exec) (rs1 : Reg) (rs2 : Reg) (tag : BitVec 6)
  /-- PUSHR (R111): Instruction PUSHR appends a result item to the segment's result output -/
  | pushr (e : Exec) (rs1 : Reg) (rs2 : Reg) (tag : BitVec 6)
  /-- BEQ (R98): Instruction BEQ branches when two registers are equal -/
  | beq (e : Exec) (rs1 : Reg) (rs2 : Reg) (off : W16)
  /-- BNE (R98): Instruction BNE branches when two registers differ -/
  | bne (e : Exec) (rs1 : Reg) (rs2 : Reg) (off : W16)
  /-- BLT (R98): Instruction BLT branches on a signed less-than -/
  | blt (e : Exec) (rs1 : Reg) (rs2 : Reg) (off : W16)
  /-- BGE (R98): Instruction BGE branches on a signed greater-or-equal -/
  | bge (e : Exec) (rs1 : Reg) (rs2 : Reg) (off : W16)
  /-- JAL (R98): Instruction JAL pushes the return address, writes it to x31 and jumps -/
  | jal (e : Exec) (off : BitVec 26)
  /-- JR (R98): Instruction JR pops the link stack and jumps to the register's address -/
  | jr (e : Exec) (rs1 : Reg)
  /-- LOOP (R99): Instruction LOOP runs the following n instructions x[rs1] times, bounded by 2^k -/
  | loop (e : Exec) (rs1 : Reg) (k : BitVec 4) (n : BitVec 12)
  /-- HALT (R96): Instruction HALT ends initialisation in the Q-profile or ends the bay program in the S-profile -/
  | halt (e : Exec)
  /-- YIELD (R95): Instruction YIELD ends the instant of a tally program -/
  | yield (e : Exec) (cycles : Nat)
  /-- TRAP (R116): Instruction TRAP stops the program with trap code 0x01 -/
  | trap (e : Exec) (imm : W16)
  /-- BAY_RELOAD_DONE (R250): SV finishes reloading the bay image and the program starts at INIT, setting BAY -/
  | bayReloadDone
  /-- DRVSET (R119): Instruction DRVSET requests a drive on or off and returns a status -/
  | drvset (e : Exec) (rd : Reg) (rs1 : Reg) (rs2 : Reg)
  /-- DRVGET (R119): Instruction DRVGET returns the DRV_STATE word of a drive -/
  | drvget (e : Exec) (rd : Reg) (rs1 : Reg)
  /-- EVWAIT (R120): Instruction EVWAIT waits for or polls pending bay event bits in a mask and consumes them -/
  | evwait (e : Exec) (rd : Reg) (rs1 : Reg)
  /-- TMSET (R121): Instruction TMSET arms a bay timer for a duration in µs -/
  | tmset (e : Exec) (rd : Reg) (rs1 : Reg) (rs2 : Reg)
  /-- TMSET_CANCEL (R121): Instruction TMSET with CANCEL disarms a bay timer and clears its pending bit -/
  | tmsetCancel (e : Exec) (rd : Reg) (rs1 : Reg)
  /-- SIGNAL (R122): Instruction SIGNAL writes a BAY SIGNAL packet to FQ5, holding while FQ5 is full -/
  | signal (e : Exec) (rd : Reg) (rs1 : Reg) (rs2 : Reg)
  /-- PILOT (R122): Instruction PILOT reads the pilot word or sets the control-pilot output -/
  | pilot (e : Exec) (rd : Reg) (rs1 : Reg) (rs2 : Reg)
  /-- SLIPTX (R122): Instruction SLIPTX queues a CAN FD Slipway frame -/
  | sliptx (e : Exec) (rd : Reg) (rs1 : Reg) (rs2 : Reg) (rs3 : Reg)
  /-- SLIPRX (R122): Instruction SLIPRX takes the oldest received Slipway frame of a port into memory -/
  | sliprx (e : Exec) (rd : Reg) (rs1 : Reg) (rs2 : Reg)
  /-- SESSOPEN (R123): Instruction SESSOPEN asks the billing block to open a transfer session on a meter point as a CMD event with a boundary gate -/
  | sessopen (e : Exec) (rd : Reg) (rs1 : Reg) (rs2 : Reg)
  /-- SESSCLOSE (R123): Instruction SESSCLOSE closes a transfer session with a reason code -/
  | sessclose (e : Exec) (rd : Reg) (rs1 : Reg) (rs2 : Reg)
  /-- BAY_TIMER_EXPIRE (R121): A bay timer expires and latches its pending event bit -/
  | bayTimerExpire (n : Fin 16)
  /-- AFE_SAMPLE (R54): At a grid instant the AFE delivers calibrated primary and check samples of a group into the replay buffer and the head begins the instant -/
  | afeSample (k : Fin 8) (raw : Vector RawSample 16) (temp : Option W16)
  /-- HORIZON_PUBLISH (R74): A context source publishes a new horizon, which may let outstanding gates commit -/
  | horizonPublish (k : Fin 8) (src : Fin 4)
  /-- GATE_COMMIT (R78): An outstanding gate whose horizons have reached it commits, releasing results, applying pulse spills and bins to the billing block and freeing resources -/
  | gateCommit (k : Fin 8)
  /-- CONTEXT_EVENT (R80): A stamped context event reaches an engine and takes effect, starts or restarts a sidestep, or is a late event -/
  | contextEvent (k : Fin 8) (ev : CtxEv)
  /-- SIDESTEP_SWITCHOVER (R80): The replay thread reaches H, its state becomes the head's, the epoch increments and RETRACT is sent to FQ2 -/
  | sidestepSwitchover (k : Fin 8)
  /-- FORCED_GATE (R83): The newest sample lies 3,584 samples after c, or the context log overflows, and the engine forces a gate committing all outstanding gates flagged FORCED -/
  | forcedGate (k : Fin 8)
  /-- HEAD_STALL_END (R79): A head stalled on a full undo log or bin store resumes when the oldest outstanding gate commits -/
  | headStallEnd (k : Fin 8)
  /-- QE_LOCKSTEP (R86): A lockstep mismatch in a quantity engine stops both threads and replays in place from the latest valid checkpoint -/
  | qeLockstep (k : Fin 8)
  /-- RECOVER_CATCH_UP (R86): An in-place replay reaches the newest sample and live packets resume -/
  | recoverCatchUp (k : Fin 8)
  /-- QE_RELOAD_DONE (R87): SV finishes reloading an engine image, the engine restores the checkpoint of c and receives the logged context events -/
  | qeReloadDone (k : Fin 8)
  /-- QE_CATCH_UP (R87): A restarted engine catches up with the bridge buffer, sends RETRACT and sets QEk -/
  | qeCatchUp (k : Fin 8)
  /-- PROG_LOAD_DONE (R130): SV has written the new tally image, initialisation runs and the head resumes from s -/
  | progLoadDone (k : Fin 8)
  /-- HEAD_CATCH_UP (R130): A head restarted after a program change catches up with the newest sample and live packets resume -/
  | headCatchUp (k : Fin 8)
  /-- CMP_WINDOW_END (R58): A 200 ms comparison window of a tap closes and is judged, declaring a disagreement after three exceeding windows -/
  | cmpWindowEnd (t : TapNo)
  /-- REF_ROUND_START (R61): A routine reference-round slot of a tap arrives and the check chain is switched to references -/
  | refRoundStart (t : TapNo)
  /-- IDENT_ROUND_START (R63): The 5 s identification timer of a tap in IDENT starts another reference round -/
  | identRoundStart (t : TapNo)
  /-- REF_ROUND_END (R60): A 150 ms reference round ends, is judged pass or fail and the arbiter decides its verdict or next state -/
  | refRoundEnd (t : TapNo) (r : RefReading)
  /-- ZC_TIMEOUT (R57): No zero crossing for ZC_TMO ms puts the detector in NOAC -/
  | zcTimeout (t : TapNo)
  /-- TAP_FAULT_DECLARE (R68): A signal-fault criterion has held for its time and the tap's fault class is declared with TAP_FAULT and tamper records -/
  | tapFaultDeclare (t : TapNo) (cls : BitVec 4) (lost : Bool)
  /-- TAP_FAULT_CLEAR (R68): A fault criterion absent for 1 s clears the tap's fault class -/
  | tapFaultClear (x : TapClear)
  /-- QUAL_POLL (R148): The POLL_S timer of a quality binding sends a Modbus request stamped at its first bit -/
  | qualPoll (mp : MpNo)
  /-- QUAL_RESPONSE (R148): A valid Modbus response sets the meter point's parameter as a QUAL event with the request's stamp -/
  | qualResponse (mp : MpNo) (raw : List W16)
  /-- QUAL_REQUEST_FAIL (R149): A Modbus request times out or fails and closes with no event, falling back after LOST_N failures -/
  | qualRequestFail (mp : MpNo) (why : Fin 8)
  /-- SPILL_PULSE_ON_END (R155): The ON_MS time of a spill pulse expires and the output turns off -/
  | spillPulseOnEnd (mp : MpNo) (slot : Fin 8)
  /-- SPILL_PULSE_OFF_END (R155): The OFF_MS time expires, the output becomes idle and starts the next pulse if a backlog remains -/
  | spillPulseOffEnd (mp : MpNo) (slot : Fin 8)
  /-- TIME_EVENT_HANDOFF (R168): Platform firmware hands a scheduled TIME event to the engines 1 s before its civil instant -/
  | timeEventHandoff
  /-- DEMAND_CLOSE (R172): A demand interval or sub-interval ends at its stamp and demands and maximum demand are computed and recorded -/
  | demandClose
  /-- BILLING_CLOSE (R177): A scheduled or commanded billing close shifts history, snapshots registers, resets maximum demand and writes a signed ledger record -/
  | billingClose
  /-- TARIFF_SWITCH (R169): A switch point of the calendar changes the tariff in force from its stamp -/
  | tariffSwitch
  /-- CALENDAR_ACTIVATION (R168): The passive tariff set is copied into the active set at its stamp and tariffs are re-evaluated -/
  | calendarActivation
  /-- SESSION_OPEN_APPLY (R179): A transfer session opens at its stamp with a boundary gate -/
  | sessionOpenApply (mp : MpNo)
  /-- SESSION_CLOSE_APPLY (R182): A transfer session closes at its stamp, copying registers, writing a SESSION ledger record and raising bay event 25 -/
  | sessionCloseApply (mp : MpNo)
  /-- LP_PERIOD_END (R184): A load-profile period ends and the channel records its increment, end instant and flags -/
  | lpPeriodEnd (ch : Fin 256)
  /-- CLOCK_STEP (R198): A clock step takes effect at its stamp, changing the civil-time mapping and executing or suppressing boundaries -/
  | clockStep
  /-- CG10_APPLY (R201): A CG10 commit takes effect at its stamp, re-placing boundaries under the new offset and daylight-saving rule -/
  | cg10Apply
  /-- TIME_MAPPING_FREEZE (R195): Every 5 ms platform firmware freezes the civil-time mapping up to a new TIME horizon -/
  | timeMappingFreeze
  /-- AO_CALIBRATE (R194): Every 10 s the 32.768 kHz crystal is measured against the TCXO and the AO counter's rate corrected -/
  | aoCalibrate (meas : Int)
  /-- PTP_MESSAGE (R196): A PTP Sync, Follow_Up, delay or Announce message is received and processed for best master, offset, lock and slew or step -/
  | ptpMessage (f : PtpFrame)
  /-- PTP_SYNC_TIMEOUT (R196): 3 s without Sync returns PTP to uncalibrated -/
  | ptpSyncTimeout
  /-- TIME_STEP_NEEDED (R198): PTP locked with an offset above 1 s for 10 s sets STEP_NEEDED and raises TIME_STEP_NEEDED -/
  | timeStepNeeded
  /-- LEAP_SMEAR (R199): 2,000 s before an announced leap second a 500 ppm slew starts and LEAP_SMEAR is raised -/
  | leapSmear
  /-- SLEW_COMPLETE (R197): A slew's remaining offset falls below 1 µs and the slew ends -/
  | slewComplete
  /-- MAIN_DROP (R203): MAIN below 16.0 V for 20 µs with the AUX rail present switches the feed to AUX and HOLDOVER begins -/
  | mainDrop
  /-- MAIN_TAKEOVER (R203): MAIN at or above 17.0 V for 100 ms takes the feed back from AUX -/
  | mainTakeover
  /-- AUX_LOST (R203): The AUX rail falls below 15 V, raising AUX_LOST and switching back to MAIN if AUX was feeding -/
  | auxLost
  /-- MAIN_LOW (R203): MAIN below 18 V for 1 s while feeding raises MAIN_LOW -/
  | mainLow
  /-- POWER_FAIL_DETECT (R206): MAIN and the AUX rail below 15 V for 200 µs shed the non-save domains and start the final save at p -/
  | powerFailDetect
  /-- HOLDUP_EXHAUSTED (R208): The hold-up bank runs out, the save domain and safety channels stop and the AO island runs on the cell -/
  | holdupExhausted (complete : Bool)
  /-- POWER_UP (R374): MAIN or AUX reaches 18 V after power-off or a host reset and the start sequence runs, setting SIX, booting, restoring and reporting START -/
  | powerUp (p : PowerOn)
  /-- START_END (R374): START ends when its readiness conditions hold, writing the RESTART record and opening a PARTIAL demand interval -/
  | startEnd
  /-- START_INCOMPLETE (R374): START has not ended 30 s after t0, ends anyway and raises START_INCOMPLETE -/
  | startIncomplete
  /-- JOURNAL_ENTRY (R209): Every 100 ms the save engine writes a journal entry with committed changes and a standing image -/
  | journalEntry
  /-- HOLDUP_TEST_DAILY (R212): At HU_HOUR HK disconnects the charger and tests the hold-up bank, raising HOLDUP_WEAK if short -/
  | holdupTestDaily
  /-- CHARGER_RECONNECT (R15): The hold-up charger reconnects by hardware 100 ms after a test disconnection -/
  | chargerReconnect (holdup : W16) (cap : W8)
  /-- HU_OVERDUE (R212): A hold-up test that cannot run for 48 h raises HU_OVERDUE -/
  | huOverdue
  /-- HOLDUP_CHARGED (R213): The bank reaches full charge and HOLDUP_CHG clears -/
  | holdupCharged
  /-- CELL_MEASURE (R205): The hourly cell measurement under load updates the cell voltage and raises CELL_LOW below 2.70 V -/
  | cellMeasure (v : W8)
  /-- HK_REPORT (R15): HK writes its periodic supply, temperature and hold-up report registers -/
  | hkReport (r : HkReport)
  /-- HK_SILENT (R15): An HK periodic report 10 s overdue raises HK_SILENT -/
  | hkSilent
  /-- MEMORY_SCRUB (R15): HK asks the memory controller to write back a word corrected by ECC -/
  | memoryScrub
  /-- EVT_PERSIST (R220): Every 10 ms one ring entry is persisted to the MRAM event log, possibly ending overrun -/
  | evtPersist
  /-- EVT_ARCHIVE_COPY (R220): SV copies persisted event-log entries to the eMMC archive -/
  | evtArchiveCopy
  /-- EVT_COUNTER_PERSIST (R216): Event source counters and times are persisted to MRAM at most once per second -/
  | evtCounterPersist
  /-- HELD_EVENTS_ENTER (R218): When SV becomes ready, events held by their sources are entered with HELD set in SIX order -/
  | heldEventsEnter
  /-- AO_TAMPER_SAMPLE (R223): Every 10 ms the AO island samples the cover, seal and LSW switches and stamps changes -/
  | aoTamperSample (cover : Bool) (sealOpen : Bool) (lsw : Bool) (mesh : Bool)
  /-- MAG_SAMPLE (R223): Once per second the magnetometer is sampled and the MAGNETIC condition judged -/
  | magSample (v : W16)
  /-- PHASE_LOSS_CHECK (R224): A PHASE_LOSS criterion held or absent for 1 s starts or ends the PHASE_LOSS tamper type -/
  | phaseLossCheck (mp : MpNo)
  /-- TEMP_RANGE_CHECK (R398): Backplate or AFE temperature out of range for 10 s starts TEMP_RANGE -/
  | tempRangeCheck (backplate : Int)
  /-- LEDGER_SIGNATURE_TIMER (R231): 60 s after the previous signature a SIGNATURE record is appended -/
  | ledgerSignatureTimer
  /-- LEDGER_APPEND (R232): SV appends a staged ledger record from the MRAM staging ring to eMMC and moves the chain head -/
  | ledgerAppend
  /-- LEDGER_WRITE_FAIL (R232): An eMMC write that cannot be retried within 10 s writes LEDGER_FAULT -/
  | ledgerWriteFail
  /-- PLATE_MIRROR_UPDATE (R327): Every 60 s and at listed occasions platform firmware writes and signs the plate tag's public mirror -/
  | plateMirrorUpdate
  /-- DISP_BTN_SHORT (R228): A press of DISP_BTN shorter than 2 s advances and holds the next page for 60 s -/
  | dispBtnShort
  /-- DISP_BTN_LONG (R228): A press of 2 s or more shows the alternate list -/
  | dispBtnLong
  /-- DISP_PAGE_TIMER (R227): A page's dwell or the 60 s hold expires and the display moves on or resumes scroll -/
  | dispPageTimer
  /-- FERRY_CLAIM (R235): A FERRY_CTL CLAIM write takes an unowned queue for a master of sufficient role -/
  | ferryClaim (m : Master5) (q : Fin 8)
  /-- FERRY_RELEASE (R235): A FERRY_CTL RELEASE write by the owner gives up the queue and empties its banks -/
  | ferryRelease (m : Master5) (q : Fin 8)
  /-- FERRY_FLUSH (R235): A FERRY_CTL FLUSH write by the owner empties both banks and counts the packets in DROP -/
  | ferryFlush (m : Master5) (q : Fin 8)
  /-- FERRY_DATA_READ (R239): A read of FERRY_DATA by the owner pops the next word or returns the idle item and may swap banks -/
  | ferryDataRead (m : Master5) (q : Fin 8)
  /-- FERRY_HOLD_RELEASE (R241): A held packet is written once room appears in the lossless queue -/
  | ferryHoldRelease (q : Fin 8)
  /-- QUEUE_STALL (R241): A producer hold lasting 1 s raises QUEUE_STALL, and at 10 s or a full buffer the claim ends -/
  | queueStall (q : Fin 8) (ten : Bool)
  /-- FERRY_PTR_MISMATCH (R242): The two pointer copies disagree and the queue is reset with ABORT and FERRY_PTR -/
  | ferryPtrMismatch (q : Fin 8)
  /-- FERRY_PARITY_END (R243): At the first bank swap after recovery ends, the queue leaves parity mode for pointer mode -/
  | ferryParityEnd (q : Fin 8)
  /-- PILOT_STATE_CHANGE (R253): Three agreeing CP samples confirm a new pilot state, updating ST_PILOT, the pilot gate and event 16 -/
  | pilotStateChange (hi : Plateaus) (lo : Int)
  /-- PP_MEASURE (R256): Every 10 ms PP is measured and a changed proximity code updates ST_PILOT and latches event 17 -/
  | ppMeasure (ohms : Nat)
  /-- V2G_REQUEST (R258): An ISO 15118 request is answered within 20 ms from the V2G area, posting message codes to the program -/
  | v2gRequest (r : V2gReq)
  /-- CAN_FRAME_RX (R261): A CAN FD frame is received on a port and kept for SLIPRX, or handed to SF for code 0x3F -/
  | canFrameRx (p : Fin 2) (id : W32) (data : List W8) (t : W32)
  /-- CAN_BUS_OFF (R261): A port goes bus-off and rejoins by the ISO 11898-1 recovery sequence, raising CAN_BUS_OFF -/
  | canBusOff (p : Fin 2)
  /-- RCM_FLT_INPUT (R263): An enabled RCM_FLT input reports a sensor fault and latches a bay trip -/
  | rcmFltInput (k : Fin 4) (active : Bool)
  /-- IMD_MEASURE (R264): Every 2 s the insulation monitor yields R_iso, updating status and tripping or warning -/
  | imdMeasure (kohm : W16)
  /-- BAY_LOCKSTEP (R250): A lockstep mismatch in BS is a bay fault -/
  | bayLockstep
  /-- BAY_PAUSE_END (R251): BS resumes after a changeover or SV reset pause -/
  | bayPauseEnd
  /-- MODEM_POLL (R407): At least every 1 ms the module sends READ_STATUS to the modem and reads or writes frames -/
  | modemPoll (status : Option ModemStatus) (frames : List ModemFrame) (sent : List W8)
  /-- MODEM_FAULT (R407): No valid READ_STATUS reply for 100 ms ends ISO 15118 and resets the modem -/
  | modemFault
  /-- VOUT_UNDERVOLT (R269): VOUT below 16.0 V for 50 µs turns its drives off within 100 µs and raises UNDERVOLT -/
  | voutUndervolt (b : Bool)
  /-- VOUT_RECOVER (R269): VOUT above 18.0 V for 10 ms returns its drives to their commanded states -/
  | voutRecover (b : Bool)
  /-- VOUT_OVERLOAD (R268): A supply delivering more than 24 A for 1 s raises VOUT_OVERLOAD -/
  | voutOverload (b : Bool)
  /-- DRV_OVERCURRENT (R272): A drive in current limit for 1 ms shuts down and waits for retry or enters OC_LOCK -/
  | drvOvercurrent (n : DriveNo)
  /-- DRV_RETRY (R272): The 100 ms retry wait ends and the drive turns on again if still commanded on -/
  | drvRetry (n : DriveNo)
  /-- DRV_RETRY_RELOAD (R272): A drive on for 60 s without over-current has its retry count reloaded -/
  | drvRetryReload (n : DriveNo)
  /-- DRV_THERMAL (R273): A drive junction reaches 175 °C and latches off -/
  | drvThermal (n : DriveNo)
  /-- DRV_TEST_PULSE (R274): Every TP_PERIOD an on standard drive gets an off-pulse and SHORT_HI is judged -/
  | drvTestPulse (n : DriveNo) (fell : Bool) (conclusive : Bool)
  /-- DRV_OPEN_LOAD (R275): An open-load condition held for its time sets OPEN, or clears it after 1 s absent -/
  | drvOpenLoad (n : DriveNo) (result : OpenLoad)
  /-- DRV_CLAMP_TEST (R271): The daily clamp-path check of each drive runs and sets CLAMP_BAD on a fail -/
  | drvClampTest (n : DriveNo) (ok : Bool)
  /-- DRV_TEST_RETRY (R276): An aborted inconclusive drive test is repeated 100 ms later -/
  | drvTestRetry (n : DriveNo) (fell : Bool) (conclusive : Bool)
  /-- DRV_CMD_WRITE (R278): A write-masked DRV_CMD write sets commanded states of host-owned drives -/
  | drvCmdWrite (m : Master5) (k : Fin 3) (v : W32)
  /-- DRV_HEARTBEAT (R279): SV sends a heartbeat to every drive die every 1 ms -/
  | drvHeartbeat
  /-- CONTROLLER_LOST (R279): No heartbeat for 3 ms, or SV held in reset or shed, puts every drive into its hold window or fail state -/
  | controllerLost
  /-- HOLD_WINDOW_EXPIRE (R279): DRV_HOLD_MS after controller loss without a claim each drive enters its fail state -/
  | holdWindowExpire
  /-- DRV_CLAIM (R281): A DRV_CLAIM write by platform firmware ends the hold window or fail state of selected dies -/
  | drvClaim (dies : BitVec 12) (by_ : Option Master5)
  /-- LH_INPUT_CHANGE (R280): A filtered LH input change switches limp-home drives that follow it -/
  | lhInputChange (lh : W8)
  /-- SAFETY_INPUT_CHANGE (R294): A filtered safety input change is a demand or restores a contact, updating zone states in each channel -/
  | safetyInputChange (sf : W16) (edge : W16)
  /-- SAFETY_TEST_PULSE (R293): A TPA or TPB low pulse every 5 ms checks the pulsed inputs for cross-circuit faults -/
  | safetyTestPulse (b : Bool) (fell : Fell) (ok : Bool)
  /-- DISCREPANCY_TIMEOUT (R294): A pair discrepancy lasting 100 ms puts the zone in FAULT -/
  | discrepancyTimeout (z : Fin 4) (second : Bool)
  /-- CROSS_LINK_EXCHANGE (R286): Every 1 ms SF and the Edge logic exchange inputs, zone states and grants and act on a mismatch -/
  | crossLinkExchange
  /-- SF_SILENT (R286): The SF heartbeat silent for 5 ms makes the Edge logic cut every safety drive and latch SF_FAULT -/
  | sfSilent
  /-- SF_RELOAD (R287): After SF_FAULT, SV reloads SF and the Edge logic cuts until 1 s of cross-link agreement -/
  | sfReload
  /-- SAFETY_SWITCH_READ (R288): Every 100 ms each channel reads the sealed switch word and raises a global fault on change -/
  | safetySwitchRead (sf : W16) (edge : W16)
  /-- SAFE_ACK_EDGE (R296): A valid SAFE_ACK falling edge restarts eligible zones and clears eligible global faults -/
  | safeAckEdge (high : Bool)
  /-- SAFE_ACK_STUCK (R296): SAFE_ACK held high beyond 2 s is ignored and raises SAFE_ACK_STUCK -/
  | safeAckStuck
  /-- RDC_TRIP (R297): The residual-current comparator exceeds its threshold and the zone enters TRIPPED with cause RDC -/
  | rdcTrip (k : Fin 4) (ac : Bool) (dc : Bool)
  /-- SAFETY_DRIVE_OFF_PULSE (R277): Each channel pulses its own switch of energised safety drives every 500 ms and detects stuck switches -/
  | safetyDriveOffPulse (edge : Bool) (stuck : StuckSeen)
  /-- ESC_FRAME_RX (R303): An Eombelan frame is received and checked, updating the connection state and received permit -/
  | escFrameRx (ec : Fin 16) (bytes : List W8)
  /-- ESC_SEND_TIMER (R303): A connection sends START or DATA every floor(WD_MS/4) ms or on a permit change -/
  | escSendTimer (ec : Fin 16)
  /-- ESC_WATCHDOG (R304): No frame accepted for WD_MS makes the connection LOST and trips its RX zones -/
  | escWatchdog (ec : Fin 16)
  /-- ESC_RESTART (R304): After 100 ms in LOST the connection returns to STARTING -/
  | escRestart (ec : Fin 16)
  /-- SF_TABLE_CHECK (R307): Every 10 ms SF checks its connection-table copy and latches TABLE on a mismatch -/
  | sfTableCheck (bad : Bool)
  /-- LINK_POLL (R311): Every POLL_MS the reader switches the field on, waits 2 ms and runs badge and Crossing rounds -/
  | linkPoll (r : PollResult)
  /-- TAG_LEFT (R323): A tracked tag unseen for TRACK_Q + 1 s, or a badge missing two polls, has left and is posted -/
  | tagLeft
  /-- CROSSING_REQ (R318): The plate tag receives REQ and replies with its identifier, becoming READY -/
  | crossingReq (frame : List W8)
  /-- CROSSING_SEL (R317): The plate tag receives SEL and replies or becomes ACTIVE on a full match -/
  | crossingSel (frame : List W8)
  /-- CROSSING_HALT (R318): The plate tag receives HALT and becomes HALTED -/
  | crossingHalt (frame : List W8)
  /-- CROSSING_QUIET (R317): The plate tag receives QUIET and stores its quiet time -/
  | crossingQuiet (frame : List W8)
  /-- CROSSING_STATUS (R317): The plate tag receives STATUS and replies as SELACK -/
  | crossingStatus (frame : List W8)
  /-- CROSSING_READ (R326): The plate tag receives READ and replies with a block and its version -/
  | crossingRead (frame : List W8)
  /-- CROSSING_WRITE (R318): The plate tag receives WRITE, which its areas refuse in plain -/
  | crossingWrite (frame : List W8)
  /-- CROSSING_AUTH1 (R321): The plate tag receives AUTH1 and replies with a fresh RndB -/
  | crossingAuth1 (frame : List W8)
  /-- CROSSING_AUTH2 (R321): The plate tag receives AUTH2, checks RndB and replies with its token -/
  | crossingAuth2 (frame : List W8)
  /-- CROSSING_AUTH3 (R322): The plate tag receives AUTH3 and opens a session with its lock range -/
  | crossingAuth3 (frame : List W8)
  /-- CROSSING_SREAD (R326): The plate tag receives SREAD and replies with a CCM-protected block -/
  | crossingSread (frame : List W8)
  /-- CROSSING_SWRITE (R326): The plate tag receives SWRITE and writes a block of its session's area, raising PLATE_FIELD_WRITE -/
  | crossingSwrite (frame : List W8)
  /-- FIELD_GAP (R318): A field gap of 8 ms or more returns the plate tag to IDLE and ends its session -/
  | fieldGap (ms : Nat)
  /-- QUIET_TIME_EXPIRE (R318): A HALTED tag's quiet time expires and it returns to IDLE -/
  | quietTimeExpire
  /-- CROSSING_SESSION_TIMEOUT (R322): A Crossing session ends 10 s after AUTH3 and releases its locks -/
  | crossingSessionTimeout
  /-- PLATE_HOLD_END (R329): A field transaction's hold of a block ends and a queued host access is performed and completed by NOTICE -/
  | plateHoldEnd
  /-- SLICE_MARKER (R325): A tandem slice boundary every 20 ms switches the reader field between modules -/
  | sliceMarker
  /-- KWR_REQUEST (R338): An engine requests a slot key and SC loads it into the working key register in priority order -/
  | kwrRequest (e : Fin 5) (slot : Fin 64)
  /-- KWR_RELEASE (R338): An engine releases its working-key grant and SC clears KWR -/
  | kwrRelease (e : Fin 5)
  /-- KWR_TIMEOUT (R338): A working-key grant expires after 10 ms, KWR is cleared and the operation ends with TIMEOUT -/
  | kwrTimeout
  /-- CONDEMN_GRACE_END (R345): An operation running under a condemned key reaches its 64 KiB or 10 ms limit and KWR is cleared -/
  | condemnGraceEnd
  /-- CLASS_A_TAMPER (R349): A SEC detector trips and zeroises the KEK seed and key store, entering PROVISIONED and QUARANTINE -/
  | classATamper (t : Fin 4)
  /-- ZEROISE_REKEY (R349): After zeroisation SC draws a new KEK seed, generates a new ledger key and sets KEYS -/
  | zeroiseRekey
  /-- SESSION_TIMEOUT (R355): A session with no frame or message for 600 s ends -/
  | sessionTimeout (m : Master5)
  /-- LOCKOUT_END (R354): An account lockout expires -/
  | lockoutEnd (a : Fin 16)
  /-- CHANGEOVER_BOOT (R362): The new image boots, loads settings, claims the dies and starts the trial watchdog -/
  | changeoverBoot
  /-- CHANGEOVER_RESUME (R362): Engines reload, replay the bridge and catch up, and CHANGEOVER ends with the host and bay back -/
  | changeoverResume
  /-- CHANGEOVER_WATCHDOG (R364): CHANGEOVER not ended by t0 + 1.2 s reverts to the previous image -/
  | changeoverWatchdog
  /-- BRIDGE_OVERFLOW (R363): An engine's share of the bridge buffer fills before it resumes, and the lost instants are flagged SAVE_SHORT -/
  | bridgeOverflow (k : Fin 8)
  /-- UPD_HEALTH_WRITE (R367): Platform firmware writes UPD_HEALTH.OK, confirming the slot, updating UPD_ROLL and copying the SF component -/
  | updHealthWrite
  /-- TRIAL_WATCHDOG (R367): No health confirmation within 120 s reverts the trial image -/
  | trialWatchdog
  /-- SV_WATCHDOG (R380): The SV watchdog unserviced for 8 s resets SV with cause 2 -/
  | svWatchdog
  /-- SV_LOCKSTEP (R380): A lockstep mismatch of SV resets it at once with cause 3 -/
  | svLockstep
  /-- SV_RESET_EXIT (R423): SV leaves reset, reloads settings, claims the dies and resets readiness of restarted functions -/
  | svResetExit
  /-- PAIR_HEARTBEAT (R384): A partner heartbeat arrives on J11 or UDP, carrying role, mode, readiness, commit sequence and safety commands -/
  | pairHeartbeat (h : Heartbeat)
  /-- PAIR_ALONE_TIMEOUT (R383): No pair within 2 s of SV ready and no heartbeat makes the module active alone -/
  | pairAloneTimeout
  /-- PAIR_PARTNER_LOST (R388): No heartbeat for 5 ms loses the partner and the standby fails over to active -/
  | pairPartnerLost
  /-- PAIR_LANE_LOSS (R410): A J11 lane without signal for 1 ms is dropped, raising PAIR_LINK_DOWN when both are down -/
  | pairLaneLoss (lane : Fin 2)
  /-- PAIR_LANE_REJOIN (R410): A dropped lane rejoins after 100 ms of clean signal -/
  | pairLaneRejoin (lane : Fin 2)
  /-- NET_LINK_CHANGE (R372): An Ethernet link goes up or down, updating NET readiness -/
  | netLinkChange (port : Fin 4) (up : Bool)
  /-- ILLEGAL_INSTRUCTION (R94): A Q- or S-profile engine executes a word with a reserved opcode, unassigned fn, non-zero unused field or bad selector, which is an illegal instruction with trap code 0x03 -/
  | illegalInstruction (e : Exec) (w : W32)
  /-- ENGINE_LOCKSTEP_MISMATCH (R14): A lockstep mismatch is detected in LK, NX, SC or SF within 1 µs -/
  | engineLockstepMismatch (isl : Island)
  /-- AUX_RAIL_RETURN (R203): The AUX rail rises to 15 V or more, setting AUX_OK and allowing the switch to AUX while MAIN is below 16.0 V -/
  | auxRailReturn
  /-- VIO_CHANGE (R402): The host-supplied VIO crosses 1.5 V, so the host port stops or resumes driving IO0–IO3 and HINT_N and attending to SCK and CS_N -/
  | vioChange (ok : Bool)
  /-- SERVICE_PORT_ACCESS (R351): A USB access on J12 is served as identity or debug, or in DEPLOYED is refused and writes the SERVICE_PORT tamper record -/
  | servicePortAccess (debug : Bool)
  /-- CAN_FRAME_TX (R122): A queued Slipway frame is transmitted on its CAN FD port and leaves the port's queue of eight -/
  | canFrameTx (p : Fin 2)
  deriving DecidableEq, Repr

end Sys2Proof
end

