-- ==== Sys2Proof/WellFormed.lean ====
section
/-! DEFINITION. Well-formed commands: operands that the hardware could receive. Everything with a
fixed width is typed in `Syntax`; the checks below are of lists and numbers whose range the manual
gives beside their type. -/

namespace Sys2Proof

/-- Lengths of the data of a CAN FD frame: 1-8, 12, 16, 20, 24, 32, 48 or 64 bytes (R122). -/
def canLen (n : Nat) : Bool :=
  (decide (1 ≤ n) && decide (n ≤ 8)) || [12, 16, 20, 24, 32, 48, 64].contains n

/-- A CAN FD frame: a 29-bit identifier and data of one of its lengths (R122, R262). -/
def canWf (id : W32) (data : List W8) : Bool := decide (id.toNat < 2 ^ 29) && canLen data.length

/-- The counters of a tap count at most one edge in 20 µs of a sample period, which is at most 250 µs (R53, R54). -/
def sampleWf (raw : Vector RawSample 16) : Bool :=
  raw.toList.all (fun r => decide (r.pEdges ≤ 13) && decide (r.cEdges ≤ 13))

/-- A READ_FRAME reply carries no frame, or an Ethernet frame of 60 to 1518 bytes (R406). -/
def modemWf (frames : List ModemFrame) : Bool :=
  frames.all (fun f => decide (f.bytes.length = f.len.toNat) &&
    (f.bytes.isEmpty || (decide (60 ≤ f.bytes.length) && decide (f.bytes.length ≤ 1518))))

/-- A Crossing frame as one of its rows takes it begins with that row's command code (R317). -/
def crossingWf (code : W8) (frame : List W8) : Bool := decide (frame.head? = some code)

/-- A YHP header counts its operations in one byte (02, YHP). -/
def YhpIn.wf (m : YhpIn) : Bool := decide (m.n < 256)

/-- A client key is an uncompressed P-256 point of 64 bytes (R353). -/
def TlsClient.wf : TlsClient → Bool
  | .anonymous | .vendorChain => true
  | .clientKey k => decide (k.length = 64)

/-- A context event names one of four sources (R74). -/
def CtxEv.wf (e : CtxEv) : Bool := decide (e.src < 4)

/-- A V2G request is one of the messages of the exchange area, a charge loop, ServiceDiscovery or
an unsupported function (R258, R259). -/
def V2gReq.wf (r : V2gReq) : Bool := decide (r.msg ≤ 12)

/-- A poll reports a reply of each transfer at most once (R311, R331). -/
def PollResult.wf (r : PollResult) : Bool := decide (r.replies.map (·.index)).Nodup

/-- A deviation read on a reference stays within the converter's range (R60). -/
def RefReading.wf (r : RefReading) : Bool :=
  [r.zero, r.plus, r.minus].all (fun v => decide (-2000000 ≤ v) && decide (v ≤ 2000000))

/-- A well-formed command. -/
def Instr.wf : Instr → Bool
  | .yhpConnect c => c.wf
  | .yhpRead _ m => m.wf
  | .yhpWrite _ m => m.wf
  | .yhpCommand _ m => m.wf
  | .afeSample _ raw _ => sampleWf raw
  | .contextEvent _ ev => ev.wf
  | .refRoundEnd _ r => r.wf
  | .v2gRequest r => r.wf
  | .canFrameRx _ id data _ => canWf id data
  | .modemPoll _ frames _ => modemWf frames
  | .linkPoll r => r.wf
  | .crossingReq f => crossingWf 0x01 f
  | .crossingSel f => crossingWf 0x02 f
  | .crossingHalt f => crossingWf 0x03 f
  | .crossingQuiet f => crossingWf 0x04 f
  | .crossingStatus f => crossingWf 0x05 f
  | .crossingRead f => crossingWf 0x10 f
  | .crossingWrite f => crossingWf 0x11 f
  | .crossingAuth1 f => crossingWf 0x20 f
  | .crossingAuth2 f => crossingWf 0x21 f
  | .crossingAuth3 f => crossingWf 0x22 f
  | .crossingSread f => crossingWf 0x30 f
  | .crossingSwrite f => crossingWf 0x31 f
  | .hostFrame .. | .hostFrameAbandoned | .hostPortEnable | .sysHintStatusWrite ..
  | .registerWrite .. | .islandTimeout .. | .yhpConnectionClose .. | .queuePush ..
  | .landReqWrite .. | .landFillComplete .. | .landD3Read .. | .cfgShadowWrite .. | .cfgCommit ..
  | .cfgDiscard .. | .legalChangeApply | .cfgCrcPass .. | .cfgPersist .. | .ticketCompletion ..
  | .nop .. | .ticketCancel .. | .sysModeSet .. | .sysQuarClr .. | .sysRestart ..
  | .holdupTest .. | .tapRefNow .. | .tapChainReset .. | .tapGlitchClr .. | .qeRestart ..
  | .qeCntClr .. | .qeTrace .. | .qeImgInstall .. | .qeImgRemove .. | .qeTapRecord ..
  | .tapRecordEnd .. | .billClose .. | .billSessClose .. | .billZero .. | .billLpRead ..
  | .tariffSchedule .. | .tariffUnschedule .. | .tariffCopy .. | .timeAdjust .. | .timeSet ..
  | .evtRead .. | .evtCntClr .. | .ledgerRead .. | .ledgerAck .. | .ferryTest .. | .dispTest ..
  | .baySignal .. | .bayRestart .. | .bayTripClr .. | .bayImgInstall .. | .bayImgRemove ..
  | .drvClr .. | .drvReclaim .. | .drvTestNow .. | .linkPtRead .. | .linkPtWrite ..
  | .linkXfer .. | .linkCntClr .. | .keyChallenge .. | .keyLogin .. | .keyLogout ..
  | .keyPasswd .. | .keyAcctSet .. | .keyUpdate .. | .keyReplace .. | .keyInvalidate ..
  | .keyDerive .. | .keyLcSet .. | .updStage .. | .updChunk .. | .stagingTimeout ..
  | .stagedImageExpiry .. | .updActivate .. | .updRevert .. | .updDiscard .. | .pairSwitch ..
  | .add .. | .sub .. | .and .. | .or .. | .xor .. | .mul .. | .mulh .. | .div .. | .rem ..
  | .slt .. | .sltu .. | .min .. | .max .. | .shl .. | .shr .. | .sra .. | .addi .. | .andi ..
  | .ori .. | .lui .. | .fadd .. | .fsub .. | .fmul .. | .fdiv .. | .fsqrt .. | .fma ..
  | .fcvtI .. | .fcvtFInt .. | .fcvtFAcc .. | .fcmp .. | .ld .. | .st .. | .ldw .. | .stw ..
  | .tap .. | .tapc .. | .tapst .. | .macw .. | .addw .. | .clrw .. | .bin .. | .bins ..
  | .spill .. | .ctx .. | .mark .. | .if97h .. | .if97d .. | .if97s .. | .if97c .. | .if97x ..
  | .airz .. | .aird .. | .gate .. | .fence .. | .pushl .. | .pushr .. | .beq .. | .bne ..
  | .blt .. | .bge .. | .jal .. | .jr .. | .loop .. | .halt .. | .yield .. | .trap ..
  | .bayReloadDone | .drvset .. | .drvget .. | .evwait .. | .tmset .. | .tmsetCancel ..
  | .signal .. | .pilot .. | .sliptx .. | .sliprx .. | .sessopen .. | .sessclose ..
  | .bayTimerExpire .. | .horizonPublish .. | .gateCommit .. | .sidestepSwitchover ..
  | .forcedGate .. | .headStallEnd .. | .qeLockstep .. | .recoverCatchUp .. | .qeReloadDone ..
  | .qeCatchUp .. | .progLoadDone .. | .headCatchUp .. | .cmpWindowEnd .. | .refRoundStart ..
  | .identRoundStart .. | .zcTimeout .. | .tapFaultDeclare .. | .tapFaultClear .. | .qualPoll ..
  | .qualResponse .. | .qualRequestFail .. | .spillPulseOnEnd .. | .spillPulseOffEnd ..
  | .timeEventHandoff | .demandClose | .billingClose | .tariffSwitch | .calendarActivation
  | .sessionOpenApply .. | .sessionCloseApply .. | .lpPeriodEnd .. | .clockStep | .cg10Apply
  | .timeMappingFreeze | .drvHeartbeat | .aoCalibrate .. | .ptpMessage .. | .ptpSyncTimeout | .timeStepNeeded
  | .leapSmear | .slewComplete | .mainDrop | .mainTakeover | .auxLost | .mainLow
  | .powerFailDetect | .holdupExhausted .. | .powerUp .. | .startEnd | .startIncomplete
  | .journalEntry | .holdupTestDaily | .chargerReconnect .. | .huOverdue | .holdupCharged
  | .cellMeasure .. | .hkSilent | .memoryScrub | .evtPersist | .evtArchiveCopy
  | .evtCounterPersist | .heldEventsEnter | .aoTamperSample .. | .magSample ..
  | .phaseLossCheck .. | .tempRangeCheck .. | .ledgerSignatureTimer | .ledgerAppend
  | .ledgerWriteFail | .plateMirrorUpdate | .dispBtnShort | .dispBtnLong | .dispPageTimer
  | .ferryClaim .. | .ferryRelease .. | .ferryFlush .. | .ferryDataRead .. | .ferryHoldRelease ..
  | .queueStall .. | .ferryPtrMismatch .. | .ferryParityEnd .. | .pilotStateChange ..
  | .ppMeasure .. | .canBusOff .. | .rcmFltInput .. | .imdMeasure .. | .bayLockstep
  | .bayPauseEnd | .modemFault | .voutUndervolt .. | .voutRecover .. | .voutOverload ..
  | .drvOvercurrent .. | .drvRetry .. | .drvRetryReload .. | .drvThermal .. | .drvTestPulse ..
  | .drvOpenLoad .. | .drvClampTest .. | .drvTestRetry .. | .drvCmdWrite .. | .hkReport ..
  | .controllerLost | .holdWindowExpire | .drvClaim .. | .lhInputChange ..
  | .safetyInputChange .. | .safetyTestPulse .. | .discrepancyTimeout .. | .crossLinkExchange
  | .sfSilent | .sfReload | .safetySwitchRead .. | .safeAckEdge .. | .safeAckStuck | .rdcTrip ..
  | .safetyDriveOffPulse .. | .escFrameRx .. | .escSendTimer .. | .escWatchdog ..
  | .escRestart .. | .sfTableCheck .. | .tagLeft | .fieldGap .. | .quietTimeExpire
  | .crossingSessionTimeout | .plateHoldEnd | .sliceMarker | .kwrRequest .. | .kwrRelease ..
  | .kwrTimeout | .condemnGraceEnd | .classATamper .. | .zeroiseRekey | .sessionTimeout ..
  | .lockoutEnd .. | .changeoverBoot | .changeoverResume | .changeoverWatchdog
  | .bridgeOverflow .. | .updHealthWrite | .trialWatchdog | .svWatchdog | .svLockstep
  | .svResetExit | .pairHeartbeat .. | .pairAloneTimeout | .pairPartnerLost | .pairLaneLoss ..
  | .pairLaneRejoin .. | .netLinkChange .. | .illegalInstruction .. | .engineLockstepMismatch ..
  | .auxRailReturn | .vioChange .. | .servicePortAccess .. | .canFrameTx .. => true

end Sys2Proof
end

