-- ==== Sys2Proof/Decode.lean ====
section
/-! DEFINITION. The Bolgil instruction words (05): formats, major opcodes and function codes. The opcode table of this
block gives no row any bits, since its commands are frames, register accesses and events: `decodeTableWord` answers
none. -/

namespace Sys2Proof

/-- Bits [lo + len - 1 : lo] of an instruction word. -/
def wbits (w : W32) (lo len : Nat) : Nat := (w.toNat >>> lo) % 2 ^ len

/-- A register field of five bits at `lo`. -/
def wreg (w : W32) (lo : Nat) : Reg := Fin.ofNat 32 (wbits w lo 5)

/-- An accumulator field of four bits at `lo`. -/
def wacc (w : W32) (lo : Nat) : WReg := Fin.ofNat 16 (wbits w lo 4)

/-- The fields named, each a low bit and a length, are zero (R94). -/
def wzero (w : W32) (l : List (Nat × Nat)) : Bool := l.all (fun p => wbits w p.1 p.2 == 0)

/-- An instruction, where its unused fields are zero and its selectors assigned. -/
def wif (ok : Bool) (i : Instr) : Option Instr := if ok then some i else none

/-- The ALU group, opcode 0x01 (R100): format A. -/
def decodeAlu (e : Exec) (w : W32) : Option Instr :=
  let d := wreg w 21
  let a := wreg w 16
  let b := wreg w 11
  if wzero w [(6, 5)] = false then none else
  match wbits w 0 6 with
  | 0x00 => some (.add e d a b)
  | 0x01 => some (.sub e d a b)
  | 0x02 => some (.and e d a b)
  | 0x03 => some (.or e d a b)
  | 0x04 => some (.xor e d a b)
  | 0x08 => some (.mul e d a b)
  | 0x09 => some (.mulh e d a b)
  | 0x0A => some (.div e d a b)
  | 0x0B => some (.rem e d a b)
  | 0x0C => some (.slt e d a b)
  | 0x0D => some (.sltu e d a b)
  | 0x0E => some (.min e d a b)
  | 0x0F => some (.max e d a b)
  | _ => none

/-- The shifts, opcode 0x02: rs3 selects the kind, fn is the immediate amount (R100). -/
def decodeShift (e : Exec) (w : W32) : Option Instr :=
  let n := BitVec.ofNat 6 (wbits w 0 6)
  match wbits w 6 5 with
  | 0 => some (.shl e (wreg w 21) (wreg w 16) (wreg w 11) n)
  | 1 => some (.shr e (wreg w 21) (wreg w 16) (wreg w 11) n)
  | 2 => some (.sra e (wreg w 21) (wreg w 16) (wreg w 11) n)
  | _ => none

/-- The FPU group, opcode 0x08 (R101, R102): format A; FCVT.F from an accumulator names it in rs1 [3:0]. -/
def decodeFpu (q : Bool) (e : Exec) (w : W32) : Option Instr :=
  let d := wreg w 21
  let a := wreg w 16
  let b := wreg w 11
  let two := wzero w [(6, 5)]
  let one := wzero w [(6, 5), (11, 5)]
  match wbits w 0 6 with
  | 0x00 => wif two (.fadd e d a b)
  | 0x01 => wif two (.fsub e d a b)
  | 0x02 => wif two (.fmul e d a b)
  | 0x03 => wif two (.fdiv e d a b)
  | 0x04 => wif one (.fsqrt e d a)
  | 0x05 => some (.fma e d a b (wreg w 6))
  | 0x08 => wif one (.fcvtI e .rne d a)
  | 0x09 => wif one (.fcvtI e .rz d a)
  | 0x0A => wif one (.fcvtI e .rdn d a)
  | 0x0B => wif one (.fcvtI e .rup d a)
  | 0x0C => wif one (.fcvtFInt e d a)
  | 0x0D => wif (q && one && wzero w [(20, 1)]) (.fcvtFAcc e d (wacc w 16))
  | 0x10 => wif two (.fcmp e .eq d a b)
  | 0x11 => wif two (.fcmp e .lt d a b)
  | 0x12 => wif two (.fcmp e .le d a b)
  | 0x13 => wif two (.fcmp e .un d a b)
  | _ => none

/-- The physics group, opcode 0x20 (R112): rs3 is the input pair, the selector of IF97X, or a register. -/
def decodePhysics (e : Exec) (w : W32) : Option Instr :=
  let d := wreg w 21
  let a := wreg w 16
  let b := wreg w 11
  let pair := BitVec.ofNat 5 (wbits w 6 5)
  let three := decide (wbits w 6 5 ≤ 2)
  match wbits w 0 6 with
  | 0x00 => wif three (.if97h e d a b pair)
  | 0x01 => wif three (.if97d e d a b pair)
  | 0x02 => wif three (.if97s e d a b pair)
  | 0x03 => wif three (.if97c e d a b pair)
  | 0x04 => wif (pair == 0 || ((pair == 3 || pair == 4) && wzero w [(11, 5)])) (.if97x e d a b pair)
  | 0x08 => some (.airz e d a b (wreg w 6))
  | 0x09 => some (.aird e d a b (wreg w 6))
  | _ => none

/-- The bay group, opcode 0x3A (R119-R123): format A. -/
def decodeBay (e : Exec) (w : W32) : Option Instr :=
  let d := wreg w 21
  let a := wreg w 16
  let b := wreg w 11
  let two := wzero w [(6, 5)]
  let one := wzero w [(6, 5), (11, 5)]
  match wbits w 0 6 with
  | 0x00 => wif two (.drvset e d a b)
  | 0x01 => wif one (.drvget e d a)
  | 0x02 => wif one (.evwait e d a)
  | 0x03 => wif two (.tmset e d a b)
  | 0x04 => wif two (.signal e d a b)
  | 0x05 => wif two (.pilot e d a b)
  | 0x06 => some (.sliptx e d a b (wreg w 6))
  | 0x07 => wif two (.sliprx e d a b)
  | 0x08 => wif two (.sessopen e d a b)
  | 0x09 => wif two (.sessclose e d a b)
  | 0x13 => wif one (.tmsetCancel e d a)
  | _ => none

/-- The instruction that a word spells in the profile of `e` (R94, the tables Instruction formats, Major opcodes and
Function codes); none for an illegal word. YIELD's cycle count is no field of its word. -/
def decodeWord (e : Exec) (w : W32) : Option Instr :=
  let q := !(e == .bay)
  let d := wreg w 21
  let a := wreg w 16
  let imm := BitVec.ofNat 16 (wbits w 0 16)
  let i8 := BitVec.ofNat 8 (wbits w 0 8)
  let rd0 := wzero w [(21, 5)]
  let wa := wacc w 22
  let wb := wacc w 18
  let r1 := wreg w 13
  let slot : Fin 8 := Fin.ofNat 8 (wbits w 0 3)
  let keep := wbits w 3 1 == 1
  let bins := q && wzero w [(4, 4), (8, 5), (18, 4)]
  if w = 0 ∨ w = BitVec.allOnes 32 then none else
  match wbits w 26 6 with
  | 0x01 => decodeAlu e w
  | 0x02 => decodeShift e w
  | 0x04 => some (.addi e d a imm)
  | 0x05 => some (.andi e d a imm)
  | 0x06 => some (.ori e d a imm)
  | 0x07 => wif (wzero w [(16, 5)]) (.lui e d imm)
  | 0x08 => decodeFpu q e w
  | 0x0C => some (.ld e d a imm)
  | 0x0D => some (.st e d a imm)
  | 0x0E => wif (q && wzero w [(18, 4), (8, 5)]) (.ldw e wa r1 i8)
  | 0x0F => wif (q && wzero w [(18, 4), (8, 5)]) (.stw e wa r1 i8)
  | 0x10 => wif (q && decide (wbits w 4 4 ≤ 2)) (.tap e d a imm)
  | 0x11 => wif (q && decide (wbits w 4 4 ≤ 2)) (.tapc e d a imm)
  | 0x12 => wif (q && wzero w [(4, 4)]) (.tapst e d a imm)
  | 0x14 => wif (q && wzero w [(18, 4), (1, 7)]) (.macw e wa r1 (wreg w 8) (wbits w 0 1 == 1))
  | 0x15 =>
    let s := wbits w 0 2
    wif (q && wzero w [(2, 6), (8, 5)] && (if s = 0 || s = 3 then wzero w [(13, 5)] else wzero w [(18, 4)]))
      (.addw e wa wb r1 (BitVec.ofNat 2 s))
  | 0x16 => wif (q && wzero w [(0, 22)]) (.clrw e wa)
  | 0x17 => wif bins (.bin e wa r1 slot keep)
  | 0x18 => wif bins (.bins e wa r1 slot keep)
  | 0x19 => wif bins (.spill e wa r1 slot keep)
  | 0x1C => wif (q && (imm == 0 || imm == 2 || ((imm == 1 || imm == 3) && wzero w [(16, 5)]))) (.ctx e d a imm)
  | 0x1D => wif (q && rd0 && wzero w [(6, 5), (0, 6)]) (.mark e a (wreg w 11))
  | 0x20 => if q then decodePhysics e w else none
  | 0x24 => wif (q && wzero w [(0, 26)]) (.gate e)
  | 0x25 => wif (q && wzero w [(0, 26)]) (.fence e)
  | 0x28 => wif (q && rd0 && wzero w [(6, 5)]) (.pushl e a (wreg w 11) (BitVec.ofNat 6 (wbits w 0 6)))
  | 0x29 => wif (q && rd0 && wzero w [(6, 5)]) (.pushr e a (wreg w 11) (BitVec.ofNat 6 (wbits w 0 6)))
  | 0x30 => some (.beq e d a imm)
  | 0x31 => some (.bne e d a imm)
  | 0x32 => some (.blt e d a imm)
  | 0x33 => some (.bge e d a imm)
  | 0x34 => some (.jal e (BitVec.ofNat 26 (wbits w 0 26)))
  | 0x35 => wif (rd0 && wzero w [(11, 5), (6, 5), (0, 6)]) (.jr e a)
  | 0x36 => wif rd0 (.loop e a (BitVec.ofNat 4 (wbits w 12 4)) (BitVec.ofNat 12 (wbits w 0 12)))
  | 0x37 => wif (wzero w [(0, 26)]) (.halt e)
  | 0x38 => wif (q && wzero w [(0, 26)]) (.yield e 0)
  | 0x39 => wif (wzero w [(16, 10)]) (.trap e imm)
  | 0x3A => if q then none else decodeBay e w
  | _ => none

/-- The command that a word spells by the table's bits. No row of the table has bits, so no word spells a command. -/
def decodeTableWord (_nbits _w : Nat) : Option Instr := none

end Sys2Proof
end

