-- ==== Sys2Proof/Machine/State.lean ====
section
/-! DEFINITION. The state of the YX-128 as plain data: every register, queue, buffer, counter,
mode and pin the manual gives the block, and the queue of waiting commands. INVENTORY.md lists
each field with its rule and its reset value. -/

namespace Sys2Proof.Machine

open Sys2Proof

/-- What the host port drives in answer to a frame (R27). -/
inductive ReplyKind where
  | none | answered | released
  deriving DecidableEq, Repr

/-- The last answer the host port drove on J6 (02 R27). -/
structure HostReply where
  /-- 02 R27, 18 R373: MODEL: answered, released (unknown opcode), or no frame yet -/
  kind : ReplyKind := .none
  /-- 02 R27: word driven in a read frame -/
  data : W32 := 0
  /-- 02 R27: status byte driven -/
  status : W8 := 0
  /-- 02 R26: check byte driven -/
  crc : W8 := 0
  deriving DecidableEq, Repr

/-- The QSPI slave on J6. -/
structure HostPort where
  /-- 18 R373: frames are answered -/
  enabled : Bool := false
  /-- 19 R402: VIO at 1.5 V or more (DESIGN CHOICE 1) -/
  vioOk : Bool := true
  /-- 02 R27: last answer driven -/
  reply : HostReply := {}
  deriving DecidableEq, Repr

/-- SYS block, readiness, modes and resets. -/
structure Sys where
  /-- 02 R29: SYS_HINT_STATUS -/
  hintStatus : BitVec 11 := 0
  /-- 02 R29: SYS_HINT_EN.EN -/
  hintEn : BitVec 11 := 0
  /-- 02 R33: SYS_DENIED_CNT (DESIGN CHOICE 0, retained) -/
  deniedCnt : W32 := 0
  /-- 02 R33: SYS_DENIED_ADDR -/
  deniedAddr : W32 := 0
  /-- 18 R372: SYS_READY -/
  ready : BitVec 20 := 1
  /-- 18 R375: START condition holds -/
  starting : Bool := true
  /-- 18 R377: COMMISSION flag, set as shipped -/
  commission : Bool := true
  /-- 18 R378: quarantine causes (DESIGN CHOICE 0) -/
  qcause : BitVec 4 := 0
  /-- 18 R375: CHANGEOVER condition holds -/
  changeover : Bool := false
  /-- 18 R376: MODEL: RETIRED's stamp, up to which the engines still meter -/
  stopAt : Option Nat := none
  /-- 01 R19: SYS_MODE.MODE last reported -/
  mode : BitVec 4 := 0
  /-- 18 R379: SYS_RESET.COUNT (DESIGN CHOICE 0) -/
  resetCount : BitVec 16 := 0
  /-- 18 R379: SYS_RESET.PREV (DESIGN CHOICE 0) -/
  prevCause : W8 := 0
  /-- 18 R379: SYS_RESET.CAUSE: first power is cause 1 -/
  cause : W8 := 1
  /-- 01, 15 R326: device identity, fixed at manufacture (DESIGN CHOICE 0) -/
  deviceId : W64 := 0
  /-- 00 R2,R3: ordering code YX-128-TE (DESIGN CHOICE TE) -/
  te : Bool := true
  /-- 01 R17: MODEL: islands that do not answer the bridge: not yet started, shed, or stopped; bit 0 AO to bit 9 BAY -/
  dead : BitVec 10 := 0x3FE
  /-- 19 R398: backplate temperature, 0.01 degC (DESIGN CHOICE 25 degC) -/
  backplate : Int := 2500
  deriving DecidableEq, Repr

/-- One message of the module on a YHP connection (02). -/
structure YhpMsg where
  /-- 02 R30: message kind -/
  kind : W8 := 0
  /-- 02: header [23:16]: operation count or queue -/
  hi : W8 := 0
  /-- 02: request number -/
  req : BitVec 16 := 0
  /-- 02: payload words -/
  payload : List W32 := []
  deriving DecidableEq, Repr

/-- One master: host port 0, YHP sessions 1-4 (02, 16). -/
structure Master where
  /-- 02 R23: TLS connection open (masters 1-4) -/
  conn : Bool := false
  /-- 02 R30,R45: MODEL: messages sent on the connection, oldest first -/
  outbox : List YhpMsg := []
  /-- 02 SYS_MASTER, 16 R352: role of the session -/
  role : BitVec 3 := 0
  /-- 16 KEY_SESS: account of the session -/
  account : W8 := 0xFF
  /-- 02 R46: MODEL: serial number of the session, tells sessions of one master apart -/
  sess : Nat := 0
  /-- 16 KEY_SESS.LOCK_S: last account tried -/
  tried : Option (BitVec 4) := none
  /-- 16 R353: KEY_NONCE -/
  nonce : BitVec 128 := 0
  /-- 16 R353: the nonce still serves one login -/
  nonceOk : Bool := false
  /-- 16 R353: instant of the nonce (10 s limit) -/
  nonceSix : Nat := 0
  /-- 02: CMD_ARG0 -/
  arg0 : W32 := 0
  /-- 02: CMD_ARG1 -/
  arg1 : W32 := 0
  /-- 02: CMD_ARG2 -/
  arg2 : W32 := 0
  /-- 02: CMD_ARG3 -/
  arg3 : W32 := 0
  /-- 02 CMD_STATUS: TICKET -/
  ticket : BitVec 16 := 0
  /-- 02 CMD_STATUS: ACK -/
  ack : Bool := false
  /-- 02 CMD_STATUS: LOST -/
  lost : Bool := false
  /-- 02 CMD_STATUS: STATUS -/
  status : W8 := 0
  /-- 02: CMD_TICKET_SEL -/
  ticketSel : BitVec 16 := 0
  /-- 02 CFG_STATUS: TICKET -/
  cfgTicket : BitVec 16 := 0
  /-- 02 CFG_STATUS: GROUP -/
  cfgGroup : BitVec 4 := 0
  /-- 02 CFG_STATUS: STATUS -/
  cfgStat : W8 := 0
  /-- 02 CFG_FAIL: ADDR -/
  cfgFail : BitVec 24 := 0
  /-- 02 CFG_VIEW: SHADOW -/
  cfgView : Bool := false
  /-- 10: EVT_SRC_SEL -/
  evtSel : BitVec 16 := 0
  /-- 16: KEY_BUF -/
  keyBuf : Tbl W32 := []
  /-- 15: LINK_BUF -/
  linkBuf : Tbl W32 := []
  /-- 15: LINK_PT_VER -/
  ptVer : BitVec 16 := 0
  /-- 17: UPD_BUF -/
  updBuf : Tbl W32 := []
  deriving DecidableEq, Repr

/-- One landing (02 R35, R36). -/
structure Landing where
  /-- 02: LANDn_REQ -/
  req : W32 := 0
  /-- 02: VALID -/
  valid : Bool := false
  /-- 02: ERR -/
  err : Bool := false
  /-- 02: BUSY -/
  busy : Bool := false
  /-- 02: ERR_CODE -/
  errCode : W8 := 0
  /-- 02: D0 -/
  d0 : W32 := 0
  /-- 02: D1 -/
  d1 : W32 := 0
  /-- 02: D2 -/
  d2 : W32 := 0
  /-- 02: D3 -/
  d3 : W32 := 0
  deriving DecidableEq, Repr

/-- An outstanding long operation (02 R44). -/
structure Ticket where
  /-- 02 R44: ticket -/
  no : BitVec 16 := 0
  /-- 02 R45: issuing master -/
  master : Nat := 0
  /-- 02 R46: issuing session -/
  sess : Nat := 0
  /-- 02: command code (0x03cc for a commit of group cc) -/
  code : BitVec 16 := 0
  /-- 02: MODEL: the unit or stamp the operation works on -/
  arg : Nat := 0
  deriving DecidableEq, Repr

/-- Tickets module-wide (02 R44, R45). -/
structure Tickets where
  /-- 02 R44: next ticket value, kept in MRAM (DESIGN CHOICE 1) -/
  next : BitVec 16 := 1
  /-- 02 CMD_TICKET_BASE: first ticket issued after the last reset -/
  base : BitVec 16 := 1
  /-- 02 R44: outstanding -/
  out : List Ticket := []
  /-- 02 R45: most recent completions, newest first -/
  done : List (BitVec 16 × W8) := []
  deriving DecidableEq, Repr

/-- A settings generation in MRAM (17 R369). -/
structure Gen where
  /-- 17 R369: number -/
  no : W32 := 0
  /-- 17 R369: written during a trial that was given up: it is ignored -/
  dead : Bool := false
  /-- 17 R369: format code -/
  fmt : W8 := 0
  /-- 02 R40: CMT words that differ from their shipped value -/
  words : Tbl W32 := []
  deriving DecidableEq, Repr

/-- A legal commit waiting for its instant (02 R40, R420) or another stamped legal change. -/
structure PendCommit where
  /-- 10 CONFIG_LEGAL SOURCE: 0-11 group, 0x100.. other source -/
  kind : Nat := 0
  /-- 10: new flag, tap -/
  arg : Nat := 0
  /-- 02 R40: ticket -/
  ticket : BitVec 16 := 0
  /-- 02 R40: s, none until chosen (R420) -/
  stamp : Option Nat := none
  /-- 02 R40: the accepted words of the group -/
  words : Tbl W32 := []
  /-- 02 R420: affected engines -/
  engines : W8 := 0
  /-- 02 R40: taken effect, waiting for its gate -/
  applied : Bool := false
  /-- 02 R40, 05 R97: MODEL: the words it replaced, for instants before its stamp still to be processed -/
  old : Tbl W32 := []
  deriving DecidableEq, Repr

/-- Configuration groups (02 R37-R42, 17 R369). -/
structure Cfg where
  /-- 02 R37: live CMT words that differ from the shipped value -/
  live : Tbl W32 := []
  /-- 02 R37: shadow words written since the last commit or discard (others equal live) -/
  shadow : List (Nat × W32) := []
  /-- 02 CFG_OWNER: claiming master, 0xFF none (held as 0 = none, m+1) -/
  owner : Tbl W8 := []
  /-- 02 CFG_REF: CRC-32C reference (DESIGN CHOICE 0) -/
  ref : Tbl W32 := []
  /-- 17 R369: ring of settings generations, newest first -/
  gens : List Gen := []
  /-- 17 UPD_SETGEN: generation in force -/
  gen : W32 := 0
  /-- 02 R40: pending legal commits -/
  pend : List PendCommit := []
  /-- 02 R42: unresolved running-CRC mismatch of group g -/
  mismatch : BitVec 12 := 0
  /-- 02 R42: CFG_PERSIST already raised -/
  persist : BitVec 12 := 0
  /-- 17 R368: groups committed during the trial -/
  trialChanged : BitVec 12 := 0
  /-- 18 R374: settings generation loaded -/
  loaded : Bool := false
  deriving DecidableEq, Repr

/-- One tap at one sample instant in a replay buffer (03 R54, 05 R105). -/
structure Sample where
  /-- 03 R70: calibrated primary sample, exact, in range / calUnit -/
  p : Int := 0
  /-- 03 R70: calibrated check sample, same unit -/
  c : Int := 0
  /-- 03 R56: zero crossing of the period, +-1/256 of the period, 0 none -/
  zc : Int := 0
  /-- 05 R105: ns from the last counted edge of the period to the instant -/
  edge : Option Nat := none
  /-- 05 TAPST: TAPST word of the instant (LB_CLIP clear) -/
  st : W32 := 0
  /-- 05 R105: value of the primary chain in the unit of the tap's mode at the instant -/
  v : W64 := 0
  /-- 05 R105: value of the check chain in that unit -/
  vc : W64 := 0
  deriving DecidableEq, Repr

/-- One instant in a replay buffer (03 R54): what an instruction may read of it (05 R97). -/
structure Instant where
  /-- 03 R54: the sample instant -/
  six : Nat := 0
  /-- 03 R54: the samples of the group's 16 taps -/
  taps : List Sample := []
  /-- 18 R376: a condition that makes results not-legal, other than COMMISSION, holds -/
  notLegal : Bool := false
  /-- 02 R42: a mismatch of CG1, CG2 or CG3 is unresolved -/
  suspect : Bool := false
  deriving DecidableEq, Repr

/-- How long a fault criterion has held or been absent (R68). -/
structure CritRun where
  /-- 03 R68: the criterion holds -/
  on : Bool := false
  /-- 03 R68: MODEL: the sample instant since which it holds or is absent -/
  since : Nat := 0
  deriving DecidableEq, Repr

/-- One metering tap (03). -/
structure Tap where
  /-- 03 R62,R67: ARB, kept in MRAM; OFF -/
  arb : BitVec 4 := 0
  /-- 03 R68: FAULT -/
  fault : BitVec 4 := 0
  /-- 03 TAP_STATE: ROUNDS -/
  rounds : BitVec 4 := 0
  /-- 03 TAP_STATE: LAST_ROUND -/
  lastRound : BitVec 2 := 0
  /-- 03 R53: PULSE_GLITCH -/
  glitch : BitVec 12 := 0
  /-- 03 R57: NOAC -/
  noac : Bool := false
  /-- 03 TAP_STATE: OVR -/
  ovr : Bool := false
  /-- 03 TAP_STATE: REF_BUSY -/
  refBusy : Bool := false
  /-- 03 TAP_STATE: CMP_EXCEED -/
  cmpExceed : Bool := false
  /-- 03 R58,R63: a disagreement is declared -/
  disagree : Bool := false
  /-- 03 R58: consecutive exceeding windows -/
  exceedRun : Nat := 0
  /-- 03 R63: consecutive non-excluded windows that did not exceed -/
  clearRun : Nat := 0
  /-- 03 R63: consecutive passed rounds -/
  passRun : Nat := 0
  /-- 03 R63: consecutive failed rounds -/
  failRun : Nat := 0
  /-- 03 R58: samples in the open comparison window -/
  winN : Nat := 0
  /-- 03 R58: sum of squared differences in the window -/
  winSq : Nat := 0
  /-- 03 R58: primary edges (PULSE) in the window -/
  winP : Int := 0
  /-- 03 R58: check edges in the window -/
  winC : Int := 0
  /-- 10 R224: sum of squared primary samples (RMS of the window) -/
  winPsq : Nat := 0
  /-- 03 R59,R68: samples over range in the window -/
  winOvr : Nat := 0
  /-- 03 R65: check samples over range in the window -/
  winOvrC : Nat := 0
  /-- 03 R59: the window is excluded -/
  winExcl : Bool := false
  /-- 10 R224: mean square of the last window -/
  rms : Nat := 0
  /-- 03 R56: -1 has been below -1 %, +1 above +1 %, 0 neither -/
  zcArm : Int := 0
  /-- 03 R56: sample before -/
  zcPrev : Int := 0
  /-- 03 R57: positive crossings since NOAC -/
  zcPos : Nat := 0
  /-- 03 R57: negative crossings since NOAC -/
  zcNeg : Nat := 0
  /-- 03 R65: the last closed window held over-range samples -/
  ovrLatch : Bool := false
  /-- 03 TAP_REF_NOW: commanded round waiting or running, 0 none -/
  roundTicket : BitVec 16 := 0
  /-- 03 R60: a round waits for the next window start -/
  roundDue : Bool := false
  /-- 03 R61: the round due or running is a routine round alone -/
  routine : Bool := false
  /-- 03 R68: the classes declared and not cleared, bit by class code -/
  held : BitVec 6 := 0
  /-- 03 R65: the criteria evaluated on the primary chain's samples alone, by slot; empty before the first sample -/
  critP : List CritRun := []
  /-- 03 R65: the criteria evaluated on the check chain's samples alone -/
  critC : List CritRun := []
  /-- 03 R68: the criteria of the table Tap fault classes -/
  crit : List CritRun := []
  /-- 03 R68: closed windows in a row with more than 2 % of their samples over range; negative: in a row without -/
  winRun : Int := 0
  /-- 03 R68: PULSE: grid instants of the open 10 ms -/
  edgeN : Nat := 0
  /-- 03 R68: PULSE: edges in the open 10 ms -/
  edges : Nat := 0
  /-- 03 R68: PULSE: the last 10 ms held more than 200 edges -/
  edgeBad : Bool := false
  /-- 03 R65: MODEL: both chains' calibrated samples at the start of the round -/
  seen : Int × Int := (0, 0)
  /-- 03 R61: the shared element deviated by more than 0.1 % at the last routine round -/
  excBad : Bool := false
  /-- 03 R65: the primary chain's conversion deviated from the monitor's by more than 0.1 % -/
  excP : Bool := false
  /-- 03 R65: the check chain's conversion deviated from the monitor's by more than 0.1 % -/
  excC : Bool := false
  /-- 03 R70: MODEL: the latest calibrated samples of both chains before the phase correction, newest first -/
  hist : List (Int × Int) := []
  /-- 03 TAP_CAL_FACT_P: OTP (DESIGN CHOICE 1.0) -/
  gainFP : W32 := 0x40000000
  /-- 03 TAP_CAL_FACT_C: OTP (DESIGN CHOICE 1.0) -/
  gainFC : W32 := 0x40000000
  /-- 03 R70: factory offset, range/2^23 (DESIGN CHOICE 0) -/
  ofsFP : Int := 0
  /-- 03 R70: factory offset, range/2^15 (DESIGN CHOICE 0) -/
  ofsFC : Int := 0
  /-- 03 TAP_CAL_TC: OTP (DESIGN CHOICE 0) -/
  tc : W32 := 0
  deriving DecidableEq, Repr

/-- One tap group and its AFE die (03, 04, 17). -/
structure TapGroup where
  /-- 03 TAP_AFE_TEMP: die temperature 0.01 degC (DESIGN CHOICE 0) -/
  temp : BitVec 16 := 0
  /-- 03 R54, 05 R106: the RATE changes: first instant and RATE, newest first; empty = the live RATE throughout -/
  rates : List (Nat × BitVec 2) := []
  /-- 18 R376: the condition of the newest instant that makes results not-legal -/
  notLegal : Bool := false
  /-- 04 R91: newest sample instant -/
  newest : Nat := 0
  /-- 03 R54, 04: replay buffer, newest first -/
  buf : List Instant := []
  /-- 17 R363: AFE writes to the bridge buffer -/
  bridgeOn : Bool := false
  /-- 17 R363: instants held in the group's share -/
  bridge : Nat := 0
  /-- 17 R363: first instant held -/
  bridgeFrom : Nat := 0
  /-- 17 R363: first instant not buffered -/
  bridgeLost : Option Nat := none
  deriving DecidableEq, Repr

/-- An event entry (10 R215); its place in the ring. -/
structure EvtEntry where
  /-- 10 R215: CODE -/
  code : BitVec 16 := 0
  /-- 10 R215: UNIT -/
  unit : W8 := 0xFF
  /-- 10 R215,R217: RSV, a reserved-class event -/
  rsv : Bool := false
  /-- 10 R215: TINV -/
  tinv : Bool := false
  /-- 10 R218: HELD -/
  held : Bool := false
  /-- 10 R215: ARG0 -/
  arg0 : W32 := 0
  /-- 10 R215: ARG1 -/
  arg1 : W32 := 0
  /-- 10 R215: UTC seconds since 2000-01-01 -/
  utc : W32 := 0
  /-- 10 R215: SIX of the event -/
  six : Nat := 0
  /-- 10 R217: the entry takes a reserved place of the ring -/
  resSlot : Bool := false
  /-- 10 R220: already in the MRAM event log -/
  persisted : Bool := false
  /-- 10 R220: already delivered to FQ3 (or nobody to deliver to) -/
  delivered : Bool := false
  /-- 10 R219: a closed OVERRUN entry, next in the persistence order -/
  ovr : Bool := false
  deriving DecidableEq, Repr

/-- Counters of one event source (10 R216). -/
structure EvtSrc where
  /-- 10 R216: saturating counter (DESIGN CHOICE 0) -/
  cnt : BitVec 16 := 0
  /-- 10 R216: UTC of the first occurrence, 0 none -/
  first : W32 := 0
  /-- 10 R216: UTC of the last occurrence -/
  last : W32 := 0
  /-- 10 R216: not yet persisted to MRAM -/
  dirty : Bool := false
  /-- 10 R216: the counter as persisted in MRAM -/
  mCnt : BitVec 16 := 0
  /-- 10 R216: the first occurrence as persisted in MRAM -/
  mFirst : W32 := 0
  /-- 10 R216: the last occurrence as persisted in MRAM -/
  mLast : W32 := 0
  /-- 10 R218: events held by the source while SV is not ready -/
  held : Nat := 0
  deriving DecidableEq, Repr

/-- The overrun slot (10 R219). -/
structure Overrun where
  /-- 10 R219: EVT_STATE.OVERRUN -/
  isOpen : Bool := false
  /-- 10 R219: events folded in this overrun -/
  folded : Nat := 0
  /-- 10 R219: distinct codes folded -/
  codes : List (BitVec 16) := []
  /-- 10 R219: UTC of the first fold -/
  utc : W32 := 0
  /-- 10 R219: SIX of the first fold -/
  six : Nat := 0
  deriving DecidableEq, Repr

/-- Event ring, log, archive and sources (10 R215-R220, R226). -/
structure Evt where
  /-- 10 R217: ring entries, oldest first -/
  ring : List EvtEntry := []
  /-- 10 R219: overrun slot -/
  overrun : Overrun := {}
  /-- 10 R217: reserved-class events waiting at their source -/
  waiting : List EvtEntry := []
  /-- 10 R218: events held while SV is not ready, in SIX order -/
  heldQ : List EvtEntry := []
  /-- 10 R220: MRAM event log, newest first (DESIGN CHOICE empty) -/
  log : List EvtEntry := []
  /-- 10 R220: log entries not yet copied to the archive -/
  unarch : Nat := 0
  /-- 10 R220: eMMC archive, newest first (DESIGN CHOICE empty) -/
  archive : List EvtEntry := []
  /-- 10 R216: source counters -/
  src : Tbl EvtSrc := []
  /-- 10 R216: instant of the last persistence of counters, which come at most once per second -/
  srcAt : Option Nat := none
  /-- 10 EVT_OVR_TOTAL: events folded since manufacture (DESIGN CHOICE 0) -/
  ovrTotal : W32 := 0
  /-- 10 R226: legal event counter (DESIGN CHOICE 0) -/
  legalCnt : W32 := 0
  /-- 10 EVT_REV_WATCH: watched meter points, 0 as shipped -/
  revWatch : W64 := 0
  deriving DecidableEq, Repr

/-- One tamper record (10 R221). -/
structure TampRec where
  /-- 10 R221: starts, saturating (DESIGN CHOICE 0) -/
  cnt : W32 := 0
  /-- 10 R221: UTC of the first start -/
  first : W32 := 0
  /-- 10 R221: UTC of the last start -/
  last : W32 := 0
  /-- 10 R221: last duration, ms -/
  dur : W32 := 0
  /-- 10 R222: MODEL: units that hold the condition (0xFF: the module), with the start of each -/
  holders : List (Nat × Nat) := []
  /-- 10 R223: MODEL: the module's condition spans an outage whose length the lost AO counter leaves unknown -/
  unknown : Bool := false
  deriving DecidableEq, Repr

/-- One ledger record (10 R230). -/
structure LedgerRec where
  /-- 10 R230: KIND -/
  kind : BitVec 16 := 0
  /-- 10 R230: FLAGS -/
  flags : BitVec 16 := 0
  /-- 10 R230: SEQ -/
  seq : W64 := 0
  /-- 10 R230: SIX -/
  six : W64 := 0
  /-- 10 R230: UTC_NS -/
  utcNs : W64 := 0
  /-- 10 R230: POST_NO in force at SIX -/
  post : BitVec 18 := 0
  /-- 10 R230: PREV -/
  prev : BitVec 256 := 0
  /-- 10 R230: payload bytes -/
  payload : List W8 := []
  /-- 10 R231: MODEL: place among records of one SIX, by R75 -/
  place : Nat := 22
  /-- 08 R190, R185: MODEL: place among the boundaries that one step forward skips, 0 for others -/
  ord : Nat := 0
  /-- 10 R231: MODEL: a SIGNATURE that stays directly behind the record before it -/
  follows : Bool := false
  deriving DecidableEq, Repr

/-- The ledger (10 R230-R233). -/
structure Ledger where
  /-- 10 R230: SEQ of the next record; the head is seq-1 (DESIGN CHOICE 0) -/
  seq : W64 := 0
  /-- 10 R230: chain value of the head (DESIGN CHOICE 0: no record yet) -/
  h : BitVec 256 := 0
  /-- 10 R232: staged records, oldest first; SEQ and PREV are set at append -/
  staging : List LedgerRec := []
  /-- 10 R232: records in eMMC, newest first (DESIGN CHOICE empty) -/
  recs : List LedgerRec := []
  /-- 10 R232: bytes of the region in use -/
  used : Nat := 0
  /-- 10 R232: sequence acknowledged by LEDGER_ACK (DESIGN CHOICE none) -/
  acked : Option Nat := none
  /-- 10 R231: SIX of the last SIGNATURE record (DESIGN CHOICE 0) -/
  lastSig : Nat := 0
  /-- 10 EVT_LDG_STATE: SIX of the last good signature (DESIGN CHOICE 0) -/
  lastGood : Nat := 0
  /-- 10 R231: first record not covered by a good signature -/
  firstSeq : W64 := 0
  /-- 10 R231: ledger key generation (DESIGN CHOICE 0) -/
  keyGen : W32 := 0
  /-- 10 R231: RETIRED: nothing is appended any more -/
  closed : Bool := false
  /-- 10 R232: LEDGER_FULL raised -/
  fullRaised : Bool := false
  /-- 10 R232: the region has wrapped -/
  wrapRaised : Bool := false
  /-- 01 R22: former post numbers, oldest first: the SIX up to which each was in force, and the number -/
  postHist : List (Nat × BitVec 18) := []
  /-- 01 R22: POST records that wait for their SIX, oldest first: old and new number -/
  postPend : List (BitVec 18 × BitVec 18) := []
  deriving DecidableEq, Repr

/-- The display (10 R227-R229). -/
structure Disp where
  /-- 10 R227: page shown, counted from the first of the list -/
  page : Nat := 0
  /-- 10 R228: alternate list shown -/
  alt : Bool := false
  /-- 10 R228: page held for 60 s after a short press -/
  hold : Bool := false
  /-- 10 DISP_TEST: 0 none, 1 all on, 2 all off -/
  test : BitVec 2 := 0
  /-- 10 R228: MODEL: instant of the last press of DISP_BTN -/
  pressAt : Nat := 0
  /-- 10 DISP_CFG: backlight on (DESIGN CHOICE on) -/
  backlight : Bool := true
  /-- 10 R228: last live value per meter point and tag -/
  live : Tbl W64 := []
  deriving DecidableEq, Repr

/-- One ferry queue (11). -/
structure Ferry where
  /-- 11 R235: FERRY_OWNER -/
  owner : Option Nat := none
  /-- 11 R238: complete packets of the filling bank, oldest first -/
  fill : List (List W32) := []
  /-- 11 R238: complete packets of the draining bank not yet begun -/
  drain : List (List W32) := []
  /-- 11 R239: words still to pop of the packet being popped -/
  cur : List W32 := []
  /-- 11 R242: the packet being popped, whole (FQ1 resends it) -/
  curPkt : List W32 := []
  /-- 11 R242: words owed as idle items after a queue reset -/
  owed : BitVec 11 := 0
  /-- 11 FERRY_RXST: ABORT -/
  abort : Bool := false
  /-- 11 FERRY_RXST: POISON -/
  poison : Bool := false
  /-- 11 R243: parity mode, from every reset until recovery ends -/
  parity : Bool := true
  /-- 11 R243: recovery ended, pointer mode at the next swap -/
  leaving : Bool := false
  /-- 11 FERRY_RXST: EOP -/
  eop : Bool := false
  /-- 11 R243: index of the next word with bad parity, counted from the next word popped -/
  badWords : List Nat := []
  /-- 11 FERRY_CNT: DROP -/
  drop : BitVec 16 := 0
  /-- 11 FERRY_CNT: STALL -/
  stall : W8 := 0
  /-- 11 FERRY_CNT: FAULT -/
  faultCnt : W8 := 0
  /-- 11 R241: packets held by the producer, oldest first -/
  holdBuf : List (List W32) := []
  /-- 14 R309: MERGED of the newest held FQ6 packet -/
  merged : Nat := 0
  /-- 11 R241: the present hold has lasted 1 s -/
  stalled : Bool := false
  /-- 11 FERRY_TEST: FERRY_TEST runs -/
  testing : Bool := false
  deriving DecidableEq, Repr

/-- A linear piece of the civil-time mapping (09 R195). -/
structure Piece where
  /-- 09 R195: start instant -/
  six : Nat := 0
  /-- 09 R195: civil time at the start, ns since 2000-01-01 -/
  ns : Int := 0
  /-- 09 R195: rate factor a, parts per 10^12 -/
  rate : Int := 0
  deriving DecidableEq, Repr

/-- A CG10 commit that waits for its stamp (09 R201). -/
structure TzPend where
  /-- 09 R201: stamp -/
  stamp : Nat := 0
  /-- 09 R201: the words of local time in force until that stamp (those that differ from shipped) -/
  old : Tbl W32 := []
  deriving DecidableEq, Repr

/-- A clock step waiting for its stamp (09 R198). -/
structure PendStep where
  /-- 09 R198: stamp -/
  stamp : Nat := 0
  /-- 09 R198: offset in ns -/
  ofs : Int := 0
  /-- 09 TIME_SET: ticket, 0 for a PTP step -/
  ticket : W16 := 0
  deriving DecidableEq, Repr

/-- The PTP ordinary clock (09 R196). -/
structure Ptp where
  /-- 09 R214: grandmaster clockIdentity -/
  gmId : W64 := 0
  /-- 09 R196: clock whose Sync messages are followed -/
  parent : W64 := 0
  /-- 09 R196: data set of the best announced master, in comparison order -/
  gmData : List Nat := []
  /-- 09 R196: consecutive Sync intervals below 100 us -/
  syncs : Nat := 0
  /-- 09 R196: sequence number of the two-step Sync waiting for its Follow_Up -/
  seq : W16 := 0
  /-- 09 R196: receipt time of that Sync, civil ns -/
  rx : Int := 0
  /-- 09 R196: a Follow_Up is awaited -/
  twoStep : Bool := false
  /-- 09 R196: measured path delay, ns -/
  delay : Int := 0
  /-- 09 R199: announced leap: +1 leap61, -1 leap59 -/
  leap : Int := 0
  /-- 09 R199: civil instant of the announced leap, ns -/
  leapAt : Int := 0
  deriving DecidableEq, Repr

/-- Time base (09). -/
structure Time where
  /-- 09 R193: SIX, the newest grid instant (DESIGN CHOICE 0) -/
  six : Nat := 0
  /-- 09 R195: civil-time mapping, newest piece first; empty = civil 0 at SIX 0, rate 0 (DESIGN CHOICE) -/
  pieces : List Piece := []
  /-- 04 R74: TIME horizon, the mapping is frozen up to it (DESIGN CHOICE 0) -/
  horizon : Nat := 0
  /-- 09 R200: TIME_VALID -/
  valid : Bool := false
  /-- 09 R197: slew still to apply, ns -/
  slewRem : Int := 0
  /-- 09 R199: LEAP_PENDING -/
  leapPending : Bool := false
  /-- 09 R198: STEP_NEEDED -/
  stepNeeded : Bool := false
  /-- 09 TIME_STATE: SRC_STATE -/
  srcState : BitVec 4 := 0
  /-- 09 TIME_STATE: UTC_OFFSET -/
  utcOffset : W8 := 0
  /-- 09 TIME_OFFSET: last measured offset, ns -/
  offset : Int := 0
  /-- 09 R195: measured TCXO error, parts per 10^12 (DESIGN CHOICE 0) -/
  tcxo : Int := 0
  /-- 09 R194: correction of the AO counter's rate, parts per 10^12 (DESIGN CHOICE 0) -/
  aoRate : Int := 0
  /-- 09 R214: SIX_p of the last power failure (DESIGN CHOICE 0) -/
  sixP : Nat := 0
  /-- 09 R194: SIX_r of the last restart -/
  sixR : Nat := 0
  /-- 09 R198: step waiting for its stamp -/
  step : Option PendStep := none
  /-- 09 R201: CG10 commits not yet applied, oldest first -/
  tz : List TzPend := []
  /-- 09 R196: PTP clock -/
  ptp : Ptp := {}
  deriving DecidableEq, Repr

/-- Supplies (09 R203-R213, HK reports). -/
structure Power where
  /-- 09 SYS_VMON: MAIN, 10 mV (DESIGN CHOICE 0) -/
  mainV : BitVec 12 := 0
  /-- 09 SYS_VMON: AUX, 10 mV (DESIGN CHOICE 0) -/
  auxV : BitVec 12 := 0
  /-- 09 SYS_VMON: cell, 20 mV (DESIGN CHOICE 0) -/
  cellV : W8 := 0
  /-- 09 SYS_VOUT: VOUT_A, 10 mV (DESIGN CHOICE 0) -/
  voutA : W16 := 0
  /-- 09 SYS_VOUT: VOUT_B, 10 mV (DESIGN CHOICE 0) -/
  voutB : W16 := 0
  /-- 09 SYS_PWR: MAIN_OK (DESIGN CHOICE 1) -/
  mainOk : Bool := true
  /-- 09 SYS_PWR: AUX_OK (DESIGN CHOICE 0) -/
  auxOk : Bool := false
  /-- 09 R204: ON_AUX -/
  onAux : Bool := false
  /-- 09 SYS_PWR: VOUT_A_OK (DESIGN CHOICE 1) -/
  voutAOk : Bool := true
  /-- 09 SYS_PWR: VOUT_B_OK (DESIGN CHOICE 1) -/
  voutBOk : Bool := true
  /-- 09 R213: HOLDUP_CHG, set from the application of the supply -/
  holdupChg : Bool := true
  /-- 09 R212: HOLDUP_WEAK (DESIGN CHOICE 0) -/
  holdupWeak : Bool := false
  /-- 09 R205: CELL_LOW (DESIGN CHOICE 0) -/
  cellLow : Bool := false
  /-- 09 R210: LAST_SAVE -/
  lastSave : BitVec 2 := 0
  /-- 09 SYS_HOLDUP: HOLDUP, 0.1 ms (DESIGN CHOICE 0) -/
  holdup : W16 := 0
  /-- 09 SYS_HOLDUP: CAP, % (DESIGN CHOICE 0) -/
  cap : W8 := 0
  /-- 09 SYS_HOLDUP: instant of the last completed test, gives AGE_H (DESIGN CHOICE 0) -/
  testAt : Nat := 0
  /-- 09 R212: hold-up charger connected -/
  charger : Bool := true
  /-- 09 HOLDUP_TEST: ticket of the commanded test running, 0 none -/
  testTicket : W16 := 0
  /-- 09 R212: a hold-up test runs -/
  testRun : Bool := false
  /-- 09 R212: a daily test was deferred, or a test cut short by a power failure -/
  testDue : Bool := false
  /-- 09 R212: instant at which the bank reached full charge -/
  chargedAt : Option Nat := none
  /-- 09 R208: power-fail detected, final save runs or is done -/
  saving : Bool := false
  /-- 09 R208: the hold-up bank is exhausted, only the AO island runs -/
  off : Bool := false
  /-- 09 R208: t0 of the last power-fail detect -/
  failAt : Nat := 0
  /-- 09 R206, 18 R381: p of a final save under way, none otherwise -/
  pAt : Option Nat := none
  /-- 01 R15: HK_SILENT raised and HK still silent -/
  hkSilent : Bool := false
  /-- 01 R15: MODEL: words written back by scrubbing, a count -/
  scrubbed : Nat := 0
  deriving DecidableEq, Repr

/-- An active LOOP (05 R99). -/
structure LoopRec where
  /-- 05 R99: first instruction of the body -/
  first : Nat := 0
  /-- 05 R99: last instruction of the body -/
  last : Nat := 0
  /-- 05 R99: passes still to run, the present one included -/
  left : Nat := 0
  /-- 05 R99: the body's last instruction is a JAL that waits for its matching JR -/
  call : Bool := false
  deriving DecidableEq, Repr

/-- The context of one meter point in an engine (05 R110, 04 R74). -/
structure MpCtx where
  /-- 08 R180: fixed tariff of the open session, 0 while the calendar decides -/
  fix : BitVec 6 := 0
  /-- 05 CTX: DIR, 1 REV -/
  rev : Bool := false
  /-- 05 CTX: session number, 0 none -/
  session : W32 := 0
  deriving DecidableEq, Repr

/-- The context an engine's thread holds for the instant (05 R110). -/
structure EngCtx where
  /-- 04 R74: per meter point -/
  mps : Tbl MpCtx := []
  /-- 05 CTX: calendar tariff in force (08 R169: tier 1 without a calendar) -/
  cal : BitVec 6 := 1
  /-- 05 CTX: demand interval number -/
  interval : W32 := 0
  /-- 05 CTX: NOT_LEGAL: the COMMISSION flag at the instant -/
  notLegal : Bool := true
  /-- 05 R104: point-table bank in force -/
  bank : Bool := false
  /-- 07 R148: QUAL values in force, keyed meter point x 16 + PAR (unset = committed value) -/
  params : Tbl W64 := []
  deriving DecidableEq, Repr

/-- A direction unit's state for one meter point (07 R150-R153). -/
structure DirUnit where
  /-- 07 R151: confirmed direction -/
  rev : Bool := false
  /-- 07 R151: a candidate is open -/
  openCand : Bool := false
  /-- 07 R151: candidate zero crossing -/
  candAt : Nat := 0
  /-- 07 R151: BAND reached since the crossing -/
  band : Bool := false
  /-- 07 R150: CUTOFF of the instant -/
  cutoff : Bool := false
  /-- 07 R150: running sum of the mean, exact, in units 2^-1074 -/
  sum : Int := 0
  /-- 07 R150: MARK values of the mean, newest first, in units 2^-1074 -/
  hist : List Int := []
  deriving DecidableEq, Repr

/-- A bin of a segment (05 R108). -/
structure Bin where
  /-- 05 R108: MODEL: instant of the contribution; merged at commit -/
  six : Nat := 0
  /-- 05 R108: meter point -/
  mp : Nat := 0
  /-- 05 R108: slot -/
  slot : Nat := 0
  /-- 05 R108: direction -/
  rev : Bool := false
  /-- 05 R108: tariff index -/
  tariff : Nat := 1
  /-- 05 R108: demand interval number -/
  interval : W32 := 0
  /-- 05 R108: session number -/
  session : W32 := 0
  /-- 05 R108: Q64.64 value -/
  value : Int := 0
  /-- 11 R244: NOT_LEGAL -/
  notLegal : Bool := false
  /-- 11 R244: DEGRADED -/
  degraded : Bool := false
  /-- 11 R244: CONFIG_SUSPECT -/
  suspect : Bool := false
  deriving DecidableEq, Repr

/-- A result or live item (05 R111). -/
structure ResItem where
  /-- 05 R111: instant -/
  six : Nat := 0
  /-- 05 R111: meter point -/
  mp : Nat := 0
  /-- 05 R111: tag -/
  tag : Nat := 0
  /-- 05 R111: raw value -/
  value : W64 := 0
  deriving DecidableEq, Repr

/-- An open or closed segment (04). -/
structure Seg where
  /-- 04 R76: first instant -/
  start : Nat := 0
  /-- 04, 05 R108: bins -/
  bins : List Bin := []
  /-- 05 SPILL: spill amounts: instant, meter point x 8 + slot, amount -/
  spills : List (Nat × Nat × Int) := []
  /-- 05 R111: result items, oldest first -/
  items : List ResItem := []
  /-- 04 R83: FORCED -/
  forced : Bool := false
  /-- 04 R85: SAVE_SHORT -/
  saveShort : Bool := false
  /-- 11 TRACE: trace words of the instants, oldest first -/
  trace : List (Nat × W32) := []
  deriving DecidableEq, Repr

/-- Where a checkpoint taken by GATE stands in its instant (04 R76, 05 R114). -/
structure GatePos where
  /-- 04 R76: PC behind the GATE -/
  pc : Nat := 0
  /-- 05 R98: link stack -/
  link : List Nat := []
  /-- 05 R99: loop stack -/
  loops : List LoopRec := []
  /-- 04 R76: the instant whose GATE took it -/
  six : Nat := 0
  /-- 05 R109: meter points marked in that instant -/
  marked : List Nat := []
  deriving DecidableEq, Repr

/-- A checkpoint (04 R76). -/
structure Ckpt where
  /-- 04: x1-x31 -/
  x : Tbl W64 := []
  /-- 04: w0-w15 -/
  w : Tbl W128 := []
  /-- 04: CTX -/
  ctx : EngCtx := {}
  /-- 04: direction units -/
  dirs : Tbl DirUnit := []
  /-- 04 R76: the program counter: none = at the start of the instant of the gate -/
  gatePos : Option GatePos := none
  deriving DecidableEq, Repr

/-- A hardware thread of an engine, or the bay sequencer's core (05 R93). -/
structure Thread where
  /-- 05 R93: x1-x31 -/
  x : Tbl W64 := []
  /-- 05 R93: w0-w15 -/
  w : Tbl W128 := []
  /-- 05 R93: PC -/
  pc : Nat := 0
  /-- 05 R98: link stack -/
  link : List Nat := []
  /-- 05 R99: loop stack, innermost first -/
  loops : List LoopRec := []
  /-- 05 R93: SIX of the instant -/
  six : Nat := 0
  /-- 05 R95: an instant (or the program) is running -/
  busy : Bool := false
  /-- 05 R96: initialisation is running -/
  inInit : Bool := false
  /-- 05 R114: the GATE of the instant has executed -/
  gateDone : Bool := false
  /-- 05 R109: meter points marked in this instant -/
  marked : List Nat := []
  /-- 05 R110: context of the instant -/
  ctx : EngCtx := {}
  /-- 07 R150: direction units by meter point -/
  dirs : Tbl DirUnit := []
  /-- 05 R111: live items of the instant not yet handed out -/
  live : List ResItem := []
  /-- 05 R114: what the GATE of the latest instant would capture -/
  atGate : Option Ckpt := none
  deriving DecidableEq, Repr

/-- An undo-log entry (04 R79). -/
structure Undo where
  /-- 04 R79: start of the segment it belongs to -/
  seg : Nat := 0
  /-- 04 R79: byte address of the data-memory word -/
  word : Nat := 0
  /-- 04 R79: old value -/
  old : W64 := 0
  deriving DecidableEq, Repr

/-- A thread as its instant began (04 R88): what a stop in the middle of the instant goes back to. -/
structure InstMark where
  /-- 04 R88: MODEL: the instant -/
  six : Nat := 0
  /-- 04 R88: MODEL: state after the instant before -/
  ck : Ckpt := {}
  /-- 04 R88: MODEL: data memory -/
  mem : Tbl W8 := []
  /-- 04 R88: MODEL: undo log -/
  undo : List Undo := []
  /-- 04 R88: MODEL: open segment -/
  seg : Seg := {}
  deriving DecidableEq, Repr

/-- An outstanding gate (04 R77). -/
structure Gate where
  /-- 04 R76: instant -/
  six : Nat := 0
  /-- 04 R77: boundary gate -/
  boundary : Bool := false
  /-- 04 R76: checkpoint -/
  ck : Ckpt := {}
  /-- 04 R76: the segment it closes -/
  seg : Seg := {}
  deriving DecidableEq, Repr

/-- A quantity engine Qk (04). -/
structure Engine where
  /-- 04 QE_STATE: RUN -/
  run : BitVec 4 := 0
  /-- 04 R80: EPOCH -/
  epoch : W16 := 0
  /-- 04: H, the instant the head processes next -/
  hpos : Nat := 0
  /-- 04 R78: c, the last committed gate -/
  c : Nat := 0
  /-- 04 R78: checkpoint of c -/
  ck : Ckpt := {}
  /-- 04 R77: outstanding gates, oldest first -/
  gates : List Gate := []
  /-- 04 R76: the head's open segment -/
  seg : Seg := {}
  /-- 04: head thread -/
  head : Thread := {}
  /-- 05 R103: data memory as the head sees it (0x2000 up), zero where unlisted -/
  mem : Tbl W8 := []
  /-- 04 R79: undo log, newest first -/
  undo : List Undo := []
  /-- 04 R80: replay thread -/
  rep : Thread := {}
  /-- 04 R80: the instant the replay thread processes next -/
  rpos : Nat := 0
  /-- 04 R80: the replay thread's open segment -/
  rseg : Seg := {}
  /-- 04 R80: data memory as the replay thread sees it (memory at g through the undo log, and the overlay) -/
  rmem : Tbl W8 := []
  /-- 04 R80: undo entries of the replayed segments, newest first -/
  rundo : List Undo := []
  /-- 04 R79: words the replay overlay holds -/
  overlay : List Nat := []
  /-- 04 R80: g, the gate the replay thread started from -/
  ssG : Nat := 0
  /-- 04 R88: MODEL: the head as its instant began -/
  mark : InstMark := {}
  /-- 04 R88: MODEL: the replay thread as its instant began -/
  rmark : InstMark := {}
  /-- 04 R87: MODEL: reloaded while RUN is LOADING or RESTART; instants are processed -/
  reloaded : Bool := false
  /-- 04 R80: e, the first retracted instant -/
  ssFrom : Nat := 0
  /-- 04 R86: a sidestep was running when recovery began -/
  ssEv : Bool := false
  /-- 04 R83: the events that started the sidestep under way, or reached it behind the head, oldest first -/
  ssEvs : List CtxEv := []
  /-- 05 R104: point table, bank 0, by byte address -/
  bank0 : Tbl W64 := []
  /-- 05 R104: point table, bank 1 -/
  bank1 : Tbl W64 := []
  /-- 04 R88: context event log since c, in the order of R75 -/
  log : List CtxEv := []
  /-- 04 R422: base context of a stopped engine -/
  base : EngCtx := {}
  /-- 04 R422, 07 R153: direction units that go with the base context -/
  baseDirs : Tbl DirUnit := []
  /-- 04 R84: late events waiting for the next gate -/
  late : List CtxEv := []
  /-- 04 R83: a forced gate is due at the next GATE -/
  forceDue : Bool := false
  /-- 04 R74: published horizons TIME, DIR, QUAL, CMD -/
  hz : Tbl Nat := []
  /-- 04 QE_STALL: COUNT -/
  stallCnt : W16 := 0
  /-- 04 QE_STALL: MAX_US -/
  stallMax : W16 := 0
  /-- 04 R79: the head is stalled -/
  stalled : Bool := false
  /-- 04 R79: newest instant when the stall began -/
  stallAt : Nat := 0
  /-- 04 QE_SS_CNT: CONTEXT -/
  ssCtx : W16 := 0
  /-- 04 QE_SS_CNT: LOCKSTEP -/
  ssLock : W16 := 0
  /-- 04 QE_FORCED: FORCED -/
  forced : W16 := 0
  /-- 04 QE_FORCED: LATE -/
  lateCnt : W16 := 0
  /-- 04 QE_CYC: MAX -/
  cycMax : W16 := 0
  /-- 04 QE_TRAP: CODE -/
  trapCode : W8 := 0
  /-- 04 QE_TRAP: PC -/
  trapPc : BitVec 14 := 0
  /-- 04 R87: instants of the restarts of the last 600 s -/
  restarts : List Nat := []
  /-- 04 QE_FOOT: UNDO_HWM -/
  undoHwm : W16 := 0
  /-- 04 QE_SKIP: GATE_SKIP -/
  gateSkip : W16 := 0
  /-- 04 QE_SKIP: INPLACE -/
  inPlace : W16 := 0
  /-- 04 R87: instant of the last lockstep mismatch -/
  mmAt : Nat := 0
  /-- 04 R87: consecutive mismatches at it -/
  mmRun : Nat := 0
  /-- 04 QE_GATE_CFG: index of the loaded image -/
  img : Option Nat := none
  /-- 04 QE_CYC: DECLARED of the loaded image -/
  imgDecl : W16 := 0
  /-- 04 QE_FOOT: FOOTPRINT of the loaded image -/
  imgFoot : W16 := 0
  /-- 05 R96: the checkpoint of c is one of the loaded program -/
  ckOk : Bool := false
  /-- 06 R128: processing begins at the first sample after initialisation, not at c -/
  atHalt : Bool := false
  /-- 05 R95: ENTRY of the loaded image -/
  entry : Nat := 0
  /-- 05 R96: INIT of the loaded image -/
  initAt : Nat := 0
  /-- 05 R106: first instant after the engine's load -/
  loadSix : Nat := 0
  /-- 04 QE_TRACE: trace packets on -/
  traceOn : Bool := false
  /-- 06 R134: taps of a running QE_TAP_RECORD, 0 none -/
  recMask : W16 := 0
  /-- 06 R134: its ticket -/
  recTicket : W16 := 0
  /-- 06 R134: TAPREC packets dropped -/
  recDrop : W32 := 0
  /-- 06 R130: stamp of a program change being loaded -/
  prog : Option Nat := none
  /-- 04 QE_RESTART: ticket of a QE_RESTART running -/
  restartTicket : W16 := 0
  /-- 04 R73: start of the span in which the engine is stopped -/
  lostFrom : Option Nat := none
  /-- 17 R363, 04 R73: the gaps of bridge overflows behind c or ahead of it: first lost and first resumed instant -/
  gaps : List (Nat × Nat) := []
  /-- 04 R422: MODEL: a QE_RESTART has not yet restored the engine, which resumes from its base context -/
  resume : Bool := false
  /-- 04 QE_RESTART: MODEL: RUN before the QE_RESTART under way, HALTED or FAILED -/
  stoppedRun : BitVec 4 := 6
  deriving DecidableEq, Repr

/-- A tally library index (06 R125, R127): both copies and the seal. -/
structure TallyImg where
  /-- 06 R125: NAME -/
  nameHash : BitVec 128 := 0
  /-- 06 R125: ENTRY -/
  entry : Nat := 0
  /-- 06 R125: INIT -/
  initAt : Nat := 0
  /-- 06 R125: MAXPTS -/
  maxpts : Nat := 0
  /-- 06 R125: W -/
  w : Nat := 0
  /-- 06 R125: FOOTPRINT -/
  foot : Nat := 0
  /-- 06 R125: INIT_BOUND -/
  initBound : Nat := 0
  /-- 06 R125: REQ_DIR -/
  reqDir : W32 := 0
  /-- 06 R125: OPT_DIR -/
  optDir : W32 := 0
  /-- 06 R125: KIND[0-7] -/
  kinds : List Nat := []
  /-- 06 R125: SLOTS[0-7] -/
  slots : List Nat := []
  /-- 06 R125: ROLES[k][r], row by row -/
  roles : List Nat := []
  /-- 06 R125: the whole image: header, text, data -/
  bytes : List W8 := []
  /-- 06 R127: digest in the seal table -/
  sealDig : BitVec 256 := 0
  /-- 06 QE_IMG_STATE: INSTALLED (DESIGN CHOICE 0) -/
  installed : Bool := false
  /-- 06 R128: the first library copy fails verification -/
  bad1 : Bool := false
  /-- 06 R128: the second library copy fails verification -/
  bad2 : Bool := false
  deriving DecidableEq, Repr

/-- Run-time state of one meter point (07). -/
structure MpState where
  /-- 07 QE_MP_STATE: DIR, committed direction at c (DESIGN CHOICE FWD) -/
  dirC : Bool := false
  /-- 07 QE_MP_STATE: QLOST -/
  qlost : Bool := false
  /-- 07 QE_MP_STATE: NAN_MARK -/
  nanMark : Bool := false
  /-- 07 QE_MP_STATE: NEG -/
  neg : W16 := 0
  /-- 07 R148: stamp of the outstanding quality request -/
  qreq : Option Nat := none
  /-- 07 R149: consecutive failures -/
  qfails : Nat := 0
  /-- 07 R148: PAR and the value put in force -/
  qval : Option (Nat × W64) := none
  /-- 07 R149: a request waits for its port -/
  qwait : Bool := false
  deriving DecidableEq, Repr

/-- A slot's pulse spill (07 R154-R158). -/
structure Spill where
  /-- 07 R154: spill accumulator, units 2^-64 count (DESIGN CHOICE 0) -/
  acc : Int := 0
  /-- 07 R157: BACKLOG (DESIGN CHOICE 0) -/
  backlog : W32 := 0
  /-- 07 R155: output: 0 idle, 1 on, 2 off time -/
  phase : BitVec 2 := 0
  /-- 07 R157: PULSE_BACKLOG raised and not re-armed -/
  raised : Bool := false
  deriving DecidableEq, Repr

/-- A billing register with its fraction and flags (08). -/
structure RegVal where
  /-- 07 R138, 08 R163: value in units 2^-64 of a count, or of 10^-6 currency (DESIGN CHOICE 0) -/
  v : Int := 0
  /-- 08 R161: NOT_LEGAL -/
  notLegal : Bool := false
  /-- 08 R161: DEGRADED -/
  degraded : Bool := false
  /-- 08 R161: CONFIG_SUSPECT -/
  suspect : Bool := false
  deriving DecidableEq, Repr

/-- A maximum-demand register, or the demand of the last window (08 R172, R174). -/
structure MaxD where
  /-- 08 R161: NOT_LEGAL -/
  notLegal : Bool := false
  /-- 08 R161: DEGRADED -/
  degraded : Bool := false
  /-- 08 R161: CONFIG_SUSPECT -/
  suspect : Bool := false
  /-- 08 R172: demand, counts per hour (DESIGN CHOICE 0) -/
  v : W64 := 0
  /-- 08 R174: UTC of the window's end -/
  at_ : W32 := 0
  /-- 08 R173: PARTIAL -/
  partl : Bool := false
  /-- 08 R173: IRREGULAR -/
  irreg : Bool := false
  /-- 08: window contains an ADJ_LATE -/
  adj : Bool := false
  /-- 08: window ends at power-fail detect -/
  outage : Bool := false
  deriving DecidableEq, Repr

/-- A closed billing period (08 R177). -/
structure Hist where
  /-- 08 R177: quantity registers by identity -/
  qty : Tbl RegVal := []
  /-- 08 R177: cost registers by identity -/
  cost : Tbl RegVal := []
  /-- 08 R177: maximum-demand registers by identity -/
  maxd : Tbl MaxD := []
  /-- 08 R161: ADJ of the registers of a meter point -/
  adj : Tbl Bool := []
  /-- 08 R177: close instant, UTC -/
  at_ : W32 := 0
  /-- 08 R177: 0 scheduled, 1 commanded, 2 LATE_CLOSE, 3 IRREGULAR -/
  kind : Nat := 0
  /-- 08 R177: period number -/
  period : W32 := 0
  /-- 08 R187: OUTAGE -/
  outage : Bool := false
  deriving DecidableEq, Repr

/-- A transfer session (08 R179). -/
structure Session where
  /-- 08 R179: number, 0 none -/
  no : W32 := 0
  /-- 08 R179: SESSOPEN descriptor -/
  desc : List W8 := []
  /-- 08 R179: open stamp -/
  openSix : Nat := 0
  /-- 08 R182: close stamp, none while no close is pending -/
  closeSix : Option Nat := none
  /-- 08 R182: reason of the pending or made close -/
  reason : W8 := 0
  /-- 08 R182: MODEL: the engine of the meter point when its close was asked for -/
  eng : Option Nat := none
  /-- 08 R179: the open has taken effect -/
  applied : Bool := false
  /-- 08 R179: session quantity registers by identity -/
  qty : Tbl RegVal := []
  /-- 08 R179: session cost registers by identity -/
  cost : Tbl RegVal := []
  /-- 08 R161: ADJ of the session registers -/
  adj : Bool := false
  /-- 08 R181: TARGET already reported -/
  reached : Bool := false
  /-- 08 R187: OUTAGE -/
  outage : Bool := false
  deriving DecidableEq, Repr

/-- A demand interval or sub-interval: what it collects and the settings it runs under (08 R171-R175). -/
structure Win where
  /-- 08 R171: interval number -/
  no : W32 := 0
  /-- 08 R172: sums by identity, units 2^-64 count, and the flags of what was added -/
  qty : Tbl RegVal := []
  /-- 08 R175: BILL_DEMAND_CFG in force for the interval -/
  cfg : W32 := 0x0000000F
  /-- 08 R165: BILL_PTAB in force for the interval (words that differ from 0) -/
  ptab : Tbl W32 := []
  /-- 08 R164: MODEL: activations made before the interval opened: tells the tariff set over it -/
  gen : Nat := 0
  /-- 08 R173: opening stamp -/
  openSix : Nat := 0
  /-- 08 R173: closing stamp -/
  closeSix : Nat := 0
  /-- 08 R173: PARTIAL -/
  partl : Bool := false
  /-- 08 R173: IRREGULAR -/
  irreg : Bool := false
  /-- 08: an ADJ_LATE fell in it -/
  adj : Bool := false
  /-- 08 R187: OUTAGE -/
  outage : Bool := false
  deriving DecidableEq, Repr

/-- A load-profile entry (08 R184). -/
structure LpEntry where
  /-- 08 R184: increment -/
  inc : W64 := 0
  /-- 08 R184: end instant -/
  utc : W32 := 0
  /-- 08 R184: PARTIAL, IRREGULAR, NOT_LEGAL, DEGRADED, CONFIG_SUSPECT, OUTAGE from bit 0 -/
  flags : BitVec 6 := 0
  deriving DecidableEq, Repr

/-- A load-profile channel (08 R184). -/
structure LpChan where
  /-- 08 R184: newest first (DESIGN CHOICE empty) -/
  entries : List LpEntry := []
  /-- 08 R184: register value at the start of the period, units 2^-64 -/
  last : Int := 0
  /-- 08 R184: SIX at the start of the period -/
  start : Nat := 0
  /-- 08 R184: UTC second of the boundary that opened the period -/
  at_ : Int := 0
  /-- 08 R184: MODEL: the end of the period, the register's value with the commits up to it and its flags, taken before a later commit -/
  cap : Option (Nat × Int × BitVec 3) := none
  /-- 08 R184: PARTIAL: opened at a restart -/
  partl : Bool := false
  /-- 08 R187: OUTAGE -/
  outage : Bool := false
  deriving DecidableEq, Repr

/-- The registers of an engine as a billing close that has not yet executed takes them (08 R177). -/
structure BillSnap where
  /-- 08 R176: stamp of the close -/
  stamp : Nat := 0
  /-- 08 R177: MODEL: engine -/
  eng : Nat := 0
  /-- 08 R177: quantity registers -/
  qty : Tbl RegVal := []
  /-- 08 R177: cost registers -/
  cost : Tbl RegVal := []
  /-- 08 R161: ADJ by meter point -/
  adj : Tbl Bool := []
  deriving DecidableEq, Repr

/-- The billing block (08, 07). -/
structure Bill where
  /-- 08 R160: quantity registers and fractions (DESIGN CHOICE 0) -/
  qty : Tbl RegVal := []
  /-- 08 R163: cost registers and fractions (DESIGN CHOICE 0) -/
  cost : Tbl RegVal := []
  /-- 08 R174: maximum-demand registers (DESIGN CHOICE 0) -/
  maxd : Tbl MaxD := []
  /-- 08 R162: demand of the last closed interval or window -/
  lastD : Tbl MaxD := []
  /-- 08 R162: end and flags of the last closed window -/
  lastWin : MaxD := {}
  /-- 08 R177: closed periods, 1 first (DESIGN CHOICE empty) -/
  hist : List Hist := []
  /-- 08 BILL_PERIOD: closes since manufacture (DESIGN CHOICE 0) -/
  period : W32 := 0
  /-- 08 BILL_SEQ: commit sequence (DESIGN CHOICE 0) -/
  seq : W32 := 0
  /-- 08 BILL_LAST_CLOSE: (DESIGN CHOICE 0) -/
  lastClose : W32 := 0
  /-- 08 R187: the open period includes an outage -/
  outage : Bool := false
  /-- 08 R161: ADJ of the current registers of a meter point -/
  adj : Tbl Bool := []
  /-- 08 R177: MODEL: registers of engines that have committed past a billing close not yet executed -/
  snaps : List BillSnap := []
  /-- 08 R178: MODEL: engines that have committed past a BILL_ZERO not yet executed: stamp and engine -/
  zeroed : List (Nat × Nat) := []
  /-- 08 R179: open session by meter point -/
  sess : Tbl Session := []
  /-- 08 R182: last closed session by meter point -/
  lastSess : Tbl Session := []
  /-- 08 R179: next session number (DESIGN CHOICE 1) -/
  sessNext : W32 := 1
  /-- 08 R171: open interval or sub-interval -/
  win : Win := {}
  /-- 08 R172: MODEL: intervals whose opening boundary is reached and has not yet executed, oldest first -/
  aheadW : List Win := []
  /-- 08 R172: closed intervals, newest first -/
  closedW : List Win := []
  /-- 08 R184: load-profile channels -/
  lp : Tbl LpChan := []
  /-- 08 R188: civil instant of the last executed boundary of each kind, ns -/
  lastExec : Tbl Int := []
  /-- 08 R186, R176: MODEL: civil instant from which boundaries of each kind are scheduled, ns -/
  from_ : Tbl Int := []
  /-- 07 R154: spill by meter point x 8 + slot -/
  spill : Tbl Spill := []
  /-- 07: meter-point state -/
  mps : Tbl MpState := []
  /-- 08 R176: commanded closes: ticket and stamp -/
  closeT : List (W16 × Nat) := []
  deriving DecidableEq, Repr

/-- Tariff sets (08 R166-R170). -/
structure Tariff where
  /-- 08 R166: active set by word offset, words that differ from the shipped set -/
  act : Tbl W32 := []
  /-- 08 R166: passive set likewise -/
  pas : Tbl W32 := []
  /-- 08 R164: MODEL: the set in force before the last activation, for bins of earlier intervals -/
  prev : Tbl W32 := []
  /-- 08 R164: MODEL: activations executed, a count -/
  gen : Nat := 0
  /-- 08 TARIFF_ACT_AT: scheduled activation, UTC seconds -/
  sched : Option Nat := none
  /-- 08 R168: stamp once handed to the engines -/
  stamp : Option Nat := none
  /-- 08 TARIFF_LAST_ACT: (DESIGN CHOICE 0) -/
  lastAct : W32 := 0
  /-- 08 R169: calendar tariff in force (1 without a calendar) -/
  inForce : BitVec 6 := 1
  deriving DecidableEq, Repr

/-- A scheduled TIME event handed to the engines (08 R168). -/
structure PendTime where
  /-- 08 R188: 0 demand end, 1 billing close, 2 switch point, 3 activation -/
  kind : Nat := 0
  /-- 08 R188: civil instant, ns -/
  civil : Int := 0
  /-- 04 R74: stamp -/
  stamp : Nat := 0
  /-- 08 R190: MODEL: place among the boundaries that one step forward skips, 0 for others -/
  ord : Nat := 0
  /-- 18 R374: MODEL: the interval that the end of START opens -/
  partl : Bool := false
  /-- 08 R171: number of the interval a demand end opens -/
  no : W32 := 0
  /-- 08 R169: tariff that a switch point or an activation sets -/
  tar : BitVec 6 := 1
  /-- 08 R191: engines at which it took effect late: engine and gate -/
  effs : List (Nat × Nat) := []
  deriving DecidableEq, Repr

/-- A final save or journal entry in MRAM (09 R208, R209). -/
structure SaveRec where
  /-- 09 R208: SIX_p, or the instant J of an entry -/
  six : Nat := 0
  /-- 09 R208: civil time at that instant, ns -/
  civil : Int := 0
  /-- 09 R208: registers, fractions, spills, maximum demand, sessions -/
  bill : Bill := {}
  /-- 03 R67: arbiter states -/
  arb : Tbl (BitVec 4) := []
  /-- 09 R209: standing image: engine and its uncommitted segments -/
  standing : List (Nat × Seg) := []
  /-- 09 R210: final save with head lag -/
  lag : Bool := false
  /-- 09 R210: latest instant covered -/
  hpos : Nat := 0
  /-- 09 R209: MODEL: boundaries handed to the engines and not yet executed -/
  pend : List PendTime := []
  /-- 09 R209: direction in the context the head used, by meter point -/
  dirs : List (Nat × Bool) := []
  deriving DecidableEq, Repr

/-- The save engine (09 R208-R211). -/
structure Save where
  /-- 09 R208: final save, present with its commit word (DESIGN CHOICE none) -/
  final : Option SaveRec := none
  /-- 09 R209: ring of valid entries, newest first (DESIGN CHOICE empty) -/
  journal : List SaveRec := []
  /-- 08 R168: TIME events handed to the engines, not yet executed -/
  pendTime : List PendTime := []
  deriving DecidableEq, Repr

/-- A CAN FD port of the bay (12 R261, R262). -/
structure CanPort where
  /-- 05 R122: frames queued by SLIPTX: identifier (4 bytes), then data; oldest first -/
  tx : List (List W8) := []
  /-- 12 R262: received frames: identifier (4), receive time us (4), data -/
  rx : List (List W8) := []
  /-- 12 BAY_CAN_CNT: DROP -/
  drop : W16 := 0
  /-- 12 BAY_CAN_CNT: bus-off count -/
  busOff : W16 := 0
  deriving DecidableEq, Repr

/-- What the module's last ISO 15118 answer carries (12 R258). -/
structure V2gAns where
  /-- 12 R258: MODEL: request answered -/
  msg : Nat := 0
  /-- 12 R257: MODEL: the response code is a failure -/
  failed : Bool := false
  /-- 12 R258: MODEL: EVSEProcessing, 0 none, 1 Ongoing, 2 Finished -/
  processing : Nat := 0
  /-- 12 R258: MODEL: EVSENotification, 0 none, 1 terminate, 2 pause, 3 renegotiate -/
  notify : Nat := 0
  /-- 12 R258: MODEL: EVSEIsolationStatus, coded as BAY_MON.ISO -/
  iso : Nat := 0
  /-- 12 R258: MODEL: services offered -/
  services : Nat := 0
  /-- 12 R258: MODEL: payment options offered, as PAYMENTS -/
  payments : Nat := 0
  /-- 12 R258: MODEL: limits and present values sent, in the order of the V2G area -/
  evse : List W64 := []
  /-- 12 R258: MODEL: EVSE_STATUS sent -/
  status : Nat := 0
  /-- 12 R258: MODEL: MeterID -/
  meterId : W64 := 0
  /-- 12 R258: MODEL: session register of MeterInfo, whole Wh -/
  meterWh : Int := 0
  deriving DecidableEq, Repr

/-- The vehicle and trailer bay (12). -/
structure Bay where
  /-- 05 R93, 12 R248: BS core; busy = the program runs -/
  core : Thread := {}
  /-- 05 R103: BS data memory, zero where unlisted -/
  mem : Tbl W8 := []
  /-- 12 BAY_STATE: RUN -/
  run : BitVec 4 := 0
  /-- 12 R250: instants of the bay faults of the last 600 s -/
  faults : List Nat := []
  /-- 12 BAY_FAULT: code -/
  faultCode : W8 := 0
  /-- 12 BAY_FAULT: PC -/
  faultPc : BitVec 15 := 0
  /-- 12 BAY_RESTART: tickets of the BAY_RESTARTs under way -/
  restartTickets : List W16 := []
  /-- 05 R120: pending bay event bits -/
  events : W32 := 0
  /-- 05 R120: mask of an EVWAIT that waits -/
  waitMask : Option W32 := none
  /-- 05 R121: armed bay timers, duration in us; unset = disarmed -/
  timers : Tbl W32 := []
  /-- 12 R251: output the program has set -/
  pilotReq : W16 := 0xFFFF
  /-- 12 R253: STATE -/
  pilotState : BitVec 4 := 0
  /-- 12 R253: state of the last samples -/
  pilotCand : BitVec 4 := 0
  /-- 12 R253: consecutive samples that agree -/
  pilotRun : Nat := 0
  /-- 12 R253: DIODE -/
  diode : Bool := false
  /-- 12 R256: PP -/
  pp : BitVec 4 := 0
  /-- 12 R265: TRIP -/
  trip : Bool := false
  /-- 12 BAY_MON: CAUSE -/
  tripCause : BitVec 3 := 0
  /-- 12 BAY_MON: RCM_FLT -/
  rcmFlt : BitVec 4 := 0
  /-- 12 BAY_MON: ISO -/
  iso : BitVec 2 := 0
  /-- 12 BAY_MON: RISO -/
  riso : W16 := 0
  /-- 12 R261: CAN FD ports -/
  can : Tbl CanPort := []
  /-- 05 R122: a SIGNAL instruction, by its rd, holds with this packet while FQ5 is full -/
  signal : Option (Reg × List W32) := none
  /-- 12 R257: ISO 15118 connection open -/
  v2gConn : Bool := false
  /-- 12 R251: requests held during CHANGEOVER, oldest first -/
  v2gHeld : List V2gReq := []
  /-- 12 R251: HOLDOVER pause notification not yet placed -/
  pauseNote : Bool := false
  /-- 12 R258: MODEL: what the last answer carries -/
  v2gAns : V2gAns := {}
  /-- 12 R248: index of the image loaded last, or of one whose two copies failed; none with EN clear -/
  loaded : Option Nat := none
  /-- 19 R407: the modem has answered since its reset was released -/
  modem : Bool := false
  /-- 19 R407: instant at which MDM_RST_N is released; none while it is held low -/
  modemUp : Option Nat := none
  /-- 19 R406: status byte of the modem's last valid reply -/
  modemStatus : W8 := 0
  /-- 19 R406: MODEL: WRITE_FRAME transactions sent, newest first -/
  modemSent : List (List W8) := []
  /-- 12 R258, 19 R407: MODEL: answers waiting to be written to the modem, oldest first -/
  modemTx : List V2gAns := []
  /-- 19 R407: Ethernet frames read from the modem -/
  modemRx : List (List W8) := []
  /-- 12 R249: HS_SEQ count kept by the module -/
  hsSeq : W64 := 0
  /-- 12 R249: LK_WR count kept by the module -/
  lkWr : W64 := 0
  /-- 12 R259: V2G_SEQ count kept by the module -/
  v2gSeq : W64 := 0
  /-- 12 R247: bay image library (header fields as tally images) -/
  lib : Tbl TallyImg := []
  deriving DecidableEq, Repr

/-- One output drive (13). -/
structure Drive where
  /-- 13 R278: commanded state -/
  cmd : Bool := false
  /-- 13 R279, R280: the command frozen by the die in the hold window, or the output kept in the fail state HOLD -/
  frozen : Bool := false
  /-- 13 R272: instant of the last turn-on of a drive with LAMP -/
  onAt : Option Nat := none
  /-- 13 R280: PHASE: a die that powers up without controller is in its fail state -/
  phase : BitVec 2 := 2
  /-- 13 R273: THERM (DESIGN CHOICE 0) -/
  therm : Bool := false
  /-- 13 R272: OC_WAIT -/
  ocWait : Bool := false
  /-- 13 R272: OC_LOCK (DESIGN CHOICE 0) -/
  ocLock : Bool := false
  /-- 13 R272: RETRY_LEFT, 3 as shipped -/
  retryLeft : BitVec 4 := 3
  /-- 13 R275: OPEN (DESIGN CHOICE 0) -/
  openL : Bool := false
  /-- 13 R274: SHORT_HI (DESIGN CHOICE 0) -/
  shortHi : Bool := false
  /-- 13 R271: CLAMP_BAD (DESIGN CHOICE 0) -/
  clampBad : Bool := false
  /-- 13 DRV_STATE: CURRENT (DESIGN CHOICE 0) -/
  current : BitVec 12 := 0
  /-- 13 R273: junction temperature, degC (DESIGN CHOICE 25) -/
  tj : Int := 25
  /-- 13 DRV_CNT: OC, cleared at the die's power-up -/
  cntOc : W8 := 0
  /-- 13 DRV_CNT: THERM -/
  cntTherm : W8 := 0
  /-- 13 DRV_CNT: INCONC -/
  cntInc : W8 := 0
  /-- 13 DRV_CNT: UV -/
  cntUv : W8 := 0
  /-- 13 R274-R276: 0 none, 1 off-pulse, 2 open-load test in progress -/
  testing : BitVec 2 := 0
  /-- 13 R276: an aborted test waits for its repetition -/
  testRetry : Bool := false
  /-- 13 R276: consecutive inconclusive tests -/
  incRun : Nat := 0
  /-- 13 R276: DRV_TP_STARVED raised -/
  starved : Bool := false
  /-- 13 DRV_TEST_NOW: ticket of a commanded test, 0 none -/
  ticket : W16 := 0
  /-- 13 R283: FAILSTATE latched in the die (DESIGN CHOICE OFF) -/
  fs : BitVec 2 := 0
  /-- 13 R283: DRV_LIMP_MAP entry latched in the die (DESIGN CHOICE 0) -/
  lhMap : BitVec 4 := 0
  deriving DecidableEq, Repr

/-- The drive dies (13). -/
structure Drives where
  /-- 13: drives D00-D47 -/
  d : Tbl Drive := []
  /-- 13 R279: DRV_HOLD_MS latched in the dies -/
  holdMs : BitVec 10 := 250
  /-- 13 R283: HOLD_EN latched, 1 as shipped -/
  holdEn : Bool := true
  /-- 13 R283: LIMP_ARM latched, 0 as shipped -/
  limpArm : Bool := false
  /-- 13 R279: controller lost (no heartbeat yet) -/
  lost : Bool := true
  /-- 13 R280: filtered LH inputs (DESIGN CHOICE 0, open) -/
  lh : W8 := 0
  /-- 13 R269: VOUT_A under-voltage -/
  uvA : Bool := false
  /-- 13 R269: VOUT_B under-voltage -/
  uvB : Bool := false
  /-- 13 R282: drives stand in fail states after a CG5 mismatch -/
  failCg5 : Bool := false
  /-- 13 R281: hold window extended to 1.5 s for a changeover -/
  holdExt : Bool := false
  /-- 13 R283: MODEL: an input, the dies whose latches fail their read-back (DESIGN CHOICE none) -/
  badLatch : BitVec 6 := 0
  deriving DecidableEq, Repr

/-- One safety zone, as one channel keeps it (14 R291). -/
structure Zone where
  /-- 14 R291: STATE: START at every start of the SAFE island -/
  st : BitVec 3 := 1
  /-- 14 SAFE_ZONES: CAUSE of the latest entry -/
  cause : BitVec 5 := 1
  /-- 14 R291: pairs with an input fault: bit 0 pair 2k, bit 1 pair 2k+1 -/
  flt : BitVec 2 := 0
  /-- 14 R291: contact A of the pair has opened since its fault -/
  openA : BitVec 2 := 0
  /-- 14 R291: contact B of the pair has opened since its fault -/
  openB : BitVec 2 := 0
  /-- 14 R295: both hands released since the last grant ended -/
  released : Bool := true
  /-- 14 R295: both hands actuated in time since the last release -/
  twoOk : Bool := false
  /-- 14 R295: instant at which the first hand was actuated -/
  handFirst : Option Nat := none
  deriving DecidableEq, Repr

/-- One safety channel: SF or the Edge logic (14). -/
structure SafeChan where
  /-- 14 SAFE_SW: switch word read (DESIGN CHOICE 0 until read) -/
  sw : W16 := 0
  /-- 14 SAFE_CRC: configuration CRC -/
  crc : W16 := 0
  /-- 14 R294: filtered inputs, closed = 1 (DESIGN CHOICE 0) -/
  inp : W16 := 0
  /-- 14 R291: zone states -/
  zones : Tbl Zone := []
  /-- 14 SAFE_IN: PFAULT found at TPA pulses -/
  pfault : W16 := 0
  /-- 14 SAFE_IN: PFAULT found at TPB pulses -/
  pfaultB : W16 := 0
  /-- 14 R293: inputs that failed at the last TPA pulse -/
  pbad : W16 := 0
  /-- 14 R293: inputs that failed at the last TPB pulse -/
  pbadB : W16 := 0
  deriving DecidableEq, Repr

/-- An Eombelan frame as it leaves. -/
structure EscOut where
  /-- 14 R302: MODEL: transport of NET_ESC_A -/
  via : BitVec 2 := 0
  /-- 14 R302: MODEL: port of the transport -/
  port : Bool := false
  /-- 14 R302: MODEL: IPv4 address of the partner, or CAN FD identifier -/
  dest : W32 := 0
  /-- 14 R302: MODEL: UDP port, 0 on another transport -/
  udp : W16 := 0
  /-- 14 R302: MODEL: bytes of the frame -/
  bytes : List W8 := []
  deriving DecidableEq, Repr

/-- An Eombelan connection (14 R303-R305). -/
structure Conn where
  /-- 14 SAFE_CONN: STATE -/
  st : BitVec 3 := 0
  /-- 14 SAFE_CONN: REASON -/
  reason : BitVec 5 := 0
  /-- 14 SAFE_CONN: RX -/
  rx : W8 := 0
  /-- 14 SAFE_CONN: TX -/
  tx : W8 := 0
  /-- 14 R304: SEQ of the last frame sent -/
  seq : W16 := 0
  /-- 14 R303: last accepted SEQ -/
  lastAcc : W16 := 0
  /-- 14 R304: a frame of the partner has been accepted -/
  accepted : Bool := false
  /-- 14 R303: frames sent: SEQ and instant, newest first -/
  sent : List (W16 × Nat) := []
  /-- 14 R303: instants of CRC failures of the last 60 s -/
  crcFails : List Nat := []
  /-- 14 R301: MODEL: frames sent, newest first -/
  out : List EscOut := []
  /-- 14 R303: instant of the last frame sent -/
  sentAt : Option Nat := none
  /-- 14 R303: a frame due less than 1 ms after the last one still has to go out -/
  owed : Bool := false
  /-- 14 SAFE_CONN_CNT: CRC -/
  cntCrc : W8 := 0
  /-- 14 SAFE_CONN_CNT: SEQ -/
  cntSeq : W8 := 0
  /-- 14 SAFE_CONN_CNT: WDOG -/
  cntWd : W8 := 0
  /-- 14 SAFE_CONN_CNT: DUP -/
  cntDup : W8 := 0
  deriving DecidableEq, Repr

/-- The safety subsystem (14). -/
structure Safe where
  /-- 14: channel A, SF -/
  sf : SafeChan := {}
  /-- 14: channel B, Edge logic -/
  edge : SafeChan := {}
  /-- 14 R290: switch word in force, none until adopted -/
  adopted : Option W16 := none
  /-- 14 R290: CRC of the previous adoption (DESIGN CHOICE 0) -/
  prevCrc : W16 := 0
  /-- 14 R290, R296: latched global faults by GCAUSE number -/
  global : BitVec 9 := 0
  /-- 14 R296: instant at which SAFE_ACK went high -/
  ackHigh : Option Nat := none
  /-- 14 SAFE_STATE: ACK_STUCK -/
  ackStuck : Bool := false
  /-- 14 SAFE_STATE: STUCK -/
  stuck : W8 := 0
  /-- 14 R293: consecutive good pulses of TPA, counted to 100 -/
  tpGood : Nat := 0
  /-- 14 R293: consecutive good pulses of TPB, counted to 100 -/
  tpGoodB : Nat := 0
  /-- 14 SAFE_RDC: AC -/
  rdcAc : BitVec 4 := 0
  /-- 14 SAFE_RDC: DC -/
  rdcDc : BitVec 4 := 0
  /-- 14 SAFE_ZCNT: TRIPS (DESIGN CHOICE 0) -/
  trips : Tbl W16 := []
  /-- 14 SAFE_ZCNT: DEMANDS (DESIGN CHOICE 0) -/
  demands : Tbl W16 := []
  /-- 14 R286: by zone, consecutive exchanges with differing decisions -/
  grantMm : Tbl Nat := []
  /-- 14 R287: consecutive agreeing exchanges since SF was loaded -/
  agreeing : Nat := 0
  /-- 14, 18: Edge logic running -/
  edgeUp : Bool := false
  /-- 14 R287: SF running, as the Edge logic sees its heartbeat -/
  sfUp : Bool := false
  /-- 01 R14: SF has stopped at a lockstep mismatch -/
  sfStopped : Bool := false
  /-- 14 R303: connections -/
  conns : Tbl Conn := []
  /-- 14 R307: SF's copy of the connection table (words that differ from 0) -/
  table : Tbl W32 := []
  /-- 14 R298: switch test of this start passed -/
  testOk : Bool := false
  deriving DecidableEq, Repr

/-- A tracked badge (15 R312, R323). -/
structure Badge where
  /-- 15 R324: ID -/
  uid : W64 := 0
  /-- 15 R331: UID length -/
  len : BitVec 4 := 0
  /-- 15 R313: AUTH -/
  auth : Bool := false
  /-- 15 R323: consecutive polls missed -/
  missed : Nat := 0
  deriving DecidableEq, Repr

/-- A tracked Crossing tag (15 R323). -/
structure TagRec where
  /-- 15 LINK_TAG_ST: present -/
  present : Bool := false
  /-- 15 LINK_TAG_LO,HI: identifier -/
  id : W64 := 0
  /-- 15 LINK_TAG_ST: AUTH -/
  auth : Bool := false
  /-- 15 LINK_TAG_ST: BATT low -/
  batt : Bool := false
  /-- 15 LINK_TAG_ST: CLASS -/
  cls : W8 := 0
  /-- 15 LINK_TAG_ST: MEDIUM -/
  medium : W8 := 0
  /-- 15 R323: instant of the last REQ round that found it -/
  seen : Nat := 0
  deriving DecidableEq, Repr

/-- A host access to the plate tag queued behind a field transaction (15 R329). -/
structure PlateAcc where
  /-- 15 R329: issuing master -/
  master : Nat := 0
  /-- 15 R329: ticket -/
  ticket : W16 := 0
  /-- 15 R328: block -/
  block : Nat := 0
  /-- 15 R328: write access -/
  write : Bool := false
  /-- 15 R328: VCHK -/
  vchk : Bool := false
  /-- 15 R328: expected version -/
  ver : W16 := 0
  /-- 15 R328: data -/
  data : List W8 := []
  deriving DecidableEq, Repr

/-- An outstanding LINK_XFER (15 R331). -/
structure Xfer where
  /-- 15 LINK_XFER: ticket -/
  ticket : W16 := 0
  /-- 15 LINK_XFER: master -/
  master : Nat := 0
  /-- 15 LINK_XFER: tracked index -/
  index : Nat := 0
  /-- 15 LINK_XFER: operation -/
  op : BitVec 2 := 0
  /-- 15 LINK_XFER: block -/
  block : W8 := 0
  /-- 15 LINK_XFER: key number -/
  key : BitVec 2 := 0
  /-- 15 LINK_XFER: write data -/
  data : List W8 := []
  /-- 15 LINK_XFER: polls without an answer -/
  polls : Nat := 0
  deriving DecidableEq, Repr

/-- The plate tag (15 R318-R330). -/
structure Plate where
  /-- 15 R318: 0 IDLE, 1 READY, 2 ACTIVE, 3 HALTED -/
  st : BitVec 2 := 0
  /-- 15 R318: quiet time, 30 s as shipped -/
  qt : W8 := 30
  /-- 15 R317: reply rate of the data phase -/
  rate : Bool := true
  /-- 15 R326: contents by byte address (DESIGN CHOICE 0) -/
  blocks : Tbl W8 := []
  /-- 15 R318: block versions (DESIGN CHOICE 0) -/
  vers : Tbl W16 := []
  /-- 15 R326: key 1 (DESIGN CHOICE none) -/
  key1 : Option (BitVec 128) := none
  /-- 15 R326: key 2 (DESIGN CHOICE none) -/
  key2 : Option (BitVec 128) := none
  /-- 15 R321: 0 none, 1 after AUTH1, 2 after AUTH2, 3 session -/
  auth : BitVec 2 := 0
  /-- 15 R321: key number of the exchange -/
  authKey : BitVec 2 := 0
  /-- 15 R321: RndB -/
  rndB : BitVec 128 := 0
  /-- 15 R321: RndA -/
  rndA : BitVec 128 := 0
  /-- 15 R321: session key -/
  ks : BitVec 128 := 0
  /-- 15 R321: message counter reader to tag -/
  ctrRx : W32 := 0
  /-- 15 R321: message counter tag to reader -/
  ctrTx : W32 := 0
  /-- 15 R322: lock first -/
  lockFirst : Nat := 0
  /-- 15 R322: lock count -/
  lockCount : Nat := 0
  /-- 15 R317: MODEL: bytes of the last reply, empty = no reply -/
  reply : List W8 := []
  /-- 15 R329: block held by a field transaction -/
  hold : Option Nat := none
  /-- 15 R329: host accesses waiting for the hold -/
  queue : List PlateAcc := []
  /-- 15 R326: slot that key 1 was derived from (DESIGN CHOICE 0) -/
  src1 : Nat := 0
  /-- 15 R326: slot that key 2 was derived from (DESIGN CHOICE 0) -/
  src2 : Nat := 0
  /-- 15 R330: PLATE packets held until SV is ready; PLATE_FIELD_WRITE is raised with one so marked -/
  heldEv : List (List W32 × Bool) := []
  deriving DecidableEq, Repr

/-- The reader LK (15). -/
structure Link where
  /-- 15 LINK_STATE: FIELD -/
  field : Bool := false
  /-- 15 LINK_STATE: SLICE_OWN -/
  sliceOwn : Bool := false
  /-- 15 LINK_STATE: ANT_FAULT -/
  antFault : Bool := false
  /-- 15 R323: tracked badges -/
  badges : List Badge := []
  /-- 15 R323: tracked tags -/
  tags : Tbl TagRec := []
  /-- 15 LINK_CNT: CRC -/
  cntCrc : W8 := 0
  /-- 15 LINK_CNT: AUTH -/
  cntAuth : W8 := 0
  /-- 15 LINK_CNT: OVER -/
  cntOver : W8 := 0
  /-- 15 LINK_CNT: UNSUP -/
  cntUnsup : W8 := 0
  /-- 15 LINK_XFER: outstanding transfers -/
  xfers : List Xfer := []
  /-- 15 R319: MODEL: frames LK sent in its last poll, without their CRC, in order -/
  air : List (List W8) := []
  /-- 15: plate tag -/
  plate : Plate := {}
  deriving DecidableEq, Repr

/-- One half of a key slot (16 R337). -/
structure Half where
  /-- 16 R337: generation, 0 = no valid half -/
  gen : W32 := 0
  /-- 16 R336: class -/
  cls : Nat := 0
  /-- 16 R336: type -/
  typ : Nat := 0
  /-- 16 R336: destination mask -/
  dest : BitVec 5 := 0
  /-- 16 R337: COMPAT -/
  compat : Bool := false
  /-- 16 R337: parent, 0x3F root -/
  parent : BitVec 6 := 0x3F
  /-- 16 R337: parent generation -/
  pgen : W32 := 0
  /-- 16 R337: COUNTER -/
  ctr : W32 := 0
  /-- 16 R337: material -/
  mat : List W8 := []
  /-- 16 R337: MODEL: KEK seed and root (test or not) of the storage key that made the GCM tag -/
  under : Nat × Bool := (0, false)
  deriving DecidableEq, Repr

/-- A key slot (16 R337). -/
structure Slot where
  /-- 16 R337: half A (DESIGN CHOICE empty) -/
  a : Half := {}
  /-- 16 R337: half B (DESIGN CHOICE empty) -/
  b : Half := {}
  /-- 16 KEY_SLOT_ATTR: half in force -/
  useB : Bool := false
  /-- 16 R337: EMPTY -/
  empty : Bool := true
  /-- 16 R345: material overwritten, CONDEMNED -/
  condemned : Bool := false
  /-- 16 R346: highest generation ever written -/
  lastGen : W32 := 0
  /-- 16 R342: generation of the last KEY_CHANGE record -/
  recGen : W32 := 0
  deriving DecidableEq, Repr

/-- An account (16 R353). -/
structure Account where
  /-- 16 KEY_ACCT: EN (DESIGN CHOICE 0) -/
  en : Bool := false
  /-- 16 KEY_ACCT: ROLE -/
  role : BitVec 3 := 0
  /-- 16 KEY_ACCT: METHOD -/
  method : BitVec 2 := 0
  /-- 16 KEY_ACCT: SLOT -/
  slot : BitVec 6 := 0
  /-- 16 R354: consecutive failures (DESIGN CHOICE 0) -/
  fails : Nat := 0
  /-- 16 R354: SIX at which the lockout ends, 0 none (DESIGN CHOICE 0) -/
  lockTo : Nat := 0
  /-- 16 R354: length of the last lockout, s -/
  lockLen : Nat := 0
  deriving DecidableEq, Repr

/-- The working key register (16 R338). -/
structure Kwr where
  /-- 16 R338: engine of the grant: 0 SF, 1 LK, 2 BS, 3 NX, 4 SV -/
  eng : Option Nat := none
  /-- 16 R338: slot loaded -/
  slot : Nat := 0
  /-- 16 R338: requests waiting: engine, slot -/
  queue : List (Nat × Nat) := []
  /-- 16 R345: the key loaded is CONDEMNED and in its grace span -/
  grace : Bool := false
  /-- 15 R326: LK's derivation of the plate tag's keys waits for the register -/
  plate : Bool := false
  /-- 16 R338: MODEL: status last answered to each engine's request -/
  result : Tbl W8 := []
  deriving DecidableEq, Repr

/-- A long key operation on its way (16): what its completion reports, or what it works on. -/
structure KeyJob where
  /-- 16 R44: ticket -/
  ticket : W16 := 0
  /-- 16 R340: MODEL: status of an operation whose checks are done -/
  st : W8 := 0
  /-- 16 R341: MODEL: its result -/
  res : W32 := 0
  /-- 16 KEY commands: ARG1 -/
  a1 : W32 := 0
  /-- 16 KEY commands: ARG2 -/
  a2 : W32 := 0
  /-- 16 KEY commands: ARG3 -/
  a3 : W32 := 0
  /-- 16 KEY_BUF: bytes taken with the command -/
  buf : List W8 := []
  deriving DecidableEq, Repr

/-- Keys, life cycle and accounts (16). -/
structure Key where
  /-- 16 KEY_LC: STATE (DESIGN CHOICE MANUFACTURE) -/
  lc : BitVec 3 := 0
  /-- 16 R333: helper data in OTP: PUF enrolments made (DESIGN CHOICE 0) -/
  helper : Nat := 0
  /-- 16 KEY_LC: TEST_ROOT; debug access is open in MANUFACTURE (R333, R351) -/
  testRoot : Bool := true
  /-- 16 KEY_LC: ZEROISED (DESIGN CHOICE 0) -/
  zeroised : Bool := false
  /-- 16 KEY_CTR: anti-replay counter (DESIGN CHOICE 0) -/
  ctr : W32 := 0
  /-- 16 R336: key slots -/
  slots : Tbl Slot := []
  /-- 16 R353: accounts; entry 16 counts unknown and disabled accounts -/
  accts : Tbl Account := []
  /-- 16 R338: working key register -/
  kwr : Kwr := {}
  /-- 16 R334: MODEL: generation of the KEK seed, 0 overwritten -/
  kekSeed : Nat := 0
  /-- 16 R348: identity and key-agreement keys derivable -/
  idKey : Bool := true
  /-- 16 R333, R351: debug access open, as in MANUFACTURE -/
  debug : Bool := true
  /-- 16 R349: MODEL: life-cycle state that the zeroisation ended, for its LIFECYCLE record (DESIGN CHOICE 0) -/
  zeroFrom : BitVec 3 := 0
  /-- 16 R349: zeroisation done, new keys not yet drawn -/
  zeroPend : Bool := false
  /-- 16 R349: the mesh tripped unpowered: step 2 of the zeroisation is due at the restart -/
  meshTrip : Bool := false
  /-- 16 R351: MODEL: answer of the last J12 access: 0 none, 1 identity, 2 debug, 3 refused -/
  j12 : W8 := 0
  /-- 19 R415: MODEL: what the last J12 access read: identity, ordering code, hardware revision -/
  j12Data : List W8 := []
  /-- 16 R353: MODEL: long key operations outstanding -/
  pending : List KeyJob := []
  deriving DecidableEq, Repr

/-- A staging of an image (17 R357). -/
structure Staging where
  /-- 17 R357: ticket -/
  ticket : W16 := 0
  /-- 17 R357: opening master -/
  master : Nat := 0
  /-- 17 UPD_STAGE: kind -/
  kind : Nat := 0
  /-- 17 UPD_STAGE: total length -/
  len : Nat := 0
  /-- 17 R357: bytes received, in order -/
  got : List W8 := []
  /-- 17 R358: completed OK -/
  done : Bool := false
  /-- 17 R357: instant of the last chunk or of completion -/
  at_ : Nat := 0
  /-- 17 R358: plaintext payload once checked -/
  plain : List W8 := []
  deriving DecidableEq, Repr

/-- A NOR slot (17 R359). -/
structure FwSlot where
  /-- 17 R359: 0 EMPTY, 1 STAGED, 2 TRIAL, 3 CONFIRMED, 4 FAILED -/
  st : BitVec 3 := 0
  /-- 17 R356: VERSION -/
  ver : W32 := 0
  /-- 17 R356: LEGAL_VERSION -/
  legalVer : W32 := 0
  /-- 17 R356: LEGAL_DIGEST -/
  legal : BitVec 256 := 0
  /-- 17 R356: ANTIROLL -/
  anti : W32 := 0
  /-- 17 R356: SET_FMT_MIN -/
  fmtMin : W8 := 0
  /-- 17 R356: SET_FMT_MAX (DESIGN CHOICE 255 in slot A) -/
  fmtMax : W8 := 255
  /-- 17 R365: VERSION of its SF component (DESIGN CHOICE the image's VERSION) -/
  sfVer : W32 := 0
  /-- 17 R359: MODEL: the stored image fails verification -/
  bad : Bool := false
  deriving DecidableEq, Repr

/-- Firmware (17). -/
structure Upd where
  /-- 17 UPD_STATE: RUN_SLOT (DESIGN CHOICE A) -/
  runSlot : BitVec 2 := 0
  /-- 17 R359: slot named by the boot record (DESIGN CHOICE A) -/
  bootSlot : Bool := false
  /-- 17 R359: slot A (DESIGN CHOICE CONFIRMED, 3.0) -/
  slotA : FwSlot := { st := 3, ver := 0x03000000 }
  /-- 17 R359: slot B (DESIGN CHOICE EMPTY) -/
  slotB : FwSlot := {}
  /-- 17 UPD_STATE: PHASE (DESIGN CHOICE CONFIRMED) -/
  phase : BitVec 2 := 0
  /-- 17 UPD_STATE: FELL_BACK (DESIGN CHOICE 0) -/
  fellBack : Bool := false
  /-- 17 UPD_STATE: LAST_FAIL (DESIGN CHOICE 0) -/
  lastFail : BitVec 3 := 0
  /-- 17 R367: instant at which the trial watchdog started -/
  trialFrom : Nat := 0
  /-- 17 R368,R369: MODEL: settings generation in force when the trial began -/
  trialGen : W32 := 0
  /-- 17 UPD_ROLL: (DESIGN CHOICE 0) -/
  roll : W32 := 0
  /-- 17 UPD_SF_VER: VERSION of the SF store's component (DESIGN CHOICE 3.0) -/
  sfVer : W32 := 0x03000000
  /-- 17 UPD_HEALTH: OK -/
  healthOk : Bool := false
  /-- 17 R367: engines that have committed a gate since the changeover -/
  gated : W8 := 0
  /-- 17 R357: stagings and staged images -/
  stagings : List Staging := []
  /-- 17 R362: ticket of the changeover running, 0 none -/
  coTicket : W16 := 0
  /-- 17 R362: t0 of the changeover -/
  coAt : Nat := 0
  /-- 17 R364: the changeover is a revert -/
  coRevert : Bool := false
  /-- 17 R362: last completed step -/
  coStep : Nat := 0
  /-- 17 R362: handover area: checkpoints of the engines stopped -/
  handover : List (Nat × Ckpt) := []
  /-- 17 R362: a FIRMWARE record waits for the first gate -/
  fwRecPend : Bool := false
  /-- 17 R360: recovery image running -/
  recovery : Bool := false
  /-- 17 R360: recovery image, written at manufacture (DESIGN CHOICE 3.0, every format) -/
  recImg : FwSlot := { st := 3, ver := 0x03000000 }
  /-- 17 R371: LEGAL_DIGEST that the legal event counter has taken up (DESIGN CHOICE that of slot A) -/
  legalNow : BitVec 256 := 0
  deriving DecidableEq, Repr

/-- Ethernet and modem links (18 R372, 19). -/
structure Net where
  /-- 18 R372: links up: J6 ports 0 and 1, 10BASE-T1L ports 0 and 1 -/
  links : BitVec 4 := 0
  /-- 18 R372: NX running -/
  nxUp : Bool := false
  /-- 02 R23: MODEL: replies NO_RESOURCE sent to a fifth YHP connection, a count -/
  noRes : Nat := 0
  deriving DecidableEq, Repr

/-- The tandem pair (18). -/
structure Pair where
  /-- 18 PAIR_STATE: ROLE -/
  role : BitVec 2 := 0
  /-- 18 PAIR_STATE: J11_UP -/
  j11Up : Bool := false
  /-- 18 PAIR_STATE: UDP_UP: instant of the last heartbeat over UDP -/
  udpAt : Option Nat := none
  /-- 18 PAIR_STATE: DEVIATING -/
  deviating : Bool := false
  /-- 18 PAIR_STATE: FAILOVERS -/
  failovers : W16 := 0
  /-- 18 R383: pair formed -/
  formed : Bool := false
  /-- 18 R389: active by failover -/
  byFailover : Bool := false
  /-- 18 PAIR_PID: partner identity -/
  pid : W64 := 0
  /-- 18 R384: partner's role -/
  pRole : BitVec 2 := 0
  /-- 18 R384: partner's SYS_MODE -/
  pMode : BitVec 4 := 0
  /-- 18 R384: partner's SYS_READY -/
  pReady : BitVec 20 := 0
  /-- 18 R384: partner's commit sequence -/
  pSeq : W32 := 0
  /-- 18 R384: partner's commanded states of D40-D47 -/
  pSafe : W8 := 0
  /-- 17 R361: partner on trial -/
  pTrial : Bool := false
  /-- 18 R390: ticket of a running PAIR_SWITCH, 0 none -/
  switchT : W16 := 0
  /-- 18 R390: an UPD_ACTIVATE waits for the switch -/
  switchUpd : Bool := false
  /-- 19 R410: lanes with signal (DESIGN CHOICE both) -/
  lane : BitVec 2 := 3
  /-- 15 R325: MODEL: slice boundaries since the link came up, 50 are 1 s -/
  markRun : Nat := 0
  /-- 15 R325: the slice running is even -/
  evenSlice : Bool := false
  /-- 18 R391: consecutive deviating intervals -/
  devRun : Nat := 0
  /-- 18 R391: consecutive compared intervals without deviation -/
  okRun : Nat := 0
  /-- 18 R391: the interval holds a restart, changeover or partner loss -/
  excl : Bool := false
  /-- 01 R20: PAIR_MISMATCH raised, drives held off -/
  mismatch : Bool := false
  deriving DecidableEq, Repr

/-- The AO island's tamper capture (10 R223). -/
structure Tamper where
  /-- 10 R223: cover switch open (DESIGN CHOICE closed) -/
  cover : Bool := false
  /-- 10 R223: seal wire open (DESIGN CHOICE closed) -/
  sealOpen : Bool := false
  /-- 10 R223: LSW open (DESIGN CHOICE closed) -/
  lsw : Bool := false
  /-- 19 R414: consecutive samples of the cover switch unlike `cover` (DESIGN CHOICE 0) -/
  coverRun : Nat := 0
  /-- 19 R414: the same of the seal lever (DESIGN CHOICE 0) -/
  sealRun : Nat := 0
  /-- 19 R414: the same of LSW (DESIGN CHOICE 0) -/
  lswRun : Nat := 0
  /-- 16 R349: mesh found broken at the last sample (DESIGN CHOICE whole) -/
  mesh : Bool := false
  /-- 10 R223: field magnitude, 0.1 mT (DESIGN CHOICE 0) -/
  mag : Nat := 0
  /-- 10 R223: consecutive samples above 40 mT -/
  magOver : Nat := 0
  /-- 10 R223: consecutive samples below 30 mT -/
  magUnder : Nat := 0
  /-- 09 R194, 10 R223: 10 ms samples the AO island has counted since the power failure (DESIGN CHOICE 0) -/
  aoTicks : Nat := 0
  /-- 10 R223: changes captured unpowered: type, start, AO stamp; oldest first -/
  captured : List (Nat × Bool × Nat) := []
  /-- 10 R221: tamper records -/
  recs : Tbl TampRec := []
  deriving DecidableEq, Repr

/-- The whole block but for the queue of waiting commands. Tables are keyed by unit number. -/
structure Chip where
  /-- the host port on J6 -/
  host : HostPort := {}
  /-- SYS block -/
  sys : Sys := {}
  /-- masters 0-4 -/
  masters : Tbl Master := []
  /-- landings -/
  lands : Tbl Landing := []
  /-- tickets -/
  tix : Tickets := {}
  /-- configuration groups -/
  cfg : Cfg := {}
  /-- tap groups G0-G7 -/
  groups : Tbl TapGroup := []
  /-- taps T000-T127 -/
  taps : Tbl Tap := []
  /-- quantity engines Q0-Q7 -/
  engs : Tbl Engine := []
  /-- tally library -/
  lib : Tbl TallyImg := []
  /-- billing block -/
  bill : Bill := {}
  /-- tariff sets -/
  tariff : Tariff := {}
  /-- time base -/
  time : Time := {}
  /-- supplies -/
  power : Power := {}
  /-- save engine -/
  save : Save := {}
  /-- events -/
  evt : Evt := {}
  /-- tamper records and AO capture -/
  tamper : Tamper := {}
  /-- the ledger -/
  ledger : Ledger := {}
  /-- the display -/
  disp : Disp := {}
  /-- ferry queues FQ0-FQ7 -/
  ferry : Tbl Ferry := []
  /-- the bay -/
  bay : Bay := {}
  /-- the output drives -/
  drv : Drives := {}
  /-- the safety subsystem -/
  safe : Safe := {}
  /-- the reader and the plate tag -/
  link : Link := {}
  /-- keys, accounts and the life cycle -/
  key : Key := {}
  /-- firmware -/
  upd : Upd := {}
  /-- network links -/
  net : Net := {}
  /-- the tandem pair -/
  pair : Pair := {}
  /-- MODEL: how many fresh free values have been drawn -/
  free : Nat := 0
  deriving DecidableEq, Repr

/-- The machine: the block and its queue of waiting commands, first in, first out. -/
structure State where
  /-- the block -/
  chip : Chip := {}
  /-- the commands that wait, oldest first -/
  pending : List Instr := []
  deriving DecidableEq, Repr

/-- The block as it leaves the factory and first gets power: every field at the value the
manual gives for reset; where it gives none, at the value the assumption log names. -/
def State.reset : State := {}

/-- Stops the block reports: there are none, every command ends in a next state. -/
inductive Fault where
  deriving DecidableEq, Repr

/-- Commands the model does not run. -/
inductive Refusal where
  /-- No meaning yet; raised by `exec` alone. Safe. -/
  | notModelled (mnemonic : String)
  deriving DecidableEq, Repr

end Sys2Proof.Machine
end

