-- ==== Sys2Proof/Machine/Access.lean ====
section
/-! DEFINITION. Sparse tables in one canonical form, and the accessors of the state's fields:
one reader and one updater per unit table, one updater per block. -/

namespace Sys2Proof.Machine

open Sys2Proof

/-- The value of key `k`, `d` where unlisted. -/
def Tbl.get {α : Type} (d : α) : Tbl α → Nat → α
  | [], _ => d
  | (j, a) :: t, k => if j = k then a else Tbl.get d t k

/-- Inserts or replaces key `k`. -/
def Tbl.ins {α : Type} : Tbl α → Nat → α → Tbl α
  | [], k, v => [(k, v)]
  | (j, a) :: t, k, v =>
    if k < j then (k, v) :: (j, a) :: t
    else if j = k then (k, v) :: t else (j, a) :: Tbl.ins t k v

/-- Removes key `k`. -/
def Tbl.del {α : Type} : Tbl α → Nat → Tbl α
  | [], _ => []
  | (j, a) :: t, k =>
    if j = k then Tbl.del t k else (j, a) :: Tbl.del t k

/-- Writes key `k`; writing the default removes the entry, so that equal tables are equal data. -/
def Tbl.put {α : Type} [DecidableEq α] (d : α) (t : Tbl α) (k : Nat) (v : α) : Tbl α :=
  if v = d then Tbl.del t k else Tbl.ins t k v

/-- The canonical form: keys strictly rising from `lo` on, no entry equal to the default. -/
def Tbl.wfFrom {α : Type} [DecidableEq α] (d : α) : Nat → Tbl α → Bool
  | _, [] => true
  | lo, (j, a) :: t => decide (lo ≤ j) && decide (a ≠ d) && Tbl.wfFrom d (j + 1) t

/-- The canonical form of a table. -/
def Tbl.wf {α : Type} [DecidableEq α] (d : α) (t : Tbl α) : Bool := Tbl.wfFrom d 0 t

/-- Updates the block `host`. -/
def Chip.modHost (f : HostPort → HostPort) (c : Chip) : Chip := { c with host := f c.host }

/-- Updates the block `sys`. -/
def Chip.modSys (f : Sys → Sys) (c : Chip) : Chip := { c with sys := f c.sys }

/-- Reads unit `n` of `masters`. -/
def Chip.master (c : Chip) (n : Nat) : Master := Tbl.get {} c.masters n

/-- Updates unit `n` of `masters`. -/
def Chip.modMaster (n : Nat) (f : Master → Master) (c : Chip) : Chip :=
  { c with masters := Tbl.put {} c.masters n (f (Tbl.get {} c.masters n)) }

/-- Reads unit `n` of `lands`. -/
def Chip.land (c : Chip) (n : Nat) : Landing := Tbl.get {} c.lands n

/-- Updates unit `n` of `lands`. -/
def Chip.modLand (n : Nat) (f : Landing → Landing) (c : Chip) : Chip :=
  { c with lands := Tbl.put {} c.lands n (f (Tbl.get {} c.lands n)) }

/-- Updates the block `tix`. -/
def Chip.modTix (f : Tickets → Tickets) (c : Chip) : Chip := { c with tix := f c.tix }

/-- Updates the block `cfg`. -/
def Chip.modCfg (f : Cfg → Cfg) (c : Chip) : Chip := { c with cfg := f c.cfg }

/-- Reads unit `n` of `groups`. -/
def Chip.group (c : Chip) (n : Nat) : TapGroup := Tbl.get {} c.groups n

/-- Updates unit `n` of `groups`. -/
def Chip.modGroup (n : Nat) (f : TapGroup → TapGroup) (c : Chip) : Chip :=
  { c with groups := Tbl.put {} c.groups n (f (Tbl.get {} c.groups n)) }

/-- Reads unit `n` of `taps`. -/
def Chip.tap (c : Chip) (n : Nat) : Tap := Tbl.get {} c.taps n

/-- Updates unit `n` of `taps`. -/
def Chip.modTap (n : Nat) (f : Tap → Tap) (c : Chip) : Chip :=
  { c with taps := Tbl.put {} c.taps n (f (Tbl.get {} c.taps n)) }

/-- Reads unit `n` of `engs`. -/
def Chip.eng (c : Chip) (n : Nat) : Engine := Tbl.get {} c.engs n

/-- Updates unit `n` of `engs`. -/
def Chip.modEng (n : Nat) (f : Engine → Engine) (c : Chip) : Chip :=
  { c with engs := Tbl.put {} c.engs n (f (Tbl.get {} c.engs n)) }

/-- Reads unit `n` of `lib`. -/
def Chip.img (c : Chip) (n : Nat) : TallyImg := Tbl.get {} c.lib n

/-- Updates unit `n` of `lib`. -/
def Chip.modImg (n : Nat) (f : TallyImg → TallyImg) (c : Chip) : Chip :=
  { c with lib := Tbl.put {} c.lib n (f (Tbl.get {} c.lib n)) }

/-- Updates the block `bill`. -/
def Chip.modBill (f : Bill → Bill) (c : Chip) : Chip := { c with bill := f c.bill }

/-- Updates the block `tariff`. -/
def Chip.modTariff (f : Tariff → Tariff) (c : Chip) : Chip := { c with tariff := f c.tariff }

/-- Updates the block `time`. -/
def Chip.modTime (f : Time → Time) (c : Chip) : Chip := { c with time := f c.time }

/-- Updates the block `power`. -/
def Chip.modPower (f : Power → Power) (c : Chip) : Chip := { c with power := f c.power }

/-- Updates the block `save`. -/
def Chip.modSave (f : Save → Save) (c : Chip) : Chip := { c with save := f c.save }

/-- Updates the block `evt`. -/
def Chip.modEvt (f : Evt → Evt) (c : Chip) : Chip := { c with evt := f c.evt }

/-- Updates the block `tamper`. -/
def Chip.modTamper (f : Tamper → Tamper) (c : Chip) : Chip := { c with tamper := f c.tamper }

/-- Updates the block `ledger`. -/
def Chip.modLedger (f : Ledger → Ledger) (c : Chip) : Chip := { c with ledger := f c.ledger }

/-- Updates the block `disp`. -/
def Chip.modDisp (f : Disp → Disp) (c : Chip) : Chip := { c with disp := f c.disp }

/-- Reads unit `n` of `ferry`. -/
def Chip.fq (c : Chip) (n : Nat) : Ferry := Tbl.get {} c.ferry n

/-- Updates unit `n` of `ferry`. -/
def Chip.modFq (n : Nat) (f : Ferry → Ferry) (c : Chip) : Chip :=
  { c with ferry := Tbl.put {} c.ferry n (f (Tbl.get {} c.ferry n)) }

/-- Updates the block `bay`. -/
def Chip.modBay (f : Bay → Bay) (c : Chip) : Chip := { c with bay := f c.bay }

/-- Updates the block `drv`. -/
def Chip.modDrv (f : Drives → Drives) (c : Chip) : Chip := { c with drv := f c.drv }

/-- Updates the block `safe`. -/
def Chip.modSafe (f : Safe → Safe) (c : Chip) : Chip := { c with safe := f c.safe }

/-- Updates the block `link`. -/
def Chip.modLink (f : Link → Link) (c : Chip) : Chip := { c with link := f c.link }

/-- Updates the block `key`. -/
def Chip.modKey (f : Key → Key) (c : Chip) : Chip := { c with key := f c.key }

/-- Updates the block `upd`. -/
def Chip.modUpd (f : Upd → Upd) (c : Chip) : Chip := { c with upd := f c.upd }

/-- Updates the block `net`. -/
def Chip.modNet (f : Net → Net) (c : Chip) : Chip := { c with net := f c.net }

/-- Updates the block `pair`. -/
def Chip.modPair (f : Pair → Pair) (c : Chip) : Chip := { c with pair := f c.pair }

end Sys2Proof.Machine
end

