-- ==== Sys2Proof/Machine/Ops.lean ====
section
/-! DEFINITION. Named operations over words, bytes, tables and memories: bit fields, byte order,
the check codes of the manual, saturating counters, fresh free values. -/

namespace Sys2Proof.Machine

open Sys2Proof

/-- Bits [lo + len - 1 : lo] of a word as a number. -/
def fld {w : Nat} (v : BitVec w) (lo len : Nat) : Nat := (v.toNat >>> lo) % 2 ^ len

/-- The 32-bit word of a number. -/
def w32 (n : Nat) : W32 := BitVec.ofNat 32 n

/-- The high word of a 64-bit number. -/
def hi32 (n : Nat) : W32 := BitVec.ofNat 32 (n / 2 ^ 32)

/-- A bit as a number. -/
def b2n (b : Bool) : Nat := if b then 1 else 0

/-- A saturating increment. -/
def satInc {w : Nat} (v : BitVec w) : BitVec w := if v = BitVec.allOnes w then v else v + 1

/-- A saturating addition. -/
def satAdd {w : Nat} (v : BitVec w) (n : Nat) : BitVec w :=
  if v.toNat + n < 2 ^ w then BitVec.ofNat w (v.toNat + n) else BitVec.allOnes w

/-- A number saturated to `w` bits. -/
def satNat (w n : Nat) : BitVec w := if n < 2 ^ w then BitVec.ofNat w n else BitVec.allOnes w

/-- The `k` little-endian bytes of a number. -/
def leBytes : Nat → Nat → List W8
  | 0, _ => []
  | k + 1, n => BitVec.ofNat 8 n :: leBytes k (n / 256)

/-- The number of a little-endian byte string. -/
def ofLe : List W8 → Nat
  | [] => 0
  | b :: t => b.toNat + 256 * ofLe t

/-- The number of a big-endian byte string. -/
def ofBe (l : List W8) : Nat := ofLe l.reverse

/-- The bytes of a word, low byte first. -/
def wordBytes (w : W32) : List W8 := leBytes 4 w.toNat

/-- Words of a byte string, low byte first, the last padded with zeros; `n` words at most. -/
def bytesWords : Nat → List W8 → List W32
  | 0, _ => []
  | _, [] => []
  | n + 1, l => w32 (ofLe (l.take 4)) :: bytesWords n (l.drop 4)

/-- All words of a byte string. -/
def toWords (l : List W8) : List W32 := bytesWords l.length l

/-- The bytes at offset `o`, `n` of them, missing ones left out. -/
def slice (l : List W8) (o n : Nat) : List W8 := (l.drop o).take n

/-- Little-endian number of `n` bytes at offset `o`. -/
def leAt (l : List W8) (o n : Nat) : Nat := ofLe (slice l o n)

/-- One step of a left-shifting check code of width `w`. -/
def crcBit (w poly : Nat) (crc : Nat) (bit : Bool) : Nat :=
  let top := (crc / 2 ^ (w - 1)) % 2 == 1
  let s := (crc * 2) % 2 ^ w
  if top != bit then s ^^^ poly else s

/-- Eight steps, most significant bit first. -/
def crcByte (w poly : Nat) (crc : Nat) (b : W8) : Nat :=
  [7, 6, 5, 4, 3, 2, 1, 0].foldl (fun a i => crcBit w poly a (b.getLsbD i)) crc

/-- CRC-8 of the host port (R26): polynomial 0x07, initial value 0. -/
def crc8 (l : List W8) : W8 := BitVec.ofNat 8 (l.foldl (crcByte 8 0x07) 0)

/-- CRC-16 of the Crossing frames (15): polynomial 0x1021, initial value 0xFFFF. -/
def crc16 (l : List W8) : W16 := BitVec.ofNat 16 (l.foldl (crcByte 16 0x1021) 0xFFFF)

/-- CRC-32 of Eombelan frames (14): polynomial 0xF4ACFB13, seeded. -/
def crc32esc (seed : W32) (l : List W8) : W32 :=
  BitVec.ofNat 32 (l.foldl (crcByte 32 0xF4ACFB13) seed.toNat)

/-- A byte with its bits in the opposite order. -/
def rev8 (b : W8) : W8 :=
  BitVec.ofNat 8 ([0, 1, 2, 3, 4, 5, 6, 7].foldl (fun a i => 2 * a + b2n (b.getLsbD i)) 0)

/-- A number of 32 bits with its bits in the opposite order. -/
def rev32 (n : Nat) : Nat := (List.range 32).foldl (fun a i => 2 * a + (n >>> i) % 2) 0

/-- CRC-32C of R41: Castagnoli, reflected, initial value and final XOR all ones. -/
def crc32c (l : List W8) : W32 :=
  w32 (rev32 (l.foldl (fun a b => crcByte 32 0x1EDC6F41 a (rev8 b)) 0xFFFFFFFF) ^^^ 0xFFFFFFFF)

/-- Draws a fresh free value (a value the manual leaves open). -/
def Chip.draw (c : Chip) : W64 × Chip := (Config.free c.free, { c with free := c.free + 1 })

/-- Draws 128 fresh bits. -/
def Chip.draw128 (c : Chip) : BitVec 128 × Chip :=
  ((Config.free c.free) ++ (Config.free (c.free + 1)), { c with free := c.free + 2 })

/-- A byte memory: unlisted bytes read zero (log 105). -/
abbrev Mem := Tbl W8

/-- Reads one byte. -/
def Mem.rd (m : Mem) (a : Nat) : W8 := Tbl.get 0 m a

/-- Writes one byte, keeping the canonical form. -/
def Mem.wr (m : Mem) (a : Nat) (v : W8) : Mem := Tbl.put 0 m a v

/-- Reads `n` bytes from `a` on. -/
def Mem.rdN (m : Mem) (a : Nat) : Nat → List W8
  | 0 => []
  | n + 1 => Mem.rd m a :: Mem.rdN m (a + 1) n

/-- Writes bytes from `a` on. -/
def Mem.wrN (m : Mem) (a : Nat) : List W8 → Mem
  | [] => m
  | b :: t => Mem.wrN (Mem.wr m a b) (a + 1) t

/-- The canonical form of a memory. -/
abbrev Memory.wf (m : Mem) : Bool := Tbl.wf (0 : W8) m

/-- Reads a 64-bit word, low byte first. -/
def Mem.rd64 (m : Mem) (a : Nat) : W64 := BitVec.ofNat 64 (ofLe (Mem.rdN m a 8))

/-- Writes a 64-bit word, low byte first. -/
def Mem.wr64 (m : Mem) (a : Nat) (v : W64) : Mem := Mem.wrN m a (leBytes 8 v.toNat)

/-- Sign extension of a 16-bit field to an integer. -/
def sx16 (v : W16) : Int := v.toInt

/-- The bytes of an ASCII string. -/
def ascii (s : String) : List W8 := s.toList.map (fun ch => BitVec.ofNat 8 ch.toNat)

/-- Bytes of a text, zero-padded. -/
def asciiPad (n : Nat) (s : String) : List W8 :=
  (ascii s ++ List.replicate n 0).take n

/-- Updates the elements of a list for which `p` holds. -/
def mapIf {α : Type} (p : α → Bool) (f : α → α) (l : List α) : List α :=
  l.map (fun a => if p a then f a else a)

/-- Inserts an element behind its equals under `before`. -/
def insBy {α : Type} (before : α → α → Bool) (x : α) : List α → List α
  | [] => [x]
  | y :: t => if before x y then x :: y :: t else y :: insBy before x t

/-- Sorts a list, equals in their order. -/
def sortBy {α : Type} (before : α → α → Bool) (l : List α) : List α :=
  l.foldl (fun a x => insBy before x a) []

/-- All keys of a table with their values, as a list. -/
def Tbl.keys {α : Type} (t : Tbl α) : List Nat := t.map Prod.fst

/-- Updates every listed entry, keeping the canonical form. -/
def Tbl.mapV {α : Type} [DecidableEq α] (d : α) (f : α → α) (t : Tbl α) : Tbl α :=
  t.foldl (fun x p => Tbl.put d x p.1 (f p.2)) []

/-- Applies `f` to a chip for each element of a list, in order. -/
def each {α : Type} (l : List α) (f : α → Chip → Chip) (c : Chip) : Chip :=
  l.foldl (fun c a => f a c) c

/-- Applies `f` when the condition holds. -/
def Chip.when (b : Bool) (f : Chip → Chip) (c : Chip) : Chip := if b then f c else c

/-- Status codes (02, the table Status codes). -/
def stOK : W8 := 0x00
def stPENDING : W8 := 0x01
def stBUSY : W8 := 0x02
def stLOCKED : W8 := 0x03
def stDENIED : W8 := 0x04
def stAUTH : W8 := 0x05
def stRANGE : W8 := 0x06
def stLENGTH : W8 := 0x07
def stCRC : W8 := 0x08
def stSTALE : W8 := 0x09
def stABORTED : W8 := 0x0A
def stNORES : W8 := 0x0B
def stMODE : W8 := 0x0C
def stSEAL : W8 := 0x0D
def stCONDEMNED : W8 := 0x0E
def stUNKNOWN : W8 := 0x0F
def stVERSION : W8 := 0x10
def stTIMEOUT : W8 := 0x11
def stINTEGRITY : W8 := 0x12

/-- Roles (SYS_MASTER.ROLE). -/
def roleREADER : Nat := 1
def roleOPERATOR : Nat := 2
def roleADMIN : Nat := 3
def roleMETROLOGIST : Nat := 4
def roleVENDOR : Nat := 5

end Sys2Proof.Machine
end

