-- ==== Sys2Proof/Machine/Float.lean ====
section
/-! DEFINITION. IEEE 754 binary64 as R101 and R102 use it: exact values, one rounding to
nearest even, and the traps. Everything is computed over `Nat` and `Int`. -/

namespace Sys2Proof.Machine

open Sys2Proof

/-- The value of a binary64 pattern: NaN, infinity, or sign, significand and exponent of 2. -/
inductive F64 where
  | nan (signalling : Bool)
  | inf (neg : Bool)
  | fin (neg : Bool) (m : Nat) (e : Int)
  deriving DecidableEq, Repr

/-- The canonical quiet NaN (R101). -/
def qNaN : W64 := 0x7FF8000000000000

/-- The value of a bit pattern. -/
def F64.ofBits (x : W64) : F64 :=
  let s := x.getLsbD 63
  let ex := fld x 52 11
  let fr := fld x 0 52
  if ex = 2047 then (if fr = 0 then .inf s else .nan (!x.getLsbD 51))
  else if ex = 0 then .fin s fr (-1074)
  else .fin s (2 ^ 52 + fr) (ex - 1075)

/-- The pattern of sign, biased exponent and fraction. -/
def fpack (s : Bool) (ex fr : Nat) : W64 := BitVec.ofNat 64 (b2n s * 2 ^ 63 + ex * 2 ^ 52 + fr)

/-- Quotient of naturals rounded to nearest, ties to even. -/
def rneDiv (n d : Nat) : Nat :=
  let q := n / d
  let r := n % d
  if d < 2 * r ∨ (2 * r = d ∧ q % 2 = 1) then q + 1 else q

/-- `n / d * 2^e` over a common power: the fraction with an integral shift on one side. -/
def scaled (n d : Nat) (e : Int) : Nat × Nat :=
  if 0 ≤ e then (n * 2 ^ e.toNat, d) else (n, d * 2 ^ (-e).toNat)

/-- Rounds `± n / d * 2^e` to binary64, nearest even; none on overflow (R101). -/
def roundF (s : Bool) (n d : Nat) (e : Int) : Option W64 :=
  if n = 0 then some (fpack s 0 0) else
  let k0 : Int := (n.log2 : Int) - d.log2 + e
  let lt := let p := scaled n d (e - k0); decide (p.1 < p.2)
  let k := if lt then k0 - 1 else k0
  let E : Int := max (k - 52) (-1074)
  let p := scaled n d (e - E)
  let q := rneDiv p.1 p.2
  let q' := if 2 ^ 53 ≤ q then q / 2 else q
  let E' := if 2 ^ 53 ≤ q then E + 1 else E
  if q' < 2 ^ 52 then some (fpack s 0 q')
  else
    let ex := (E' + 1075).toNat
    if 2047 ≤ ex then none else some (fpack s ex (q' - 2 ^ 52))

/-- `n * 2^e` rounded to an integer, nearest even. -/
def rneInt (n : Int) (e : Int) : Int :=
  let p := scaled n.natAbs 1 e
  let q := rneDiv p.1 p.2
  if n < 0 then -(q : Int) else q

/-- Trap codes of R116. -/
def trDIVZERO : W8 := 0x10
def trDIVOVF : W8 := 0x11
def trINVALID : W8 := 0x12
def trFDIVZERO : W8 := 0x13
def trOVERFLOW : W8 := 0x14
def trWOVF : W8 := 0x15
def trWOPER : W8 := 0x16
def trCVT : W8 := 0x17
def trLOOP : W8 := 0x18
def trTAPIDX : W8 := 0x19
def trBINKEY : W8 := 0x1A
def trBINORDER : W8 := 0x1B

/-- The signed significand of a finite value. -/
def sgn (s : Bool) (m : Nat) : Int := if s then -(m : Int) else m

/-- An exact sum of two finite terms, rounded; the sign of a zero sum is `zs`. -/
def addExact (a : Int) (ea : Int) (b : Int) (eb : Int) (zs : Bool) : Except W8 W64 :=
  let e := min ea eb
  let t := a * 2 ^ (ea - e).toNat + b * 2 ^ (eb - e).toNat
  if t = 0 then .ok (fpack zs 0 0)
  else match roundF (decide (t < 0)) t.natAbs 1 e with
    | some r => .ok r
    | none => .error trOVERFLOW

/-- Infinity of a sign. -/
def infOf (s : Bool) : W64 := fpack s 2047 0

/-- A NaN among the operands: FP_INVALID if one signals, else the canonical NaN (R101). -/
def nanOf (l : List F64) : Option (Except W8 W64) :=
  if l.any (fun x => x == .nan true) then some (.error trINVALID)
  else if l.any (fun x => x == .nan false) then some (.ok qNaN)
  else none

/-- FADD (R101). -/
def fadd (x y : W64) : Except W8 W64 :=
  let a := F64.ofBits x
  let b := F64.ofBits y
  match nanOf [a, b] with
  | some r => r
  | none =>
    match a, b with
    | .inf s, .inf t => if s = t then .ok (infOf s) else .error trINVALID
    | .inf s, _ => .ok (infOf s)
    | _, .inf t => .ok (infOf t)
    | .fin s m e, .fin t n f => addExact (sgn s m) e (sgn t n) f (s && t)
    | _, _ => .ok qNaN

/-- The pattern with the opposite sign; a NaN stays as it is. -/
def fneg (x : W64) : W64 :=
  match F64.ofBits x with
  | .nan _ => x
  | _ => x ^^^ 0x8000000000000000

/-- FSUB (R101). -/
def fsub (x y : W64) : Except W8 W64 := fadd x (fneg y)

/-- Packs a rounded product or quotient. -/
def packF (s : Bool) (n d : Nat) (e : Int) : Except W8 W64 :=
  match roundF s n d e with
  | some r => .ok r
  | none => .error trOVERFLOW

/-- FMUL (R101). -/
def fmul (x y : W64) : Except W8 W64 :=
  let a := F64.ofBits x
  let b := F64.ofBits y
  match nanOf [a, b] with
  | some r => r
  | none =>
    match a, b with
    | .inf s, .inf t => .ok (infOf (s != t))
    | .inf s, .fin t n _ => if n = 0 then .error trINVALID else .ok (infOf (s != t))
    | .fin s m _, .inf t => if m = 0 then .error trINVALID else .ok (infOf (s != t))
    | .fin s m e, .fin t n f => packF (s != t) (m * n) 1 (e + f)
    | _, _ => .ok qNaN

/-- FDIV (R101): a finite non-zero value by zero traps with FP_DIVZERO. -/
def fdiv (x y : W64) : Except W8 W64 :=
  let a := F64.ofBits x
  let b := F64.ofBits y
  match nanOf [a, b] with
  | some r => r
  | none =>
    match a, b with
    | .inf _, .inf _ => .error trINVALID
    | .inf s, .fin t _ _ => .ok (infOf (s != t))
    | .fin s _ _, .inf t => .ok (fpack (s != t) 0 0)
    | .fin s m e, .fin t n f =>
      if n = 0 then (if m = 0 then .error trINVALID else .error trFDIVZERO)
      else packF (s != t) m n (e - f)
    | _, _ => .ok qNaN

/-- Integer square root, bit by bit from bit `i` down. -/
def isqrtGo (x : Nat) : Nat → Nat → Nat
  | 0, r => if (r + 1) * (r + 1) ≤ x then r + 1 else r
  | i + 1, r => isqrtGo x i (if (r + 2 ^ (i + 1)) * (r + 2 ^ (i + 1)) ≤ x then r + 2 ^ (i + 1) else r)

/-- Integer square root of a number below 2^256. -/
def isqrt (x : Nat) : Nat := isqrtGo x 127 0

/-- FSQRT (R101): of a negative value it is invalid; of -0 it is -0. -/
def fsqrt (x : W64) : Except W8 W64 :=
  match F64.ofBits x with
  | .nan true => .error trINVALID
  | .nan false => .ok qNaN
  | .inf s => if s then .error trINVALID else .ok (infOf false)
  | .fin s m e =>
    if m = 0 then .ok x
    else if s then .error trINVALID
    else
      let m' := if e % 2 = 0 then m else 2 * m
      let e' := if e % 2 = 0 then e else e - 1
      let n := m' * 2 ^ 128
      let r := isqrt n
      packF false (2 * r + b2n (r * r != n)) 1 ((e' - 128) / 2 - 1)

/-- FMA (R101): one rounding; 0 times infinity is invalid whatever the addend. -/
def fma (x y z : W64) : Except W8 W64 :=
  let a := F64.ofBits x
  let b := F64.ofBits y
  let d := F64.ofBits z
  if [a, b, d].any (fun v => v == .nan true) then .error trINVALID else
  match a, b with
  | .inf _, .fin _ 0 _ => .error trINVALID
  | .fin _ 0 _, .inf _ => .error trINVALID
  | _, _ =>
    match nanOf [a, b, d] with
    | some r => r
    | none =>
      let ps : Option Bool := match a, b with
        | .inf s, .inf t => some (s != t)
        | .inf s, .fin t _ _ => some (s != t)
        | .fin s _ _, .inf t => some (s != t)
        | _, _ => none
      match ps, d with
      | some s, .inf t => if s = t then .ok (infOf s) else .error trINVALID
      | some s, _ => .ok (infOf s)
      | none, .inf t => .ok (infOf t)
      | none, .fin u k g =>
        match a, b with
        | .fin s m e, .fin t n f => addExact (sgn (s != t) (m * n)) (e + f) (sgn u k) g ((s != t) && u)
        | _, _ => .ok qNaN
      | none, _ => .ok qNaN

/-- A finite value `± m * 2^e` rounded to an integer as FCVT.I's fn selects (R102). -/
def roundInt (rm : Rounding) (s : Bool) (m : Nat) (e : Int) : Int :=
  let p := scaled m 1 e
  let q := p.1 / p.2
  let exact := p.1 % p.2 == 0
  match rm with
  | .rne => sgn s (rneDiv p.1 p.2)
  | .rz => sgn s q
  | .rdn => if s && !exact then -(q : Int) - 1 else sgn s q
  | .rup => if !s && !exact then (q : Int) + 1 else sgn s q

/-- FCVT.I (R102). -/
def fcvtI (rm : Rounding) (x : W64) : Except W8 W64 :=
  match F64.ofBits x with
  | .nan true => .error trINVALID
  | .nan false => .error trCVT
  | .inf _ => .error trCVT
  | .fin s m e =>
    let n := roundInt rm s m e
    if -(2 ^ 63 : Int) ≤ n ∧ n < 2 ^ 63 then .ok (BitVec.ofInt 64 n) else .error trCVT

/-- Binary64 nearest to `n * 2^e`; used where the magnitude cannot overflow. -/
def f64OfInt (n : Int) (e : Int) : W64 := (roundF (decide (n < 0)) n.natAbs 1 e).getD qNaN

/-- Binary64 nearest to the quotient of an integer and a positive number. -/
def f64OfRat (n : Int) (d : Nat) : W64 := (roundF (decide (n < 0)) n.natAbs d 0).getD qNaN

/-- Compares two finite or infinite values: -1, 0 or 1. -/
def fcmp3 (a b : F64) : Int :=
  let key : F64 → Int × Int := fun v => match v with
    | .inf s => (if s then -1 else 1, 0)
    | _ => (0, 0)
  match a, b with
  | .fin s m e, .fin t n f =>
    let g := min e f
    let u := sgn s m * 2 ^ (e - g).toNat
    let v := sgn t n * 2 ^ (f - g).toNat
    if u < v then -1 else if u = v then 0 else 1
  | _, _ =>
    let u := (key a).1
    let v := (key b).1
    if u < v then -1 else if u = v then 0 else 1

/-- FCMP (R102): 1 or 0; a quiet NaN never traps. -/
def fcmp (cnd : FCond) (x y : W64) : Except W8 W64 :=
  let a := F64.ofBits x
  let b := F64.ofBits y
  let sig := [a, b].any (fun v => v == .nan true)
  let qn := [a, b].any (fun v => v == .nan false)
  if sig then .error trINVALID
  else
    let r := fcmp3 a b
    .ok (BitVec.ofNat 64 (b2n (match cnd with
      | .un => qn
      | .eq => !qn && r == 0
      | .lt => !qn && r == -1
      | .le => !qn && decide (r ≤ 0))))

/-- A Q64.64 value in range (R93). -/
def accOk (n : Int) : Bool := decide (-(2 ^ 127 : Int) ≤ n) && decide (n < 2 ^ 127)

/-- The exact product of two binary64 values rounded once to Q64.64, ties to even; none for a
NaN or infinite source (R107). -/
def mulAcc (x y : W64) : Option Int :=
  match F64.ofBits x, F64.ofBits y with
  | .fin s m e, .fin t n f => some (rneInt (sgn (s != t) (m * n)) (e + f + 64))
  | _, _ => none

/-- A binary64 value rounded to Q64.64, ties to even; none for NaN or infinity (R107). -/
def fAcc (x : W64) : Option Int :=
  match F64.ofBits x with
  | .fin s m e => some (rneInt (sgn s m) (e + 64))
  | _ => none

/-- Binary64 of a binary32 pattern (exact). -/
def f64OfF32 (x : W32) : W64 :=
  let s := x.getLsbD 31
  let ex := fld x 23 8
  let fr := fld x 0 23
  if ex = 255 then (if fr = 0 then infOf s else qNaN)
  else if ex = 0 then (roundF s fr 1 (-149)).getD qNaN
  else (roundF s (2 ^ 23 + fr) 1 ((ex : Int) - 150)).getD qNaN

/-- The value of a finite binary64 pattern as an integer in units of 2^-1074; 0 for NaN and infinity. -/
def fFix (x : W64) : Int :=
  match F64.ofBits x with
  | .fin s m e => sgn s m * 2 ^ (e + 1074).toNat
  | _ => 0

/-- A finite pattern. -/
def fFinite (x : W64) : Bool :=
  match F64.ofBits x with
  | .fin _ _ _ => true
  | _ => false

end Sys2Proof.Machine
end

