-- ==== Sys2Proof/Machine/Bolgil.lean ====
section
/-! DEFINITION. Bolgil, the part that needs no more than a thread: registers (R93), the program
counter, the link stack and loops (R98, R99), integer and floating-point instructions (R100 to
R102), accumulators (R107), and the legality of instruction words (R94). A trap is the code of
R116; a trapping instruction has no effect on the thread. -/

namespace Sys2Proof.Machine

open Sys2Proof

/-- Trap codes of QE_TRAP.CODE (04). -/
def trTRAP : W8 := 0x01
def trNOGATE : W8 := 0x02
def trILLEGAL : W8 := 0x03
def trADDR : W8 := 0x04
def trUNDO : W8 := 0x05

/-- Reads x[r]; x0 reads 0 (R93). -/
def Thread.rx (t : Thread) (r : Reg) : W64 := if r = 0 then 0 else Tbl.get 0 t.x r.val

/-- Writes x[r]; a write to x0 is discarded (R93). -/
def Thread.wx (r : Reg) (v : W64) (t : Thread) : Thread :=
  if r = 0 then t else { t with x := Tbl.put 0 t.x r.val v }

/-- Reads accumulator w[r]. -/
def Thread.rw (t : Thread) (r : WReg) : W128 := Tbl.get 0 t.w r.val

/-- Writes accumulator w[r]. -/
def Thread.ww (r : WReg) (v : W128) (t : Thread) : Thread := { t with w := Tbl.put 0 t.w r.val v }

/-- Instruction words a PC can name: 2^14 in the Q-profile, 2^15 in the S-profile (R93). -/
def pcMod (bay : Bool) : Nat := if bay then 32768 else 16384

/-- Completion of the instruction at `pc` against the loops, innermost first (R99): the next PC and the
loops left. A loop whose last instruction it is repeats, or has made its last pass and ends. -/
def loopEnd (pc : Nat) : List LoopRec → Nat × List LoopRec
  | [] => (pc + 1, [])
  | l :: t =>
    if l.last = pc then
      if 1 < l.left then (l.first, { l with left := l.left - 1, call := false } :: t) else loopEnd pc t
    else
      let r := loopEnd pc t
      (r.1, l :: r.2)

/-- The instruction at the PC completes and the thread goes on behind it (R99). -/
def Thread.advance (bay : Bool) (t : Thread) : Thread :=
  let r := loopEnd t.pc t.loops
  { t with pc := r.1 % pcMod bay, loops := r.2 }

/-- Loops that a taken branch from `pc` to `target` leaves (R99): a branch inside a body whose
target lies beyond its end ends that loop and every loop nested in it. -/
def leaveLoops (pc target : Nat) (ls : List LoopRec) : List LoopRec :=
  let left := fun (l : LoopRec) => decide (l.first ≤ pc) && decide (pc ≤ l.last) && decide (l.last < target)
  (ls.reverse.takeWhile (fun l => !left l)).reverse

/-- A taken branch. DESIGN CHOICE: one that is the last instruction of a body goes to its target and counts no pass
(log 181). -/
def Thread.jump (bay : Bool) (target : Nat) (t : Thread) : Thread :=
  { t with loops := leaveLoops t.pc target t.loops, pc := target % pcMod bay }

/-- A target `off` words from the PC. -/
def Thread.target (t : Thread) (bay : Bool) (off : Int) : Nat :=
  (((t.pc : Int) + off) % (pcMod bay : Nat)).toNat

/-- BEQ, BNE, BLT, BGE (R98): in the Q-profile an offset of 0 or below is illegal. -/
def Thread.branch (bay : Bool) (cnd : Bool) (off : W16) (t : Thread) : Except W8 Thread :=
  if !bay && decide (off.toInt ≤ 0) then .error trILLEGAL
  else if cnd then .ok (t.jump bay (t.target bay off.toInt)) else .ok (t.advance bay)

/-- JAL (R98): writes the return address to x31 and, in the Q-profile, pushes it on the link stack; in
the S-profile that stack only predicts returns. As the last instruction of a body it waits for its
matching JR to complete (R99). -/
def Thread.jal (bay : Bool) (off : BitVec 26) (t : Thread) : Except W8 Thread :=
  if !bay && (decide (off.toInt ≤ 0) || decide (8 ≤ t.link.length)) then .error trILLEGAL
  else
    let ret := (t.pc + 1) % pcMod bay
    let t' := t.wx 31 (BitVec.ofNat 64 ret)
    .ok { t' with link := if bay then t.link else ret :: t.link,
                  loops := mapIf (fun l => l.last == t.pc) (fun l => { l with call := true }) t.loops,
                  pc := t.target bay off.toInt }

/-- A return to `r` (R99): where it matches a JAL that is the last instruction of a body, that JAL
completes, else the thread goes on at `r`. -/
def Thread.returnTo (bay : Bool) (r : Nat) (link : List Nat) (t : Thread) : Thread :=
  match t.loops.find? (fun l => l.call && (l.last + 1) % pcMod bay == r) with
  | some l =>
    let e := loopEnd l.last t.loops
    { t with link := link, pc := e.1 % pcMod bay, loops := e.2 }
  | none => { t with link := link, pc := r }

/-- JR (R98): in the Q-profile the popped entry must be the register's value. -/
def Thread.jr (bay : Bool) (rs1 : Reg) (t : Thread) : Except W8 Thread :=
  let v := (t.rx rs1).toNat
  if bay then .ok (t.returnTo bay (v % pcMod bay) t.link)
  else
    match t.link with
    | [] => .error trILLEGAL
    | r :: l => if r = v then .ok (t.returnTo bay r l) else .error trILLEGAL

/-- The innermost loop whose body holds the PC. -/
def Thread.enclosing (t : Thread) : Option LoopRec :=
  t.loops.find? (fun l => decide (l.first ≤ t.pc) && decide (t.pc ≤ l.last))

/-- LOOP (R99). -/
def Thread.loopI (bay : Bool) (rs1 : Reg) (k : BitVec 4) (n : BitVec 12) (t : Thread) :
    Except W8 Thread :=
  let cnt := (t.rx rs1).toNat
  let last := t.pc + n.toNat
  if n = 0 ∨ 4 ≤ t.loops.length then .error trILLEGAL
  else if (t.enclosing.map (fun l => decide (l.last < last))).getD false then .error trILLEGAL
  else if 2 ^ k.toNat < cnt then .error trLOOP
  else if cnt = 0 then
    let e := loopEnd last t.loops
    .ok { t with pc := e.1 % pcMod bay, loops := e.2 }
  else
    .ok { t with pc := (t.pc + 1) % pcMod bay,
                 loops := { first := t.pc + 1, last := last, left := cnt } :: t.loops }

/-- Writes a result to rd and goes on. -/
def Thread.put (bay : Bool) (rd : Reg) (v : W64) (t : Thread) : Thread := (t.wx rd v).advance bay

/-- Writes a result or traps. -/
def Thread.putE (bay : Bool) (rd : Reg) (v : Except W8 W64) (t : Thread) : Except W8 Thread :=
  match v with
  | .ok x => .ok (t.put bay rd x)
  | .error e => .error e

/-- An integer instruction over two registers (R100). -/
def Thread.alu (f : W64 → W64 → Except W8 W64) (bay : Bool) (rd rs1 rs2 : Reg) (t : Thread) :
    Except W8 Thread :=
  t.putE bay rd (f (t.rx rs1) (t.rx rs2))

/-- High half of the signed product (R100). -/
def mulhOp (a b : W64) : W64 := BitVec.ofInt 64 (a.toInt * b.toInt / 2 ^ 64)

/-- DIV (R100, R116). -/
def divOp (a b : W64) : Except W8 W64 :=
  if b = 0 then .error trDIVZERO
  else if a = BitVec.intMin 64 ∧ b = BitVec.allOnes 64 then .error trDIVOVF
  else .ok (BitVec.ofInt 64 (a.toInt.tdiv b.toInt))

/-- REM (R100, R116): the sign of the dividend. -/
def remOp (a b : W64) : Except W8 W64 :=
  if b = 0 then .error trDIVZERO
  else if a = BitVec.intMin 64 ∧ b = BitVec.allOnes 64 then .error trDIVOVF
  else .ok (BitVec.ofInt 64 (a.toInt.tmod b.toInt))

/-- A truth value in a register. -/
def b2x (b : Bool) : W64 := BitVec.ofNat 64 (b2n b)

/-- The shift amount (x[rs2] + fn) mod 64 (R100). -/
def shAmt (b : W64) (fn : BitVec 6) : Nat := (b.toNat + fn.toNat) % 64

/-- Sign-extended immediate. -/
def sext16 (i : W16) : W64 := i.signExtend 64

/-- Zero-extended immediate. -/
def zext16 (i : W16) : W64 := i.zeroExtend 64

/-- LUI (R100): imm16 times 2^16 with bit 31 extended. -/
def luiOp (i : W16) : W64 := (i ++ (0 : W16) : W32).signExtend 64

/-- Adds to an accumulator; outside Q64.64 is W_OVERFLOW (R107). -/
def accAdd (a : W128) (d : Int) : Except W8 W128 :=
  let r := a.toInt + d
  if accOk r then .ok (BitVec.ofInt 128 r) else .error trWOVF

/-- MACW (R107). -/
def Thread.macw (wa : WReg) (rs1 rs2 : Reg) (neg : Bool) (t : Thread) : Except W8 Thread :=
  match mulAcc (t.rx rs1) (t.rx rs2) with
  | none => .error trWOPER
  | some p =>
    match accAdd (t.rw wa) (if neg then -p else p) with
    | .ok v => .ok ((t.ww wa v).advance false)
    | .error e => .error e

/-- ADDW (R107): source 0 wb, 1 binary64, 2 integer, 3 minus wb. The source field that it does not use
must be zero (R94). -/
def Thread.addw (wa wb : WReg) (rs1 : Reg) (sel : BitVec 2) (t : Thread) : Except W8 Thread :=
  if (if sel = 0 ∨ sel = 3 then rs1.val else wb.val) ≠ 0 then .error trILLEGAL else
  let src : Option Int :=
    if sel = 0 then some (t.rw wb).toInt
    else if sel = 1 then fAcc (t.rx rs1)
    else if sel = 2 then some ((t.rx rs1).toInt * 2 ^ 64)
    else some (-(t.rw wb).toInt)
  match src with
  | none => .error trWOPER
  | some d =>
    match accAdd (t.rw wa) d with
    | .ok v => .ok ((t.ww wa v).advance false)
    | .error e => .error e

/-- CLRW (R107). -/
def Thread.clrw (wa : WReg) (t : Thread) : Thread := (t.ww wa 0).advance false

/-- FCVT.F from accumulator (R102). -/
def accToF (a : W128) : W64 := f64OfInt a.toInt (-64)

/-- Binary64 a is at most b. -/
def fLe (a b : W64) : Bool := decide (fcmp3 (F64.ofBits a) (F64.ofBits b) ≤ 0)

/-- Binary64 a lies below b. -/
def fLt (a b : W64) : Bool := fcmp3 (F64.ofBits a) (F64.ofBits b) == -1

/-- Bounds of the table IF97 ranges and of R147 in binary64. -/
def kT0 : W64 := 0x4071126666666666      -- 273.15 K
def kT13 : W64 := 0x4083793333333333     -- 623.15 K
def kT23 : W64 := 0x408AF93333333333     -- 863.15 K
def kTmax : W64 := 0x4090C4999999999A    -- 1,073.15 K
def kTc : W64 := 0x408438C49BA5E354      -- 647.096 K
def kPmax : W64 := 0x4059000000000000    -- 100 MPa
def kPt : W64 := 0x3F440739EC462006      -- 0.000611213 MPa
def kPc : W64 := 0x403610624DD2F1AA      -- 22.064 MPa
def kOne : W64 := 0x3FF0000000000000

/-- A pressure on the saturation line (the table IF97 ranges, PX). -/
def satP (p : W64) : Bool := fLe kPt p && fLe p kPc

/-- A temperature on the saturation line (the table IF97 ranges, TX). -/
def satT (t : W64) : Bool := fLe kT0 t && fLe t kTc

/-- The region of a PT point, 0 outside all (R112, R145): a point with T ≥ Ts(p) is taken on the
vapour side. -/
def if97Region (p t : W64) : Nat :=
  if !(fLt 0 p && fLe p kPmax && fLe kT0 t && fLe t kTmax) then 0
  else if fLe t kT13 then
    if fLt p kPt || (fLe p kPc && fLe (Config.if97Ts p) t) then 2 else 1
  else if fLe t kT23 then
    if fLe p (Config.if97Pb23 t) then 2 else if fLe t (Config.if97Tb23 p) then 3 else 0
  else 2

/-- The part of region 3 in which the Newton steps may not converge (R146). -/
def nearCritical (p t : W64) : Bool :=
  fLe 0x4036000000000000 p && fLe p 0x4036800000000000 && fLe 0x4084300000000000 t
    && fLe t 0x4084400000000000

/-- A property of a PT point (R112, R113, R146). -/
def if97Pt (prop : Nat) (p t : W64) : W64 :=
  let r := if97Region p t
  if r = 0 then qNaN
  else if r = 3 && nearCritical p t && !Config.if97Conv p t then qNaN
  else Config.if97Pt prop r p t

/-- The dryness-weighted mean of a saturated liquid and vapour value, rounded once; of a density the
mean is that of 1/ρ (R146). -/
def drynessMean (prop : Nat) (x liq vap : W64) : W64 :=
  let one : Int := 2 ^ 1074
  let w := fFix x
  let l := fFix liq
  let v := fFix vap
  if prop = 1 then f64OfRat (l * v) ((one - w) * v + w * l).toNat
  else f64OfInt ((one - w) * l + w * v) (-2148)

/-- A property at a saturation temperature and a dryness; a heat capacity strictly between liquid and
vapour is the NaN (R112). -/
def if97Wet (prop : Nat) (t x : W64) : W64 :=
  if !(fLe 0 x && fLe x kOne) then qNaN
  else if fLe x 0 then Config.if97Sat prop false t
  else if fLe kOne x then Config.if97Sat prop true t
  else if prop = 3 then qNaN
  else drynessMean prop x (Config.if97Sat prop false t) (Config.if97Sat prop true t)

/-- IF97H, IF97D, IF97S, IF97C (R112, R113): a signalling NaN traps, a NaN gives a NaN, an
unassigned input pair is illegal, a point outside the ranges of R145 is the quiet NaN. -/
def if97Op (prop : Nat) (pair : BitVec 5) (a b : W64) : Except W8 W64 :=
  if 3 ≤ pair.toNat then .error trILLEGAL
  else match nanOf [F64.ofBits a, F64.ofBits b] with
  | some r => r
  | none =>
    .ok (if pair = 0 then if97Pt prop a b
         else if pair = 1 then (if satP a then if97Wet prop (Config.if97Ts a) b else qNaN)
         else if satT a then if97Wet prop a b else qNaN)

/-- IF97X (R112, R113): selector 0 region of a PT point, 3 Ts, 4 ps; 3 and 4 use no rs2, so its field
must be zero (R94). -/
def if97xOp (sel rs2 : BitVec 5) (a b : W64) : Except W8 W64 :=
  if (sel ≠ 0 ∧ sel ≠ 3 ∧ sel ≠ 4) ∨ (sel ≠ 0 ∧ rs2 ≠ 0) then .error trILLEGAL
  else match nanOf (if sel = 0 then [F64.ofBits a, F64.ofBits b] else [F64.ofBits a]) with
  | some r => r
  | none =>
    .ok (if sel = 0 then BitVec.ofNat 64 (if97Region a b)
         else if sel = 3 then (if satP a then Config.if97Ts a else qNaN)
         else if satT a then Config.if97Ps a else qNaN)

/-- The validity range of the air-property unit (R147): dry air has no vapour pressure. -/
def airRange (p t h : W64) : Bool :=
  fLe 0x3F847AE147AE147B p && fLe p 0x4010000000000000 && fLe 0x406AA4CCCCCCCCCD t
    && fLe t 0x4077526666666666 && fLe 0 h && fLe h kOne && (fLe h 0 || fLt (Config.airPv p t h) p)

/-- AIRZ and AIRD (R112, R113, R147). -/
def airOp (prop : Nat) (a b h : W64) : Except W8 W64 :=
  match nanOf [F64.ofBits a, F64.ofBits b, F64.ofBits h] with
  | some r => r
  | none => .ok (if airRange a b h then Config.air prop a b h else qNaN)

/-- The legal words of a profile (R94): those that spell an instruction; `bay` is the S-profile. -/
def legalWord (bay : Bool) (w : W32) : Bool := (decodeWord (if bay then .bay else .head 0) w).isSome

end Sys2Proof.Machine
end

