-- ==== Sys2Proof/Machine/CfgMap.lean ====
section
/-! DEFINITION. The CMT registers (R37): where they lie, the group of each, its implemented
bits and its value as shipped, and the readers of the live configuration that every other file
uses. -/

namespace Sys2Proof.Machine

open Sys2Proof

/-- A family of CMT registers: `n1` by `n2` words at `base + s1 * i + s2 * j`. -/
structure CmtFam where
  base : Nat
  n1 : Nat := 1
  s1 : Nat := 4
  n2 : Nat := 1
  s2 : Nat := 4
  group : Nat
  mask : W32
  ship : W32 := 0
  deriving DecidableEq, Repr

/-- CG0 and CG1: SYS and TAP. -/
def cmtA : List CmtFam := [
  { base := 0x40, group := 0, mask := 0x0003FFFF },
  { base := 0x110, group := 0, mask := 0x8000001F, ship := 0x80000003 },
  { base := 0x40000, n1 := 8, group := 1, mask := 0x0000FF03, ship := 0x1900 },
  { base := 0x40020, group := 1, mask := 0x80000FFF, ship := 0x8000003C },
  { base := 0x40100, n1 := 128, group := 1, mask := 0x00FF1F3F, ship := 0x00320000 },
  { base := 0x41000, n1 := 128, s1 := 0x20, group := 1, mask := 0xFFFFFFFF, ship := 0x40000000 },
  { base := 0x41004, n1 := 128, s1 := 0x20, group := 1, mask := 0xFFFFFFFF },
  { base := 0x41008, n1 := 128, s1 := 0x20, group := 1, mask := 0xFFFFFFFF, ship := 0x40000000 },
  { base := 0x4100C, n1 := 128, s1 := 0x20, group := 1, mask := 0xFFFFFFFF },
  { base := 0x41010, n1 := 128, s1 := 0x20, group := 1, mask := 0x0000FFFF } ]

/-- CG2 and CG3: QE. -/
def cmtB : List CmtFam := [
  { base := 0x50000, n1 := 8, group := 2, mask := 0xC0FF0003, ship := 0x00000001 },
  { base := 0x52000, n1 := 64, s1 := 0x100, group := 3, mask := 0xF00000FF },
  { base := 0x52004, n1 := 64, s1 := 0x100, n2 := 3, group := 3, mask := 0xFFFFFFFF },
  { base := 0x52010, n1 := 64, s1 := 0x100, n2 := 28, group := 3, mask := 0xFFFFFFFF },
  { base := 0x52080, n1 := 64, s1 := 0x100, n2 := 8, group := 3, mask := 0xC0FF00FF },
  { base := 0x520A0, n1 := 64, s1 := 0x100, n2 := 8, group := 3, mask := 0xFFFFFFFF },
  { base := 0x520C0, n1 := 64, s1 := 0x100, n2 := 8, s2 := 8, group := 3, mask := 0xF0FFFFBF },
  { base := 0x520C4, n1 := 64, s1 := 0x100, n2 := 8, s2 := 8, group := 3, mask := 0xFFFFFFFF },
  { base := 0x56000, n1 := 64, s1 := 8, group := 3, mask := 0xFFFFFFFF },
  { base := 0x56004, n1 := 64, s1 := 8, group := 3, mask := 0x8FFFFFFF },
  { base := 0x56200, n1 := 2, group := 3, mask := 0x80000037 } ]

/-- CG4 to CG6: BILL, DRV, BAY. -/
def cmtC : List CmtFam := [
  { base := 0x60000, group := 4, mask := 0xC0000F3F, ship := 0x0000000F },
  { base := 0x60004, group := 4, mask := 0xB01F1F3F },
  { base := 0x60008, group := 4, mask := 0x800003FF },
  { base := 0x60100, n1 := 128, group := 4, mask := 0x9F9F9F9F },
  { base := 0x60400, n1 := 256, group := 4, mask := 0x800FFFFF },
  { base := 0xD0000, group := 5, mask := 0xE0000000, ship := 0xA0000000 },
  { base := 0xD0010, group := 5, mask := 0x000003FF, ship := 0x000000FA },
  { base := 0xD0040, n1 := 5, group := 5, mask := 0xFFFFFFFF },
  { base := 0xD0100, n1 := 48, group := 5, mask := 0xFFF03F00, ship := 0x03300A00 },
  { base := 0xC0000, group := 6, mask := 0xFC3F0003 },
  { base := 0xC0004, group := 6, mask := 0xFFFFFFFF },
  { base := 0xC0008, group := 6, mask := 0x0000FFFF },
  { base := 0xC000C, group := 6, mask := 0x80007FFF },
  { base := 0xC0020, n1 := 2, group := 6, mask := 0xC00000FF } ]

/-- CG7 to CG11: LINK, NET, DISP, TIME, PAIR. -/
def cmtD : List CmtFam := [
  { base := 0xF0000, group := 7, mask := 0xFF0FF3FF, ship := 0x030020C8 },
  { base := 0xF0004, group := 7, mask := 0x3F3F3F3F },
  { base := 0x128000, n1 := 16, s1 := 0x10, group := 8, mask := 0xF80003FF },
  { base := 0x128004, n1 := 16, s1 := 0x10, group := 8, mask := 0xFFFFFFFF },
  { base := 0x128008, n1 := 16, s1 := 0x10, group := 8, mask := 0xFFFFFFFF },
  { base := 0x12800C, n1 := 16, s1 := 0x10, group := 8, mask := 0x000000FF },
  { base := 0x128100, group := 8, mask := 0x0000003F },
  { base := 0x128120, n1 := 8, group := 8, mask := 0xFFFFFFFF },
  { base := 0xB0000, group := 9, mask := 0x8000FF1F, ship := 0x80008005 },
  { base := 0xB0100, n1 := 64, s1 := 8, group := 9, mask := 0xFFFFFFFF },
  { base := 0xB0104, n1 := 64, s1 := 8, group := 9, mask := 0x0000003F },
  { base := 0x80000, group := 10, mask := 0xF0FF01FF, ship := 0x000001F4 },
  { base := 0x80004, group := 10, mask := 0x8000FF07 },
  { base := 0x80008, n1 := 2, group := 10, mask := 0x0F07071F },
  { base := 0x130000, group := 11, mask := 0xF000007F, ship := 0x0000000A },
  { base := 0x130004, group := 11, mask := 0xFFFFFFFF } ]

/-- All CMT register families. -/
def cmtFams : List CmtFam := cmtA ++ cmtB ++ cmtC ++ cmtD

/-- Whether a family holds an address. -/
def CmtFam.has (f : CmtFam) (a : Nat) : Bool :=
  decide (f.base ≤ a) &&
  (let o := a - f.base
   let i := o / f.s1
   let r := o % f.s1
   if f.n2 = 1 then decide (r = 0) && decide (i < f.n1)
   else decide (i < f.n1) && decide (r % f.s2 = 0) && decide (r / f.s2 < f.n2))

/-- The family of an address. -/
def cmtFind (a : Nat) : Option CmtFam := cmtFams.find? (fun f => f.has a)

/-- The addresses of a family. -/
def CmtFam.addrs (f : CmtFam) : List Nat :=
  (List.range f.n1).flatMap (fun i => (List.range f.n2).map (fun j => f.base + f.s1 * i + f.s2 * j))

/-- The addresses of a group, in ascending order (R41). -/
def groupAddrs (g : Nat) : List Nat :=
  sortBy (fun a b => decide (a < b))
    ((cmtFams.filter (fun f => f.group == g)).flatMap CmtFam.addrs)

/-- The value as shipped. -/
def shipped (a : Nat) : W32 := ((cmtFind a).map CmtFam.ship).getD 0

/-- A legal group (02, Configuration groups). -/
def legalGroup (g : Nat) : Bool := g == 1 || g == 2 || g == 3

/-- A CMT word of a table of words that differ from their shipped value. -/
def wordOf (t : Tbl W32) (a : Nat) : W32 := Tbl.get (shipped a) t a

/-- Writes a CMT word into such a table. -/
def putWord (t : Tbl W32) (a : Nat) (v : W32) : Tbl W32 := Tbl.put (shipped a) t a v

/-- A live CMT word (R37). -/
def Chip.live (c : Chip) (a : Nat) : W32 := wordOf c.cfg.live a

/-- A shadow CMT word: the word written since the last commit or discard, else the live one. -/
def Chip.shadow (c : Chip) (a : Nat) : W32 :=
  match c.cfg.shadow.find? (fun p => p.1 == a) with
  | some p => p.2
  | none => c.live a

/-- CRC-32C of a group's words under a reader (R41). -/
def groupCrcOf (rd : Nat → W32) (extra : List W32) (g : Nat) : W32 :=
  crc32c (((groupAddrs g).map rd ++ extra).flatMap wordBytes)

/-- A word of a tariff set as shipped (R166): one season from 1 January on week profile 0, day
profile 0 with one switch point at 00:00 to tariff 1, every price 0. -/
def shippedTar (o : Nat) : W32 :=
  if o = 0x10 then 0x80000101 else if o = 0x100 then 0x80010000 else 0

/-- A word of a tariff set kept as words that differ from the shipped set. -/
def tarWord (t : Tbl W32) (o : Nat) : W32 := Tbl.get (shippedTar o) t o

/-- Writes a word of a tariff set. -/
def tarPut (t : Tbl W32) (o : Nat) (v : W32) : Tbl W32 := Tbl.put (shippedTar o) t o v

/-- All words of a tariff set, 0x0000-0x2FFF (R41). -/
def tariffWords (t : Tbl W32) : List W32 := (List.range 0xC00).map (fun i => tarWord t (4 * i))

/-- The CRC-32C of the live configuration of a group; CG4 also covers the active tariff set. -/
def Chip.groupCrc (c : Chip) (g : Nat) : W32 :=
  groupCrcOf c.live (if g = 4 then tariffWords c.tariff.act else []) g

/-- Rewrites the reference of a group (CFG_REF, R41). -/
def Chip.newRef (g : Nat) (c : Chip) : Chip :=
  c.modCfg (fun x => { x with ref := Tbl.put 0 x.ref g (c.groupCrc g) })

/-- A live field. -/
def Chip.cf (c : Chip) (a lo len : Nat) : Nat := fld (c.live a) lo len

/-- A live bit. -/
def Chip.cb (c : Chip) (a i : Nat) : Bool := (c.live a).getLsbD i

/-- POST_NO (R21). -/
def Chip.postNo (c : Chip) : Nat := c.cf 0x40 0 18

/-- QE_GATE_CFG[k] address. -/
def aGate (k : Nat) : Nat := 0x50000 + 4 * k

/-- Base of the meter-point registers. -/
def aMp (m : Nat) : Nat := 0x52000 + 0x100 * m

/-- TAP_MODE[n] address. -/
def aTapMode (n : Nat) : Nat := 0x40100 + 4 * n

/-- Base of the calibration registers of tap n. -/
def aCal (n : Nat) : Nat := 0x41000 + 0x20 * n

/-- DRV_DCFG[n] address. -/
def aDcfg (n : Nat) : Nat := 0xD0100 + 4 * n

/-- Grid instants per sample D of group k in the live configuration: 8, 4, 2 or 1 (R54). -/
def Chip.gridD (c : Chip) (k : Nat) : Nat := 8 / 2 ^ (c.cf (0x40000 + 4 * k) 0 2)

/-- The legal commits that do not hold yet at `six`, latest first. -/
def Chip.laterPend (c : Chip) (six : Nat) : List PendCommit :=
  let l := c.cfg.pend.filter (fun p => decide (six < p.stamp.getD (six + 1)))
  sortBy (fun a b => match a.stamp, b.stamp with
    | none, some _ => true
    | some s, some t => decide (t < s)
    | _, _ => false) l

/-- The legal commits that hold at `six` although LEGAL_CHANGE_APPLY has not put them into force: earliest
first. -/
def Chip.soonPend (c : Chip) (six : Nat) : List PendCommit :=
  sortBy (fun a b => decide (a.stamp.getD 0 < b.stamp.getD 0))
    (c.cfg.pend.filter (fun p => !p.applied && decide (p.stamp.getD (six + 1) ≤ six)))

/-- The block under the configuration that holds at an instant (R40 step 5, R97): legal commits count
from their stamps on, whenever the words themselves become live. -/
def Chip.viewAt (c : Chip) (six : Nat) : Chip :=
  let put := fun (t ws : Tbl W32) => ws.foldl (fun t w => putWord t w.1 w.2) t
  let live := ((c.laterPend six).map PendCommit.old ++ (c.soonPend six).map PendCommit.words).foldl put c.cfg.live
  { c with cfg := { c.cfg with live := live } }

/-- RATE of group k at an instant (R55, R106). -/
def Chip.rateAt (c : Chip) (k six : Nat) : Nat :=
  let a := 0x40000 + 4 * k
  match (c.soonPend six).reverse.filterMap (fun p => p.words.find? (fun w => w.1 == a)) with
  | w :: _ => fld w.2 0 2
  | [] =>
    match (c.group k).rates.find? (fun r => decide (r.1 ≤ six)) with
    | some r => r.2.toNat
    | none => (c.viewAt six).cf a 0 2

/-- D of group k at an instant (R54, R55). -/
def Chip.gridDAt (c : Chip) (k six : Nat) : Nat := 8 / 2 ^ c.rateAt k six

/-- Whether meter point m is defined. -/
def Chip.mpEn (c : Chip) (m : Nat) : Bool := c.cb (aMp m) 31

/-- Role byte r of meter point m: (used, tap). -/
def Chip.mpRole (c : Chip) (m r : Nat) : Bool × Nat :=
  let b := c.cf (aMp m + 4 + 4 * (r / 4)) (8 * (r % 4)) 8
  (decide (128 ≤ b), b % 128)

/-- The used role taps of meter point m, in role order. -/
def Chip.mpTaps (c : Chip) (m : Nat) : List Nat :=
  ((List.range 8).filter (fun r => (c.mpRole m r).1)).map (fun r => (c.mpRole m r).2)

/-- The engine that computes meter point m (R11); none while undefined. -/
def Chip.mpEngine (c : Chip) (m : Nat) : Option Nat :=
  if c.mpEn m then (c.mpTaps m).head?.map (· / 16) else none

/-- Whether slot s of meter point m is defined. -/
def Chip.slotDef (c : Chip) (m s : Nat) : Bool := c.mpEn m && c.cb (aMp m + 0x80 + 4 * s) 31

/-- Whether slot s of meter point m is declared NET. -/
def Chip.slotNet (c : Chip) (m s : Nat) : Bool := c.cb (aMp m + 0x80 + 4 * s) 30

/-- Whether meter point m has a direction unit. -/
def Chip.mpDir (c : Chip) (m : Nat) : Bool := c.cb (aMp m) 30

/-- The engines enabled in CG2. -/
def Chip.engEn (c : Chip) (k : Nat) : Bool := c.cb (aGate k) 31

/-- The engines, 0 to 7. -/
def engs8 : List Nat := List.range 8

/-- The running engines: those that hold a head. RUN 2 RUN, 3 SIDESTEP, 4 RECOVER. -/
def Chip.running (c : Chip) : List Nat :=
  engs8.filter (fun k => let r := (c.eng k).run.toNat; decide (2 ≤ r) && decide (r ≤ 4))

end Sys2Proof.Machine
end

