-- ==== Sys2Proof/Machine/Civil.lean ====
section
/-! DEFINITION. Civil time (R195), calendar dates and local time (R201). -/

namespace Sys2Proof.Machine

open Sys2Proof

/-- Civil time of an instant in nanoseconds since 2000-01-01 under one piece (R195). -/
def Piece.civil (p : Piece) (six : Nat) : Int :=
  p.ns + ((six : Int) - p.six) * 31250 * (1000000000000 + p.rate) / 1000000000000

/-- The piece that holds an instant: the newest one that starts at or before it. -/
def pieceAt : List Piece → Nat → Piece
  | [], _ => {}
  | [p], _ => p
  | p :: t, six => if p.six ≤ six then p else pieceAt t six

/-- Civil time of an instant (R195). -/
def Time.civil (t : Time) (six : Nat) : Int := (pieceAt t.pieces six).civil six

/-- Civil time of an instant. -/
def Chip.civil (c : Chip) (six : Nat) : Int := c.time.civil six

/-- UTC seconds since 2000-01-01 of an instant. -/
def Chip.utc (c : Chip) (six : Nat) : W32 := w32 (c.civil six / 1000000000).toNat

/-- The newest grid instant. -/
def Chip.now (c : Chip) : Nat := c.time.six

/-- Rounds up to a multiple of 8 (R194). -/
def up8 (n : Nat) : Nat := (n + 7) / 8 * 8

/-- First multiple of 8 at or after `n` ms from now; 32 grid instants are 1 ms. -/
def Chip.stampAfter (c : Chip) (ms : Nat) : Nat := up8 (c.now + 32 * ms)

/-- The first grid instant that is a multiple of 8 whose civil time under a piece is at or after `ns`. -/
def Piece.sixOf (p : Piece) (ns : Int) : Nat :=
  let d := (ns - p.ns) * 1000000000000
  let q := 31250 * (1000000000000 + p.rate)
  let n := (d + q - 1) / q
  up8 ((p.six : Int) + n).toNat

/-- The first grid instant that is a multiple of 8 whose civil time is at or after `ns`, under the present
piece. -/
def Chip.sixOfCivil (c : Chip) (ns : Int) : Nat := (pieceAt c.time.pieces c.now).sixOf ns

/-- The first multiple of 8 from an instant on at which civil time has reached `ns`, over pieces oldest first,
and whether a step of the mapping skipped `ns`. -/
def reachIn (from_ : Nat) (ns : Int) : Option Piece → List Piece → Option (Nat × Bool)
  | _, [] => none
  | prev, p :: rest =>
    let n := max (up8 (max p.six from_)) (p.sixOf ns)
    if rest.head?.all (fun q => decide (n < q.six)) then
      some (n, prev.any (fun q => decide (q.civil p.six < ns)) && decide (ns < p.civil p.six))
    else reachIn from_ ns (some p) rest

/-- The first instant from `from_` on at which civil time has reached `ns`. -/
def Time.reach (t : Time) (from_ : Nat) (ns : Int) : Option (Nat × Bool) :=
  reachIn from_ ns none (if t.pieces.isEmpty then [{}] else t.pieces.reverse)

/-- Days since 2000-01-01 of a date (proleptic Gregorian). -/
def daysOf (y m d : Int) : Int :=
  let y' := if m ≤ 2 then y - 1 else y
  let era := y' / 400
  let yoe := y' - era * 400
  let mp := (m + 9) % 12
  let doy := (153 * mp + 2) / 5 + d - 1
  let doe := yoe * 365 + yoe / 4 - yoe / 100 + doy
  era * 146097 + doe - 730425

/-- Year, month and day of a number of days since 2000-01-01. -/
def dateOf (n : Int) : Int × Int × Int :=
  let z := n + 730425
  let era := z / 146097
  let doe := z - era * 146097
  let yoe := (doe - doe / 1460 + doe / 36524 - doe / 146096) / 365
  let doy := doe - (365 * yoe + yoe / 4 - yoe / 100)
  let mp := (5 * doy + 2) / 153
  let d := doy - (153 * mp + 2) / 5 + 1
  let m := if mp < 10 then mp + 3 else mp - 9
  let y := yoe + era * 400 + (if m ≤ 2 then 1 else 0)
  (y, m, d)

/-- Weekday of a number of days since 2000-01-01, 1 Monday to 7 Sunday; that day is a Saturday. -/
def weekday (n : Int) : Int := (n + 5) % 7 + 1

/-- Days in a month. -/
def monthLen (y m : Int) : Int :=
  if m = 12 then 31 else daysOf y (m + 1) 1 - daysOf y m 1

/-- The day of the w-th weekday wd of a month; w = 5 is the last (R201). -/
def ruleDay (y m w wd : Int) : Int :=
  let first := daysOf y m 1
  let d := first + (wd - weekday first) % 7
  if w = 5 then
    let last := first + monthLen y m - 1
    last - (weekday last - wd) % 7
  else d + 7 * (w - 1)

/-- The words of CG10 that place local time: TIME_TZ, TIME_DST_START, TIME_DST_END. -/
structure Zoning where
  tz : W32
  ds : W32
  de : W32
  deriving DecidableEq, Repr

/-- The CG10 words in force: until the stamp of a pending commit the old ones (R201). -/
def Chip.zoning (c : Chip) : Zoning :=
  let r := match c.time.tz with
    | [] => c.live
    | x :: _ => wordOf x.old
  { tz := r 0x80004, ds := r 0x80008, de := r 0x8000C }

/-- Local standard offset in seconds. -/
def Zoning.std (z : Zoning) : Int := (BitVec.ofNat 8 (fld z.tz 8 8)).toInt * 900

/-- The standard local second at which a rule's instant falls in year y. -/
def ruleSec (r : W32) (y : Int) : Int :=
  ruleDay y (fld r 24 4) (fld r 16 3) (fld r 8 3) * 86400 + (fld r 0 5 : Int) * 3600

/-- Whether daylight saving applies at a second of local standard time. -/
def Zoning.dst (z : Zoning) (stdSec : Int) : Bool :=
  let y := (dateOf (stdSec / 86400)).1
  let a := ruleSec z.ds y
  let b := ruleSec z.de y
  z.tz.getLsbD 31 &&
  (if a < b then decide (a ≤ stdSec) && decide (stdSec < b)
   else !(decide (b ≤ stdSec) && decide (stdSec < a)))

/-- Local civil seconds of a UTC second (R201). -/
def Zoning.loc (z : Zoning) (utc : Int) : Int :=
  let s := utc + z.std
  s + (if z.dst s then (fld z.tz 0 3 : Int) * 900 else 0)

/-- Local civil seconds of an instant. -/
def Chip.localSec (c : Chip) (six : Nat) : Int := c.zoning.loc (c.civil six / 1000000000)

end Sys2Proof.Machine
end

