-- ==== Sys2Proof/Machine/Queue.lean ====
section
/-! DEFINITION. The ferry queues (11): writing, holding, swapping, popping and emptying. -/

namespace Sys2Proof.Machine

open Sys2Proof

/-- Words of a list of packets. -/
def pktWords (l : List (List W32)) : Nat := (l.map List.length).sum

/-- A packet: header word and payload (R239). -/
def mkPkt (ty src : Nat) (p : List W32) : List W32 :=
  w32 (ty * 2 ^ 24 + (src % 256) * 2 ^ 16 + p.length % 65536) :: p

/-- Sets a bit of SYS_HINT_STATUS (R29). -/
def Chip.hint (i : Nat) (c : Chip) : Chip :=
  c.modSys (fun s => { s with hintStatus := s.hintStatus ||| BitVec.ofNat 11 (2 ^ i) })

/-- Whether HINT_N is driven low (R29); released without VIO (R402). -/
def Chip.hintLow (c : Chip) : Bool :=
  c.host.vioOk && c.sys.hintStatus &&& c.sys.hintEn != 0

/-- Parity mode (R243): from a reset until the first bank swap after its recovery, and while FERRY_TEST runs. -/
def Ferry.inParity (f : Ferry) : Bool := f.parity || f.testing

/-- Lossy queues: FQ2 and FQ7 (R240). -/
def lossy (q : Nat) : Bool := q == 2 || q == 7

/-- Whether a packet fits in the filling bank (R238). -/
def Ferry.fits (f : Ferry) (p : List W32) : Bool := decide (pktWords f.fill + p.length ≤ 1024)

/-- Swaps the banks when the draining bank is empty and the filling one holds a packet (R238);
a queue whose recovery has ended leaves parity mode here (R243). -/
def Ferry.swap (f : Ferry) : Ferry :=
  if f.drain.isEmpty && f.cur.isEmpty && !f.fill.isEmpty then
    { f with drain := f.fill, fill := [], parity := f.parity && !f.leaving, leaving := false }
  else f

/-- Counts dropped packets (FERRY_CNT.DROP). -/
def Ferry.dropped (n : Nat) (f : Ferry) : Ferry := { f with drop := satAdd f.drop n }

/-- Packets the banks hold, a partly popped one included. -/
def Ferry.held (f : Ferry) : Nat := f.fill.length + f.drain.length + b2n (!f.cur.isEmpty)

/-- Empties both banks and counts their packets in DROP. -/
def Ferry.empty (f : Ferry) : Ferry :=
  { f.dropped f.held with fill := [], drain := [], cur := [], curPkt := [], owed := 0,
                          badWords := [] }

/-- Ends a claim: banks emptied, held packets reach an unowned queue (R235, R236). -/
def Ferry.endClaim (f : Ferry) : Ferry :=
  { (f.empty.dropped f.holdBuf.length) with owner := none, holdBuf := [], stalled := false,
                                             merged := 0 }

/-- Puts a packet that fits and swaps if the banks allow it. -/
def Ferry.push (p : List W32) (f : Ferry) : Ferry := Ferry.swap { f with fill := f.fill ++ [p] }

/-- MERGED of a SAFE packet is [31:24] of its word 1, saturating at 255 (R309): written when a
held packet is replaced by a newer one (R241). -/
def setMerged (n : Nat) (p : List W32) : List W32 :=
  match p with
  | h :: _ :: t => h :: w32 (min n 255 * 2 ^ 24) :: t
  | p => p

/-- Puts a packet that does not fit into the producer's buffer (R241, the table Holding
producers). The flag says that the buffer was full and the claim has to end. -/
def Ferry.hold (q : Nat) (p : List W32) (f : Ferry) : Ferry × Bool :=
  if q = 6 then
    if f.holdBuf.length < 64 then ({ f with holdBuf := f.holdBuf ++ [p], merged := 0 }, false)
    else ({ f with holdBuf := f.holdBuf.dropLast ++ [setMerged (f.merged + 1) p],
                   merged := f.merged + 1 }, false)
  else
    let f' := { f with holdBuf := f.holdBuf ++ [p] }
    if q = 0 then (f', decide (1024 < f'.holdBuf.length))
    else if q = 1 then (f', decide (4194304 < pktWords f'.holdBuf))
    else if q = 4 ∨ q = 5 then (f', decide (64 < f'.holdBuf.length))
    else (f', false)

/-- Whether queue q takes a packet at once (R236, R238, R243). -/
def Chip.fqTakes (c : Chip) (q : Nat) (p : List W32) : Bool :=
  let f := c.fq q
  f.owner.isSome && f.fits p && f.holdBuf.isEmpty && !f.testing

/-- Offers a packet to queue q (R236, R240, R241): the chip after it, and whether the
producer's buffer filled so that the claim ended. -/
def Chip.fqOffer (q : Nat) (p : List W32) (c : Chip) : Chip × Bool :=
  let f := c.fq q
  if f.owner.isNone then (c.modFq q (Ferry.dropped 1), false)
  else if f.fits p && f.holdBuf.isEmpty && !f.testing then
    ((c.modFq q (Ferry.push p)).hint q, false)
  else if lossy q then (c.modFq q (Ferry.dropped 1), false)
  else
    let r := f.hold q p
    if r.2 then (c.modFq q (fun f => { (f.hold q p).1.endClaim with stall := satInc f.stall }), true)
    else (c.modFq q (fun _ => r.1), false)

/-- FERRY_RXST (11). -/
def Ferry.rxst (f : Ferry) : W32 :=
  w32 (b2n f.abort * 2 ^ 31 + b2n f.poison * 2 ^ 30 + b2n f.inParity * 2 ^ 29 + b2n f.eop * 2 ^ 28
    + (f.cur.length + f.owed.toNat))

/-- FERRY_OCC (11): a packet counts whole until its last word is popped (R239); `ring` says that the event ring
or a SIGNAL holds. -/
def Ferry.occ (f : Ferry) (ring : Bool) : W32 :=
  w32 ((pktWords f.drain + (if f.cur.isEmpty then 0 else f.curPkt.length)) * 2 ^ 16 + b2n (!f.holdBuf.isEmpty || ring) * 2 ^ 15
    + pktWords f.fill)

/-- FERRY_CNT (11). -/
def Ferry.cnt (f : Ferry) : W32 := f.drop ++ f.stall ++ f.faultCnt

/-- A read of FERRY_DATA by the owner (R239, R242, R243): the word, the queue after it, and
whether a word with bad parity was the first of its packet. -/
def Ferry.pop (f : Ferry) : W32 × Ferry × Bool :=
  if f.owed ≠ 0 then
    let o := f.owed - 1
    (0, { f with owed := o, eop := decide (o = 0) }, false)
  else match f.cur with
  | w :: t =>
    let bad := f.inParity && f.badWords.contains 0
    let f' := { f with cur := t, eop := t.isEmpty, poison := f.poison || bad,
                       badWords := (f.badWords.filter (0 < ·)).map (· - 1) }
    (w, f'.swap, bad && !f.poison)
  | [] =>
    match f.swap.drain with
    | [] => (0, f, false)
    | p :: rest =>
      match p with
      | [] => (0, { f.swap with drain := rest }, false)
      | h :: t =>
        let g := f.swap
        let bad := g.inParity && g.badWords.contains 0
        (h, { g with drain := rest, cur := t, curPkt := p, abort := false, poison := bad,
                     eop := t.isEmpty,
                     badWords := (g.badWords.filter (0 < ·)).map (· - 1) }, bad)

/-- Pops a whole packet for a YHP session (R237): the packet, the queue after it, and whether a word of it had
bad parity (R243). -/
def Ferry.popPkt (f : Ferry) : Option (List W32) × Ferry × Bool :=
  let g := f.swap
  match g.drain with
  | [] => (none, f, false)
  | p :: rest =>
    let bad := g.inParity && g.badWords.any (fun i => decide (i < p.length))
    let left := (g.badWords.filter (fun i => decide (p.length ≤ i))).map (fun i => i - p.length)
    (some p, Ferry.swap { g with drain := rest, abort := false, poison := bad, eop := true, owed := 0,
                                 badWords := left }, bad)

/-- The reset of a queue whose pointer copies differ (R242): packets discarded, owed words
kept, FQ1 resends from the first packet not popped completely. -/
def Ferry.ptrReset (q : Nat) (f : Ferry) : Ferry × Nat :=
  let lost := f.held
  let resend := if q = 1 then (if f.cur.isEmpty then [] else [f.curPkt]) ++ f.drain ++ f.fill else []
  let n := if q = 1 then 0 else lost
  ({ f with fill := [], drain := [], cur := [], curPkt := [], badWords := [],
            owed := BitVec.ofNat 11 (f.owed.toNat + f.cur.length), abort := true,
            eop := false, holdBuf := resend ++ f.holdBuf, drop := satAdd f.drop n }, lost)

end Sys2Proof.Machine
end

