-- ==== Sys2Proof/Machine/Events.lean ====
section
/-! DEFINITION. Events and the event ring (R215-R220), tamper records (R221, R222), the legal
event counter (R226) and the staging of ledger records (R230-R232). -/

namespace Sys2Proof.Machine

open Sys2Proof

/-- A readiness bit of SYS_READY (R372). -/
def Chip.rdy (c : Chip) (i : Nat) : Bool := c.sys.ready.getLsbD i

/-- Sets or clears a readiness bit. -/
def Chip.setRdy (i : Nat) (b : Bool) (c : Chip) : Chip :=
  c.modSys (fun s => { s with ready :=
    if b then s.ready ||| BitVec.ofNat 20 (2 ^ i) else s.ready &&& ~~~ BitVec.ofNat 20 (2 ^ i) })

/-- Readiness bits (R372). -/
def rEDGE : Nat := 1
def rSF : Nat := 2
def rDRV : Nat := 3
def rAFE : Nat := 4
def rKEYS : Nat := 5
def rLINK : Nat := 6
def rSV : Nat := 7
def rQE (k : Nat) : Nat := 8 + k
def rBILL : Nat := 16
def rBAY : Nat := 17
def rNET : Nat := 18
def rPAIR : Nat := 19

/-- Latches a bay event class (R120). -/
def Chip.bayEvent (i : Nat) (c : Chip) : Chip :=
  c.modBay (fun b => { b with events := b.events ||| BitVec.ofNat 32 (2 ^ i) })

/-- The reserved class (R217): SAFE and KEY codes, and TAMPER events of class A types. -/
def reservedClass (code : W16) (a0 : W32) : Bool :=
  let b := fld code 8 8
  b == 0x0E || b == 0x10 ||
  (code == 0x0902 && decide (27 ≤ fld a0 0 5) && decide (fld a0 0 5 ≤ 30))

/-- The six words of an entry (R215). -/
def EvtEntry.words (e : EvtEntry) : List W32 :=
  [w32 (e.code.toNat * 65536 + e.unit.toNat * 256 + b2n e.rsv * 128 + b2n e.tinv * 64
      + b2n e.held * 32), e.arg0, e.arg1, e.utc, w32 e.six, hi32 e.six]

/-- General entries occupied. -/
def Evt.general (e : Evt) : Nat := (e.ring.filter (fun x => !x.resSlot && !x.ovr)).length

/-- Reserved entries occupied. -/
def Evt.reserved (e : Evt) : Nat := (e.ring.filter (fun x => x.resSlot)).length

/-- Places an event in the overrun slot (R219). -/
def Evt.fold (x : EvtEntry) (e : Evt) : Evt :=
  let o := e.overrun
  let codes := if o.isOpen && o.codes.contains x.code then o.codes
               else if o.isOpen then o.codes ++ [x.code] else [x.code]
  { e with
    overrun := { isOpen := true, folded := if o.isOpen then o.folded + 1 else 1, codes := codes,
                 utc := if o.isOpen then o.utc else x.utc, six := if o.isOpen then o.six else x.six }
    ovrTotal := satInc e.ovrTotal }

/-- A 17th held event of a source folds (R218): an open OVERRUN entry takes it up, and a ring that is not in
overrun does not enter it. -/
def Evt.foldHeld (x : EvtEntry) (e : Evt) : Evt :=
  if e.overrun.isOpen then e.fold x else { e with ovrTotal := satInc e.ovrTotal }

/-- Removes the newest general event (R217): the ring without it, and that event. -/
def dropNewestGeneral : List EvtEntry → List EvtEntry × Option EvtEntry
  | [] => ([], none)
  | x :: t =>
    match dropNewestGeneral t with
    | (t', some y) => (x :: t', some y)
    | (t', none) => if !x.rsv && !x.ovr then (t', some x) else (x :: t', none)

/-- Enters an event into the ring (R217, R219). -/
def Evt.enter (x : EvtEntry) (e : Evt) : Evt :=
  if x.rsv then
    if e.reserved < 32 then { e with ring := e.ring ++ [{ x with resSlot := true }] }
    else if e.general < 479 then { e with ring := e.ring ++ [x] }
    else match dropNewestGeneral e.ring with
      | (r, some y) => Evt.fold y { e with ring := r ++ [x] }
      | (_, none) => { e with waiting := e.waiting ++ [x] }
  else if e.overrun.isOpen || decide (479 ≤ e.general) then e.fold x
  else { e with ring := e.ring ++ [x] }

/-- The EVENT packet of an entry (11). -/
def EvtEntry.pkt (e : EvtEntry) : List W32 := mkPkt 0x30 (fld e.code 8 8) e.words

/-- Delivers the ring's undelivered entries to FQ3, oldest first, until one does not fit; an
unowned queue discards and counts them (R220, R236, R241). -/
def deliverRing : List EvtEntry → Ferry → List EvtEntry × Ferry × Bool
  | [], f => ([], f, false)
  | x :: t, f =>
    if x.delivered then
      let r := deliverRing t f
      (x :: r.1, r.2)
    else if f.owner.isNone then
      let r := deliverRing t (f.dropped 1)
      ({ x with delivered := true } :: r.1, r.2)
    else if f.fits x.pkt && f.holdBuf.isEmpty && !f.testing then
      let r := deliverRing t (f.push x.pkt)
      ({ x with delivered := true } :: r.1, r.2.1, true)
    else (x :: t, f, false)

/-- A persisted entry leaves the ring once it has been delivered (R220). -/
def Evt.trim (e : Evt) : Evt :=
  { e with ring := e.ring.filter (fun x => !(x.persisted && x.delivered)) }

/-- One delivery of the ring to FQ3. -/
def Chip.deliverOnce (c : Chip) : Chip :=
  let r := deliverRing c.evt.ring (c.fq 3)
  let c := { c.modFq 3 (fun _ => r.2.1) with evt := Evt.trim { c.evt with ring := r.1 } }
  if r.2.2 then c.hint 3 else c

/-- The counter and times of a source go to MRAM (R216). -/
def EvtSrc.persist (x : EvtSrc) : EvtSrc :=
  { x with mCnt := x.cnt, mFirst := x.first, mLast := x.last, dirty := false }

/-- A source after a loss of power: what MRAM holds of it (R216). -/
def EvtSrc.cold (x : EvtSrc) : EvtSrc :=
  { cnt := x.mCnt, first := x.mFirst, last := x.mLast, mCnt := x.mCnt, mFirst := x.mFirst, mLast := x.mLast }

/-- An occurrence of a source (R216): the counter saturates, the last time is always set. -/
def EvtSrc.occur (utc : W32) (x : EvtSrc) : EvtSrc :=
  { x with cnt := satInc x.cnt, first := if x.cnt = 0 then utc else x.first, last := utc,
           dirty := true }

/-- Counts an occurrence of a source (R216). -/
def Chip.countSrc (code : W16) (utc : W32) (c : Chip) : Chip :=
  c.modEvt (fun e =>
    { e with src := Tbl.put {} e.src code.toNat (EvtSrc.occur utc (Tbl.get {} e.src code.toNat)) })

/-- The OVERRUN entry is closed and takes its place in the ring (R219). -/
def Chip.closeOverrun (c : Chip) : Chip :=
  let o := c.evt.overrun
  if !o.isOpen then c else
  let x : EvtEntry := { code := 0x0901, tinv := !c.time.valid, arg0 := w32 o.folded,
                        arg1 := w32 o.codes.length, utc := o.utc, six := o.six, ovr := true }
  (c.countSrc 0x0901 o.utc).modEvt (fun e => { e with overrun := {}, ring := e.ring ++ [x] })

/-- Overrun ends when general occupancy has fallen to 240 (R219). -/
def Chip.endOverrun (c : Chip) : Chip :=
  if 240 < c.evt.general then c else c.closeOverrun

/-- Reserved-class events that wait at their source enter as entries free (R217). -/
def Evt.enterWaiting (e : Evt) : Evt :=
  e.waiting.foldl (fun e x => Evt.enter x e) { e with waiting := [] }

/-- Delivery of the ring to FQ3, and what the room it makes allows. -/
def Chip.deliver (c : Chip) : Chip :=
  let c := c.deliverOnce
  if c.evt.overrun.isOpen || !c.evt.waiting.isEmpty then
    (c.endOverrun.modEvt Evt.enterWaiting).deliverOnce
  else c

/-- Whether the ring holds entries that wait for space in FQ3. -/
def Chip.ringHolds (c : Chip) : Bool :=
  (c.fq 3).owner.isSome && c.evt.ring.any (fun x => !x.delivered)

/-- A producer of queue q holds (R241): its buffer, the event ring, or a SIGNAL of the bay. -/
def Chip.holds (c : Chip) (q : Nat) : Bool :=
  !(c.fq q).holdBuf.isEmpty || (q == 3 && c.ringHolds) || (q == 5 && c.bay.signal.isSome)

/-- A hold of queue q that had stalled has ended. -/
def Chip.holdOver (c : Chip) (q : Nat) : Bool := (c.fq q).stalled && !c.holds q

/-- A hold that has ended has lasted no time (R241). -/
def Chip.holdsOver (old c : Chip) : Chip :=
  each ((List.range 8).filter (fun q => c.holdOver q && !old.holdOver q)) (fun q c =>
    c.modFq q (fun f => { f with stalled := false })) c

/-- Inserts an event in the order of SIX behind its equals (R218). -/
def insSix (x : EvtEntry) : List EvtEntry → List EvtEntry
  | [] => [x]
  | y :: t => if x.six < y.six then x :: y :: t else y :: insSix x t

/-- Raises an event stamped at an instant (R215-R219): the source counts it, and it gets a ring
entry; while SV is not ready its source holds it, up to 16. -/
def Chip.raiseAt (six : Nat) (code : W16) (unit : Nat) (a0 a1 : W32) (c : Chip) : Chip :=
  let utc := c.utc six
  let x : EvtEntry :=
    { code := code, unit := BitVec.ofNat 8 unit, rsv := reservedClass code a0,
      tinv := !c.time.valid, arg0 := a0, arg1 := a1, utc := utc, six := six }
  let c := c.countSrc code utc
  if c.rdy rSV then (c.modEvt (Evt.enter x)).deliver
  else
    let n := (Tbl.get ({} : EvtSrc) c.evt.src code.toNat).held
    if n < 16 then
      c.modEvt (fun e =>
        { e with heldQ := insSix { x with held := true } e.heldQ,
                 src := Tbl.put {} e.src code.toNat
                   { Tbl.get ({} : EvtSrc) e.src code.toNat with held := n + 1 } })
    else c.modEvt (Evt.foldHeld x)

/-- Raises an event now. -/
def Chip.raise (code : W16) (unit : Nat) (a0 a1 : W32) (c : Chip) : Chip :=
  c.raiseAt c.now code unit a0 a1

/-- Enters an event that its source has held (R218). -/
def Chip.raiseHeld (code : W16) (unit : Nat) (c : Chip) : Chip :=
  let utc := c.utc c.now
  let x : EvtEntry :=
    { code := code, unit := BitVec.ofNat 8 unit, rsv := reservedClass code 0, tinv := !c.time.valid, held := true,
      utc := utc, six := c.now }
  ((c.countSrc code utc).modEvt (Evt.enter x)).deliver

/-- Writes a packet to a queue; a producer's buffer that fills ends the claim and raises
QUEUE_STALL with ARG1 = 2 (R241). A header of length 0 is a producer fault (R239). -/
def Chip.fqPut (q : Nat) (p : List W32) (c : Chip) : Chip :=
  if p.length ≤ 1 then
    (c.modFq q (fun f => { f with faultCnt := satInc f.faultCnt })).raise 0x0A02 q 2 0
  else
    let r := c.fqOffer q p
    if r.2 then r.1.raise 0x0A01 q (w32 q) 2 else r.1

/-- Ends the claim of a queue (R235). -/
def Chip.endClaim (q : Nat) (c : Chip) : Chip := (c.modFq q Ferry.endClaim).when (q == 3) Chip.deliver

/-- Counts an access refused under R6, R25 or R32 (R33). -/
def Chip.denied (m : Nat) (addr : Nat) (c : Chip) : Chip :=
  (c.modSys (fun s => { s with deniedCnt := satInc s.deniedCnt,
                               deniedAddr := w32 (m * 2 ^ 24 + addr % 2 ^ 24) })).raise
    0x0001 m (w32 (m * 2 ^ 24 + addr % 2 ^ 24)) 0

/-- Bytes padded with zeros to a multiple of 8. -/
def pad8 (l : List W8) : List W8 := l ++ List.replicate ((8 - l.length % 8) % 8) 0

/-- POST_NO in force at an instant (R22); while a POST record waits for its gate, the old number, which
`postNow` replaces where the gate proves to be earlier. -/
def Chip.postAt (c : Chip) (six : Nat) : BitVec 18 :=
  match c.ledger.postHist.find? (fun p => decide (six < p.1)), c.ledger.postPend with
  | some p, _ => p.2
  | none, p :: _ => p.1
  | none, [] => BitVec.ofNat 18 c.postNo

/-- LENGTH of a record (R230); a SIGNATURE's payload is 80 bytes. -/
def LedgerRec.len (r : LedgerRec) : Nat := 80 + (if r.kind = 2 then 80 else (pad8 r.payload).length)

/-- The place of a record kind in the order of R75, which orders records of one SIX (R231): a clock step, a
demand end, a billing close, an activation, a legal change, a session; then the others. A tariff switch and a session
closed before a redefinition have places of their own (`Chip.stageAt`). -/
def recRank (kind : Nat) : Nat :=
  match kind with
  | 0x0C => 0
  | 0x03 => 2
  | 0x04 => 3
  | 0x0B => 5
  | 0x08 => 8
  | 0x05 => 9
  | _ => 11

/-- Record x is appended before record y (R231): by SIX, by R75, by kind; the records of boundaries that a step skips
in the order in which these execute (R185, R190). -/
def recBefore (x y : LedgerRec) : Bool :=
  decide (x.six.toNat < y.six.toNat) ||
  (x.six == y.six &&
    (if x.ord ≠ 0 ∧ y.ord ≠ 0 then decide (x.ord < y.ord)
     else decide (x.place < y.place) || (x.place == y.place && decide (x.kind.toNat < y.kind.toNat))))

/-- Inserts a record in the order of R231, behind its equals, and never between a record and the SIGNATURE that
follows it. -/
def insRec (x : LedgerRec) : List LedgerRec → List LedgerRec
  | [] => [x]
  | y :: t => if !y.follows && recBefore x y then x :: y :: t else y :: insRec x t

/-- A record of a fact at an instant. FLAGS gets TINV while TIME_VALID is clear. -/
def Chip.mkRec (c : Chip) (kind : W16) (flags six : Nat) (payload : List W8) : LedgerRec :=
  { kind := kind, flags := BitVec.ofNat 16 (flags + b2n (!c.time.valid) * 32),
    six := BitVec.ofNat 64 six, utcNs := BitVec.ofInt 64 (c.civil six), post := c.postAt six,
    place := 2 * recRank kind.toNat, payload := payload }

/-- Payloads of at most 65,456 bytes, so that no record is longer than 65,536 (R230). DESIGN CHOICE: a longer
payload continues in further records of its kind (log 128). -/
def recParts : Nat → List W8 → List (List W8)
  | 0, p => [p]
  | n + 1, p => if p.length ≤ 65456 then [p] else p.take 65456 :: recParts n (p.drop 65456)

/-- Hands a record to the staging ring (R232) at a place among the records of its SIX; nothing is appended once the
ledger is closed (R231). -/
def Chip.stageAt (place ord : Nat) (kind : W16) (flags six : Nat) (payload : List W8) (c : Chip) : Chip :=
  if c.ledger.closed then c else
  let new := fun (p : List W8) => { c.mkRec kind flags six p with place := place, ord := ord }
  c.modLedger (fun l =>
    { l with staging := (recParts 64 payload).foldl (fun s p => insRec (new p) s) l.staging })

/-- Hands a record to the staging ring at the place of its kind. -/
def Chip.stage (kind : W16) (flags : Nat) (six : Nat) (payload : List W8) (c : Chip) : Chip :=
  c.stageAt (2 * recRank kind.toNat) 0 kind flags six payload

/-- The committed post number is in force from an instant on (R22): the records staged for that instant or a
later one carry it, and a POST record of each change goes to the ledger. DESIGN CHOICE: the old and the new
number take 4 bytes each (log 124). -/
def Chip.postNow (six : Nat) (c : Chip) : Chip :=
  match c.ledger.postPend with
  | [] => c
  | p :: rest =>
    let new : BitVec 18 := BitVec.ofNat 18 c.postNo
    let restamp := fun (r : LedgerRec) => if six ≤ r.six.toNat then { r with post := new } else r
    let c := c.modLedger (fun l =>
      { l with postPend := [], postHist := (l.postHist ++ [(six, p.1)]).reverse.take 16 |>.reverse,
               staging := l.staging.map restamp })
    each (p :: rest) (fun q c => c.stage 0x0A 0 six (leBytes 4 q.1.toNat ++ leBytes 4 q.2.toNat)) c

/-- Stages a SIGNATURE record at an instant (R231); its payload is made at the append. -/
def Chip.stageSig (six : Nat) (c : Chip) : Chip :=
  (c.stage 2 0 six []).modLedger (fun l => { l with lastSig := six })

/-- Inserts a SIGNATURE directly behind the last record of a kind at an instant (R231). -/
def insSig (kind : W16) (x : LedgerRec) (l : List LedgerRec) : List LedgerRec :=
  let after := l.reverse.takeWhile (fun y => !(y.kind == kind && y.six == x.six))
  let after := after.filter (fun _ => decide (after.length < l.length))
  l.take (l.length - after.length) ++ { x with follows := true } :: after.reverse

/-- Stages a SIGNATURE directly behind the last staged record of a kind at an instant (R231). -/
def Chip.signBehind (kind : W16) (six : Nat) (c : Chip) : Chip :=
  if c.ledger.closed then c else
  c.modLedger (fun l => { l with staging := insSig kind (c.mkRec 2 0 six []) l.staging, lastSig := six })

/-- Hands a record and the SIGNATURE that follows it to the staging ring (R231). -/
def Chip.stageSigned (kind : W16) (flags six : Nat) (payload : List W8) (c : Chip) : Chip :=
  (c.stage kind flags six payload).signBehind kind six

/-- Bytes of the staging ring in use (R232). -/
def Ledger.stagedBytes (l : Ledger) : Nat := (l.staging.map LedgerRec.len).sum

/-- The staging ring of 1 MiB is full and holds the billing block's commits (R232). -/
def Chip.stagingFull (c : Chip) : Bool := decide (1048576 ≤ c.ledger.stagedBytes)

/-- A tamper record (R221). -/
def Chip.trec (c : Chip) (ty : Nat) : TampRec := Tbl.get {} c.tamper.recs ty

/-- Updates a tamper record. -/
def Chip.modTrec (ty : Nat) (f : TampRec → TampRec) (c : Chip) : Chip :=
  c.modTamper (fun t => { t with recs := Tbl.put {} t.recs ty (f (Tbl.get {} t.recs ty)) })

/-- Payload of a TAMPER ledger record (R230). -/
def tamperPayload (ty : Nat) (start : Bool) (r : TampRec) (extra : List W8) : List W8 :=
  leBytes 2 ty ++ leBytes 2 (b2n start) ++ wordBytes r.cnt ++ wordBytes r.first
    ++ wordBytes r.last ++ wordBytes r.dur ++ extra

/-- A duration in ms as a record holds it (R222). -/
def durMs (ms : Nat) : W32 := if ms ≤ 0xFFFFFFFE then w32 ms else 0xFFFFFFFE

/-- The TAMPER event and ledger record that follow an update of a record (R222). -/
def Chip.tamperNote (ty unit six : Nat) (start : Bool) (extra : List W8) (c : Chip) : Chip :=
  let r := c.trec ty
  (c.raiseAt six 0x0902 unit (w32 (ty + 256 * b2n start)) r.cnt).stage 7 0 six
    (tamperPayload ty start r extra)

/-- The updates of a start: count, first, last (R222). `utc` is 0 when the AO counter was lost. -/
def TampRec.start (utc : W32) (r : TampRec) : TampRec :=
  { r with cnt := satInc r.cnt, first := if r.cnt = 0 then utc else r.first, last := utc }

/-- Start of a condition type, held by a unit (0xFF: the module). -/
def Chip.tamperStart (ty unit six : Nat) (c : Chip) : Chip :=
  if (c.trec ty).holders.any (fun h => h.1 == unit) then c else
  (c.modTrec ty (fun r =>
    { r.start (c.utc six) with holders := r.holders ++ [(unit, six)] })).tamperNote ty unit six true []

/-- End of a condition type held by a unit: the last duration is the time from start to end, or unknown where
the lost AO counter leaves the length of an outage in between unknown (R223). -/
def Chip.tamperEnd (ty unit six : Nat) (c : Chip) : Chip :=
  match (c.trec ty).holders.find? (fun h => h.1 == unit) with
  | none => c
  | some h =>
    (c.modTrec ty (fun r =>
      let lost := r.unknown && unit == 0xFF
      { r with dur := if lost then 0xFFFFFFFF else durMs ((six - h.2) / 32), unknown := r.unknown && !lost,
               holders := r.holders.filter (fun h => h.1 != unit) })).tamperNote ty unit six false []

/-- Start of an instantaneous type with the duration the table names (R222). -/
def Chip.tamperInst (ty unit six : Nat) (dur : W32) (extra : List W8) (c : Chip) : Chip :=
  (c.modTrec ty (fun r => { r.start (c.utc six) with dur := dur })).tamperNote ty unit six true extra

/-- A condition type is present (EVT_TAMP_ACTIVE). -/
def Chip.tamperActive (c : Chip) (ty : Nat) : Bool := !(c.trec ty).holders.isEmpty

/-- Records a legal change at an instant (R40, R226, R230): the legal event counter, the
CONFIG_CHANGE_LEGAL tamper record and the CONFIG_LEGAL ledger record. -/
def Chip.recordLegal (source arg : Nat) (ref : W32) (six : Nat) (c : Chip) : Chip :=
  let c := c.modEvt (fun e => { e with legalCnt := satInc e.legalCnt })
  (c.tamperInst 13 0xFF six 0 []).stage 8 0 six
    (leBytes 2 source ++ leBytes 2 arg ++ wordBytes ref ++ wordBytes c.evt.legalCnt ++ leBytes 4 0)

end Sys2Proof.Machine
end

