-- ==== Sys2Proof/Machine/Tickets.lean ====
section
/-! DEFINITION. Tickets and completions (R44-R46), the modes and their conditions (R19, R375). -/

namespace Sys2Proof.Machine

open Sys2Proof

/-- The acknowledgement of a command (CMD_STATUS): a status, and the ticket of a long one. -/
structure Ans where
  st : W8 := 0
  ticket : W16 := 0
  deriving DecidableEq, Repr

/-- The next ticket value after one is issued; 65,535 wraps to 1 (R44). -/
def nextTicket (t : W16) : W16 := if t = 0xFFFF then 1 else t + 1

/-- 64 tickets are outstanding (R44). -/
def Chip.tixFull (c : Chip) : Bool := decide (64 ≤ c.tix.out.length)

/-- Issues a ticket to a master (R44). -/
def Chip.issue (m code arg : Nat) (c : Chip) : Chip × W16 :=
  let t := c.tix.next
  (c.modTix (fun x => { x with next := nextTicket t
                               out := x.out ++ [{ no := t, master := m, sess := (c.master m).sess,
                                                  code := BitVec.ofNat 16 code, arg := arg }] }), t)

/-- Starts a long operation: PENDING with a ticket, or NO_RESOURCE for the 65th (R44). -/
def Chip.long (m code arg : Nat) (c : Chip) (k : W16 → Chip → Chip) : Chip × Ans :=
  if c.tixFull then (c, { st := stNORES })
  else
    let r := c.issue m code arg
    (k r.2 r.1, { st := stPENDING, ticket := r.2 })

/-- A ticket that is outstanding. -/
def Chip.ticketOut (c : Chip) (t : W16) : Option Ticket := c.tix.out.find? (fun x => x.no == t)

/-- Appends a message to what a master's connection has been sent. -/
def Chip.send (m : Nat) (msg : YhpMsg) (c : Chip) : Chip :=
  c.modMaster m (fun x => { x with outbox := x.outbox ++ [msg] })

/-- Completes a ticket (R45): the NOTICE packet in FQ0, the NOTICE message of the session that
issued it, and the record for CMD_TICKET_STATE. -/
def Chip.complete (t : W16) (st : W8) (result : W32) (c : Chip) : Chip :=
  match c.ticketOut t with
  | none => c
  | some x =>
    let c := c.modTix (fun y => { y with out := y.out.filter (fun z => z.no != t)
                                         done := ((t, st) :: y.done).take 256 })
    let p := mkPkt 0x01 x.master [w32 (t.toNat * 65536 + st.toNat), result]
    let c := c.fqPut 0 p
    let mm := c.master x.master
    if x.master ≠ 0 ∧ mm.conn ∧ mm.sess = x.sess then
      c.send x.master { kind := 0x90, payload := p }
    else c

/-- CMD_TICKET_STATE for a selected ticket (R45). -/
def Chip.ticketState (c : Chip) (t : W16) : W32 :=
  let f := fun st (x : W8) => w32 (t.toNat * 65536 + st * 256 + x.toNat)
  if t = 0 then f 0 stRANGE
  else if (c.ticketOut t).isSome then f 1 stPENDING
  else match c.tix.done.find? (fun x => x.1 == t) with
    | some x => f 2 x.2
    | none => f 0 stSTALE

/-- The SAFE condition (R292): a zone TRIPPED (4) or FAULT (5) in either channel, or a global
fault latched. -/
def Chip.safeCond (c : Chip) : Bool :=
  c.safe.global != 0 ||
  [c.safe.sf, c.safe.edge].any (fun ch => (List.range 4).any (fun z =>
    let st := (Tbl.get ({} : Zone) ch.zones z).st
    st == 4 || st == 5))

/-- The COMMISSION condition (R375): a life cycle other than DEPLOYED (2), or the flag. -/
def Chip.commCond (c : Chip) : Bool := c.key.lc != 2 || c.sys.commission

/-- The life cycle is RETIRED. -/
def Chip.retired (c : Chip) : Bool := c.key.lc == 4

/-- The conditions that hold, bit c - 1 for mode code c (SYS_MODE.COND). -/
def Chip.conds (c : Chip) : Nat :=
  b2n c.commCond + 4 * b2n c.power.onAux + 8 * b2n c.safeCond + 16 * b2n c.sys.changeover
    + 32 * b2n (c.sys.qcause != 0) + 64 * b2n c.retired

/-- The mode SYS_MODE reports (R19). -/
def Chip.modeOf (c : Chip) : BitVec 4 :=
  if c.sys.starting then 0
  else if c.retired then 7
  else if c.sys.qcause ≠ 0 then 6
  else if c.safeCond then 4
  else if c.sys.changeover then 5
  else if c.power.onAux then 3
  else if c.commCond then 1
  else 2

/-- Results committed now carry NOT_LEGAL (R376): COMMISSION or QUARANTINE holds. -/
def Chip.notLegal (c : Chip) : Bool := c.commCond || c.sys.qcause != 0

end Sys2Proof.Machine
end

