-- ==== Sys2Proof/Machine/Taps.lean ====
section
/-! DEFINITION. Metering taps (03): calibration, zero crossings, the replay buffer, the
comparison of the chains, reference rounds, the arbiter and the tap faults. A calibrated sample
is an exact integer in units of range / (2^23 * 2^60 * 10^10). -/

namespace Sys2Proof.Machine

open Sys2Proof

/-- One range in units of a calibrated sample. -/
def calU : Int := 2 ^ 83 * 10000000000

/-- Tap modes (R50). -/
def mOFF : Nat := 0
def mVOLT : Nat := 1
def mCURR : Nat := 2
def mROGO : Nat := 3
def mLOOP : Nat := 4
def mRTD : Nat := 5
def mBRIDGE : Nat := 6
def mPULSE : Nat := 7
def mRDC : Nat := 8

/-- The mode of tap n. -/
def Chip.tapMode (c : Chip) (n : Nat) : Nat := c.cf (aTapMode n) 0 4

/-- The calibrated sample of R70: factory and field gain in Q2.30, the temperature correction,
and the code less both offsets; `sc` brings a check code to the unit of a primary code. -/
def calibrate (gf g : W32) (tc temp : Int) (x of o : Int) (sc : Int) : Int :=
  (gf.toNat : Int) * g.toNat * (10000000000 + tc * (temp - 2500)) * (x - of - o) * sc

/-- Clips to ±1.02 of range (R69): the value, and whether it was clipped. -/
def clip102 (y : Int) : Int × Bool :=
  let lim := calU * 102 / 100
  if lim ≤ y then (lim, true) else if y ≤ -lim then (-lim, true) else (y, false)

/-- The fraction of the sample period at which the line from `a` to `b` crosses zero, in 1/256,
rounded up and at least 1 (R56). -/
def zcFrac (a b : Int) : Int :=
  let d := (b - a).natAbs
  max 1 (((a.natAbs * 256 + d - 1) / d : Nat) : Int)

/-- A mode in which a zero-crossing detector may run (03, Zero-crossing detection). -/
def zcMode (m : Nat) : Bool := m == mVOLT || m == mCURR || m == mROGO || m == mRDC

/-- Whether the zero-crossing detector of tap n runs: ZC_EN in such a mode (R51, R57). -/
def Chip.zcOn (c : Chip) (n : Nat) : Bool := c.cb (aTapMode n) 5 && zcMode (c.tapMode n)

/-- What the zero-crossing detector keeps and reports for one sample (R56, R57). -/
def Tap.zcStep (en : Bool) (y : Int) (t : Tap) : Tap × Int :=
  if !en then ({ t with zcPrev := y, zcArm := 0, zcPos := 0, zcNeg := 0, noac := false }, 0) else
  let th := calU / 100
  let pos := decide (t.zcArm = -1) && decide (t.zcPrev < 0) && decide (0 ≤ y)
  let neg := decide (t.zcArm = 1) && decide (0 < t.zcPrev) && decide (y ≤ 0)
  let arm : Int := if y < -th then -1 else if th < y then 1 else if pos || neg then 0 else t.zcArm
  let np := t.zcPos + b2n (pos && t.noac)
  let nn := t.zcNeg + b2n (neg && t.noac)
  let t' := { t with zcArm := arm, zcPrev := y, zcPos := np, zcNeg := nn,
                     noac := t.noac && !(decide (2 ≤ np) || decide (2 ≤ nn)) }
  (t', if pos then zcFrac t.zcPrev y else if neg then -(zcFrac t.zcPrev y) else 0)

/-- TAPST of a sample (05), LB_CLIP clear. -/
def Tap.stWord (t : Tap) (mode : Nat) (ovr ovrC : Bool) : W32 :=
  w32 (t.fault.toNat * 2 ^ 28 + t.arb.toNat * 2 ^ 24 + mode * 2 ^ 16
    + b2n (mode == 0) * 128 + b2n (t.arb == 6) * 32 + b2n (t.arb != 1) * 16
    + b2n t.noac * 8 + b2n t.refBusy * 4 + b2n ovrC * 2 + b2n ovr)

/-- The chain TAP returns is the check chain (R62). -/
def Tap.onCheck (t : Tap) : Bool := t.arb == 4 || t.arb == 6

/-- The range of a mode as a fraction of the unit TAP returns (the table TAP values). -/
def Chip.tapRange (c : Chip) (n : Nat) : Nat × Nat :=
  let mode := c.tapMode n
  let w := c.live (aTapMode n)
  let odd := n % 2 == 1
  if mode = mCURR || mode = mROGO then
    (match fld w 8 2 with
     | 1 => (1, 4)
     | 2 => (1, 16)
     | _ => (1, 1))
  else if mode = mLOOP then (24, 1)
  else if mode = mRTD then
    (let pt1000 := (c.live (aTapMode (n - n % 2))).getLsbD 10
     if odd then (if pt1000 then (1, 10) else (1, 1)) else if pt1000 then (4000, 1) else (400, 1))
  else if mode = mBRIDGE then (if odd then (5, 1) else (25, 2))
  else (1, 1)

/-- A calibrated sample as binary64 in the unit of its mode (the table TAP values). -/
def Chip.tapVal (c : Chip) (n : Nat) (y : Int) : W64 :=
  if c.tapMode n = mOFF then qNaN
  else if c.tapMode n = mPULSE then f64OfInt y 0
  else
    let r := c.tapRange n
    f64OfRat (y * r.1) (calU.toNat * r.2)

/-- A sample with its values in the unit of the tap's mode at that instant (R97, R105). -/
def Chip.valued (c : Chip) (n : Nat) (s : Sample) : Sample :=
  { s with v := c.tapVal n s.p, vc := c.tapVal n s.c }

/-- TAP_CAL_PHASE of tap n, in 10 ns (R70). -/
def Chip.tapPhase (c : Chip) (n : Nat) : Int := (BitVec.ofNat 16 (c.cf (aCal n + 0x10) 0 16)).toInt

/-- The phase correction of one chain (R70): none for 0, else the shift of the calibrated samples. -/
def phased (ph : Int) (d : Nat) (l : List Int) : Int :=
  if ph = 0 then l.headD 0 else Config.phaseShift ph d l

/-- The odd tap of an RTD or BRIDGE pair (R51). -/
def Chip.oddOfPair (c : Chip) (n : Nat) : Bool :=
  n % 2 == 1 && (c.tapMode n == mRTD || c.tapMode n == mBRIDGE)

/-- The criteria of the table Tap fault classes that one chain's calibrated value shows (R65, R68), by class code;
slot 0 is the current of 21.0-23.0 mA. -/
def Chip.critOf (c : Chip) (n : Nat) (y : Int) : BitVec 6 :=
  let m := c.tapMode n
  let b := fun (i : Nat) (p : Bool) => BitVec.ofNat 6 (2 ^ i * b2n p)
  if c.oddOfPair n then 0
  else if m = mLOOP then
    b 1 (decide (y * 240 < 36 * calU)) ||| b 2 (decide (230 * calU < y * 240)) |||
    b 0 (decide (210 * calU ≤ y * 240) && decide (y * 240 ≤ 230 * calU)) |||
    b 4 (decide (36 * calU ≤ y * 240) && decide (y * 240 ≤ 38 * calU))
  else if m = mRTD then b 1 (decide (11 * calU < y * 10)) ||| b 2 (decide (y * 40 < calU))
  else if (c.live (aTapMode n)).getLsbD 11 && (m == mVOLT || m == mCURR || m == mROGO || m == mBRIDGE) then
    b 1 (decide (98 * calU < y * 100))
  else 0

/-- The criteria after one more sample (R68). -/
def critStep (six : Nat) (on : BitVec 6) (l : List CritRun) : List CritRun :=
  (List.range 6).map (fun i => match l[i]? with
    | some r => if r.on = on.getLsbD i then r else { on := on.getLsbD i, since := six }
    | none => { on := on.getLsbD i, since := six })

/-- The criteria of a tap follow one sample of it (R65, R68): `p` and `k` what each chain shows alone. OPEN outside
LOOP and RTD needs both chains; LOOP and RTD are judged on the chain TAP returns (log 174). -/
def Tap.watch (six mode : Nat) (p k : BitVec 6) (t : Tap) : Tap :=
  let both := if mode = mLOOP || mode = mRTD then (if t.onCheck then k else p) else p &&& k
  { t with
    critP := critStep six p t.critP
    critC := critStep six k t.critC
    crit := critStep six (both ||| (if t.edgeBad then 8 else 0) ||| (if t.excBad then 32 else 0)) t.crit }

/-- The edge rate of a PULSE tap over 10 ms (R68): `e` edges of the chain TAP returns in `d` grid instants. -/
def Tap.edgeStep (d e : Nat) (t : Tap) : Tap :=
  let n := t.edgeN + d
  let e := t.edges + e
  if n < 320 then { t with edgeN := n, edges := e } else { t with edgeN := 0, edges := 0, edgeBad := decide (200 < e) }

/-- Converts the raw codes of one tap at the instant `six` (R54, R70): the tap after it and the sample. `d` is the
sample period in grid instants. -/
def Chip.convert (c : Chip) (n six d : Nat) (temp : Int) (r : RawSample) : Tap × Sample :=
  let t := c.tap n
  let mode := c.tapMode n
  if mode = mOFF then
    let t := (t.zcStep false 0).1
    (t, c.valued n { st := t.stWord 0 false false })
  else if mode = mPULSE then
    let busy := t.refBusy
    let t := (t.edgeStep d (if t.onCheck then r.cEdges else r.pEdges)).watch six mode 0 0
    let t := { (t.zcStep false 0).1 with
               glitch := satAdd t.glitch r.glitches, winN := t.winN + 1, winP := t.winP + r.pEdges,
               winC := t.winC + r.cEdges, winExcl := t.winExcl || busy }
    (t, c.valued n { p := r.pEdges, c := r.cEdges, edge := r.edge, st := t.stWord mode false false })
  else
    let f := fun a => c.live (aCal n + a)
    let tcP : Int := (BitVec.ofNat 16 (fld t.tc 16 16)).toInt
    let tcC : Int := (BitVec.ofNat 16 (fld t.tc 0 16)).toInt
    let hist := ((calibrate t.gainFP (f 0) tcP temp r.p t.ofsFP (f 4).toInt 1,
      calibrate t.gainFC (f 8) tcC temp r.c t.ofsFC (f 12).toInt 256) :: t.hist).take 16
    let up := phased (c.tapPhase n) d (hist.map Prod.fst)
    let uc := phased (c.tapPhase n) d (hist.map Prod.snd)
    let yp := clip102 up
    let yc := clip102 uc
    let t := t.watch six mode (c.critOf n up) (c.critOf n uc)
    let busy := t.refBusy
    let sel := if t.onCheck then yc else yp
    let z := t.zcStep (c.zcOn n) sel.1
    let t := z.1
    let e := (yp.1 - yc.1).natAbs
    let t := { t with ovr := yp.2 || yc.2, winN := t.winN + 1, winSq := t.winSq + e * e,
                      winPsq := t.winPsq + yp.1.natAbs * yp.1.natAbs,
                      winOvr := t.winOvr + b2n (yp.2 || yc.2), winOvrC := t.winOvrC + b2n yc.2,
                      winExcl := t.winExcl || busy || yp.2 || yc.2, hist := hist }
    (t, c.valued n { p := yp.1, c := yc.1, zc := z.2, st := t.stWord mode sel.2 yc.2 })

/-- The next sample instant of group k. -/
def Chip.nextSample (c : Chip) (k : Nat) : Nat :=
  let d := c.gridDAt k ((c.group k).newest + 1)
  (c.group k).newest / d * d + d

/-- A condition other than COMMISSION makes results not-legal (R376). -/
def Chip.unlawful (c : Chip) : Bool := c.key.lc != 2 || c.sys.qcause != 0

/-- Results carry CONFIG_SUSPECT (R42): a legal group's mismatch is unresolved. -/
def Chip.suspect (c : Chip) : Bool := c.cfg.mismatch &&& 0xE != 0

/-- What is kept of an instant of group k: a condition that makes results not-legal counts from the first
instant after its detection whose SIX is a multiple of 8 (R376). -/
def Chip.instant (c : Chip) (k s : Nat) (l : List Sample) : Instant :=
  let g := c.group k
  { six := s, taps := l, suspect := c.suspect,
    notLegal := if s % 8 = 0 || g.buf.isEmpty then c.unlawful else g.notLegal }

/-- One grid instant of group k (R54): 16 samples enter the replay buffer, a ring of 4,096
instants, and the bridge buffer while the AFE writes there (R363). SIX follows. -/
def Chip.sampleGroup (k : Nat) (raw : List RawSample) (temp : Option W16) (c : Chip) : Chip :=
  let c := match temp with
    | some v => c.modGroup k (fun g => { g with temp := v })
    | none => c
  let s := c.nextSample k
  let t := (c.group k).temp.toInt
  let d := s - (c.group k).newest
  let v := c.viewAt s
  let conv := (List.range 16).map (fun i => (16 * k + i, v.convert (16 * k + i) s d t (raw.getD i {})))
  let inst := c.instant k s (conv.map (fun x => x.2.2))
  let c := each conv (fun x c => c.modTap x.1 (fun _ => x.2.1)) c
  let c := c.modGroup k (fun g =>
    let l := inst :: g.buf
    let kept := fun (x : Instant) => decide (g.bridgeFrom ≤ x.six) &&
      (match g.bridgeLost with
       | some z => decide (x.six < z)
       | none => true)
    { g with newest := s, notLegal := inst.notLegal,
             buf := l.take 4096 ++ (if g.bridgeOn then (l.drop 4096).filter kept else []),
             bridge := if g.bridgeOn && g.bridgeLost.isNone then g.bridge + 1 else g.bridge })
  c.modTime (fun x => { x with six := max x.six s })

/-- What was kept of the instant `six` of group k. -/
def Chip.instantAt (c : Chip) (k six : Nat) : Option Instant :=
  (c.group k).buf.find? (fun p => p.six == six)

/-- The meter points whose used role taps include tap n. -/
def Chip.tapMps (c : Chip) (n : Nat) : List Nat :=
  (List.range 64).filter (fun m => c.mpEn m && (c.mpTaps m).contains n)

/-- An event of a tap (R421). -/
def Chip.tapEvt (code : W16) (n : Nat) (a0 a1 : Nat) (c : Chip) : Chip := c.raise code n (w32 a0) (w32 a1)

/-- Ends a commanded round with a status. -/
def Chip.endRound (n : Nat) (st : W8) (c : Chip) : Chip :=
  let t := (c.tap n).roundTicket
  if t = 0 then c else (c.modTap n (fun x => { x with roundTicket := 0 })).complete t st 0

/-- Enters an arbiter state. ON_CHECK and FAILED run no rounds: one that waits or runs ends, a commanded
one with ABORTED (R64). -/
def Chip.enterArb (n : Nat) (arb : BitVec 4) (c : Chip) : Chip :=
  let c := c.modTap n (fun t => { t with arb := arb })
  if arb == 4 || arb == 6 then
    (c.modTap n (fun t => { t with refBusy := false, roundDue := false })).endRound n stABORTED
  else c

/-- Entry to FAILED (R65). -/
def Chip.tapFail (n : Nat) (c : Chip) : Chip := (c.enterArb n 6).tapEvt 0x0405 n 0 0

/-- What the criteria's times are counted to: the newest sample of the tap's group (R68). -/
def Chip.critNow (c : Chip) (n : Nat) : Nat := (c.group (n / 16)).newest

/-- A criterion has held for `d` grid instants. -/
def critHeld (l : List CritRun) (i now d : Nat) : Bool :=
  match l[i]? with
  | some r => r.on && decide (r.since + d ≤ now)
  | none => false

/-- A criterion has been absent for 1 s. -/
def critGone (l : List CritRun) (i now : Nat) : Bool :=
  match l[i]? with
  | some r => !r.on && decide (r.since + 32000 ≤ now)
  | none => false

/-- A class OPEN, SHORT or EXCITATION that the primary chain shows and the check chain does not share, each judged
alone (R65). -/
def Chip.classAlone (c : Chip) (n cls : Nat) : Bool :=
  let t := c.tap n
  match cls with
  | 1 | 2 => critHeld t.critP cls (c.critNow n) 32000 && !critHeld t.critC cls (c.critNow n) 0
  | 5 => t.excP && !t.excC
  | _ => false

/-- A class that the check chain does not share ends ON_PRIMARY in FAILED (R65). -/
def Chip.primaryCheck (n : Nat) (l : List Nat) (c : Chip) : Chip :=
  if (c.tap n).arb = 3 ∧ l.any (c.classAlone n) = true then c.tapFail n else c

/-- A round starts; its window is excluded (R60). -/
def Tap.startRound (t : Tap) : Tap :=
  { t with refBusy := true, roundDue := false, winExcl := true, seen := t.hist.headD (0, 0) }

/-- Asks for a round (R60): it starts at a window start, at once where the window has only begun. -/
def Chip.askRound (n : Nat) (routine : Bool) (c : Chip) : Chip :=
  let t := c.tap n
  if t.refBusy then c
  else
    let t := { t with roundDue := true, routine := routine && (!t.roundDue || t.routine) }
    c.modTap n (fun _ => if t.winN = 0 then t.startRound else t)

/-- Entry to IDENT on a declared disagreement: event, and a round at once (R63). -/
def Chip.identStart (n : Nat) (c : Chip) : Chip :=
  ((c.modTap n (fun t => { t with arb := 2, rounds := 0, passRun := 0, failRun := 0 })).askRound n
    false).tapEvt 0x0401 n 0 0

/-- The over-range judgement of R65 for a tap in ON_CHECK. -/
def Chip.checkUnexplained (c : Chip) (n : Nat) : Bool :=
  let t := c.tap n
  let others := (((c.tapMps n).flatMap c.mpTaps).filter (· != n))
  let inRange := fun m => let o := c.tap m
    if o.winN = 0 then !o.ovrLatch else decide (o.winOvr = 0)
  t.arb == 4 && decide (0 < t.winOvrC) && decide (t.winOvrC * 50 < t.winN) && others.all inRange

/-- The end of a comparison window (R58, R59): it counts unless it is excluded; the third that
exceeds declares a disagreement. -/
def Chip.windowEnd (n : Nat) (c : Chip) : Chip :=
  let t := c.tap n
  let mode := c.tapMode n
  if mode = mOFF || t.arb == 0 then c else
  let bad := c.checkUnexplained n
  let tol := c.cf (0x40000 + 4 * (n / 16)) 8 8
  let exceed :=
    if mode = mPULSE then decide (2 < (t.winP - t.winC).natAbs)
    else decide (t.winN * (tol * tol * (calU * calU).toNat) < t.winSq * 100000000)
  let t1 := { t with
    winN := 0, winSq := 0, winP := 0, winC := 0, winPsq := 0, winOvr := 0, winOvrC := 0,
    winExcl := t.refBusy, rms := if t.winN = 0 then 0 else t.winPsq / t.winN,
    ovrLatch := decide (0 < t.winOvr),
    winRun := if t.winN < t.winOvr * 50 then max t.winRun 0 + 1 else min t.winRun 0 - 1 }
  let t2 := if t.winExcl then t1
    else if exceed then { t1 with cmpExceed := true, exceedRun := t.exceedRun + 1, clearRun := 0 }
    else { t1 with cmpExceed := false, exceedRun := 0, clearRun := t.clearRun + 1 }
  let declare_ := decide (3 ≤ t2.exceedRun) && !t2.disagree && !t.winExcl
  let c := c.modTap n (fun _ => { t2 with disagree := t2.disagree || declare_ })
  let c := if declare_ && t.arb == 1 then c.identStart n else c
  let c := if bad then c.tapFail n else c
  -- a round that waits starts at the window start (R60)
  c.modTap n (fun t => if t.roundDue && !t.refBusy then t.startRound else t)

/-- A routine slot (R61, R63): a routine round while REF_EN is set, but in ON_CHECK and FAILED (R64);
whatever REF_EN holds an identification round in UNRESOLVED. -/
def Chip.routineSlot (n : Nat) (c : Chip) : Chip :=
  let a := (c.tap n).arb
  if a == 5 then c.askRound n false
  else if (a == 1 || a == 2 || a == 3) && c.cb 0x40020 31 then c.askRound n true
  else c

/-- A round passes (R60). -/
def roundPass (pulse : Bool) (r : RefReading) : Bool :=
  if pulse then decide (1499 ≤ r.edges) && decide (r.edges ≤ 1501)
  else [r.zero, r.plus, r.minus].all (fun x => decide (x.natAbs ≤ 500))

/-- Verdict of an identification (R63 rules 1 and 2). -/
def Chip.verdict (n : Nat) (arb : BitVec 4) (v : Nat) (c : Chip) : Chip :=
  ((c.enterArb n arb).tapEvt 0x0404 n arb.toNat v).primaryCheck n [1, 2, 5]

/-- What a round adds to an identification (R63): a routine round in IDENT adds nothing (log 30), and a
pass counts towards rule 2 while the disagreement is declared. -/
def Tap.countRound (ok : Bool) (t : Tap) : Tap :=
  { t with rounds := satInc t.rounds, passRun := if ok && t.disagree then t.passRun + 1 else 0,
           failRun := if ok then 0 else t.failRun + 1 }

/-- A tap that has a shared element: LOOP with LOOP_PWR, RTD, BRIDGE (R61, R68). -/
def Chip.shares (c : Chip) (n : Nat) : Bool :=
  let m := c.tapMode n
  (m == mLOOP && (c.live (aTapMode n)).getLsbD 4) || m == mRTD || m == mBRIDGE

/-- The front-end monitor's measurement at a routine round (R61, R65): the shared element against its nominal value,
and each chain's conversion of the excitation, on the odd tap of a pair or the tap itself, against the monitor's. -/
def Chip.monitored (n : Nat) (x : Excitation) (c : Chip) : Chip :=
  let odd := n ||| 1
  let y := if c.tapMode n = mLOOP || n = odd then (c.tap n).seen else (c.tap odd).hist.headD (0, 0)
  let away := fun (v : Int) => decide (x.mon.natAbs * calU.toNat < (v * 1000000 - x.mon * calU).natAbs * 1000)
  c.modTap n (fun t => { t with excBad := decide (1000 < x.dev.natAbs), excP := away y.1, excC := away y.2 })

/-- The end of a reference round (R60, R63); a routine round brings the monitor's measurement (R61). DESIGN CHOICE:
the rounds of IDENT do not count toward the three in a row of UNRESOLVED (log 176). -/
def Chip.roundEnd (n : Nat) (r : RefReading) (c : Chip) : Chip :=
  let t := c.tap n
  if !t.refBusy then c else
  let c := match r.exc with
    | some x => if t.routine && c.shares n then c.monitored n x else c
    | none => c
  let ok := roundPass (c.tapMode n == mPULSE) r
  let counted := t.arb == 5 || (t.arb == 2 && !t.routine)
  let c := c.modTap n (fun t =>
    let t := { t with refBusy := false, lastRound := if ok then 1 else 2, routine := false }
    if counted then t.countRound ok else t)
  let c := c.endRound n (if ok then stOK else stINTEGRITY)
  let u := c.tap n
  if t.arb == 1 then
    if ok then c
    else (c.modTap n (fun t => { t with arb := 2, rounds := 1, failRun := 1, passRun := 0 })).tapEvt
      0x0401 n 0 0
  else if counted then
    if 3 ≤ u.failRun then c.verdict n 3 1
    else if 3 ≤ u.passRun then c.verdict n 4 2
    else if t.arb == 2 && decide (3 ≤ u.clearRun) && ok then
      (c.modTap n (fun t => { t with arb := 1, disagree := false, exceedRun := 0, rounds := 0 })).tapEvt
        0x0402 n 0 0
    else if t.arb == 2 && decide (10 ≤ u.rounds.toNat) then
      (c.modTap n (fun t => { t with arb := 5, rounds := 0, passRun := 0, failRun := 0 })).tapEvt
        0x0403 n 0 0
    else c
  else c

/-- The tamper type of a fault class: OPEN 4, SHORT 5 (R69). -/
def faultTamper (cls : BitVec 4) : Option Nat :=
  if cls = 1 then some 4 else if cls = 2 then some 5 else none

/-- Whether the table Tap fault classes gives a tap a class. -/
def Chip.faultFits (c : Chip) (n cls : Nat) : Bool :=
  let m := c.tapMode n
  let w := c.live (aTapMode n)
  match cls with
  | 1 => !c.oddOfPair n && (m == mLOOP || m == mRTD ||
      (w.getLsbD 11 && (m == mVOLT || m == mCURR || m == mROGO || m == mBRIDGE)))
  | 2 => !c.oddOfPair n && (m == mLOOP || m == mRTD)
  | 3 => m != mOFF
  | 4 => m == mLOOP
  | 5 => c.shares n
  | _ => false

/-- The class TAP_STATE.FAULT shows: the lowest code held (R68). -/
def Tap.shown (t : Tap) : BitVec 4 :=
  (([1, 2, 3, 4, 5].find? (fun i => t.held.getLsbD i)).map (BitVec.ofNat 4)).getD 0

/-- The criterion of a class has held for its time (R68): 1 s, five windows (log 175), or 10 ms of edges; `lost`: the
excitation compliance of an RTD has been lost for 1 s. -/
def Chip.critDue (c : Chip) (n cls : Nat) (lost : Bool) : Bool :=
  let t := c.tap n
  let now := c.critNow n
  match cls with
  | 3 => decide (5 ≤ t.winRun) || critHeld t.crit 0 now 32000 || critHeld t.crit 3 now 0
  | 1 => critHeld t.crit 1 now 32000 || (lost && c.tapMode n == mRTD)
  | _ => critHeld t.crit cls now 32000

/-- The criterion of a class has been absent for 1 s (R68). -/
def Chip.critOver (c : Chip) (n cls : Nat) (lost : Bool) : Bool :=
  let t := c.tap n
  let now := c.critNow n
  match cls with
  | 3 => decide (t.winRun ≤ -5) && critGone t.crit 0 now && critGone t.crit 3 now
  | 1 => critGone t.crit 1 now && !(lost && c.tapMode n == mRTD)
  | _ => critGone t.crit cls now

/-- A fault class is held (R68, R69): OPEN and SHORT of a tap of a defined meter point write their tamper record. -/
def Chip.faultSet (n : Nat) (cls : BitVec 4) (c : Chip) : Chip :=
  let t := c.tap n
  let t' := { t with held := t.held ||| BitVec.ofNat 6 (2 ^ cls.toNat) }
  let c := c.modTap n (fun _ => { t' with fault := t'.shown })
  if t.held.getLsbD cls.toNat then c else
  let c := c.tapEvt 0x0406 n cls.toNat 0
  match faultTamper cls with
  | some ty => if (c.tapMps n).isEmpty then c else c.tamperStart ty n c.now
  | none => c

/-- A fault class is declared once its criterion has held (R68), and the chains are judged alone (R65). -/
def Chip.faultDeclare (n : Nat) (cls : BitVec 4) (lost : Bool) (c : Chip) : Chip :=
  if (c.tap n).arb = 0 ∨ c.faultFits n cls.toNat = false then c else
  let c := if c.critDue n cls.toNat lost then c.faultSet n cls else c
  c.primaryCheck n [cls.toNat]

/-- A held class clears (R68, R222); the lowest that is still held shows. -/
def Chip.faultDrop (n cls : Nat) (c : Chip) : Chip :=
  let t := c.tap n
  if !t.held.getLsbD cls then c else
  let t' := { t with held := t.held &&& ~~~ BitVec.ofNat 6 (2 ^ cls) }
  let c := c.modTap n (fun _ => { t' with fault := t'.shown })
  match faultTamper (BitVec.ofNat 4 cls) with
  | some ty => c.tamperEnd ty n c.now
  | none => c

/-- Every class whose criterion has been absent for 1 s clears (R68). -/
def Chip.faultClear (n : Nat) (lost : Bool) (c : Chip) : Chip :=
  each ([1, 2, 3, 4, 5].filter (fun i => c.critOver n i lost)) (Chip.faultDrop n) c

/-- NOAC (R57). -/
def Chip.zcTimeout (n : Nat) (c : Chip) : Chip :=
  if c.zcOn n then c.modTap n (fun t => { t with noac := true, zcPos := 0, zcNeg := 0 }) else c

/-- TAP_STATE[n] (03). -/
def Tap.stateWord (t : Tap) : W32 :=
  w32 (t.fault.toNat * 2 ^ 28 + t.arb.toNat * 2 ^ 24 + t.rounds.toNat * 2 ^ 20
    + t.lastRound.toNat * 2 ^ 18 + t.glitch.toNat * 16 + b2n t.noac * 8 + b2n t.ovr * 4
    + b2n t.refBusy * 2 + b2n t.cmpExceed)

/-- Whether any used tap of meter point m is in a state other than NORMAL (R66). -/
def Chip.mpDegraded (c : Chip) (m : Nat) : Bool :=
  (c.mpTaps m).any (fun n => (c.tap n).arb != 1)

/-- The PHASE_LOSS criterion of meter point m (R224): the taps that have lost their phase. -/
def Chip.phaseLost (c : Chip) (m : Nat) : List Nat :=
  let v := (c.mpTaps m).filter (fun n => c.tapMode n == mVOLT)
  let hi := (v.map (fun n => (c.tap n).rms)).foldl max 0
  if v.length < 2 ∨ hi * 100 < (calU * calU).toNat then []
  else v.filter (fun n => decide ((c.tap n).rms * 100 < hi))

/-- PHASE_LOSS starts or ends on the taps of a meter point (R224); UNIT names the tap. -/
def Chip.phaseLossCheck (m : Nat) (c : Chip) : Chip :=
  let low := c.phaseLost m
  let on := fun n => (c.trec 6).holders.any (fun h => h.1 == n)
  let ends := (c.mpTaps m).filter (fun n => on n && !low.contains n)
  let starts := low.filter (fun n => !on n)
  each starts (fun n c => c.tamperStart 6 n c.now) (each ends (fun n c => c.tamperEnd 6 n c.now) c)

end Sys2Proof.Machine
end

