-- ==== Sys2Proof/Machine/EngineCore.lean ====
section
/-! DEFINITION. Quantity engines, the part that concerns context (04): the order of context
events (R75), the context they make, the point tables (R104, R131), delivery of an event to an
engine with sidesteps, late events and the log (R80, R81, R84, R422), and the direction units
(R150-R152). -/

namespace Sys2Proof.Machine

open Sys2Proof

/-- RUN codes of QE_STATE. -/
def ruUNLOADED : BitVec 4 := 0
def ruLOADING : BitVec 4 := 1
def ruRUN : BitVec 4 := 2
def ruSIDESTEP : BitVec 4 := 3
def ruRECOVER : BitVec 4 := 4
def ruRESTART : BitVec 4 := 5
def ruHALTED : BitVec 4 := 6
def ruFAILED : BitVec 4 := 7

/-- The place of a change among events of one stamp (R75). -/
def chRank : CtxChange → Nat
  | .clockStep => 0
  | .tzCommit => 1
  | .demandClose _ => 2
  | .billingClose => 3
  | .tariffSwitch _ => 4
  | .calendar _ => 5
  | .quality _ _ _ => 6
  | .direction _ _ => 7
  | .legal _ _ _ _ => 8
  | .chainReset _ => 8
  | .modeSet _ => 8
  | .billZero => 8
  | .sessClose _ _ _ => 9
  | .sessOpen _ _ _ => 10

/-- The meter point that orders quality changes of one stamp (R75). -/
def chMp : CtxChange → Nat
  | .quality mp _ _ => mp
  | _ => 0

/-- The order of changes of one stamp: that of R75, but that the close before a redefinition of its meter point comes
before the legal change (R182). -/
def chOrder : CtxChange → Nat
  | .sessClose _ _ .redefined => 15
  | ch => 2 * chRank ch

/-- A change that makes a boundary gate due at its stamp (R77); none for a session the billing block closes without
its engine (R183). -/
def chBoundary : CtxChange → Bool
  | .billingClose => true
  | .legal _ _ _ _ => true
  | .chainReset _ => true
  | .modeSet _ => true
  | .billZero => true
  | .sessClose _ _ how => how != .billed
  | .sessOpen _ _ _ => true
  | _ => false

/-- Event a comes before event b: by stamp, boundaries that a step skips in the order of their civil instants (R190),
the others by R75. -/
def evBefore (a b : CtxEv) : Bool :=
  decide (a.stamp < b.stamp) ||
  (a.stamp == b.stamp &&
    (if a.ord ≠ 0 ∧ b.ord ≠ 0 then decide (a.ord < b.ord)
     else decide (chOrder a.change < chOrder b.change) ||
       (chOrder a.change == chOrder b.change && decide (chMp a.change < chMp b.change))))

/-- Inserts an event behind its equals. -/
def insEv (x : CtxEv) : List CtxEv → List CtxEv
  | [] => [x]
  | y :: t => if evBefore x y then x :: y :: t else y :: insEv x t

/-- Updates the context of meter point m. -/
def EngCtx.modMp (m : Nat) (f : MpCtx → MpCtx) (x : EngCtx) : EngCtx :=
  { x with mps := Tbl.put {} x.mps m (f (Tbl.get {} x.mps m)) }

/-- The context of meter point m. -/
def EngCtx.mp (x : EngCtx) (m : Nat) : MpCtx := Tbl.get {} x.mps m

/-- The effect of a change on the context (R74). -/
def EngCtx.apply (ch : CtxChange) (x : EngCtx) : EngCtx :=
  match ch with
  | .clockStep => x
  | .tzCommit => x
  | .demandClose n => { x with interval := n }
  | .billingClose => x
  | .tariffSwitch t => { x with cal := t }
  | .calendar t => { x with cal := t }
  | .quality mp par v =>
    { x with params := match v with
        | some v => Tbl.ins x.params (16 * mp + par) v
        | none => Tbl.del x.params (16 * mp + par) }
  | .direction mp rev => x.modMp mp (fun y => { y with rev := rev })
  | .legal _ bank resets quals =>
    resets.foldl (fun x m => x.modMp m (fun y => { y with rev := false }))
      { x with bank := bank, params := x.params.filter (fun p => !quals.contains (p.1 / 16)) }
  | .chainReset _ => x
  | .modeSet f => { x with notLegal := f }
  | .billZero => x
  | .sessClose mp _ _ => x.modMp mp (fun y => { y with session := 0, fix := 0 })
  | .sessOpen mp no fixed => x.modMp mp (fun y => { y with session := no, fix := fixed })

/-- CTX.TARIFF of meter point m: the fixed tariff of its session, else the calendar's (R180). -/
def EngCtx.tariff (x : EngCtx) (m : Nat) : BitVec 6 :=
  if (x.mp m).fix = 0 then x.cal else (x.mp m).fix

/-- The direction units a change resets (R153). -/
def chResets : CtxChange → List Nat
  | .legal _ _ l _ => l
  | _ => []

/-- The meter points whose engine is k, in ascending order (R11). -/
def Chip.engMps (c : Chip) (k : Nat) : List Nat :=
  (List.range 64).filter (fun m => c.mpEngine m == some k)

/-- Factor F of a unit code (R136). -/
def unitF (code : Nat) : Option Nat :=
  match code with
  | 0x01 => some 3600000
  | 0x02 => some 3600000
  | 0x03 => some 3600000
  | 0x04 => some 3600000000
  | 0x05 => some 1000000000
  | 0x06 => some 1
  | 0x07 => some 1000
  | 0x08 => some 1
  | 0x09 => some 1
  | 0x0A => some 3600
  | 0x0B => some 1
  | _ => none

/-- EXP of a slot word, signed. -/
def slotExp (w : W32) : Int := (BitVec.ofNat 8 (fld w 16 8)).toInt

/-- SF of a slot (R131): counts per sample for a rate of one base unit per second. -/
def slotSF (d : Nat) (w : W32) : W64 :=
  if !w.getLsbD 31 then 0 else
  match unitF (fld w 0 8) with
  | none => 0
  | some f =>
    let e := slotExp w
    f64OfRat ((d * 31250 * 10 ^ (-e).toNat : Nat) : Int) (1000000000 * f * 10 ^ e.toNat)

/-- A binary64 value held in two registers, low word first (07). -/
def two (rd : Nat → W32) (a : Nat) : W64 := rd (a + 4) ++ rd a

/-- One entry of the point table (R131). -/
def ptEntry (rd : Nat → W32) (d j m : Nat) : List (Nat × W64) :=
  let b := 0x100 + 0xF0 * j
  let n64 := fun (n : Nat) => BitVec.ofNat 64 n
  let role := fun r => let x := fld (rd (aMp m + 4 + 4 * (r / 4))) (8 * (r % 4)) 8
    if 128 ≤ x then n64 (x % 16) else 16
  [(b, n64 m), (b + 8, n64 (fld (rd (aMp m)) 0 8))]
  ++ (List.range 8).map (fun r => (b + 0x10 + 8 * r, role r))
  ++ (List.range 8).map (fun s => (b + 0x50 + 8 * s, slotSF d (rd (aMp m + 0x80 + 4 * s))))
  ++ (List.range 12).map (fun i => (b + 0x90 + 8 * i, two rd (aMp m + 0x20 + 8 * i)))

/-- Whether meter point m is defined on group k under a reader. -/
def mpOn (rd : Nat → W32) (k m : Nat) : Bool :=
  (rd (aMp m)).getLsbD 31 &&
  (match (List.range 8).find? (fun r => fld (rd (aMp m + 4 + 4 * (r / 4))) (8 * (r % 4)) 8 ≥ 128) with
   | some r => fld (rd (aMp m + 4 + 4 * (r / 4))) (8 * (r % 4)) 8 % 128 / 16 == k
   | none => false)

/-- The point table of engine k (R131) with its bank bit, by byte address. -/
def ptab (rd : Nat → W32) (k : Nat) (bank : Bool) : Tbl W64 :=
  let d := 8 / 2 ^ fld (rd (0x40000 + 4 * k)) 0 2
  let ms := ((List.range 64).filter (mpOn rd k)).take 16
  let es := (ms.zipIdx.map (fun p => ptEntry rd d p.2 p.1)).flatten
  ((0, BitVec.ofNat 64 ms.length) :: (8, b2x bank) :: (0x10, 1) :: es).foldl
    (fun t p => Tbl.put 0 t p.1 p.2) []

/-- The meter point of an entry's parameter address in a point table, if the address is one. -/
def ptParam (t : Tbl W64) (a : Nat) : Option (Nat × Nat) :=
  if a < 0x100 then none else
  let j := (a - 0x100) / 0xF0
  let o := (a - 0x100) % 0xF0
  if 0x90 ≤ o ∧ j < 16 then some ((Tbl.get 0 t (0x100 + 0xF0 * j)).toNat, (o - 0x90) / 8) else none

/-- Restores data memory as it stood at gate g, through an undo log, newest first (R79, R80). -/
def undoTo (g : Nat) : List Undo → Mem → Mem
  | [], m => m
  | u :: t, m => undoTo g t (if g ≤ u.seg then Mem.wr64 m u.word u.old else m)

/-- A checkpoint restored into a thread (R76): one that a GATE took goes on behind it. -/
def Thread.ofCkpt (ck : Ckpt) : Thread :=
  let t : Thread := { x := ck.x, w := ck.w, ctx := ck.ctx, dirs := ck.dirs }
  match ck.gatePos with
  | none => t
  | some p => { t with pc := p.pc, link := p.link, loops := p.loops, six := p.six, busy := true,
                       gateDone := true, marked := p.marked, atGate := some ck }

/-- The instant at which processing goes on from a checkpoint at s. -/
def Ckpt.pos (ck : Ckpt) (s : Nat) : Nat := (ck.gatePos.map GatePos.six).getD s

/-- The checkpoint of a thread between instants (R76). -/
def Thread.ckpt (t : Thread) : Ckpt := { x := t.x, w := t.w, ctx := t.ctx, dirs := t.dirs }

/-- What a GATE captures: the thread behind it (R76, R114). -/
def Thread.capture (t : Thread) : Ckpt :=
  { t.ckpt with gatePos := some { pc := t.pc, link := t.link, loops := t.loops, six := t.six,
                                  marked := t.marked } }

/-- The checkpoint of a gate at the thread's next instant: what the GATE of the instant before it captured,
or would have captured (R114). -/
def Thread.gateCk (t : Thread) : Ckpt := t.atGate.getD t.ckpt

/-- An event stamped e lies behind a thread whose instant is `pos`: it would have had to take effect before
what the thread has done (R80, R81). -/
def Thread.behind (t : Thread) (pos e : Nat) : Bool :=
  if t.busy && !t.inInit then decide (e ≤ pos) else decide (e < pos)

/-- The latest gate at or before e: an outstanding gate, or c (R80). -/
def Engine.gateAt (e : Nat) (q : Engine) : Nat × Ckpt :=
  match (q.gates.filter (fun g => decide (g.six ≤ e))).getLast? with
  | some g => (g.six, g.ck)
  | none => (q.c, q.ck)

/-- Joins segments that follow one another into one that starts at the first. -/
def joinSegs (start : Nat) (l : List Seg) : Seg :=
  { start := start, bins := l.flatMap Seg.bins, spills := l.flatMap Seg.spills,
    items := l.flatMap Seg.items, trace := l.flatMap Seg.trace,
    saveShort := l.any Seg.saveShort }

/-- What a segment holds from an instant on. -/
def Seg.cut (from_ : Nat) (s : Seg) : Seg :=
  { s with start := max s.start from_, bins := s.bins.filter (fun b => decide (from_ ≤ b.six)),
           spills := s.spills.filter (fun x => decide (from_ ≤ x.1)),
           items := s.items.filter (fun x => decide (from_ ≤ x.six)),
           trace := s.trace.filter (fun x => decide (from_ ≤ x.1)) }

/-- Data memory and undo entries of the thread a sidestep goes back on: the replay thread's while
one runs, else the head's. -/
def Engine.past (q : Engine) : Mem × List Undo :=
  if q.run = ruSIDESTEP then (q.rmem, q.rundo ++ q.undo.filter (fun u => decide (u.seg < q.ssG)))
  else (q.mem, q.undo)

/-- Data memory as it stood at gate g (R79, R80). -/
def Engine.memAt (g : Nat) (q : Engine) : Mem := undoTo g q.past.2 q.past.1

/-- The segments of gates that are void come before an open segment again. -/
def unvoid (gs : List Gate) (s : Seg) : Seg :=
  match gs with
  | [] => s
  | v :: _ => joinSegs v.seg.start (gs.map Gate.seg ++ [s])

/-- Steps 1 and 2 of the table Sidestep: gates after g are void, and what the head's own held returns
to its open segment (the head may still be forced, R83); the replay thread starts from the checkpoint
at g with data memory as it stood there (R80). -/
def Engine.sidestep (e : Nat) (q : Engine) : Engine :=
  let g := q.gateAt e
  let ss := q.run == ruSIDESTEP
  let own := q.gates.filter (fun x => decide (g.1 < x.six) && (!ss || decide (x.six ≤ q.ssG)))
  let kept := if ss then q.rundo.filter (fun u => decide (u.seg < g.1)) else []
  { q with run := ruSIDESTEP, gates := q.gates.filter (fun x => decide (x.six ≤ g.1)),
           seg := unvoid own q.seg,
           mark := { q.mark with seg := unvoid (own.filter (fun x => x.six ≤ q.mark.six)) q.mark.seg },
           rep := Thread.ofCkpt g.2, rpos := g.2.pos g.1, rseg := { start := g.1 }, rmark := {},
           rmem := q.memAt g.1, rundo := kept, overlay := (kept.map Undo.word).dedup,
           ssG := (if ss then min q.ssG g.1 else g.1), ssFrom := (if ss then min q.ssFrom e else e),
           ssEvs := (if ss then q.ssEvs else []), ssCtx := satInc q.ssCtx }

/-- The replay thread's state becomes the engine's only state (R80 step 5, R79, R86). -/
def Engine.adopt (q : Engine) : Engine :=
  { q with head := q.rep, hpos := q.rpos, seg := q.rseg, mark := q.rmark, mem := q.rmem,
           undo := q.rundo ++ q.undo.filter (fun u => decide (u.seg < q.ssG)),
           rep := {}, rmem := [], rundo := [], overlay := [], rseg := {}, rmark := {} }

/-- The engine goes back in place to a gate (R86, R79). -/
def Engine.goBack (g : Nat × Ckpt) (q : Engine) : Engine :=
  { q with run := if q.run = ruLOADING ∨ q.run = ruRESTART then q.run else ruRECOVER,
           gates := q.gates.filter (fun x => decide (x.six ≤ g.1)),
           head := Thread.ofCkpt g.2, hpos := g.2.pos g.1, seg := { start := g.1 },
           mem := undoTo g.1 q.undo q.mem, undo := q.undo.filter (fun u => decide (u.seg < g.1)),
           stalled := false }

/-- The latest gate: the newest outstanding one, or c (R86). -/
def Engine.lastGate (q : Engine) : Nat × Ckpt :=
  match q.gates.getLast? with
  | some g => (g.six, g.ck)
  | none => (q.c, q.ck)

/-- A late event waits for the next gate (R84). -/
def Engine.addLate (ev : CtxEv) (q : Engine) : Engine :=
  { q with late := q.late ++ [ev], lateCnt := satInc q.lateCnt }

/-- An event behind the head of a running engine (R80, R81): a sidestep, in stride for one that is
ahead of the replay thread; an engine that replays in place goes back once more, and one that catches up
keeps c as the start of its RETRACT (R87 step 5). While a forced gate waits for its GATE the sidestep would be
abandoned (R83), so the event is late. DESIGN CHOICE: an event taken in stride leaves the RETRACT range as it
stands, also where its stamp lies before the one that started the sidestep (log 161). -/
def Engine.acceptBehind (ev : CtxEv) (q : Engine) : Engine :=
  let log := insEv ev q.log
  if q.forceDue then q.addLate ev
  else if q.run = ruRUN then
    let q := ({ q with log := log } : Engine).sidestep ev.stamp
    { q with ssEvs := q.ssEvs ++ [ev] }
  else if q.run = ruSIDESTEP then
    let q : Engine := { q with log := log }
    let q := if q.rep.behind q.rpos ev.stamp then q.sidestep ev.stamp else q
    { q with ssEvs := q.ssEvs ++ [ev] }
  else
    let rec_ := q.run == ruRECOVER
    { q.goBack (q.gateAt ev.stamp) with
      log := log, ssEv := q.ssEv || rec_,
      ssFrom := (if !rec_ then q.ssFrom else if q.ssEv then min q.ssFrom ev.stamp else ev.stamp),
      ssCtx := satInc q.ssCtx }

/-- A context event reaches an engine that runs or catches up (R80, R81, R84): while it runs a full log
forces a gate (R88, R422). -/
def Engine.accept (ev : CtxEv) (q : Engine) : Engine :=
  if ev.stamp < q.c then q.addLate ev
  else
    let began := q.run ≠ ruLOADING ∧ q.run ≠ ruRESTART ∨ q.reloaded
    let q := if began ∧ q.head.behind q.hpos ev.stamp then q.acceptBehind ev
      else { q with log := insEv ev q.log }
    let full := 2 ≤ q.run.toNat ∧ q.run.toNat ≤ 4 ∧ 256 < q.log.length
    { q with forceDue := q.forceDue || decide full }

/-- Whether an engine is stopped, so that SV only keeps its log (R422): HALTED, FAILED, or resuming from
one of them. -/
def Engine.logs (q : Engine) : Bool :=
  q.run == ruHALTED || q.run == ruFAILED || (q.run == ruRESTART && q.resume)

/-- What a change does to the direction units: a reset (R153), or a confirmed reversal, which changes
the direction from its stamp and closes the candidate that led to it (R152). -/
def applyDirs (ch : CtxChange) (dirs : Tbl DirUnit) : Tbl DirUnit :=
  match ch with
  | .direction m rev =>
    let u := Tbl.get {} dirs m
    if u.rev = rev then dirs
    else Tbl.put {} dirs m { u with rev := rev, openCand := false, band := false }
  | _ => (chResets ch).foldl (fun x m => Tbl.put {} x m {}) dirs

/-- A stopped engine's log (R422): a RESTART keeps every event; HALTED and FAILED, and an engine that holds no
program, fold the oldest of 256 entries into the base context. -/
def Engine.logOnly (ev : CtxEv) (q : Engine) : Engine :=
  let log := insEv ev q.log
  if q.run = ruRESTART then { q with log := log }
  else match log with
    | x :: t =>
      if 256 < log.length then
        { q with log := t, base := q.base.apply x.change, baseDirs := applyDirs x.change q.baseDirs }
      else { q with log := log }
    | [] => q

/-- A stamped context event reaches engine k (R74, R80, R84, R422): an event behind c is late also while the
engine is stopped. A source that delivers an event at or before its own horizon raises HZN_BREACH. An UNLOADED
engine's events are kept for the load that may follow (R130). -/
def Chip.toEngine (k : Nat) (ev : CtxEv) (c : Chip) : Chip :=
  let q := c.eng k
  if q.run = ruUNLOADED then c.modEng k (Engine.logOnly ev) else
  let c := if ev.stamp ≤ Tbl.get 0 q.hz ev.src ∧ Tbl.get 0 q.hz ev.src ≠ 0 then
      c.raise 0x0501 k (w32 ev.src) (w32 ev.stamp)
    else c
  c.modEng k (if q.logs && decide (q.c ≤ ev.stamp) then Engine.logOnly ev else Engine.accept ev)

/-- Delivers an event to every engine. -/
def Chip.toEngines (ev : CtxEv) (c : Chip) : Chip := each engs8 (fun k c => c.toEngine k ev) c

/-- The next sample instant of engine k's group. -/
def Chip.nextStamp (c : Chip) (k : Nat) : Nat := c.nextSample k

/-- Sum of the absolute value scaled: |f| >= b * (num / 100) for the mean f = sum / n. -/
def meanGe (sum : Int) (n : Nat) (b : W64) (num : Nat) : Bool :=
  decide ((fFix b) * num * n ≤ (sum.natAbs : Int) * 100)

/-- One MARK value fed to a direction unit at an instant (R150-R152): the unit after it, and the
stamp of a confirmed reversal. -/
def DirUnit.mark (cfg : W32) (cut band : W64) (six : Nat) (v : W64) (u : DirUnit) :
    DirUnit × Option Nat :=
  let n := fld cfg 0 12
  let x := fFix v
  let hist := x :: u.hist
  let old := if n < hist.length then hist.getLastD 0 else 0
  let hist := hist.take n
  let sum := u.sum + x - old
  let len := hist.length
  let cutEn := cfg.getLsbD 31
  let cutoff :=
    if !cutEn then false
    else if u.cutoff then !(meanGe sum len cut (100 + fld cfg 24 7))
    else !(meanGe sum len cut 100)
  let u := { u with hist := hist, sum := sum, cutoff := cutoff }
  let opposite := if u.rev then decide (0 < sum) else decide (sum < 0)
  if cutoff || !opposite then ({ u with openCand := false, band := false }, none)
  else
    let z := if u.openCand then u.candAt else six
    let b := (u.openCand && u.band) || meanGe sum len band 100
    if b && decide (fld cfg 12 12 * 32 ≤ six - z) then
      ({ u with rev := !u.rev, openCand := false, band := false }, some z)
    else ({ u with openCand := true, candAt := z, band := b }, none)

/-- The DIR horizon of engine k (R74): one sample before the earliest open candidate crossing of
the head's units, or H - D. -/
def Chip.dirHorizon (c : Chip) (k : Nat) : Nat :=
  let q := c.eng k
  let d := c.gridDAt k (q.hpos - 1)
  match (q.head.dirs.filter (fun p => p.2.openCand)).map (fun p => p.2.candAt) with
  | [] => q.hpos - d
  | z :: t => t.foldl min z - d

/-- The QUAL horizon (R74): one sample before the earliest outstanding request, or the newest
sample instant. -/
def Chip.qualHorizon (c : Chip) (k : Nat) : Nat :=
  match c.bill.mps.filterMap (fun p => p.2.qreq) with
  | [] => (c.group k).newest
  | z :: t => let z := t.foldl min z
    z - c.gridDAt k (z - 1)

/-- The TIME horizon (R74, R200): the frozen span of the mapping, or the newest sample while
TIME_VALID is clear. -/
def Chip.timeHorizon (c : Chip) (k : Nat) : Nat :=
  if c.time.valid then c.time.horizon else (c.group k).newest

/-- Publishes a source's horizon (R74): a value below the current one is ignored. -/
def Chip.publish (k src : Nat) (c : Chip) : Chip :=
  let h := match src with
    | 0 => c.timeHorizon k
    | 1 => c.dirHorizon k
    | 2 => c.qualHorizon k
    | _ => (c.group k).newest
  c.modEng k (fun q => { q with hz := Tbl.put 0 q.hz src (max (Tbl.get 0 q.hz src) h) })

/-- The horizons that hold the oldest outstanding gate: bit 0 TIME to bit 3 CMD (QE_STATE). -/
def Chip.holdBits (c : Chip) (k : Nat) : Nat :=
  let q := c.eng k
  match q.gates with
  | [] => 0
  | g :: _ =>
    let d := c.gridDAt k (g.six - 1)
    ((List.range 4).map (fun s => b2n (decide (Tbl.get 0 q.hz s < g.six - d)) * 2 ^ s)).sum

/-- The quality values in force as overrides of parameters (R148). -/
def Chip.qualParams (c : Chip) : Tbl W64 :=
  c.bill.mps.foldl (fun t p => match p.2.qval with
    | some q => Tbl.ins t (16 * p.1 + q.1) q.2
    | none => t) []

/-- The fixed tariff of a session, 0 when it follows the calendar (R180). -/
def Session.fixed (s : Session) : BitVec 6 := if s.no = 0 then 0 else (s.desc.getD 0x21 0).setWidth 6

/-- The context a freshly loaded engine starts from: tariffs, direction, interval, sessions, quality values
and the flags in force. -/
def Chip.freshCtx (c : Chip) (_k : Nat) : EngCtx :=
  let base : EngCtx :=
    { notLegal := c.sys.commission, interval := c.bill.win.no, cal := c.tariff.inForce, params := c.qualParams }
  (List.range 64).foldl (fun x m => x.modMp m (fun _ =>
    let s := Tbl.get ({} : Session) c.bill.sess m
    { rev := (Tbl.get ({} : MpState) c.bill.mps m).dirC, session := if s.applied then s.no else 0,
      fix := if s.applied then s.fixed else 0 })) base

/-- Direction units as they start: the committed direction, nothing else (R210). -/
def Chip.freshDirs (c : Chip) (k : Nat) : Tbl DirUnit :=
  (c.engMps k).foldl (fun t m => Tbl.put {} t m
    { rev := (Tbl.get ({} : MpState) c.bill.mps m).dirC }) []

end Sys2Proof.Machine
end

