-- ==== Sys2Proof/Machine/Drives.lean ====
section
/-! DEFINITION. The output drives (13) and what the safety channels grant them (R285, R292). -/

namespace Sys2Proof.Machine

open Sys2Proof

/-- Drive n. -/
def Chip.drive (c : Chip) (n : Nat) : Drive := Tbl.get {} c.drv.d n

/-- Updates drive n. -/
def Chip.modDrive (n : Nat) (f : Drive → Drive) (c : Chip) : Chip :=
  c.modDrv (fun x => { x with d := Tbl.put {} x.d n (f (Tbl.get {} x.d n)) })

/-- The drives of a die. -/
def dieDrives (d : Nat) : List Nat := (List.range 8).map (fun i => 8 * d + i)

/-- All drives. -/
def drives48 : List Nat := List.range 48

/-- OWNER of drive n: 0 none, 1 bay, 2 host, 3 pulse spill (R284). -/
def Chip.drvOwner (c : Chip) (n : Nat) : Nat := c.cf (aDcfg n) 30 2

/-- Whether drive n hangs on VOUT_B. -/
def onVoutB (n : Nat) : Bool := decide (24 ≤ n)

/-- Zone k as a channel keeps it. -/
def SafeChan.zone (x : SafeChan) (k : Nat) : Zone := Tbl.get {} x.zones k

/-- A channel grants zone k: the zone is in GRANT, and neither the SAFE condition nor a reloaded
SF short of 1 s of agreement makes the channel cut every drive (R291, R292, R287). -/
def Chip.chanGrants (c : Chip) (ch : SafeChan) (k : Nat) : Bool :=
  (ch.zone k).st == 2 && !c.safeCond && decide (1000 ≤ c.safe.agreeing)

/-- Both channels grant zone k (R285). -/
def Chip.zoneGranted (c : Chip) (k : Nat) : Bool :=
  c.safe.sfUp && c.safe.edgeUp && c.chanGrants c.safe.sf k && c.chanGrants c.safe.edge k

/-- Both channels grant drive n; standard drives need no grant. -/
def Chip.drvGranted (c : Chip) (n : Nat) : Bool :=
  decide (n < 40) || c.zoneGranted ((n - 40) / 2)

/-- BAY_TRIP_MAP names drive n (CG6). -/
def Chip.inTripMap (c : Chip) (n : Nat) : Bool :=
  if n < 32 then c.cb 0xC0004 n else c.cb 0xC0008 (n - 32)

/-- The pilot gate is closed: PILOT_GATE and a confirmed state other than C (3) and D (4) (R255). -/
def Chip.pilotGate (c : Chip) : Bool :=
  c.cb 0xC0000 26 && !(c.bay.pilotState == 3 || c.bay.pilotState == 4)

/-- Pilot gate or bay trip holds drive n off (R255, R265). -/
def Chip.gateHolds (c : Chip) (n : Nat) : Bool := c.inTripMap n && (c.pilotGate || c.bay.trip)

/-- The tandem-standby cause holds drive n off: on a standby every standard drive, and a safety
drive while the active module's heartbeat shows its own commanded off (R385, R386). -/
def Chip.standbyHolds (c : Chip) (n : Nat) : Bool :=
  c.pair.role == 2 && (decide (n < 40) || !c.pair.pSafe.getLsbD (n - 40))

/-- PAIR_MISMATCH keeps D00-D39 off (R20). -/
def Chip.postHolds (c : Chip) (n : Nat) : Bool := c.pair.mismatch && decide (n < 40)

/-- Modes that forbid turning drive n on (R119, the table Hold-off causes): HOLDOVER without
KEEP, QUARANTINE on a bay-owned drive, RETIRED. -/
def Chip.modeHolds (c : Chip) (n : Nat) : Bool :=
  (c.power.onAux && !c.cb (aDcfg n) 27) || (c.sys.qcause != 0 && c.drvOwner n == 1) || c.retired

/-- Under-voltage of the supply of drive n (R269). -/
def Chip.uvHolds (c : Chip) (n : Nat) : Bool := if onVoutB n then c.drv.uvB else c.drv.uvA

/-- The die-local causes: thermal latch, over-current wait or lock, under-voltage (R280). -/
def Chip.dieHolds (c : Chip) (n : Nat) : Bool :=
  let d := c.drive n
  d.therm || d.ocWait || d.ocLock || c.uvHolds n

/-- Any cause of the table Hold-off causes but the phase. -/
def Chip.causeHolds (c : Chip) (n : Nat) : Bool :=
  c.dieHolds n || c.gateHolds n || c.modeHolds n || c.standbyHolds n || c.postHolds n
    || !c.drvGranted n

/-- The output of drive n (R278-R280). In the hold window the die's frozen command counts, in the fail state
what the die kept at its entry; a limp-home drive follows its LH input and obeys the die-local causes alone. -/
def Chip.driveOn (c : Chip) (n : Nat) : Bool :=
  let d := c.drive n
  if d.phase = 3 then c.drv.lh.getLsbD (fld d.lhMap 0 3) && !c.dieHolds n
  else if d.phase = 2 ∨ d.phase = 1 then d.frozen && !c.causeHolds n
  else d.cmd && !c.causeHolds n

/-- The first 10 ms after a turn-on of a drive with LAMP (R272). -/
def Chip.inLamp (c : Chip) (n : Nat) : Bool :=
  c.cb (aDcfg n) 26 && ((c.drive n).onAt.any (fun t => decide (c.now < t + 320)))

/-- In current limit: the measured current stands at the limit, 8.0 A in the LAMP span, 6.0 A or 2.5 A (R272). -/
def Chip.driveLimit (c : Chip) (n : Nat) : Bool :=
  let lim := if 40 ≤ n then 250 else if c.inLamp n then 800 else 600
  c.driveOn n && decide (lim ≤ (c.drive n).current.toNat)

/-- The turn-on of a drive with LAMP starts its span (R272). -/
def Chip.lampStart (old c : Chip) : Chip :=
  let maybe := c.drv.d.filter (fun p => (p.2.cmd || p.2.frozen || p.2.phase == 3) && c.cb (aDcfg p.1) 26)
  each maybe (fun p c =>
    if c.driveOn p.1 && !old.driveOn p.1 then c.modDrive p.1 (fun d => { d with onAt := some c.now }) else c) c

/-- The DRV_STATE word (13). -/
def Chip.drvWord (c : Chip) (n : Nat) : W32 :=
  let d := c.drive n
  let on := c.driveOn n
  w32 (b2n on * 2 ^ 31 + b2n d.cmd * 2 ^ 30 + d.phase.toNat * 2 ^ 28 + b2n d.therm * 2 ^ 27
    + b2n d.ocWait * 2 ^ 26 + b2n d.ocLock * 2 ^ 25 + b2n (c.uvHolds n) * 2 ^ 24
    + b2n (c.gateHolds n) * 2 ^ 23
    + b2n (c.modeHolds n || c.standbyHolds n || c.postHolds n) * 2 ^ 22
    + b2n (!c.drvGranted n) * 2 ^ 21 + b2n d.openL * 2 ^ 20 + b2n d.shortHi * 2 ^ 19
    + b2n d.clampBad * 2 ^ 18 + b2n (c.driveLimit n) * 2 ^ 17 + d.retryLeft.toNat * 2 ^ 12
    + (if on then d.current.toNat else 0))

/-- DRV_DIE[d] (13). -/
def Chip.dieWord (c : Chip) (d : Nat) : W32 :=
  let tj := min 127 ((dieDrives d).foldl (fun a n => max a (c.drive n).tj) (-128))
  let i := ((dieDrives d).map (fun n => if c.driveOn n then (c.drive n).current.toNat else 0)).sum
  w32 ((BitVec.ofInt 8 tj).toNat * 2 ^ 24 + i % 65536)

/-- DRV_CNT[n] (13). -/
def Drive.cntWord (d : Drive) : W32 := d.cntOc ++ d.cntTherm ++ d.cntInc ++ d.cntUv

/-- A drive event; codes 0x0D01 to 0x0D07 of a bay-owned drive latch bay event 23. -/
def Chip.drvEvt (code : W16) (n : Nat) (c : Chip) : Chip :=
  (c.raise code n 0 0).when (decide (code.toNat ≤ 0x0D07) && c.drvOwner n == 1) (Chip.bayEvent 23)

/-- Completes the commanded test of drive n. -/
def Chip.drvTestDone (n : Nat) (st : W8) (c : Chip) : Chip :=
  let t := (c.drive n).ticket
  let c := c.modDrive n (fun d => { d with ticket := 0, testing := 0 })
  if t = 0 then c else c.complete t st 0

/-- An inconclusive test (R276): counted, repeated 100 ms later; the tenth in a row raises
DRV_TP_STARVED once. -/
def Chip.drvInconclusive (n : Nat) (c : Chip) : Chip :=
  let d := c.drive n
  let starve := decide (10 ≤ d.incRun + 1) && !d.starved
  let c := c.modDrive n (fun d =>
    { d with cntInc := satInc d.cntInc, incRun := d.incRun + 1, testRetry := true,
             starved := d.starved || starve })
  (c.drvTestDone n stABORTED).when starve (Chip.drvEvt 0x0D08 n)

/-- A conclusive test ends the run of inconclusive ones and re-arms DRV_TP_STARVED (R276). -/
def Chip.drvRearm (n : Nat) (c : Chip) : Chip :=
  c.modDrive n (fun d => { d with incRun := 0, starved := false, testRetry := false })

/-- A conclusive test that completes a commanded one. -/
def Chip.drvConclusive (n : Nat) (pass : Bool) (c : Chip) : Chip :=
  (c.drvRearm n).drvTestDone n (if pass then stOK else stINTEGRITY)

/-- A real command aborts a running test (R276). -/
def Chip.drvAbortTest (n : Nat) (c : Chip) : Chip :=
  if (c.drive n).testing = 0 then c else c.drvInconclusive n

/-- Records a command (R119, R278). While the die is unclaimed a turn-off is applied and a turn-on is not
(R279). -/
def Chip.drvCommand (n : Nat) (on : Bool) (c : Chip) : Chip :=
  (c.drvAbortTest n).modDrive n (fun d => { d with cmd := on, frozen := d.frozen && on })

/-- The status of DRVSET (R119) and what it records. A turn-off of any drive is answered OK and, as every
request answered OK, recorded (log 38). -/
def Chip.drvSet (n : Nat) (on : Bool) (c : Chip) : Chip × W8 :=
  if 48 ≤ n then (c, stRANGE)
  else if !on then (c.drvCommand n false, stOK)
  else if c.drvOwner n ≠ 1 ∨ ¬ c.drvGranted n then (c, stDENIED)
  else if c.modeHolds n then (c, stMODE)
  else if (c.drive n).phase ≠ 0 ∨ (c.drive n).therm ∨ c.uvHolds n then (c.drvCommand n true, stLOCKED)
  else (c.drvCommand n true, stOK)

/-- A DRV_CMD write by a master (13): drives that are not host-owned are ignored and counted. -/
def Chip.drvCmdWrite (m k : Nat) (v : W32) (c : Chip) : Chip :=
  let sel := (List.range 16).filter (fun i => v.getLsbD (16 + i))
  let c := each (sel.filter (fun i => c.drvOwner (16 * k + i) == 2))
    (fun i c => c.drvCommand (16 * k + i) (v.getLsbD i)) c
  if sel.any (fun i => c.drvOwner (16 * k + i) != 2) then c.denied m (0xD0200 + 4 * k) else c

/-- DRV_CMD[k] reads the commanded state of every drive. -/
def Chip.drvCmdWord (c : Chip) (k : Nat) : W32 :=
  w32 ((List.range 16).map (fun i => b2n (c.drive (16 * k + i)).cmd * 2 ^ i)).sum

/-- Drive n enters its fail state (R280): LIMP with LIMP_ARM and a lost controller is limp-home,
else it acts as OFF; HOLD keeps the output; safety drives take OFF. -/
def Chip.drvFail (n : Nat) (c : Chip) : Chip :=
  let d := c.drive n
  let out := c.driveOn n
  if d.fs == 2 && c.drv.limpArm && c.drv.lost && !c.drv.failCg5 && decide (n < 40) then
    (c.modDrive n (fun d => { d with phase := 3 })).drvEvt 0x0D0B n
  else c.modDrive n (fun d => { d with phase := 2, frozen := d.fs == 1 && decide (n < 40) && out })

/-- Every drive in a phase of a list enters its fail state. -/
def Chip.drvFailFrom (phases : List (BitVec 2)) (c : Chip) : Chip :=
  each (drives48.filter (fun n => phases.contains (c.drive n).phase)) Chip.drvFail c

/-- The controller is lost (R279, R387): hold window, or the fail state at once with HOLD_EN
clear or in a formed pair. `planned` is the reset of a changeover or revert, causes 5 and 6. -/
def Chip.controllerLost (planned : Bool) (c : Chip) : Chip :=
  let c := c.modDrv (fun x => { x with lost := true })
  if !c.drv.holdEn || (c.pair.formed && !planned) then c.drvFailFrom [0, 1]
  else each (drives48.filter (fun n => (c.drive n).phase == 0))
    (fun n c => c.modDrive n (fun d => { d with phase := 1, frozen := d.cmd })) c

/-- The hold window ends without a claim (the table Hold window, step 4). -/
def Chip.holdExpire (c : Chip) : Chip :=
  let dies := (List.range 6).filter (fun d => (dieDrives d).any (fun n => (c.drive n).phase == 1))
  let c := (c.drvFailFrom [1]).modDrv (fun x => { x with holdExt := false })
  each dies (fun d c => c.raise 0x0D09 d 0 0) c

/-- Platform firmware claims a die (R281): each drive's present output becomes its command. -/
def Chip.claimDie (d : Nat) (c : Chip) : Chip :=
  let outs := (dieDrives d).map (fun n => (n, c.driveOn n))
  let c := each outs (fun p c => c.modDrive p.1 (fun x => { x with cmd := p.2, phase := 0 })) c
  (c.modDrv (fun x => { x with holdExt := false, lost := false, failCg5 := false })).raise
    0x0D0A d 0 0

/-- Every drive enters its fail state after a CG5 mismatch (R282). -/
def Chip.drvMismatch (c : Chip) : Chip :=
  (c.modDrv (fun x => { x with failCg5 := true })).drvFailFrom [0, 1, 3]

/-- The dies take the CG5 settings from live (R283); a changed RETRY reloads the count (R272). -/
def Chip.latchCg5 (oldRetry : Nat → Nat) (c : Chip) : Chip :=
  let c := c.modDrv (fun x => { x with holdMs := BitVec.ofNat 10 (c.cf 0xD0010 0 10),
                                       holdEn := c.cb 0xD0000 31, limpArm := c.cb 0xD0000 30 })
  each drives48 (fun n c =>
    let r := c.cf (aDcfg n) 20 4
    let map := c.cf (0xD0040 + 4 * (n / 8)) (4 * (n % 8)) 4
    c.modDrive n (fun d =>
      { d with fs := BitVec.ofNat 2 (c.cf (aDcfg n) 28 2), lhMap := BitVec.ofNat 4 (if n < 40 then map else 0),
               retryLeft := if oldRetry n = r then d.retryLeft else BitVec.ofNat 4 r })) c

/-- Every bay-owned drive is commanded off (R250 step 2, R281). -/
def Chip.bayDrivesOff (c : Chip) : Chip :=
  each (drives48.filter (fun n => c.drvOwner n == 1)) (fun n c => c.drvCommand n false) c

/-- A supply stays below 16.0 V (R269). -/
def Chip.undervolt (b : Bool) (c : Chip) : Chip :=
  if (if b then c.drv.uvB else c.drv.uvA) then c else
  let mine := drives48.filter (fun n => onVoutB n == b)
  let were := mine.filter c.driveOn
  let c := each were (fun n c => c.modDrive n (fun d => { d with cntUv := satInc d.cntUv })) c
  let c := c.modDrv (fun x => if b then { x with uvB := true } else { x with uvA := true })
  let c := c.modPower (fun p => if b then { p with voutBOk := false } else { p with voutAOk := false })
  (c.raise 0x0D04 (b2n b) 0 0).when (mine.any (fun n => c.drvOwner n == 1)) (Chip.bayEvent 23)

/-- A supply has stayed above 18.0 V (R269): its drives return to their commands. -/
def Chip.voutRecovered (b : Bool) (c : Chip) : Chip :=
  (c.modDrv (fun x => if b then { x with uvB := false } else { x with uvA := false })).modPower
    (fun p => if b then { p with voutBOk := true } else { p with voutAOk := true })

/-- An over-current shutdown (R272); the 10 ms of a LAMP turn-on do not count. -/
def Chip.overcurrent (n : Nat) (c : Chip) : Chip :=
  if !c.driveOn n || c.inLamp n then c else
  let lock := decide (40 ≤ n) || (c.drive n).retryLeft == 0
  let c := (c.modDrive n (fun d => { d with cntOc := satInc d.cntOc, ocWait := !lock,
                                            ocLock := lock, current := 0 })).drvEvt 0x0D01 n
  c.when lock (Chip.drvEvt 0x0D02 n)

/-- The retry wait ends (R272 and the table Latch and retry interplay). -/
def Chip.retryEnd (n : Nat) (c : Chip) : Chip :=
  if !(c.drive n).ocWait then c else
  let c := c.modDrive n (fun d => { d with ocWait := false })
  if c.driveOn n then c.modDrive n (fun d => { d with retryLeft := d.retryLeft - 1 }) else c

/-- 60 s on without an over-current (R272). -/
def Chip.retryReload (n : Nat) (c : Chip) : Chip :=
  if c.driveOn n then
    c.modDrive n (fun d => { d with retryLeft := BitVec.ofNat 4 (c.cf (aDcfg n) 20 4) })
  else c

/-- The thermal latch (R273): a retry wait is cancelled, its retry not consumed. -/
def Chip.thermalLatch (n : Nat) (c : Chip) : Chip :=
  if (c.drive n).therm then c
  else (c.modDrive n (fun d => { d with therm := true, ocWait := false, tj := 175,
                                        cntTherm := satInc d.cntTherm })).drvEvt 0x0D03 n

/-- An off-pulse test of a standard drive that is on (R274, R276); `due` is off for the
repetition and for a commanded test, which need no TP_EN. A drive in current limit is not tested. -/
def Chip.testPulse (due : Bool) (n : Nat) (fell conclusive : Bool) (c : Chip) : Chip :=
  if 40 ≤ n ∨ ¬ c.driveOn n ∨ c.driveLimit n ∨ c.inLamp n then c
  else if due && !c.cb (aDcfg n) 25 && (c.drive n).testing != 1 then c
  else if !conclusive then c.drvInconclusive n
  else if fell then (c.modDrive n (fun d => { d with shortHi := false })).drvConclusive n true
  else ((c.modDrive n (fun d => { d with shortHi := true })).drvEvt 0x0D06 n).drvConclusive n false

/-- An open load is judged (R275); a command aborts the measurement (R276). -/
def Chip.openLoad (n : Nat) (seen : OpenLoad) (c : Chip) : Chip :=
  let test := (c.drive n).testing == 2
  if !c.cb (aDcfg n) 24 && !test then c
  else if seen = .aborted then c.drvInconclusive n
  else
    let present := seen == .noLoad
    let had := (c.drive n).openL
    let c := (c.modDrive n (fun d => { d with openL := present })).when (present && !had) (Chip.drvEvt 0x0D05 n)
    if test then c.drvConclusive n (!present) else c.drvRearm n

/-- The repetition of an aborted test: the off-pulse, or the open-load measurement of a drive
that is off (R276). -/
def Chip.testRetry (n : Nat) (fell conclusive : Bool) (c : Chip) : Chip :=
  if !(c.drive n).testRetry then c
  else if c.driveOn n && c.drvOwner n != 3 then c.testPulse false n fell conclusive
  else if !conclusive then c.drvInconclusive n
  else
    let had := (c.drive n).openL
    let c := c.modDrive n (fun d => { d with openL := !fell })
    (c.when (!fell && !had) (Chip.drvEvt 0x0D05 n)).drvConclusive n fell

/-- The daily clamp check (R271). -/
def Chip.clampTest (n : Nat) (ok : Bool) (c : Chip) : Chip :=
  if !c.cb 0xD0000 29 then c
  else (c.modDrive n (fun d => { d with clampBad := !ok })).when (!ok) (Chip.drvEvt 0x0D07 n)

/-- DRV_CLR (R273). -/
def cmdDrvClr (r : CmdReq) (c : Chip) : Chip × Ans :=
  let n := fld r.a0 0 6
  if 48 ≤ n then (c, { st := stRANGE })
  else if 150 ≤ (c.drive n).tj then (c, { st := stDENIED })
  else (c.modDrive n (fun d => { d with therm := false, ocLock := false,
                                        retryLeft := BitVec.ofNat 4 (c.cf (aDcfg n) 20 4) }), {})

/-- DRV_RECLAIM (R282). -/
def cmdDrvReclaim (_r : CmdReq) (c : Chip) : Chip × Ans :=
  if c.cfg.mismatch.getLsbD 5 then (c, { st := stINTEGRITY })
  else if drives48.all (fun n => decide ((c.drive n).phase.toNat < 2)) then (c, { st := stSTALE })
  else ((each (List.range 6) Chip.claimDie c).modDrv (fun x => { x with failCg5 := false }), {})

/-- DRV_TEST_NOW (13, R276): the off-pulse of a drive that is on, else the open-load test; a drive
owned by pulse spill takes open-load tests only. -/
def cmdDrvTestNow (r : CmdReq) (c : Chip) : Chip × Ans :=
  let n := fld r.a0 0 6
  if 40 ≤ n then (c, { st := stRANGE })
  else c.long r.m.val 0x0D03 n (fun t c =>
    c.modDrive n (fun d => { d with ticket := t, testing := if c.driveOn n && c.drvOwner n != 3 then 1 else 2 }))

/-- What the sensors of drive n read at the i-th draw: the junction temperature and the load current are
free values (log 155). -/
def dieRead (i n : Nat) : Int × BitVec 12 :=
  let v := Config.free (i + n)
  ((v.truncate 9).toInt, (v >>> 9).truncate 12)

/-- The dies hear their controller; their sensor readings reach DRV_DIE and DRV_STATE (R279, R273). -/
def Chip.dieReport (c : Chip) : Chip :=
  each drives48 (fun n d => d.modDrive n (fun x =>
    { x with tj := (dieRead c.free n).1, current := (dieRead c.free n).2 }))
    { c.modDrv (fun x => { x with lost := false }) with free := c.free + 48 }

end Sys2Proof.Machine
end

