-- ==== Sys2Proof/Machine/Tariff.lean ====
section
/-! DEFINITION. Tariff sets and calendars (R166-R170), the schedule of boundaries in civil time
(R170, R171, R176, R188), and the hand-over of TIME events to the engines (R168). -/

namespace Sys2Proof.Machine

open Sys2Proof

/-- Nanoseconds in a second. -/
def nsS : Int := 1000000000

/-- A leap year. -/
def leapYear (y : Int) : Bool := monthLen y 2 == 29

/-- The start of a season in year y, in days since 2000-01-01; 29 February is 1 March in other
years (R167). -/
def seasonDay (w : W32) (y : Int) : Int :=
  let m : Int := fld w 8 4
  let d : Int := fld w 0 5
  if m = 2 ∧ d = 29 ∧ ¬ leapYear y then daysOf y 3 1 else daysOf y m d

/-- Whether a special-day word names a date (R169). -/
def specialHits (w : W32) (y m d : Int) : Bool :=
  w.getLsbD 31 && (fld w 16 8 == 0 || (2000 + (fld w 16 8 : Int)) == y)
    && (fld w 8 4 : Int) == m && (fld w 0 5 : Int) == d

/-- The day profile of a day (R169 step 1). -/
def dayProfile (t : Tbl W32) (day : Int) : Nat :=
  let (y, m, d) := dateOf day
  let sp := (List.range 128).map (fun n => tarWord t (0x900 + 4 * n))
  match sp.find? (fun w => specialHits w y m d && fld w 16 8 != 0) with
  | some w => fld w 24 5
  | none =>
    match sp.find? (fun w => specialHits w y m d) with
    | some w => fld w 24 5
    | none =>
      let ss := ((List.range 8).map (fun i => tarWord t (0x10 + 4 * i))).filter (fun w => w.getLsbD 31)
      let later := fun (a : Option W32) (w : W32) => match a with
        | none => some w
        | some b => if seasonDay b y < seasonDay w y then some w else some b
      let past := (ss.filter (fun w => decide (seasonDay w y ≤ day))).foldl later none
      let all := ss.foldl later none
      let w := (past.orElse (fun _ => all)).getD 0
      let wd := (weekday day - 1).toNat
      fld (tarWord t (0x40 + 8 * fld w 24 3 + 4 * (wd / 4))) (8 * (wd % 4)) 5

/-- The enabled switch points of a day profile: minute of the day and tariff. -/
def switchPoints (t : Tbl W32) (p : Nat) : List (Nat × Nat) :=
  (((List.range 16).map (fun j => tarWord t (0x100 + 0x40 * p + 4 * j))).filter
    (fun w => w.getLsbD 31)).map (fun w => (fld w 8 5 * 60 + fld w 0 6, fld w 16 5))

/-- The tariff at a local civil second (R169 step 2); 1 where no switch point applies. -/
def tariffAt (t : Tbl W32) (sec : Int) : Nat :=
  let mn := (sec % 86400 / 60).toNat
  let pts := (switchPoints t (dayProfile t (sec / 86400))).filter (fun p => decide (p.1 ≤ mn))
  ((pts.foldl (fun (a : Option (Nat × Nat)) p => match a with
    | none => some p
    | some b => if b.1 < p.1 then some p else some b) none).map Prod.snd).getD 1

/-- The UTC second of a local civil second (R170): the first occurrence, or the first instant
after a skipped span. -/
def Zoning.utcOf (z : Zoning) (l : Int) : Int :=
  let d : Int := (fld z.tz 0 3 : Int) * 900
  let a := l - z.std - d
  let b := l - z.std
  if z.loc a = l then a else if z.loc b = l then b
  else ruleSec z.ds (dateOf (l / 86400)).1 - z.std

/-- Seconds of an interval or sub-interval under a demand setting (R171). -/
def stepSec (cfg : W32) : Nat :=
  let len := fld cfg 0 6 * 60
  if cfg.getLsbD 30 ∧ fld cfg 8 4 ≠ 0 then len / fld cfg 8 4 else len

/-- The number of the interval that holds a UTC second (R171). -/
def Chip.intervalNo (c : Chip) (cfg : W32) (utc : Int) : W32 :=
  BitVec.ofInt 32 ((utc + c.zoning.std) / (max 1 (stepSec cfg) : Nat))

/-- The first interval boundary strictly after a civil instant, as a civil instant (R171). -/
def Chip.nextBoundary (c : Chip) (cfg : W32) (after : Int) : Int :=
  let st : Int := (max 1 (stepSec cfg) : Nat)
  let l := after / nsS + c.zoning.std
  ((l / st + 1) * st - c.zoning.std) * nsS

/-- Local days that a span of civil time touches. -/
def Chip.daysIn (c : Chip) (lo hi : Int) : List Int :=
  let a := (lo / nsS + c.zoning.std) / 86400 - 1
  let b := (hi / nsS + c.zoning.std) / 86400 + 1
  (List.range (b - a + 1).toNat).map (fun (i : Nat) => a + i)

/-- Whether a billing close falls on a local day (R176). -/
def closeDay (cfg : W32) (day : Int) : Bool :=
  let d : Int := fld cfg 16 5
  match fld cfg 28 2 with
  | 0 => (dateOf day).2.2 == d
  | 1 => weekday day == d
  | _ => true

/-- The scheduled billing closes in a span of civil time, after `lo` and up to `hi` (R176). -/
def Chip.closesIn (c : Chip) (lo hi : Int) : List Int :=
  let cfg := c.live 0x60004
  if !cfg.getLsbD 31 then [] else
  (((c.daysIn lo hi).filter (closeDay cfg)).map (fun day =>
    c.zoning.utcOf (day * 86400 + (fld cfg 8 5 * 60 + fld cfg 0 6 : Nat) * 60) * nsS)).filter
    (fun u => decide (lo < u) && decide (u ≤ hi))

/-- The open session of meter point m that has taken effect or waits for its stamp. -/
def Chip.session (c : Chip) (m : Nat) : Session := Tbl.get {} c.bill.sess m

/-- The switch points of a set in a span of civil time, up to `hi`, in the order of their instants and of
their local times (R170): instant and tariff. -/
def Chip.pointsIn (c : Chip) (t : Tbl W32) (lo hi : Int) : List (Int × Nat) :=
  let raw := (c.daysIn lo hi).flatMap (fun day =>
    (switchPoints t (dayProfile t day)).map (fun p =>
      let l := day * 86400 + (p.1 : Int) * 60
      (c.zoning.utcOf l * nsS, l, p.2)))
  ((sortBy (fun a b => decide (a.1 < b.1) || (a.1 == b.1 && decide (a.2.1 < b.2.1))) raw).map
    (fun p => (p.1, p.2.2))).filter (fun p => decide (p.1 ≤ hi))

/-- The place of a pending billing event among those of one stamp (R75, R185). Kinds 8 to 11 are the
boundaries 0 to 3 that a step forward skips (R190). -/
def pendRank (k : Nat) : Nat :=
  match k % 8 with
  | 0 => 0
  | 1 => 1
  | 4 => 1
  | 2 => 2
  | _ => 3

/-- Pending event x comes before y: by stamp; boundaries a step skips in the order of their civil
instants (R190); then by R75. -/
def pendBefore (x y : PendTime) : Bool :=
  decide (x.stamp < y.stamp) ||
  (x.stamp == y.stamp &&
    (if x.ord ≠ 0 ∧ y.ord ≠ 0 then decide (x.ord < y.ord)
     else decide (pendRank x.kind < pendRank y.kind)))

/-- Inserts a pending event behind its equals. -/
def insPend (x : PendTime) : List PendTime → List PendTime
  | [] => [x]
  | y :: t => if pendBefore x y then x :: y :: t else y :: insPend x t

/-- Adds a pending event. -/
def Chip.addPend (x : PendTime) (c : Chip) : Chip :=
  c.modSave (fun s => { s with pendTime := insPend x s.pendTime })

/-- The civil instant after which boundaries of a kind are due (R188): the last executed one, or where their
scheduling began; `dflt` where there is neither (log 46). -/
def Chip.dueFrom (c : Chip) (k : Nat) (dflt : Int) : Int :=
  let e := Tbl.get 0 c.bill.lastExec k
  let f := Tbl.get 0 c.bill.from_ k
  if e = 0 then (if f = 0 then dflt else f) else if f = 0 then e else max e f

/-- The civil instant after which boundaries of a kind have still to be handed over (R168). -/
def Chip.execBase (c : Chip) (k : Nat) (dflt : Int) : Int :=
  ((c.save.pendTime.filter (fun p => p.kind % 8 == k && !p.partl)).map (fun p => p.civil)).foldl max (c.dueFrom k dflt)

/-- BILL_DEMAND_CFG over the newest interval whose opening boundary is reached (R175). -/
def Chip.demandCfg (c : Chip) : W32 := (c.bill.aheadW.getLast?.getD c.bill.win).cfg

/-- The context change of a scheduled boundary (R74, R75). -/
def PendTime.change (p : PendTime) : CtxChange :=
  match p.kind % 8 with
  | 0 => .demandClose p.no
  | 1 => .billingClose
  | 2 => .tariffSwitch p.tar
  | _ => .calendar p.tar

/-- A boundary of kind k at a civil instant u. The interval that opens at it runs under the demand setting
that is live there (R175). -/
def Chip.boundary (c : Chip) (k : Nat) (u : Int) (stamp tar : Nat) : PendTime :=
  { kind := k, civil := u, stamp := stamp, tar := BitVec.ofNat 6 tar,
    no := if k % 8 = 0 then c.intervalNo (c.live 0x60000) (u / nsS) else 0 }

/-- Hands one boundary to the engines and the billing block (R168); `ord` is its place among those that a step
skips (R190). -/
def Chip.handBoundary (src k ord : Nat) (u : Int) (stamp tar : Nat) (c : Chip) : Chip :=
  let p := { c.boundary k u stamp tar with ord := ord }
  (c.toEngines { stamp := stamp, src := src, change := p.change, ord := ord }).addPend p

/-- The scheduled activation as a civil instant. -/
def Chip.schedAt (c : Chip) : Option Int := c.tariff.sched.map (fun u => (u : Int) * nsS)

/-- The scheduled activation that will execute: one strictly later than the last executed one (R188). -/
def Chip.actAt (c : Chip) : Option Int :=
  c.schedAt.filter (fun u => decide (Tbl.get 0 c.bill.lastExec 3 < u))

/-- The tariff an activation sets. -/
def Chip.actTariff (c : Chip) (u : Int) : Nat := tariffAt c.tariff.pas (c.zoning.loc (u / nsS))

/-- Leaves out the switch points that repeat the tariff in force (R169 step 3). -/
def dropRepeats : BitVec 6 → List (Nat × Int × Nat) → List (Nat × Int × Nat)
  | _, [] => []
  | cur, p :: t =>
    if p.1 = 2 ∧ BitVec.ofNat 6 p.2.2 = cur then dropRepeats cur t
    else p :: dropRepeats (BitVec.ofNat 6 p.2.2) t

/-- The calendar's boundaries after `lo` and up to `hi`, as kind, civil instant and tariff: switch points of
the active set, a scheduled activation that has not been handed over, and from it on the switch points of
the passive set (R168, R169). A switch point of the old calendar at the activation comes first (R168). -/
def Chip.tariffPlan (c : Chip) (lo hi : Int) : List (Nat × Int × Nat) :=
  let pts := fun t => ((c.pointsIn t lo hi).filter (fun p => decide (lo < p.1))).map (fun p => (2, p.1, p.2))
  let cur := ((c.save.pendTime.filter (fun p => p.kind % 8 == 2 || p.kind % 8 == 3)).getLast?.map
    (fun p => p.tar)).getD c.tariff.inForce
  dropRepeats cur (match c.actAt with
    | none => pts c.tariff.act
    | some u =>
      (pts c.tariff.act).filter (fun p => decide (p.2.1 ≤ u))
        ++ (if u ≤ hi ∧ c.tariff.stamp = none then [(3, u, c.actTariff u)] else [])
        ++ (pts c.tariff.pas).filter (fun p => decide (u < p.2.1)))

/-- Hands over a boundary of the calendar; an activation then has its stamp (R168). -/
def Chip.handTariff (src fwd ord : Nat) (stamp : Nat) (p : Nat × Int × Nat) (c : Chip) : Chip :=
  (c.handBoundary src (p.1 + fwd) ord p.2.1 stamp p.2.2).when (p.1 == 3)
    (Chip.modTariff (fun t => { t with stamp := some stamp }))

/-- Platform firmware hands over each TIME event whose civil instant is at most 1 s ahead (R168). -/
def Chip.handoff (c : Chip) : Chip :=
  if !c.time.valid || !c.rdy rSV then c else
  let now := c.civil c.now
  let lim := now + nsS
  let d := c.nextBoundary c.demandCfg (c.execBase 0 now)
  let c := if d ≤ lim then c.handBoundary 0 0 0 d (c.sixOfCivil d) 0 else c
  let c := each (c.closesIn (c.execBase 1 now) lim) (fun u c => c.handBoundary 0 1 0 u (c.sixOfCivil u) 0) c
  each (c.tariffPlan (c.execBase 2 now) lim) (fun p c => c.handTariff 0 0 0 (c.sixOfCivil p.2.1) p) c

/-- Sets the calendar tariff in force. -/
def Chip.setInForce (t : BitVec 6) (c : Chip) : Chip := c.modTariff (fun x => { x with inForce := t })

/-- Sets the last executed instant of a kind (R188). -/
def Chip.setExec (k : Nat) (u : Int) (c : Chip) : Chip :=
  c.modBill (fun b => { b with lastExec := Tbl.put 0 b.lastExec k (max u (Tbl.get 0 b.lastExec k)) })

/-- Boundaries of a kind are scheduled from a civil instant on. -/
def Chip.setFrom (k : Nat) (u : Int) (c : Chip) : Chip :=
  c.modBill (fun b => { b with from_ := Tbl.put 0 b.from_ k u })

/-- Payload of a TARIFF ledger record (R230). -/
def tariffPayload (t : Tbl W32) (u : W32) : List W8 :=
  wordBytes (tarWord t 0) ++ wordBytes (crc32c ((tariffWords t).flatMap wordBytes)) ++ wordBytes u

/-- A tariff switch executes in the billing block: the calendar tariff in force changes, and the switch has its ledger
record (R185, R190). DESIGN CHOICE: a TARIFF record of the active set at the switch point (log 156). -/
def Chip.switchExec (p : PendTime) (c : Chip) : Chip :=
  ((c.setInForce p.tar).setExec 2 p.civil).stageAt 8 p.ord 0x0B 0 p.stamp
    (tariffPayload c.tariff.act (w32 (p.civil / nsS).toNat))

/-- A calendar activation executes (R168): passive into active, the passive set unlocked; the intervals that
open from it on are priced under the new set (R164). Switch points up to its instant are past. The reference
of CG4, whose pass covers the active set, is rewritten (log 90). -/
def Chip.activate (p : PendTime) (c : Chip) : Chip :=
  let c := c.modTariff (fun t =>
    { t with prev := t.act, gen := t.gen + 1, act := t.pas, sched := none, stamp := none,
             inForce := p.tar, lastAct := w32 (p.civil / nsS).toNat })
  (((c.newRef 4).setExec 3 p.civil).setFrom 2 (max p.civil (Tbl.get 0 c.bill.from_ 2))).stageAt
    10 p.ord 0x0B 0 p.stamp (tariffPayload c.tariff.act c.tariff.lastAct)

/-- The words of a set that TARIFF_SCHEDULE finds wrong, in the order of R167; the address of the
first one. -/
def tariffBad (t : Tbl W32) : Option Nat :=
  let w := tarWord t
  let days := List.range 32
  let seasons := (List.range 8).filter (fun i => (w (0x10 + 4 * i)).getLsbD 31)
  let okDate := fun (v : W32) =>
    let m := fld v 8 4
    let d := fld v 0 5
    decide (1 ≤ m) && decide (m ≤ 12) && decide (1 ≤ d) && decide ((d : Int) ≤ monthLen 2000 m)
  let start := fun (i : Nat) => fld (w (0x10 + 4 * i)) 0 12
  let specials := (List.range 128).filter (fun n => (w (0x900 + 4 * n)).getLsbD 31)
  let weeks := (List.range 8).filter (fun k => seasons.any (fun i => fld (w (0x10 + 4 * i)) 24 3 == k))
  let used := days.filter (fun d =>
    weeks.any (fun k => (List.range 7).any (fun j =>
      fld (w (0x40 + 8 * k + 4 * (j / 4))) (8 * (j % 4)) 5 == d))
    || specials.any (fun n => fld (w (0x900 + 4 * n)) 24 5 == d))
  let pts := fun (d : Nat) => (List.range 16).filter (fun j => (w (0x100 + 0x40 * d + 4 * j)).getLsbD 31)
  let time := fun (d j : Nat) => fld (w (0x100 + 0x40 * d + 4 * j)) 0 13
  let dup := seasons.find? (fun i => seasons.any (fun j => decide (j < i) && start j == start i))
  let badDay := (seasons.find? (fun i => !okDate (w (0x10 + 4 * i)))).map (fun i => 0x10 + 4 * i)
  let badSp := (specials.find? (fun n => !okDate (w (0x900 + 4 * n)))).map (fun n => 0x900 + 4 * n)
  let noPts := (used.find? (fun d => (pts d).isEmpty)).map (fun d => 0x100 + 0x40 * d)
  let midnight := (used.find? (fun d => !(pts d).any (fun j => time d j == 0))).map
    (fun d => 0x100 + 0x40 * d)
  let badPt := (used.flatMap (fun d => (pts d).map (fun j => (d, j)))).find? (fun p =>
    let v := w (0x100 + 0x40 * p.1 + 4 * p.2)
    (pts p.1).any (fun j => decide (j < p.2) && time p.1 j == time p.1 p.2)
      || decide (23 < fld v 8 5) || decide (59 < fld v 0 6)
      || decide (fld v 16 5 = 0) || decide (16 < fld v 16 5))
  if seasons.isEmpty then some 0x10
  else (dup.map (fun i => 0x10 + 4 * i)).orElse (fun _ => badDay.orElse (fun _ =>
    badSp.orElse (fun _ => noPts.orElse (fun _ => midnight.orElse (fun _ =>
      badPt.map (fun p => 0x100 + 0x40 * p.1 + 4 * p.2))))))

/-- Sets CFG_FAIL of a master (02). -/
def Chip.cfgFail (m a : Nat) (c : Chip) : Chip :=
  c.modMaster m (fun x => { x with cfgFail := BitVec.ofNat 24 a })

/-- Address of the argument register of the command bank (02): the word that fails when the
activation instant breaks R167 item 5. -/
def aArg0 : Nat := 0x20000

/-- TARIFF_SCHEDULE (R167). -/
def cmdTariffSchedule (r : CmdReq) (c : Chip) : Chip × Ans :=
  let m := r.m.val
  let u : Int := r.a0.toNat
  let std := u + c.zoning.std
  let len : Int := (fld c.demandCfg 0 6 * 60 : Nat)
  if c.tariff.sched.isSome then (c, { st := stLOCKED })
  else match tariffBad c.tariff.pas with
  | some o => (c.cfgFail m (0x78000 + o), { st := stRANGE })
  | none =>
    if u * nsS < c.civil c.now + 2 * nsS ∨ std % max 1 len ≠ 0 then
      (c.cfgFail m aArg0, { st := stRANGE })
    else
      ((c.modTariff (fun t => { t with sched := some r.a0.toNat, stamp := none })).stage 0x0B 0 c.now
        (tariffPayload c.tariff.pas r.a0), {})

/-- TARIFF_UNSCHEDULE (R168). DESIGN CHOICE: an activation that R188 never executes is not less than 1 s before its
instant once that is past (log 157). -/
def cmdTariffUnschedule (_r : CmdReq) (c : Chip) : Chip × Ans :=
  match c.schedAt with
  | none => (c, { st := stSTALE })
  | some u =>
    if (u - c.civil c.now < nsS ∧ (c.civil c.now ≤ u ∨ c.actAt.isSome)) ∨ c.tariff.stamp ≠ none then (c, { st := stLOCKED })
    else (c.modTariff (fun t => { t with sched := none }), {})

/-- TARIFF_COPY. -/
def cmdTariffCopy (_r : CmdReq) (c : Chip) : Chip × Ans :=
  if c.tariff.sched.isSome then (c, { st := stLOCKED })
  else (c.modTariff (fun t => { t with pas := t.act }), {})

/-- A word of the passive set is written (R167): refused while an activation is scheduled.
Reserved bits keep nothing: `mask` names the defined ones. -/
def tariffMask (o : Nat) : W32 :=
  if o < 4 then 0xFFFFFFFF
  else if 0x10 ≤ o ∧ o < 0x30 then 0x87000F1F
  else if 0x40 ≤ o ∧ o < 0x80 then (if o % 8 = 0 then 0x1F1F1F1F else 0x001F1F1F)
  else if 0x100 ≤ o ∧ o < 0x900 then 0x801F1F3F
  else if 0x900 ≤ o ∧ o < 0xB00 then 0x9FFF0F1F
  else if 0x1000 ≤ o ∧ o < 0x3000 then 0xFFFFFFFF
  else 0

end Sys2Proof.Machine
end

