-- ==== Sys2Proof/Machine/Billing.lean ====
section
/-! DEFINITION. The billing block (08, R137-R140, R154-R158): commits, registers and cost, demand
intervals, billing closes, sessions, load profiles and pulse spill. -/

namespace Sys2Proof.Machine

open Sys2Proof

/-- One count in the unit of a bin. -/
def q64 : Int := 2 ^ 64

/-- A register identity (R160). -/
def ident (m s d t : Nat) : Nat := m * 1024 + s * 128 + d * 64 + t

/-- Fields of an identity. -/
def idMp (i : Nat) : Nat := i / 1024 % 64
def idSlot (i : Nat) : Nat := i / 128 % 8
def idDir (i : Nat) : Nat := i / 64 % 2
def idTar (i : Nat) : Nat := i % 64

/-- An identity of R160. -/
def Chip.identOk (c : Chip) (i : Nat) : Bool :=
  c.slotDef (idMp i) (idSlot i) && decide (idTar i ≤ 16)
    && !(c.slotNet (idMp i) (idSlot i) && idDir i == 1)

/-- Adds to a register, with the flags of what is added (R138, R161). -/
def RegVal.add (v : Int) (b : Bin) (r : RegVal) : RegVal :=
  { r with v := r.v + v, notLegal := r.notLegal || b.notLegal, degraded := r.degraded || b.degraded,
           suspect := r.suspect || b.suspect }

/-- Updates a register of a table. -/
def regMod (i : Nat) (f : RegVal → RegVal) (t : Tbl RegVal) : Tbl RegVal :=
  Tbl.put {} t i (f (Tbl.get {} t i))

/-- Adds to the register of a tier and to the total of the same direction (R138). -/
def regAdd (m s d t : Nat) (v : Int) (b : Bin) (x : Tbl RegVal) : Tbl RegVal :=
  regMod (ident m s d 0) (RegVal.add v b) (regMod (ident m s d t) (RegVal.add v b) x)

/-- Writes the session of a meter point. -/
def Bill.putSess (m : Nat) (s : Session) (b : Bill) : Bill := { b with sess := Tbl.put {} b.sess m s }

/-- The run-time state of a meter point. -/
def Bill.mp (b : Bill) (m : Nat) : MpState := Tbl.get {} b.mps m

/-- Writes the run-time state of a meter point. -/
def Bill.putMp (m : Nat) (s : MpState) (b : Bill) : Bill := { b with mps := Tbl.put {} b.mps m s }

/-- A load-profile channel. -/
def Bill.lpc (b : Bill) (ch : Nat) : LpChan := Tbl.get {} b.lp ch

/-- Writes a load-profile channel. -/
def Bill.putLp (ch : Nat) (x : LpChan) (b : Bill) : Bill := { b with lp := Tbl.put {} b.lp ch x }

/-- Interval a comes after interval b, in numbers modulo 2^32. -/
def ivAfter (a b : W32) : Bool := a != b && decide ((a - b).toNat < 2 ^ 31)

/-- The interval a bin names: the open one, one whose opening boundary is reached, or a closed one. -/
def Chip.ivOf (c : Chip) (no : W32) : Option Win :=
  (c.bill.aheadW.reverse ++ c.bill.win :: c.bill.closedW).find? (fun w => w.no == no)

/-- The tariff set in force over a demand interval (R164): one that opened at or after the stamp of a pending
activation is priced under the passive set. -/
def Chip.tarSet (c : Chip) (no : W32) : Tbl W32 :=
  match c.ivOf no with
  | none => c.tariff.act
  | some w =>
    if c.tariff.gen < w.gen then c.tariff.pas else if w.gen < c.tariff.gen then c.tariff.prev else c.tariff.act

/-- A live BILL_PTAB word. -/
def aPtab (m h : Nat) : Nat := 0x60100 + 8 * m + 4 * h

/-- The BILL_PTAB byte of a slot for a demand interval (R165). -/
def Chip.ptabByte (c : Chip) (no : W32) (m s : Nat) : Nat :=
  let a := aPtab m (s / 4)
  let w := match c.ivOf no with
    | some w => Tbl.get 0 w.ptab a
    | none => c.live a
  fld w (8 * (s % 4)) 8

/-- The price of a bin (R164), signed Q31.32; none where the slot accrues no cost. -/
def Chip.price (c : Chip) (b : Bin) : Option Int :=
  let byte := c.ptabByte b.interval b.mp b.slot
  if !c.cb 0x60008 31 || decide (byte < 128) then none else
  let s := c.session b.mp
  let named := if b.session ≠ 0 ∧ s.no = b.session then (s.desc.getD 0x20 0).toNat else 0
  let table := if 128 ≤ named then named % 32 else byte % 32
  let dir := if b.rev && !c.slotNet b.mp b.slot then 8 else 0
  let o := 0x1000 + 0x100 * table + 16 * (b.tariff - 1) + dir
  let t := c.tarSet b.interval
  some (tarWord t (o + 4) ++ tarWord t o : W64).toInt

/-- The direction bit of a bin's register: NET slots use FWD (R160). -/
def Chip.binDir (c : Chip) (b : Bin) : Nat := if c.slotNet b.mp b.slot then 0 else b2n b.rev

/-- A bin that adds nothing: negative in a slot not declared NET (R140). -/
def Chip.binVoid (c : Chip) (b : Bin) : Bool := !c.slotNet b.mp b.slot && decide (b.value < 0)

/-- Adds to the sums of a demand interval (R172). -/
def Win.add (c : Chip) (b : Bin) (w : Win) : Win :=
  { w with qty := regAdd b.mp b.slot (c.binDir b) b.tariff b.value b w.qty }

/-- The interval that takes a bin of a segment: of those of its number, the newest that is open at the segment's
start; the end of START opens a second one of a number (R374). -/
def Chip.winOf (c : Chip) (start : Nat) (no : W32) : Option Win :=
  let l := (c.bill.aheadW.reverse ++ c.bill.win :: c.bill.closedW).filter (fun w => w.no == no)
  (l.find? (fun w => decide (w.openSix ≤ start))).orElse (fun _ => l.getLast?)

/-- Puts a bin of a segment into the sums of the interval it names. -/
def Chip.binDemand (start : Nat) (b : Bin) (c : Chip) : Chip :=
  let hit := c.winOf start b.interval
  let here := fun (w : Win) => hit.any (fun x => x.no == w.no && x.openSix == w.openSix)
  let add := Win.add c b
  if c.bill.aheadW.any here then c.modBill (fun x => { x with aheadW := mapIf here add x.aheadW })
  else if here c.bill.win then c.modBill (fun x => { x with win := add x.win })
  else c.modBill (fun x => { x with closedW := mapIf here add x.closedW })

/-- Adds a bin to the registers of its session (R179). -/
def Chip.binSession (b : Bin) (cost : Option Int) (c : Chip) : Chip :=
  let s := c.session b.mp
  if b.session = 0 ∨ s.no ≠ b.session then c else
  let d := c.binDir b
  c.modBill (Bill.putSess b.mp
    { s with qty := regAdd b.mp b.slot d b.tariff b.value b s.qty
             cost := (match cost with
               | some v => regAdd b.mp b.slot d b.tariff v b s.cost
               | none => s.cost) })

/-- One committed bin (R138, R140, R163). -/
def Chip.commitBin (start : Nat) (b : Bin) (c : Chip) : Chip :=
  if c.binVoid b then
    c.modBill (fun x => x.putMp b.mp { x.mp b.mp with neg := satInc (x.mp b.mp).neg })
  else
    let d := c.binDir b
    let cost := (c.price b).map (fun p => (b.value * p).tdiv (2 ^ 32))
    let c := c.modBill (fun x =>
      { x with qty := regAdd b.mp b.slot d b.tariff b.value b x.qty
               cost := (match cost with
                 | some v => regAdd b.mp b.slot d b.tariff v b x.cost
                 | none => x.cost) })
    (c.binSession b cost).binDemand start b

/-- The base units of one count of a slot, as a fraction: F * 10^EXP (R136). -/
def Chip.slotQ (c : Chip) (m s : Nat) : Nat × Nat :=
  let w := c.live (aMp m + 0x80 + 4 * s)
  let e := slotExp w
  ((unitF (fld w 0 8)).getD 1 * 10 ^ e.toNat, 10 ^ (-e).toNat)

/-- A bin above 1.10 times the full-scale rate over the segment (R137). -/
def Chip.implausible (c : Chip) (span : Nat) (b : Bin) : Bool :=
  let q := c.slotQ b.mp b.slot
  let fs := fFix (f64OfF32 (c.live (aMp b.mp + 0xA0 + 4 * b.slot)))
  decide (11 * fs * span * 31250 * q64 * q.2 < b.value * q.1 * 2 ^ 1074 * 10 * nsS)

/-- Meter points and slots of a list of bins, each once. -/
def binSlots (l : List Bin) : List (Nat × Nat) := (l.map (fun b => (b.mp, b.slot))).dedup

/-- Raises an event once for each meter point and slot of a list (R421). -/
def Chip.slotEvts (code : W16) (k : Nat) (l : List Bin) (c : Chip) : Chip :=
  each (binSlots l) (fun p c => c.raise code k (w32 p.1) (w32 p.2)) c

/-- The spill word of a slot and its weight. -/
def Chip.spillCfg (c : Chip) (m s : Nat) : W32 := c.live (aMp m + 0xC0 + 8 * s)
def Chip.spillW (c : Chip) (m s : Nat) : Nat := (c.live (aMp m + 0xC4 + 8 * s)).toNat

/-- A slot's spill state. -/
def Chip.spill (c : Chip) (m s : Nat) : Spill := Tbl.get {} c.bill.spill (8 * m + s)

/-- Updates a slot's spill state. -/
def Chip.modSpill (m s : Nat) (f : Spill → Spill) (c : Chip) : Chip :=
  c.modBill (fun b =>
    { b with spill := Tbl.put {} b.spill (8 * m + s) (f (Tbl.get {} b.spill (8 * m + s))) })

/-- The drive a spill slot names, if it names one. -/
def spillDrive (w : W32) : Option Nat := if w.getLsbD 7 then some (fld w 0 6) else none

/-- Whether the modes let a spill output pulse (R158). -/
def Chip.spillFree (c : Chip) (w : W32) : Bool :=
  match spillDrive w with
  | none => !c.retired
  | some n => !c.modeHolds n && !c.standbyHolds n && !c.postHolds n && (c.drive n).phase == 0

/-- An idle output with a backlog starts a pulse (R155). -/
def Chip.pulseStart (m s : Nat) (c : Chip) : Chip :=
  let w := c.spillCfg m s
  let x := c.spill m s
  if x.phase = 0 ∧ x.backlog ≠ 0 ∧ w.getLsbD 31 ∧ c.spillFree w then
    let b := x.backlog - 1
    let c := c.modSpill m s (fun x =>
      { x with phase := 1, backlog := b, raised := x.raised && decide (32768 ≤ b.toNat) })
    match spillDrive w with
    | some n => c.drvCommand n true
    | none => c
  else c

/-- An idle output with a backlog may start a pulse now. -/
def Chip.pulseDue (c : Chip) (i : Nat) : Bool :=
  let x := c.spill (i / 8) (i % 8)
  let w := c.spillCfg (i / 8) (i % 8)
  !c.power.saving && !c.power.off && c.sys.ready != 1 && x.phase == 0 && x.backlog != 0
    && w.getLsbD 31 && c.spillFree w

/-- Every idle output with a backlog starts a pulse as soon as it may, also after a hold or a restart (R155,
R157). -/
def Chip.pulses (old c : Chip) : Chip :=
  each (c.bill.spill.filter (fun p => c.pulseDue p.1 && !old.pulseDue p.1)) (fun p c =>
    c.pulseStart (p.1 / 8) (p.1 % 8)) c

/-- Feeds a slot's accumulator and turns whole weights into backlog (R154, R155, R157). -/
def Chip.spillFeed (k m s : Nat) (v : Int) (c : Chip) : Chip :=
  let wt : Int := (c.spillW m s : Int) * q64
  let x := c.spill m s
  let acc := x.acc + v
  let n := if wt ≤ 0 ∨ acc < 0 then 0 else (acc / wt).toNat
  let room := 0xFFFFFFFF - x.backlog.toNat
  let b := x.backlog.toNat + min n room
  let high := decide (65535 < b) && !x.raised
  let c := c.modSpill m s (fun x =>
    { x with acc := acc - n * wt, backlog := w32 b, raised := x.raised || high })
  let c := c.when high (fun c => c.raise 0x050D k (w32 m) (w32 s))
  each (List.range (n - room)) (fun _ c => c.raise 0x050E k (w32 m) (w32 s)) c

/-- What a segment feeds to a slot's spill (R154). -/
def Chip.spillAmount (c : Chip) (seg : Seg) (m s : Nat) : Int :=
  let w := c.spillCfg m s
  let dir := fld w 28 2
  if w.getLsbD 30 then
    let mine : List Int := (seg.spills.filter (fun x => x.2.1 == 8 * m + s)).map (fun x => x.2.2)
    let part : Int → Int := fun v => if dir = 0 then max v 0 else if dir = 1 then max (-v) 0 else v
    (mine.map part).sum
  else
    ((seg.bins.filter (fun b => b.mp == m && b.slot == s && !c.binVoid b
      && (dir == 2 || b2n b.rev == dir))).map (fun b => b.value)).sum

/-- Applies a segment's spills. -/
def Chip.commitSpills (k : Nat) (seg : Seg) (c : Chip) : Chip :=
  let own : List (Nat × Nat) := seg.spills.map (fun p => (p.2.1 / 8, p.2.1 % 8))
  let slots := (binSlots seg.bins ++ own).dedup
  each (slots.filter (fun p => (c.spillCfg p.1 p.2).getLsbD 31))
    (fun p c => c.spillFeed k p.1 p.2 (c.spillAmount seg p.1 p.2)) c

/-- A session whose target is reached for the first time at this commit (R181): bay event 27. -/
def Chip.targetCheck (m : Nat) (c : Chip) : Chip :=
  let s := c.session m
  let b := (s.desc.getD 0x22 0).toNat
  if s.no = 0 ∨ b < 128 ∨ s.reached then c else
  let i := ident m (b % 8) (b / 64 % 2) 0
  if (leAt s.desc 0x28 8 : Int) * q64 ≤ (Tbl.get ({} : RegVal) s.qty i).v then
    (c.modBill (Bill.putSess m { s with reached := true })).bayEvent 27
  else c

/-- Words of a 64-bit number, low first. -/
def words64 (n : Nat) : List W32 := [w32 n, hi32 n]

/-- A bin record of a RESULT packet (R244). -/
def Chip.binWords (c : Chip) (b : Bin) : List W32 :=
  let v := (BitVec.ofInt 128 b.value).toNat
  [w32 (ident b.mp b.slot (c.binDir b) b.tariff + b2n b.notLegal * 65536 + b2n b.degraded * 2 ^ 17
     + b2n b.suspect * 2 ^ 18), b.interval, b.session] ++ words64 v ++ words64 (v / 2 ^ 64)

/-- An item of a RESULT packet (R244). -/
def Chip.itemWords (c : Chip) (k start : Nat) (r : ResItem) : List W32 :=
  w32 ((r.six - start) / c.gridD k % 4096 * 65536 + r.tag * 256 + r.mp) :: words64 r.value.toNat

/-- Cuts a list into pieces of at most n elements. -/
def chunks {α : Type} (n : Nat) : Nat → List α → List (List α)
  | 0, _ => []
  | _, [] => []
  | f + 1, l => l.take n :: chunks n f (l.drop n)

/-- The RESULT packets of a committed segment (R244). -/
def Chip.resultPkts (c : Chip) (k gate : Nat) (seg : Seg) : List (List W32) :=
  let head := c.bill.seq :: (words64 seg.start ++ words64 gate)
  let pk := fun (more : Bool) (bs : List Bin) (rs : List ResItem) =>
    mkPkt 0x10 k (head ++ [w32 (bs.length * 65536 + rs.length * 256 + b2n more * 128
      + b2n seg.saveShort * 16 + b2n seg.forced)]
      ++ bs.flatMap c.binWords ++ rs.flatMap (c.itemWords k seg.start))
  if 7 * seg.bins.length + 3 * seg.items.length ≤ 1017 ∧ seg.items.length ≤ 255
      ∧ seg.bins.length ≤ 255 then
    [pk false seg.bins seg.items]
  else
    let parts := (chunks 145 seg.bins.length seg.bins).map (fun b => (b, ([] : List ResItem)))
      ++ (chunks 255 seg.items.length seg.items).map (fun r => (([] : List Bin), r))
    parts.zipIdx.map (fun p => pk (decide (p.2 + 1 < parts.length)) p.1.1 p.1.2)

/-- A register with its flags cleared (R161). -/
def RegVal.unflag (r : RegVal) : RegVal := { v := r.v }

/-- The registers of a table whose meter points belong to engine k, and the others. -/
def Chip.regsOf (c : Chip) (k : Nat) (t : Tbl RegVal) : Tbl RegVal :=
  t.filter (fun p => c.mpEngine (idMp p.1) == some k)
def Chip.regsBut (c : Chip) (k : Option Nat) (t : Tbl RegVal) : Tbl RegVal :=
  t.filter (fun p => c.mpEngine (idMp p.1) != k)

/-- Clears the flags of the registers of a table that `p` selects, keeping its canonical form. -/
def unflagIf (p : Nat → Bool) (t : Tbl RegVal) : Tbl RegVal :=
  t.foldl (fun x r => Tbl.put {} x r.1 (if p r.1 then r.2.unflag else r.2)) []

/-- A billing close takes the registers of engine k before the first instant of the next period is booked
(R177): the period closed holds the instants before its stamp alone. -/
def Chip.snapTake (k stamp : Nat) (c : Chip) : Chip :=
  let mine := fun (m : Nat) => c.mpEngine m == some k
  c.modBill (fun b =>
    { b with snaps := b.snaps ++ [{ stamp := stamp, eng := k, qty := c.regsOf k b.qty, cost := c.regsOf k b.cost,
                                    adj := b.adj.filter (fun p => mine p.1) }]
             qty := unflagIf (fun i => mine (idMp i)) b.qty, cost := unflagIf (fun i => mine (idMp i)) b.cost,
             adj := b.adj.filter (fun p => !mine p.1) })

/-- BILL_ZERO reaches engine k (R178): registers, spills and session registers of its meter points; with none, of the
meter points of no engine. -/
def Chip.zeroTake (k : Option Nat) (stamp : Nat) (c : Chip) : Chip :=
  let mine := fun (m : Nat) => c.mpEngine m == k
  c.modBill (fun b =>
    { b with zeroed := b.zeroed ++ (k.map (fun k => (stamp, k))).toList
             qty := c.regsBut k b.qty, cost := c.regsBut k b.cost,
             adj := b.adj.filter (fun p => !mine p.1),
             spill := b.spill.foldl (fun t p =>
               Tbl.put {} t p.1 (if mine (p.1 / 8) then { phase := p.2.phase } else p.2)) [],
             sess := b.sess.foldl (fun t p =>
               Tbl.put {} t p.1 (if mine p.1 then { p.2 with qty := [], cost := [], adj := false } else p.2)) [] })

/-- The instant at which a pending boundary took effect in engine k: its stamp, or the gate where it was
late (R191). -/
def PendTime.at_ (p : PendTime) (k : Nat) : Nat := ((p.effs.find? (fun e => e.1 == k)).map Prod.snd).getD p.stamp

/-- The instant at which a pending boundary had taken effect in every engine (R191). -/
def PendTime.done (p : PendTime) : Nat := (p.effs.map Prod.snd).foldl max p.stamp

/-- What of closes and of a BILL_ZERO not yet executed engine k passes with a segment that starts at an
instant, in the order of their stamps. -/
def Chip.bounds (k start : Nat) (c : Chip) : Chip :=
  let closes := (c.save.pendTime.filter (fun p => p.kind % 8 == 1 || p.kind == 4)).filter (fun p =>
    decide (p.at_ k ≤ start) && !c.bill.snaps.any (fun s => s.stamp == p.stamp && s.eng == k))
  let zeros := (c.cfg.pend.filter (fun p => p.kind == 0x101 && !p.applied)).filterMap (fun p => p.stamp)
  let zeros := zeros.filter (fun s => decide (s ≤ start) && !c.bill.zeroed.contains (s, k))
  let l := (closes.map (fun p => p.stamp)).dedup.map (fun s => (s, false)) ++ zeros.map (fun s => (s, true))
  each (sortBy (fun a b => decide (a.1 < b.1)) l) (fun x c =>
    if x.2 then c.zeroTake (some k) x.1 else c.snapTake k x.1) c

/-- Minutes of a period code of a load-profile channel (R184). -/
def lpMinutes (code : Nat) : Nat := [1, 2, 3, 5, 10, 15, 20, 30, 60].getD code 60

/-- Seconds of the periods of a load-profile channel. -/
def Chip.lpSec (c : Chip) (ch : Nat) : Nat := lpMinutes (c.cf (0x60400 + 4 * ch) 16 4) * 60

/-- The latest boundary of a load-profile channel at or before a UTC second (R184, R171). -/
def Chip.lpFloor (c : Chip) (ch : Nat) (utc : Int) : Int :=
  let st : Int := c.lpSec ch
  (utc + c.zoning.std) / st * st - c.zoning.std

/-- The boundary that ends the period of a channel: its instant, and whether a forward step skipped it. -/
def Chip.lpDue (c : Chip) (ch : Nat) : Option (Nat × Bool) :=
  let x := c.bill.lpc ch
  c.time.reach x.start ((c.lpFloor ch x.at_ + (c.lpSec ch : Int)) * nsS)

/-- The register of a load-profile channel. -/
def Chip.lpReg (c : Chip) (ch : Nat) : RegVal := Tbl.get {} c.bill.qty (c.cf (0x60400 + 4 * ch) 0 16)

/-- The three flags of a register in the order of a load-profile entry. -/
def RegVal.bits (r : RegVal) : BitVec 3 := BitVec.ofNat 3 (b2n r.notLegal + 2 * b2n r.degraded + 4 * b2n r.suspect)

/-- Load-profile channels of engine k whose period ends at or before an instant take the register's value
before a later segment is booked (R184). -/
def Chip.lpTake (k start : Nat) (c : Chip) : Chip :=
  if !c.time.valid then c else
  each ((List.range 256).filter (fun ch => c.cb (0x60400 + 4 * ch) 31
      && c.mpEngine (idMp (c.cf (0x60400 + 4 * ch) 0 16)) == some k)) (fun ch c =>
    let x := c.bill.lpc ch
    match c.lpDue ch with
    | none => c
    | some (e, _) =>
      c.when (decide (e ≤ start) && x.cap.all (fun p => p.1 != e)) (Chip.modBill (fun b =>
        b.putLp ch { x with cap := some (e, (c.lpReg ch).v, (c.lpReg ch).bits) }))) c

/-- The billing block takes a committed segment of engine k that ends at a gate (R78). -/
def Chip.commitSeg (k gate : Nat) (seg : Seg) (c : Chip) : Chip :=
  let c := (c.bounds k seg.start).lpTake k seg.start
  let c := c.modBill (fun b => { b with seq := b.seq + 1 })
  let good := seg.bins.filter (fun b => !c.binVoid b)
  let bad := seg.bins.filter c.binVoid
  let odd := good.filter (c.implausible (gate - seg.start))
  let pkts := c.resultPkts k gate seg
  let c := each seg.bins (Chip.commitBin seg.start) c
  let c := (c.slotEvts 0x050B k bad).slotEvts 0x050A k odd
  let c := c.commitSpills k seg
  let c := each ((seg.bins.map (fun b => b.mp)).dedup) Chip.targetCheck c
  let c := each ((seg.items.filter (fun r => r.tag == 62))) (fun r c =>
    c.raiseAt r.six 0x0509 k (w32 r.mp) (w32 r.value.toNat)) c
  each pkts (Chip.fqPut 1) c

/-- Every running engine has committed up to a stamp, and the stamp is reached. -/
def Chip.reached (c : Chip) (stamp : Nat) : Bool :=
  decide (stamp ≤ c.now) && c.running.all (fun k => decide (stamp ≤ (c.eng k).c))

/-- Demand of a sum over LEN minutes (R172): floor(Wc * 60 / LEN). -/
def demandOf (len : Nat) (v : Int) : W64 :=
  BitVec.ofNat 64 ((v / q64).toNat * 60 / max 1 len)

/-- A pending boundary has taken effect in every running engine, which has committed up to it. -/
def Chip.pendReached (c : Chip) (p : PendTime) : Bool :=
  decide (p.done ≤ c.now) && c.running.all (fun k =>
    decide (p.at_ k ≤ (c.eng k).c) && !(c.eng k).late.any (fun e => e.stamp == p.stamp && e.change == p.change))

/-- A late boundary takes effect in engine k at a gate (R191). -/
def Chip.pendLate (k gate : Nat) (e : CtxEv) (c : Chip) : Chip :=
  let hit := fun p : PendTime => p.stamp == e.stamp && p.change == e.change
  c.modSave (fun s => { s with pendTime := mapIf hit (fun p => { p with effs := p.effs ++ [(k, gate)] }) s.pendTime })

/-- Adds two registers, values and flags. -/
def RegVal.plus (a b : RegVal) : RegVal :=
  { v := a.v + b.v, notLegal := a.notLegal || b.notLegal, degraded := a.degraded || b.degraded,
    suspect := a.suspect || b.suspect }

/-- Adds two tables of sums. -/
def sumTbl (a b : Tbl RegVal) : Tbl RegVal :=
  b.foldl (fun t p => Tbl.put {} t p.1 ((Tbl.get {} t p.1).plus p.2)) a

/-- Judges a closed interval by its metrological length (R173). -/
def Win.judge (nominal stamp : Nat) (fwd pf : Bool) (w : Win) : Win :=
  let len := stamp - w.openSix
  let p := w.partl || pf || decide (len * 10 < nominal * 9)
  let off := if len ≤ nominal then nominal - len else len - nominal
  { w with closeSix := stamp, partl := p,
           irreg := !p && (fwd || decide (nominal < off * 100)), outage := w.outage || pf }

/-- The BILL_PTAB words that are live. -/
def Chip.ptabLive (c : Chip) : Tbl W32 :=
  (groupAddrs 4).foldl (fun t a => if aPtab 0 0 ≤ a ∧ a < 0x60300 then Tbl.put 0 t a (c.live a) else t) []

/-- A new interval at a stamp under the settings that are live (R171, R175, R165), behind the activations
stamped at or before it (R164). -/
def Chip.newWin (c : Chip) (no : W32) (stamp : Nat) : Win :=
  let acts := c.save.pendTime.filter (fun p => p.kind % 8 == 3 && decide (p.stamp ≤ stamp))
  { no := no, openSix := stamp, cfg := c.live 0x60000, ptab := c.ptabLive, gen := c.tariff.gen + acts.length }

/-- The interval that a demand boundary opens; the one of the end of START is PARTIAL (R173). -/
def Chip.winAt (c : Chip) (p : PendTime) : Win := { c.newWin p.no p.stamp with partl := p.partl }

/-- Demand boundaries whose stamp is reached open their intervals, under the settings live there (R165,
R175); the interval before is closed when the boundary executes. -/
def Chip.latchWins (old c : Chip) : Chip :=
  let due := fun (c : Chip) (p : PendTime) => p.kind % 8 == 0 && decide (p.stamp ≤ c.now)
  each (c.save.pendTime.filter (fun p => due c p && !(due old p && old.save.pendTime.contains p))) (fun p c =>
    if c.bill.aheadW.any (fun w => w.no == p.no && w.openSix == p.stamp) then c
    else c.modBill (fun b => { b with aheadW := b.aheadW ++ [c.winAt p] })) c

/-- Opens an interval at a stamp without a boundary of the schedule: at a restart (R186). -/
def Chip.openInterval (utc : Int) (stamp : Nat) (partl : Bool) (c : Chip) : Chip :=
  let no := c.intervalNo (c.live 0x60000) utc
  c.modBill (fun b => { b with win := { c.newWin no stamp with partl := partl }, aheadW := [] })

/-- The setting of two intervals is one (R175). -/
def sameSetting (a b : W32) : Bool := (a ^^^ b) &&& 0x40000F3F == 0

/-- The windows a demand is formed over: the closing interval, or the last SUBS sub-intervals. -/
def Chip.demandWins (c : Chip) (w : Win) : List Win :=
  if w.cfg.getLsbD 30 then
    w :: ((c.bill.closedW.take (fld w.cfg 8 4 - 1)).takeWhile (fun x => sameSetting x.cfg w.cfg))
  else [w]

/-- The value of a register before the instants of later intervals, some of which may be booked. -/
def Chip.valueThen (c : Chip) (i : Nat) : Int :=
  (Tbl.get ({} : RegVal) c.bill.qty i).v
    - (c.bill.aheadW.map (fun w => (Tbl.get ({} : RegVal) w.qty i).v)).sum

/-- Payload of an INTERVAL record (R230). -/
def Chip.intervalPayload (c : Chip) (w : Win) (d : Tbl MaxD) : List W8 :=
  wordBytes w.no ++ leBytes 8 (w.closeSix - w.openSix) ++ leBytes 4 (b2n w.partl + 2 * b2n w.irreg)
    ++ (w.qty.filter (fun p => idTar p.1 == 0 && p.2.v != 0)).flatMap (fun p =>
      leBytes 2 p.1 ++ leBytes 12 ((c.valueThen p.1 / q64) % 2 ^ 96).toNat
        ++ leBytes 8 (Tbl.get ({} : MaxD) d p.1).v.toNat)

/-- Whether a register of a list of identities carries a flag. -/
def anyFlag (f : RegVal → Bool) (t : Tbl RegVal) : Bool := t.any (fun p => f p.2)

/-- FLAGS of a record over a table of registers (R230): the flags any of them carries (log 108). -/
def regFlags (t : Tbl RegVal) (adj outage : Bool) : Nat :=
  b2n (anyFlag (fun r => r.notLegal) t) + 2 * b2n (anyFlag (fun r => r.degraded) t)
    + 4 * b2n (anyFlag (fun r => r.suspect) t) + 8 * b2n adj + 16 * b2n outage

/-- The end and the flags of the windows a demand is formed over; one that lacks sub-intervals of its
setting is PARTIAL (log 127). -/
def Chip.demandEnd (utc : Int) (w : Win) (wins : List Win) : MaxD :=
  let short := w.cfg.getLsbD 30 && decide (wins.length < fld w.cfg 8 4)
  { at_ := w32 utc.toNat, partl := short || wins.any (fun x => x.partl), irreg := wins.any (fun x => x.irreg),
    adj := wins.any (fun x => x.adj), outage := wins.any (fun x => x.outage) }

/-- The demands of a window by identity (R172); NET slots have none. -/
def Chip.demands (c : Chip) (len : Nat) (last : MaxD) (wins : List Win) : Tbl MaxD :=
  let sums := wins.foldl (fun t x => sumTbl t x.qty) ([] : Tbl RegVal)
  (sums.filter (fun p => !c.slotNet (idMp p.1) (idSlot p.1))).foldl (fun t p =>
    Tbl.put {} t p.1 { last with v := demandOf len p.2.v, notLegal := p.2.notLegal,
                                 degraded := p.2.degraded, suspect := p.2.suspect }) []

/-- Maximum demand takes each demand that is strictly greater, with its flags (R174, R161). -/
def maxTake (ds maxd : Tbl MaxD) : Tbl MaxD :=
  ds.foldl (fun t d =>
    let x := Tbl.get ({} : MaxD) t d.1
    if x.v.toNat < d.2.v.toNat then
      Tbl.put {} t d.1 { v := d.2.v, at_ := d.2.at_, notLegal := x.notLegal || d.2.notLegal,
                         degraded := x.degraded || d.2.degraded, suspect := x.suspect || d.2.suspect }
    else t) maxd

/-- The end of a demand interval or sub-interval (R172-R174). -/
def Chip.closeInterval (utc : Int) (stamp : Nat) (fwd pf : Bool) (c : Chip) (ord : Nat := 0) : Chip :=
  let cfg := c.bill.win.cfg
  let w := c.bill.win.judge (stepSec cfg * 32000) stamp fwd pf
  let wins := c.demandWins w
  let last := Chip.demandEnd utc w wins
  let ds := if cfg.getLsbD 31 then c.demands (fld cfg 0 6) last wins else []
  let rec_ := c.intervalPayload w ds
  let flags := regFlags w.qty w.adj w.outage
  (c.modBill (fun b =>
    { b with lastD := if cfg.getLsbD 31 then ds else b.lastD
             lastWin := if cfg.getLsbD 31 then last else b.lastWin
             maxd := if last.partl || last.irreg then b.maxd else maxTake ds b.maxd
             closedW := (w :: b.closedW).take 16 })).stageAt 4 ord 3 flags stamp rec_

/-- The next interval opens at a boundary: the one latched at its stamp, with what is booked for it. -/
def Chip.openNext (p : PendTime) (c : Chip) : Chip :=
  let mine := fun (w : Win) => w.no == p.no && w.openSix == p.stamp
  let w := (c.bill.aheadW.find? mine).getD (c.winAt p)
  c.modBill (fun b => { b with win := { w with openSix := p.done }
                               aheadW := b.aheadW.filter (fun w => !mine w) })

/-- A demand boundary executes: the open interval closes and the next opens (R172, R188). An interval that
holds no instants, at a forward step or at the end of START, is not recorded (R190). -/
def Chip.demandExec (p : PendTime) (c : Chip) : Chip :=
  let fwd := decide (8 ≤ p.kind)
  let c := if (fwd || p.partl) && c.bill.win.openSix == p.done then c
    else c.closeInterval (p.civil / nsS) p.done fwd false p.ord
  (c.openNext p).when (!p.partl) (Chip.setExec 0 p.civil)

/-- Flags of a register in a record. -/
def RegVal.recFlags (adj : Bool) (r : RegVal) : Nat :=
  b2n r.notLegal + 2 * b2n r.degraded + 4 * b2n r.suspect + 8 * b2n adj

/-- Bytes of a register in a record: identity, value, flags; `adj` tells whether its meter point has ADJ. -/
def regBytes (adj : Nat → Bool) (p : Nat × RegVal) : List W8 :=
  leBytes 2 p.1 ++ leBytes 12 ((p.2.v / q64) % 2 ^ 96).toNat ++ leBytes 2 (p.2.recFlags (adj (idMp p.1)))

/-- Bytes of a maximum-demand register in a record: identity, demand, end, flags. -/
def maxBytes (adj : Nat → Bool) (p : Nat × MaxD) : List W8 :=
  leBytes 2 p.1 ++ leBytes 8 p.2.v.toNat ++ wordBytes p.2.at_
    ++ leBytes 2 (b2n p.2.notLegal + 2 * b2n p.2.degraded + 4 * b2n p.2.suspect + 8 * b2n (adj (idMp p.1)))

/-- A history entry in full (R177, R230). -/
def Hist.bytes (h : Hist) : List W8 :=
  let adj := Tbl.get false h.adj
  wordBytes h.period ++ wordBytes h.at_ ++ leBytes 2 h.kind ++ leBytes 2 (b2n h.outage)
    ++ leBytes 2 h.qty.length ++ h.qty.flatMap (regBytes adj)
    ++ leBytes 2 h.cost.length ++ h.cost.flatMap (regBytes adj)
    ++ leBytes 2 h.maxd.length ++ h.maxd.flatMap (maxBytes adj)

/-- A table with the entries of another put over it. -/
def putAll {α : Type} [DecidableEq α] (d : α) (t over_ : Tbl α) : Tbl α :=
  over_.foldl (fun x p => Tbl.put d x p.1 p.2) t

/-- A history entry of the registers before a stamp (R177): of engines that have committed past it, as they
were taken there. -/
def Chip.histAt (kind : Nat) (utc : Int) (stamp : Nat) (c : Chip) : Hist :=
  let b := c.bill
  let ss := b.snaps.filter (fun s => s.stamp == stamp)
  let cur := fun (m : Nat) => !ss.any (fun s => c.mpEngine m == some s.eng)
  let regs := fun (t : Tbl RegVal) (f : BillSnap → Tbl RegVal) =>
    putAll {} (t.filter (fun p => cur (idMp p.1))) (ss.flatMap f)
  { qty := regs b.qty BillSnap.qty, cost := regs b.cost BillSnap.cost, maxd := b.maxd,
    adj := putAll false (b.adj.filter (fun p => cur p.1)) (ss.flatMap BillSnap.adj),
    at_ := w32 utc.toNat, kind := kind, period := b.period, outage := b.outage }

/-- A snapshot with its flags cleared, for a second close at its stamp. -/
def BillSnap.unflag (s : BillSnap) : BillSnap :=
  { s with qty := unflagIf (fun _ => true) s.qty, cost := unflagIf (fun _ => true) s.cost, adj := [] }

/-- A billing close (R177): history, maximum demand and flags, the period number, the record. -/
def Chip.periodClose (kind : Nat) (utc : Int) (stamp : Nat) (c : Chip) (ord : Nat := 0) : Chip :=
  let h := c.histAt kind utc stamp
  let taken := fun (m : Nat) => c.bill.snaps.any (fun s => s.stamp == stamp && c.mpEngine m == some s.eng)
  let more := c.save.pendTime.any (fun p => (p.kind % 8 == 1 || p.kind == 4) && p.stamp == stamp)
  let c := c.modBill (fun b =>
    { b with hist := (h :: b.hist).take 36, maxd := []
             qty := unflagIf (fun i => !taken (idMp i)) b.qty
             cost := unflagIf (fun i => !taken (idMp i)) b.cost
             adj := b.adj.filter (fun p => taken p.1)
             snaps := if more then mapIf (fun s => s.stamp == stamp) BillSnap.unflag b.snaps
                      else b.snaps.filter (fun s => s.stamp != stamp)
             period := b.period + 1, lastClose := w32 utc.toNat, outage := false })
  (c.stageAt 6 ord 4 (regFlags (h.qty ++ h.cost) (h.adj.any (fun p => p.2)) h.outage) stamp h.bytes).signBehind 4 stamp

/-- Removes the front of the pending events. -/
def Chip.dropPend (c : Chip) : Chip := c.modSave (fun s => { s with pendTime := s.pendTime.tail })

/-- Completes the commanded closes of a stamp with the new BILL_PERIOD (BILL_CLOSE). -/
def Chip.closeTickets (stamp : Nat) (c : Chip) : Chip :=
  let mine := c.bill.closeT.filter (fun p => p.2 == stamp)
  let c := c.modBill (fun b => { b with closeT := b.closeT.filter (fun p => p.2 != stamp) })
  each mine (fun p c => c.complete p.1 stOK c.bill.period) c

/-- Executes the pending event at the front if it is of a kind and its time has come; the events
execute in the order of R75 (R185), and a billing event behind an earlier BILL_ZERO. -/
def Chip.pendExec (kinds : List Nat) (commit : Bool) (f : PendTime → Chip → Chip) (c : Chip) : Chip :=
  match c.save.pendTime with
  | [] => c
  | p :: _ =>
    let zero := c.cfg.pend.any (fun x => x.kind == 0x101 && !x.applied && decide (x.stamp.getD 0 < p.stamp))
    if kinds.contains p.kind && decide (p.stamp ≤ c.now) && (!commit || (c.pendReached p && !zero)) then
      f p c.dropPend
    else c

/-- BILL_CLOSE or a scheduled close executes. -/
def Chip.closeExec (p : PendTime) (c : Chip) : Chip :=
  let sched := p.kind % 8 == 1
  let utc := if sched then p.civil / nsS else c.civil p.stamp / nsS
  let c := c.periodClose (if p.kind = 9 then 3 else if sched then 0 else 1) utc p.stamp p.ord
  let c := if sched then c.setExec 1 p.civil else c
  c.closeTickets p.stamp

/-- The registers of a session in its record: every non-zero one (R182). -/
def Session.bytes (c : Chip) (s : Session) (metered : Option Nat) : List W8 :=
  let close := s.closeSix.getD 0
  s.desc ++ wordBytes s.no ++ leBytes 8 s.openSix ++ leBytes 8 close
    ++ leBytes 8 (c.civil s.openSix).toNat ++ leBytes 8 (c.civil close).toNat
    ++ [s.reason, BitVec.ofNat 8 (b2n s.outage)]
    ++ leBytes 8 (metered.getD 0)
    ++ (s.qty.filter (fun p => p.2.v != 0)).flatMap (regBytes (fun _ => s.adj))
    ++ (s.cost.filter (fun p => p.2.v != 0)).flatMap (regBytes (fun _ => s.adj))

/-- Whether an engine runs (2-4), or loads or restarts (1, 5). -/
def Chip.engRuns (c : Chip) (k : Option Nat) : Bool := k.any (fun k => c.running.contains k)
def Chip.engLoads (c : Chip) (k : Option Nat) : Bool :=
  k.any (fun k => (c.eng k).run == ruLOADING || (c.eng k).run == ruRESTART)

/-- Whether the engine of meter point m runs, or loads or restarts. -/
def Chip.mpRuns (c : Chip) (m : Nat) : Bool := c.engRuns (c.mpEngine m)
def Chip.mpLoads (c : Chip) (m : Nat) : Bool := c.engLoads (c.mpEngine m)

/-- The engine whose bins a session holds up to its close: that of its meter point when the close was asked for
(R182). -/
def Chip.sessEng (c : Chip) (m : Nat) : Option Nat := (c.session m).eng.orElse (fun _ => c.mpEngine m)

/-- A session may close at its stamp: it is reached, and the session's engine has committed up to it (R182). -/
def Chip.sessDue (c : Chip) (m z : Nat) : Bool :=
  decide (z ≤ c.now) && !c.engLoads (c.sessEng m)
    && (c.sessEng m).all (fun k => !c.running.contains k || decide (z ≤ (c.eng k).c))

/-- The session of meter point m closes in the billing block (R182, R183). -/
def Chip.sessionEnd (m : Nat) (c : Chip) : Chip :=
  let s := c.session m
  if s.no = 0 then c else
  let stamp := s.closeSix.getD c.now
  let k := c.sessEng m
  let metered := if c.engRuns k || c.engLoads k then none else k.map (fun k => (c.eng k).c)
  let c := c.modBill (fun b => { b with sess := Tbl.put {} b.sess m {},
                                        lastSess := Tbl.put {} b.lastSess m s })
  let place := if s.reason = 0x13 then 15 else 18
  ((c.stageAt place 0 5 (regFlags (s.qty ++ s.cost) s.adj s.outage) stamp (s.bytes c metered)).signBehind 5
    stamp).bayEvent 25

/-- Asks for the close of the session of meter point m with a reason at a stamp (R182, R183); a session whose
engine does not run closes in the billing block at once, with no boundary gate. -/
def Chip.sessionAsk (m : Nat) (reason : W8) (stamp : Nat) (c : Chip) : Chip :=
  let s := c.session m
  if s.no = 0 ∨ s.closeSix ≠ none then c else
  let k := c.mpEngine m
  let met := c.engRuns k || c.engLoads k
  let how : SessEnd := if !met then .billed else if reason = 0x13 then .redefined else .plain
  let c := c.modBill (Bill.putSess m { s with closeSix := some stamp, reason := reason, eng := k })
  let c := c.toEngines { stamp := stamp, src := 3, change := .sessClose m s.no how }
  if met then c else c.sessionEnd m

/-- Meter points with an open session. -/
def Chip.openSessions (c : Chip) : List Nat :=
  (c.bill.sess.filter (fun p => p.2.no != 0)).map Prod.fst

/-- Closes every open session with a reason (R250, R182). -/
def Chip.closeSessions (reason : W8) (c : Chip) : Chip :=
  let s := c.stampAfter 1
  each c.openSessions (fun m c => c.sessionAsk m reason s) c

/-- The next session number (R179). -/
def nextSess (n : W32) : W32 := if n = 0xFFFFFFFF then 1 else n + 1

/-- The checks of R180 on a descriptor. -/
def Chip.descBad (c : Chip) (m : Nat) (d : List W8) : Bool :=
  let t := (d.getD 0x22 0).toNat
  (slice d 0x23 5).any (· != 0) || (slice d 0x30 16).any (· != 0)
    || decide (16 < (d.getD 0x21 0).toNat)
    || (decide (128 ≤ t) && (leAt d 0x28 8 == 0 || !c.slotDef m (t % 8) || c.slotNet m (t % 8)))

/-- The instant at which a CG3 commit whose instant is chosen redefines meter point m (R182). -/
def Chip.redefined (c : Chip) (m : Nat) : Option Nat :=
  (c.cfg.pend.find? (fun p => p.kind == 3 && p.stamp.isSome && !p.applied
    && p.words.any (fun w => decide (aMp m ≤ w.1) && decide (w.1 < aMp m + 0x100)))).bind (fun p => p.stamp)

/-- SESSOPEN (R123, R179, R180): the status, and the number of the session opened. -/
def Chip.sessOpen (m : Nat) (d : List W8) (c : Chip) : Chip × W8 × W32 :=
  let st : Option W8 :=
    if c.postNo = 0 then some stDENIED
    else if c.sys.starting || c.sys.qcause != 0 || c.retired || c.power.onAux then some stMODE
    else if 64 ≤ m ∨ ¬ c.mpEn m ∨ c.descBad m d then some stRANGE
    else if (c.session m).no ≠ 0 then some stNORES
    else if !c.rdy rBILL || c.mpLoads m then some stBUSY
    else if !c.mpRuns m then some stDENIED
    else none
  match st with
  | some x => (c, x, 0)
  | none =>
    let no := c.bill.sessNext
    let stamp := c.stampAfter 1
    let s : Session := { no := no, desc := d, openSix := stamp }
    let c := c.modBill (fun b => { b.putSess m s with sessNext := nextSess no })
    let c := c.toEngines { stamp := stamp, src := 3, change := .sessOpen m no s.fixed }
    ((match c.redefined m with
      | some z => c.sessionAsk m 0x13 z
      | none => c), stOK, no)

/-- The meter point whose open session has a number. -/
def Chip.sessMp (c : Chip) (no : W32) : Option Nat :=
  if no = 0 then none
  else ((c.bill.sess.find? (fun p => p.2.no == no && p.2.closeSix == none)).map Prod.fst)

/-- SESSCLOSE (R123, R182). -/
def Chip.sessClose (no : W32) (reason : W8) (c : Chip) : Chip × W8 :=
  if reason = 0 ∨ 0x10 ≤ reason.toNat then (c, stRANGE)
  else match c.sessMp no with
    | none => (c, stSTALE)
    | some m => (c.sessionAsk m reason (c.stampAfter 1), stOK)

/-- An ADJ_LATE adjustment touches meter points (R161, R191): their registers, their open sessions and the
open interval. -/
def Chip.markAdj (ms : List Nat) (c : Chip) : Chip :=
  c.modBill (fun b =>
    { b with adj := ms.foldl (fun t m => Tbl.put false t m true) b.adj
             sess := b.sess.foldl (fun t p =>
               Tbl.put {} t p.1 (if ms.contains p.1 && p.2.no != 0 then { p.2 with adj := true } else p.2)) []
             win := { b.win with adj := true } })

/-- Opens the period of a channel at an instant of a UTC second, from a register value. -/
def Chip.lpOpen (ch stamp : Nat) (utc v : Int) (partl outage : Bool) (c : Chip) : Chip :=
  c.modBill (fun b => b.putLp ch
    { b.lpc ch with last := v, start := stamp, at_ := c.lpFloor ch utc, partl := partl, outage := outage, cap := none })

/-- The entry of a period that ends at an instant with a value and flags (R184). -/
def Chip.lpEntry (c : Chip) (ch e : Nat) (fwd : Bool) (v : Int) (fl : BitVec 3) : LpEntry :=
  let x := c.bill.lpc ch
  let j := ({ openSix := x.start, partl := x.partl } : Win).judge (c.lpSec ch * 32000) e fwd false
  { inc := BitVec.ofInt 64 (v / q64 - x.last / q64),
    utc := w32 (c.lpFloor ch x.at_ + (c.lpSec ch : Int)).toNat,
    flags := BitVec.ofNat 6 (b2n j.partl + 2 * b2n j.irreg + 4 * fl.toNat + 32 * b2n x.outage) }

/-- The period of a load-profile channel ends (R184) once the engine of its register has committed up to
its boundary. The next one starts there; after a boundary that an outage passed it starts at the restart,
and after one that a forward step skipped at the step (R187, R188). -/
def Chip.lpEnd (ch : Nat) (c : Chip) : Chip :=
  let x := c.bill.lpc ch
  let eng := c.mpEngine (idMp (c.cf (0x60400 + 4 * ch) 0 16))
  match c.lpDue ch with
  | none => c
  | some (e, fwd) =>
    let ready := eng.all (fun k => !c.running.contains k || decide (e ≤ (c.eng k).c))
    if !c.cb (0x60400 + 4 * ch) 31 || !c.time.valid || decide (c.now < e) || !ready then c else
    let v := match x.cap with
      | some (s, v, fl) => if s = e then (v, fl) else ((c.lpReg ch).v, (c.lpReg ch).bits)
      | none => ((c.lpReg ch).v, (c.lpReg ch).bits)
    let entry := c.lpEntry ch e fwd v.1 v.2
    let c := c.modBill (Bill.putLp ch { x with entries := (entry :: x.entries).take 9600 })
    if x.start < c.time.sixR ∧ e ≤ c.time.sixR then
      c.lpOpen ch c.time.sixR (c.civil c.time.sixR / nsS) v.1 true true
    else if fwd then c.lpOpen ch e (c.civil e / nsS) v.1 false false
    else c.lpOpen ch e (c.lpFloor ch x.at_ + (c.lpSec ch : Int)) v.1 false false

/-- Every register, fraction, history entry, spill and session record to zero (R178); engines that have
committed past the stamp were zeroed there, and what later closes took of them stays, as does a session closed
after the stamp. -/
def Chip.billZero (stamp : Nat) (c : Chip) : Chip :=
  let left := (engs8.filter (fun k => !c.bill.zeroed.contains (stamp, k))).map some
  let c := each (left ++ [none]) (fun k c => c.zeroTake k stamp) c
  let c := c.modBill (fun b =>
    { b with zeroed := b.zeroed.filter (fun p => p.1 != stamp)
             snaps := b.snaps.filter (fun s => decide (stamp < s.stamp))
             maxd := [], hist := [], period := 0
             lastSess := b.lastSess.filter (fun p => decide (stamp < p.2.closeSix.getD 0)) })
  (c.recordLegal 0x101 0 0 stamp).tamperInst 31 0xFF stamp 0 []

/-- BILL_CLOSE: stamped 1 ms ahead (R176). -/
def cmdBillClose (r : CmdReq) (c : Chip) : Chip × Ans :=
  c.long r.m.val 0x0601 0 (fun t c =>
    let s := c.stampAfter 1
    ((c.toEngines { stamp := s, src := 3, change := .billingClose }).addPend
      { kind := 4, civil := c.civil s, stamp := s }).modBill
        (fun b => { b with closeT := b.closeT ++ [(t, s)] }))

/-- BILL_SESS_CLOSE (R182). -/
def cmdBillSessClose (r : CmdReq) (c : Chip) : Chip × Ans :=
  match c.sessMp r.a0 with
  | none => (c, { st := stSTALE })
  | some m => (c.sessionAsk m 0x11 (c.stampAfter 1), {})

/-- BILL_ZERO (R178). -/
def cmdBillZero (r : CmdReq) (c : Chip) : Chip × Ans :=
  if (c.master r.m.val).role.toNat ≠ roleMETROLOGIST then (c, { st := stDENIED })
  else if !c.tamper.lsw then (c, { st := stSEAL })
  else if !c.commCond then (c, { st := stMODE })
  else c.long r.m.val 0x0603 0 (fun t c =>
    let s := c.stampAfter 1
    (c.toEngines { stamp := s, src := 3, change := .billZero }).modCfg
      (fun g => { g with pend := g.pend ++ [{ kind := 0x101, ticket := t, stamp := some s }] }))

/-- An entry of a LOADP packet (11). -/
def LpEntry.words (e : LpEntry) : List W32 := words64 e.inc.toNat ++ [e.utc, w32 e.flags.toNat]

/-- BILL_LP_READ (R184): the entries from a start on, as LOADP packets in FQ1. -/
def cmdBillLpRead (r : CmdReq) (c : Chip) : Chip × Ans :=
  let ch := fld r.a0 0 8
  if !c.cb (0x60400 + 4 * ch) 31 || decide (9600 < r.a2.toNat) then (c, { st := stRANGE })
  else if (c.fq 1).owner ≠ some r.m.val then (c, { st := stLOCKED })
  else if r.a2 = 0 then (c, {})
  else c.long r.m.val 0x0604 ch (fun t c =>
    let es := (((c.bill.lpc ch).entries.reverse.filter
      (fun e => decide (r.a1.toNat ≤ e.utc.toNat))).take r.a2.toNat)
    let c := each (chunks 255 es.length es) (fun p c =>
      c.fqPut 1 (mkPkt 0x12 0x06 (w32 (p.length * 65536 + ch) :: p.flatMap LpEntry.words))) c
    c.complete t stOK (w32 es.length))

end Sys2Proof.Machine
end

