-- ==== Sys2Proof/Machine/Engine.lean ====
section
/-! DEFINITION. Quantity engines, the part that runs (04, 05): the instants of a thread, gates and
commits (R76-R79), forced gates (R83), sidesteps and recovery (R80, R86), faults and restarts
(R87, R88), program changes (R130), and the instructions that touch the engine. -/

namespace Sys2Proof.Machine

open Sys2Proof

/-- Two bins of one key (R108). -/
def sameKey (a b : Bin) : Bool :=
  a.mp == b.mp && a.slot == b.slot && a.rev == b.rev && a.tariff == b.tariff
    && a.interval == b.interval && a.session == b.session

/-- Puts a contribution into a list of bins, one bin per key; the bin carries the flags of every
contribution (R108, R161). -/
def mergeBin (b : Bin) : List Bin → List Bin
  | [] => [{ b with six := 0 }]
  | x :: t =>
    if sameKey x b then
      { x with value := x.value + b.value, notLegal := x.notLegal || b.notLegal,
               degraded := x.degraded || b.degraded, suspect := x.suspect || b.suspect } :: t
    else x :: mergeBin b t

/-- The bins of a segment, one per key. -/
def Seg.merged (s : Seg) : Seg := { s with bins := s.bins.foldl (fun l b => mergeBin b l) [] }

/-- The distinct bin keys of an engine's segments (the bin store). -/
def Engine.binCount (q : Engine) (seg : Seg) : Nat :=
  ((q.gates.map (fun g => g.seg.merged.bins.length)).sum) + seg.merged.bins.length

/-- A boundary gate is due at s (R77). -/
def Engine.boundaryDue (q : Engine) (s : Nat) : Bool :=
  q.log.any (fun e => e.stamp == s && chBoundary e.change)

/-- A gate stands at s. -/
def Engine.hasGate (q : Engine) (s : Nat) : Bool := q.c == s || q.gates.any (fun g => g.six == s)

/-- PERIOD x D of engine k at the instant s, in grid instants (R77). -/
def Chip.gatePeriod (c : Chip) (k s : Nat) : Nat :=
  64 * 2 ^ ((c.viewAt s).cf (aGate k) 0 2) * c.gridDAt k s

/-- Numbers a change kind for the ADJ_LATE record (R84): its place in R75. -/
def lateKind (e : CtxEv) : Nat := chRank e.change

/-- The meter points an event touches on engine k (R161, R191). -/
def Chip.lateMps (c : Chip) (k : Nat) (e : CtxEv) : List Nat :=
  match e.change with
  | .quality m _ _ | .direction m _ | .sessClose m _ _ | .sessOpen m _ _ => [m]
  | _ => c.engMps k

/-- A late event takes effect at the gate s: ADJ_LATE (R84, R161, R191). DESIGN CHOICE: the payload's
layout, and UNIT, ARG0 and ARG1 of the event (log 126). -/
def Chip.adjLate (k s : Nat) (e : CtxEv) (c : Chip) : Chip :=
  (((c.markAdj (c.lateMps k e)).pendLate k s e).stage 6 8 s
    (leBytes 1 k ++ leBytes 1 e.src ++ leBytes 2 (lateKind e) ++ leBytes 4 0 ++ leBytes 8 e.stamp
      ++ leBytes 8 s)).raise 0x0601 k (w32 e.src) (w32 e.stamp)

/-- Places a gate at s in the head's or the replay thread's state (R76). Late events take effect
at a gate the head places. -/
def Chip.placeGate (k : Nat) (rep : Bool) (s : Nat) (c : Chip) : Chip :=
  let q := c.eng k
  let th := if rep then q.rep else q.head
  let seg := if rep then q.rseg else q.seg
  let g : Gate := { six := s, boundary := q.boundaryDue s, ck := th.gateCk,
                    seg := seg }
  let late := if rep then [] else q.late
  let c := c.modEng k (fun q =>
    { q with gates := q.gates ++ [g], late := if rep then q.late else [],
             log := late.foldl (fun l e => insEv { e with stamp := s } l) q.log,
             seg := if rep then q.seg else { start := s },
             rseg := if rep then { start := s } else q.rseg })
  each late (fun e c => c.adjLate k s e) c

/-- The horizons let the oldest outstanding gate commit (R78): every source has reached s - D. -/
def Chip.hznOk (c : Chip) (k s : Nat) : Bool :=
  [0, 1, 2, 3].all (fun x => decide (s - c.gridDAt k (s - 1) ≤ Tbl.get 0 (c.eng k).hz x))

/-- The slot whose image runs. -/
def Chip.runImg (c : Chip) : FwSlot :=
  if c.upd.runSlot = 2 then c.upd.recImg else if c.upd.runSlot = 1 then c.upd.slotB else c.upd.slotA

/-- The legal checksum (R371): the first 4 bytes of SHA-256 over the running image's LEGAL_DIGEST
and the seal table. -/
def Chip.legalSum (c : Chip) : List W8 :=
  let dig := fun (d : BitVec 256) => (leBytes 32 d.toNat).reverse
  let tbl := (List.range 32).flatMap (fun i =>
    let x := c.img i
    dig (if x.installed then x.sealDig else 0))
  (dig (Config.sha256 (dig c.runImg.legal ++ tbl))).take 4

/-- Payload of a FIRMWARE record (R230): image version, legal version and legal checksum. -/
def Chip.fwPayload (c : Chip) : List W8 :=
  wordBytes c.runImg.ver ++ wordBytes c.runImg.legalVer ++ c.legalSum ++ wordBytes c.evt.legalCnt

/-- What waits for the first gate: the POST records for that of a running engine (R22), and the FIRMWARE
record of a changeover for that of any engine. -/
def Chip.firstGate (k six : Nat) (c : Chip) : Chip :=
  let c := if c.running.contains k then c.postNow six else c
  if c.upd.fwRecPend then
    (c.modUpd (fun u => { u with fwRecPend := false })).stage 0x0E 0 six c.fwPayload
  else c

/-- A committed direction change to REV on a watched meter point (R225). -/
def Chip.revWatch (e : CtxEv) (c : Chip) : Chip :=
  match e.change with
  | .direction m true =>
    if c.evt.revWatch.getLsbD m then c.tamperInst 7 m e.stamp 0 [] else c
  | _ => c

/-- Trace packets of a committed segment (QE_TRACE, 11). -/
def Chip.tracePkt (k : Nat) (seg : Seg) (c : Chip) : Chip :=
  if (c.eng k).traceOn && !seg.trace.isEmpty then
    each (chunks 1020 seg.trace.length seg.trace) (fun p c =>
      c.fqPut 7 (mkPkt 0x70 k (c.bill.seq :: words64 ((p.head?.map Prod.fst).getD 0)
        ++ p.map Prod.snd))) c
  else c

/-- Commits the oldest outstanding gate of engine k (R78). -/
def Chip.commitGate (k : Nat) (forced : Bool) (c : Chip) : Chip :=
  match (c.eng k).gates with
  | [] => c
  | g :: rest =>
    let gone := (c.eng k).log.filter (fun e => decide (e.stamp < g.six))
    let c := c.modEng k (fun q =>
      { q with gates := rest, c := g.six, ck := g.ck, lostFrom := none,
               gaps := q.gaps.filter (fun x => decide (g.six < x.2)),
               undo := q.undo.filter (fun u => decide (g.six ≤ u.seg)),
               rundo := q.rundo.filter (fun u => decide (g.six ≤ u.seg)),
               log := q.log.filter (fun e => decide (g.six ≤ e.stamp)) })
    let c := each (c.engMps k) (fun m c =>
      c.modBill (fun b => b.putMp m { b.mp m with dirC := (g.ck.ctx.mp m).rev })) c
    let c := each gone Chip.revWatch c
    let c := c.commitSeg k g.six { g.seg.merged with forced := g.seg.forced || forced }
    let c := c.tracePkt k g.seg
    ((c.modUpd (fun u => { u with gated := u.gated ||| BitVec.ofNat 8 (2 ^ k) })).firstGate k g.six)

/-- Commits every outstanding gate by force. -/
def Chip.commitAll (k : Nat) (c : Chip) : Chip :=
  each (c.eng k).gates (fun _ c => c.commitGate k true) c

/-- Lag of the newest sample behind c, in samples. -/
def Chip.commitLag (c : Chip) (k : Nat) : Nat :=
  ((c.group k).newest - (c.eng k).c) / c.gridD k

/-- Raises FORCED_GATE and counts it (R83, R421). -/
def Chip.forcedNote (k : Nat) (c : Chip) : Chip :=
  (c.modEng k (fun q => { q with forced := satInc q.forced })).raise 0x0502 k
    (satNat 32 (c.commitLag k)) (w32 (c.holdBits k))

/-- Undo entries that take memory `mem` back to `old` at gate g, over the words named. -/
def undoFor (g : Nat) (old mem : Mem) (words : List Nat) : List Undo :=
  (words.dedup.filter (fun a => Mem.rd64 mem a != Mem.rd64 old a)).map
    (fun a => { seg := g, word := a, old := Mem.rd64 old a })

/-- Abandons a sidestep (R83 step 1): gates the replay thread rebuilt are void, the head's own
segment covers the instants from c on, and the events behind the head that started it, or reached it
after, become late events. Where rebuilt gates have committed, the undo log leads back to c. -/
def Engine.abandon (q : Engine) : Engine :=
  if q.run ≠ ruSIDESTEP then q else
  let gates := q.gates.filter (fun g => decide (g.six ≤ q.ssG))
  let from_ := match gates.getLast? with
    | some g => g.six
    | none => q.c
  let words := q.undo.map Undo.word ++ q.rundo.map Undo.word ++ q.overlay
  let undo := fun (u : List Undo) (m : Mem) => if q.c ≤ q.ssG then u else undoFor q.c (q.memAt q.c) m words
  { q with run := ruRUN, gates := gates, seg := q.seg.cut from_,
           mark := { q.mark with seg := q.mark.seg.cut from_, undo := undo q.mark.undo q.mark.mem },
           undo := undo q.undo q.mem, log := q.ssEvs.foldl List.erase q.log,
           late := q.late ++ q.ssEvs, lateCnt := satAdd q.lateCnt q.ssEvs.length, ssEvs := [],
           rep := {}, rmem := [], rundo := [], overlay := [], rseg := {}, rmark := {} }

/-- Commits what is outstanding by force, with a gate at s before it if none stands there (R83). -/
def Chip.forceGate (k s : Nat) (c : Chip) : Chip :=
  let c := if (c.eng k).hasGate s && (c.eng k).gates.isEmpty then c else c.forcedNote k
  let c := if (c.eng k).hasGate s then c else c.placeGate k false s
  (c.commitAll k).modEng k (fun q => { q with forceDue := false })

/-- The head goes back to the beginning of the instant it is in, as far as its mark reaches: a gate that
this instant has placed already is void. -/
def Engine.unbegin (q : Engine) : Engine :=
  if !q.head.busy || q.head.inInit || q.mark.six ≠ q.hpos || q.hpos < q.c then q else
  let m := q.mark
  { q with gates := q.gates.filter (fun g => decide (g.six ≤ q.hpos)), seg := m.seg, mem := m.mem,
           undo := m.undo,
           head := { Thread.ofCkpt { m.ck with gatePos := none } with atGate := some m.ck } }

/-- A forced gate between instants, at H: the open segment as the instant at H began (R85, R88). Where the
gate behind H has committed already nothing is left to commit. -/
def Chip.forceAtH (k : Nat) (short : Bool) (c : Chip) : Chip :=
  let c := c.modEng k (fun q => q.abandon.unbegin)
  let q := c.eng k
  if q.hpos < q.c then c
  else
    let c := c.modEng k (fun q => { q with seg := { q.seg with saveShort := q.seg.saveShort || short } })
    if q.head.busy then (c.forcedNote k).commitAll k else c.forceGate k q.hpos

/-- A program change stands at an instant, or before it where the instants from there on are lost. -/
def Engine.progAt (q : Engine) (pos : Nat) : Bool := q.prog.any (fun s => decide (s ≤ pos))

/-- A program change at an instant waits until LEGAL_CHANGE_APPLY has put it into force. -/
def Chip.progWait (c : Chip) (k pos : Nat) : Bool :=
  (c.eng k).progAt pos &&
    c.cfg.pend.any (fun p => p.kind == 2 && !p.applied && p.stamp == (c.eng k).prog)

/-- The program change of engine k begins at s (R130 step 1): the gate at s stands, everything up to s
commits by force and the engine waits for the new image; with EN cleared in CG2 it is unloaded. -/
def Chip.progSwitch (k : Nat) (c : Chip) : Chip :=
  let new := c.cf (aGate k) 16 8
  let old := ((c.eng k).img).getD 0xFF
  let c := c.modEng k Engine.abandon
  let s := (c.eng k).hpos
  let c := if (c.eng k).hasGate s then c else c.placeGate k false s
  let c := (c.commitAll k).modEng k (fun q => { q with forceDue := false })
  if !c.engEn k then
    (c.modEng k (fun q => { q with run := ruUNLOADED, reloaded := false, prog := none, img := none,
                                   gates := [], seg := {}, mark := {}, undo := [], head := {},
                                   base := { bank := q.ck.ctx.bank }, baseDirs := [] })).setRdy
      (rQE k) false
  else (c.modEng k (fun q =>
    { q with run := ruLOADING, reloaded := false, prog := none, stalled := true, stallAt := q.hpos,
             stallCnt := satInc q.stallCnt })).raise 0x0507 k (w32 (new + 256 * old)) 0

/-- Places the gate due at s, if one is due (R77, R83, R114). -/
def Chip.gateAt (k : Nat) (rep : Bool) (s : Nat) (c : Chip) : Chip :=
  let q := c.eng k
  if !rep && q.forceDue then (c.modEng k Engine.abandon).forceGate k s
  else if q.hasGate s then c
  else if !rep && q.run == ruSIDESTEP then c
  else if q.boundaryDue s then
    let c := if 8 ≤ q.gates.length then (c.forcedNote k).commitGate k true else c
    c.placeGate k rep s
  else if s % c.gatePeriod k s = 0 then
    if 8 ≤ q.gates.length then c.modEng k (fun q => { q with gateSkip := satInc q.gateSkip })
    else c.placeGate k rep s
  else c

/-- Applies the events of an instant to a thread's context (R75): those stamped after the
previous instant and at or before this one. -/
def Thread.applyEvents (log : List CtxEv) (d six : Nat) (t : Thread) : Thread :=
  (log.filter (fun e => decide (six < e.stamp + d) && decide (e.stamp ≤ six))).foldl
    (fun t e => { t with ctx := t.ctx.apply e.change, dirs := applyDirs e.change t.dirs }) t

/-- Begins the instant `six` on a thread (R95). -/
def Thread.begin_ (entry : Nat) (log : List CtxEv) (d six : Nat) (t : Thread) : Thread :=
  { t.applyEvents log d six with pc := entry, link := [], loops := [], six := six, busy := true,
                                 inInit := false, gateDone := false, marked := [], live := [],
                                 atGate := none }

/-- Whether engine k processes instants: RUN, SIDESTEP, RECOVER, or reloaded and catching up. -/
def Engine.active (q : Engine) : Bool :=
  (decide (2 ≤ q.run.toNat) && decide (q.run.toNat ≤ 4))
    || ((q.run == ruLOADING || q.run == ruRESTART) && q.reloaded)

/-- The thread of engine k, the replay thread with `rep`. -/
def Engine.thr (q : Engine) (rep : Bool) : Thread := if rep then q.rep else q.head

/-- Writes a thread. -/
def Engine.setThr (rep : Bool) (t : Thread) (q : Engine) : Engine :=
  if rep then { q with rep := t } else { q with head := t }

/-- The open segment of a thread. -/
def Engine.segOf (q : Engine) (rep : Bool) : Seg := if rep then q.rseg else q.seg

/-- Writes the open segment of a thread. -/
def Engine.setSeg (rep : Bool) (s : Seg) (q : Engine) : Engine :=
  if rep then { q with rseg := s } else { q with seg := s }

/-- The head has reached the first instant that the bridge buffer did not hold (R363): the instants from there
up to the newest are the gap. -/
def Chip.bridgeGap (k : Nat) (c : Chip) : Chip :=
  let q := c.eng k
  let n := (c.group k).newest
  match (c.group k).bridgeLost with
  | none => c
  | some z =>
    if q.head.busy || !q.active || q.stalled || decide (q.hpos < z) || decide (n < q.hpos) then c
    else
      (c.modEng k (fun q => { q with gaps := q.gaps ++ [(q.hpos, n)] })).modGroup k
        (fun g => { g with bridgeLost := none, bridgeOn := false })

/-- A gate at the first lost instant closes the segment before a gap. -/
def Chip.gapGate (k : Nat) (rep : Bool) (pos : Nat) (c : Chip) : Chip :=
  if (c.eng k).hasGate pos then c
  else
    let c := if 8 ≤ (c.eng k).gates.length then (c.forcedNote k).commitGate k true else c
    c.placeGate k rep pos

/-- A thread that stands at a gap goes on behind it, in a replay as at the head (R363, R73): its context events
still count, a gate closes the segment before it, and the segment that begins behind it carries SAVE_SHORT, so
that the two segments give the lost span. -/
def Chip.skipGap (k : Nat) (rep : Bool) (c : Chip) : Chip :=
  let q := c.eng k
  let pos := if rep then q.rpos else q.hpos
  let on := if rep then q.run == ruSIDESTEP else q.active && !q.stalled
  match q.gaps.find? (fun g => decide (g.1 ≤ pos) && decide (pos < g.2)) with
  | none => c
  | some g =>
    if (q.thr rep).busy || !on then c else
    let lost := q.log.filter (fun e => decide (pos ≤ e.stamp) && decide (e.stamp < g.2))
    (c.gapGate k rep pos).modEng k (fun q =>
      let t := q.thr rep
      let t := { t with ctx := lost.foldl (fun x e => x.apply e.change) t.ctx,
                        dirs := lost.foldl (fun x e => applyDirs e.change x) t.dirs, atGate := none }
      let q := (q.setThr rep t).setSeg rep { q.segOf rep with start := g.2, saveShort := true }
      if rep then { q with rpos := g.2 } else { q with hpos := g.2 })

/-- An instant lies before p of a final save under way (R85, R208) and before the stamp of RETIRED (R376): no head
begins either. -/
def Chip.beforeP (c : Chip) (six : Nat) : Bool :=
  c.power.pAt.all (fun p => decide (six < p)) && c.sys.stopAt.all (fun z => decide (six < z))

/-- The undo log as an instant begins that no gate precedes: what was stored behind the GATE of the instant
before belongs to the open segment, which logs a word at its first store alone (R79). -/
def tidyUndo (start : Nat) (l : List Undo) : List Undo :=
  (l.filter (fun u => decide (u.seg ≤ start) || !l.any (fun v => v.seg == start && v.word == u.word))).map
    (fun u => { u with seg := min u.seg start })

/-- An instant begins on a thread of engine k. -/
def Chip.beginInstant (k : Nat) (rep : Bool) (pos : Nat) (c : Chip) : Chip :=
  let d := c.gridDAt k (pos - 1)
  c.modEng k (fun q =>
    let t := q.thr rep
    let q := if rep then
        { q with rmark := { six := pos, ck := t.gateCk, mem := q.rmem, undo := q.rundo, seg := q.rseg },
                 rundo := tidyUndo q.rseg.start q.rundo }
      else
        { q with mark := { six := pos, ck := t.gateCk, mem := q.mem, undo := q.undo, seg := q.seg },
                 undo := tidyUndo q.seg.start q.undo }
    q.setThr rep (t.begin_ q.entry q.log d pos))

/-- An engine stops for good or until QE_RESTART (R88, R87): data memory goes back to c, QEk is cleared,
and the context in force at c starts the base context (R422). -/
def Chip.stopEngine (k : Nat) (run : BitVec 4) (c : Chip) : Chip :=
  (c.modEng k (fun q =>
    { q with run := run, reloaded := false, mem := q.memAt q.c, gates := [], seg := {}, mark := {},
             undo := [], head := { q.head with busy := false, inInit := false }, rep := {}, rmem := [],
             rundo := [], overlay := [], rseg := {}, rmark := {}, stalled := false, forceDue := false,
             base := q.ck.ctx, baseDirs := q.ck.dirs, lostFrom := some q.c, resume := false })).setRdy (rQE k)
    false

/-- RETIRED stops metrology at its stamp (R376): an engine whose head has reached it commits and unloads. -/
def Chip.metrologyEnd (k : Nat) (c : Chip) : Chip :=
  let q := c.eng k
  match c.sys.stopAt with
  | none => c
  | some z =>
    if q.active && !q.head.busy && q.run != ruSIDESTEP && decide (z ≤ q.hpos) then
      ((c.forceAtH k false).stopEngine k ruUNLOADED).modEng k (fun q => { q with img := none })
    else c

/-- Makes a thread ready for its next instruction: an instant begins when its samples are there,
after a boundary gate due at it that no GATE placed (R114); a program change that stands at the
instant is taken first. -/
def Chip.ready (k : Nat) (rep : Bool) (c : Chip) : Chip :=
  let c := (if rep then c else (c.metrologyEnd k).bridgeGap k).skipGap k rep
  let q := c.eng k
  let t := q.thr rep
  let pos := if rep then q.rpos else q.hpos
  let may := if rep then q.run == ruSIDESTEP && decide (q.rpos < q.hpos)
             else q.active && !q.stalled && decide (q.hpos ≤ (c.group k).newest) && c.beforeP q.hpos
                  && !c.progWait k q.hpos
  if t.busy || !may then c
  else
    let c := if q.boundaryDue pos && !(!rep && q.run == ruSIDESTEP) && pos != 0
             then c.gateAt k rep pos else c
    if !rep && q.progAt pos then c.progSwitch k
    else c.beginInstant k rep pos

/-- Whether an instruction of a thread executes. -/
def Engine.canRun (q : Engine) (rep : Bool) : Bool :=
  let t := q.thr rep
  t.busy && (t.inInit || (if rep then q.run == ruSIDESTEP else q.active && !q.stalled))

/-- Completes a ticket if one is given. -/
def Chip.doneIf (t : W16) (st : W8) (c : Chip) : Chip := if t = 0 then c else c.complete t st 0

/-- The oldest outstanding gate commits when the horizons allow (R78); a full staging ring holds
commits (R232). -/
def Chip.gateCommit (k : Nat) (c : Chip) : Chip :=
  match (c.eng k).gates with
  | [] => c
  | g :: _ => if c.hznOk k g.six && !c.stagingFull then c.commitGate k false else c

/-- A tally fault (R88): outstanding gates commit as R78 allows, what is left of them and the
instants processed commit by force, the engine is HALTED, QE_TRAP carries code and PC. A fault of the replay
thread abandons its sidestep (R83 step 1), so that the head's own instants commit. -/
def Chip.tallyFault (k : Nat) (rep : Bool) (code : W8) (imm : W16) (c : Chip) : Chip :=
  let pc := ((c.eng k).thr rep).pc
  let init := (c.eng k).head.inInit
  let c := if init then c else (each (c.eng k).gates (fun _ c => c.gateCommit k) c).forceAtH k false
  let c := (c.modEng k (fun q =>
    { q with trapCode := code, trapPc := BitVec.ofNat 14 pc })).raise 0x0506 k
      (w32 (code.toNat * 2 ^ 24 + pc % 16384)) (w32 (if code = trTRAP then imm.toNat else 0))
  let t := (c.eng k).restartTicket
  ((c.stopEngine k ruHALTED).modEng k (fun q => { q with restartTicket := 0 })).doneIf t stABORTED

/-- Runs an instruction of a Q-profile thread that changes the thread alone. -/
def Chip.qPure (k : Nat) (rep : Bool) (f : Thread → Except W8 Thread) (c : Chip) : Chip :=
  let c := c.ready k rep
  let q := c.eng k
  if !q.canRun rep then c
  else match f (q.thr rep) with
  | .ok t => c.modEng k (Engine.setThr rep t)
  | .error e => c.tallyFault k rep e 0

/-- Runs an instruction of a Q-profile thread that sees and changes the whole block. -/
def Chip.qInstr (k : Nat) (rep : Bool) (f : Chip → Thread → Except W8 Chip) (c : Chip) : Chip :=
  let c := c.ready k rep
  let q := c.eng k
  if !q.canRun rep then c
  else match f c (q.thr rep) with
  | .ok c => c
  | .error e => c.tallyFault k rep e 0

/-- The thread goes on behind the instruction. -/
def Chip.qNext (k : Nat) (rep : Bool) (t : Thread) (c : Chip) : Chip :=
  c.modEng k (Engine.setThr rep (t.advance false))

/-- A word of the point table or the information block (R103, R131); a parameter bound to a quality value
reads as the last value in force (R148). -/
def Chip.infoWord (c : Chip) (k : Nat) (t : Thread) (a : Nat) : W64 :=
  let q := c.eng k
  if a < 0x1000 then
    let tab := if t.ctx.bank then q.bank1 else q.bank0
    match ptParam tab a with
    | some p =>
      let w := (c.viewAt t.six).live (0x56000 + 8 * p.1)
      (match t.ctx.params.find? (fun x => x.1 == 16 * p.1 + p.2) with
       | some x => if w.getLsbD 31 && fld w 24 4 == p.2 then x.2 else Tbl.get 0 tab a
       | none => Tbl.get 0 tab a)
    | none => Tbl.get 0 tab a
  else if a = 0x1000 then BitVec.ofNat 64 k
  else if a = 0x1008 then BitVec.ofNat 64 (c.rateAt k t.six)
  else if a = 0x1010 then BitVec.ofNat 64 (c.gridDAt k t.six)
  else if a = 0x1018 then f64OfRat (c.gridDAt k t.six * 31250 : Nat) 1000000000
  else if a = 0x1020 then BitVec.ofNat 64 (q.img.getD 0)
  else 0

/-- Reads a data-memory word as a thread sees it. -/
def Chip.qRead (c : Chip) (k : Nat) (rep : Bool) (t : Thread) (a : Nat) : W64 :=
  if a < 0x2000 then c.infoWord k t a
  else Mem.rd64 (if rep then (c.eng k).rmem else (c.eng k).mem) a

/-- The segment a store belongs to: behind the GATE of an instant the one that starts at the next, since
the gate holds the state the GATE captures (R76, R114). -/
def Engine.storeSeg (d : Nat) (rep : Bool) (q : Engine) : Nat :=
  let t := q.thr rep
  if t.gateDone then max (q.segOf rep).start (t.six + d) else (q.segOf rep).start

/-- The undo log of a thread. -/
def Engine.undoOf (rep : Bool) (q : Engine) : List Undo := if rep then q.rundo else q.undo

/-- A word still to be logged at its first store in a segment (R79). -/
def Engine.firstStore (q : Engine) (rep : Bool) (seg a : Nat) : Bool :=
  !((q.undoOf rep).any (fun u => u.seg == seg && u.word == a))

/-- Undo-log occupancy in words (R79). -/
def Engine.undoLen (q : Engine) : Nat := (tidyUndo q.seg.start q.undo).length

/-- Stores a word: logged in the undo log (head) or taken into the overlay (replay thread). -/
def Engine.store (d : Nat) (rep : Bool) (a : Nat) (v : W64) (q : Engine) : Engine :=
  let s := q.storeSeg d rep
  let new := q.firstStore rep s a
  if rep then
    { q with rundo := if new then { seg := s, word := a, old := Mem.rd64 q.rmem a } :: q.rundo else q.rundo,
             rmem := Mem.wr64 q.rmem a v,
             overlay := if q.overlay.contains a then q.overlay else a :: q.overlay }
  else
    let q := { q with undo := if new then { seg := s, word := a, old := Mem.rd64 q.mem a } :: q.undo else q.undo,
                      mem := Mem.wr64 q.mem a v }
    { q with undoHwm := BitVec.ofNat 16 (max q.undoHwm.toNat q.undoLen) }

/-- The head stalls (R79). -/
def Chip.stall (k : Nat) (c : Chip) : Chip :=
  c.modEng k (fun q => { q with stalled := true, stallCnt := satInc q.stallCnt,
                                stallAt := (c.group k).newest })

/-- Stores words at data addresses with the rules of R79 and R103; `n` words follow one another.
During initialisation nothing is logged: the checkpoint comes after it. -/
def Chip.qStore (k : Nat) (rep : Bool) (t : Thread) (l : List (Nat × W64)) (c : Chip) :
    Except W8 Chip :=
  let q := c.eng k
  if t.inInit then
    .ok ((c.modEng k (fun q => { q with mem := l.foldl (fun m p => Mem.wr64 m p.1 p.2) q.mem })).qNext
      k rep t)
  else
    let d := c.gridDAt k t.six
    let new := (l.filter (fun p => q.firstStore rep (q.storeSeg d rep) p.1 &&
      q.firstStore rep (q.segOf rep).start p.1)).length
    let extra := (l.filter (fun p => !q.overlay.contains p.1)).length
    let put := fun (r : Bool) (c : Chip) =>
      (c.modEng k (fun q => l.foldl (fun q p => q.store d r p.1 p.2) q)).qNext k r t
    if rep then
      if 1024 < q.overlay.length + extra then
        .ok (put false (c.modEng k (fun q =>
          { q.adopt with run := ruRECOVER, ssEv := true, inPlace := satInc q.inPlace })))
      else .ok (put true c)
    else if 1024 < q.undoLen + new then
      if q.gates.isEmpty then .error trUNDO else .ok (c.stall k)
    else .ok (put false c)

/-- A data address of the Q-profile for an access of `n` bytes (R103). -/
def qAddrOk (a n : Nat) : Bool := a % n == 0 && decide (a < 0x40000)

/-- The address x[rs1] plus an offset, as 64 bits. -/
def Thread.addr (t : Thread) (rs1 : Reg) (off : W64) : Nat := (t.rx rs1 + off).toNat

/-- LD (R103). -/
def Chip.qLd (k : Nat) (rep : Bool) (rd rs1 : Reg) (imm : W16) (c : Chip) : Chip :=
  c.qInstr k rep (fun c t =>
    let a := t.addr rs1 (sext16 imm)
    if qAddrOk a 8 then .ok (c.qNext k rep (t.wx rd (c.qRead k rep t a))) else .error trADDR)

/-- ST (R103). -/
def Chip.qSt (k : Nat) (rep : Bool) (rs2 rs1 : Reg) (imm : W16) (c : Chip) : Chip :=
  c.qInstr k rep (fun c t =>
    let a := t.addr rs1 (sext16 imm)
    if qAddrOk a 8 && decide (0x2000 ≤ a) then c.qStore k rep t [(a, t.rx rs2)] else .error trADDR)

/-- Offset of LDW and STW: imm8 times 16, sign-extended. -/
def imm16x (i : W8) : W64 := i.signExtend 64 * 16

/-- LDW (R103). -/
def Chip.qLdw (k : Nat) (rep : Bool) (wa : WReg) (rs1 : Reg) (imm : W8) (c : Chip) : Chip :=
  c.qInstr k rep (fun c t =>
    let a := t.addr rs1 (imm16x imm)
    if qAddrOk a 16 then
      .ok (c.qNext k rep (t.ww wa (c.qRead k rep t (a + 8) ++ c.qRead k rep t a)))
    else .error trADDR)

/-- STW (R103): two words. -/
def Chip.qStw (k : Nat) (rep : Bool) (wa : WReg) (rs1 : Reg) (imm : W8) (c : Chip) : Chip :=
  c.qInstr k rep (fun c t =>
    let a := t.addr rs1 (imm16x imm)
    if qAddrOk a 16 && decide (0x2000 ≤ a) then
      let v := t.rw wa
      c.qStore k rep t [(a, v.extractLsb' 0 64), (a + 8, v.extractLsb' 64 64)]
    else .error trADDR)

/-- The sample a look-back reads (R105, R106): clipped to the first instant after the load or the
latest RATE change; the flag is LB_CLIP. -/
def Chip.lookBack (c : Chip) (k idx six n : Nat) : Sample × Bool :=
  let d := c.gridDAt k six
  let want := six - n * d
  let rs := (((c.group k).rates.find? (fun r => decide (r.1 ≤ six))).map Prod.fst).getD 0
  let lo := (max (c.eng k).loadSix rs + d - 1) / d * d
  let s := match c.instantAt k (max want lo) with
    | some p => p.taps.getD idx {}
    | none => {}
  (s, decide (six < n * d) || decide (want < lo))

/-- The value of a sample in the unit of its tap, primary or check chain; the check chain has none while
it measures references (R105). -/
def chainVal (chk : Bool) (s : Sample) : W64 :=
  if chk then (if s.st.getLsbD 2 then qNaN else s.vc) else s.v

/-- What TAP and TAPC put into rd (R105). -/
def tapRead (tapc : Bool) (sel : Nat) (s : Sample) : W64 :=
  let arb := fld s.st 24 4
  if sel = 0 then chainVal (tapc || arb == 4 || arb == 6) s
  else if sel = 1 then (if s.zc = 0 then qNaN else f64OfInt s.zc (-8))
  else match s.edge with
    | some e => if fld s.st 16 4 = mPULSE then f64OfInt e 0 else qNaN
    | none => qNaN

/-- TAP, TAPC (`chk`) and TAPST (`st`) (R105). -/
def Chip.qTap (k : Nat) (rep chk st : Bool) (rd rs1 : Reg) (imm : W16) (c : Chip) : Chip :=
  c.qInstr k rep (fun c t =>
    let sel := fld imm 4 4
    if t.inInit || decide ((if st then 0 else 2) < sel) then .error trILLEGAL
    else
      let idx := (t.rx rs1 + BitVec.ofNat 64 (fld imm 0 4)).toNat
      if 16 ≤ idx then .error trTAPIDX
      else
        let r := c.lookBack k idx t.six (fld imm 8 8)
        let v := if st then (r.1.st ||| (if r.2 then 0x40 else 0)).zeroExtend 64
                 else tapRead chk sel r.1
        .ok (c.qNext k rep (t.wx rd v)))

/-- The meter point a register names, when it is defined on engine k's group (R109). -/
def Chip.mpOf (c : Chip) (k : Nat) (v : Nat) : Option Nat :=
  if v < 64 ∧ c.mpEngine v = some k then some v else none

/-- A tap of the meter point was not NORMAL at the instant (R66, CTX DEGRADED). -/
def Chip.degradedAt (c : Chip) (k m six : Nat) : Bool :=
  match c.instantAt k six with
  | some p => (c.mpTaps m).any (fun n => fld (p.taps.getD (n % 16) ({} : Sample)).st 24 4 != 1)
  | none => c.mpDegraded m

/-- CONFIG_SUSPECT of the instant (R42, R97). -/
def Chip.suspectAt (c : Chip) (k six : Nat) : Bool :=
  ((c.instantAt k six).map Instant.suspect).getD c.suspect

/-- A condition other than COMMISSION makes the instant's results not-legal (R376). -/
def Chip.unlawfulAt (c : Chip) (k six : Nat) : Bool :=
  ((c.instantAt k six).map Instant.notLegal).getD c.unlawful

/-- CUTOFF of the instant: set by the instant's MARK (R110). -/
def Thread.cutoff (t : Thread) (m : Nat) : Bool :=
  t.marked.contains m && (Tbl.get ({} : DirUnit) t.dirs m).cutoff

/-- The context word (R110). -/
def Chip.ctxWord (c : Chip) (k : Nat) (t : Thread) (m : Nat) : W64 :=
  let x := t.ctx.mp m
  BitVec.ofNat 64 (t.ctx.interval.toNat * 2 ^ 32 + b2n (x.session != 0) * 2 ^ 27
    + b2n (c.suspectAt k t.six) * 2 ^ 26 + b2n (c.degradedAt k m t.six) * 2 ^ 25 + b2n t.ctx.notLegal * 2 ^ 24
    + b2n (t.cutoff m) * 128 + b2n x.rev * 64 + (t.ctx.tariff m).toNat)

/-- CTX (R110). -/
def Chip.qCtx (k : Nat) (rep : Bool) (rd rs1 : Reg) (sel : W16) (c : Chip) : Chip :=
  c.qInstr k rep (fun c t =>
    let put := fun v => Except.ok (c.qNext k rep (t.wx rd v))
    if t.inInit || decide (3 < sel.toNat) || (sel.getLsbD 0 && rs1.val != 0) then .error trILLEGAL
    else if sel = 1 then put (BitVec.ofNat 64 t.six)
    else if sel = 3 then put (BitVec.ofNat 64 (c.gridDAt k t.six))
    else
      let v := c.viewAt t.six
      match v.mpOf k (t.rx rs1).toNat with
      | none => .error trBINKEY
      | some m => put (if sel = 0 then v.ctxWord k t m else (t.ctx.mp m).session.zeroExtend 64))

/-- The flags results of meter point m carry at the instant (R161, R376, R42). -/
def Chip.binFlags (c : Chip) (k : Nat) (t : Thread) (m : Nat) : Bool × Bool × Bool :=
  (t.ctx.notLegal || c.unlawfulAt k t.six, c.degradedAt k m t.six, c.suspectAt k t.six)

/-- The checks BIN, BINS and SPILL share (R108, R109, R114). -/
def Chip.binCheck (c : Chip) (k : Nat) (t : Thread) (rs1 : Reg) (slot : Nat) : Except W8 Nat :=
  if t.inInit || t.gateDone then .error trILLEGAL
  else match c.mpOf k (fld (t.rx rs1) 0 6) with
  | none => .error trBINKEY
  | some m =>
    if !c.slotDef m slot then .error trBINKEY
    else if c.mpDir m && !t.marked.contains m then .error trBINORDER
    else .ok m

/-- The accumulator is cleared unless K is set. -/
def Thread.keepW (wa : WReg) (keep : Bool) (t : Thread) : Thread := if keep then t else t.ww wa 0

/-- BIN (`bySign` off) and BINS (R108). -/
def Chip.qBin (k : Nat) (rep bySign : Bool) (wa : WReg) (rs1 : Reg) (slot : Fin 8) (keep : Bool)
    (c : Chip) : Chip :=
  c.qInstr k rep (fun c t =>
    let w := c.viewAt t.six
    match w.binCheck k t rs1 slot.val with
    | .error e => .error e
    | .ok m =>
      let v := (t.rw wa).toInt
      let net := w.slotNet m slot.val
      let x := t.ctx.mp m
      let fl := w.binFlags k t m
      let b : Bin :=
        { six := t.six, mp := m, slot := slot.val,
          rev := !net && (if bySign then decide (v < 0) else x.rev && w.mpDir m),
          tariff := (t.ctx.tariff m).toNat, interval := t.ctx.interval, session := x.session,
          value := if bySign && !net then v.natAbs else v,
          notLegal := fl.1, degraded := fl.2.1, suspect := fl.2.2 }
      let q := c.eng k
      let seg := q.segOf rep
      let t' := t.keepW wa keep
      if t.cutoff m || (bySign && v == 0) then .ok (c.qNext k rep t')
      else
        let seg' := { seg with bins := seg.bins ++ [b] }
        if 2048 < q.binCount seg' then .ok (if rep then c else c.stall k)
        else .ok ((c.modEng k (Engine.setSeg rep seg')).qNext k rep t'))

/-- SPILL (R109, R154). -/
def Chip.qSpill (k : Nat) (rep : Bool) (wa : WReg) (rs1 : Reg) (slot : Fin 8) (keep : Bool)
    (c : Chip) : Chip :=
  c.qInstr k rep (fun c t =>
    match (c.viewAt t.six).binCheck k t rs1 slot.val with
    | .error e => .error e
    | .ok m =>
      let t' := t.keepW wa keep
      if t.cutoff m then .ok (c.qNext k rep t')
      else
        let seg := (c.eng k).segOf rep
        let seg' := { seg with spills := seg.spills ++ [(t.six, 8 * m + slot.val, (t.rw wa).toInt)] }
        .ok ((c.modEng k (Engine.setSeg rep seg')).qNext k rep t'))

/-- Whether a direction event stands in an engine's log already (R111). -/
def Engine.knows (q : Engine) (m z : Nat) (rev : Bool) : Bool :=
  (q.log ++ q.late).any (fun e => e.stamp == z && e.change == .direction m rev)

/-- MARK (R109, R150-R152). -/
def Chip.qMark (k : Nat) (rep : Bool) (rs1 rs2 : Reg) (c : Chip) : Chip :=
  c.qInstr k rep (fun c t =>
    if t.inInit || t.gateDone then .error trILLEGAL
    else
    let w := c.viewAt t.six
    match w.mpOf k (t.rx rs1).toNat with
    | none => .error trBINKEY
    | some m =>
      if !w.mpDir m then .error trBINKEY
      else if t.marked.contains m then .error trBINORDER
      else
        let v := t.rx rs2
        let ok := fFinite v
        let two := fun a => two w.live (aMp m + a)
        let d := c.gridDAt k t.six
        -- DWELL_MS in grid instants is 32 per ms: (s - z) / D >= N for N = DWELL_MS x rate / 1000
        let r := (Tbl.get ({} : DirUnit) t.dirs m).mark (w.live (aMp m + 0x0C)) (two 0x10) (two 0x18)
          t.six (if ok then v else 0)
        let t' := { t with dirs := Tbl.put {} t.dirs m r.1, marked := m :: t.marked }
        let c := if ok then c else c.modBill (fun b => b.putMp m { b.mp m with nanMark := true })
        let c := c.qNext k rep t'
        match r.2 with
        | some z =>
          if (c.eng k).knows m z r.1.rev then .ok c
          else .ok (c.toEngine k { stamp := z / d * d, src := 1, change := .direction m r.1.rev })
        | none => .ok c)

/-- An output item. -/
def Thread.item (t : Thread) (m : Nat) (tag : BitVec 6) (v : W64) : ResItem :=
  { six := t.six, mp := m, tag := tag.toNat, value := v }

/-- PUSHL (R111): only the head publishes, and only in RUN and SIDESTEP. -/
def Chip.qPushl (k : Nat) (rep : Bool) (rs1 rs2 : Reg) (tag : BitVec 6) (c : Chip) : Chip :=
  c.qInstr k rep (fun c t =>
    if t.inInit then .error trILLEGAL
    else match (c.viewAt t.six).mpOf k (t.rx rs1).toNat with
    | none => .error trBINKEY
    | some m =>
      let q := c.eng k
      if !rep && (q.run == ruRUN || q.run == ruSIDESTEP) then
        .ok ((c.qNext k rep { t with live := t.live ++ [t.item m tag (t.rx rs2)] }).modDisp
          (fun x => { x with live := Tbl.put 0 x.live (64 * m + tag.toNat) (t.rx rs2) }))
      else .ok (c.qNext k rep t))

/-- PUSHR (R111). -/
def Chip.qPushr (k : Nat) (rep : Bool) (rs1 rs2 : Reg) (tag : BitVec 6) (c : Chip) : Chip :=
  c.qInstr k rep (fun c t =>
    if t.inInit || t.gateDone then .error trILLEGAL
    else match (c.viewAt t.six).mpOf k (t.rx rs1).toNat with
    | none => .error trBINKEY
    | some m =>
      let seg := (c.eng k).segOf rep
      let seg' := { seg with items := seg.items ++ [t.item m tag (t.rx rs2)] }
      .ok ((c.modEng k (Engine.setSeg rep seg')).qNext k rep t))

/-- LIVE packets of the items a thread still holds (R72, R245). -/
def Chip.flushLive (k : Nat) (rep : Bool) (c : Chip) : Chip :=
  let q := c.eng k
  let t := q.thr rep
  let put := fun (l : List ResItem) (c : Chip) =>
    c.fqPut 2 (mkPkt 0x20 k (w32 (l.length * 65536 + q.epoch.toNat) :: words64 t.six
      ++ l.flatMap (fun r => w32 (r.tag * 256 + r.mp) :: words64 r.value.toNat)))
  ((each (chunks 340 t.live.length t.live) put c).modDisp (fun d =>
    { d with live := t.live.foldl (fun x r => Tbl.put 0 x (64 * r.mp + r.tag) r.value) d.live })).modEng
      k (Engine.setThr rep { t with live := [] })

/-- GATE (R76, R114). -/
def Chip.qGate (k : Nat) (rep : Bool) (c : Chip) : Chip :=
  c.qInstr k rep (fun c t =>
    if t.inInit || t.gateDone then .error trILLEGAL
    else
      let t' := ({ t with gateDone := true } : Thread).advance false
      .ok ((c.modEng k (Engine.setThr rep { t' with atGate := some t'.capture })).gateAt k rep
        (t.six + c.gridDAt k t.six)))

/-- FENCE (R115): live items pushed before it leave. -/
def Chip.qFence (k : Nat) (rep : Bool) (c : Chip) : Chip :=
  c.qInstr k rep (fun c t => .ok ((c.qNext k rep t).flushLive k rep))

/-- YIELD (R95, R76): the instant ends. -/
def Chip.qYield (k : Nat) (rep : Bool) (cycles : Nat) (c : Chip) : Chip :=
  c.qInstr k rep (fun c t =>
    if t.inInit || !t.loops.isEmpty || !t.link.isEmpty then .error trILLEGAL
    else if !t.gateDone then .error trNOGATE
    else
      let d := c.gridDAt k t.six
      let c := c.flushLive k rep
      let w := w32 (cycles % 2 ^ 18 * 16384 + t.pc % 16384)
      let c := c.modEng k (fun q =>
        let seg := q.segOf rep
        let q := (q.setThr rep { q.thr rep with busy := false })
        let q := { q with cycMax := BitVec.ofNat 16 (max q.cycMax.toNat (min cycles 0xFFFF)) }
        -- the trace word belongs to the segment that holds the instant
        let mk := fun (s : Seg) => if s.trace.any (fun x => x.1 == t.six) then s
          else { s with trace := s.trace ++ [(t.six, w)] }
        let inGate := fun (g : Gate) => decide (g.seg.start ≤ t.six) && decide (t.six < g.six)
        let q := if !q.traceOn then q
          else if seg.start ≤ t.six then q.setSeg rep (mk seg)
          else { q with gates := mapIf inGate (fun g => { g with seg := mk g.seg }) q.gates }
        if rep then { q with rpos := q.rpos + d } else { q with hpos := q.hpos + d })
      -- a program change that stands at H is taken when the head reaches it
      let h := (c.eng k).hpos
      if !rep && (c.eng k).progAt h && !c.progWait k h then .ok (c.progSwitch k) else .ok c)

/-- A context with the logged events stamped before an instant taken up (R422). -/
def Engine.ctxUpTo (q : Engine) (six : Nat) (x : EngCtx) : EngCtx :=
  (q.log.filter (fun e => decide (e.stamp < six))).foldl (fun x e => x.apply e.change) x

/-- Direction units with the logged events stamped before an instant taken up (R153, R422). -/
def Engine.dirsUpTo (q : Engine) (six : Nat) (x : Tbl DirUnit) : Tbl DirUnit :=
  (q.log.filter (fun e => decide (e.stamp < six))).foldl (fun x e => applyDirs e.change x) x

/-- HALT of a Q-profile program: initialisation ends (R96); in a fresh load the checkpoint of c is
taken from it (R130 step 3). After a recovered image the engine begins at the first sample instant that
follows (R128). -/
def Chip.qHalt (k : Nat) (rep : Bool) (c : Chip) : Chip :=
  c.qInstr k rep (fun c t =>
    if !t.inInit || rep then .error trILLEGAL
    else
      let t' := { t with busy := false, inInit := false, pc := 0, link := [], loops := [] }
      let q := c.eng k
      let s := if q.atHalt then c.nextSample k else q.c
      let t' := { t' with ctx := q.ctxUpTo s t'.ctx, dirs := q.dirsUpTo s t'.dirs }
      .ok (c.modEng k (fun q =>
        { q with head := t', ck := t'.ckpt, log := q.log.filter (fun e => decide (s ≤ e.stamp)), undo := [], reloaded := true, stalled := false, ckOk := true,
                 atHalt := false, c := s, hpos := s, loadSix := s, seg := { start := s } })))

/-- TRAP (R88). -/
def Chip.qTrap (k : Nat) (rep : Bool) (imm : W16) (c : Chip) : Chip :=
  let c := c.ready k rep
  if (c.eng k).canRun rep then c.tallyFault k rep trTRAP imm else c

/-- RETRACT (R80 step 6, R245). -/
def Chip.retract (k first last : Nat) (c : Chip) : Chip :=
  let shown := fun (p : Nat × W64) => !(c.engMps k).contains (p.1 / 64)
  (c.modDisp (fun d => { d with live := d.live.filter shown })).fqPut 2
    (mkPkt 0x21 k ((c.eng k).epoch.zeroExtend 32 :: words64 first ++ words64 last))

/-- A new epoch, and the RETRACT that opens it. -/
def Chip.newEpoch (k first : Nat) (c : Chip) : Chip :=
  let c := c.modEng k (fun q => { q with epoch := q.epoch + 1 })
  let h := (c.eng k).hpos
  c.retract k first (h - c.gridDAt k (h - 1))

/-- The switchover of a sidestep (R80 steps 5 to 7). -/
def Chip.switchover (k : Nat) (c : Chip) : Chip :=
  let q := c.eng k
  if q.run ≠ ruSIDESTEP ∨ q.rpos < q.hpos ∨ q.rep.busy ∨ q.head.busy then c
  else (c.modEng k (fun q => { q.adopt with run := ruRUN })).newEpoch k q.ssFrom

/-- An engine stops at c for a reload: data memory rolled back through the undo log, outstanding gates and a
replay dropped (R87 step 1, R362 step 2). -/
def Engine.stopAtC (q : Engine) : Engine :=
  { q with run := ruRESTART, reloaded := false, mem := q.memAt q.c, undo := [],
           gates := [], rundo := [], rmem := [], stalled := false, forceDue := false,
           head := { q.head with busy := false, inInit := false }, rep := {} }

/-- A restart of engine k under R87, or FAILED at the third within 600 s; a gate that the log forced before
is no longer due (R422). -/
def Chip.engineFault (k : Nat) (c : Chip) : Chip :=
  let recent := c.now :: (c.eng k).restarts.filter (fun r => decide (c.now < r + 600 * 32000))
  let c := c.raise 0x0504 k 0 0
  if 3 ≤ recent.length then
    let t := (c.eng k).restartTicket
    (((c.stopEngine k ruFAILED).modEng k (fun q =>
      { q with restarts := recent, restartTicket := 0 })).raise 0x0505 k 0 0).doneIf t stABORTED
  else
    let q := c.eng k
    ((c.modEng k (fun q => { q.stopAtC with restarts := recent })).modGroup k
      (fun g => { g with bridgeOn := true, bridgeFrom := q.ck.pos q.c,
                         bridge := ((c.group k).newest - q.c) / c.gridD k + 1,
                         bridgeLost := none })).setRdy (rQE k) false

/-- The bytes of an image's data section, as it lies in data memory (R96). -/
def TallyImg.dataSec (i : TallyImg) : List W8 :=
  slice i.bytes (0x200 + 4 * leAt i.bytes 0x28 4) (leAt i.bytes 0x2C 4)

/-- Initialisation starts on engine k (R96): registers zero, data memory from the data section. -/
def Engine.initStart (x : TallyImg) (ctx : EngCtx) (dirs : Tbl DirUnit) (q : Engine) : Engine :=
  { q with mem := Mem.wrN [] 0x2000 x.dataSec, undo := [],
           head := { pc := x.initAt, busy := true, inInit := true, six := q.c, ctx := ctx, dirs := dirs } }

/-- A lockstep mismatch of engine k (R86, R87): the latest gate is restored and the instants replayed in
place; while the engine restarts or loads it goes on doing so, and an initialisation starts anew. DESIGN CHOICE: the
mismatches of an instant are counted on through the restart that they cause (log 180). -/
def Chip.engLockstep (k : Nat) (c : Chip) : Chip :=
  let q := c.eng k
  if !q.active && !q.head.inInit then c else
  let pos := if q.run = ruSIDESTEP then q.rpos else q.hpos
  let n := if q.mmAt = pos ∧ q.mmRun ≠ 0 then q.mmRun + 1 else 1
  let ss := q.run == ruSIDESTEP || (q.run == ruRECOVER && q.ssEv)
  let back := fun (q : Engine) =>
    if q.head.inInit then q.initStart (c.img (q.img.getD 0)) q.head.ctx q.head.dirs
    else
      let q := if q.run = ruSIDESTEP then q.adopt else q
      { q.goBack q.lastGate with ssEv := ss }
  let c := (c.modEng k (fun q =>
    { back q with ssLock := satInc q.ssLock, mmAt := pos, mmRun := n })).raise 0x0503 k 0 0
  if 3 ≤ n then c.engineFault k else c

/-- The replay in place has reached the newest sample (R86). -/
def Chip.recoverDone (k : Nat) (c : Chip) : Chip :=
  let q := c.eng k
  if q.run ≠ ruRECOVER ∨ q.hpos ≤ (c.group k).newest ∨ q.head.busy then c
  else
    let c := c.modEng k (fun q => { q with run := ruRUN, ssEv := false })
    if q.ssEv then c.newEpoch k q.ssFrom else c

/-- Verifies an image at a load (R128): the first good copy; a bad first copy is rewritten. -/
def Chip.imgVerify (i : Nat) (c : Chip) : Chip × Bool :=
  let x := c.img i
  if !x.installed || (x.bad1 && x.bad2) then (c, false)
  else (c.modImg i (fun y => { y with bad1 := false }), true)

/-- Both library copies are bad (R128): the engine is not started and holds nothing; QUARANTINE, cause
IMAGE. -/
def Chip.imgBad (k i : Nat) (c : Chip) : Chip :=
  let t := (c.eng k).restartTicket
  let c := (c.stopEngine k ruUNLOADED).modEng k (fun q =>
    { q with restartTicket := 0, img := none, late := [] })
  ((c.modSys (fun s => { s with qcause := s.qcause ||| 2 })).raise 0x0508 k (w32 i) 0).doneIf t
    stINTEGRITY

/-- Writes the point tables of engine k at a load (R131): the bank in force for c, the other for a legal
change that is chosen but lies behind c (R104). -/
def Chip.writeBanks (k : Nat) (bank : Bool) (c : Chip) : Chip :=
  let now := (c.viewAt (c.eng k).c).live
  let last := (c.viewAt (2 ^ 64)).live
  c.modEng k (fun q =>
    { q with bank0 := ptab (if bank then last else now) k false,
             bank1 := ptab (if bank then now else last) k true })

/-- Loads an image afresh: registers zero, data memory from the data section, INIT runs (R96). The
context and the direction units are those given. -/
def Chip.loadFresh (k i : Nat) (ctx : EngCtx) (dirs : Tbl DirUnit) (c : Chip) : Chip :=
  let r := c.imgVerify i
  if !r.2 then r.1.imgBad k i else
  let c := r.1
  let x := c.img i
  (c.modEng k (fun q =>
    ({ q with img := some i, imgDecl := satNat 16 x.w, imgFoot := satNat 16 x.foot,
              entry := x.entry, initAt := x.initAt, gates := [], seg := { start := q.c }, mark := {},
              rep := {}, rmem := [], rundo := [], overlay := [], rseg := {}, rmark := {},
              prog := q.prog.filter (fun s => decide (q.c < s)), gaps := [], resume := false,
              hpos := q.c, loadSix := q.c, reloaded := false, stalled := false,
              ckOk := false } : Engine).initStart x ctx dirs)).writeBanks k ctx.bank

/-- PROG_LOAD_DONE (R130 step 2): SV has written the new image, and initialisation starts. -/
def Chip.progLoaded (k : Nat) (c : Chip) : Chip :=
  let q := c.eng k
  if q.run ≠ ruLOADING ∨ q.reloaded ∨ q.head.inInit then c
  else c.loadFresh k ((c.viewAt q.c).cf (aGate k) 16 8) q.ck.ctx q.ck.dirs

/-- The context of a stopped engine that resumes (R422): the base context and the entries up to
an instant. -/
def Engine.resumeCtx (q : Engine) (six : Nat) : EngCtx := q.ctxUpTo six q.base

/-- The direction units that go with it. -/
def Engine.resumeDirs (q : Engine) (six : Nat) : Tbl DirUnit := q.dirsUpTo six q.baseDirs

/-- QE_RELOAD_DONE (R87 steps 2 and 3): the image is verified and the checkpoint of c restored; without a
checkpoint of this program INIT runs (R96). After HALTED or FAILED (QE_RESTART) metering resumes at the
newest sample under the context in force. -/
def Chip.reloadDone (k : Nat) (c : Chip) : Chip :=
  let q := c.eng k
  if q.run ≠ ruRESTART ∨ q.reloaded ∨ q.head.inInit then c else
  let r := c.imgVerify (q.img.getD 0)
  if !r.2 then r.1.imgBad k (q.img.getD 0) else
  let c := r.1
  let resume := q.resume
  let at_ := if resume then (c.group k).newest else q.c
  let ck : Ckpt := if resume then
      { q.ck with ctx := q.resumeCtx at_, dirs := q.resumeDirs at_, gatePos := none }
    else q.ck
  let c := c.modEng k (fun q =>
    { q with gates := [], c := at_, hpos := ck.pos at_, ssFrom := at_, ck := ck,
             head := Thread.ofCkpt ck, loadSix := if resume then at_ else q.loadSix,
             seg := { start := at_ }, mark := {}, rep := {}, rmem := [], rundo := [], overlay := [],
             rseg := {}, rmark := {}, reloaded := true, stalled := false, resume := false,
             log := if resume then q.log.filter (fun e => decide (at_ ≤ e.stamp)) else q.log })
  if q.ckOk then c else c.loadFresh k (q.img.getD 0) ck.ctx ck.dirs

/-- QE_CATCH_UP (R87 step 5): RETRACT from c on, epoch + 1, QEk set, RUN. -/
def Chip.catchUp (k : Nat) (c : Chip) : Chip :=
  let q := c.eng k
  if q.run ≠ ruRESTART ∨ ¬ q.reloaded ∨ q.hpos ≤ (c.group k).newest ∨ q.head.busy then c
  else
    let c := c.modEng k (fun q => { q with run := ruRUN, reloaded := false, restartTicket := 0 })
    let c := (c.newEpoch k q.ssFrom).setRdy (rQE k) true
    (c.modGroup k (fun g => { g with bridgeOn := false, bridge := 0, bridgeLost := none })).doneIf
      q.restartTicket stOK

/-- HEAD_CATCH_UP (R130 step 4, R374): a loaded engine has reached the newest sample; the epoch
stays. -/
def Chip.headCaught (k : Nat) (c : Chip) : Chip :=
  let q := c.eng k
  if q.run ≠ ruLOADING ∨ ¬ q.reloaded ∨ q.hpos ≤ (c.group k).newest ∨ q.head.busy then c
  else
    let us := (q.hpos - q.stallAt) * 125 / 4
    ((c.modEng k (fun q =>
      { q with run := ruRUN, reloaded := false,
               stallMax := BitVec.ofNat 16 (max q.stallMax.toNat (min us 0xFFFF)) })).setRdy
        (rQE k) true).modGroup k (fun g => { g with bridgeOn := false, bridge := 0, bridgeLost := none })

/-- A stall of the head ends; its length counts (QE_STALL.MAX_US). -/
def Chip.unstall (k : Nat) (c : Chip) : Chip :=
  let us := ((c.group k).newest - (c.eng k).stallAt) * 125 / 4
  c.modEng k (fun q =>
    { q with stalled := false, stallMax := BitVec.ofNat 16 (max q.stallMax.toNat (min us 0xFFFF)) })

/-- The head's stall ends once the undo log and the bin store have room, or nothing is left that could commit
(R79). -/
def Chip.stallEnd (k : Nat) (c : Chip) : Chip :=
  let q := c.eng k
  let full := decide (1024 ≤ q.undoLen) || decide (2048 ≤ q.binCount q.seg)
  if !q.stalled || q.run == ruLOADING || (full && !q.gates.isEmpty) then c else c.unstall k

/-- A forced gate falls due: 3,584 samples behind c, or the context event log is full (R83, R88). A stalled head
reaches no GATE: DESIGN CHOICE, it takes the gate at H between instants, as at a power failure, and goes on
(log 150). -/
def Chip.forcedDue (k : Nat) (c : Chip) : Chip :=
  let q := c.eng k
  if !(decide (2 ≤ q.run.toNat) && decide (q.run.toNat ≤ 4)) then c
  else if c.commitLag k < 3584 ∧ q.log.length ≤ 256 ∧ ¬ q.forceDue then c
  else
    let c := c.modEng k (fun q => { q.abandon with forceDue := true })
    if (c.eng k).stalled then (c.forceAtH k false).unstall k else c

/-- TAPREC packet of the newest instant (R134); a packet that FQ7 drops is counted. -/
def Chip.tapRecord (k : Nat) (c : Chip) : Chip :=
  let q := c.eng k
  if q.recMask = 0 then c else
  match (c.group k).buf with
  | [] => c
  | i :: _ =>
    let taps := (List.range 16).filter (fun n => q.recMask.getLsbD n)
    let p := mkPkt 0x71 k (w32 (65536 + q.recMask.toNat) :: words64 i.six
      ++ taps.flatMap (fun n => let s := i.taps.getD n {}
                                [Config.sampleWord s.p, Config.sampleWord s.c, s.st]))
    let drop := b2n (!c.fqTakes 7 p)
    (c.fqPut 7 p).modEng k (fun q => { q with recDrop := q.recDrop + BitVec.ofNat 32 drop })

/-- Ends a tap recording with a status; its result counts the dropped packets (R134). -/
def Chip.recordEnd (k : Nat) (st : W8) (c : Chip) : Chip :=
  let q := c.eng k
  if q.recMask = 0 then c
  else (c.modEng k (fun q => { q with recMask := 0, recTicket := 0, recDrop := 0 })).complete
    q.recTicket st q.recDrop

/-- The value a quality binding has put in force, else the committed parameter (R148). -/
def Chip.qualNow (c : Chip) (m par : Nat) : W64 :=
  match (c.bill.mp m).qval with
  | some q => if q.1 = par then q.2 else two c.live (aMp m + 0x20 + 8 * par)
  | none => two c.live (aMp m + 0x20 + 8 * par)

/-- A QUAL event for meter point m (R148), under the binding of its stamp: a value equal to the one in force is
no event; the return to the committed parameter (R149) is one where a value is in force. -/
def Chip.qualEvent (m stamp : Nat) (v : Option W64) (c : Chip) : Chip :=
  let par := (c.viewAt stamp).cf (0x56000 + 8 * m) 24 4
  let now := c.cb (0x56000 + 8 * m) 31 && c.cf (0x56000 + 8 * m) 24 4 == par
  let new := match v with
    | some x => x != c.qualNow m par
    | none => (c.bill.mp m).qval.any (fun q => q.1 == par)
  if !new then c
  else
    let c := if now then c.modBill (fun b => b.putMp m { b.mp m with qval := v.map (fun x => (par, x)) }) else c
    match c.mpEngine m with
    | some k => c.toEngine k { stamp := stamp, src := 2, change := .quality m par v }
    | none => c

/-- The RS-485 port of a binding. -/
def Chip.qualPort (c : Chip) (m : Nat) : Bool := c.cb (0x56000 + 8 * m) 30

/-- A request of a binding leaves its port. DESIGN CHOICE: between two sample instants it is stamped with the
newest (log 162). -/
def Chip.qualSend (m : Nat) (c : Chip) : Chip :=
  match c.mpEngine m with
  | some k => c.modBill (fun b => b.putMp m { b.mp m with qreq := some (c.group k).newest, qwait := false })
  | none => c.modBill (fun b => b.putMp m { b.mp m with qwait := false })

/-- QUAL_POLL (R148, R149): the request is sent when its port is free; bindings of one port take turns. -/
def Chip.qualPoll (m : Nat) (c : Chip) : Chip :=
  if !c.cb (0x56000 + 8 * m) 31 || (c.mpEngine m).isNone || (c.bill.mp m).qreq.isSome then c
  else if (List.range 64).any (fun n => (c.bill.mp n).qreq.isSome && c.qualPort n == c.qualPort m) then
    c.modBill (fun b => b.putMp m { b.mp m with qwait := true })
  else c.qualSend m

/-- The port of a closed request is free for the next binding that waits (R149). -/
def Chip.qualNext (m : Nat) (c : Chip) : Chip :=
  match (List.range 64).find? (fun n => (c.bill.mp n).qwait && c.qualPort n == c.qualPort m) with
  | some n => c.qualSend n
  | none => c

/-- The received registers as a value (R148, QE_MP_QUAL_A.FORMAT). -/
def Chip.qualValue (c : Chip) (m : Nat) (raw : List W16) : W64 :=
  let a := raw.getD 0 0
  let b := raw.getD 1 0
  let e := c.cf (0x56004 + 8 * m) 10 2
  match c.cf (0x56000 + 8 * m) 28 2 with
  | 0 => f64OfF32 (a ++ b)
  | 1 => f64OfF32 (b ++ a)
  | 2 => f64OfRat a.toInt (10 ^ e)
  | _ => f64OfRat a.toNat (10 ^ e)

/-- A binary64 NaN. -/
def isNaN (v : W64) : Bool := fld v 52 11 == 0x7FF && fld v 0 52 != 0

/-- A quality request fails (R149). -/
def Chip.qualFail (m : Nat) (c : Chip) : Chip :=
  let s := c.bill.mp m
  match s.qreq with
  | none => c
  | some z =>
    let n := s.qfails + 1
    let lost := decide (c.cf (0x56004 + 8 * m) 24 4 ≤ n) && !s.qlost
    let c := c.modBill (fun b => b.putMp m { b.mp m with qreq := none, qfails := min n 15,
                                                         qlost := s.qlost || lost })
    let c := if lost then
        (c.qualEvent m z none).raise 0x050C ((c.mpEngine m).getD 0) (w32 m)
          (w32 (c.cf (0x56000 + 8 * m) 24 4))
      else c
    c.qualNext m

/-- A valid response, or one whose value is a NaN (R148, R149). -/
def Chip.qualAnswer (m : Nat) (raw : List W16) (c : Chip) : Chip :=
  match (c.bill.mp m).qreq with
  | none => c
  | some z =>
    let v := c.qualValue m raw
    if isNaN v then c.qualFail m
    else ((c.modBill (fun b => b.putMp m { b.mp m with qreq := none, qfails := 0,
                                                       qlost := false })).qualEvent m z (some v)).qualNext m

/-- QE_RESTART (04). -/
def cmdQeRestart (r : CmdReq) (c : Chip) : Chip × Ans :=
  let k := fld r.a0 0 3
  let run := (c.eng k).run
  if run ≠ ruHALTED ∧ run ≠ ruFAILED then (c, { st := stDENIED })
  else c.long r.m.val 0x0501 k (fun t c =>
    c.modEng k (fun q => { q with run := ruRESTART, reloaded := false, restarts := [], resume := true,
                                  stoppedRun := q.run, restartTicket := t }))

/-- A cancelled QE_RESTART ends (R46): the engine stands HALTED or FAILED again, before the reload with the log
it has kept, after it at its c. -/
def Chip.restartCancel (k : Nat) (c : Chip) : Chip :=
  let q := c.eng k
  let off := fun (q : Engine) => { q with run := q.stoppedRun, resume := false, restartTicket := 0 }
  if q.resume then c.modEng k off else (c.stopEngine k q.stoppedRun).modEng k off

/-- QE_CNT_CLR (04). -/
def cmdQeCntClr (r : CmdReq) (c : Chip) : Chip × Ans :=
  (c.modEng (fld r.a0 0 3) (fun q =>
    { q with stallCnt := 0, stallMax := 0, ssCtx := 0, ssLock := 0, forced := 0, lateCnt := 0,
             gateSkip := 0, inPlace := 0, cycMax := 0 }), {})

/-- QE_TRACE (04). -/
def cmdQeTrace (r : CmdReq) (c : Chip) : Chip × Ans :=
  if (c.fq 7).owner ≠ some r.m.val then (c, { st := stLOCKED })
  else (c.modEng (fld r.a0 0 3) (fun q => { q with traceOn := r.a1.getLsbD 0 }), {})

/-- QE_TAP_RECORD (R134). DESIGN CHOICE: BUSY while a recording runs on the engine (log 184). -/
def cmdQeTapRecord (r : CmdReq) (c : Chip) : Chip × Ans :=
  let k := fld r.a0 0 3
  let mask : W16 := BitVec.ofNat 16 r.a1.toNat
  let n := ((List.range 16).filter (fun i => mask.getLsbD i)).length
  if n = 0 ∨ 4 < n ∨ r.a2 = 0 ∨ 600000 < r.a2.toNat ∨ (c.eng k).run ≠ ruRUN then
    (c, { st := stRANGE })
  else if (c.fq 7).owner ≠ some r.m.val then (c, { st := stLOCKED })
  else if (c.eng k).recMask ≠ 0 then (c, { st := stBUSY })
  else c.long r.m.val 0x0506 k (fun t c =>
    c.modEng k (fun q => { q with recMask := mask, recTicket := t, recDrop := 0 }))

end Sys2Proof.Machine
end

