-- ==== Sys2Proof/Machine/Bay.lean ====
section
/-! DEFINITION. The vehicle and trailer bay (12) and the bay instructions (R118-R123). -/

namespace Sys2Proof.Machine

open Sys2Proof

/-- BAY_STATE.RUN. -/
def baUNLOADED : BitVec 4 := 0
def baLOADING : BitVec 4 := 1
def baRUN : BitVec 4 := 2
def baPAUSED : BitVec 4 := 3
def baRESTART : BitVec 4 := 4
def baHALTED : BitVec 4 := 5
def baFAILED : BitVec 4 := 6

/-- BAY_CFG. -/
def aBayCfg : Nat := 0xC0000

/-- BAY_CFG.EN, PILOT_EN, PP_EN, V2G_EN, IMD_EN. -/
def Chip.bayEn (c : Chip) : Bool := c.cb aBayCfg 31
def Chip.pilotEn (c : Chip) : Bool := c.cb aBayCfg 30
def Chip.ppEn (c : Chip) : Bool := c.cb aBayCfg 29
def Chip.v2gEn (c : Chip) : Bool := c.cb aBayCfg 28
def Chip.imdEn (c : Chip) : Bool := c.cb aBayCfg 27

/-- This module is the standby of a pair (R385). -/
def Chip.isStandby (c : Chip) : Bool := c.pair.role == 2

/-- The output of the pilot generator (R252, R251): +12 V throughout HOLDOVER. -/
def Chip.pilotOut (c : Chip) : W16 :=
  if !c.pilotEn || c.power.onAux then 0 else c.bay.pilotReq

/-- The pilot word (R254). -/
def Chip.pilotWord (c : Chip) : W32 :=
  w32 (c.pilotOut.toNat * 65536 + c.bay.pp.toNat * 256 + b2n (c.cb aBayCfg 26 && !c.pilotGate) * 32
    + b2n c.bay.diode * 16 + c.bay.pilotState.toNat)

/-- BAY_MON (12). -/
def Chip.monWord (c : Chip) : W32 :=
  w32 (b2n c.bay.trip * 2 ^ 31 + c.bay.tripCause.toNat * 2 ^ 28 + c.bay.rcmFlt.toNat * 2 ^ 24
    + c.bay.iso.toNat * 2 ^ 18 + c.bay.riso.toNat)

/-- Bay faults of the last 600 s. -/
def Chip.bayRestarts (c : Chip) : Nat :=
  (c.bay.faults.filter (fun t => decide (c.now < t + 600 * 32000))).length

/-- BAY_STATE (12). -/
def Chip.bayWord (c : Chip) : W32 :=
  w32 (c.bay.run.toNat * 2 ^ 28 + c.bayRestarts % 256 * 2 ^ 16 + c.bay.core.pc % 32768)

/-- BAY_FAULT (12). -/
def Chip.bayFaultWord (c : Chip) : W32 :=
  w32 (c.bay.faultCode.toNat * 2 ^ 24 + c.bay.faultPc.toNat)

/-- Writes a field of the exchange area (R249). -/
def Chip.bayField (a : Nat) (v : W64) (c : Chip) : Chip :=
  c.modBay (fun b => { b with mem := Mem.wr64 b.mem a v })

/-- Reads a field of the exchange area. -/
def Chip.bayRd (c : Chip) (a : Nat) : W64 := Mem.rd64 c.bay.mem a

/-- A SIGNAL holds while no one owns FQ5: nothing is kept for an unowned queue (R236). -/
def Chip.signalDue (c : Chip) : Bool := c.bay.signal.isSome && (c.fq 5).owner.isNone

/-- The claim of FQ5 has ended under a SIGNAL that held: the packet is dropped and the instruction completes. -/
def Chip.signalLost (old c : Chip) : Chip :=
  match c.bay.signal with
  | some (rd, p) =>
    if c.signalDue && !old.signalDue then
      (c.modBay (fun b => { b with signal := none, core := b.core.put true rd 0 })).fqPut 5 p
    else c
  | none => c

/-- What follows a change of BAY_STATE.RUN, the pilot word or BAY_MON against `old` (R249, R266). -/
def Chip.bayWatch (old c : Chip) : Chip :=
  let p := c.pilotWord
  let m := c.monWord
  let dp := p != old.pilotWord
  let dm := m != old.monWord
  let c := Chip.signalLost old c
  if !dp && !dm && c.bay.run == old.bay.run then c else
  let c := c.when dp (Chip.bayField 0x7C080 (p.zeroExtend 64))
  let c := c.when dm (fun c => (c.bayField 0x7C088 (m.zeroExtend 64)).bayEvent 22)
  c.fqPut 5 (mkPkt 0x51 0x0C [c.bayWord, p, m])

/-- Step 2 of the table Bay fault: drives off, pilot at -12 V, CAN queues emptied, the ISO 15118 connection
ended with the requests it held. -/
def Chip.bayStep2 (c : Chip) : Chip :=
  c.bayDrivesOff.modBay (fun b =>
    { b with pilotReq := 0xFFFF, v2gConn := false, v2gHeld := [],
             can := b.can.map (fun p => (p.1, { p.2 with tx := [] })) })

/-- BS stops: nothing waits any more. -/
def Chip.bayStop (run : BitVec 4) (c : Chip) : Chip :=
  c.modBay (fun b => { b with run := run, core := { b.core with busy := false }, waitMask := none,
                              signal := none })

/-- A cancelled BAY_RESTART ends (R46): unless another waits for it the reload is given up, and BS stays HALTED
(log 165). -/
def Chip.bayCancel (t : W16) (c : Chip) : Chip :=
  let c := c.modBay (fun b => { b with restartTickets := b.restartTickets.filter (fun x => x != t) })
  if c.bay.run = baRESTART ∧ c.bay.restartTickets = [] then c.modBay (fun b => { b with run := baHALTED }) else c

/-- Every BAY_RESTART under way completes. -/
def Chip.bayTicketsDone (st : W8) (c : Chip) : Chip :=
  let l := c.bay.restartTickets
  each l (fun t c => c.doneIf t st) (c.modBay (fun b => { b with restartTickets := [] }))

/-- A bay fault (R250). The third within 600 s leaves BS FAILED. -/
def Chip.bayFault (code : W8) (c : Chip) : Chip :=
  let pc := BitVec.ofNat 15 c.bay.core.pc
  let recent := c.now :: c.bay.faults.filter (fun t => decide (c.now < t + 600 * 32000))
  let failed := decide (3 ≤ recent.length)
  let c := (c.bayStop (if failed then baFAILED else baRESTART)).modBay (fun b =>
    { b with faults := recent, faultCode := code, faultPc := pc })
  let c := (c.setRdy rBAY false).raise 0x0C01 0xFF 0 0
  let c := c.when failed (fun c => c.raise 0x0C02 0xFF 0 0)
  let c := c.when failed (Chip.bayTicketsDone stABORTED)
  c.bayStep2.closeSessions 0x03

/-- HALT of the bay program (R250). -/
def Chip.bayHalt (c : Chip) : Chip :=
  let pc := BitVec.ofNat 15 c.bay.core.pc
  let c := (c.bayStop baHALTED).modBay (fun b => { b with faultCode := 0x21, faultPc := pc })
  (((c.setRdy rBAY false).raise 0x0C03 0xFF 0 0).bayStep2).closeSessions 0x03

/-- A load of the image named by PROG is ordered (R248): drives off, pilot at -12 V. -/
def Chip.bayLoad (run : BitVec 4) (c : Chip) : Chip :=
  (((c.bayStop run).setRdy rBAY false).bayDrivesOff).modBay (fun b =>
    { b with pilotReq := 0xFFFF, loaded := if run = baUNLOADED then none else b.loaded })

/-- A bay image (R247). -/
def Chip.bayImg (c : Chip) (i : Nat) : TallyImg := Tbl.get {} c.bay.lib i

/-- Updates a bay image. -/
def Chip.modBayImg (i : Nat) (f : TallyImg → TallyImg) (c : Chip) : Chip :=
  c.modBay (fun b => { b with lib := Tbl.put {} b.lib i (f (Tbl.get {} b.lib i)) })

/-- SV has reloaded the image (R248, R250 step 4); if both copies fail, BS is not started (R247). -/
def Chip.bayReloaded (c : Chip) : Chip :=
  if (c.bay.run ≠ baLOADING ∧ c.bay.run ≠ baRESTART) ∨ ¬ c.rdy rSV then c else
  let i := c.cf aBayCfg 0 2
  let x := c.bayImg i
  if !x.installed || (x.bad1 && x.bad2) then
    (((c.bayStop baUNLOADED).modBay (fun b => { b with loaded := some i })).raise 0x0C04 0xFF 0 0).bayTicketsDone
      stINTEGRITY
  else
    let c := c.modBayImg i (fun y => { y with bad1 := false })
    let c := c.modBay (fun b =>
      { b with run := baRUN, loaded := some i, mem := Mem.wrN [] 0 x.dataSec, events := 0,
               timers := [], waitMask := none, signal := none, hsSeq := 0, lkWr := 0, v2gSeq := 0,
               core := { pc := x.initAt, busy := true } })
    (c.setRdy rBAY true).bayTicketsDone stOK

/-- BS pauses at the next instruction boundary (R251). -/
def Chip.bayPause (c : Chip) : Chip :=
  if c.bay.run = baRUN then c.modBay (fun b => { b with run := baPAUSED }) else c

/-- The cause of a trip is present (R265). -/
def Chip.tripPresent (c : Chip) : Bool :=
  (c.bay.rcmFlt.toNat &&& c.cf 0xC000C 0 4 != 0) || (c.cb 0xC000C 31 && c.bay.iso == 3)

/-- Latches a bay trip (R265). -/
def Chip.bayTrip (cause : BitVec 3) (c : Chip) : Chip :=
  if c.bay.trip then c
  else ((c.modBay (fun b => { b with trip := true, tripCause := cause })).raise 0x0C05 0xFF 0 0).bayEvent 22

/-- A cause is present with the latch clear. -/
def Chip.tripDue (c : Chip) : Bool := !c.bay.trip && c.tripPresent

/-- A cause that is present trips, whether its input or its enable came last (R263, R265). -/
def Chip.tripCheck (old c : Chip) : Chip :=
  if !c.tripDue || old.tripDue then c
  else c.bayTrip (if c.bay.rcmFlt.toNat &&& c.cf 0xC000C 0 4 != 0 then 1 else 2)

/-- Clears the trip latch. -/
def Chip.bayUntrip (c : Chip) : Chip := c.modBay (fun b => { b with trip := false, tripCause := 0 })

/-- Classifies a positive plateau in millivolts (the table Pilot states). A standby, whose generator is off CP,
goes by the level it reads, -12 V among them (R385, log 166). -/
def Chip.pilotClass (c : Chip) (mv : Int) : BitVec 4 :=
  if (if c.isStandby then decide (-13000 ≤ mv) && decide (mv ≤ -11000) else c.pilotOut == 0xFFFF) then 6
  else if 11000 ≤ mv ∧ mv ≤ 13000 then 1
  else if 8000 ≤ mv ∧ mv ≤ 10000 then 2
  else if 5000 ≤ mv ∧ mv ≤ 7000 then 3
  else if 2000 ≤ mv ∧ mv ≤ 4000 then 4
  else if -1000 ≤ mv ∧ mv ≤ 1000 then 5
  else 0

/-- One sample of the positive plateau: three that agree confirm a state (R253). -/
def Bay.pilotSample (k : BitVec 4) (b : Bay) : Bay :=
  let n := if k = b.pilotCand then min 3 (b.pilotRun + 1) else 1
  { b with pilotCand := k, pilotRun := n, pilotState := if n = 3 then k else b.pilotState }

/-- Three samples of CP: positive plateaus `hi` and the negative plateau `lo` in millivolts (R253, R265). Three
samples confirm one change of state at most. -/
def Chip.pilotSamples (hi : Plateaus) (lo : Int) (c : Chip) : Chip :=
  if !c.pilotEn then c else
  let s0 := c.bay.pilotState
  let d0 := c.bay.diode
  let pwm := c.pilotOut != 0 && c.pilotOut != 0xFFFF
  let one := fun (v : Int) (b : Bay) => Bay.pilotSample (c.pilotClass v) b
  let c := c.modBay (fun b => one hi.third (one hi.second (one hi.first b)))
  let c := c.modBay (fun b => { b with diode := pwm && (decide (lo < -13000) || decide (-11000 < lo)) })
  let c := c.when (c.bay.pilotState == 1 && s0 != 1 && c.bay.trip && !c.tripPresent) Chip.bayUntrip
  c.when (c.bay.pilotState != s0 || c.bay.diode != d0) (Chip.bayEvent 16)

/-- Proximity codes (R256). -/
def ppCode (r : Nat) : BitVec 4 :=
  if 4500 < r then 0
  else if 1100 ≤ r ∧ r ≤ 2460 then 1
  else if 400 ≤ r ∧ r ≤ 936 then 2
  else if 164 ≤ r ∧ r ≤ 300 then 3
  else if 75 ≤ r ∧ r ≤ 130 then 4
  else 15

/-- A measurement of PP (R256). -/
def Chip.ppMeasured (r : Nat) (c : Chip) : Chip :=
  if !c.ppEn || c.bay.pp == ppCode r then c
  else (c.modBay (fun b => { b with pp := ppCode r })).bayEvent 17

/-- The insulation status after a measurement in kΩ (R264). -/
def isoOf (unom kohm : Nat) (old : BitVec 2) : BitVec 2 :=
  let r := kohm * 1000
  let f := 100 * unom
  let w := 500 * unom
  if r < f ∨ (old = 3 ∧ r * 100 < f * 110) then 3
  else if r < w ∨ (2 ≤ old ∧ r * 100 < w * 110) then 2
  else 1

/-- A measurement of the insulation monitor (R264, R263). -/
def Chip.imdMeasured (kohm : W16) (c : Chip) : Chip :=
  if !c.imdEn then c else
  let old := c.bay.iso
  let iso := isoOf (c.cf 0xC000C 4 11) kohm.toNat old
  let c := c.modBay (fun b => { b with iso := iso, riso := if 10000 < kohm.toNat then 0xFFFF else kohm })
  let c := c.when (iso == 2 && old != 2) (fun c => c.raise 0x0C06 0xFF 0 0)
  c.when (iso == 3 && c.cb 0xC000C 31) (Chip.bayTrip 2)

/-- An RCM_FLT input changes (R263). -/
def Chip.rcmInput (k : Nat) (on : Bool) (c : Chip) : Chip :=
  let bit := BitVec.ofNat 4 (2 ^ k)
  let c := c.modBay (fun b => { b with rcmFlt := if on then b.rcmFlt ||| bit else b.rcmFlt &&& ~~~ bit })
  c.when (on && c.cb 0xC000C k) (Chip.bayTrip 1)

/-- CAN FD port p. -/
def Chip.canPort (c : Chip) (p : Nat) : CanPort := Tbl.get {} c.bay.can p

/-- Updates CAN FD port p. -/
def Chip.modCan (p : Nat) (f : CanPort → CanPort) (c : Chip) : Chip :=
  c.modBay (fun b => { b with can := Tbl.put {} b.can p (f (Tbl.get {} b.can p)) })

/-- BAY_CAN[p].EN and NODE. -/
def Chip.canEn (c : Chip) (p : Nat) : Bool := c.cb (0xC0020 + 4 * p) 31
def Chip.canNode (c : Chip) (p : Nat) : Nat := c.cf (0xC0020 + 4 * p) 0 8

/-- The port accepts a frame (R261). -/
def Chip.canAccepts (c : Chip) (p : Nat) (id : W32) : Bool :=
  c.canEn p && (fld id 8 8 == c.canNode p || fld id 8 8 == 0xFF)

/-- A received frame is kept for SLIPRX (R262). -/
def Chip.canKeep (p : Nat) (id : W32) (data : List W8) (t : W32) (c : Chip) : Chip :=
  if (c.canPort p).rx.length < 64 then
    (c.modCan p (fun x => { x with rx := x.rx ++ [wordBytes id ++ wordBytes t ++ data] })).bayEvent (18 + p)
  else c.modCan p (fun x => { x with drop := satInc x.drop })

/-- Field of the V2G area. -/
def aV2g (o : Nat) : Nat := 0x7D000 + o

/-- Posts a message code (R259). -/
def Chip.v2gPost (msg : Nat) (q : V2gReq) (failed : Bool) (c : Chip) : Chip :=
  let party : W64 := if q.payment = 2 then
    BitVec.ofNat 64 (ofLe (leBytes 32 (Config.sha256 q.emaid).toNat).reverse % 2 ^ 64) else 0
  let put := fun (o : Nat) (v : W64) (c : Chip) => c.bayField (aV2g o) v
  let n64 := fun (n : Nat) => BitVec.ofNat 64 n
  let c := put 0x008 (n64 msg) (put 0x010 (n64 q.proto) (put 0x018 q.service (put 0x020 q.payment
    (put 0x028 q.cert (put 0x030 party (put 0x038 q.evccid (put 0x080 q.stop c)))))))
  let c := each q.ev.zipIdx (fun p c => if p.2 < 8 then put (0x040 + 8 * p.2) p.1 c else c) c
  let c := c.modBay (fun b => { b with v2gSeq := b.v2gSeq + 1 })
  let c := (put 0x000 c.bay.v2gSeq c).bayEvent 20
  c.fqPut 5 (mkPkt 0x52 0x0C
    [w32 (q.proto % 256 * 65536 + (Config.v2gCode msg failed).toNat * 256 + msg), w32 c.bay.v2gSeq.toNat])

/-- The connection ends with V2G_ABORT and MSG 10, STOP 1 (R257). -/
def Chip.v2gAbort (q : V2gReq) (c : Chip) : Chip :=
  ((c.raise 0x0C08 0xFF 0 0).modBay (fun b => { b with v2gConn := false })).v2gPost 10
    { q with stop := 1 } true

/-- A limit or present value of the program that cannot be sent: NaN, infinite or negative (R258). -/
def v2gBad (v : W64) : Bool := !fFinite v || (v.getLsbD 63 && v != 0x8000000000000000)

/-- The tier-0 session register of slot 0, FWD, of V2G_MP at its latest commit, in whole Wh (R258):
counts times F x 10^EXP joules, over 3,600 (R136). -/
def Chip.v2gMeter (c : Chip) : Int :=
  let m := c.cf aBayCfg 16 6
  let w := c.live (aMp m + 0x80)
  let e := slotExp w
  let s := (Tbl.get ({} : Session) c.bill.sess m)
  (Tbl.get ({} : RegVal) s.qty (ident m 0 0 0)).v * ((unitF (fld w 0 8)).getD 0 * 10 ^ e.toNat : Nat)
    / (q64 * (3600 * 10 ^ (-e).toNat : Nat))

/-- The services that a part of ISO 15118 supports, as SERVICES (R257): AC and DC, under part 20 bidirectional
too. -/
def v2gServices (proto : Nat) : Nat := if proto = 2 then 15 else 3

/-- A request the table ISO 15118 support does not cover (R257): message 0, and a ServiceSelection, or a
ChargeParameterDiscovery or ScheduleExchange, of a service that the part does not have. -/
def v2gForeign (q : V2gReq) : Bool :=
  let n := q.service.toNat
  q.msg == 0 || ((q.msg == 2 || q.msg == 5) &&
    (n == 0 || decide (4 < n) || !(v2gServices q.proto).testBit (n - 1)))

/-- The controller answers a request (R258, R259). A connection that opens in HOLDOVER is told to pause as one
that was open (R251). -/
def Chip.v2gAnswer (q : V2gReq) (c : Chip) : Chip :=
  if !c.v2gEn || c.isStandby then c else
  let c := c.modBay (fun b => { b with v2gConn := true, pauseNote := b.pauseNote || (!b.v2gConn && c.power.onAux) })
  let auth := c.bayRd (aV2g 0x400)
  let proc := c.bayRd (aV2g 0x418)
  let offered := fld (c.bayRd (aV2g 0x408)) 0 4 &&& v2gServices q.proto
  let limits := [0x428, 0x430, 0x438, 0x440, 0x448, 0x450].map (fun o => c.bayRd (aV2g o))
  let open_ := if q.msg = 4 then some auth else if q.msg = 6 ∨ q.msg = 7 then some proc else none
  let carries := q.msg == 5 || q.msg == 7 || q.msg == 11
  let bad := carries && limits.any v2gBad
  let foreign := v2gForeign q
  let failed := foreign || bad || open_ == some 2
  let pause := c.bay.pauseNote
  let notify := if pause then (if q.proto = 2 then 2 else 1) else fld (c.bayRd (aV2g 0x420)) 0 2
  let ans : V2gAns :=
    { msg := q.msg, failed := failed, notify := notify, iso := c.bay.iso.toNat,
      processing := (match open_ with | some v => if v = 1 then 2 else if v = 2 then 0 else 1 | none => 0),
      services := if q.msg = 12 then offered else 0,
      payments := if q.msg = 12 then fld (c.bayRd (aV2g 0x410)) 0 2 else 0,
      evse := if carries && !bad then limits else [], status := fld (c.bayRd (aV2g 0x458)) 0 2,
      meterId := c.sys.deviceId, meterWh := c.v2gMeter }
  let c := c.modBay (fun b => { b with v2gAns := ans, modemTx := b.modemTx ++ [ans], pauseNote := false })
  let c := c.when (!pause) (Chip.bayField (aV2g 0x420) 0)
  let c := if 1 ≤ q.msg ∧ q.msg ≤ 10 then c.v2gPost q.msg q failed
    else if q.msg = 11 then
      each q.ev.zipIdx (fun p c =>
        if p.2 < 3 ∨ p.2 = 7 then c.bayField (aV2g (0x040 + 8 * p.2)) p.1 else c) c
    else c
  let c := c.when (q.msg == 10) (Chip.modBay (fun b => { b with v2gConn := false }))
  if foreign || bad then c.v2gAbort q else c

/-- A request: held while BS is paused (R251). -/
def Chip.v2gRequest (q : V2gReq) (c : Chip) : Chip :=
  if !c.v2gEn || c.isStandby then c
  else if c.sys.changeover || c.bay.run == baPAUSED then
    c.modBay (fun b => { b with v2gHeld := b.v2gHeld ++ [q] })
  else c.v2gAnswer q

/-- The settings in force name another image than BS has (R251), as after a fallback that drops a CG6 commit. -/
def Chip.bayStale (c : Chip) : Bool :=
  if c.bayEn then c.bay.run != baLOADING && c.bay.run != baRESTART && c.bay.loaded != some (c.cf aBayCfg 0 2)
  else c.bay.run != baUNLOADED

/-- BS resumes after a pause, and the held requests are answered (R251); a changed CG6 image is loaded instead. -/
def Chip.bayResume (c : Chip) : Chip :=
  if c.sys.changeover || !c.rdy rSV then c else
  let held := c.bay.v2gHeld
  let c := c.modBay (fun b => { b with run := if b.run = baPAUSED then baRUN else b.run, v2gHeld := [] })
  let c := c.when c.bayStale (Chip.bayLoad (if c.bayEn then baLOADING else baUNLOADED))
  each held Chip.v2gAnswer c

/-- MDM_RST_N is released 10 ms from now (R407). -/
def Chip.modemRelease (c : Chip) : Chip :=
  c.modBay (fun b => { b with modem := false, modemUp := some (c.now + 320) })

/-- Whether the modem is out of reset. -/
def Chip.modemOn (c : Chip) : Bool := c.v2gEn && c.bay.modemUp.any (fun t => decide (t ≤ c.now))

/-- A READ_STATUS reply is valid (R406). -/
def modemStatusOk (r : ModemStatus) : Bool := r.crc == crc16 [r.status]

/-- The bytes of a frame's transaction after the command (R406): length, most significant byte first, and frame. -/
def modemBody (f : List W8) : List W8 := (leBytes 2 f.length).reverse ++ f

/-- A WRITE_FRAME transaction (R406). -/
def modemWrite (f : List W8) : List W8 :=
  let b := modemBody f
  0x01 :: b ++ (leBytes 2 (crc16 b).toNat).reverse

/-- The frames of READ_FRAME replies that are kept (R406, R407): a bad CRC discards one, length 0 ends the reading. -/
def modemKeep : List ModemFrame → List (List W8)
  | [] => []
  | r :: rest =>
    if r.crc != crc16 ((leBytes 2 r.len.toNat).reverse ++ r.bytes) then modemKeep rest
    else if r.len = 0 then []
    else r.bytes :: modemKeep rest

/-- What an answer carries, as numbers. -/
def V2gAns.fields (a : V2gAns) : List Int :=
  a.meterWh :: ([a.msg, b2n a.failed, a.processing, a.notify, a.iso, a.services, a.payments, a.status, a.meterId.toNat]
    ++ a.evse.map (fun v => v.toNat)).map Int.ofNat

/-- Writes the waiting answers while the modem has room (R407): `took` are the status bytes it returns, one to a
WRITE_FRAME; one answered with CRC_ERR is repeated once. -/
def Chip.modemPut (took : List W8) (again : Bool) (c : Chip) : Chip :=
  match took with
  | [] => c
  | st :: rest =>
    match c.bay.modemTx with
    | [] => c
    | a :: tx =>
      if !c.bay.modemStatus.getLsbD 1 then c else
      let bad := st.getLsbD 3 && !again
      Chip.modemPut rest bad (c.modBay (fun b =>
        { b with modemSent := modemWrite (Config.v2gFrame a.fields) :: b.modemSent, modemStatus := st,
                 modemTx := if bad then b.modemTx else tx }))

/-- A bay timer expires (R121). -/
def Chip.bayTimer (n : Nat) (c : Chip) : Chip :=
  if Tbl.get 0 c.bay.timers n = 0 then c
  else (c.modBay (fun b => { b with timers := Tbl.put 0 b.timers n 0 })).bayEvent n

/-- Whether the bay program executes an instruction; `wait` names the instruction it waits in. -/
def Chip.bayRuns (c : Chip) (wait signal : Bool) : Bool :=
  c.bay.run == baRUN && c.bay.core.busy && (wait || c.bay.waitMask.isNone)
    && (signal || c.bay.signal.isNone)

/-- Puts the core's thread. -/
def Chip.setCore (t : Thread) (c : Chip) : Chip := c.modBay (fun b => { b with core := t })

/-- Runs an instruction of the bay program that changes the thread alone. -/
def Chip.bPure (f : Thread → Except W8 Thread) (c : Chip) : Chip :=
  if !c.bayRuns false false then c
  else match f c.bay.core with
  | .ok t => c.setCore t
  | .error e => c.bayFault e

/-- Runs an instruction of the bay program that sees and changes the whole block. -/
def Chip.bInstr (f : Chip → Thread → Except W8 Chip) (c : Chip) : Chip :=
  if !c.bayRuns false false then c
  else match f c c.bay.core with
  | .ok c => c
  | .error e => c.bayFault e

/-- A Q-profile instruction in a bay program, or a reserved word: illegal (R94, R250). -/
def Chip.bIllegal (c : Chip) : Chip := c.bPure (fun _ => .error trILLEGAL)

/-- The bay program goes on with a result in rd. -/
def Chip.bPut (rd : Reg) (v : W64) (c : Chip) : Chip := c.setCore (c.bay.core.put true rd v)

/-- A status with a result above it (R118). -/
def bayRes (st : W8) (v : Nat) : W64 := BitVec.ofNat 64 (v * 256 + st.toNat)

/-- The answer of a bay instruction (R118). -/
def Chip.bRet (rd : Reg) (r : Chip × W8) : Chip := r.1.bPut rd (bayRes r.2 0)

/-- A data address of the S-profile: n bytes inside 512 KiB (R103). -/
def bayIn (a n : Nat) : Bool := decide (a + n ≤ 0x80000)

/-- LD in the S-profile. -/
def Chip.bLd (rd rs1 : Reg) (imm : W16) (c : Chip) : Chip :=
  c.bInstr (fun c t =>
    let a := t.addr rs1 (sext16 imm)
    if a % 8 = 0 ∧ bayIn a 8 then .ok (c.bPut rd (c.bayRd a)) else .error trADDR)

/-- ST in the S-profile. -/
def Chip.bSt (rs2 rs1 : Reg) (imm : W16) (c : Chip) : Chip :=
  c.bInstr (fun c t =>
    let a := t.addr rs1 (sext16 imm)
    if a % 8 = 0 ∧ bayIn a 8 then .ok ((c.bayField a (t.rx rs2)).setCore (t.advance true))
    else .error trADDR)

/-- DRVSET (R119). -/
def Chip.bDrvset (rd rs1 rs2 : Reg) (c : Chip) : Chip :=
  c.bInstr (fun c t => .ok (Chip.bRet rd (c.drvSet (t.rx rs1).toNat ((t.rx rs2).getLsbD 0))))

/-- DRVGET (R119). -/
def Chip.bDrvget (rd rs1 : Reg) (c : Chip) : Chip :=
  c.bInstr (fun c t =>
    let n := (t.rx rs1).toNat
    .ok (c.bPut rd (if 48 ≤ n then bayRes stRANGE 0 else bayRes stOK (c.drvWord n).toNat)))

/-- EVWAIT (R120): while no pending bit lies in the mask the program waits at the instruction. -/
def Chip.bEvwait (rd rs1 : Reg) (c : Chip) : Chip :=
  if !c.bayRuns true false then c else
  let t := c.bay.core
  let mask : W32 := (t.rx rs1).truncate 32
  let poll := (t.rx rs1).getLsbD 32
  if mask = 0 ∧ ¬ poll then c.bayFault trILLEGAL
  else
    let hit := c.bay.events &&& mask
    if hit = 0 ∧ ¬ poll then c.modBay (fun b => { b with waitMask := some mask })
    else (c.modBay (fun b => { b with events := b.events &&& ~~~ hit, waitMask := none })).bPut rd
      (bayRes stOK hit.toNat)

/-- TMSET (R121). -/
def Chip.bTmset (rd rs1 rs2 : Reg) (c : Chip) : Chip :=
  c.bInstr (fun c t =>
    let n := (t.rx rs1).toNat
    let d := (t.rx rs2).toNat
    if 16 ≤ n ∨ d = 0 ∨ 0xFFFFFFFF < d then .ok (c.bPut rd (bayRes stRANGE 0))
    else .ok ((c.modBay (fun b => { b with timers := Tbl.put 0 b.timers n (w32 d) })).bPut rd 0))

/-- TMSET with CANCEL (R121). -/
def Chip.bTmsetCancel (rd rs1 : Reg) (c : Chip) : Chip :=
  c.bInstr (fun c t =>
    let n := (t.rx rs1).toNat
    if 16 ≤ n then .ok (c.bPut rd (bayRes stRANGE 0))
    else .ok ((c.modBay (fun b =>
      { b with timers := Tbl.put 0 b.timers n 0,
               events := b.events &&& ~~~ BitVec.ofNat 32 (2 ^ n) })).bPut rd 0))

/-- SIGNAL (R122): it holds at the instruction while FQ5 is full. -/
def Chip.bSignal (rd rs1 rs2 : Reg) (c : Chip) : Chip :=
  if !c.bayRuns false true then c else
  let t := c.bay.core
  let v := t.rx rs2
  let p := mkPkt 0x50 0x0C [w32 (fld (t.rx rs1) 0 16), w32 v.toNat, hi32 v.toNat]
  let f := c.fq 5
  if f.owner.isSome && !(f.fits p && f.holdBuf.isEmpty && !f.testing) then
    c.modBay (fun b => { b with signal := some (rd, p) })
  else ((c.modBay (fun b => { b with signal := none })).fqPut 5 p).bPut rd 0

/-- PILOT (R122, R252). -/
def Chip.bPilot (rd rs1 rs2 : Reg) (c : Chip) : Chip :=
  c.bInstr (fun c t =>
    let op := (t.rx rs1).toNat
    let duty := (t.rx rs2).toNat
    let set := fun (v : W16) => Except.ok ((c.modBay (fun b => { b with pilotReq := v })).bPut rd 0)
    if !c.pilotEn then .ok (c.bPut rd (bayRes stMODE 0))
    else if op = 0 then .ok (c.bPut rd (bayRes stOK c.pilotWord.toNat))
    else if op = 1 ∧ (duty = 50 ∨ (80 ≤ duty ∧ duty ≤ 970)) then set (BitVec.ofNat 16 duty)
    else if op = 2 then set 0
    else if op = 3 then set 0xFFFF
    else .ok (c.bPut rd (bayRes stRANGE 0)))

/-- SLIPTX (R122, R262, R385). -/
def Chip.bSliptx (rd rs1 rs2 rs3 : Reg) (c : Chip) : Chip :=
  c.bInstr (fun c t =>
    let id : W32 := w32 (fld (t.rx rs1) 0 29)
    let p := fld (t.rx rs1) 30 1
    let n := (t.rx rs3).toNat
    let a := (t.rx rs2).toNat
    let ret := fun (st : W8) => Except.ok (c.bPut rd (bayRes st 0))
    if n = 0 then ret stLENGTH
    else if !canLen n then ret stRANGE
    else if fld id 18 8 = 0x3F then ret stDENIED
    else if !c.canEn p then ret stNORES
    else if !bayIn a n then .error trADDR
    else if c.isStandby then ret stOK
    else if 8 ≤ (c.canPort p).tx.length then ret stBUSY
    else .ok ((c.modCan p (fun x =>
      { x with tx := x.tx ++ [wordBytes id ++ Mem.rdN c.bay.mem a n] })).bPut rd 0))

/-- SLIPRX (R122). -/
def Chip.bSliprx (rd rs1 rs2 : Reg) (c : Chip) : Chip :=
  c.bInstr (fun c t =>
    let p := fld (t.rx rs1) 0 1
    let a := (t.rx rs2).toNat
    match (c.canPort p).rx with
    | [] => .ok (c.bPut rd 0)
    | f :: rest =>
      let n := f.length - 8
      if !bayIn a (8 + n) then .error trADDR
      else
        let hd := Config.slipHeader (w32 (leAt f 0 4)) n (w32 (leAt f 4 4))
        .ok (((c.modCan p (fun x => { x with rx := rest })).modBay (fun b =>
          { b with mem := Mem.wrN b.mem a (leBytes 8 hd.toNat ++ f.drop 8) })).bPut rd (bayRes stOK n)))

/-- SESSOPEN (R123). -/
def Chip.bSessopen (rd rs1 rs2 : Reg) (c : Chip) : Chip :=
  c.bInstr (fun c t =>
    let a := (t.rx rs2).toNat
    if !bayIn a 64 then .error trADDR
    else
      let r := c.sessOpen (t.rx rs1).toNat (Mem.rdN c.bay.mem a 64)
      .ok (r.1.bPut rd (bayRes r.2.1 (if r.2.1 = stOK then r.2.2.toNat else 0))))

/-- SESSCLOSE (R123). -/
def Chip.bSessclose (rd rs1 rs2 : Reg) (c : Chip) : Chip :=
  c.bInstr (fun c t =>
    let n := (t.rx rs1).toNat
    let no : W32 := if n < 2 ^ 32 then w32 n else 0
    .ok (Chip.bRet rd (c.sessClose no ((t.rx rs2).truncate 8))))

/-- HALT of a bay program. -/
def Chip.bHalt (c : Chip) : Chip := if c.bayRuns false false then c.bayHalt else c

/-- BAY_SIGNAL (12, R249). -/
def cmdBaySignal (r : CmdReq) (c : Chip) : Chip × Ans :=
  if c.bay.run ≠ baRUN ∧ c.bay.run ≠ baPAUSED then (c, { st := stBUSY })
  else
    let c := c.modBay (fun b => { b with hsSeq := b.hsSeq + 1 })
    (((c.bayField 0x7C008 (BitVec.ofNat 64 (fld r.a0 0 16))).bayField 0x7C010 (r.a2 ++ r.a1)).bayField
      0x7C000 c.bay.hsSeq |>.bayEvent 24, {})

/-- BAY_RESTART (12, R250): steps 2 to 4 of the table Bay fault. -/
def cmdBayRestart (r : CmdReq) (c : Chip) : Chip × Ans :=
  if !c.bayEn then (c, { st := stDENIED })
  else c.long r.m.val 0x0C02 0 (fun t c =>
    (((c.bayStop baRESTART).modBay (fun b =>
      { b with restartTickets := b.restartTickets ++ [t], faults := [] })).setRdy rBAY
      false).bayStep2.closeSessions 0x03)

/-- BAY_TRIP_CLR (R265). -/
def cmdBayTripClr (_r : CmdReq) (c : Chip) : Chip × Ans :=
  if c.tripPresent then (c, { st := stDENIED }) else (c.bayUntrip, {})

end Sys2Proof.Machine
end

