-- ==== Sys2Proof/Machine/LegalCore.lean ====
section
/-! DEFINITION. Legal configuration changes (R40, R420) as the engines see them: the point table that holds,
the instant of a commit, and what CG1 and CG2 change besides their registers. -/

namespace Sys2Proof.Machine

open Sys2Proof

/-- Some word of a list of addresses changes. -/
def changes (ws : List (Nat × W32)) (p : Nat → Bool) : Bool := ws.any (fun w => p w.1)

/-- An address lies in a block of words. -/
def inBlock (base len a : Nat) : Bool := decide (base ≤ a) && decide (a < base + len)

/-- The meter point a CG3 register belongs to, its spill and quality binding included. -/
def mpOfAddr (a : Nat) : Option Nat :=
  if inBlock 0x52000 0x4000 a then some ((a - 0x52000) / 0x100)
  else if inBlock 0x56000 0x200 a then some ((a - 0x56000) / 8) else none

/-- The configuration with words put over it. -/
def overlaid (rd : Nat → W32) (ws : List (Nat × W32)) (a : Nat) : W32 :=
  match ws.find? (fun w => w.1 == a) with
  | some w => w.2
  | none => rd a

/-- The mode of tap n under a reader. -/
def modeIn (rd : Nat → W32) (n : Nat) : Nat := fld (rd (aTapMode n)) 0 4

/-- The bank of the point table that holds in engine k once every event it has received has taken effect
(R104): that of the last legal change in its log, else that of c. -/
def Engine.bankNow (q : Engine) : Bool :=
  q.log.foldl (fun b e => match e.change with
    | .legal _ b' _ _ => b'
    | _ => b) (if q.logs ∨ q.run = ruUNLOADED then q.base.bank else q.ck.ctx.bank)

/-- The meter points whose direction unit a CG3 commit resets (R153): kind or direction-unit fields. -/
def dirResets (old : Nat → W32) (ws : List (Nat × W32)) : List Nat :=
  (List.range 64).filter (fun m => ws.any (fun w =>
    inBlock (aMp m + 0x0C) 0x14 w.1 ||
    (w.1 == aMp m && (old w.1 ^^^ w.2) &&& 0x400000FF != 0)))

/-- The meter points whose quality value a CG3 commit drops: its binding (EN, PAR) changes, or the engine it
meters on. DESIGN CHOICE: P[PAR] of a new binding is the committed one until its first response (log 163). -/
def qualDrops (old new : Nat → W32) : List Nat :=
  let eng := fun rd m => engs8.find? (fun k => mpOn rd k m)
  (List.range 64).filter (fun m =>
    (old (0x56000 + 8 * m) ^^^ new (0x56000 + 8 * m)) &&& 0x8F000000 != 0 || eng old m != eng new m)

/-- The event of a legal commit reaches an affected engine: the point table it changes goes into the
bank that is not in force (R104), and a program change waits for the instant (R130). -/
def Chip.legalTo (g : Nat) (ws : List (Nat × W32)) (s k : Nat) (c : Chip) : Chip :=
  let q := c.eng k
  let cur := q.bankNow
  let rd := overlaid c.live ws
  let alters := ptab rd k cur != ptab c.live k cur
  let bank := if alters then !cur else cur
  let c := c.modEng k (fun q =>
    if !alters then q else if bank then { q with bank1 := ptab rd k true } else { q with bank0 := ptab rd k false })
  let swap := g == 2 && ((fld (rd (aGate k)) 16 8 != c.cf (aGate k) 16 8)
    || ((rd (aGate k)).getLsbD 31 != c.cb (aGate k) 31))
  let c := if swap && decide (1 ≤ q.run.toNat) && decide (q.run.toNat ≤ 5) then
      c.modEng k (fun q => { q with prog := some s }) else c
  let resets := if g = 3 then (dirResets c.live ws).filter (mpOn rd k) else []
  let quals := if g = 3 then qualDrops c.live rd else []
  c.toEngine k { stamp := s, src := 3, change := .legal g bank resets quals }

/-- An entry waits for its instant to be chosen (R420): an engine it affects still has the gate of an
earlier legal change to commit. -/
def mustWait (earlier : List PendCommit) (p : PendCommit) : Bool :=
  earlier.any (fun e => e.engines &&& p.engines != 0)

/-- The instant of a legal commit is chosen (R40 step 5): at least 10 ms ahead. A session of a meter
point that CG3 redefines closes there with reason 0x13 (R182). -/
def Chip.choose (p : PendCommit) (c : Chip) : Chip :=
  let s := c.stampAfter 10
  let ws := p.words
  let c := c.modCfg (fun x => { x with pend := mapIf (fun y => y == p) (fun y => { y with stamp := some s }) x.pend })
  let c := if p.kind ≠ 3 then c else
    each (c.openSessions.filter (fun m => changes ws (inBlock (aMp m) 0x100))) (fun m c =>
      c.sessionAsk m 0x13 s) c
  each (engs8.filter (fun k => p.engines.getLsbD k)) (fun k c => c.legalTo p.kind ws s k) c

/-- An entry in force is done with once every engine it affects that still meters has committed up to its
instant: until then instants before it may be processed (R97). -/
def Chip.pendDone (c : Chip) (p : PendCommit) : Bool :=
  p.applied && engs8.all (fun k =>
    !(p.engines.getLsbD k && (c.eng k).run != ruUNLOADED && !(c.eng k).logs
      && decide ((c.eng k).c < p.stamp.getD 0)))

/-- Entries that are done with are dropped, and the instant of every legal commit that need not wait is
chosen, when an entry has come, gone or been done with (R420). -/
def Chip.chooseAll (old c : Chip) : Chip :=
  if c.cfg.pend = old.cfg.pend ∧ !(c.cfg.pend.any (fun p => c.pendDone p && !old.pendDone p)) then c else
  let c := c.modCfg (fun x => { x with pend := x.pend.filter (fun p => !c.pendDone p) })
  let l := c.cfg.pend
  each (l.zipIdx.filter (fun p => p.1.stamp.isNone && !mustWait (l.take p.2) p.1))
    (fun p c => c.choose p.1) c

/-- A tap's conversion state starts anew with its mode; the arbiter changes only to and from OFF (R62). -/
def Tap.newMode (off : Bool) (t : Tap) : Tap :=
  let arb := if off then 0 else if t.arb = 0 then 1 else t.arb
  { t with arb := arb, noac := false, ovr := false, winN := 0, winSq := 0, winP := 0, winC := 0, winPsq := 0,
           winOvr := 0, winOvrC := 0, winExcl := t.refBusy && !off, rms := 0, zcArm := 0, zcPrev := 0,
           zcPos := 0, zcNeg := 0, ovrLatch := false, hist := [], critP := [], critC := [], crit := [], winRun := 0,
           edgeN := 0, edges := 0, edgeBad := false, excBad := false, excP := false, excC := false,
           rounds := if off then 0 else t.rounds, passRun := if off then 0 else t.passRun,
           failRun := if off then 0 else t.failRun, disagree := t.disagree && !off,
           exceedRun := if off then 0 else t.exceedRun, clearRun := if off then 0 else t.clearRun,
           refBusy := t.refBusy && !off, roundDue := t.roundDue && !off, cmpExceed := t.cmpExceed && !off }

/-- Tap n changes to the mode that is live (R50, R62): its faults clear, and at OFF a commanded round that
waits or runs is aborted. -/
def Chip.tapNewMode (n : Nat) (c : Chip) : Chip :=
  let off := modeIn c.live n == mOFF
  let c := each [1, 2, 3, 4, 5] (Chip.faultDrop n) c
  let c := c.modTap n (Tap.newMode off)
  if off then c.endRound n stABORTED else c

/-- CG1 at its instant: taps that change mode start anew, a new rate holds from the instant on. -/
def Chip.tapChange (s : Nat) (old : Nat → W32) (c : Chip) : Chip :=
  let c := each ((List.range 128).filter (fun n => modeIn old n != modeIn c.live n)) Chip.tapNewMode c
  let rate := fun (rd : Nat → W32) (k : Nat) => BitVec.ofNat 2 (fld (rd (0x40000 + 4 * k)) 0 2)
  each (engs8.filter (fun k => rate old k != rate c.live k)) (fun k c =>
    c.modGroup k (fun g =>
      { g with rates := (s, rate c.live k) :: (if g.rates.isEmpty then [(0, rate old k)] else g.rates) })) c

/-- The context from which an engine that holds no running program starts at s: a stopped one's base context
(R422), else what is in force, with the logged events stamped before s (R130). -/
def Chip.startCtx (c : Chip) (k s : Nat) : EngCtx :=
  let q := c.eng k
  if q.logs then q.resumeCtx s else q.ctxUpTo s { c.freshCtx k with bank := q.base.bank }

/-- The direction units that go with it (R153). -/
def Chip.startDirs (c : Chip) (k s : Nat) : Tbl DirUnit :=
  let q := c.eng k
  if q.logs then q.resumeDirs s else q.dirsUpTo s (c.freshDirs k)

/-- CG2 at its instant: an engine that is not running takes its new program at once (R130); others do
so when their head reaches the instant. -/
def Chip.progChange (s : Nat) (old : Nat → W32) (c : Chip) : Chip :=
  each (engs8.filter (fun k => fld (old (aGate k)) 16 16 != c.cf (aGate k) 16 16)) (fun k c =>
    let q := c.eng k
    if 1 ≤ q.run.toNat ∧ q.run.toNat ≤ 5 then
      if q.prog = some s ∧ s ≤ q.hpos ∧ q.active ∧ !q.head.busy then c.progSwitch k else c
    else if !c.engEn k then
      c.modEng k (fun q => { q with run := ruUNLOADED, img := none, lostFrom := none })
    else
      let ctx := c.startCtx k s
      let dirs := c.startDirs k s
      (c.modEng k (fun q => { q with
        run := ruLOADING, reloaded := false, c := s, hpos := s, stallAt := s, stallCnt := satInc q.stallCnt,
        ck := { ctx := ctx, dirs := dirs }, head := {}, gates := [], undo := [],
        log := q.log.filter (fun e => decide (s ≤ e.stamp)),
        seg := { start := s }, mark := {}, forceDue := false, atHalt := false })).raise
        0x0507 k (w32 (c.cf (aGate k) 16 8 + 256 * (q.img.getD 0xFF))) 0) c

/-- CG3 at its instant: a quality value whose binding changes is dropped, and an engine that holds no program
takes the resets of direction units at once (R153). -/
def Chip.mpChange (old : Nat → W32) (ws : List (Nat × W32)) (c : Chip) : Chip :=
  let c := each (qualDrops old c.live) (fun m c =>
    c.when (c.bill.mp m).qval.isSome (Chip.modBill (fun b => b.putMp m { b.mp m with qval := none }))) c
  each ((dirResets old ws).filter (fun m => engs8.any (fun k =>
      mpOn c.live k m && (c.eng k).run == ruUNLOADED))) (fun m c =>
    c.modBill (fun b => b.putMp m { b.mp m with dirC := false })) c

end Sys2Proof.Machine
end

