-- ==== Sys2Proof/Machine/SafeCore.lean ====
section
/-! DEFINITION. The safety subsystem (14): switch word, templates, zones, global faults, restart,
and the Eombelan connections. -/

namespace Sys2Proof.Machine

open Sys2Proof

/-- Zone states (the table Zone states). -/
def zDISABLED : BitVec 3 := 0
def zSTART : BitVec 3 := 1
def zGRANT : BitVec 3 := 2
def zDEMAND : BitVec 3 := 3
def zTRIPPED : BitVec 3 := 4
def zFAULT : BitVec 3 := 5

/-- CAUSE codes (SAFE_ZONES). -/
def zcSTART : BitVec 5 := 1
def zcESTOP : BitVec 5 := 2
def zcDOOR : BitVec 5 := 3
def zcLOCK : BitVec 5 := 4
def zcCURTAIN : BitVec 5 := 5
def zcTWOHAND : BitVec 5 := 6
def zcRDC : BitVec 5 := 7
def zcREMOTE : BitVec 5 := 8
def zcCONNLOST : BitVec 5 := 9
def zcDISCREP : BitVec 5 := 10
def zcCROSS : BitVec 5 := 11
def zcGLOBAL : BitVec 5 := 12

/-- Global faults (SAFE_STATE.GCAUSE). -/
def gSWDISAGREE : Nat := 1
def gSWRESERVED : Nat := 2
def gSWCHANGED : Nat := 3
def gCHANNEL : Nat := 4
def gSTUCK : Nat := 5
def gTESTPULSE : Nat := 6
def gSFFAULT : Nat := 7
def gTABLE : Nat := 8

/-- Writes zone k of a channel. -/
def SafeChan.setZone (k : Nat) (z : Zone) (x : SafeChan) : SafeChan :=
  { x with zones := Tbl.put {} x.zones k z }

/-- One of the two channels: the Edge logic, or SF. -/
def Chip.chan (c : Chip) (edge : Bool) : SafeChan := if edge then c.safe.edge else c.safe.sf

/-- SF runs. -/
def Chip.sfRuns (c : Chip) : Bool := c.safe.sfUp && !c.safe.sfStopped

/-- A channel runs. -/
def Chip.chanRuns (c : Chip) (edge : Bool) : Bool := if edge then c.safe.edgeUp else c.sfRuns

/-- Updates a channel. -/
def Chip.modChan (edge : Bool) (f : SafeChan → SafeChan) (c : Chip) : Chip :=
  c.modSafe (fun s => if edge then { s with edge := f s.edge } else { s with sf := f s.sf })

/-- The template of zone k of a switch word (R288). -/
def tmplOf (sw : W16) (k : Nat) : Nat := fld sw (4 * k) 4

/-- The template of zone k in force; none is in force before a switch word is adopted. -/
def Chip.tmpl (c : Chip) (k : Nat) : Nat := match c.safe.adopted with
  | some w => tmplOf w k
  | none => 0

/-- The safety configuration CRC (R289). -/
def swCrc (sw : W16) : W16 := crc16 (leBytes 2 sw.toNat ++ [1])

/-- Contact A, contact B of input pair m in a channel: closed after filtering. -/
def SafeChan.a (x : SafeChan) (m : Nat) : Bool := x.inp.getLsbD (2 * m)
def SafeChan.b (x : SafeChan) (m : Nat) : Bool := x.inp.getLsbD (2 * m + 1)

/-- Both contacts of a pair are closed. -/
def SafeChan.closed (x : SafeChan) (m : Nat) : Bool := x.a m && x.b m

/-- Hand m is actuated: NO on A closed, NC on B open (R295); and released: the reverse. -/
def SafeChan.handOn (x : SafeChan) (m : Nat) : Bool := x.a m && !x.b m
def SafeChan.handOff (x : SafeChan) (m : Nat) : Bool := !x.a m && x.b m

/-- Input pair of zone k is used by template t: `second` is pair 2k+1. -/
def pairUsed (t : Nat) (second : Bool) : Bool :=
  if t = 0 ∨ 8 < t then false else if second then !(t == 1 || t == 7) else true

/-- A pair is fed from the test-pulse outputs (14): not the OSSD inputs of light curtains. -/
def pairPulsed (t : Nat) (second : Bool) : Bool :=
  pairUsed t second && !(t == 5 && second) && !(t == 8 && !second)

/-- A pair is in discrepancy (R294, R295). -/
def SafeChan.discrep (x : SafeChan) (t m : Nat) : Bool :=
  if t = 6 then x.a m == x.b m else x.a m != x.b m

/-- The connection table words SF runs (R307). -/
def Chip.escA (c : Chip) (i : Nat) : W32 := Tbl.get 0 c.safe.table (0x128000 + 0x10 * i)
def Chip.escId (c : Chip) (i : Nat) : W32 := Tbl.get 0 c.safe.table (0x128004 + 0x10 * i)
def Chip.escMap (c : Chip) (i : Nat) : W32 := Tbl.get 0 c.safe.table (0x12800C + 0x10 * i)
def Chip.escEn (c : Chip) (i : Nat) : Bool := (c.escA i).getLsbD 31
def Chip.escWd (c : Chip) (i : Nat) : Nat := fld (c.escA i) 0 10

/-- Connection i. -/
def Chip.conn (c : Chip) (i : Nat) : Conn := Tbl.get {} c.safe.conns i

/-- Updates connection i. -/
def Chip.modConn (i : Nat) (f : Conn → Conn) (c : Chip) : Chip :=
  c.modSafe (fun s => { s with conns := Tbl.put {} s.conns i (f (Tbl.get {} s.conns i)) })

/-- Enabled connections that trip zone k. -/
def Chip.escOf (c : Chip) (k : Nat) : List Nat :=
  (List.range 16).filter (fun i => c.escEn i && (c.escMap i).getLsbD k)

/-- The remote cause of zone k (R305): a connection that is not UP (2), or a permit bit 0. -/
def Chip.remoteCause (c : Chip) (k : Nat) : Option (BitVec 5) :=
  let l := c.escOf k
  if l.any (fun i => (c.conn i).st != 2) then some zcCONNLOST
  else if l.any (fun i => !(c.conn i).rx.getLsbD k) then some zcREMOTE
  else none

/-- The demand of zone k that trips it, as a channel sees its inputs. -/
def Chip.localTrip (c : Chip) (x : SafeChan) (k : Nat) : Option (BitVec 5) :=
  let t := c.tmpl k
  let p := 2 * k
  let q := 2 * k + 1
  if t = 6 ∨ t = 0 then none
  else if t = 8 then
    (if !x.closed p then some zcCURTAIN else if !x.closed q then some zcDOOR else none)
  else if !x.closed p then some zcESTOP
  else if t = 3 ∧ !x.closed q then some zcDOOR
  else if t = 4 ∧ !x.a q then some zcDOOR
  else if t = 4 ∧ !x.b q then some zcLOCK
  else if t = 5 ∧ !x.closed q then some zcCURTAIN
  else if t = 7 ∧ (c.safe.rdcAc.getLsbD k || c.safe.rdcDc.getLsbD k) then some zcRDC
  else none

/-- What trips zone k in a channel now. -/
def Chip.tripCause (c : Chip) (x : SafeChan) (k : Nat) : Option (BitVec 5) :=
  match c.localTrip x k with
  | some z => some z
  | none => c.remoteCause k

/-- The demand of zone k that ends by itself: the door of template 2, the hands of template 6. -/
def Chip.softCause (c : Chip) (x : SafeChan) (k : Nat) : Option (BitVec 5) :=
  let t := c.tmpl k
  if t = 2 ∧ !x.closed (2 * k + 1) then some zcDOOR
  else if t = 6 ∧ !(x.zone k).twoOk then some zcTWOHAND
  else none

/-- A safety event of zone k with its cause; raised once, for channel SF, or for the Edge logic
while SF is silent (log 98). -/
def Chip.zoneEvt (edge : Bool) (code : W16) (k : Nat) (cause : BitVec 5) (c : Chip) : Chip :=
  if edge == c.safe.sfUp then c else c.raise code k (cause.zeroExtend 32) 0

/-- Counts an entry of zone k (SAFE_ZCNT). -/
def Chip.zoneCount (edge trips : Bool) (k : Nat) (c : Chip) : Chip :=
  if edge == c.safe.sfUp then c
  else c.modSafe (fun s =>
    if trips then { s with trips := Tbl.put 0 s.trips k (satInc (Tbl.get 0 s.trips k)) }
    else { s with demands := Tbl.put 0 s.demands k (satInc (Tbl.get 0 s.demands k)) })

/-- Zone k of a channel enters a state with a cause. Leaving GRANT ends the two-hand grant: both hands must be
released from then on, or be released already (R295). -/
def Chip.zoneGo (edge : Bool) (k : Nat) (st : BitVec 3) (cause : BitVec 5) (c : Chip) : Chip :=
  c.modChan edge (fun x =>
    let z := x.zone k
    let ends := z.st == zGRANT && st != zGRANT
    x.setZone k { z with st := st, cause := if st = zGRANT then z.cause else cause,
                         released := if ends then x.handOff (2 * k) && x.handOff (2 * k + 1) else z.released,
                         twoOk := z.twoOk && !ends })

/-- A zone trips (R291). -/
def Chip.zoneTrip (edge : Bool) (k : Nat) (cause : BitVec 5) (c : Chip) : Chip :=
  (((c.zoneGo edge k zTRIPPED cause).zoneCount edge true k).zoneEvt edge 0x0E01 k cause)

/-- The bit of pair 2k, or of pair 2k+1. -/
def pairBit (second : Bool) : BitVec 2 := if second then 2 else 1

/-- An input fault of a pair (R293, R294): its zone enters FAULT, and one that is there already keeps this fault
beside those it has. -/
def Chip.zoneFault (edge : Bool) (k : Nat) (cause : BitVec 5) (second : Bool) (c : Chip) : Chip :=
  let z := (c.chan edge).zone k
  let b := pairBit second
  if c.tmpl k = 0 ∨ z.flt &&& b ≠ 0 then c else
  let c := c.modChan edge (fun x =>
    x.setZone k { z with flt := z.flt ||| b, openA := z.openA &&& ~~~ b, openB := z.openB &&& ~~~ b })
  if z.st = zFAULT then c
  else ((c.zoneGo edge k zFAULT cause).zoneCount edge true k).zoneEvt edge 0x0E01 k cause

/-- The two-hand bookkeeping of zone k at an input change (R295). -/
def Zone.hands (x : SafeChan) (k now : Nat) (z : Zone) : Zone :=
  let on1 := x.handOn (2 * k)
  let on2 := x.handOn (2 * k + 1)
  let off := x.handOff (2 * k) && x.handOff (2 * k + 1)
  let first := if !on1 && !on2 then none else match z.handFirst with
    | some t => some t
    | none => some now
  let inTime := match first with
    | some t => decide (now ≤ t + 16000)
    | none => false
  { z with released := z.released || off, handFirst := first,
           twoOk := on1 && on2 && (z.twoOk || (z.released && inTime)) }

/-- The opening of the contacts of the pairs in fault (R291). -/
def Zone.cycle (x : SafeChan) (k : Nat) (z : Zone) : Zone :=
  let opened := fun (f : Nat → Bool) => z.flt &&& BitVec.ofNat 2 (b2n (!f (2 * k)) + 2 * b2n (!f (2 * k + 1)))
  { z with openA := z.openA ||| opened x.a, openB := z.openB ||| opened x.b }

/-- A zone of a channel follows its causes (R291). -/
def Chip.zoneStep (edge : Bool) (k : Nat) (c : Chip) : Chip :=
  let x := c.chan edge
  let z := x.zone k
  if z.st ≠ zGRANT ∧ z.st ≠ zDEMAND then c
  else match c.tripCause x k with
  | some cause => c.zoneTrip edge k cause
  | none =>
    match c.softCause x k with
    | some cause =>
      if z.st = zDEMAND then c
      else (((c.zoneGo edge k zDEMAND cause).zoneCount edge false k).zoneEvt edge 0x0E02 k cause)
    | none =>
      if z.st = zDEMAND then
        (c.zoneGo edge k zGRANT z.cause).zoneEvt edge 0x0E03 k z.cause
      else c

/-- The zones 0 to 3 of both channels. -/
def zones8 : List (Bool × Nat) :=
  [(false, 0), (false, 1), (false, 2), (false, 3), (true, 0), (true, 1), (true, 2), (true, 3)]

/-- Every zone of both channels follows its causes. -/
def Chip.safeEval (c : Chip) : Chip := each zones8 (fun p c => c.zoneStep p.1 p.2) c

/-- Latches a global fault (R290, R286, R293, R299, R307): every used zone enters FAULT. -/
def Chip.latchGlobal (g : Nat) (arg1 : W32) (c : Chip) : Chip :=
  if c.safe.global.getLsbD g then c else
  let c := c.modSafe (fun s => { s with global := s.global ||| BitVec.ofNat 9 (2 ^ g) })
  let c := each zones8 (fun p c =>
    let st := ((c.chan p.1).zone p.2).st
    if st = zDISABLED ∨ st = zFAULT then c
    else (c.zoneGo p.1 p.2 zFAULT zcGLOBAL).zoneCount p.1 true p.2) c
  c.raise 0x0E04 0xFF (w32 g) arg1

/-- Drives whose switch is found stuck (R299): each new one is named and raises SAFE_FAULT. -/
def Chip.stuckFound (bits : W8) (c : Chip) : Chip :=
  each ((List.range 8).filter (fun i => bits.getLsbD i)) (fun i c =>
    if c.safe.stuck.getLsbD i then c else
    let c := c.modSafe (fun s => { s with stuck := s.stuck ||| BitVec.ofNat 8 (2 ^ i) })
    if c.safe.global.getLsbD gSTUCK then c.raise 0x0E04 0xFF (w32 gSTUCK) (w32 (40 + i))
    else c.latchGlobal gSTUCK (w32 (40 + i))) c

/-- Clears a global fault. -/
def Chip.clearGlobal (g : Nat) (c : Chip) : Chip :=
  c.modSafe (fun s => { s with global := s.global &&& ~~~ BitVec.ofNat 9 (2 ^ g) })

/-- The inputs of pair m that fail the test-pulse check in a channel (R293). -/
def SafeChan.pairFails (x : SafeChan) (m : Nat) : Bool := fld (x.pfault ||| x.pfaultB) (2 * m) 2 != 0

/-- The input faults of a zone are gone (R291, R296): both contacts of each pair in fault have opened and closed
again, and none fails the test-pulse check. A zone that only a global fault holds waits for that fault alone. -/
def Chip.faultCured (c : Chip) (x : SafeChan) (k : Nat) : Bool :=
  let z := x.zone k
  c.safe.global == 0 && [false, true].all (fun second =>
    let m := 2 * k + b2n second
    let b := pairBit second
    z.flt &&& b == 0 ||
      (z.openA &&& z.openB &&& b != 0 && (if c.tmpl k = 6 then x.handOff m else x.closed m) && !x.pairFails m))

/-- A zone that a valid acknowledgement restarts (R291, R296). -/
def Chip.ackable (c : Chip) (x : SafeChan) (k : Nat) : Bool :=
  let z := x.zone k
  (c.tripCause x k).isNone &&
  (z.st == zSTART || z.st == zTRIPPED || (z.st == zFAULT && c.faultCured x k))

/-- A valid acknowledgement (R296): eligible global faults clear, eligible zones enter GRANT. A
zone whose automatic demand is present goes on to DEMAND. -/
def Chip.ack (c : Chip) : Chip :=
  let c := c.when ((List.range 4).all (fun k => Tbl.get 0 c.safe.grantMm k == 0)) (Chip.clearGlobal gCHANNEL)
  let c := c.when (c.safe.sfUp && decide (1000 ≤ c.safe.agreeing)) (Chip.clearGlobal gSFFAULT)
  let c := c.when (decide (100 ≤ c.safe.tpGood) && decide (100 ≤ c.safe.tpGoodB)) (Chip.clearGlobal gTESTPULSE)
  let c := each zones8 (fun p c =>
    let x := c.chan p.1
    if c.ackable x p.2 then
      let cause := (x.zone p.2).cause
      ((c.zoneGo p.1 p.2 zGRANT cause).modChan p.1 (fun x =>
        x.setZone p.2 { x.zone p.2 with openA := 0, openB := 0, flt := 0 })).zoneEvt
          p.1 0x0E03 p.2 cause
    else c) c
  c.safeEval

/-- A zone of the switch word selects a reserved template (R290). -/
def swReserved (w : W16) : Bool := (List.range 4).any (fun k => decide (8 < tmplOf w k))

/-- The module adopts the switch word of a start (R290). -/
def Chip.swAdopt (w : W16) (c : Chip) : Chip :=
  let c := c.modSafe (fun s => { s with adopted := some w, prevCrc := swCrc w })
  each (zones8.filter (fun p => tmplOf w p.2 == 0)) (fun p c => c.zoneGo p.1 p.2 zDISABLED 0) c

/-- The record of a safety configuration whose CRC differs from that of the start before (R290, R222). -/
def Chip.swRecord (before : W16) (c : Chip) : Chip :=
  let crc := c.safe.prevCrc
  if crc == before then c else (c.tamperInst 21 0xFF c.now 0 []).raise 0x0E08 0xFF (crc.zeroExtend 32) 0

/-- A reading of the switches by both channels (R288-R290), at a start of the SAFE island or later: words that
differ, a reserved template and a change against the word in force are global faults; only a start adopts. -/
def Chip.switchRead (start : Bool) (sf edge : W16) (c : Chip) : Chip :=
  let c := c.modSafe (fun s =>
    { s with sf := { s.sf with sw := sf, crc := swCrc sf },
             edge := { s.edge with sw := edge, crc := swCrc edge } })
  let c := c.when (sf != edge) (Chip.latchGlobal gSWDISAGREE 0)
  let c := c.when (swReserved sf || swReserved edge) (Chip.latchGlobal gSWRESERVED 0)
  match c.safe.adopted with
  | some w => c.when (sf != w || edge != w) (Chip.latchGlobal gSWCHANGED 0)
  | none => c.when (start && sf == edge && !swReserved sf) (Chip.swAdopt sf)

/-- A start of the SAFE island (R291, R298): zones in START, connections closed, SF's copy of their table gone, the
switches read and the switch test made; `bad` are the drives that fail it. -/
def Chip.safeStart (sf edge : W16) (bad : W8) (c : Chip) : Chip :=
  let fresh : SafeChan := { zones := [] }
  let c := c.modSafe (fun s =>
    { s with sf := { fresh with inp := s.sf.inp }, edge := { fresh with inp := s.edge.inp },
             adopted := none, global := 0, ackHigh := none, ackStuck := false, stuck := 0, rdcAc := 0, rdcDc := 0,
             tpGood := 0, tpGoodB := 0, grantMm := [], agreeing := 1000, edgeUp := true, sfUp := true,
             sfStopped := false, conns := [], table := [], testOk := bad == 0 })
  (c.switchRead true sf edge).stuckFound bad

/-- The global fault GCAUSE shows: the lowest number latched (log 99). -/
def Chip.gcause (c : Chip) : Nat :=
  ((List.range 9).find? (fun g => c.safe.global.getLsbD g)).getD 0

/-- SAFE_STATE (14); 0 while SF does not run (R17). -/
def Chip.safeState (c : Chip) : W32 :=
  if !c.sfRuns then 0 else
  let g := ((List.range 8).map (fun i => b2n (c.zoneGranted (i / 2)) * 2 ^ i)).sum
  w32 (b2n c.safeCond * 2 ^ 31 + b2n (c.safe.global != 0) * 2 ^ 30
    + b2n ((List.range 4).any (fun k => c.ackable c.safe.sf k)) * 2 ^ 29 + b2n c.safe.ackStuck * 2 ^ 28
    + c.gcause * 2 ^ 16 + g * 2 ^ 8 + c.safe.stuck.toNat)

/-- SAFE_ZONES (14): the zones as SF keeps them; 0 while SF does not run. -/
def Chip.safeZones (c : Chip) : W32 :=
  if !c.sfRuns then 0 else
  w32 ((List.range 4).map (fun k =>
    let z := c.safe.sf.zone k
    (z.st.toNat * 32 + z.cause.toNat) * 2 ^ (8 * k))).sum

/-- The connection identity's owner side selects DIR (R301, R303). -/
def Chip.escSide (c : Chip) (i : Nat) : Bool := (c.escA i).getLsbD 30

/-- The permit connection i sends (R305). -/
def Chip.txPermit (c : Chip) (i : Nat) : W8 :=
  BitVec.ofNat 8 ((List.range 4).map (fun k =>
    b2n ((c.escMap i).getLsbD (4 + k) && c.safe.sf.closed (2 * k)
      && !c.safe.sf.pairFails (2 * k)) * 2 ^ k)).sum

/-- A frame of connection i (R301, R302): START or DATA with a sequence number. -/
def Chip.escFrame (c : Chip) (i : Nat) (start : Bool) (seq : W16) : List W8 :=
  let ty := b2n (c.escSide i) * 128 + (if start then 1 else 2)
  let st := ((List.range 4).map (fun k => b2n ((c.safe.sf.zone k).st == zGRANT) * 2 ^ k)).sum
  let echo := if (c.conn i).accepted then (c.conn i).lastAcc.toNat else 0
  let l := leBytes 1 ty ++ [4] ++ leBytes 2 seq.toNat ++ leBytes 2 (c.escWd i) ++ leBytes 2 echo
    ++ [c.txPermit i] ++ leBytes 1 st
  l ++ wordBytes (crc32esc (c.escId i) l)

/-- A frame as it leaves on the transport of connection i (R302): on CAN FD at priority 0 to the partner's node,
padded to 16 bytes; on UDP to the partner's port 6171; on the pair link in the lane slot of the connection. -/
def Chip.escOut (c : Chip) (i : Nat) (f : List W8) : EscOut :=
  let a := c.escA i
  let via := fld a 28 2
  let adr := Tbl.get (0 : W32) c.safe.table (0x128008 + 0x10 * i)
  let can := 0x3F * 2 ^ 18 + fld adr 0 8 * 256 + c.cf (0xC0020 + 4 * fld a 27 1) 0 8
  { via := BitVec.ofNat 2 via, port := a.getLsbD 27,
    dest := if via = 2 then w32 can else if via = 3 then w32 i else adr,
    udp := if via < 2 then 6171 else 0, bytes := if via = 2 then f ++ [0, 0] else f }

/-- The last frame left at least 1 ms ago (R303). -/
def Chip.escFree (c : Chip) (i : Nat) : Bool := (c.conn i).sentAt.all (fun t => decide (t + 32 ≤ c.now))

/-- Sends a frame with a sequence number; within 1 ms of the last one it is owed instead (R303). -/
def Chip.escSend (i : Nat) (start : Bool) (seq : W16) (c : Chip) : Chip :=
  if !c.sfRuns then c
  else if !c.escFree i then c.modConn i (fun x => { x with owed := true })
  else
    let f := c.escOut i (c.escFrame i start seq)
    let p := c.txPermit i
    let far := 32 * c.escWd i
    let now := c.now
    c.modConn i (fun x =>
      { x with seq := seq, tx := p, out := f :: x.out, sentAt := some now, owed := false,
               sent := (seq, now) :: x.sent.filter (fun s => decide (now ≤ s.2 + far)) })

/-- The next frame of connection i: START while STARTING, DATA while UP (R303, R304). -/
def Chip.escNext (i : Nat) (c : Chip) : Chip :=
  let x := c.conn i
  if x.st = 1 then
    if c.postNo = 0 then c else c.escSend i true (if x.seq = 0xFFFF then 1 else x.seq + 1)
  else if x.st = 2 then c.escSend i false (x.seq + 1)
  else c

/-- A connection enters STARTING with a random SEQ in 1-65,535 (R304). -/
def Chip.escStart (i : Nat) (c : Chip) : Chip :=
  if c.postNo = 0 ∨ ¬ c.escEn i ∨ ¬ c.sfRuns then c else
  let d := c.draw
  let seq := BitVec.ofNat 16 (d.1.toNat % 65535 + 1)
  (d.2.modConn i (fun x => { x with st := 1, accepted := false, lastAcc := 0, rx := 0, owed := false,
                                    seq := if seq = 1 then 0xFFFF else seq - 1, sent := [] })).escSend i true seq

/-- A connection is LOST with a reason (R303, R304). -/
def Chip.escLost (i : Nat) (reason : BitVec 5) (c : Chip) : Chip :=
  ((c.modConn i (fun x => { x with st := 3, reason := reason, rx := 0 })).raise 0x0E06 i
    (reason.zeroExtend 32) 0).safeEval

/-- A frame may go out: the permit has changed or one is owed, and nothing was sent within the last 1 ms (R303). -/
def Chip.permitDue (c : Chip) (i : Nat) : Bool :=
  let x := c.conn i
  ((x.st == 2 && c.txPermit i != x.tx) || (x.owed && (x.st == 1 || x.st == 2))) && c.escFree i && c.sfRuns

/-- A permit that has changed goes out at once, or 1 ms after the last frame (R303). -/
def Chip.escPermits (old c : Chip) : Chip :=
  each ((List.range 16).filter (fun i => c.permitDue i && !old.permitDue i)) Chip.escNext c

/-- SEQ, ECHO and the like of a received frame. -/
def frU16 (f : List W8) (o : Nat) : W16 := BitVec.ofNat 16 (leAt f o 2)

/-- A received frame is accepted. -/
def Chip.escAccept (i : Nat) (f : List W8) (zero : Bool) (c : Chip) : Chip :=
  let up := (c.conn i).st == 1 && !zero && c.postNo != 0
  let c := c.modConn i (fun x =>
    { x with lastAcc := frU16 f 2, accepted := true, st := if up then 2 else x.st,
             reason := x.reason, rx := if up || x.st == 2 then f.getD 8 0 else 0 })
  ((c.when up (fun c => c.raise 0x0E05 i 0 0)).when up (Chip.escNext i)).safeEval

/-- A frame that a check drops with the connection LOST (R303); one that is LOST already stays as it is. -/
def Chip.escDrop (i : Nat) (reason : BitVec 5) (c : Chip) : Chip :=
  if (c.conn i).st = 3 then c else c.escLost i reason

/-- A received frame against the table Receive checks (R303). A frame that fails check 1 counts as a CRC failure
that does not bear on the rate, and one that check 6 drops as a sequence loss (log 167). A connection that is
LOST checks and counts what it receives and accepts nothing. -/
def Chip.escRx (i : Nat) (f0 : List W8) (c : Chip) : Chip :=
  let x := c.conn i
  let can := fld (c.escA i) 28 2 == 2
  let f := f0.take 14
  let ty := (f.getD 0 0).toNat
  let wd := c.escWd i
  let fit := if can then f0.length == 16 && (f0.drop 14).all (· == 0) else f0.length == 14
  if !c.escEn i || x.st == 0 || !c.sfRuns then c
  else if f.getD 1 0 ≠ 4 ∨ !fit ∨ fld (f.getD 0 0) 4 3 ≠ 0 ∨ (ty % 16 ≠ 1 ∧ ty % 16 ≠ 2) then
    c.modConn i (fun x => { x with cntCrc := satInc x.cntCrc })
  else if crc32esc (c.escId i) (f.take 10) ≠ w32 (leAt f 10 4) then
    let recent := c.now :: x.crcFails.filter (fun t => decide (c.now < t + 60 * 32000))
    let c := c.modConn i (fun x => { x with cntCrc := satInc x.cntCrc, crcFails := recent })
    if 11 ≤ recent.length then c.escDrop i 2 else c
  else if (128 ≤ ty) == c.escSide i then c.modConn i (fun x => { x with cntDup := satInc x.cntDup })
  else if leAt f 4 2 ≠ wd then (c.modConn i (fun x => { x with cntSeq := satInc x.cntSeq })).escDrop i 3
  else
    let seq := frU16 f 2
    let data := ty % 16 == 2
    if data ∧ x.st = 2 ∧ seq = x.lastAcc then c.modConn i (fun x => { x with cntDup := satInc x.cntDup })
    else if data ∧ x.st = 2 ∧ seq ≠ x.lastAcc + 1 then
      (c.modConn i (fun x => { x with cntSeq := satInc x.cntSeq })).escDrop i 4
    else
      let echo := frU16 f 6
      let known := x.sent.any (fun s => s.1 == echo && decide (c.now ≤ s.2 + 32 * wd))
      if x.st = 3 ∧ (known ∨ (¬ data ∧ echo = 0)) then c
      else if known then c.escAccept i f false
      else if !data && echo == 0 then c.escAccept i f true
      else (c.modConn i (fun x => { x with cntSeq := satInc x.cntSeq })).escDrop i 5

/-- The table words a CG8 commit gives SF (R307). -/
def escTableAddrs : List Nat :=
  ((List.range 16).flatMap (fun i => (List.range 4).map (fun j => 0x128000 + 0x10 * i + 4 * j)))
    ++ [0x128100]

/-- The zones that a connection trips enter TRIPPED with a cause (R305). -/
def Chip.tripZones (map : Nat) (cause : BitVec 5) (c : Chip) : Chip :=
  each (zones8.filter (fun p => map.testBit p.2)) (fun p c =>
    let st := ((c.chan p.1).zone p.2).st
    if st = zGRANT ∨ st = zDEMAND then c.zoneTrip p.1 p.2 cause else c) c

/-- SF copies an accepted connection table (R306, R307): a connection whose words change closes with reason
COMMIT, its zones trip, and it restarts in STARTING. -/
def Chip.escAdopt (c : Chip) : Chip :=
  let old := c.safe.table
  let new : Tbl W32 := escTableAddrs.foldl (fun t a => Tbl.put 0 t a (c.live a)) []
  let c := c.modSafe (fun s => { s with table := new })
  let diff := (List.range 16).filter (fun i =>
    (List.range 4).any (fun j =>
      let a := 0x128000 + 0x10 * i + 4 * j
      Tbl.get (0 : W32) old a != Tbl.get 0 new a))
  each diff (fun i c =>
    let was := (c.conn i).st
    let c := if was = 0 then c
      else ((c.modConn i (fun x => { x with st := 3, reason := 6, rx := 0 })).raise 0x0E06 i 6 0).tripZones
        (fld (Tbl.get (0 : W32) old (0x12800C + 0x10 * i)) 0 4) zcCONNLOST
    let c := c.modConn i (fun x => { x with st := 0 })
    (c.escStart i).safeEval) c

end Sys2Proof.Machine
end

