-- ==== Sys2Proof/Machine/Settle.lean ====
section
/-! DEFINITION. What follows every command: entering QUARANTINE or RETIRED, what the bay and the
host are told of changed states, and the reported mode. The frame every command runs in. -/

namespace Sys2Proof.Machine

open Sys2Proof

/-- Starts or ends the QUARANTINE tamper condition (type 23) with the mode condition. -/
def Chip.settleQuar (c : Chip) : Chip :=
  if c.sys.qcause != 0 then c.tamperStart 23 0xFF c.now else c.tamperEnd 23 0xFF c.now

/-- QUARANTINE or RETIRED is entered (R251, R182): sessions close, and the bay acts as in step 2 of
the table Bay fault. -/
def Chip.settleStop (old c : Chip) : Chip :=
  let q := c.sys.qcause != 0 && old.sys.qcause == 0
  let r := c.retired && !old.retired
  if q || r then c.bayStep2.closeSessions 0x12 else c

/-- HOLDOVER is entered (R251): the next ISO 15118 answer carries a pause notification. -/
def Chip.settleAux (old c : Chip) : Chip :=
  c.when (c.power.onAux && !old.power.onAux && c.bay.v2gConn)
    (Chip.modBay (fun b => { b with pauseNote := true }))

/-- A change of SAFE_STATE or SAFE_ZONES goes to the bay program and to FQ6 (R309). -/
def Chip.settleSafe (old c : Chip) : Chip :=
  let st := c.safeState
  let zs := c.safeZones
  if st = old.safeState ∧ zs = old.safeZones then c else
  ((c.bayField 0x7C090 (zs ++ st)).bayEvent 22).fqPut 6
    (mkPkt 0x60 0x0E [0, st, zs, w32 c.now, hi32 c.now])

/-- Tandem slices are in use (R325): the pair link has been up for 1 s, 50 slices of 20 ms. -/
def Chip.slicing (c : Chip) : Bool := c.pair.formed && c.pair.j11Up && decide (50 ≤ c.pair.markRun)

/-- This module has the lower device identity of the pair. -/
def Chip.lowerId (c : Chip) : Bool := decide (c.sys.deviceId.toNat < c.pair.pid.toNat)

/-- The field may be on (R310, R325). A module that has had a partner since its SV started goes by the identities
while the pair link is down. -/
def Chip.fieldMay (c : Chip) : Bool :=
  c.cb 0xF0000 31 && c.rdy rLINK && !c.power.onAux && !c.sys.changeover && !c.retired
    && !c.link.antFault
    && (c.pair.pid == 0 || (if c.slicing then c.link.sliceOwn else c.lowerId))

/-- The field goes off where R310 or R325 does not let it be on. -/
def Chip.settleField (c : Chip) : Chip :=
  c.when (c.link.field && !c.fieldMay) (Chip.modLink (fun l => { l with field := false }))

/-- Reports the mode: at a change HINT bit 10 and bay event 26 are set (R29, R120). -/
def Chip.setMode (c : Chip) : Chip :=
  let m := c.modeOf
  if m = c.sys.mode then c
  else { c with
    sys := { c.sys with mode := m, hintStatus := c.sys.hintStatus ||| 0x400 }
    bay := { c.bay with events := c.bay.events ||| 0x4000000 } }

/-- What follows every command, against the block as the command found it. -/
def Chip.settle (old c : Chip) : Chip :=
  let c := Chip.escPermits old (Chip.pulses old (Chip.chooseAll old (Chip.latchWins old c)).settleQuar)
  let c := Chip.settleSafe old (Chip.settleAux old (Chip.settleStop old c))
  let c := Chip.tripCheck old (Chip.lampStart old c)
  Chip.holdsOver old (Chip.bayWatch old c.settleField).setMode

/-- A command whose effect on the block is `f`: the queue stands aside, the rest follows. -/
def run (f : Chip → Chip) (s : State) : Host.Outcome State Fault Refusal :=
  .next { s with chip := Chip.settle s.chip (f s.chip) }

end Sys2Proof.Machine
end

