-- ==== Sys2Proof/Machine/BayRows.lean ====
section
/-! DEFINITION. The meanings of the commands of the bay (12) and of the safety subsystem (14). -/

namespace Sys2Proof.Machine

open Sys2Proof

/-- BAY_RELOAD_DONE (R248, R250). -/
def execBayReloadDone (s : State) : Host.Outcome State Fault Refusal := run Chip.bayReloaded s

/-- BAY_TIMER_EXPIRE (R121). -/
def execBayTimerExpire (n : Fin 16) (s : State) : Host.Outcome State Fault Refusal :=
  run (Chip.bayTimer n.val) s

/-- PILOT_STATE_CHANGE (R253): positive plateaus and the negative plateau in millivolts. -/
def execPilotStateChange (hi : Plateaus) (lo : Int) (s : State) :
    Host.Outcome State Fault Refusal := run (Chip.pilotSamples hi lo) s

/-- PP_MEASURE (R256). -/
def execPpMeasure (ohms : Nat) (s : State) : Host.Outcome State Fault Refusal :=
  run (Chip.ppMeasured ohms) s

/-- V2G_REQUEST (R258). -/
def execV2gRequest (r : V2gReq) (s : State) : Host.Outcome State Fault Refusal :=
  run (Chip.v2gRequest r) s

/-- The connection a CAN FD frame with message code 0x3F belongs to: the enabled CAN connection of
the port whose partner node sent it (R262, R302). -/
def Chip.escOfCan (c : Chip) (p : Nat) (id : W32) : Option Nat :=
  (List.range 16).find? (fun i =>
    c.escEn i && fld (c.escA i) 28 2 == 2 && fld (c.escA i) 27 1 == p
      && fld (Tbl.get (0 : W32) c.safe.table (0x128008 + 0x10 * i)) 0 8 == fld id 0 8)

/-- CAN_FRAME_RX (R261, R262): code 0x3F goes to SF, other frames wait for SLIPRX. -/
def execCanFrameRx (p : Fin 2) (id : W32) (data : List W8) (t : W32) (s : State) :
    Host.Outcome State Fault Refusal :=
  run (fun c =>
    if !c.canAccepts p.val id then c
    else if fld id 18 8 = 0x3F then
      match c.escOfCan p.val id with
      | some i => c.escRx i data
      | none => c
    else c.canKeep p.val (w32 (fld id 0 29)) data t) s

/-- CAN_FRAME_TX (R122): the oldest queued frame leaves. -/
def execCanFrameTx (p : Fin 2) (s : State) : Host.Outcome State Fault Refusal :=
  run (fun c => if c.canEn p.val then c.modCan p.val (fun x => { x with tx := x.tx.drop 1 }) else c) s

/-- CAN_BUS_OFF (R261). -/
def execCanBusOff (p : Fin 2) (s : State) : Host.Outcome State Fault Refusal :=
  run (fun c =>
    if c.canEn p.val then
      (c.modCan p.val (fun x => { x with busOff := satInc x.busOff })).raise 0x0C07 p.val 0 0
    else c) s

/-- RCM_FLT_INPUT (R263). -/
def execRcmFltInput (k : Fin 4) (active : Bool) (s : State) : Host.Outcome State Fault Refusal :=
  run (Chip.rcmInput k.val active) s

/-- IMD_MEASURE (R264). -/
def execImdMeasure (kohm : W16) (s : State) : Host.Outcome State Fault Refusal :=
  run (Chip.imdMeasured kohm) s

/-- BAY_LOCKSTEP (R250, R14). -/
def execBayLockstep (s : State) : Host.Outcome State Fault Refusal :=
  run (fun c => if c.bay.run = baRUN ∨ c.bay.run = baPAUSED then c.bayFault 0x20 else c) s

/-- BAY_PAUSE_END (R251, R379). -/
def execBayPauseEnd (s : State) : Host.Outcome State Fault Refusal := run Chip.bayResume s

/-- MODEM_POLL (R406, R407): the READ_STATUS reply if one came; with RX_READY in it the READ_FRAME replies while
MDM_INT_N is low; and the status bytes returned to WRITE_FRAMEs. Without a valid reply nothing changes. -/
def execModemPoll (status : Option ModemStatus) (frames : List ModemFrame) (sent : List W8) (s : State) :
    Host.Outcome State Fault Refusal :=
  run (fun c =>
    match status with
    | none => c
    | some r =>
      if !c.modemOn || !modemStatusOk r then c else
      let got := if r.status.getLsbD 0 then modemKeep frames else []
      (c.modBay (fun b =>
        { b with modem := true, modemStatus := r.status, modemRx := b.modemRx ++ got })).modemPut sent false) s

/-- MODEM_FAULT (R407): no valid reply for 100 ms; the reset is held low for 10 ms. -/
def execModemFault (s : State) : Host.Outcome State Fault Refusal :=
  run (fun c =>
    if !c.modemOn then c else
    let c := c.when c.bay.v2gConn (Chip.v2gAbort {})
    ((c.modBay (fun b => { b with modemTx := [] })).modemRelease).raise 0x0C09 0xFF 0 0) s

/-- SAFETY_INPUT_CHANGE (R294): the filtered inputs of both channels, closed = 1. -/
def execSafetyInputChange (sf edge : W16) (s : State) : Host.Outcome State Fault Refusal :=
  run (fun c =>
    let c := c.modSafe (fun x => { x with sf := { x.sf with inp := sf },
                                          edge := { x.edge with inp := edge } })
    let now := c.now
    let c := each zones8 (fun p c =>
      let t := c.tmpl p.2
      c.modChan p.1 (fun x =>
        let z := x.zone p.2
        x.setZone p.2 (Zone.cycle x p.2 (if t = 6 then Zone.hands x p.2 now z else z)))) c
    c.safeEval) s

/-- The inputs fed from the test-pulse outputs that read closed in a channel, A inputs or B inputs (R293). -/
def Chip.pulsed (c : Chip) (edge b : Bool) : W16 :=
  BitVec.ofNat 16 (((List.range 8).filter (fun m =>
    pairPulsed (c.tmpl (m / 2)) (m % 2 == 1))).map (fun m =>
      let i := 2 * m + b2n b
      b2n ((c.chan edge).inp.getLsbD i) * 2 ^ i)).sum

/-- The inputs of a channel that fail the check at a pulse of TPA or TPB (`b`): one that had to fall and did not, or
fell and had not to. -/
def Chip.pulseFails (c : Chip) (edge b : Bool) (fell : W16) : W16 :=
  (c.pulsed edge b &&& ~~~ fell) ||| (c.pulsed edge (!b) &&& fell)

/-- A channel's check at a pulse (R293): an input that failed at the last pulse of either output too is a fault of
its pair. -/
def Chip.pulseCheck (edge b : Bool) (fell : W16) (c : Chip) : Chip :=
  if !c.chanRuns edge then c else
  let bad := c.pulseFails edge b fell
  let seen := c.pulsed edge b ||| c.pulsed edge (!b)
  let x := c.chan edge
  let twice := bad &&& (x.pbad ||| x.pbadB)
  let faults := fun (p : W16) => (p &&& ~~~ (seen &&& ~~~ bad)) ||| twice
  let c := c.modChan edge (fun x =>
    if b then { x with pfaultB := faults x.pfaultB, pbadB := bad }
    else { x with pfault := faults x.pfault, pbad := bad })
  each ((List.range 8).filter (fun m => fld twice (2 * m) 2 != 0))
    (fun m c => c.zoneFault edge (m / 2) zcCROSS (m % 2 == 1)) c

/-- SAFETY_TEST_PULSE (R293): a pulse of TPA or TPB (`b`), the inputs that each channel saw fall, and whether the
output went low. -/
def execSafetyTestPulse (b : Bool) (fell : Fell) (ok : Bool) (s : State) :
    Host.Outcome State Fault Refusal :=
  run (fun c =>
    if !ok then
      (c.modSafe (fun x => if b then { x with tpGoodB := 0 } else { x with tpGood := 0 })).latchGlobal gTESTPULSE 0
    else
      let c := c.modSafe (fun x => if b then { x with tpGoodB := min 100 (x.tpGoodB + 1) }
                                   else { x with tpGood := min 100 (x.tpGood + 1) })
      (c.pulseCheck false b fell.sf).pulseCheck true b fell.edge) s

/-- DISCREPANCY_TIMEOUT (R294, R295): a pair of zone z has been in discrepancy for 100 ms. -/
def execDiscrepancyTimeout (z : Fin 4) (second : Bool) (s : State) :
    Host.Outcome State Fault Refusal :=
  run (fun c =>
    let m := 2 * z.val + b2n second
    let t := c.tmpl z.val
    each [false, true] (fun e c =>
      if pairUsed t second && (c.chan e).discrep t m then
        c.zoneFault e z.val zcDISCREP second
      else c) c) s

/-- A channel's grant decision for zone k (R286). -/
def Chip.grants (c : Chip) (edge : Bool) (k : Nat) : Bool := ((c.chan edge).zone k).st == zGRANT && !c.safeCond

/-- CROSS_LINK_EXCHANGE (R286): grant decisions for one zone that differ for 6 exchanges are a CHANNEL fault. SF is
ready while no zone's decisions have differed so long and, once it was reloaded, 1 s of agreement has passed
(R287, R372, log 168). -/
def execCrossLinkExchange (s : State) : Host.Outcome State Fault Refusal :=
  run (fun c =>
    if !c.sfRuns || !c.safe.edgeUp then c else
    let mm := (List.range 4).map (fun k =>
      (k, if c.grants false k == c.grants true k then 0 else Tbl.get 0 c.safe.grantMm k + 1))
    let same := mm.all (fun p => p.2 == 0)
    let apart := mm.any (fun p => decide (6 ≤ p.2))
    let c := c.modSafe (fun x =>
      { x with grantMm := mm.foldl (fun t p => Tbl.put 0 t p.1 p.2) x.grantMm,
               agreeing := if same || x.agreeing == 1000 then min 1000 (x.agreeing + 1) else 0 })
    let c := c.setRdy rSF (!apart && c.safe.agreeing == 1000)
    c.when apart (Chip.latchGlobal gCHANNEL 0)) s

/-- SF_SILENT (R286). -/
def execSfSilent (s : State) : Host.Outcome State Fault Refusal :=
  run (fun c =>
    if !c.safe.sfUp then c else
    ((c.modSafe (fun x => { x with sfUp := false, agreeing := 0 })).setRdy rSF false).latchGlobal
      gSFFAULT 0) s

/-- SF_RELOAD (R287): only after SF_FAULT. The reloaded SF takes its zones from the cross link and restarts its
connections; it is ready after 1 s of agreement. -/
def execSfReload (s : State) : Host.Outcome State Fault Refusal :=
  run (fun c =>
    if !c.safe.global.getLsbD gSFFAULT || c.safe.sfUp || !c.rdy rSV then c else
    let c := c.modSafe (fun x =>
      { x with sfUp := true, sfStopped := false, agreeing := 0, grantMm := [], conns := [],
               sf := { x.sf with zones := x.edge.zones } })
    each (List.range 16) Chip.escStart c) s

/-- SAFETY_SWITCH_READ (R288-R290): the word of a channel that does not run stays as it was. -/
def execSafetySwitchRead (sf edge : W16) (s : State) : Host.Outcome State Fault Refusal :=
  run (fun c =>
    if !c.safe.edgeUp then c else c.switchRead false (if c.sfRuns then sf else c.safe.sf.sw) edge) s

/-- SAFE_ACK_EDGE (R296): 200 ms to 2 s high, then the falling edge. -/
def execSafeAckEdge (high : Bool) (s : State) : Host.Outcome State Fault Refusal :=
  run (fun c =>
    if high then c.modSafe (fun x => { x with ackHigh := some c.now })
    else
      let c' := c.modSafe (fun x => { x with ackHigh := none, ackStuck := false })
      match c.safe.ackHigh with
      | none => c'
      | some t =>
        if t + 6400 ≤ c.now ∧ c.now ≤ t + 64000 ∧ !c.safe.ackStuck then c'.ack else c') s

/-- SAFE_ACK_STUCK (R296): SAFE_ACK is held beyond 2 s. -/
def execSafeAckStuck (s : State) : Host.Outcome State Fault Refusal :=
  run (fun c =>
    if c.safe.ackHigh.isNone || c.safe.ackStuck then c
    else (c.modSafe (fun x => { x with ackStuck := true })).raise 0x0E07 0xFF 0 0) s

/-- RDC_TRIP (R297): which levels of T124+k are exceeded; both absent once they have stayed below
half their thresholds for 100 ms. -/
def execRdcTrip (k : Fin 4) (ac dc : Bool) (s : State) : Host.Outcome State Fault Refusal :=
  run (fun c =>
    let bit := BitVec.ofNat 4 (2 ^ k.val)
    let put := fun (b : Bool) (v : BitVec 4) => if b then v ||| bit else v &&& ~~~ bit
    (c.modSafe (fun x => { x with rdcAc := put ac x.rdcAc, rdcDc := put dc x.rdcDc })).safeEval) s

/-- The safety drives that are energised. -/
def Chip.energised (c : Chip) : W8 :=
  BitVec.ofNat 8 ((List.range 8).map (fun i => b2n (c.driveOn (40 + i)) * 2 ^ i)).sum

/-- SAFETY_DRIVE_OFF_PULSE (R277, R299): SF or the Edge logic (`edge`) pulses its own switch of the energised safety
drives; a drive that is cut shows a stuck switch without a pulse. A channel that does not run pulses nothing. -/
def execSafetyDriveOffPulse (edge : Bool) (stuck : StuckSeen) (s : State) :
    Host.Outcome State Fault Refusal :=
  run (fun c =>
    if !c.chanRuns edge then c
    else c.stuckFound ((stuck.pulse &&& c.energised) ||| (stuck.cut &&& ~~~ c.energised))) s

/-- ESC_FRAME_RX (R303). -/
def execEscFrameRx (i : Fin 16) (bytes : List W8) (s : State) : Host.Outcome State Fault Refusal :=
  run (Chip.escRx i.val bytes) s

/-- ESC_SEND_TIMER (R303). -/
def execEscSendTimer (i : Fin 16) (s : State) : Host.Outcome State Fault Refusal :=
  run (Chip.escNext i.val) s

/-- ESC_WATCHDOG (R304). -/
def execEscWatchdog (i : Fin 16) (s : State) : Host.Outcome State Fault Refusal :=
  run (fun c =>
    let st := (c.conn i.val).st
    if (st = 1 ∨ st = 2) ∧ c.sfRuns then
      (c.modConn i.val (fun x => { x with cntWd := satInc x.cntWd })).escLost i.val 1
    else c) s

/-- ESC_RESTART (R304): 100 ms in LOST are over. With POST_NO 0 no connection opens (R21): it is OFF until an
assignment starts it. -/
def execEscRestart (i : Fin 16) (s : State) : Host.Outcome State Fault Refusal :=
  run (fun c =>
    if (c.conn i.val).st ≠ 3 ∨ ¬ c.sfRuns then c
    else if c.postNo = 0 then c.modConn i.val (fun x => { x with st := 0 })
    else c.escStart i.val) s

/-- SF_TABLE_CHECK (R307). -/
def execSfTableCheck (bad : Bool) (s : State) : Host.Outcome State Fault Refusal :=
  run (fun c => if bad && c.sfRuns then c.latchGlobal gTABLE 0 else c) s

end Sys2Proof.Machine
end

