-- ==== Sys2Proof/Machine/BillRows.lean ====
section
/-! DEFINITION. The meanings of the commands of the tariff and billing block (08). -/

namespace Sys2Proof.Machine

open Sys2Proof

/-- TIME_EVENT_HANDOFF (R168). -/
def execTimeEventHandoff (s : State) : Host.Outcome State Fault Refusal := run Chip.handoff s

/-- DEMAND_CLOSE (R172): the earliest pending demand boundary executes. -/
def execDemandClose (s : State) : Host.Outcome State Fault Refusal :=
  run (Chip.pendExec [0, 8] true Chip.demandExec) s

/-- BILLING_CLOSE (R177). -/
def execBillingClose (s : State) : Host.Outcome State Fault Refusal :=
  run (Chip.pendExec [1, 4, 9] true Chip.closeExec) s

/-- TARIFF_SWITCH (R169). -/
def execTariffSwitch (s : State) : Host.Outcome State Fault Refusal :=
  run (Chip.pendExec [2, 10] false Chip.switchExec) s

/-- CALENDAR_ACTIVATION (R168). -/
def execCalendarActivation (s : State) : Host.Outcome State Fault Refusal :=
  run (Chip.pendExec [3, 11] false Chip.activate) s

/-- SESSION_OPEN_APPLY (R179): the open takes effect at its stamp. -/
def execSessionOpenApply (mp : MpNo) (s : State) : Host.Outcome State Fault Refusal :=
  run (fun c =>
    let x := c.session mp.val
    if x.no = 0 ∨ x.applied ∨ c.now < x.openSix then c
    else c.modBill (Bill.putSess mp.val { x with applied := true })) s

/-- SESSION_CLOSE_APPLY (R182): the close takes effect once the engine that had the meter
point when it was asked for has committed up to its stamp. -/
def execSessionCloseApply (mp : MpNo) (s : State) : Host.Outcome State Fault Refusal :=
  run (fun c =>
    match (c.session mp.val).closeSix with
    | none => c
    | some z => c.when (c.sessDue mp.val z) (Chip.sessionEnd mp.val)) s

/-- LP_PERIOD_END (R184). -/
def execLpPeriodEnd (ch : Fin 256) (s : State) : Host.Outcome State Fault Refusal :=
  run (Chip.lpEnd ch.val) s

/-- SPILL_PULSE_ON_END (R155): the output goes off for OFF_MS. -/
def execSpillPulseOnEnd (mp : MpNo) (slot : Fin 8) (s : State) : Host.Outcome State Fault Refusal :=
  run (fun c =>
    if (c.spill mp.val slot.val).phase = 1 then
      let c := c.modSpill mp.val slot.val (fun x => { x with phase := 2 })
      match spillDrive (c.spillCfg mp.val slot.val) with
      | some n => c.drvCommand n false
      | none => c
    else c) s

/-- SPILL_PULSE_OFF_END (R155): the output is idle; a backlog starts the next pulse
(`Chip.pulses`). -/
def execSpillPulseOffEnd (mp : MpNo) (slot : Fin 8) (s : State) : Host.Outcome State Fault Refusal :=
  run (fun c =>
    if (c.spill mp.val slot.val).phase = 2 then
      c.modSpill mp.val slot.val (fun x => { x with phase := 0 })
    else c) s

end Sys2Proof.Machine
end

