-- ==== Sys2Proof/Machine/BolgilRows.lean ====
section
/-! DEFINITION. The meanings of the Bolgil instructions (05). A thread that is not running executes
nothing. -/

namespace Sys2Proof.Machine

open Sys2Proof

/-- An instruction of both profiles that changes the thread alone; the flag says S-profile. -/
def Chip.pureI (e : Exec) (f : Bool → Thread → Except W8 Thread) (c : Chip) : Chip :=
  match e with
  | .head k => c.qPure k.val false (f false)
  | .replay k => c.qPure k.val true (f false)
  | .bay => c.bPure (f true)

/-- An instruction of both profiles with an effect of its own in each. -/
def Chip.bothI (e : Exec) (q : Nat → Bool → Chip → Chip) (b : Chip → Chip) (c : Chip) : Chip :=
  match e with
  | .head k => q k.val false c
  | .replay k => q k.val true c
  | .bay => b c

/-- An instruction of the Q-profile alone: illegal in a bay program (R94). -/
def Chip.onlyQ (e : Exec) (q : Nat → Bool → Chip → Chip) (c : Chip) : Chip :=
  Chip.bothI e q Chip.bIllegal c

/-- An instruction of the Q-profile alone that changes the thread alone. -/
def Chip.pureQ (e : Exec) (f : Thread → Except W8 Thread) (c : Chip) : Chip :=
  Chip.onlyQ e (fun k rep => Chip.qPure k rep f) c

/-- An instruction of the S-profile alone: illegal in a tally program (R94). -/
def Chip.onlyS (e : Exec) (b : Chip → Chip) (c : Chip) : Chip :=
  Chip.bothI e (fun k rep => Chip.qPure k rep (fun _ => .error trILLEGAL)) b c

/-- ADD (R100). -/
def execAdd (e : Exec) (rd rs1 rs2 : Reg) (s : State) :
    Host.Outcome State Fault Refusal :=
  run (Chip.pureI e (Thread.alu (fun a b => .ok (a + b)) · rd rs1 rs2)) s

/-- SUB (R100). -/
def execSub (e : Exec) (rd rs1 rs2 : Reg) (s : State) :
    Host.Outcome State Fault Refusal :=
  run (Chip.pureI e (Thread.alu (fun a b => .ok (a - b)) · rd rs1 rs2)) s

/-- AND (R100). -/
def execAnd (e : Exec) (rd rs1 rs2 : Reg) (s : State) :
    Host.Outcome State Fault Refusal :=
  run (Chip.pureI e (Thread.alu (fun a b => .ok (a &&& b)) · rd rs1 rs2)) s

/-- OR (R100). -/
def execOr (e : Exec) (rd rs1 rs2 : Reg) (s : State) :
    Host.Outcome State Fault Refusal :=
  run (Chip.pureI e (Thread.alu (fun a b => .ok (a ||| b)) · rd rs1 rs2)) s

/-- XOR (R100). -/
def execXor (e : Exec) (rd rs1 rs2 : Reg) (s : State) :
    Host.Outcome State Fault Refusal :=
  run (Chip.pureI e (Thread.alu (fun a b => .ok (a ^^^ b)) · rd rs1 rs2)) s

/-- MUL: the low 64 bits (R100). -/
def execMul (e : Exec) (rd rs1 rs2 : Reg) (s : State) :
    Host.Outcome State Fault Refusal :=
  run (Chip.pureI e (Thread.alu (fun a b => .ok (a * b)) · rd rs1 rs2)) s

/-- MULH (R100). -/
def execMulh (e : Exec) (rd rs1 rs2 : Reg) (s : State) :
    Host.Outcome State Fault Refusal :=
  run (Chip.pureI e (Thread.alu (fun a b => .ok (mulhOp a b)) · rd rs1 rs2)) s

/-- DIV (R100). -/
def execDiv (e : Exec) (rd rs1 rs2 : Reg) (s : State) :
    Host.Outcome State Fault Refusal :=
  run (Chip.pureI e (Thread.alu divOp · rd rs1 rs2)) s

/-- REM (R100). -/
def execRem (e : Exec) (rd rs1 rs2 : Reg) (s : State) :
    Host.Outcome State Fault Refusal :=
  run (Chip.pureI e (Thread.alu remOp · rd rs1 rs2)) s

/-- SLT (R100). -/
def execSlt (e : Exec) (rd rs1 rs2 : Reg) (s : State) :
    Host.Outcome State Fault Refusal :=
  run (Chip.pureI e (Thread.alu (fun a b => .ok (b2x (a.slt b))) · rd rs1 rs2)) s

/-- SLTU (R100). -/
def execSltu (e : Exec) (rd rs1 rs2 : Reg) (s : State) :
    Host.Outcome State Fault Refusal :=
  run (Chip.pureI e (Thread.alu (fun a b => .ok (b2x (a.ult b))) · rd rs1 rs2)) s

/-- MIN, signed (R100). -/
def execMin (e : Exec) (rd rs1 rs2 : Reg) (s : State) :
    Host.Outcome State Fault Refusal :=
  run (Chip.pureI e (Thread.alu (fun a b => .ok (if a.slt b then a else b)) · rd rs1 rs2)) s

/-- MAX, signed (R100). -/
def execMax (e : Exec) (rd rs1 rs2 : Reg) (s : State) :
    Host.Outcome State Fault Refusal :=
  run (Chip.pureI e (Thread.alu (fun a b => .ok (if a.slt b then b else a)) · rd rs1 rs2)) s

/-- SHL (R100). -/
def execShl (e : Exec) (rd rs1 rs2 : Reg) (sh : BitVec 6) (s : State) :
    Host.Outcome State Fault Refusal :=
  run (Chip.pureI e (Thread.alu (fun a b => .ok (a <<< shAmt b sh)) · rd rs1 rs2)) s

/-- SHR (R100). -/
def execShr (e : Exec) (rd rs1 rs2 : Reg) (sh : BitVec 6) (s : State) :
    Host.Outcome State Fault Refusal :=
  run (Chip.pureI e (Thread.alu (fun a b => .ok (a >>> shAmt b sh)) · rd rs1 rs2)) s

/-- SRA (R100). -/
def execSra (e : Exec) (rd rs1 rs2 : Reg) (sh : BitVec 6) (s : State) :
    Host.Outcome State Fault Refusal :=
  run (Chip.pureI e (Thread.alu (fun a b => .ok (a.sshiftRight (shAmt b sh))) · rd rs1 rs2)) s

/-- ADDI (R100). -/
def execAddi (e : Exec) (rd rs1 : Reg) (imm : W16) (s : State) :
    Host.Outcome State Fault Refusal :=
  run (Chip.pureI e (fun bay t => .ok (t.put bay rd (t.rx rs1 + sext16 imm)))) s

/-- ANDI (R100). -/
def execAndi (e : Exec) (rd rs1 : Reg) (imm : W16) (s : State) :
    Host.Outcome State Fault Refusal :=
  run (Chip.pureI e (fun bay t => .ok (t.put bay rd (t.rx rs1 &&& zext16 imm)))) s

/-- ORI (R100). -/
def execOri (e : Exec) (rd rs1 : Reg) (imm : W16) (s : State) :
    Host.Outcome State Fault Refusal :=
  run (Chip.pureI e (fun bay t => .ok (t.put bay rd (t.rx rs1 ||| zext16 imm)))) s

/-- LUI (R100). -/
def execLui (e : Exec) (rd : Reg) (imm : W16) (s : State) :
    Host.Outcome State Fault Refusal :=
  run (Chip.pureI e (fun bay t => .ok (t.put bay rd (luiOp imm)))) s

/-- FADD (R101). -/
def execFadd (e : Exec) (rd rs1 rs2 : Reg) (s : State) :
    Host.Outcome State Fault Refusal :=
  run (Chip.pureI e (Thread.alu fadd · rd rs1 rs2)) s

/-- FSUB (R101). -/
def execFsub (e : Exec) (rd rs1 rs2 : Reg) (s : State) :
    Host.Outcome State Fault Refusal :=
  run (Chip.pureI e (Thread.alu fsub · rd rs1 rs2)) s

/-- FMUL (R101). -/
def execFmul (e : Exec) (rd rs1 rs2 : Reg) (s : State) :
    Host.Outcome State Fault Refusal :=
  run (Chip.pureI e (Thread.alu fmul · rd rs1 rs2)) s

/-- FDIV (R101). -/
def execFdiv (e : Exec) (rd rs1 rs2 : Reg) (s : State) :
    Host.Outcome State Fault Refusal :=
  run (Chip.pureI e (Thread.alu fdiv · rd rs1 rs2)) s

/-- FSQRT (R101). -/
def execFsqrt (e : Exec) (rd rs1 : Reg) (s : State) :
    Host.Outcome State Fault Refusal :=
  run (Chip.pureI e (fun bay t => t.putE bay rd (fsqrt (t.rx rs1)))) s

/-- FMA (R101). -/
def execFma (e : Exec) (rd rs1 rs2 rs3 : Reg) (s : State) :
    Host.Outcome State Fault Refusal :=
  run (Chip.pureI e (fun bay t => t.putE bay rd (fma (t.rx rs1) (t.rx rs2) (t.rx rs3)))) s

/-- FCVT.I (R102). -/
def execFcvtI (e : Exec) (rm : Rounding) (rd rs1 : Reg) (s : State) :
    Host.Outcome State Fault Refusal :=
  run (Chip.pureI e (fun bay t => t.putE bay rd (fcvtI rm (t.rx rs1)))) s

/-- FCVT.F from an integer (R102). -/
def execFcvtFInt (e : Exec) (rd rs1 : Reg) (s : State) :
    Host.Outcome State Fault Refusal :=
  run (Chip.pureI e (fun bay t => .ok (t.put bay rd (f64OfInt (t.rx rs1).toInt 0)))) s

/-- FCVT.F from an accumulator (R102). -/
def execFcvtFAcc (e : Exec) (rd : Reg) (wa : WReg) (s : State) :
    Host.Outcome State Fault Refusal :=
  run (Chip.pureQ e (fun t => .ok (t.put false rd (accToF (t.rw wa))))) s

/-- FCMP (R102). -/
def execFcmp (e : Exec) (cond : FCond) (rd rs1 rs2 : Reg) (s : State) :
    Host.Outcome State Fault Refusal :=
  run (Chip.pureI e (Thread.alu (fcmp cond) · rd rs1 rs2)) s

/-- LD (R103). -/
def execLd (e : Exec) (rd rs1 : Reg) (imm : W16) (s : State) :
    Host.Outcome State Fault Refusal :=
  run (Chip.bothI e (fun k rep => Chip.qLd k rep rd rs1 imm) (Chip.bLd rd rs1 imm)) s

/-- ST (R103). -/
def execSt (e : Exec) (rs2 rs1 : Reg) (imm : W16) (s : State) :
    Host.Outcome State Fault Refusal :=
  run (Chip.bothI e (fun k rep => Chip.qSt k rep rs2 rs1 imm) (Chip.bSt rs2 rs1 imm)) s

/-- LDW (R103). -/
def execLdw (e : Exec) (wa : WReg) (rs1 : Reg) (imm : W8) (s : State) :
    Host.Outcome State Fault Refusal :=
  run (Chip.onlyQ e (fun k rep => Chip.qLdw k rep wa rs1 imm)) s

/-- STW (R103). -/
def execStw (e : Exec) (wa : WReg) (rs1 : Reg) (imm : W8) (s : State) :
    Host.Outcome State Fault Refusal :=
  run (Chip.onlyQ e (fun k rep => Chip.qStw k rep wa rs1 imm)) s

/-- TAP (R105). -/
def execTap (e : Exec) (rd rs1 : Reg) (imm : W16) (s : State) :
    Host.Outcome State Fault Refusal :=
  run (Chip.onlyQ e (fun k rep => Chip.qTap k rep false false rd rs1 imm)) s

/-- TAPC (R105). -/
def execTapc (e : Exec) (rd rs1 : Reg) (imm : W16) (s : State) :
    Host.Outcome State Fault Refusal :=
  run (Chip.onlyQ e (fun k rep => Chip.qTap k rep true false rd rs1 imm)) s

/-- TAPST (R105). -/
def execTapst (e : Exec) (rd rs1 : Reg) (imm : W16) (s : State) :
    Host.Outcome State Fault Refusal :=
  run (Chip.onlyQ e (fun k rep => Chip.qTap k rep false true rd rs1 imm)) s

/-- MACW (R107). -/
def execMacw (e : Exec) (wa : WReg) (rs1 rs2 : Reg) (neg : Bool) (s : State) :
    Host.Outcome State Fault Refusal :=
  run (Chip.pureQ e (Thread.macw wa rs1 rs2 neg)) s

/-- ADDW (R107). -/
def execAddw (e : Exec) (wa wb : WReg) (rs1 : Reg) (sel : BitVec 2) (s : State) :
    Host.Outcome State Fault Refusal :=
  run (Chip.pureQ e (Thread.addw wa wb rs1 sel)) s

/-- CLRW (R107). -/
def execClrw (e : Exec) (wa : WReg) (s : State) :
    Host.Outcome State Fault Refusal :=
  run (Chip.pureQ e (fun t => .ok (Thread.clrw wa t))) s

/-- BIN (R108). -/
def execBin (e : Exec) (wa : WReg) (rs1 : Reg) (slot : Fin 8) (keep : Bool) (s : State) :
    Host.Outcome State Fault Refusal :=
  run (Chip.onlyQ e (fun k rep => Chip.qBin k rep false wa rs1 slot keep)) s

/-- BINS (R108). -/
def execBins (e : Exec) (wa : WReg) (rs1 : Reg) (slot : Fin 8) (keep : Bool) (s : State) :
    Host.Outcome State Fault Refusal :=
  run (Chip.onlyQ e (fun k rep => Chip.qBin k rep true wa rs1 slot keep)) s

/-- SPILL (R109). -/
def execSpill (e : Exec) (wa : WReg) (rs1 : Reg) (slot : Fin 8) (keep : Bool) (s : State) :
    Host.Outcome State Fault Refusal :=
  run (Chip.onlyQ e (fun k rep => Chip.qSpill k rep wa rs1 slot keep)) s

/-- CTX (R110). -/
def execCtx (e : Exec) (rd rs1 : Reg) (sel : W16) (s : State) :
    Host.Outcome State Fault Refusal :=
  run (Chip.onlyQ e (fun k rep => Chip.qCtx k rep rd rs1 sel)) s

/-- MARK (R109). -/
def execMark (e : Exec) (rs1 rs2 : Reg) (s : State) :
    Host.Outcome State Fault Refusal :=
  run (Chip.onlyQ e (fun k rep => Chip.qMark k rep rs1 rs2)) s

/-- IF97H (R112). -/
def execIf97h (e : Exec) (rd rs1 rs2 : Reg) (pair : BitVec 5) (s : State) :
    Host.Outcome State Fault Refusal :=
  run (Chip.pureQ e (fun t => t.putE false rd (if97Op 0 pair (t.rx rs1) (t.rx rs2)))) s

/-- IF97D (R112). -/
def execIf97d (e : Exec) (rd rs1 rs2 : Reg) (pair : BitVec 5) (s : State) :
    Host.Outcome State Fault Refusal :=
  run (Chip.pureQ e (fun t => t.putE false rd (if97Op 1 pair (t.rx rs1) (t.rx rs2)))) s

/-- IF97S (R112). -/
def execIf97s (e : Exec) (rd rs1 rs2 : Reg) (pair : BitVec 5) (s : State) :
    Host.Outcome State Fault Refusal :=
  run (Chip.pureQ e (fun t => t.putE false rd (if97Op 2 pair (t.rx rs1) (t.rx rs2)))) s

/-- IF97C (R112). -/
def execIf97c (e : Exec) (rd rs1 rs2 : Reg) (pair : BitVec 5) (s : State) :
    Host.Outcome State Fault Refusal :=
  run (Chip.pureQ e (fun t => t.putE false rd (if97Op 3 pair (t.rx rs1) (t.rx rs2)))) s

/-- IF97X (R112). -/
def execIf97x (e : Exec) (rd rs1 rs2 : Reg) (pair : BitVec 5) (s : State) :
    Host.Outcome State Fault Refusal :=
  run (Chip.pureQ e (fun t => t.putE false rd (if97xOp pair (BitVec.ofNat 5 rs2.val) (t.rx rs1) (t.rx rs2)))) s

/-- AIRZ (R112). -/
def execAirz (e : Exec) (rd rs1 rs2 rs3 : Reg) (s : State) :
    Host.Outcome State Fault Refusal :=
  run (Chip.pureQ e (fun t => t.putE false rd (airOp 0 (t.rx rs1) (t.rx rs2) (t.rx rs3)))) s

/-- AIRD (R112). -/
def execAird (e : Exec) (rd rs1 rs2 rs3 : Reg) (s : State) :
    Host.Outcome State Fault Refusal :=
  run (Chip.pureQ e (fun t => t.putE false rd (airOp 1 (t.rx rs1) (t.rx rs2) (t.rx rs3)))) s

/-- GATE (R114). -/
def execGate (e : Exec) (s : State) :
    Host.Outcome State Fault Refusal :=
  run (Chip.onlyQ e (fun k rep => Chip.qGate k rep)) s

/-- FENCE (R115). -/
def execFence (e : Exec) (s : State) :
    Host.Outcome State Fault Refusal :=
  run (Chip.onlyQ e (fun k rep => Chip.qFence k rep)) s

/-- PUSHL (R111). -/
def execPushl (e : Exec) (rs1 rs2 : Reg) (tag : BitVec 6) (s : State) :
    Host.Outcome State Fault Refusal :=
  run (Chip.onlyQ e (fun k rep => Chip.qPushl k rep rs1 rs2 tag)) s

/-- PUSHR (R111). -/
def execPushr (e : Exec) (rs1 rs2 : Reg) (tag : BitVec 6) (s : State) :
    Host.Outcome State Fault Refusal :=
  run (Chip.onlyQ e (fun k rep => Chip.qPushr k rep rs1 rs2 tag)) s

/-- BEQ (R98). -/
def execBeq (e : Exec) (rs1 rs2 : Reg) (off : W16) (s : State) :
    Host.Outcome State Fault Refusal :=
  run (Chip.pureI e (fun bay t => t.branch bay (t.rx rs1 == t.rx rs2) off)) s

/-- BNE (R98). -/
def execBne (e : Exec) (rs1 rs2 : Reg) (off : W16) (s : State) :
    Host.Outcome State Fault Refusal :=
  run (Chip.pureI e (fun bay t => t.branch bay (t.rx rs1 != t.rx rs2) off)) s

/-- BLT (R98). -/
def execBlt (e : Exec) (rs1 rs2 : Reg) (off : W16) (s : State) :
    Host.Outcome State Fault Refusal :=
  run (Chip.pureI e (fun bay t => t.branch bay ((t.rx rs1).slt (t.rx rs2)) off)) s

/-- BGE (R98). -/
def execBge (e : Exec) (rs1 rs2 : Reg) (off : W16) (s : State) :
    Host.Outcome State Fault Refusal :=
  run (Chip.pureI e (fun bay t => t.branch bay (!(t.rx rs1).slt (t.rx rs2)) off)) s

/-- JAL (R98). -/
def execJal (e : Exec) (off : BitVec 26) (s : State) :
    Host.Outcome State Fault Refusal :=
  run (Chip.pureI e (fun bay t => t.jal bay off)) s

/-- JR (R98). -/
def execJr (e : Exec) (rs1 : Reg) (s : State) :
    Host.Outcome State Fault Refusal :=
  run (Chip.pureI e (fun bay t => t.jr bay rs1)) s

/-- LOOP (R99). -/
def execLoop (e : Exec) (rs1 : Reg) (k : BitVec 4) (n : BitVec 12) (s : State) :
    Host.Outcome State Fault Refusal :=
  run (Chip.pureI e (fun bay t => t.loopI bay rs1 k n)) s

/-- HALT (R96, R250). -/
def execHalt (e : Exec) (s : State) :
    Host.Outcome State Fault Refusal :=
  run (Chip.bothI e Chip.qHalt Chip.bHalt) s

/-- YIELD (R95); `cycles` is what the instant took. -/
def execYield (e : Exec) (cycles : Nat) (s : State) :
    Host.Outcome State Fault Refusal :=
  run (Chip.onlyQ e (fun k rep => Chip.qYield k rep cycles)) s

/-- TRAP (R88, R250). -/
def execTrap (e : Exec) (imm : W16) (s : State) :
    Host.Outcome State Fault Refusal :=
  run (Chip.bothI e (fun k rep => Chip.qTrap k rep imm) (Chip.bPure (fun _ => .error trTRAP))) s

/-- DRVSET (R119). -/
def execDrvset (e : Exec) (rd rs1 rs2 : Reg) (s : State) :
    Host.Outcome State Fault Refusal :=
  run (Chip.onlyS e (Chip.bDrvset rd rs1 rs2)) s

/-- DRVGET (R119). -/
def execDrvget (e : Exec) (rd rs1 : Reg) (s : State) :
    Host.Outcome State Fault Refusal :=
  run (Chip.onlyS e (Chip.bDrvget rd rs1)) s

/-- EVWAIT (R120). -/
def execEvwait (e : Exec) (rd rs1 : Reg) (s : State) :
    Host.Outcome State Fault Refusal :=
  run (Chip.onlyS e (Chip.bEvwait rd rs1)) s

/-- TMSET (R121). -/
def execTmset (e : Exec) (rd rs1 rs2 : Reg) (s : State) :
    Host.Outcome State Fault Refusal :=
  run (Chip.onlyS e (Chip.bTmset rd rs1 rs2)) s

/-- TMSET CANCEL (R121). -/
def execTmsetCancel (e : Exec) (rd rs1 : Reg) (s : State) :
    Host.Outcome State Fault Refusal :=
  run (Chip.onlyS e (Chip.bTmsetCancel rd rs1)) s

/-- SIGNAL (R122). -/
def execSignal (e : Exec) (rd rs1 rs2 : Reg) (s : State) :
    Host.Outcome State Fault Refusal :=
  run (Chip.onlyS e (Chip.bSignal rd rs1 rs2)) s

/-- PILOT (R122). -/
def execPilot (e : Exec) (rd rs1 rs2 : Reg) (s : State) :
    Host.Outcome State Fault Refusal :=
  run (Chip.onlyS e (Chip.bPilot rd rs1 rs2)) s

/-- SLIPTX (R122). -/
def execSliptx (e : Exec) (rd rs1 rs2 rs3 : Reg) (s : State) :
    Host.Outcome State Fault Refusal :=
  run (Chip.onlyS e (Chip.bSliptx rd rs1 rs2 rs3)) s

/-- SLIPRX (R122). -/
def execSliprx (e : Exec) (rd rs1 rs2 : Reg) (s : State) :
    Host.Outcome State Fault Refusal :=
  run (Chip.onlyS e (Chip.bSliprx rd rs1 rs2)) s

/-- SESSOPEN (R123). -/
def execSessopen (e : Exec) (rd rs1 rs2 : Reg) (s : State) :
    Host.Outcome State Fault Refusal :=
  run (Chip.onlyS e (Chip.bSessopen rd rs1 rs2)) s

/-- SESSCLOSE (R123). -/
def execSessclose (e : Exec) (rd rs1 rs2 : Reg) (s : State) :
    Host.Outcome State Fault Refusal :=
  run (Chip.onlyS e (Chip.bSessclose rd rs1 rs2)) s

/-- ILLEGAL_INSTRUCTION (R94): a word that is no legal word of the profile. -/
def execIllegalInstruction (e : Exec) (w : W32) (s : State) :
    Host.Outcome State Fault Refusal :=
  run (fun c =>
    if legalWord (e == .bay) w then c else Chip.pureI e (fun _ _ => .error trILLEGAL) c) s

end Sys2Proof.Machine
end

