-- ==== Sys2Proof/Machine/KeyCore.lean ====
section
/-! DEFINITION. Key slots and what makes a key usable (R336, R337, R344), the end of a session
(R355), the plate tag's reports (R330), the working key register (R338) and condemning (R345). -/

namespace Sys2Proof.Machine

open Sys2Proof

/-- Slot i. -/
def Chip.kslot (c : Chip) (i : Nat) : Slot := Tbl.get {} c.key.slots i

/-- Updates slot i. -/
def Chip.modSlot (i : Nat) (f : Slot → Slot) (c : Chip) : Chip :=
  c.modKey (fun k => { k with slots := Tbl.put {} k.slots i (f (Tbl.get {} k.slots i)) })

/-- The half in force. -/
def Slot.half (s : Slot) : Half := if s.useB then s.b else s.a

/-- Usability of a slot through its chain of parents (R344); `n` bounds the chain. -/
def Chip.usableIn (c : Chip) : Nat → Nat → Bool
  | 0, _ => false
  | n + 1, i =>
    let s := c.kslot i
    let h := s.half
    !s.empty && !s.condemned && h.cls != 0 &&
    (h.parent == 0x3F ||
      (Chip.usableIn c n h.parent.toNat && (c.kslot h.parent.toNat).half.gen == h.pgen))

/-- A key is usable (R344). -/
def Chip.slotUsable (c : Chip) (i : Nat) : Bool := c.usableIn 64 i

/-- Slots below the root on the chain of a slot, itself included (R340 item 9). -/
def Chip.slotDepth (c : Chip) : Nat → Nat → Nat
  | 0, _ => 0
  | n + 1, i =>
    let p := (c.kslot i).half.parent
    if p = 0x3F then 1 else 1 + Chip.slotDepth c n p.toNat

/-- State code of a slot: 0 EMPTY, 1 VALID, 2 CONDEMNED (KEY_SLOT_ATTR). Slot 0 has no parent and no use (R336). -/
def Chip.slotState (c : Chip) (i : Nat) : Nat :=
  if (c.kslot i).empty then 0 else if i = 0 || c.slotUsable i then 1 else 2

/-- The class of the key in a slot. -/
def Chip.slotCls (c : Chip) (i : Nat) : Nat := (c.kslot i).half.cls

/-- The 64 slots. -/
def slots64 : List Nat := List.range 64

/-- The destination bit of an engine (R338, R339): SV 0, LK 1, NX 2, SF 3, BS 4. The engines are
numbered in their order of priority: 0 SF, 1 LK, 2 BS, 3 NX, 4 SV. -/
def destBit (e : Nat) : Nat := [3, 1, 4, 2, 0].getD e 0

/-- A digest as the manual's byte string, most significant byte first. -/
def digBytes (d : BitVec 256) : List W8 := (leBytes 32 d.toNat).reverse

/-- DEVICE_ID most significant byte first. -/
def Chip.idBytes (c : Chip) : List W8 := (leBytes 8 c.sys.deviceId.toNat).reverse

/-- The ordering code (R415). -/
def Chip.orderCode (c : Chip) : List W8 := asciiPad 12 (if c.sys.te then "YX-128-TE" else "YX-128-SE")

/-- The hardware revision (R415). -/
def Chip.hwRevision (_c : Chip) : List W8 := asciiPad 2 "A2"

/-- The device root in force (R333): reconstructed by SC, or the test root while debug access is open. -/
def Chip.root (c : Chip) : List W8 :=
  if c.key.testRoot then Config.testRoot else Config.hkdf (Config.pufKey c.key.helper) Config.otpSecret []

/-- The keys of the table Root-derived keys (R334): HKDF of the root with a salt and an info. -/
def Chip.rootKey (c : Chip) (salt info : List W8) : List W8 := Config.hkdf c.root salt info

/-- The identity key (R334). -/
def Chip.identityKey (c : Chip) : List W8 := c.rootKey [] (ascii "YX IDENTITY")

/-- The key-agreement key (R334). -/
def Chip.agreeKey (c : Chip) : List W8 := c.rootKey [] (ascii "YX AGREE")

/-- The MRAM key (R334): the MRAM controller encrypts and decrypts under it, so the contents read as written. -/
def Chip.mramKey (c : Chip) : List W8 := c.rootKey [] (ascii "YX MRAM")

/-- The storage key (R334), with the KEK seed as salt. -/
def Chip.storageKey (c : Chip) : List W8 := c.rootKey (leBytes 32 c.key.kekSeed) (ascii "YX STORAGE")

/-- A half verifies under the storage key in force (R337); an overwritten KEK seed leaves none that does. -/
def Chip.halfOk (c : Chip) (h : Half) : Bool :=
  h.gen != 0 && c.key.kekSeed != 0 && h.under == (c.key.kekSeed, c.key.testRoot)

/-- The landings of a master (R35). -/
def landsOf (m : Nat) : List Nat := if m = 0 then List.range 8 else [6 + 2 * m, 7 + 2 * m]

/-- The shadow claim of group g as CFG_OWNER shows it. -/
def Chip.cfgOwner (c : Chip) (g : Nat) : Option Nat :=
  let o := Tbl.get (0 : W8) c.cfg.owner g
  if o = 0 then none else some (o.toNat - 1)

/-- Claims a group's shadow, or releases it. -/
def Chip.setOwner (g : Nat) (m : Option Nat) (c : Chip) : Chip :=
  c.modCfg (fun x => { x with owner := Tbl.put 0 x.owner g (match m with
    | some m => BitVec.ofNat 8 (m + 1)
    | none => 0) })

/-- Whether an address is a word of group g. -/
def inGroup (g a : Nat) : Bool := (cmtFind a).any (fun f => f.group == g)

/-- Shadow := live for a group, and its claim released (R38). -/
def Chip.discardShadow (g : Nat) (c : Chip) : Chip :=
  (c.modCfg (fun x => { x with shadow := x.shadow.filter (fun p => !inGroup g p.1) })).setOwner g none

/-- A session ends (R355): landings cleared, shadows discarded, claims of queues ended. -/
def Chip.endSession (m : Nat) (c : Chip) : Chip :=
  let c := each (landsOf m) (fun n c => c.modLand n (fun _ => {})) c
  let c := each (List.range 12) (fun g c => if c.cfgOwner g = some m then c.discardShadow g else c) c
  let c := each (List.range 8) (fun q c => if (c.fq q).owner = some m then c.endClaim q else c) c
  c.modMaster m (fun x => { x with role := 0, account := 0xFF, sess := x.sess + 1 })

/-- A YHP connection closes (R355). -/
def Chip.closeConn (m : Nat) (c : Chip) : Chip :=
  if m = 0 ∨ !(c.master m).conn then c
  else (c.endSession m).modMaster m (fun x => { x with conn := false })

/-- Every session ends; YHP connections close. -/
def Chip.endAllSessions (c : Chip) : Chip :=
  each [1, 2, 3, 4] Chip.closeConn (if (c.master 0).role = 0 then c else c.endSession 0)

/-- A PLATE packet (R330, R331): 1 field write, 2 session open, 3 session end. Until SV is ready the plate tag holds
it, up to 64, and those before it go first; one from an unpowered span carries SIX 0, and its field write raises
PLATE_FIELD_WRITE when it is reported. -/
def Chip.platePkt (what block count : Nat) (ver : W16) (c : Chip) : Chip :=
  let six := if c.power.off then 0 else c.now
  let p := mkPkt 0x43 0x0F
    [w32 (count * 65536 + block * 256 + what), w32 six, hi32 six, ver.zeroExtend 32]
  if c.rdy rSV && !c.power.off && c.link.plate.heldEv.isEmpty then c.fqPut 4 p
  else c.modLink (fun l => { l with plate := { l.plate with
    heldEv := if l.plate.heldEv.length < 64 then l.plate.heldEv ++ [(p, c.power.off && what == 1)]
              else l.plate.heldEv } })

/-- A session of the plate tag ends (R322): the locks are released. -/
def Chip.plateSessEnd (c : Chip) : Chip :=
  let p := c.link.plate
  let c' := c.modLink (fun l => { l with plate := { l.plate with
    auth := 0, ks := 0, ctrRx := 0, ctrTx := 0, lockFirst := 0, lockCount := 0 } })
  if p.auth = 3 then c'.platePkt 3 p.lockFirst p.lockCount 0 else c'

/-- SESSION_CLOSED (R345). -/
def Chip.sessClosed (unit : Nat) (c : Chip) : Chip := c.raise 0x1008 unit 0 0

/-- The sessions that depended on slots close (R345 step 4). -/
def Chip.closeDependants (l : List Nat) (c : Chip) : Chip :=
  let hit := fun (c : Chip) (m : Nat) =>
    let x := c.master m
    x.role != 0 && x.account != 0xFF &&
      l.contains (Tbl.get ({} : Account) c.key.accts x.account.toNat).slot.toNat
  let c := each [0, 1, 2, 3, 4] (fun m c =>
    if !hit c m then c
    else if m = 0 then (c.endSession 0).sessClosed 0
    else ((c.send m { kind := 0x90, payload := mkPkt 0x01 m [w32 stCONDEMNED.toNat, 0] }).closeConn
      m).sessClosed m) c
  let p := c.link.plate
  let c := if p.auth != 0 && l.contains (if p.authKey = 1 then p.src1 else p.src2) then
      c.plateSessEnd.sessClosed 0xFF else c
  if l.any (fun i => (c.kslot i).half.dest.getLsbD 4) && c.bay.v2gConn then
    (c.v2gAbort {}).sessClosed 0xFF else c

/-- The plate tag's keys that were derived from slots of a list are erased (R345 step 3). -/
def Chip.plateErase (l : List Nat) (c : Chip) : Chip :=
  c.modLink (fun x => { x with plate := { x.plate with
    key1 := if l.contains x.plate.src1 then none else x.plate.key1,
    key2 := if l.contains x.plate.src2 then none else x.plate.key2 } })

/-- Steps 3 to 5 of the table Condemning for the slots of a list. -/
def Chip.condemnFinish (l : List Nat) (c : Chip) : Chip :=
  let c := (c.closeDependants l).plateErase l
  let c := each l (fun i c =>
    c.modSlot i (fun s => { s with a := { s.a with mat := [] }, b := { s.b with mat := [] } })) c
  each l (fun i c => c.raise 0x1002 i 0 0) c

/-- The status of a request for a slot key (R338): DENIED for a key of an SC-only class, an EMPTY
slot or a destination not in the mask; CONDEMNED for a condemned key. -/
def Chip.kwrCheck (c : Chip) (e i : Nat) : W8 :=
  let s := c.kslot i
  let h := s.half
  if s.empty || h.cls == 0 || h.cls == 1 || h.cls == 2 || h.cls == 7 || !h.dest.getLsbD (destBit e)
  then stDENIED
  else if !c.slotUsable i then stCONDEMNED else stOK

/-- Notes the status last answered to an engine's request. -/
def Chip.kwrAnswer (e : Nat) (st : W8) (c : Chip) : Chip :=
  c.modKey (fun k => { k with kwr := { k.kwr with result := Tbl.put 0 k.kwr.result e st } })

/-- A slot of LINK_KEYSEL: 0 SLOT_PLATE2, 1 SLOT_PLATE1, 2 SLOT_CROSS, 3 SLOT_BADGE. -/
def Chip.linkSlot (c : Chip) (i : Nat) : Nat := c.cf 0xF0004 (8 * i) 6

/-- Status of a request of LK for the key of a LINK_KEYSEL slot (R320, R338). -/
def Chip.linkKey (c : Chip) (i : Nat) : W8 := c.kwrCheck 1 (c.linkSlot i)

/-- The 16 bytes of a key or random, most significant byte first. -/
def b128Bytes (k : BitVec 128) : List W8 := (leBytes 16 k.toNat).reverse

/-- A 128-bit value of 16 bytes, most significant byte first. -/
def bytes128 (l : List W8) : BitVec 128 := BitVec.ofNat 128 (ofBe l)

/-- A 32-bit number as R320 writes it, most significant byte first. -/
def be4 (n : Nat) : List W8 := (leBytes 4 n).reverse

/-- The key of a tag by R320. -/
def crossKey (m : BitVec 128) (id : List W8) (k : Nat) : BitVec 128 :=
  Config.cmac m (be4 1 ++ ascii "CROSSING KEY" ++ [0] ++ id
    ++ [BitVec.ofNat 8 k] ++ be4 128)

/-- LK's use of a LINK_KEYSEL key (R320, R338): the answer to its request, and the key while the free register holds
it for LK. The grant is released when the use ends, within the same command. -/
def Chip.linkUse (i : Nat) (c : Chip) : Option (BitVec 128) × W8 × Chip :=
  let st := if !c.rdy rKEYS then stBUSY else c.linkKey i
  if st ≠ stOK then (none, st, c.kwrAnswer 1 st)
  else if c.key.kwr.eng.isSome then (none, stPENDING, c)
  else (some (bytes128 (c.kslot (c.linkSlot i)).half.mat), stOK, c.kwrAnswer 1 stOK)

/-- SC derives plate keys 1 and 2 through the free register (R326). A slot without a usable TAGMASTER key for LK
leaves no key. -/
def Chip.plateDerive (c : Chip) : Chip :=
  let u1 := c.linkUse 1
  let u2 := u1.2.2.linkUse 0
  let key := fun (k : Nat) (m : Option (BitVec 128)) => m.map (fun x => crossKey x c.idBytes k)
  let c := u2.2.2.modLink (fun l => { l with plate := { l.plate with
    key1 := key 1 u1.1, src1 := c.linkSlot 1, key2 := key 2 u2.1, src2 := c.linkSlot 0 } })
  c.modKey (fun k => { k with kwr := { k.kwr with plate := false } })

/-- The plate tag's keys are due (R326), at each CG7 commit and at provisioning; while another engine has the working
key register the derivation waits for it. -/
def Chip.plateKeys (c : Chip) : Chip :=
  if c.key.kwr.eng.isSome then c.modKey (fun k => { k with kwr := { k.kwr with plate := true } })
  else c.plateDerive

/-- Loads the waiting request of the highest priority into the cleared KWR; one whose key has
ceased to be usable is answered instead (R338). `n` bounds the requests tried. -/
def Chip.kwrNext : Nat → Chip → Chip
  | 0, c => c
  | n + 1, c =>
    match sortBy (fun a b => decide (a.1 < b.1)) c.key.kwr.queue with
    | [] => c
    | (e, i) :: t =>
      let c' := c.modKey (fun k => { k with kwr := { k.kwr with queue := t } })
      let st := c.kwrCheck e i
      if st = stOK then
        (c'.modKey (fun k => { k with kwr := { k.kwr with eng := some e, slot := i } })).kwrAnswer e stOK
      else Chip.kwrNext n (c'.kwrAnswer e st)

/-- KWR is cleared; the next request loads. The plate tag's keys have LK's priority: only SF goes first. -/
def Chip.kwrClear (c : Chip) : Chip :=
  let c := c.modKey (fun k => { k with kwr := { k.kwr with eng := none, slot := 0, grace := false } })
  let c := c.when (c.key.kwr.plate && !c.key.kwr.queue.any (fun x => x.1 == 0)) Chip.plateDerive
  Chip.kwrNext c.key.kwr.queue.length c

/-- Condemned slots whose material still stands. -/
def Chip.condemnedOpen (c : Chip) : List Nat :=
  slots64.filter (fun i => let s := c.kslot i
    s.condemned && (!s.a.mat.isEmpty || !s.b.mat.isEmpty))

/-- The grace of an operation that runs under a condemned key is over (R345 steps 2 to 5). -/
def Chip.graceEnd (st : W8) (c : Chip) : Chip :=
  if !c.key.kwr.grace then c else
  let l := c.condemnedOpen
  let c := match c.key.kwr.eng with
    | some e => c.kwrAnswer e st
    | none => c
  c.kwrClear.condemnFinish l

/-- What follows a change of a slot (R345): dependants that have lost their parent are CONDEMNED. An
operation that runs under one of them in KWR goes on for its grace. -/
def Chip.condemn (c : Chip) : Chip :=
  let l := (slots64.drop 1).filter (fun i => let s := c.kslot i
    !s.empty && !s.condemned && !c.slotUsable i)
  if l.isEmpty then c else
  let c := each l (fun i c => c.modSlot i (fun s => { s with condemned := true })) c
  if c.key.kwr.eng.isSome && l.contains c.key.kwr.slot then
    c.modKey (fun k => { k with kwr := { k.kwr with grace := true } })
  else if c.key.kwr.grace then c
  else c.condemnFinish l

/-- SC can sign under the ledger key in slot 1 (R231). -/
def Chip.canSign (c : Chip) : Bool := c.rdy rKEYS && c.slotUsable 1

/-- A VENDOR session stands in DEPLOYED only while LSW is open (R352): it ends otherwise. -/
def Chip.vendorEnd (c : Chip) : Chip :=
  if c.key.lc = 2 ∧ ¬ c.tamper.lsw then
    each [1, 2, 3, 4] (fun m c => if (c.master m).role = 5 then c.endSession m else c) c
  else c

end Sys2Proof.Machine
end

