-- ==== Sys2Proof/Machine/Records.lean ====
section
/-! DEFINITION. Ledger records in eMMC (R230-R232), persistence and archive of events (R216-R220),
what the AO island captures (R223), the display (R227, R228), and the commands of EVT, DISP and
FERRY (10, 11). -/

namespace Sys2Proof.Machine

open Sys2Proof

/-- The bytes of a record (R230). -/
def LedgerRec.bytes (dev : W64) (r : LedgerRec) : List W8 :=
  leBytes 2 r.kind.toNat ++ leBytes 2 r.flags.toNat ++ leBytes 4 r.len ++ leBytes 8 r.seq.toNat
    ++ leBytes 8 r.six.toNat ++ leBytes 8 r.utcNs.toNat ++ leBytes 4 r.post.toNat ++ leBytes 4 0
    ++ leBytes 8 dev.toNat ++ digBytes r.prev ++ pad8 r.payload

/-- Payload of a SIGNATURE record (R230, R231): with a signature, or unsigned. -/
def sigPayload (first : W64) (gen : W32) (sig : Option (BitVec 512)) : List W8 :=
  let st := if sig.isSome then w32 stOK.toNat else Config.ledgerUnsigned
  let n := (sig.getD 0).toNat
  leBytes 8 first.toNat ++ wordBytes gen ++ wordBytes st
    ++ leBytes 32 (n / 2 ^ 256) ++ leBytes 32 (n % 2 ^ 256)

/-- Bytes of the ledger region (R232): 6 GiB. -/
def ledgerRegion : Nat := 6442450944

/-- Overwrites the oldest records until `need` bytes are free (R232): the rest, oldest first, the
bytes freed, and the newest sequence overwritten. -/
def freeOldest (need : Nat) : List LedgerRec → Nat → Option Nat → List LedgerRec × Nat × Option Nat
  | [], freed, last => ([], freed, last)
  | r :: t, freed, last =>
    if need ≤ freed then (r :: t, freed, last)
    else freeOldest need t (freed + r.len) (some r.seq.toNat)

/-- Room in the region for a record (R232): the oldest records are overwritten; where none of them
has been acknowledged the module writes LEDGER_FAULT and raises LEDGER_WRAP, once per fill. -/
def Chip.ledgerRoom (n : Nat) (c : Chip) : Chip :=
  let l := c.ledger
  if l.used + n ≤ ledgerRegion then c else
  let r := freeOldest (l.used + n - ledgerRegion) l.recs.reverse 0 none
  let c := c.modLedger (fun l => { l with recs := r.1.reverse, used := l.used - r.2.1 })
  let unacked := match r.2.2, l.acked with
    | some s, some a => decide (a < s)
    | some _, none => true
    | none, _ => false
  if unacked && !l.wrapRaised then
    ((c.modLedger (fun l => { l with wrapRaised := true })).tamperInst 25 0xFF c.now 0 []).raise
      0x0905 0xFF 0 0
  else c

/-- LEDGER_FULL at 90 % of the region (R232). -/
def Chip.ledgerFull (c : Chip) : Chip :=
  if c.ledger.used * 10 < ledgerRegion * 9 || c.ledger.fullRaised then c
  else (c.modLedger (fun l => { l with fullRaised := true })).raise 0x0904 0xFF 0 0

/-- The chain moves by one record (R230, R232). -/
def Ledger.chain (dev : W64) (r : LedgerRec) (l : Ledger) : Ledger :=
  { l with recs := r :: l.recs, used := l.used + r.len, seq := l.seq + 1,
           h := Config.sha256 (r.bytes dev) }

/-- SV appends the oldest staged record (R232). A SIGNATURE signs the PREV field of its own record;
without a usable key it is unsigned and LEDGER_UNSIGNED is raised (R231). -/
def Chip.ledgerPut (c : Chip) : Chip :=
  match c.ledger.staging with
  | [] => c
  | r :: t =>
    let l := c.ledger
    let ok := c.canSign
    let r := { r with seq := l.seq, prev := l.h }
    let sig := r.kind == 2
    let pay := sigPayload l.firstSeq l.keyGen (if ok then some (Config.sign l.keyGen.toNat l.h) else none)
    let r := if sig then { r with payload := pay } else r
    let c := (c.modLedger (fun l => { l with staging := t })).ledgerRoom r.len
    let c := c.modLedger (Ledger.chain c.sys.deviceId r)
    let c := if !sig then c
      else if ok then c.modLedger (fun l => { l with firstSeq := r.seq, lastGood := r.six.toNat })
      else c.raise 0x0903 0xFF 0 0
    c.ledgerFull

/-- Appends `n` staged records. -/
def Chip.ledgerPutN : Nat → Chip → Chip
  | 0, c => c
  | n + 1, c => Chip.ledgerPutN n c.ledgerPut

/-- Appends every record staged so far. -/
def Chip.ledgerFlush (c : Chip) : Chip := Chip.ledgerPutN c.ledger.staging.length c

/-- The entry that is persisted next (R219, R220): a closed OVERRUN entry, then reserved-class
entries in the order of SIX, then the oldest general entry. -/
def Evt.nextPersist (e : Evt) : Option EvtEntry :=
  let l := e.ring.filter (fun x => !x.persisted)
  match l.find? (fun x => x.ovr) with
  | some x => some x
  | none =>
    match sortBy (fun a b => decide (a.six < b.six)) (l.filter (fun x => x.rsv)) with
    | x :: _ => some x
    | [] => l.head?

/-- Marks the first entry equal to `x` as persisted. -/
def markPersisted (x : EvtEntry) : List EvtEntry → List EvtEntry
  | [] => []
  | y :: t => if y = x then { y with persisted := true } :: t else y :: markPersisted x t

/-- Writes an entry to the MRAM event log (R220). -/
def Evt.persist (e : Evt) : Evt :=
  match e.nextPersist with
  | none => e
  | some x => Evt.trim { e with ring := markPersisted x e.ring,
                                log := (x :: e.log).take 8192, unarch := e.unarch + 1 }

/-- The final save writes every entry not yet persisted (R208, R220). -/
def Evt.persistN : Nat → Evt → Evt
  | 0, e => e
  | n + 1, e => Evt.persistN n e.persist

/-- Counters and times of the sources go to MRAM, at most once per second (R216). -/
def Chip.countersPersist (c : Chip) : Chip :=
  let soon := match c.evt.srcAt with
    | some t => decide (c.now < t + 32000)
    | none => false
  if soon then c else c.modEvt (fun e =>
    { e with srcAt := some c.now, src := e.src.map (fun p => (p.1, if p.2.dirty then p.2.persist else p.2)) })

/-- Events held by their sources enter the ring in the order of SIX (R218). -/
def Chip.enterHeld (c : Chip) : Chip :=
  if !c.rdy rSV then c else
  let q := c.evt.heldQ
  let c := c.modEvt (fun e =>
    q.foldl (fun e x => Evt.enter x e)
      { e with heldQ := [], src := e.src.map (fun p => (p.1, { p.2 with held := 0 })) })
  let h := c.link.plate.heldEv
  let c := c.modLink (fun l => { l with plate := { l.plate with heldEv := [] } })
  (each h (fun p c => (c.fqPut 4 p.1).when p.2 (Chip.raiseHeld 0x0F04 0xFF)) c).deliver

/-- Every event code the manual defines (R215 and the chapters of the blocks). -/
def evtCodes : List Nat :=
  let span := fun (b n : Nat) => (List.range n).map (fun i => b + 1 + i)
  span 0x0000 11 ++ span 0x0300 3 ++ span 0x0400 6 ++ span 0x0500 14 ++ span 0x0600 1
    ++ span 0x0800 2 ++ span 0x0900 5 ++ span 0x0A00 2 ++ span 0x0C00 9 ++ span 0x0D00 12
    ++ span 0x0E00 8 ++ span 0x0F00 4 ++ span 0x1000 8 ++ span 0x1100 8 ++ span 0x1300 6

/-- A change of a condition the AO island captures (R223): recorded at once while a supply is
present, else kept with the AO stamp. -/
def Chip.aoChange (ty : Nat) (start : Bool) (c : Chip) : Chip :=
  if c.power.off then
    c.modTamper (fun t =>
      { t with captured := t.captured ++ [(ty, start, c.time.sixP + 320 * t.aoTicks)] })
  else if start then c.tamperStart ty 0xFF c.now else c.tamperEnd ty 0xFF c.now

/-- A switch sample: a change is stamped (R223). -/
def Chip.aoSwitch (ty : Nat) (old new : Bool) (c : Chip) : Chip :=
  if old = new then c else c.aoChange ty new

/-- A switch sampled every 10 ms (R414): a state counts once it has lasted 30 ms, which is the fourth sample
in a row. The state that counts, and the run of samples unlike it. -/
def debounce (old new : Bool) (n : Nat) : Bool × Nat :=
  if new = old then (old, 0) else if 3 ≤ n then (new, 0) else (old, n + 1)

/-- The switches as sampled (R223, R414). -/
def Chip.aoSample (cover sealOpen lsw mesh : Bool) (c : Chip) : Chip :=
  let t := c.tamper
  let c := c.modTamper (fun t =>
    { t with aoTicks := if c.power.off then t.aoTicks + 1 else t.aoTicks })
  let a := debounce t.cover cover t.coverRun
  let b := debounce t.sealOpen sealOpen t.sealRun
  let l := debounce t.lsw lsw t.lswRun
  let c := ((c.aoSwitch 0 t.cover a.1).aoSwitch 1 t.sealOpen b.1).aoSwitch 2 t.lsw l.1
  c.modTamper (fun t => { t with cover := a.1, sealOpen := b.1, lsw := l.1, mesh := mesh,
                                 coverRun := a.2, sealRun := b.2, lswRun := l.2 })

/-- MAGNETIC is held: by its record, or by the newest change captured unpowered. -/
def Chip.magHeld (c : Chip) : Bool :=
  match (c.tamper.captured.filter (fun x => x.1 == 3)).getLast? with
  | some x => x.2.1
  | none => c.tamperActive 3

/-- A magnetometer sample (R223): MAGNETIC starts above 40 mT for 2 s, which is three samples one
second apart, and ends below 30 mT for 2 s. -/
def Chip.magSampled (v : Nat) (c : Chip) : Chip :=
  let t := c.tamper
  let hi := if 400 < v then min 3 (t.magOver + 1) else 0
  let under := if v < 300 then min 3 (t.magUnder + 1) else 0
  let held := c.magHeld
  let c := c.modTamper (fun t => { t with mag := v, magOver := hi, magUnder := under })
  if !held && hi == 3 then c.aoChange 3 true
  else if held && under == 3 then c.aoChange 3 false else c

/-- TEMP_RANGE (type 17): backplate above 90 degC, or an AFE die below -40 degC. -/
def Chip.tempCheck (backplate : Int) (c : Chip) : Chip :=
  let c := c.modSys (fun s => { s with backplate := backplate })
  let out := decide (9000 < backplate) ||
    (List.range 8).any (fun k => decide ((c.group k).temp.toInt < -4000))
  if out then c.tamperStart 17 0xFF c.now else c.tamperEnd 17 0xFF c.now

/-- EVT_READ (10): archived entries from a start SIX on, oldest first. -/
def cmdEvtRead (r : CmdReq) (c : Chip) : Chip × Ans :=
  if 65535 < r.a2.toNat then (c, { st := stRANGE })
  else if (c.fq 3).owner ≠ some r.m.val then (c, { st := stLOCKED })
  else if r.a2 = 0 then (c, {})
  else c.long r.m.val 0x0901 0 (fun t c =>
    let start := r.a1.toNat * 2 ^ 32 + r.a0.toNat
    let all := c.evt.archive.reverse ++ (c.evt.log.take c.evt.unarch).reverse
    let l := (all.filter (fun x => decide (start ≤ x.six))).take r.a2.toNat
    (each l (fun x c => c.fqPut 3 x.pkt) c).complete t stOK (w32 l.length))

/-- EVT_CNT_CLR (10). -/
def cmdEvtCntClr (r : CmdReq) (c : Chip) : Chip × Ans :=
  let code := fld r.a0 0 16
  let clr : EvtSrc → EvtSrc := fun x => { held := x.held }
  if code = 0xFFFF then
    (c.modEvt (fun e => { e with src := e.src.map (fun p => (p.1, clr p.2)) }), {})
  else if evtCodes.contains code then
    (c.modEvt (fun e => { e with src := Tbl.put {} e.src code (clr (Tbl.get {} e.src code)) }), {})
  else (c, { st := stRANGE })

/-- The LEDGER packets of a record (11): parts of up to 1,022 words. -/
def Chip.ledgerPkts (c : Chip) (r : LedgerRec) : List (List W32) :=
  let w := toWords (r.bytes c.sys.deviceId)
  let ps := chunks 1022 w.length w
  ps.zipIdx.map (fun p => mkPkt 0x11 0x06 (w32 (p.2 * 65536 + ps.length) :: p.1))

/-- LEDGER_READ (10). -/
def cmdLedgerRead (r : CmdReq) (c : Chip) : Chip × Ans :=
  let start := r.a1.toNat * 2 ^ 32 + r.a0.toNat
  if 4096 < r.a2.toNat then (c, { st := stRANGE })
  else if (c.fq 1).owner ≠ some r.m.val then (c, { st := stLOCKED })
  else if r.a2 = 0 then (c, {})
  else if start < c.ledger.seq.toNat ∧ ¬ c.ledger.recs.any (fun x => x.seq.toNat == start) then
    (c, { st := stSTALE })
  else c.long r.m.val 0x0903 0 (fun t c =>
    let l := (c.ledger.recs.reverse.filter (fun x => decide (start ≤ x.seq.toNat))).take r.a2.toNat
    (each (l.flatMap c.ledgerPkts) (fun p c => c.fqPut 1 p) c).complete t stOK (w32 l.length))

/-- LEDGER_ACK (10). -/
def cmdLedgerAck (r : CmdReq) (c : Chip) : Chip × Ans :=
  let s := r.a1.toNat * 2 ^ 32 + r.a0.toNat
  if c.ledger.seq.toNat ≤ s then (c, { st := stRANGE })
  else if c.ledger.acked.any (fun a => decide (s < a)) then (c, { st := stSTALE })
  else (c.modLedger (fun l => { l with acked := some s, wrapRaised := false }), {})

/-- FERRY_TEST (11): the queue enters parity mode; the test ends with its completion. -/
def cmdFerryTest (r : CmdReq) (c : Chip) : Chip × Ans :=
  let q := fld r.a0 0 3
  let f := c.fq q
  if f.owner ≠ some r.m.val then (c, { st := stDENIED })
  else if f.held ≠ 0 ∨ f.testing then (c, { st := stBUSY })
  else c.long r.m.val 0x0A01 q (fun _ c =>
    c.modFq q (fun f => { f with testing := true }))

/-- FERRY_TEST ends: pointer mode, but while the recovery after a reset goes on (R243); the test has swapped
the banks. -/
def Chip.ferryTestEnd (q : Nat) (c : Chip) : Chip :=
  c.modFq q (fun f => { f with testing := false, parity := f.parity && !f.leaving, leaving := false })

/-- Writes held packets while they fit (R241). -/
def releaseHeld : List (List W32) → Ferry → Ferry
  | [], f => { f with holdBuf := [], stalled := false, merged := 0 }
  | p :: t, f =>
    let f := f.swap
    if f.fits p then releaseHeld t { f.push p with holdBuf := t } else { f with holdBuf := p :: t }

/-- Room has appeared in a queue (R241). -/
def Chip.holdRelease (q : Nat) (c : Chip) : Chip :=
  let f := c.fq q
  if f.testing then c
  else if f.holdBuf.isEmpty then c.when (q == 3) Chip.deliver
  else
    let g := releaseHeld f.holdBuf f
    let c := (c.modFq q (fun _ => g)).when (g.holdBuf.length != f.holdBuf.length) (Chip.hint q)
    c.when (q == 3) Chip.deliver

/-- A hold has lasted 1 s, or 10 s and the claim ends (R241). -/
def Chip.stallTime (q : Nat) (ten : Bool) (c : Chip) : Chip :=
  if (c.fq q).owner.isNone || !c.holds q || lossy q then c
  else if ten then
    ((c.endClaim q).modFq q (fun f => { f with stall := satInc f.stall })).raise 0x0A01 q (w32 q) 2
  else if (c.fq q).stalled then c
  else (c.modFq q (fun f => { f with stalled := true, stall := satInc f.stall })).raise 0x0A01 q
    (w32 q) 1

/-- The pointer copies of a queue differ (R242). -/
def Chip.ptrMismatch (q : Nat) (c : Chip) : Chip :=
  if (c.fq q).inParity then c else
  let r := (c.fq q).ptrReset q
  ((c.modFq q (fun _ => r.1)).raise 0x0A02 q 1 (w32 r.2)).holdRelease q

/-- The pages of the normal list (R227): the legal sequence, then the enabled items without ALT. -/
def Chip.normalPages (c : Chip) : Nat :=
  let vals := ((List.range 64).map (fun m => ((List.range 8).map (fun s =>
    if c.slotDef m s then (if c.slotNet m s then 1 else 2) else 0)).sum)).sum
  let items := ((List.range 64).filter (fun i =>
    c.cb (0xB0100 + 8 * i) 31 && !c.cb (0xB0100 + 8 * i) 30)).length
  (vals + 3) / 4 + 4 + items

/-- The pages of the alternate list (R228). -/
def Chip.altPages (c : Chip) : Nat :=
  ((List.range 64).filter (fun i => c.cb (0xB0100 + 8 * i) 31 && c.cb (0xB0100 + 8 * i) 30)).length

/-- The display holds its frame in START and CHANGEOVER (R229). -/
def Chip.dispHeld (c : Chip) : Bool := c.sys.starting || c.sys.changeover

/-- The next page of the list shown; after the last, the start of the normal list (R227, R228). -/
def Chip.nextPage (c : Chip) : Chip :=
  c.modDisp (fun d =>
    let p := d.page + 1
    if d.alt then (if p < c.altPages then { d with page := p } else { d with page := 0, alt := false })
    else { d with page := if p < c.normalPages then p else 0 })

/-- A short press (R228). -/
def Chip.btnShort (c : Chip) : Chip :=
  if c.dispHeld then c else c.nextPage.modDisp (fun d => { d with hold := true, backlight := true, pressAt := c.now })

/-- A long press (R228): ignored with no alternate item. -/
def Chip.btnLong (c : Chip) : Chip :=
  if c.dispHeld then c
  else if c.altPages = 0 then c.modDisp (fun d => { d with backlight := true, pressAt := c.now })
  else c.modDisp (fun d => { d with alt := true, page := 0, hold := false, backlight := true, pressAt := c.now })

/-- 60 s have passed without a press (R228). -/
def Chip.pressOld (c : Chip) : Bool := decide (c.disp.pressAt + 60 * 32000 ≤ c.now)

/-- A page's time or the 60 s hold is over, or a phase of the display test (R227, R228). -/
def Chip.pageTimer (c : Chip) : Chip :=
  if c.dispHeld then c
  else if c.disp.test = 1 then c.modDisp (fun d => { d with test := 2 })
  else if c.disp.test = 2 then c.modDisp (fun d => { d with test := 0 })
  else
  let c := c.modDisp (fun d =>
    { d with backlight := d.backlight && !(c.cb 0xB0000 31 && (c.disp.hold || c.pressOld)) })
  if c.disp.hold then
    c.modDisp (fun d => { d with hold := false, alt := false, page := if d.alt then 0 else d.page })
  else if c.disp.alt && c.pressOld then c.modDisp (fun d => { d with alt := false, page := 0 })
  else c.nextPage

/-- DISP_TEST (10). -/
def cmdDispTest (_r : CmdReq) (c : Chip) : Chip × Ans :=
  (c.modDisp (fun d => { d with test := 1 }), {})

end Sys2Proof.Machine
end

