-- ==== Sys2Proof/Machine/Keys.lean ====
section
/-! DEFINITION. Keys, life cycle and sessions (16): logins, key messages, replacement, derivation,
invalidation, life-cycle changes, class-A tamper. -/

namespace Sys2Proof.Machine

open Sys2Proof

/-- Life-cycle states (KEY_LC.STATE). -/
def lcMANUFACTURE : BitVec 3 := 0
def lcPROVISIONED : BitVec 3 := 1
def lcDEPLOYED : BitVec 3 := 2
def lcSERVICEDEBUG : BitVec 3 := 3
def lcRETIRED : BitVec 3 := 4

/-- Material bytes of a key type (R336). -/
def typeLen (t : Nat) : Nat := [0, 16, 32, 32, 32, 64, 48].getD t 0

/-- The types a class allows (R336). -/
def classTypes (cls : Nat) : List Nat :=
  [[], [2, 5], [4], [1, 2, 4], [1], [5], [3], [3, 5, 6]].getD cls []

/-- The destinations a class allows (R336), as a mask of DEST. -/
def classDest (cls : Nat) : Nat := [0, 0, 0, 0x14, 0x02, 0x10, 0x08, 0].getD cls 0

/-- Class, type and destinations break no table of R336. -/
def keyFits (cls typ dest : Nat) : Bool :=
  (classTypes cls).contains typ && (dest &&& classDest cls) == dest

/-- The bytes of KEY_BUF of a master. -/
def Chip.keyBufBytes (c : Chip) (m : Nat) : List W8 :=
  (List.range 16).flatMap (fun w => wordBytes (Tbl.get 0 (c.master m).keyBuf w))

/-- An account. -/
def Chip.acct (c : Chip) (a : Nat) : Account := Tbl.get {} c.key.accts a

/-- Updates an account. -/
def Chip.modAcct (a : Nat) (f : Account → Account) (c : Chip) : Chip :=
  c.modKey (fun k => { k with accts := Tbl.put {} k.accts a (f (Tbl.get {} k.accts a)) })

/-- The counter an attempt against an account is counted under: unknown and disabled accounts share
entry 16 (R354). -/
def Chip.failIx (c : Chip) (a : Nat) : Nat := if (c.acct a).en then a else 16

/-- Seconds of lockout left for a counter. -/
def Chip.lockLeft (c : Chip) (i : Nat) : Nat := ((c.acct i).lockTo - c.now + 31999) / 32000

/-- An authentication failure against account a (R354). -/
def Chip.authFail (a : Nat) (c : Chip) : Chip :=
  let i := c.failIx a
  let x := c.acct i
  let n := x.fails + 1
  let len := if x.lockLen ≠ 0 then min 3600 (2 * x.lockLen) else if 5 ≤ n then 60 else 0
  let c := (c.modAcct i (fun x => { x with fails := min n 15 })).raise 0x1004 a 0 0
  if len = 0 then c else
  let c := c.modAcct i (fun x => { x with lockLen := len, lockTo := c.now + 32000 * len })
  (c.tamperInst 16 0xFF c.now 0 []).raise 0x1005 a 0 0

/-- An authentication succeeds: a new session with the account's role (R353, R354, R355). -/
def Chip.openSession (m a : Nat) (role : BitVec 3) (c : Chip) : Chip :=
  ((c.endSession m).modMaster m (fun x => { x with role := role, account := BitVec.ofNat 8 a })).modAcct
    a (fun x => { x with fails := 0, lockLen := 0, lockTo := 0 })

/-- KEY_CHALLENGE (R353). -/
def cmdKeyChallenge (r : CmdReq) (c : Chip) : Chip × Ans :=
  let d := c.draw128
  (d.2.modMaster r.m.val (fun x => { x with nonce := d.1, nonceOk := true, nonceSix := d.2.now }), {})

/-- The HMAC a master has to present (R353). -/
def Chip.loginMac (c : Chip) (m a : Nat) : BitVec 256 :=
  Config.hmac (c.kslot (c.acct a).slot.toNat).half.mat
    (leBytes 16 (c.master m).nonce.toNat ++ c.idBytes ++ [BitVec.ofNat 8 a, BitVec.ofNat 8 m])

/-- The slot of an account holds a usable key of class HOSTAUTH and a type: OK, CONDEMNED or
AUTH_FAIL. -/
def Chip.acctKey (c : Chip) (a typ : Nat) : W8 :=
  let i := (c.acct a).slot.toNat
  if c.slotState i = 2 then stCONDEMNED
  else if c.slotUsable i && c.slotCls i == 7 && (c.kslot i).half.typ == typ then stOK else stAUTH

/-- A long key operation that SC works on until its completion, with what KEY_BUF holds. -/
def Chip.keyWork (r : CmdReq) (code i : Nat) (c : Chip) : Chip × Ans :=
  c.long r.m.val code i (fun t c => c.modKey (fun k =>
    { k with pending := k.pending ++
        [{ ticket := t, a1 := r.a1, a2 := r.a2, a3 := r.a3, buf := c.keyBufBytes r.m.val }] }))

/-- A login by HMAC (R353). -/
def Chip.hmacLogin (m a : Nat) (c : Chip) : Chip × Ans :=
  let x := c.master m
  let fresh := x.nonceOk && decide (c.now ≤ x.nonceSix + 320000)
  let c := c.modMaster m (fun x => { x with nonceOk := false })
  if !fresh then (c, { st := stSTALE })
  else if c.acctKey a 3 = stCONDEMNED then (c, { st := stCONDEMNED })
  else if c.acctKey a 3 = stOK ∧ digBytes (c.loginMac m a) = (c.keyBufBytes m).take 32 then
    (c.openSession m a (c.acct a).role, {})
  else (c.authFail a, { st := stAUTH })

/-- Whether a password matches a type-6 verifier (R336, R353). -/
def Chip.passOk (c : Chip) (a : Nat) (pw : List W8) : Bool :=
  let mat := (c.kslot (c.acct a).slot.toNat).half.mat
  c.acctKey a 6 == stOK && digBytes (Config.pbkdf2 (mat.take 16) pw) == mat.drop 16

/-- The length check of a password (KEY_LOGIN, KEY_PASSWD). -/
def passLen (n : Nat) : Option W8 :=
  if n = 0 then some stLENGTH else if n < 12 ∨ 64 < n then some stRANGE else none

/-- KEY_LOGIN (R353, R354). A lockout answers first; an unknown or disabled account fails as a wrong
secret does; an account of method 2 has no login. -/
def cmdKeyLogin (r : CmdReq) (c : Chip) : Chip × Ans :=
  let m := r.m.val
  let a := fld r.a0 0 4
  let c := c.modMaster m (fun x => { x with tried := some (BitVec.ofNat 4 a) })
  let x := c.acct a
  if c.now < (c.acct (c.failIx a)).lockTo then (c, { st := stLOCKED })
  else if !x.en then (c.authFail a, { st := stAUTH })
  else if x.method = 1 then c.hmacLogin m a
  else if x.method = 0 then
    if m = 0 then (c, { st := stDENIED })
    else match passLen r.a1.toNat with
      | some st => (c, { st := st })
      | none =>
        if c.acctKey a 6 = stCONDEMNED then (c, { st := stCONDEMNED })
        else c.keyWork r 0x1002 a
  else (c, { st := stDENIED })

/-- KEY_LOGOUT (R355). -/
def cmdKeyLogout (r : CmdReq) (c : Chip) : Chip × Ans := (c.endSession r.m.val, {})

/-- The secret in a slot has changed: the sessions other masters hold under accounts of that slot
end (R355). -/
def Chip.secretChanged (m i : Nat) (c : Chip) : Chip :=
  each [0, 1, 2, 3, 4] (fun n c =>
    let x := c.master n
    if n ≠ m ∧ x.role ≠ 0 ∧ x.account ≠ 0xFF ∧ (c.acct x.account.toNat).slot.toNat = i ∧ 2 ≤ i then
      c.endSession n else c) c

/-- The two-half commit of R337: the inactive half is written, tagged under the storage key, and taken into force. -/
def Chip.commitHalf (i : Nat) (h : Half) (c : Chip) : Chip :=
  let h := { h with under := (c.key.kekSeed, c.key.testRoot) }
  c.modSlot i (fun s =>
    let s := { s with useB := !s.useB, empty := false, condemned := false,
                      lastGen := if s.lastGen.toNat < h.gen.toNat then h.gen else s.lastGen }
    if s.useB then { s with b := h } else { s with a := h })

/-- A slot is emptied; its highest generation is remembered. -/
def Chip.emptySlot (i : Nat) (c : Chip) : Chip :=
  c.modSlot i (fun s => { s with a := {}, b := {}, useB := false, empty := true, condemned := false })

/-- Steps 6 and 7 of the table Key update: dependants, the KEY_CHANGE record, KEY_UPDATED. -/
def Chip.keyChanged (i : Nat) (c : Chip) : Chip :=
  let c := c.condemn.modSlot i (fun s => { s with recGen := s.lastGen })
  (c.tamperInst 15 0xFF c.now 0 []).raise 0x1001 i 0 0

/-- A long key operation whose outcome is fixed and is reported with its completion. -/
def Chip.keyLong (r : CmdReq) (code i : Nat) (st : W8) (result : W32) (c : Chip)
    (f : Chip → Chip) : Chip × Ans :=
  c.long r.m.val code i (fun t c =>
    (if st = stOK then f c else c).modKey (fun k =>
      { k with pending := k.pending ++ [{ ticket := t, st := st, res := result }] }))

/-- What stands against a new password of n bytes for account a (R353, R355). -/
def Chip.passwdBad (c : Chip) (a : Nat) (pw : List W8) : Bool :=
  let x := c.acct a
  !x.en || x.method != 0 || decide (x.slot.toNat < 2)
    || pw.any (fun b => decide (b.toNat < 0x20) || decide (0x7E < b.toNat))

/-- A password of an account takes effect (R355): the new verifier is written by the two-half commit. -/
def Chip.passwdRun (m a : Nat) (pw : List W8) (c : Chip) : Chip × W8 × W32 :=
  if c.passwdBad a pw then (c, stRANGE, 0) else
  let i := (c.acct a).slot.toNat
  let d := c.draw128
  let salt := leBytes 16 d.1.toNat
  let h : Half := { gen := (d.2.kslot i).lastGen + 1, cls := 7, typ := 6,
                    mat := salt ++ digBytes (Config.pbkdf2 salt pw) }
  (((d.2.commitHalf i h).condemn).secretChanged m i, stOK, 0)

/-- The account whose password a session may change (R355): its own; ADMIN and VENDOR also those of READER,
OPERATOR and ADMIN, METROLOGIST those of METROLOGIST. -/
def Chip.mayPasswd (c : Chip) (r : CmdReq) : Bool :=
  let a := fld r.a0 0 4
  let x := c.acct a
  let me := c.master r.m.val
  let role := me.role.toNat
  me.account.toNat == a || ((role == roleADMIN || role == roleVENDOR) && x.role != 4)
    || (role == roleMETROLOGIST && x.role == 4)

/-- KEY_PASSWD (R355). -/
def cmdKeyPasswd (r : CmdReq) (c : Chip) : Chip × Ans :=
  let m := r.m.val
  let a := fld r.a0 0 4
  match passLen r.a1.toNat with
  | some st => (c, { st := st })
  | none =>
    if c.passwdBad a ((c.keyBufBytes m).take r.a1.toNat) then (c, { st := stRANGE })
    else c.keyWork r 0x1004 a

/-- The role KEY_ACCT_SET needs: METROLOGIST for a METROLOGIST account, else ADMIN. -/
def Chip.mayAcctSet (c : Chip) (r : CmdReq) : Bool :=
  let x := c.acct (fld r.a0 0 4)
  let mine := (c.master r.m.val).role.toNat
  let adm := mine == roleADMIN || mine == roleVENDOR
  if fld r.a1 28 3 = 4 then mine == roleMETROLOGIST && (!x.en || x.role == 4)
  else adm && (!x.en || x.role != 4)

/-- KEY_ACCT_SET (R353). The verifier slot of a password account may still be EMPTY, because only
KEY_PASSWD writes it (log 115); one that is CONDEMNED answers so (R345). -/
def cmdKeyAcctSet (r : CmdReq) (c : Chip) : Chip × Ans :=
  let m := r.m.val
  let a := fld r.a0 0 4
  let x := c.acct a
  let en := r.a1.getLsbD 31
  let role := fld r.a1 28 3
  let method := fld r.a1 26 2
  let i := fld r.a1 20 6
  let typ := [6, 3, 5].getD method 0
  let fits := c.slotUsable i && c.slotCls i == 7 && (c.kslot i).half.typ == typ
  if en && (role == 0 || decide (4 < role) || method == 3 || decide (i < 2)) then (c, { st := stRANGE })
  else if en && c.slotState i == 2 then (c, { st := stCONDEMNED })
  else if en && !(fits || (method == 0 && (c.kslot i).empty)) then (c, { st := stRANGE })
  else
    let y := { x with en := en, role := BitVec.ofNat 3 role, method := BitVec.ofNat 2 method,
                      slot := BitVec.ofNat 6 i }
    let c := c.modAcct a (fun _ => y)
    let changed := x.slot != y.slot || x.method != y.method
    (each [0, 1, 2, 3, 4] (fun n c =>
      let z := c.master n
      if z.role != 0 && z.account.toNat == a && (!en || (changed && n != m)) then c.endSession n
      else c) c, {})

/-- The parents of a key with parent `p`, nearest first, down to the root. -/
def Chip.chainOf (c : Chip) : Nat → BitVec 6 → List Nat
  | 0, _ => []
  | n + 1, p => if p = 0x3F then [] else p.toNat :: Chip.chainOf c n (c.kslot p.toNat).half.parent

/-- The key of a key message (R339). -/
def Chip.msgKey (c : Chip) (b : List W8) : List W8 :=
  Config.hkdf (Config.agree c.agreeKey (slice b 0x20 64)) c.idBytes (ascii "YX KEYMSG" ++ slice b 0x10 4)

/-- A big-endian signature r then s. -/
def sigOf (b : List W8) : BitVec 512 := BitVec.ofNat 512 (ofBe b)

/-- A signature verifies under the UPDATE-class public key whose material a slot holds. -/
def Chip.slotSigOk (c : Chip) (slot : Nat) (data sig : List W8) : Bool :=
  let h := (c.kslot slot).half
  !(c.kslot slot).empty && h.cls == 1 && h.typ == 5 && h.mat.length == 64
    && Config.verify h.mat (Config.sha256 data) (sigOf sig)

/-- A signature verifies under the vendor authority key in OTP. -/
def vendorSigOk (data sig : List W8) : Bool := Config.verify [] (Config.sha256 data) (sigOf sig)

/-- A signature over bytes by the key an AUTH_SLOT names (R340 item 7, R345 step 1): 0x3F is the vendor authority
key, else a slot. -/
def Chip.sigCheck (c : Chip) (auth : Nat) (data sig : List W8) : W8 :=
  if auth = 0x3F then (if vendorSigOk data sig then stOK else stAUTH)
  else if c.slotState auth = 2 then stCONDEMNED
  else if c.slotSigOk auth data sig then stOK else stAUTH

/-- The RANGE checks of a key message (R340 item 9). -/
def Chip.msgRange (c : Chip) (b : List W8) : Bool :=
  let i := leAt b 0x14 1
  let cls := leAt b 0x15 1
  let typ := leAt b 0x16 1
  let par := leAt b 0x17 1
  let dest := leAt b 0x1C 1
  let fl := leAt b 0x1E 1
  let m := if fl % 2 = 1 then 0 else typeLen typ
  let chain := c.chainOf 64 (BitVec.ofNat 6 par)
  decide (i < 2) || decide (63 < i) || cls == 0 || cls == 2 || typ == 6 || !keyFits cls typ (dest % 32)
    || decide (32 ≤ dest) || decide (4 ≤ fl) || leAt b 0x1F 1 != 0
    || leAt b 0x06 2 != 0xB0 + m || b.length != 0xB0 + m
    || (par != 0x3F && (decide (par < 2) || decide (63 < par) || chain.contains i
        || decide (4 < chain.length + 1)))

/-- The checks of R340 from LENGTH_ZERO on, with the material when they pass. AUTH_SLOT 0x3F is of a VENDOR session
alone (R352). -/
def Chip.msgCheck (c : Chip) (role : Nat) (b : List W8) : W8 × List W8 :=
  let i := leAt b 0x14 1
  let auth := leAt b 0x1D 1
  let par := leAt b 0x17 1
  let n := b.length
  let sig := c.sigCheck auth (b.take (n - 64)) (b.drop (n - 64))
  let pt := Config.gcmOpen (c.msgKey b) (slice b 0x10 4 ++ slice b 0x14 1 ++ List.replicate 7 0)
    (b.take 0x60) (slice b 0x60 (n - 0xA0))
  if n = 0 then (stLENGTH, [])
  else if leAt b 0 4 ≠ 0x47534D4B ∨ leAt b 4 2 ≠ 1 then (stVERSION, [])
  else if leAt b 8 8 ≠ c.sys.deviceId.toNat then (stDENIED, [])
  else if auth = 0x3F ∧ (role ≠ roleVENDOR ∨ (c.key.lc ≠ lcPROVISIONED ∧ c.key.lc ≠ lcSERVICEDEBUG)) then
    (stDENIED, [])
  else if sig ≠ stOK then (sig, [])
  else if leAt b 0x10 4 ≤ c.key.ctr.toNat ∨ leAt b 0x18 4 ≤ (c.kslot i).lastGen.toNat then (stSTALE, [])
  else if c.msgRange b then (stRANGE, [])
  else if par ≠ 0x3F ∧ !c.slotUsable par then (stCONDEMNED, [])
  else match pt with
    | none => (stAUTH, [])
    | some p => (stOK, p)

/-- An accepted key message takes effect (R341). -/
def Chip.msgApply (m : Nat) (b mat : List W8) (c : Chip) : Chip :=
  let i := leAt b 0x14 1
  let par : BitVec 6 := BitVec.ofNat 6 (leAt b 0x17 1)
  let fl := leAt b 0x1E 1
  let ctr := w32 (leAt b 0x10 4)
  let gen := w32 (leAt b 0x18 4)
  let h : Half :=
    { gen := gen, cls := leAt b 0x15 1, typ := leAt b 0x16 1, dest := BitVec.ofNat 5 (leAt b 0x1C 1),
      compat := fl / 2 % 2 == 1, parent := par,
      pgen := if par = 0x3F then 0 else (c.kslot par.toNat).half.gen, ctr := ctr, mat := mat }
  let c := if fl % 2 = 1 then (c.emptySlot i).modSlot i (fun s => { s with lastGen := gen })
           else c.commitHalf i h
  ((c.modKey (fun k => { k with ctr := ctr })).keyChanged i).secretChanged m i

/-- KEY_UPDATE (R340, R341). The message is consumed. -/
def cmdKeyUpdate (r : CmdReq) (c : Chip) : Chip × Ans :=
  let t := fld r.a0 0 16
  match c.upd.stagings.find? (fun x => x.ticket.toNat == t && x.kind == 4 && x.done) with
  | none => c.keyLong r 0x1006 0 stSTALE 0 id
  | some x =>
    let k := c.msgCheck (c.master r.m.val).role.toNat x.got
    c.keyLong r 0x1006 (leAt x.got 0x14 1) k.1 (if k.1 = stOK then w32 (leAt x.got 0x18 4) else 0)
      (fun c => (c.modUpd (fun u => { u with stagings := u.stagings.filter (fun y => y.ticket != x.ticket) })).msgApply
        r.m.val x.got k.2)

/-- The length that KEY_REPLACE takes for a key type (R343): the wrapped key and the check value. -/
def wrapLen (typ : Nat) : Nat := if typ = 1 then 24 else 40

/-- The checks of KEY_REPLACE that need no material (R343). -/
def Chip.replaceBad (c : Chip) (i n : Nat) : W8 :=
  let s := c.kslot i
  let h := s.half
  if n = 0 then stLENGTH
  else if s.empty || !h.compat || !(h.typ == 1 || h.typ == 2) || n != wrapLen h.typ + 4 then stRANGE
  else if !c.slotUsable i then stCONDEMNED
  else stOK

/-- SC unwraps and checks a replacement key and commits it (R343). -/
def Chip.replaceRun (m i n : Nat) (b : List W8) (c : Chip) : Chip × W8 × W32 :=
  let h := (c.kslot i).half
  let w := wrapLen h.typ
  if c.replaceBad i n ≠ stOK then (c, c.replaceBad i n, 0)
  else match Config.unwrap h.mat (b.take w) with
    | none => (c, stAUTH, 0)
    | some k =>
      if Config.kcv k ≠ slice b w 4 then (c, stINTEGRITY, 0)
      else (((c.commitHalf i { h with gen := h.gen + 1, mat := k }).keyChanged i).secretChanged m i,
            stOK, h.gen + 1)

/-- KEY_REPLACE (R343). -/
def cmdKeyReplace (r : CmdReq) (c : Chip) : Chip × Ans :=
  let i := fld r.a0 0 6
  let st := c.replaceBad i r.a1.toNat
  if st ≠ stOK then (c, { st := st }) else c.keyWork r 0x1007 i

/-- KEY_INVALIDATE (R345). -/
def cmdKeyInvalidate (r : CmdReq) (c : Chip) : Chip × Ans :=
  let i := fld r.a0 0 6
  if i < 2 then (c, { st := stRANGE })
  else if (c.kslot i).empty then (c, { st := stSTALE })
  else if !c.slotUsable i then (c, { st := stCONDEMNED })
  else (((c.emptySlot i).condemn).secretChanged r.m.val i, {})

/-- The checks of KEY_DERIVE (R346): child, parent, info length, type and destinations. -/
def Chip.deriveBad (c : Chip) (i p n typ dest : Nat) : W8 :=
  let ph := (c.kslot p).half
  if n = 0 then stLENGTH
  else if 64 < n ∨ i < 2 ∨ p < 2 ∨ i = p ∨ c.slotState i = 1 ∨ (c.kslot p).empty then stRANGE
  else if !c.slotUsable p then stCONDEMNED
  else if !([1, 2, 3].contains ph.typ && [1, 2, 3].contains typ && keyFits ph.cls typ dest
      && (dest &&& ph.dest.toNat) == dest) || p == 0x3F then stRANGE
  else stOK

/-- SC derives a child key and commits it (R346). -/
def Chip.deriveRun (i p n typ dest : Nat) (b : List W8) (c : Chip) : Chip × W8 × W32 :=
  let ph := (c.kslot p).half
  let st := c.deriveBad i p n typ dest
  if st ≠ stOK then (c, st, 0) else
  let h : Half :=
    { gen := (c.kslot i).lastGen + 1, cls := ph.cls, typ := typ, dest := BitVec.ofNat 5 dest,
      parent := BitVec.ofNat 6 p, pgen := ph.gen,
      mat := (Config.hkdf ph.mat c.idBytes (b.take n)).take (typeLen typ) }
  ((c.commitHalf i h).condemn, stOK, 0)

/-- KEY_DERIVE (R346). -/
def cmdKeyDerive (r : CmdReq) (c : Chip) : Chip × Ans :=
  let i := fld r.a0 0 6
  let st := c.deriveBad i (fld r.a1 0 6) r.a2.toNat (fld r.a3 28 4) (fld r.a3 0 5)
  if st ≠ stOK then (c, { st := st }) else c.keyWork r 0x1009 i

/-- The slots whose key is of a class in a list. -/
def Chip.slotsOf (c : Chip) (cls : List Nat) : List Nat :=
  slots64.filter (fun i => !(c.kslot i).empty && cls.contains (c.slotCls i))

/-- Destroys the keys of a list of slots, with KWR cleared and condemning (R347 item 3). -/
def Chip.destroySlots (l : List Nat) (c : Chip) : Chip :=
  let c := c.closeDependants l
  let c := each l (fun i c => c.emptySlot i) c
  let c := c.modKey (fun k => { k with kwr := { k.kwr with eng := none, slot := 0, grace := false } })
  (c.condemn).kwrClear

/-- SC generates the ledger key in slot 1 (R336). -/
def Chip.newLedgerKey (gen : W32) (c : Chip) : Chip :=
  let d := c.draw128
  let d2 := d.2.draw128
  (d2.2.commitHalf 1
    { gen := gen, cls := 2, typ := 4, mat := leBytes 16 d.1.toNat ++ leBytes 16 d2.1.toNat }).modLedger
      (fun l => { l with keyGen := gen })

/-- Slot 0 takes the check value of the storage key in force (R336). -/
def Chip.storageCheck (c : Chip) : Chip :=
  c.commitHalf 0 { gen := (c.kslot 0).lastGen + 1, mat := Config.kcv c.storageKey }

/-- A fresh KEK seed: one more generation of it. -/
def Chip.newKek (c : Chip) : Chip :=
  let d := c.draw
  (d.2.modKey (fun k => { k with kekSeed := d.1.toNat + 1 })).storageCheck

/-- Old and new state of a LIFECYCLE record, with 6 reserved bytes (R335). -/
def lcHead (old new : BitVec 3) : List W8 :=
  [BitVec.ofNat 8 old.toNat, BitVec.ofNat 8 new.toNat] ++ List.replicate 6 0

/-- Items 1 and 2 of R347: the LIFECYCLE tamper and ledger records. -/
def Chip.lcRecords (old new : BitVec 3) (c : Chip) : Chip :=
  (c.tamperInst 22 0xFF c.now 0 []).stage 0xF 0 c.now (lcHead old new)

/-- RETIRED stops metrology at its stamp (R376): the engines meter up to it, and one that is stopped unloads.
Sessions close at once, before the ledger does (R182, R231; log 158). -/
def Chip.stopMetrology (c : Chip) : Chip :=
  let c := c.closeSessions 0x12
  let c := each c.openSessions (fun m c => c.sessionEnd m) c
  let c := each (engs8.filter (fun k => (c.eng k).run = ruHALTED || (c.eng k).run = ruFAILED)) (fun k c =>
    (c.stopEngine k ruUNLOADED).modEng k (fun q => { q with img := none })) c
  let c := c.modSys (fun s => { s with stopAt := some (up8 c.now) })
  each engs8 Chip.metrologyEnd c

/-- A row of the table Life-cycle changes: who makes it (VENDOR or ADMIN), whether LSW must be open. -/
def lcRow (f t : BitVec 3) : Option (Bool × Bool) :=
  if f = lcMANUFACTURE ∧ t = lcPROVISIONED then some (true, false)
  else if f = lcPROVISIONED ∧ t = lcDEPLOYED then some (false, false)
  else if f = lcDEPLOYED ∧ t = lcPROVISIONED then some (false, true)
  else if (f = lcPROVISIONED ∨ f = lcDEPLOYED) ∧ t = lcSERVICEDEBUG then some (true, true)
  else if f = lcSERVICEDEBUG ∧ t = lcPROVISIONED then some (true, false)
  else if f ≠ lcRETIRED ∧ t = lcRETIRED then some (false, true)
  else none

/-- Whether DEPLOYED may be entered (R347): an enabled ADMIN account, an UPDATE public key and a
usable ledger key. -/
def Chip.mayDeploy (c : Chip) : Bool :=
  (List.range 16).any (fun a => (c.acct a).en && (c.acct a).role == 3) &&
  (slots64.drop 2).any (fun i => c.slotUsable i && c.slotCls i == 1 && (c.kslot i).half.typ == 5) &&
  c.slotUsable 1

/-- 64 bytes of a public key or a signature, most significant byte first. -/
def b512Bytes (n : BitVec 512) : List W8 := (leBytes 64 n.toNat).reverse

/-- DEVICE_ID as 16 upper-case hexadecimal digits (R335). -/
def Chip.idHex (c : Chip) : List W8 :=
  (List.range 16).map (fun i =>
    let n := fld c.sys.deviceId (60 - 4 * i) 4
    BitVec.ofNat 8 (if n < 10 then 0x30 + n else 0x37 + n))

/-- The device certificate under the root in force (R335): self-signed with the unit TEST under the test root. -/
def Chip.deviceCert (c : Chip) : List W8 :=
  Config.certDer c.idHex (if c.key.testRoot then ascii "TEST" else []) (Config.pubKey c.identityKey) c.key.testRoot

/-- The ledger key block (R335) of a key generation under the root in force. -/
def Chip.keyBlock (c : Chip) (gen : W32) : List W8 :=
  let cert := c.deviceCert
  let body := wordBytes gen ++ b512Bytes (Config.ledgerPub gen.toNat) ++ b512Bytes (Config.pubKey c.agreeKey)
  leBytes 2 cert.length ++ [0, 0] ++ body ++ b512Bytes (Config.ecdsa c.identityKey (Config.sha256 (body ++ c.idBytes)))
    ++ cert ++ List.replicate ((8 - cert.length % 8) % 8) 0

/-- Item 4 of R347: the LIFECYCLE record that introduces the new ledger key. -/
def Chip.lcKeyRecord (old new : BitVec 3) (gen : W32) (c : Chip) : Chip :=
  c.stage 0xF 0 c.now (lcHead old new ++ c.keyBlock gen)

/-- A life-cycle change (R347): items 1 to 4 in their order. -/
def Chip.lcChange (t : BitVec 3) (c : Chip) : Chip :=
  let f := c.key.lc
  let every := c.slotsOf [0, 1, 2, 3, 4, 5, 6, 7]
  let c := c.when (t == lcRETIRED) Chip.stopMetrology
  -- items 1 and 2
  let c := c.lcRecords f t
  let c := c.when (c.canSign || t == lcRETIRED) (Chip.signBehind 0xF c.now)
  let c := c.ledgerFlush
  let c := (c.modKey (fun k => { k with lc := t })).raise 0x1006 0xFF (w32 f.toNat) (w32 t.toNat)
  if t = lcDEPLOYED then
    ((c.modKey (fun k => { k with zeroised := false })).modSys
      (fun s => { s with qcause := s.qcause &&& 0xB })).vendorEnd
  else if t = lcRETIRED then
    let c := (c.destroySlots every).modLedger (fun l => { l with closed := true })
    let c := c.modKey (fun k =>
      { k with kekSeed := 0, idKey := false, zeroPend := false, debug := false, testRoot := false })
    let c := c.plateSessEnd.modLink (fun l => { l with plate := { l.plate with key1 := none, key2 := none },
                                                       field := false })
    c.endAllSessions
  else if f = lcDEPLOYED ∧ t = lcPROVISIONED then (c.destroySlots (c.slotsOf [3, 4, 5, 6, 7])).plateKeys
  else
    -- every class, the ledger key among them
    let gen : W32 := if f = lcMANUFACTURE then 1 else c.ledger.keyGen + 1
    let c := c.destroySlots every
    let debug := t == lcSERVICEDEBUG
    let c := c.modKey (fun k =>
      { k with debug := debug, testRoot := debug, helper := if f = lcMANUFACTURE then k.helper + 1 else k.helper })
    let c := if t = lcPROVISIONED then c.newKek else c.storageCheck
    let c := (c.newLedgerKey gen).when (t == lcPROVISIONED) Chip.plateKeys
    if f = lcMANUFACTURE then c.stage 1 0 c.now (c.keyBlock gen)
    else (c.when debug (Chip.tamperInst 26 0xFF c.now 0 [])).lcKeyRecord f t gen

/-- The role that makes a life-cycle change (R347): VENDOR, or ADMIN too where the table names it. -/
def Chip.mayLcSet (c : Chip) (r : CmdReq) : Bool :=
  let n := fld r.a0 0 4
  match (if 4 < n then none else lcRow c.key.lc (BitVec.ofNat 3 n)) with
  | none => true
  | some (vendor, _) => (c.master r.m.val).role.toNat == roleVENDOR
      || (!vendor && (c.master r.m.val).role.toNat == roleADMIN)

/-- KEY_LC_SET (R347). -/
def cmdKeyLcSet (r : CmdReq) (c : Chip) : Chip × Ans :=
  let n := fld r.a0 0 4
  let t : BitVec 3 := BitVec.ofNat 3 n
  match (if 4 < n then none else lcRow c.key.lc t) with
  | none => (c, { st := stRANGE })
  | some (_, lsw) =>
    if r.a1.toNat ≠ c.sys.deviceId.toNat % 2 ^ 32 then (c, { st := stRANGE })
    else if lsw ∧ ¬ c.tamper.lsw then (c, { st := stSEAL })
    else if t = lcDEPLOYED ∧ ¬ c.mayDeploy then (c, { st := stRANGE })
    else c.keyLong r 0x100A n stOK 0 (fun c => c.lcChange t)

/-- Step 2 of the table Zeroisation (R349). -/
def Chip.zeroise2 (c : Chip) : Chip :=
  let c := c.endAllSessions
  let c := each slots64 (fun i c => if (c.kslot i).empty then c else c.emptySlot i) c
  let c := c.plateSessEnd.plateKeys
  let c := if c.bay.v2gConn then c.v2gAbort {} else c
  let c := c.modKey (fun k =>
    { k with zeroFrom := if k.zeroPend then k.zeroFrom else k.lc, lc := lcPROVISIONED,
             zeroised := true, zeroPend := true, debug := false, testRoot := false, meshTrip := false,
             kwr := { k.kwr with eng := none, slot := 0, queue := [], grace := false } })
  ((c.modSys (fun s => { s with qcause := s.qcause ||| 4 })).setRdy rKEYS false).raise 0x1003 0xFF 0 0

/-- The SEC island has no power: it is shed at power-fail detect (R349). -/
def Chip.secOff (c : Chip) : Bool := c.power.saving || c.power.off

/-- A class-A detector trips (R349): in any state but RETIRED and MANUFACTURE it zeroises. QUARANTINE begins at the
same instant, and its lower type is recorded first (R222). An unpowered trip overwrites the KEK seed at once; step 2
follows at the restart. -/
def Chip.classA (ty : Nat) (c : Chip) : Chip :=
  let zero := c.key.lc != lcRETIRED && c.key.lc != lcMANUFACTURE
  if c.secOff then
    let c := c.modTamper (fun t =>
      { t with captured := t.captured ++ [(ty, true, c.time.sixP + 320 * t.aoTicks)] })
    c.when zero (Chip.modKey (fun k => { k with kekSeed := 0, meshTrip := true }))
  else
    let c := c.when zero (fun c => (c.modSys (fun s => { s with qcause := s.qcause ||| 4 })).settleQuar)
    let c := c.tamperInst ty 0xFF c.now 0 []
    c.when zero (fun c => (c.modKey (fun k => { k with kekSeed := 0 })).zeroise2)

/-- Step 3 of the table Zeroisation: a new KEK seed, the new ledger key, KEYS, and items 1, 2 and 4
of R347. -/
def Chip.zeroRekey (c : Chip) : Chip :=
  if !c.key.zeroPend || c.power.off then c else
  let gen := c.ledger.keyGen + 1
  let c := (c.newKek).newLedgerKey gen
  let c := (c.modKey (fun k => { k with zeroPend := false })).setRdy rKEYS true
  let old := c.key.zeroFrom
  let c := c.lcRecords old lcPROVISIONED
  (c.raise 0x1006 0xFF (w32 old.toNat) (w32 lcPROVISIONED.toNat)).lcKeyRecord old lcPROVISIONED gen

/-- The SEC island starts (R333, R337, R342, R344, R349): halves in force under the storage key, step 2 of a
zeroisation that the mesh began unpowered, the anti-replay counter, dependants. A KEK seed overwritten unpowered
leaves every slot EMPTY. -/
def Chip.secStart (c : Chip) : Chip :=
  let c := each slots64 (fun i c => c.modSlot i (fun s =>
    let ok := c.halfOk
    let useB := ok s.b && (!ok s.a || decide (s.a.gen.toNat < s.b.gen.toNat))
    if s.empty then s else { s with useB := useB, empty := !(ok s.a || ok s.b) })) c
  let top := (slots64.filter (fun i => !(c.kslot i).empty)).map (fun i => (c.kslot i).half.ctr.toNat)
  let ctr := top.foldl max c.key.ctr.toNat
  let c := (c.modKey (fun k => { k with ctr := w32 ctr })).condemn
  c.when c.key.meshTrip Chip.zeroise2

/-- SC writes the KEY_CHANGE records missing for halves newer than the last recorded (R342). -/
def Chip.secRecords (c : Chip) : Chip :=
  each ((slots64.drop 2).filter (fun i =>
      let s := c.kslot i
      !s.empty && decide (s.recGen.toNat < s.half.gen.toNat) && s.half.ctr != 0))
    (fun i c => c.keyChanged i) c

/-- The outcome of a password login when SC has checked it (R353, R354). -/
def Chip.loginRun (c : Chip) (a : Nat) (pw : List W8) : W8 :=
  if c.now < (c.acct (c.failIx a)).lockTo then stLOCKED
  else if c.acctKey a 6 = stCONDEMNED then stCONDEMNED
  else if (c.acct a).en ∧ c.passOk a pw then stOK
  else stAUTH

/-- What SC does for a long key operation by its completion: the state, the status and the result. While
KEYS is down the operation is lost. -/
def Chip.jobRun (x : Ticket) (j : KeyJob) (c : Chip) : Chip × W8 × W32 :=
  let work := x.code == 0x1002 || x.code == 0x1004 || x.code == 0x1007 || x.code == 0x1009
  if work && !c.rdy rKEYS then (c, stABORTED, 0) else
  match x.code.toNat with
  | 0x1002 => (c, c.loginRun x.arg (j.buf.take j.a1.toNat), 0)
  | 0x1004 => c.passwdRun x.master x.arg (j.buf.take j.a1.toNat)
  | 0x1007 => c.replaceRun x.master x.arg j.a1.toNat j.buf
  | 0x1009 => c.deriveRun x.arg (fld j.a1 0 6) j.a2.toNat (fld j.a3 28 4) (fld j.a3 0 5) j.buf
  | _ => (c, j.st, j.res)

/-- The completion of a key command (R341, R343, R346, R353): what SC worked on takes effect, and a
password login opens its session or counts as a failure. -/
def Chip.keyDone (x : Ticket) (c : Chip) : Chip :=
  match c.key.pending.find? (fun j => j.ticket == x.no) with
  | none => c
  | some j =>
    let c := c.modKey (fun k => { k with pending := k.pending.filter (fun y => y.ticket != x.no) })
    let live := (c.master x.master).sess == x.sess && (x.master == 0 || (c.master x.master).conn)
    let r := c.jobRun x j
    let c := r.1.complete x.no r.2.1 r.2.2
    if x.code ≠ 0x1002 then c
    else if r.2.1 = stAUTH then c.authFail x.arg
    else if r.2.1 = stOK && live then c.openSession x.master x.arg (c.acct x.arg).role
    else c

end Sys2Proof.Machine
end

