-- ==== Sys2Proof/Machine/Link.lean ====
section
/-! DEFINITION. The reader LK: polls, tracking, posting and transfers (R310-R313, R319, R323-R325,
R331); the plate tag (R317, R318, R320-R322, R326-R330); the LINK commands (15). -/

namespace Sys2Proof.Machine

open Sys2Proof

/-- LINK_CFG. -/
def aLinkCfg : Nat := 0xF0000

/-- LK holds FQ4 packets (R331). -/
def Chip.fq4Holds (c : Chip) : Bool := !(c.fq 4).holdBuf.isEmpty

/-- Writes a link record, then counts it and latches event 21 (R249, R324). -/
def Chip.linkRecord (kind action : Nat) (id : W64) (auth : Bool) (medium : W8) (c : Chip) : Chip :=
  let a := 0x7C140 + 0x40 * (c.bay.lkWr.toNat % 16)
  let put := fun (o : Nat) (v : W64) (c : Chip) => c.bayField (a + o) v
  let c := put 0x20 (BitVec.ofNat 64 c.now) (put 0x18 (BitVec.ofNat 64 (b2n auth))
    (put 0x10 id (put 0x08 (BitVec.ofNat 64 action) (put 0x00 (BitVec.ofNat 64 kind) c))))
  let c := put 0x28 (medium.zeroExtend 64) c
  let n := c.bay.lkWr + 1
  ((c.modBay (fun b => { b with lkWr := n })).bayField 0x7C100 n).bayEvent 21

/-- Posts a badge (R324, R331): ACTION 1 arrived, 2 left. -/
def Chip.postBadge (action : Nat) (b : Badge) (c : Chip) : Chip :=
  (c.linkRecord 1 action b.uid b.auth 0).fqPut 4 (mkPkt 0x40 0x0F
    ([w32 (action + 256 * b2n b.auth + 65536 * b.len.toNat)] ++ words64 b.uid.toNat ++ words64 c.now))

/-- Posts a Crossing tag (R324, R331): classes 1 and 2 to the bay, every class to FQ4. -/
def Chip.postTag (action i : Nat) (t : TagRec) (c : Chip) : Chip :=
  let c := if t.cls = 1 ∨ t.cls = 2 then
      c.linkRecord (t.cls.toNat + 1) action t.id t.auth t.medium else c
  c.fqPut 4 (mkPkt 0x41 0x0F
    ([w32 (action + 256 * b2n t.auth + 512 * b2n t.batt + 65536 * t.cls.toNat
        + 16777216 * t.medium.toNat)]
      ++ words64 t.id.toNat ++ words64 c.now ++ [w32 i]))

/-- Updates LINK_CNT. -/
def Chip.linkCnt (f : Link → Link) (c : Chip) : Chip := c.modLink f

/-- A failed authentication: LINK_CNT.AUTH and TAG_AUTH_FAIL; UNIT the tracked index, or 0xFF. -/
def Chip.tagAuthFail (unit : Nat) (c : Chip) : Chip :=
  (c.modLink (fun l => { l with cntAuth := satInc l.cntAuth })).raise 0x0F02 unit 0 0

/-- LK sends a frame; the model keeps it without its CRC. -/
def Chip.airSend (f : List W8) (c : Chip) : Chip := c.modLink (fun l => { l with air := l.air ++ [f] })

/-- The session key by R321. -/
def crossSes (k rndA rndB : BitVec 128) : BitVec 128 :=
  Config.cmac k (be4 1 ++ ascii "CROSSING SES" ++ [0]
    ++ b128Bytes rndA ++ b128Bytes rndB ++ be4 128)

/-- The nonce of a protected message (R321): direction, message counter, RndA bytes 0-7. -/
def crossNonce (tx : Bool) (ctr : Nat) (rndA : BitVec 128) : List W8 :=
  [BitVec.ofNat 8 (b2n tx)] ++ be4 ctr ++ (b128Bytes rndA).take 8

/-- LK authenticates a tag or badge with key k of a LINK_KEYSEL slot, diversified with `id` (R320, R321): the status,
and the session key with RndA where the tag's token and its reply to AUTH3, which locks nothing, verify. -/
def Chip.linkAuth (slot : Nat) (id : List W8) (k : Nat) (x : AuthReply) (c : Chip) :
    W8 × (BitVec 128 × BitVec 128) × Chip :=
  match c.linkUse slot with
  | (none, st, c) => (st, (0, 0), c)
  | (some m, _, c) =>
    let key := crossKey m id k
    let (rndA, c) := c.draw128
    let ks := crossSes key rndA x.rndB
    let c := (((c.airSend [0x20, BitVec.ofNat 8 k]).airSend
      (0x21 :: Config.cbcSeal key (b128Bytes rndA ++ b128Bytes x.rndB))).airSend
      (0x22 :: Config.ccmSeal ks (crossNonce false 0 rndA) [0x22] [0, 0]))
    let ok := x.st == stOK && Config.cbcOpen key x.token == b128Bytes x.rndB ++ b128Bytes rndA
      && Config.ccmOpen ks (crossNonce true 0 rndA) [0x22] x.opened == some []
    (if ok then stOK else stAUTH, (ks, rndA), c)

/-- LK authenticates a badge (R313) with its UID, zero-padded, as the context (log 172), and reads its block 0: the
status, and bytes 0-7 of the block in the order of a UID. -/
def Chip.badgeAuth (b : BadgeSeen) (c : Chip) : W8 × W64 × Chip :=
  match c.linkAuth 3 (leBytes 8 b.uid.toNat) 0 b.auth with
  | (st, s, c) =>
    if st ≠ stOK then (st, 0, c)
    else
      let aad : List W8 := [0x30, 0, 1]
      let c := c.airSend aad
      match Config.ccmOpen s.1 (crossNonce true 1 s.2) aad b.auth.block0 with
      | none => (stAUTH, 0, c)
      | some d => (stOK, BitVec.ofNat 64 (leAt d 2 8), c)

/-- A badge found by the Type A round (R312, R313). One whose key another engine keeps waiting is left for the next
poll (log 170). -/
def Chip.badgeSeen (b : BadgeSeen) (c : Chip) : Chip :=
  if !b.supported then c.modLink (fun l => { l with cntUnsup := satInc l.cntUnsup })
  else
    let random := b.len == 4 && b.uid &&& 0xFF == 0x08
    let here := fun (id : W64) (c : Chip) => c.link.badges.any (fun x => x.uid == id && x.len == b.len)
    let again := fun (id : W64) (c : Chip) => c.modLink (fun l =>
      { l with badges := mapIf (fun x => x.uid == id && x.len == b.len) (fun x => { x with missed := 0 }) l.badges })
    let track := fun (id : W64) (ok : Bool) (c : Chip) =>
      if 4 ≤ c.link.badges.length then c
      else
        let x : Badge := { uid := id, len := b.len, auth := ok }
        (c.modLink (fun l => { l with badges := l.badges ++ [x] })).postBadge 1 x
    if !random && here b.uid c then again b.uid c
    else if !c.cb aLinkCfg 28 then (if random then c else track b.uid false c)
    else
      match c.badgeAuth b with
      | (st, id, c) =>
        if st = stPENDING then c
        else if st ≠ stOK then
          let c := c.tagAuthFail 0xFF
          if random then c else track b.uid false c
        else if random && here id c then again id c
        else track (if random then id else b.uid) true c

/-- The Type A round of a poll (R311, R312): badges not found have missed a poll. -/
def Chip.badgeRound (l : List BadgeSeen) (c : Chip) : Chip :=
  let c := c.modLink (fun x => { x with badges := x.badges.map (fun b =>
    { b with missed := min 3 (b.missed + 1) }) })
  each l Chip.badgeSeen c

/-- Tracked tag i. -/
def Link.tag (l : Link) (i : Nat) : TagRec := Tbl.get {} l.tags i

/-- Writes tracked tag i. -/
def Link.putTag (i : Nat) (t : TagRec) (l : Link) : Link := { l with tags := Tbl.put {} l.tags i t }

/-- The tracked indices. -/
def Link.present (l : Link) : List Nat := (List.range 16).filter (fun i => (l.tag i).present)

/-- The bits of an identifier as they are sent, position 0 first (R314). -/
def tagBits (id : W64) : List Bool := (List.range 64).map (fun i => id.getLsbD (63 - i))

/-- A SEL frame with a prefix (R317); a full one asks for 211.9 kbit/s. -/
def selFrame (pre : List Bool) : List W8 :=
  let n := pre.length
  [0x02, BitVec.ofNat 8 n] ++ (List.range ((n + 7) / 8)).map (fun i =>
    BitVec.ofNat 8 ((List.range 8).map (fun k => b2n (pre.getD (8 * i + k) false) * 2 ^ (7 - k))).sum)
    ++ (if n = 64 then [0] else [])

/-- What LK hears after REQ or a SEL (R316, R319): nothing, one identifier, the first position of a collision, or a
reply without a collision whose CRC is bad. -/
inductive Heard where
  | silent
  | clean (t : TagSeen)
  | collision (p : Nat)
  | bad
  deriving DecidableEq, Repr

/-- The reply of the tags that match a prefix; `noise` spoils one without a collision. -/
def hear (tags : List TagSeen) (pre : List Bool) (noise : Bool) : Heard :=
  match tags.filter (fun t => (tagBits t.id).take pre.length == pre) with
  | [] => .silent
  | t :: l =>
    match (List.range 64).find? (fun i => l.any (fun x => (tagBits x.id).getD i false != (tagBits t.id).getD i false)) with
    | some p => .collision p
    | none => if noise then .bad else .clean t

/-- A command and its reply; a reply with a bad CRC has it sent again, twice at most (R319 step 4). The number of
replies heard so far and the frames sent go along. -/
def askTags (bad : List Nat) (tags : List TagSeen) (pre : List Bool) :
    Nat → Nat × List (List W8) → Heard × (Nat × List (List W8))
  | 0, s => (.bad, s)
  | n + 1, s =>
    let h := hear tags pre (bad.contains s.1)
    let s := (s.1 + b2n (h != .silent), s.2 ++ [if pre = [] then [0x01] else selFrame pre])
    if h = .bad then askTags bad tags pre n s else (h, s)

/-- The search of R319 for the tag of the lowest identifier that matches a prefix. A collision at p, or a reply that
stays bad, taken as a collision at the first position not fixed, is resolved with 0 and then with 1 there. -/
def resolveTag (bad : List Nat) (tags : List TagSeen) :
    Nat → List Bool → Nat × List (List W8) → Option TagSeen × (Nat × List (List W8))
  | 0, _, s => (none, s)
  | n + 1, pre, s =>
    let branch := fun (pre : List Bool) (s : Nat × List (List W8)) =>
      match resolveTag bad tags n (pre ++ [false]) s with
      | (some t, s) => (some t, s)
      | (none, s) => resolveTag bad tags n (pre ++ [true]) s
    match askTags bad tags pre 3 s with
    | (.silent, s) => (none, s)
    | (.clean t, s) => (some t, (s.1, s.2 ++ [selFrame (tagBits t.id)]))
    | (.collision p, s) =>
      let bits := match tags.find? (fun t => (tagBits t.id).take pre.length == pre) with
        | some t => tagBits t.id
        | none => []
      branch (bits.take p) s
    | (.bad, s) => branch pre s

/-- The transaction with an ACTIVE tag ends (R323, R319 step 5): its quiet time, then HALT. -/
def Chip.tagHalt (c : Chip) : Chip :=
  (c.airSend [0x04, BitVec.ofNat 8 (c.cf aLinkCfg 12 8)]).airSend [0x03]

/-- A Crossing tag that a round has made ACTIVE (R319, R323). Those left READY are a 17th tag, and one whose key
another engine keeps waiting (log 170); the module's own plate tag is passed over. -/
def Chip.tagSeen (t : TagSeen) (c : Chip) : Chip :=
  if t.id = 0 ∨ t.id = BitVec.allOnes 64 ∨ t.id = c.sys.deviceId then c
  else match c.link.present.find? (fun i => (c.link.tag i).id == t.id) with
  | some i => (c.modLink (fun l => l.putTag i { l.tag i with seen := c.now })).tagHalt
  | none =>
    match (List.range 16).find? (fun i => !(c.link.tag i).present) with
    | none => (c.modLink (fun l => { l with cntOver := satInc l.cntOver })).raise 0x0F03 0xFF 0 0
    | some i =>
      let want := c.cb aLinkCfg 27
      match (if want then c.linkAuth 2 (leBytes 8 t.id.toNat).reverse 0 t.auth else (stOK, (0, 0), c)) with
      | (st, _, c) =>
        if st = stPENDING then c else
        let x : TagRec := { present := true, id := t.id, auth := want && st == stOK, batt := t.batt, cls := t.cls,
                            medium := t.medium, seen := c.now }
        let c := c.when (want && st != stOK) (Chip.tagAuthFail i)
        (c.modLink (fun l => l.putTag i x)).tagHalt.postTag 1 i x

/-- The TAGDATA packet of a transfer (R331): 11 words when it carries data, else 3. -/
def tagData (x : Xfer) (st : W8) (ver : W16) (data : List W8) : List W32 :=
  mkPkt 0x42 0x0F ([w32 (x.ticket.toNat * 65536 + st.toNat * 256 + x.block.toNat),
    ver.zeroExtend 32, w32 x.index] ++ toWords data)

/-- The frame of a transfer's command in plain, and the additional data of a protected one (R317, R321). -/
def xferFrame (x : Xfer) : List W8 :=
  let code : W8 := if x.op = 0 then 0x10 else if x.op = 1 then 0x30 else if x.op = 2 then 0x11 else 0x31
  [code, x.block, 1]

/-- One outstanding transfer in a poll (R331). It authenticates for SREAD and SWRITE; a key that another engine keeps
waiting leaves it for the next poll, a failed authentication ends it. -/
def Chip.xferPoll (replies : List XferReply) (x : Xfer) (c : Chip) : Chip :=
  let drop := fun (c : Chip) =>
    c.modLink (fun l => { l with xfers := l.xfers.filter (fun y => y.ticket != x.ticket) })
  let done := fun (st : W8) (ver : W16) (data : List W8) (c : Chip) =>
    ((drop c).fqPut 4 (tagData x st ver data)).complete x.ticket st 0
  let t := c.link.tag x.index
  if c.fq4Holds then c
  else if !t.present then (drop c).complete x.ticket stSTALE 0
  else match replies.find? (fun y => y.index == x.index && y.answered) with
  | none =>
    if 2 ≤ x.polls then (drop c).complete x.ticket stTIMEOUT 0
    else c.modLink (fun l => { l with
      xfers := mapIf (fun z => z.ticket == x.ticket) (fun z => { z with polls := z.polls + 1 }) l.xfers })
  | some y =>
    let fields := fun (d : List W8) => if x.op.getLsbD 1 then x.data else d
    let put := fun (d : List W8) => BitVec.ofNat 16 (leAt d 0 2)
    let read := fun (d : List W8) => if x.op.getLsbD 1 then [] else slice (d ++ List.replicate 34 0) 2 32
    if !x.op.getLsbD 0 then
      let c := c.airSend (xferFrame x ++ fields [])
      done y.status (put y.data) (if y.status = stOK then read y.data else []) c
    else match c.linkAuth 2 (leBytes 8 t.id.toNat).reverse x.key.toNat y.auth with
    | (st, s, c) =>
      if st = stPENDING then c
      else if st = stAUTH then done stAUTH 0 [] (c.tagAuthFail x.index)
      else if st ≠ stOK then (drop c).complete x.ticket st 0
      else
        let aad := xferFrame x
        let c := c.airSend (if x.op.getLsbD 1 then aad ++ Config.ccmSeal s.1 (crossNonce false 1 s.2) aad
          ([0, 0, 0] ++ x.data) else aad)
        if y.status ≠ stOK then done y.status 0 [] c
        else match Config.ccmOpen s.1 (crossNonce true 1 s.2) aad y.data with
          | none => done stAUTH 0 [] c
          | some d => done stOK (put d) (read d) c

/-- The Crossing rounds of a poll (R319): while LK holds no FQ4 packet (R331), REQ and the search, until a REQ gets no
reply. A tag met is HALTED or passed over for the rest of the poll (log 169). -/
def Chip.crossRounds (bad : List Nat) : Nat → List TagSeen → Nat → Chip → Chip
  | 0, _, _, c => c
  | n + 1, tags, heard, c =>
    if c.fq4Holds then c else
    match resolveTag bad tags 65 [] (heard, []) with
    | (found, heard, sent) =>
      let c := c.modLink (fun l => { l with air := l.air ++ sent })
      match found with
      | none => c
      | some t => Chip.crossRounds bad n (tags.filter (fun x => x.id != t.id)) heard (c.tagSeen t)

/-- The Crossing part of a poll (R319, R323, R331): the rounds, then the transfers. -/
def Chip.crossRound (r : PollResult) (c : Chip) : Chip :=
  let cross := c.cb aLinkCfg 29
  let c := c.when cross (Chip.crossRounds r.bad (r.tags.length + 1) r.tags 0)
  each c.link.xfers (Chip.xferPoll (if cross then r.replies else [])) c

/-- The field goes on (R310): the antenna is measured. -/
def Chip.fieldOn (antennaOk : Bool) (c : Chip) : Chip :=
  if antennaOk then c.modLink (fun l => { l with field := true })
  else (c.modLink (fun l => { l with field := false, antFault := true })).raise 0x0F01 0xFF 0 0

/-- A poll (R310, R311): the antenna is measured when the field goes on. -/
def Chip.linkPoll (r : PollResult) (c : Chip) : Chip :=
  if !c.fieldMay then c
  else if !c.link.field && !r.antennaOk then c.fieldOn false
  else
    let c := c.modLink (fun l => { l with field := true, air := [], cntCrc := satAdd l.cntCrc (r.crcErrors + r.bad.length) })
    let c := c.badgeRound (if c.cb aLinkCfg 30 then r.badges else [])
    let c := c.crossRound r
    c.when (!c.cb aLinkCfg 26) (Chip.modLink (fun l => { l with field := false }))

/-- Departures (R323, R324): badges that missed two polls, tags unseen for TRACK_Q + 1 s. -/
def Chip.tagsLeft (c : Chip) : Chip :=
  let gone := c.link.badges.filter (fun b => decide (2 ≤ b.missed))
  let c := c.modLink (fun l => { l with badges := l.badges.filter (fun b => decide (b.missed < 2)) })
  let c := each gone (fun b c => c.postBadge 2 b) c
  let lim := (c.cf aLinkCfg 12 8 + 1) * 32000
  each (c.link.present.filter (fun i => decide ((c.link.tag i).seen + lim < c.now))) (fun i c =>
    (c.modLink (fun l => l.putTag i {})).postTag 2 i (c.link.tag i)) c

/-- A tandem slice boundary (R325): the lower identity owns the even slices. The field goes on at the start of an own
slice, and what its antenna measurement finds is a free value (log 173). -/
def Chip.sliceMark (c : Chip) : Chip :=
  if !c.pair.formed || !c.pair.j11Up then c else
  let c := c.modPair (fun p => { p with markRun := min 50 (p.markRun + 1), evenSlice := !p.evenSlice })
  let own := c.pair.evenSlice == c.lowerId
  let c := c.modLink (fun l => { l with sliceOwn := own })
  if !c.slicing then c
  else if own && c.fieldMay then c.draw.2.fieldOn (c.draw.1.getLsbD 0)
  else c.modLink (fun l => { l with field := false })

/-- LK starts anew: nothing tracked, counters zero, the antenna to be measured again; transfers
end ABORTED. -/
def Chip.linkRestart (c : Chip) : Chip :=
  let x := c.link.xfers
  let c := c.modLink (fun l => { plate := l.plate })
  each x (fun y c => c.complete y.ticket stABORTED 0) c

/-! The plate tag. -/

/-- Updates the plate tag. -/
def Chip.modPlate (f : Plate → Plate) (c : Chip) : Chip :=
  c.modLink (fun l => { l with plate := f l.plate })

/-- The 32 bytes of a block. -/
def Plate.block (p : Plate) (b : Nat) : List W8 := Mem.rdN p.blocks (32 * b) 32

/-- The version of a block. -/
def Plate.ver (p : Plate) (b : Nat) : W16 := Tbl.get 0 p.vers b

/-- A write replaces a whole block and increments its version (R318, R328). -/
def Plate.write (b : Nat) (data : List W8) (p : Plate) : Plate :=
  { p with blocks := Mem.wrN p.blocks (32 * b) ((data ++ List.replicate 32 0).take 32),
           vers := Tbl.put 0 p.vers b (p.ver b + 1) }

/-- A block is locked by an open session (R322). -/
def Plate.locked (p : Plate) (b : Nat) : Bool :=
  p.auth == 3 && decide (p.lockFirst ≤ b) && decide (b < p.lockFirst + p.lockCount)

/-- The check bytes of a frame or reply, most significant byte first (R315). -/
def crcBytes (l : List W8) : List W8 := (leBytes 2 (crc16 l).toNat).reverse

/-- A reply with its check bytes. -/
def Chip.plateSend (l : List W8) (c : Chip) : Chip := c.modPlate (fun p => { p with reply := l ++ crcBytes l })

/-- A reply in the identifier phase: the 8 identifier bytes (R317). -/
def Chip.plateId (c : Chip) : Chip := c.plateSend c.idBytes

/-- A reply in the data phase: a status byte and the payload (R317). -/
def Chip.plateSt (st : W8) (l : List W8) (c : Chip) : Chip := c.plateSend (st :: l)

/-- SELACK: CLASS, MEDIUM, BLOCKS, KEYS, BATT, QT. -/
def Chip.selAck (c : Chip) : List W8 :=
  let p := c.link.plate
  [3, 0, 255, BitVec.ofNat 8 (2 * b2n p.key1.isSome + 4 * b2n p.key2.isSome),
   BitVec.ofNat 8 (b2n c.power.cellLow), p.qt]

/-- A host access is performed (R328): the status, and the chip with the block in LINK_BUF or
written. -/
def Chip.plateDo (x : PlateAcc) (c : Chip) : Chip × W8 :=
  let p := c.link.plate
  let setVer := fun (v : W16) (c : Chip) =>
    c.modMaster x.master (fun m => { m with ptVer := v })
  if x.write then
    if p.locked x.block then (setVer (p.ver x.block) c, stLOCKED)
    else if x.vchk && p.ver x.block != x.ver then (setVer (p.ver x.block) c, stSTALE)
    else
      let c := c.modPlate (Plate.write x.block x.data)
      (setVer (c.link.plate.ver x.block) c, stOK)
  else
    let ws := (toWords (p.block x.block)).zipIdx.map (fun q => (q.2, q.1))
    (setVer (p.ver x.block) (c.modMaster x.master (fun m =>
      { m with linkBuf := ws.foldl (fun t q => Tbl.put 0 t q.1 q.2) m.linkBuf })), stOK)

/-- The hold of a field transaction ends (R329): the queued accesses are performed and completed. -/
def Chip.holdEnd (c : Chip) : Chip :=
  let q := c.link.plate.queue
  let c := c.modPlate (fun p => { p with hold := none, queue := [] })
  each q (fun x c =>
    let r := c.plateDo x
    r.1.complete x.ticket r.2 ((r.1.master x.master).ptVer.zeroExtend 32)) c

/-- The session ends where one is open, and any exchange begun (R322). -/
def Chip.plateLeave (c : Chip) : Chip := c.plateSessEnd

/-- A Crossing frame reaches the plate tag (R315, R317, R318): with a bad CRC, an unknown length, or in
a state that does not answer it, there is no reply and nothing changes. `lens` says which
lengths the command has, `f` what the tag does; an exchange that AUTH1 began goes on only where `f` is told
so: `was` is its stage. -/
def Chip.plateFrame (frame : List W8) (lens : List W8 → Bool) (accepts : BitVec 2 → Bool)
    (f : List W8 → BitVec 2 → Chip → Chip) (c : Chip) : Chip :=
  let c := c.modPlate (fun p => { p with reply := [] })
  let body := frame.dropLast.dropLast
  if frame ≠ body ++ crcBytes body ∨ !lens body ∨ !accepts c.link.plate.st then c
  else
    let was := c.link.plate.auth
    let c := c.holdEnd.modPlate (fun p => { p with auth := if p.auth = 3 then 3 else 0 })
    f body was c

/-- States IDLE, READY and ACTIVE, or ACTIVE alone. -/
def plNotHalted (s : BitVec 2) : Bool := s != 3
def plActive (s : BitVec 2) : Bool := s == 2

/-- REQ (R318): the tag becomes READY; leaving ACTIVE ends a session. -/
def Chip.plateReq (c : Chip) : Chip :=
  ((c.when (c.link.plate.st == 2) Chip.plateLeave).modPlate (fun p => { p with st := 1 })).plateId

/-- The bits of a byte string, most significant first. -/
def bitsOf (l : List W8) : List Bool := l.flatMap (fun b => [7, 6, 5, 4, 3, 2, 1, 0].map b.getLsbD)

/-- The length of a SEL body: L, its prefix, and RATE with L = 64. -/
def selLen (b : List W8) : Bool :=
  let n := (b.getD 1 0).toNat
  decide (1 ≤ n) && decide (n ≤ 64) &&
    decide (b.length = 2 + (n + 7) / 8 + (if n = 64 then 1 else 0)) &&
    (n != 64 || b.getD 10 0 == 0 || b.getD 10 0 == 1)

/-- SEL (R317, R318). -/
def Chip.plateSel (b : List W8) (c : Chip) : Chip :=
  let n := (b.getD 1 0).toNat
  if (bitsOf (b.drop 2)).take n ≠ (bitsOf c.idBytes).take n then c
  else if n < 64 then c.plateId
  else (c.modPlate (fun p => { p with st := 2, rate := b.getD 10 0 == 1 })).plateSt stOK c.selAck

/-- HALT (R318). -/
def Chip.plateHalt (c : Chip) : Chip :=
  (c.plateLeave.modPlate (fun p => { p with st := 3 })).plateSt stOK []

/-- QUIET (R317). -/
def Chip.plateQuiet (b : List W8) (c : Chip) : Chip :=
  let q := b.getD 1 0
  if q = 0 then c.plateSt stRANGE [] else (c.modPlate (fun p => { p with qt := q })).plateSt stOK []

/-- A block with its version as a reply carries it. -/
def Plate.verBlock (p : Plate) (b : Nat) : List W8 := leBytes 2 (p.ver b).toNat ++ p.block b

/-- The tag holds a block until its reply ends (R329). -/
def Chip.plateHold (b : Nat) (c : Chip) : Chip := c.modPlate (fun p => { p with hold := some b })

/-- READ (R318, R326): the public mirror alone. -/
def Chip.plateRead (b : List W8) (c : Chip) : Chip :=
  let blk := (b.getD 1 0).toNat
  let n := (b.getD 2 0).toNat
  if 1 < n then c.plateSt stRANGE []
  else if n = 0 then c.plateSt stOK []
  else if 0x40 ≤ blk then c.plateSt stDENIED []
  else (c.plateHold blk).plateSt stOK (c.link.plate.verBlock blk)

/-- WRITE (R326): no area accepts it in plain. -/
def Chip.plateWrite (b : List W8) (c : Chip) : Chip :=
  let n := (b.getD 2 0).toNat
  if n = 0 then c.plateSt stLENGTH [] else if 1 < n then c.plateSt stRANGE [] else c.plateSt stDENIED []

/-- The key of the plate tag with a number. -/
def Plate.key (p : Plate) (k : Nat) : Option (BitVec 128) :=
  if k = 1 then p.key1 else if k = 2 then p.key2 else none

/-- AUTH1 (R321): a fresh RndB. An open session is given up for the new one. -/
def Chip.plateAuth1 (b : List W8) (c : Chip) : Chip :=
  let k := (b.getD 1 0).toNat
  if 3 < k then c.plateSt stRANGE []
  else if (c.link.plate.key k).isNone then c.plateSt stDENIED []
  else
    let r := c.plateLeave.draw128
    (r.2.modPlate (fun p => { p with auth := 1, authKey := BitVec.ofNat 2 k, rndB := r.1 })).plateSt stOK
      (b128Bytes r.1)

/-- AUTH2 (R321). -/
def Chip.plateAuth2 (b : List W8) (was : BitVec 2) (c : Chip) : Chip :=
  let p := c.link.plate
  match p.key p.authKey.toNat with
  | none => c.plateSt stDENIED []
  | some k =>
    if was ≠ 1 then c.plateSt stDENIED []
    else
      let t := Config.cbcOpen k (b.drop 1)
      let ra := bytes128 (t.take 16)
      let rb := bytes128 (slice t 16 16)
      if rb ≠ p.rndB then c.plateSt stAUTH []
      else (c.modPlate (fun p => { p with auth := 2, rndA := ra, ks := crossSes k ra rb })).plateSt stOK
        (Config.cbcSeal k (b128Bytes rb ++ b128Bytes ra))

/-- The nonce of the next protected message of the tag's session. -/
def Plate.nonce (p : Plate) (tx : Bool) : List W8 :=
  crossNonce tx (if tx then p.ctrTx else p.ctrRx).toNat p.rndA

/-- A protected reply: status, then the protected payload; the counter counts it. -/
def Chip.plateSecure (aad payload : List W8) (c : Chip) : Chip :=
  let p := c.link.plate
  (c.modPlate (fun p => { p with ctrTx := p.ctrTx + 1 })).plateSt stOK
    (Config.ccmSeal p.ks (p.nonce true) aad payload)

/-- AUTH3 (R321, R322): the lock range; a session opens. -/
def Chip.plateAuth3 (b : List W8) (was : BitVec 2) (c : Chip) : Chip :=
  let p := { c.link.plate with ctrRx := 0, ctrTx := 0 }
  if was ≠ 2 then c.plateSt stDENIED []
  else match Config.ccmOpen p.ks (p.nonce false) [0x22] (b.drop 1) with
  | none => c.plateSt stAUTH []
  | some d =>
    let first := (d.getD 0 0).toNat
    let n := (d.getD 1 0).toNat
    if 256 < first + n then c.plateSt stRANGE []
    else
      let c := c.modPlate (fun p => { p with auth := 3, ctrRx := 1, ctrTx := 0, lockFirst := first,
                                             lockCount := n })
      (c.plateSecure [0x22] []).platePkt 2 first n 0

/-- The key that reads or writes an area in a session (R326): the mirror is read with either. -/
def Plate.mayRead (p : Plate) (b : Nat) : Bool :=
  if b < 0x40 then true else if b < 0x80 then p.authKey == 1 else p.authKey == 2
def Plate.mayWrite (p : Plate) (b : Nat) : Bool := decide (0x40 ≤ b) && p.mayRead b

/-- SREAD (R317, R326). -/
def Chip.plateSread (b : List W8) (was : BitVec 2) (c : Chip) : Chip :=
  let blk := (b.getD 1 0).toNat
  let n := (b.getD 2 0).toNat
  let p := c.link.plate
  if was ≠ 3 then c.plateSt stDENIED []
  else if 1 < n then c.plateSt stRANGE []
  else if n = 0 then c.plateSt stOK []
  else if !p.mayRead blk then c.plateSt stDENIED []
  else (c.plateHold blk).plateSecure (b.take 3) (p.verBlock blk)

/-- SWRITE (R317, R318, R326, R330): a MAC failure gets AUTH_FAIL and ends the session. -/
def Chip.plateSwrite (b : List W8) (was : BitVec 2) (c : Chip) : Chip :=
  let blk := (b.getD 1 0).toNat
  let n := (b.getD 2 0).toNat
  let p := c.link.plate
  if was ≠ 3 then c.plateSt stDENIED []
  else match Config.ccmOpen p.ks (p.nonce false) (b.take 3) (b.drop 3) with
  | none => c.plateLeave.plateSt stAUTH []
  | some d =>
    let c := c.modPlate (fun p => { p with ctrRx := p.ctrRx + 1 })
    if n = 0 then c.plateSt stLENGTH []
    else if 1 < n then c.plateSt stRANGE []
    else if !p.mayWrite blk then c.plateSt stDENIED []
    else if (d.getD 0 0).getLsbD 0 && leAt d 1 2 != (p.ver blk).toNat then c.plateSt stSTALE []
    else
      let c := (c.plateHold blk).modPlate (Plate.write blk (slice d 3 32))
      let v := c.link.plate.ver blk
      ((c.plateSt stOK (leBytes 2 v.toNat)).platePkt 1 blk 0 v).when (!c.power.off) (Chip.raise 0x0F04 0xFF 0 0)

/-- A field gap (R318): 8 ms or more returns the tag to IDLE, except a HALTED one. -/
def Chip.plateGap (ms : Nat) (c : Chip) : Chip :=
  if ms < 8 ∨ c.link.plate.st = 3 then c
  else c.plateLeave.modPlate (fun p => { p with st := 0, auth := 0 })

/-- The quiet time of a HALTED tag is over. -/
def Chip.plateQuietEnd (c : Chip) : Chip :=
  if c.link.plate.st = 3 then c.modPlate (fun p => { p with st := 0 }) else c

/-! The public mirror (R327). -/

/-- The slots and directions the totals cover, in ascending identity. -/
def Chip.totalIds (c : Chip) : List (Nat × Nat × Nat) :=
  (List.range 64).flatMap (fun m => (List.range 8).flatMap (fun s =>
    if !c.slotDef m s then [] else if c.slotNet m s then [(m, s, 0)] else [(m, s, 0), (m, s, 1)]))

/-- A totals entry: identity, UNIT, EXP, tier-0 register value. -/
def Chip.totalEntry (c : Chip) (x : Nat × Nat × Nat) : List W8 :=
  let i := ident x.1 x.2.1 x.2.2 0
  let w := c.live (aMp x.1 + 0x80 + 4 * x.2.1)
  let v := (Tbl.get ({} : RegVal) c.bill.qty i).v / q64
  leBytes 2 i ++ [BitVec.ofNat 8 (fld w 0 8), BitVec.ofNat 8 (fld w 16 8)]
    ++ leBytes 12 (BitVec.ofInt 96 v).toNat

/-- The data bytes of blocks 0x00-0x3D, 1,984 bytes. -/
def Chip.mirrorData (c : Chip) : List W8 :=
  let ids := c.totalIds
  let b0 := leBytes 8 c.sys.deviceId.toNat ++ leBytes 4 c.postNo
    ++ c.orderCode ++ c.hwRevision ++ leBytes 2 1
    ++ leBytes 4 0
  let flags := b2n (decide (92 < ids.length)) + 2 * b2n (!c.time.valid) + 4 * b2n c.retired
  let b1 := wordBytes c.runImg.legalVer ++ c.legalSum ++ wordBytes c.evt.legalCnt
    ++ leBytes 2 c.safe.sf.crc.toNat ++ leBytes 2 c.safe.edge.crc.toNat ++ leBytes 8 c.now
    ++ wordBytes (c.utc c.now) ++ leBytes 1 (min 92 ids.length) ++ leBytes 1 flags
    ++ leBytes 2 c.ledger.keyGen.toNat
  let t := (List.range 32).flatMap (fun i => wordBytes (c.trec i).cnt ++ wordBytes (c.trec i).last)
  let d := b0 ++ b1 ++ t ++ List.replicate 192 0 ++ (ids.take 92).flatMap c.totalEntry
  (d ++ List.replicate 1984 0).take 1984

/-- The signature over the mirror, r and s little-endian; zero while SC cannot sign (R327). -/
def Chip.mirrorSig (c : Chip) (d : List W8) : List W8 :=
  if c.canSign then
    let n := (Config.sign c.ledger.keyGen.toNat (Config.sha256 d)).toNat
    leBytes 32 (n / 2 ^ 256) ++ leBytes 32 (n % 2 ^ 256)
  else List.replicate 64 0

/-- Platform firmware writes the public mirror, then its signature (R327); a block that a session has locked is
written by its SWRITE alone (R322, log 171). -/
def Chip.mirrorUpdate (c : Chip) : Chip :=
  let d := c.mirrorData
  let all := d ++ c.mirrorSig d
  c.modPlate (fun p => (List.range 64).foldl (fun p b => if p.locked b then p else p.write b (slice all (32 * b) 32)) p)

/-! The LINK commands. -/

/-- The bytes of a master's LINK_BUF. -/
def Chip.linkBufBytes (c : Chip) (m : Nat) : List W8 :=
  (List.range 8).flatMap (fun i => wordBytes (Tbl.get (0 : W32) (c.master m).linkBuf i))

/-- A host access to the plate tag (R328, R329): performed within the acknowledgement, or queued behind
the hold of its block with BUSY and a ticket. -/
def Chip.plateAccess (code : Nat) (x : PlateAcc) (c : Chip) : Chip × Ans :=
  if c.link.plate.hold = some x.block then
    if c.tixFull then (c, { st := stNORES })
    else
      let r := c.issue x.master code 0
      (r.1.modPlate (fun p => { p with queue := p.queue ++ [{ x with ticket := r.2 }] }),
        { st := stBUSY, ticket := r.2 })
  else
    let r := c.plateDo x
    (r.1, { st := r.2 })

/-- The role of a master as a number; in RETIRED the host port has the rights of a READER (R34). -/
def Chip.roleNo (c : Chip) (m : Nat) : Nat :=
  if c.retired && m == 0 then roleREADER else (c.master m).role.toNat

/-- LINK_PT_READ; the role is that of the area (R326). -/
def cmdLinkPtRead (r : CmdReq) (c : Chip) : Chip × Ans :=
  let b := fld r.a0 0 8
  let role := c.roleNo r.m.val
  let ok := if b < 0x40 then decide (1 ≤ role)
    else if b < 0x80 then decide (3 ≤ role) else decide (2 ≤ role)
  if !ok then (c, { st := stDENIED })
  else c.plateAccess 0x0F01 { master := r.m.val, block := b }

/-- LINK_PT_WRITE. -/
def cmdLinkPtWrite (r : CmdReq) (c : Chip) : Chip × Ans :=
  let b := fld r.a0 0 8
  if b < 0x80 then (c, { st := stDENIED })
  else if c.link.plate.locked b then (c, { st := stLOCKED })
  else c.plateAccess 0x0F02 { master := r.m.val, block := b, write := true, vchk := r.a0.getLsbD 31,
                              ver := BitVec.ofNat 16 (fld r.a1 0 16), data := c.linkBufBytes r.m.val }

/-- LINK_XFER (R331). -/
def cmdLinkXfer (r : CmdReq) (c : Chip) : Chip × Ans :=
  if (c.fq 4).owner ≠ some r.m.val then (c, { st := stLOCKED })
  else if c.fq4Holds then (c, { st := stBUSY })
  else c.long r.m.val 0x0F03 0 (fun t c =>
    c.modLink (fun l => { l with xfers := l.xfers ++ [
      { ticket := t, master := r.m.val, index := fld r.a0 0 4, op := BitVec.ofNat 2 (fld r.a1 0 2),
        block := BitVec.ofNat 8 (fld r.a1 8 8), key := BitVec.ofNat 2 (fld r.a1 16 2),
        data := c.linkBufBytes r.m.val }] }))

/-- LINK_CNT_CLR. -/
def cmdLinkCntClr (_r : CmdReq) (c : Chip) : Chip × Ans :=
  (c.modLink (fun l => { l with cntCrc := 0, cntAuth := 0, cntOver := 0, cntUnsup := 0 }), {})

/-- LINK_STATE. -/
def Chip.linkState (c : Chip) : W32 :=
  w32 (b2n c.link.field * 2 ^ 31 + b2n c.link.sliceOwn * 2 ^ 30 + b2n c.link.antFault * 2 ^ 29
    + b2n (c.rdy rLINK) * 2 ^ 28 + c.link.present.length * 256 + c.link.badges.length)

/-- LINK_TAG registers of index i. -/
def Chip.linkTagReg (c : Chip) (i o : Nat) : W32 :=
  let t := c.link.tag i
  if o = 0 then w32 t.id.toNat else if o = 4 then hi32 t.id.toNat
  else if o = 8 then w32 (b2n t.present * 2 ^ 31 + b2n t.auth * 2 ^ 30 + b2n t.batt * 2 ^ 29
    + t.cls.toNat * 65536 + t.medium.toNat * 256)
  else 0

end Sys2Proof.Machine
end

