-- ==== Sys2Proof/Machine/PairCore.lean ====
section
/-! DEFINITION. The tandem pair (18): what taking the role, forming and ending do to the block. -/

namespace Sys2Proof.Machine

open Sys2Proof

/-- PAIR_CFG. -/
def aPairCfg : Nat := 0x130000

/-- Pair operation: PAIR_CFG.EN on a YX-128-TE (R3, R383). -/
def Chip.pairEn (c : Chip) : Bool := c.sys.te && c.cb aPairCfg 31

/-- This module holds an active role: active, or active alone. -/
def Pair.isActive (p : Pair) : Bool := p.role == 1 || p.role == 3

/-- Heartbeats arrive over UDP: the last came within 5 ms (R384). -/
def Chip.udpUp (c : Chip) : Bool := c.pair.udpAt.any (fun t => decide (c.now < t + 160))

/-- The pair ends with SV or with PAIR_CFG.EN: every field of PAIR_STATE and what is known of the partner
go back to reset, PAIR_MISMATCH and PAIR_DEVIATION end (R8, log 122). -/
def Chip.pairReset (c : Chip) : Chip :=
  let c := c.when c.pair.deviating (fun c => c.tamperEnd 24 0xFF c.now)
  (c.modPair (fun p => { lane := p.lane, evenSlice := p.evenSlice, excl := true })).setRdy rPAIR false

/-- A planned reset (causes 5 and 6) keeps the pair, which R387 takes up again, and what is counted since the
reset starts anew: FAILOVERS and DEVIATING (R8, log 164). -/
def Chip.pairPlanned (c : Chip) : Chip :=
  let c := c.when c.pair.deviating (fun c => c.tamperEnd 24 0xFF c.now)
  c.modPair (fun p => { p with failovers := 0, deviating := false, devRun := 0, okRun := 0, excl := true })

/-- The standby takes over (R388): its hold-off cause ends with the role. -/
def Chip.pairTake (c : Chip) : Chip :=
  ((c.modPair (fun p =>
    { p with role := 1, byFailover := true, failovers := satInc p.failovers })).raise 0x1304 0xFF 0 0).bayEvent 26

/-- This module becomes standby (R385): its outputs are held off and its ISO 15118 controller idles. -/
def Chip.pairStandby (c : Chip) : Chip :=
  (c.modPair (fun p => { p with role := 2, byFailover := false })).modBay (fun b => { b with v2gConn := false })

/-- Heartbeats of the other module win over this one's claim when neither or both are active (R383
rules 2 and 3). -/
def Chip.pairPrefers (c : Chip) (h : Heartbeat) : Bool :=
  let mine := c.cb aPairCfg 30
  if mine != h.prefer then mine else decide (c.sys.deviceId.toNat < h.id.toNat)

/-- Two modules are active when the link returns (R389): the one active by failover keeps the role; the
other becomes standby. -/
def Chip.pairDual (h : Heartbeat) (c : Chip) : Chip :=
  let keep := if c.pair.byFailover != h.failover then c.pair.byFailover else c.pairPrefers h
  if keep then c.modPair (fun p => { p with role := 1 }) else c.pairStandby.raise 0x1305 0xFF 0 0

/-- The pair forms (R383): roles in the order of its rules, PAIR and PAIR_FORMED. -/
def Chip.pairForm (h : Heartbeat) (c : Chip) : Chip :=
  let hActive := h.role == 1 || h.role == 3
  let c := c.modPair (fun p => { p with formed := true, mismatch := false, pid := h.id, excl := true })
  let c :=
    if c.pair.isActive && hActive then c.pairDual h
    else if c.pair.isActive then c.modPair (fun p => { p with role := 1 })
    else if hActive then c.pairStandby
    else if c.pairPrefers h then c.modPair (fun p => { p with role := 1 })
    else c.pairStandby
  (c.setRdy rPAIR true).raise 0x1302 0xFF 0 0

/-- Whether a register deviates (R391): mine and the partner's increments over the interval, in 2^-64
counts. -/
def Chip.deviates (c : Chip) (mine other : Int) : Bool :=
  let act := if c.pair.role = 2 then other else mine
  let d : Int := (mine - other).natAbs
  decide ((c.cf aPairCfg 0 7 : Int) * act.natAbs < d * 10000) && decide (2 * q64 < d)

/-- The first deviating tier-0 register of the last interval (R391), of those defined on both modules. -/
def Chip.deviating (c : Chip) (w : Win) (x : PairCheck) : Option Nat :=
  (x.regs.find? (fun p =>
    idTar p.1 == 0 && c.slotDef (idMp p.1) (idSlot p.1) && c.deviates (Tbl.get ({} : RegVal) w.qty p.1).v p.2)).map Prod.fst

/-- The check set is compared with the billing set for the interval that has ended (R391): two
consecutive deviating intervals start PAIR_DEVIATION, two without end it. -/
def Chip.pairCompare (x : PairCheck) (c : Chip) : Chip :=
  match c.bill.closedW with
  | [] => c
  | w :: _ =>
    if c.pair.excl || !x.ok || w.partl || w.irreg then c.modPair (fun p => { p with excl := false })
    else match c.deviating w x with
    | some i =>
      let c := c.modPair (fun p => { p with devRun := min 2 (p.devRun + 1), okRun := 0 })
      if c.pair.devRun = 2 ∧ !c.pair.deviating then
        ((c.modPair (fun p => { p with deviating := true })).tamperStart 24 0xFF c.now).raise 0x1306 0xFF
          (w32 i) 0
      else c
    | none =>
      let c := c.modPair (fun p => { p with okRun := min 2 (p.okRun + 1), devRun := 0 })
      if c.pair.okRun = 2 ∧ c.pair.deviating then
        (c.modPair (fun p => { p with deviating := false })).tamperEnd 24 0xFF c.now
      else c

end Sys2Proof.Machine
end

