-- ==== Sys2Proof/Machine/Reset.lean ====
section
/-! DEFINITION. Firmware slots and the boot selection (R359), settings generations (R369), and
the resets of SV with what they restart (R379, R423). -/

namespace Sys2Proof.Machine

open Sys2Proof

/-- A NOR slot: false A, true B. -/
def Upd.slot (u : Upd) (b : Bool) : FwSlot := if b then u.slotB else u.slotA

/-- Updates a NOR slot. -/
def Chip.modFw (b : Bool) (f : FwSlot → FwSlot) (c : Chip) : Chip :=
  c.modUpd (fun u => if b then { u with slotB := f u.slotB } else { u with slotA := f u.slotA })

/-- Slot states (R359). -/
def fwEMPTY : BitVec 3 := 0
def fwSTAGED : BitVec 3 := 1
def fwTRIAL : BitVec 3 := 2
def fwCONFIRMED : BitVec 3 := 3
def fwFAILED : BitVec 3 := 4

/-- The inactive slot: the one whose image does not run. Under the recovery image it is slot A. -/
def Chip.otherSlot (c : Chip) : Bool := c.upd.runSlot == 0

/-- The slot that holds the staged image: the inactive one, under the recovery image either of the two. -/
def Chip.stagedSlot (c : Chip) : Bool :=
  let n := c.otherSlot
  if c.upd.recovery && (c.upd.slot n).st != 1 && (c.upd.slot (!n)).st == 1 then !n else n

/-- The running image is on trial. -/
def Chip.onTrial (c : Chip) : Bool := c.upd.runSlot != 2 && c.runImg.st == fwTRIAL

/-- Whether an image reads a settings format (R369). -/
def FwSlot.reads (x : FwSlot) (f : W8) : Bool :=
  decide (x.fmtMin.toNat ≤ f.toNat) && decide (f.toNat ≤ x.fmtMax.toNat)

/-- Removes the last element for which `p` holds. -/
def eraseLast {α : Type} (p : α → Bool) (l : List α) : List α := (l.reverse.eraseP p).reverse

/-- A generation the ring never overwrites (R369): the one in force, the new one, and the newest
of each format the image of the other slot reads. -/
def Chip.genKept (c : Chip) (no : W32) (l : List Gen) (g : Gen) : Bool :=
  let o := c.upd.slot c.otherSlot
  g.no == no || g.no == c.cfg.gen ||
  (o.st != fwEMPTY && o.reads g.fmt && !g.dead &&
    !(l.any (fun x => x.fmt == g.fmt && !x.dead && decide (g.no.toNat < x.no.toNat))))

/-- Writes a settings generation, which takes effect by one commit word (R40, R369). The recovery
image writes none (R360). -/
def Chip.writeGen (words : Tbl W32) (c : Chip) : Chip :=
  if c.upd.runSlot = 2 then c else
  let no := w32 ((c.cfg.gens.map (fun g => g.no.toNat)).foldl max 0 + 1)
  let l : List Gen := { no := no, fmt := c.runImg.fmtMax, words := words } :: c.cfg.gens
  let l := if 16 < l.length then eraseLast (fun g => !c.genKept no l g) l else l
  c.modCfg (fun x => { x with gens := l, gen := no })

/-- The words of the settings generation in force. -/
def Chip.genWords (c : Chip) : Tbl W32 :=
  match c.cfg.gens.find? (fun g => g.no == c.cfg.gen) with
  | some g => g.words
  | none => []

/-- The group of a CMT address. -/
def groupOf (a : Nat) : Option Nat := (cmtFind a).map CmtFam.group

/-- Loads words as the live configuration and writes the references (R41). Taps and engines follow a
difference of CG1 or CG2, but for a legal commit that waits for its instant. -/
def Chip.loadWords (words : Tbl W32) (c : Chip) : Chip :=
  let old := overlaid c.live ((c.cfg.pend.filter (fun p => !p.applied)).flatMap PendCommit.words)
  let c := c.modCfg (fun x => { x with live := words, loaded := true })
  let c := c.modCfg (fun x => { x with ref := (List.range 12).foldl (fun t g => Tbl.put 0 t g (c.groupCrc g)) [] })
  let s := c.stampAfter 1
  let c := c.tapChange s old
  c.when (!c.sys.starting) (Chip.progChange s old)

/-- Settings are loaded at a start of SV (R369): the highest-numbered generation the image reads, but for those of a
trial that was given up;
one of an older format is converted into a new generation. With no generation at all the
configuration is as shipped. -/
def Chip.loadSettings (c : Chip) : Chip :=
  let lo := c.runImg
  match c.cfg.gens.filter (fun g => !g.dead) with
  | [] => (c.loadWords []).modCfg (fun x => { x with gen := 0 })
  | l =>
    match l.find? (fun g => lo.reads g.fmt || c.upd.runSlot == 2) with
    | none => c.modCfg (fun x => { x with loaded := false })
    | some g =>
      let c := (c.modCfg (fun x => { x with gen := g.no })).loadWords g.words
      if g.fmt.toNat < lo.fmtMax.toNat ∧ c.upd.runSlot ≠ 2 then
        (c.writeGen g.words).raise 0x1105 c.upd.runSlot.toNat 0 0
      else c

/-- The Ethernet ports that CG8 configures (R372): those its enabled connections use, as numbers of
NET links; J6 ports are 0 and 1, 10BASE-T1L ports 2 and 3. -/
def Chip.netPorts (c : Chip) : List Nat :=
  (List.range 16).filterMap (fun i =>
    let a := c.live (0x128000 + 0x10 * i)
    if a.getLsbD 31 && decide (fld a 28 2 < 2) then some (2 * fld a 28 2 + fld a 27 1) else none)

/-- NET is ready (R372): NX runs, and a configured link is up; with none configured, any link. -/
def Chip.netOk (c : Chip) : Bool :=
  c.net.nxUp &&
  (match c.netPorts with
   | [] => c.net.links != 0
   | l => l.any (fun p => c.net.links.getLsbD p))

/-- NET follows its links. -/
def Chip.netFollow (c : Chip) : Chip := c.setRdy rNET c.netOk

/-- Sets or clears whether islands of a mask answer their bridge. -/
def Chip.setDead (mask : Nat) (dead : Bool) (c : Chip) : Chip :=
  c.modSys (fun s => { s with dead := if dead then s.dead ||| BitVec.ofNat 10 mask
                                      else s.dead &&& ~~~ BitVec.ofNat 10 mask })

/-- The islands a reset of SV restarts: SV 3, LINK 7, NET 8. -/
def svIslands : Nat := 0x188

/-- Counts a reset with its cause (SYS_RESET, R379). -/
def Chip.countReset (cause : Nat) (c : Chip) : Chip :=
  c.modSys (fun s => { s with resetCount := satInc s.resetCount, prevCause := s.cause,
                              cause := BitVec.ofNat 8 cause })

/-- Every outstanding ticket is lost, and the completions with it (R45). -/
def Chip.loseTickets (c : Chip) : Chip :=
  c.modTix (fun t => { t with out := [], done := [], base := t.next })

/-- The banks of a master that SV and LK hold go back to their reset values (R8, R416); its session and
what the SEC island holds of it (KEY_NONCE, KEY_BUF, KEY_SESS) go on (log 60). -/
def Chip.clearBank (m : Nat) (c : Chip) : Chip :=
  c.modMaster m (fun x => { conn := x.conn, outbox := x.outbox, role := x.role, account := x.account,
                            sess := x.sess, tried := x.tried, nonce := x.nonce, nonceOk := x.nonceOk,
                            nonceSix := x.nonceSix, keyBuf := x.keyBuf })

/-- The largest rate factor, 500 ppm in parts per 10^12 (R195). -/
def maxRate : Int := 500000000

/-- Limits a rate factor. -/
def clampRate (a : Int) : Int := max (-maxRate) (min maxRate a)

/-- The first instant at which a new piece may start: after the TIME horizon and the newest sample. -/
def Chip.pieceStart (c : Chip) : Nat := up8 (max c.now c.time.horizon + 1)

/-- Starts a new piece at an instant, with an offset and a rate; pieces that start later go. -/
def Time.piece (start : Nat) (ofs rate : Int) (t : Time) : Time :=
  let ns := t.civil start + ofs
  { t with pieces := { six := start, ns := ns, rate := rate }
                       :: (t.pieces.filter (fun p => decide (p.six < start))).take 15 }

/-- A boundary that TIME schedules, as a change in an engine's log. -/
def timeChange (e : CtxEv) : Bool :=
  match e.change with
  | .demandClose _ => true
  | .billingClose => e.src == 0
  | .tariffSwitch _ => true
  | .calendar _ => true
  | _ => false

/-- Boundaries handed to the engines that lie after an instant are withdrawn (R201). -/
def Chip.withdraw (after : Nat) (c : Chip) : Chip :=
  let gone := fun (p : PendTime) => decide (after < p.stamp) && p.kind != 4
  let act := c.save.pendTime.any (fun p => gone p && p.kind % 8 == 3)
  let c := c.modSave (fun s => { s with pendTime := s.pendTime.filter (fun p => !gone p) })
  let c := c.when act (Chip.modTariff (fun t => { t with stamp := none }))
  each engs8 (fun k c => c.modEng k (fun q =>
    { q with log := q.log.filter (fun e => !(timeChange e && decide (after < e.stamp))) })) c

/-- A change of the mapping's rate moves boundaries in the span not yet frozen: those handed on are
placed anew (R195, R74). -/
def Chip.replace (c : Chip) : Chip :=
  if c.save.pendTime.any (fun p => decide (c.now < p.stamp) && p.kind != 4) then
    (c.withdraw c.now).handoff
  else c

/-- A slew ends: the rate is that of the measured TCXO error alone (R197). -/
def Chip.slewEnd (c : Chip) : Chip :=
  if c.time.slewRem = 0 then c
  else (c.modTime (fun t =>
    { t.piece c.pieceStart 0 (clampRate t.tcxo) with slewRem := 0, leapPending := false })).replace

/-- The fields of SV-served blocks whose tables give them a reset value go back to it with SV (R8, R416):
HINT, SYS_DENIED_ADDR, the time status but for VALID, UPD_HEALTH.OK (log 122). -/
def Chip.svFields (c : Chip) : Chip :=
  let c := (c.modSys (fun s => { s with hintStatus := 0, hintEn := 0, deniedAddr := 0 })).slewEnd
  let c := c.modTime (fun t => { t with slewRem := 0, leapPending := false, stepNeeded := false,
                                        utcOffset := 0, offset := 0, srcState := 0 })
  c.modUpd (fun u => { u with healthOk := false })

/-- Stagings in DRAM end with a reset (R357): an open one completes ABORTED where its ticket still
stands. An unfinished PLATFORM staging leaves its slot EMPTY. -/
def Chip.dropStagings (c : Chip) : Chip :=
  let open_ := c.upd.stagings.filter (fun s => !s.done)
  let c := each open_ (fun s c => c.complete s.ticket stABORTED 0) c
  c.modUpd (fun u => { u with stagings := [] })

/-- Outstanding quality requests vanish with NX. -/
def Chip.dropQuality (c : Chip) : Chip :=
  c.modBill (fun b => { b with mps := b.mps.map (fun p => (p.1, { p.2 with qreq := none, qwait := false })) })

/-- The PTP clock starts anew with NX. -/
def Chip.ptpRestart (c : Chip) : Chip :=
  c.modTime (fun t =>
    { t with ptp := {}, srcState := if c.cb 0x80000 31 then 1 else if t.srcState = 4 then 4 else 0 })

/-- SV, LK, NX and HK go into reset with a cause (R379): 2 watchdog, 3 lockstep, 5 changeover,
6 revert. Claims and host sessions survive causes 5 and 6. -/
def Chip.svDown (cause : Nat) (c : Chip) : Chip :=
  let keep := cause == 5 || cause == 6
  let c := each [1, 2, 3, 4] (fun m c => (c.closeConn m).clearBank m) c
  let c := if keep then c else (c.endSession 0).modKey (fun k => { k with pending := [] })
  let c := (c.clearBank 0).svFields
  let c := if keep then c.modTix (fun t => { t with base := t.next }) else c.loseTickets
  let c := (c.dropStagings.dropQuality).linkRestart
  let c := ((c.setRdy rSV false).setRdy rLINK false).setRdy rNET false
  let c := (c.modNet (fun n => { n with nxUp := false })).setDead svIslands true
  let c := (c.ptpRestart.countReset cause).bayPause
  let c := each (List.range 8) (fun q c => c.modFq q (fun f =>
    { f with parity := true, leaving := false, testing := f.testing && keep })) c
  let c := c.modDisp (fun d => { d with page := 0, alt := false, hold := false, test := 0 })
  let c := c.controllerLost keep
  let c := if keep then c.pairPlanned else c.pairReset
  c.raise 0x000B 0xFF (w32 cause) 0

/-- Raises UPD_FALLBACK with LAST_FAIL (R364); UNIT names the slot given up. -/
def Chip.fallbackEvt (slot : Bool) (c : Chip) : Chip :=
  c.raise 0x1104 (b2n slot) (w32 c.upd.lastFail.toNat) 0

/-- An activation or a fallback to an image with a LEGAL_DIGEST: a change of it counts as one legal event (R371). -/
def Chip.legalDigest (new : BitVec 256) (c : Chip) : Chip :=
  if c.upd.legalNow = new then c else
  (c.modUpd (fun u => { u with legalNow := new })).modEvt (fun e => { e with legalCnt := satInc e.legalCnt })

/-- LEGAL_DIGEST of the image that boots when the slot named is given up (R359). -/
def Chip.fallLegal (c : Chip) (slot : Bool) : BitVec 256 :=
  let o := c.upd.slot (!slot)
  if o.st = fwCONFIRMED ∧ !o.bad then o.legal else c.upd.recImg.legal

/-- The trial is given up for the other slot with a LAST_FAIL (R359, R364, R367): generations newer
than the trial's start stay in their ring and are ignored (R369), and UPD_SETTINGS_LOST names the groups committed
during it (R368). -/
def Chip.giveUpTrial (slot : Bool) (why : BitVec 3) (c : Chip) : Chip :=
  let c := c.legalDigest (c.fallLegal slot)
  let c := (c.modFw slot (fun x => { x with st := fwFAILED })).modUpd (fun u =>
    { u with bootSlot := !slot, lastFail := why, fellBack := true })
  let lost := c.cfg.trialChanged
  let c := c.modCfg (fun x =>
    { x with gens := mapIf (fun g => decide (c.upd.trialGen.toNat < g.no.toNat)) (fun g => { g with dead := true }) x.gens,
             trialChanged := 0 })
  (c.fallbackEvt slot).when (lost != 0) (fun c => c.raise 0x1106 (b2n slot) (w32 lost.toNat) 0)

/-- A slot that passes verification (R359 step 2). -/
def FwSlot.passes (x : FwSlot) : Bool := !x.bad && (x.st == fwTRIAL || x.st == fwCONFIRMED)

/-- A slot is marked FAILED by its verification. -/
def Chip.slotFailed (b : Bool) (c : Chip) : Chip :=
  ((c.modFw b (fun x => { x with st := fwFAILED })).modUpd (fun u => { u with lastFail := 4 })).raise
    0x1108 (b2n b) 4 0

/-- An image starts: slot A, slot B, or the recovery image (R359, R360). Quarantine cause RECOVERY
holds exactly while the recovery image runs (R378). -/
def Chip.startImage (n : BitVec 2) (c : Chip) : Chip :=
  let c := c.modUpd (fun u => { u with runSlot := n, recovery := n == 2 })
  let c := c.modUpd (fun u =>
    { u with phase := if n = 2 then 3 else if c.runImg.st = fwTRIAL then 2 else 0 })
  c.modSys (fun s => { s with qcause := if n = 2 then s.qcause ||| 8 else s.qcause &&& 7 })

/-- The number of a slot as RUN_SLOT has it. -/
def slotNo (b : Bool) : BitVec 2 := if b then 1 else 0

/-- The boot controller selects the image at a start of SV (R359); `planned` is the start of the
changeover itself, which boots the TRIAL slot. -/
def Chip.bootSelect (planned : Bool) (c : Chip) : Chip :=
  let n := c.upd.bootSlot
  let c := if (c.upd.slot n).st == fwTRIAL && !planned then c.giveUpTrial n 3 else c
  let n := c.upd.bootSlot
  if (c.upd.slot n).passes then (c.startImage (slotNo n)).legalDigest (c.upd.slot n).legal
  else
    let trial := (c.upd.slot n).st == fwTRIAL
    let o := c.upd.slot (!n)
    let c := c.slotFailed n
    let c := if trial then (c.giveUpTrial n 4).modUpd (fun u => { u with coRevert := true }) else c
    if o.st = fwCONFIRMED ∧ !o.bad then
      ((c.modUpd (fun u => { u with bootSlot := !n, fellBack := true })).startImage (slotNo (!n))).legalDigest o.legal
    else
      let c := c.when (o.st == fwCONFIRMED) (Chip.slotFailed (!n))
      (c.startImage 2).legalDigest c.upd.recImg.legal

/-- The functions of SV, LK and NX become ready again (R423), the dies are claimed (R281) and BS
resumes. -/
def Chip.svUp (c : Chip) : Chip :=
  let c := c.loadSettings
  if !c.cfg.loaded then c else
  let c := c.setDead svIslands false
  let c := (c.setRdy rSV true).setRdy rLINK true
  let c := (c.modNet (fun n => { n with nxUp := true })).netFollow
  let c := each (List.range 6) (fun d c => c.claimDie d) c
  let c := each (List.range 8) (fun q c => c.modFq q (fun f =>
    if f.parity && !c.sys.starting then { f with leaving := true } else f)) c
  let c := if c.pair.role == 2 && !c.pair.formed then c.pairTake else c
  c.bayResume

end Sys2Proof.Machine
end

