-- ==== Sys2Proof/Machine/Firmware.lean ====
section
/-! DEFINITION. Staging and checks of images (R356-R358), the changeover, its revert and the trial
(R361-R368). -/

namespace Sys2Proof.Machine

open Sys2Proof

/-- The staging that holds a ticket. -/
def Chip.staging (c : Chip) (t : Nat) : Option Staging :=
  c.upd.stagings.find? (fun s => s.ticket.toNat == t)

/-- Updates the staging of a ticket. -/
def Chip.modStaging (t : W16) (f : Staging → Staging) (c : Chip) : Chip :=
  c.modUpd (fun u => { u with stagings := mapIf (fun s => s.ticket == t) f u.stagings })

/-- Removes the staging of a ticket. -/
def Chip.dropStaging (t : W16) (c : Chip) : Chip :=
  c.modUpd (fun u => { u with stagings := u.stagings.filter (fun s => s.ticket != t) })

/-- The length limits of a kind (the table Staging limits). -/
def stageLimits (kind len : Nat) : Bool :=
  match kind with
  | 1 => decide (0xD0 ≤ len) && decide (len ≤ 25165824)
  | 2 => decide (0xD0 ≤ len) && decide (len ≤ 320208)
  | 3 => decide (0xD0 ≤ len) && decide (len ≤ 639696)
  | 4 => decide (1 ≤ len) && decide (len ≤ 240)
  | _ => false

/-- DRAM areas in use: every staging but a PLATFORM one. -/
def Chip.dramUsed (c : Chip) : Nat := (c.upd.stagings.filter (fun s => s.kind != 1)).length

/-- A PLATFORM staging opens (R357): the inactive slot is overwritten, and with it an earlier
PLATFORM staging. -/
def Chip.openPlatform (c : Chip) : Chip :=
  let old := c.upd.stagings.filter (fun s => s.kind == 1)
  let c := each old (fun s c => (c.dropStaging s.ticket).complete s.ticket stABORTED 0) c
  c.modFw c.otherSlot (fun _ => {})

/-- UPD_STAGE (R357). -/
def cmdUpdStage (r : CmdReq) (c : Chip) : Chip × Ans :=
  let kind := fld r.a0 0 4
  let len := r.a1.toNat
  if len = 0 then (c, { st := stLENGTH })
  else if !stageLimits kind len then (c, { st := stRANGE })
  else if kind ≠ 1 ∧ 4 ≤ c.dramUsed then (c, { st := stNORES })
  else if kind = 1 ∧ (c.onTrial ∨ c.sys.changeover) then (c, { st := stMODE })
  else c.long r.m.val 0x1101 kind (fun t c =>
    let c := if kind = 1 then c.openPlatform else c
    c.modUpd (fun u => { u with stagings := u.stagings ++
      [{ ticket := t, master := r.m.val, kind := kind, len := len, at_ := c.now }] }))

/-- The check of the key DEC_SLOT names (R356): 0x3F the vendor image key, of a PLATFORM alone; else a
usable UPDATE-class AES-256 key. The key, or the status. -/
def Chip.decKey (c : Chip) (kind slot : Nat) : Except W8 (List W8) :=
  if kind = 1 then (if slot = 0x3F then .ok Config.vendorImageKey else .error stCONDEMNED)
  else if 2 ≤ slot && slot < 64 && c.slotUsable slot && c.slotCls slot == 1
      && (c.kslot slot).half.typ == 2 then .ok (c.kslot slot).half.mat
  else .error stCONDEMNED

/-- Checks 3 and 4 of R358 for the key AUTH_SLOT names (R356): AUTH_FAIL while SIG does not verify under it, then
CONDEMNED where it is not usable. -/
def Chip.contSig (c : Chip) (kind : Nat) (b : List W8) : W8 :=
  let auth := leAt b 0x1C 1
  let data := b.take 0x80
  let sig := slice b 0x80 64
  if kind = 1 then (if auth = 0x3F && vendorSigOk data sig then stOK else stAUTH)
  else if !(decide (2 ≤ auth) && decide (auth < 64) && c.slotSigOk auth data sig) then stAUTH
  else if c.slotUsable auth then stOK else stCONDEMNED

/-- The checks of R358 in their order: the status, and the plaintext when they pass. -/
def Chip.contCheck (c : Chip) (kind len : Nat) (b : List W8) : W8 × List W8 :=
  if leAt b 0 4 ≠ 0x46574D59 ∨ leAt b 4 2 ≠ 1 ∨ leAt b 6 1 ≠ kind then (stVERSION, [])
  else if leAt b 8 4 ≠ len ∨ 0x0A02 < leAt b 0x14 2 ∨ (kind = 1 ∧ leAt b 0x0F 1 ≠ 3) then (stRANGE, [])
  else
    let sig := c.contSig kind b
    if sig ≠ stOK then (sig, [])
    else match c.decKey kind (leAt b 0x1D 1) with
    | .error e => (e, [])
    | .ok key =>
      match Config.gcmOpen key (slice b 0x20 12) (b.take 0xC0) (b.drop 0xC0) with
      | none => (stAUTH, [])
      | some p =>
        if digBytes (Config.sha256 p) ≠ slice b 0x60 32 then (stCRC, [])
        else if kind = 1 ∧ leAt b 0x18 4 < c.upd.roll.toNat then (stSTALE, [])
        else (stOK, p)

/-- The slot a checked PLATFORM container fills. -/
def fwOfCont (b : List W8) : FwSlot :=
  { st := fwSTAGED, ver := w32 (leAt b 0x0C 4), legalVer := w32 (leAt b 0x10 4),
    legal := BitVec.ofNat 256 (ofBe (slice b 0x40 32)), anti := w32 (leAt b 0x18 4),
    fmtMin := BitVec.ofNat 8 (leAt b 0x16 1), fmtMax := BitVec.ofNat 8 (leAt b 0x17 1),
    sfVer := w32 (leAt b 0x0C 4) }

/-- The last byte of a staging has arrived (R358): the ticket completes. -/
def Chip.stagingCheck (s : Staging) (c : Chip) : Chip :=
  let done := fun plain (c : Chip) => c.modStaging s.ticket (fun s => { s with done := true, plain := plain, at_ := c.now })
  if s.kind = 4 then (done s.got c).complete s.ticket stOK 0
  else
    let k := c.contCheck s.kind s.len s.got
    if k.1 ≠ stOK then (c.dropStaging s.ticket).complete s.ticket k.1 0
    else if s.kind = 1 then
      let n := c.otherSlot
      (((c.dropStaging s.ticket).modFw n (fun _ => fwOfCont s.got)).complete s.ticket stOK 0).raise
        0x1101 (b2n n) 0 0
    else ((done k.2 c).complete s.ticket stOK 0).raise 0x1101 0xFF 0 0

/-- Only the master that opened a staging sends its chunks (R357). -/
def Chip.mayChunk (c : Chip) (r : CmdReq) : Bool :=
  (c.staging (fld r.a0 0 16)).all (fun s => s.master == r.m.val)

/-- UPD_CHUNK (R357). -/
def cmdUpdChunk (r : CmdReq) (c : Chip) : Chip × Ans :=
  let t := fld r.a0 0 16
  let ofs := r.a1.toNat
  let len := r.a2.toNat
  match c.staging t with
  | none =>
    if len = 0 then (c, { st := stLENGTH })
    else if 1024 < len then (c, { st := stRANGE }) else (c, { st := stSTALE })
  | some s =>
    if len = 0 then (c, { st := stLENGTH })
    else if 1024 < len then (c, { st := stRANGE })
    else if s.done then (c, { st := stSTALE })
    else if ofs ≠ s.got.length ∨ s.len < ofs + len then (c, { st := stRANGE })
    else
      let buf := (c.master r.m.val).updBuf
      let data := ((List.range 256).flatMap (fun i => wordBytes (Tbl.get 0 buf i))).take len
      let s' := { s with got := s.got ++ data, at_ := c.now }
      let c := c.modStaging s.ticket (fun _ => s')
      (if s'.got.length = s.len then c.stagingCheck s' else c, { st := stOK })

/-- UPD_DISCARD: a staging or a staged image; 0 names the staged slot. -/
def cmdUpdDiscard (r : CmdReq) (c : Chip) : Chip × Ans :=
  let t := fld r.a0 0 16
  if t = 0 then
    if (c.upd.slot c.stagedSlot).st = fwSTAGED then (c.modFw c.stagedSlot (fun _ => {}), { st := stOK })
    else (c, { st := stSTALE })
  else match c.staging t with
  | none => (c, { st := stSTALE })
  | some s =>
    let c := c.dropStaging s.ticket
    (if s.done then c else c.complete s.ticket stABORTED 0, { st := stOK })

/-- A staging receives no chunk for 60 s (R357). -/
def Chip.stagingTimeout (t : W16) (c : Chip) : Chip :=
  match c.staging t.toNat with
  | some s => if s.done then c else (c.dropStaging t).complete t stTIMEOUT 0
  | none => c

/-- A staged image is not consumed within 3,600 s of completion (the table Staging limits). -/
def Chip.stagedExpiry (t : W16) (c : Chip) : Chip :=
  match c.staging t.toNat with
  | some s => if s.done then c.dropStaging t else c
  | none => c

/-- Commits the gates of engine k that its horizons allow, `n` at most. -/
def Chip.commitAllowed (k : Nat) : Nat → Chip → Chip
  | 0, c => c
  | n + 1, c => Chip.commitAllowed k n (c.gateCommit k)

/-- Engine k stops for a changeover (R362 step 2): the gates its horizons allow commit, its
checkpoint goes to the handover area, and the AFE fills its share of the bridge buffer from c on. -/
def Chip.engineStop (k : Nat) (c : Chip) : Chip :=
  let q := c.eng k
  let runs := 2 ≤ q.run.toNat ∧ q.run.toNat ≤ 4
  if !(decide runs || (q.run == ruRESTART && q.reloaded)) then c
  else
    let c := c.commitAllowed k q.gates.length
    let q := c.eng k
    let c := c.modEng k Engine.stopAtC
    let c := c.modGroup k (fun g =>
      if g.bridgeOn then g
      else { g with bridgeOn := true, bridgeFrom := q.c, bridgeLost := none,
                    bridge := (g.buf.filter (fun x => decide (q.c ≤ x.1))).length })
    (c.setRdy (rQE k) false).modUpd (fun u =>
      { u with handover := u.handover.filter (fun h => h.1 != k) ++ [(k, q.ck)] })

/-- Steps 1 to 3 of the table Changeover for a reset of cause 5 or 6: the condition begins, engines
stop, and SV goes into reset. -/
def Chip.changeoverStop (cause : Nat) (c : Chip) : Chip :=
  let c := (c.modSys (fun s => { s with changeover := true })).modPair (fun p => { p with excl := true })
  let c := (c.modDrv (fun d => { d with holdExt := true })).bayPause
  let c := each engs8 (fun k c => c.engineStop k) c
  (c.svDown cause).modUpd (fun u => { u with coStep := 3, healthOk := false })

/-- An activation starts (R362): the staged slot becomes TRIAL. -/
def Chip.startChangeover (t : W16) (c : Chip) : Chip :=
  let n := c.stagedSlot
  let c := c.modUpd (fun u => { u with coTicket := t, coAt := c.now, coRevert := false, bootSlot := n,
                                       trialGen := c.cfg.gen })
  let c := (c.modFw n (fun x => { x with st := fwTRIAL })).modCfg (fun x => { x with trialChanged := 0 })
  let c := c.legalDigest (c.upd.slot n).legal
  let c := (c.tamperInst 14 0xFF c.now 0 []).raise 0x1102 (b2n n) 0 0
  c.changeoverStop 5

/-- UPD_ACTIVATE (R361): in QUARANTINE a recovery command of ADMIN and VENDOR sessions. The active
module of a formed pair first hands the role over (R390). -/
def cmdUpdActivate (r : CmdReq) (c : Chip) : Chip × Ans :=
  let role := c.roleNo r.m.val
  let slot := c.upd.slot c.stagedSlot
  let staged := slot.st == fwSTAGED
  let legal := staged && slot.legal != c.runImg.legal
  if c.sys.changeover ∨ c.retired ∨ c.onTrial then (c, { st := stMODE })
  else if role < 3 ∨ (legal ∧ role ≠ roleMETROLOGIST) then (c, { st := stDENIED })
  else if legal ∧ !c.tamper.lsw then (c, { st := stSEAL })
  else if !staged then (c, { st := stSTALE })
  else if c.power.onAux ∨ c.power.holdupChg ∨ c.power.holdupWeak
      ∨ (c.pair.formed ∧ (c.pair.pMode = 5 ∨ c.pair.pTrial)) then (c, { st := stBUSY })
  else c.long r.m.val 0x1103 0 (fun t c =>
    if c.pair.formed && c.pair.role == 1 then
      (c.modPair (fun p => { p with switchUpd := true })).modUpd (fun u => { u with coTicket := t })
    else c.startChangeover t)

/-- A revert (R364, R367): the trial slot is given up, and the previous one boots by a changeover
of its own, step 3 of which records FW_UPDATE. -/
def Chip.revert (why : BitVec 3) (c : Chip) : Chip :=
  let n := c.upd.bootSlot
  let c := (c.giveUpTrial n why).modUpd (fun u => { u with coRevert := true, coAt := c.now })
  (c.tamperInst 14 0xFF c.now 0 []).changeoverStop 6

/-- UPD_REVERT (R367). -/
def cmdUpdRevert (r : CmdReq) (c : Chip) : Chip × Ans :=
  if c.sys.changeover ∨ !c.onTrial then (c, { st := stMODE })
  else c.long r.m.val 0x1104 0 (fun t c => (c.modUpd (fun u => { u with coTicket := t })).revert 5)

/-- The trial watchdog expires (R367). -/
def Chip.trialWatchdog (c : Chip) : Chip :=
  if c.sys.changeover ∨ !c.onTrial ∨ !c.rdy rSV then c
  else (c.modUpd (fun u => { u with coTicket := 0 })).revert 1

/-- The changeover watchdog expires (R364): the previous image boots. A revert has no watchdog of
its own. -/
def Chip.changeoverWatchdog (c : Chip) : Chip :=
  if c.sys.changeover ∧ !c.upd.coRevert then c.revert 2 else c

/-- SV starts within a changeover (R362 step 4, R423). -/
def Chip.changeoverBoot (c : Chip) : Chip :=
  if !c.sys.changeover || c.rdy rSV || c.power.saving then c
  else
    let named := c.upd.bootSlot
    let c := c.bootSelect (c.sys.cause == 5 || c.sys.cause == 6)
    (c.svUp).modUpd (fun u =>
      { u with coStep := 4, trialFrom := c.now, coRevert := u.coRevert || u.bootSlot != named })

/-- The engines whose checkpoints stand in the handover area. -/
def Chip.handedOver (c : Chip) : List Nat := c.upd.handover.map Prod.fst

/-- CHANGEOVER ends (R362 step 6). -/
def Chip.changeoverEnd (c : Chip) : Chip :=
  let u := c.upd
  let c := c.modSys (fun s => { s with changeover := false })
  let ok := !u.coRevert || u.lastFail == 5
  let c := c.modUpd (fun u =>
    { u with coStep := 0, coTicket := 0, coRevert := false, handover := [], fwRecPend := true, gated := 0 })
  (c.complete u.coTicket (if ok then stOK else stINTEGRITY) c.runImg.ver).bayResume

/-- SV reloads the engines, and once each has caught up the changeover ends (R362 steps 5 and 6). -/
def Chip.changeoverResume (c : Chip) : Chip :=
  if !c.sys.changeover || !c.rdy rSV then c
  else
    let c := if c.upd.coStep = 4 then
        (each c.handedOver (fun k c => c.reloadDone k) c).modUpd (fun u => { u with coStep := 5 })
      else c
    if c.handedOver.any (fun k => (c.eng k).run == ruRESTART) then c else c.changeoverEnd

/-- The share of engine k in the bridge buffer is full (R363). -/
def Chip.bridgeOverflow (k : Nat) (c : Chip) : Chip :=
  let g := c.group k
  if g.bridgeOn ∧ g.bridgeLost.isNone ∧ 98304 ≤ g.bridge then
    (c.modGroup k (fun g => { g with bridgeLost := some (g.newest + c.gridD k) })).raise 0x1107 k
      (w32 c.upd.lastFail.toNat) 0
  else c

/-- The criteria of UPD_HEALTH: SETTINGS, ENGINES, GATES, NET from bit 0 (R367). -/
def Chip.health (c : Chip) : Nat :=
  let engs := engs8.all (fun k => !c.engEn k || c.rdy (rQE k)) && (!c.cb 0xC0000 31 || c.rdy rBAY)
  let gates := c.running.all (fun k => c.upd.gated.getLsbD k)
  let net := c.netPorts.all (fun p => c.net.links.getLsbD p)
  b2n c.cfg.loaded + 2 * b2n engs + 4 * b2n gates + 8 * b2n net

/-- Platform firmware confirms a trial (R367, R365). -/
def Chip.healthWrite (c : Chip) : Chip :=
  if !c.onTrial || c.sys.changeover || !c.rdy rSV || c.health != 15 then c
  else
    let n := c.upd.runSlot == 1
    let x := c.runImg
    let c := c.modFw n (fun x => { x with st := fwCONFIRMED })
    let c := c.modUpd (fun u =>
      { u with roll := x.anti, sfVer := x.sfVer, healthOk := true, phase := 0, fellBack := false })
    (c.modCfg (fun y => { y with trialChanged := 0 })).raise 0x1103 (b2n n) 0 0

/-- SV is reset by its watchdog (2) or by a lockstep mismatch (3) (R380). -/
def Chip.svReset (cause : Nat) (c : Chip) : Chip := if c.power.saving then c else c.svDown cause

/-- SV leaves reset (R423). -/
def Chip.svExit (c : Chip) : Chip :=
  if c.rdy rSV || c.power.saving then c
  else if c.sys.changeover then c.changeoverBoot
  else (c.bootSelect false).svUp

end Sys2Proof.Machine
end

