-- ==== Sys2Proof/Machine/Checks.lean ====
section
/-! DEFINITION. The consistency rules of the configuration groups (R39 step 9). A rule answers the
addresses that fail it; the first failing rule of a group's list gives CFG_FAIL. Rules read the group
under commit through a reader of its shadow, every other group from the live configuration. -/

namespace Sys2Proof.Machine

open Sys2Proof

/-- The configuration a commit of group g is checked against: its shadow, else live. -/
def Chip.cand (c : Chip) (g a : Nat) : W32 := if inGroup g a then c.shadow a else c.live a

/-- Elements of 0 to n - 1 for which a rule fails, as addresses. -/
def failing (n : Nat) (adr : Nat → Nat) (bad : Nat → Bool) : List Nat :=
  ((List.range n).filter bad).map adr

/-- A number lies outside lo to hi. -/
def outside (lo hi n : Nat) : Bool := decide (n < lo) || decide (hi < n)

/-- CG0: HU_HOUR names an hour (R212). -/
def checkCg0 (rd : Nat → W32) : List Nat := if 23 < fld (rd 0x110) 0 5 then [0x110] else []

/-- Mode code of an even and an odd tap that form a pair (R51). -/
def pairMode (m : Nat) : Bool := m == mRTD || m == mBRIDGE

/-- Taps a live meter point uses (CG3). -/
def Chip.usedTap (c : Chip) (n : Nat) : Bool :=
  (List.range 64).any (fun m => c.mpEn m && (c.mpTaps m).contains n)

/-- Cycle budget of a group at a RATE (R89): a quarter of the sample period. -/
def budget (rate : Nat) : Nat := 50000 / 2 ^ rate

/-- The image engine k runs, where CG2 enables one that is installed. -/
def imgIn (c : Chip) (rd : Nat → W32) (k : Nat) : Option TallyImg :=
  let w := rd (aGate k)
  let i := fld w 16 8
  if w.getLsbD 31 && decide (i < 32) && (c.img i).installed then some (c.img i) else none

/-- Tap pairs, RDC, templates (R71 items 1-3); a reserved mode code fails with them. -/
def checkCg1Modes (c : Chip) (rd : Nat → W32) : List Nat :=
  let md := modeIn rd
  failing 128 aTapMode (fun n => decide (8 < md n))
  ++ failing 128 aTapMode (fun n =>
      let p := if n % 2 = 0 then n + 1 else n - 1
      pairMode (md n) && md p != md n)
  ++ failing 128 aTapMode (fun n => md n == mRDC && decide (n < 124))
  ++ failing 4 (fun k => aTapMode (124 + k)) (fun k => c.tmpl k == 7 && md (124 + k) != mRDC)

/-- The odd tap of a pair, which item 6 of R71 exempts. -/
def oddPair (md : Nat → Nat) (n : Nat) : Bool := pairMode (md n) && n % 2 == 1

/-- GAIN, LOOP_PWR, PT1000, ZC_TMO, CMP_TOL, REF_PERIOD (R71 items 4-6). -/
def checkCg1Fields (rd : Nat → W32) : List Nat :=
  let md := modeIn rd
  failing 128 aTapMode (fun n =>
    let g := fld (rd (aTapMode n)) 8 2
    (g != 0 && md n != mCURR && md n != mROGO) || g == 3 || (g == 2 && md n == mROGO))
  ++ failing 128 aTapMode (fun n =>
      ((rd (aTapMode n)).getLsbD 4 && md n != mLOOP) || ((rd (aTapMode n)).getLsbD 10 && md n != mRTD))
  ++ failing 128 aTapMode (fun n => (rd (aTapMode n)).getLsbD 5 && !oddPair md n
      && outside 10 200 (fld (rd (aTapMode n)) 16 8))
  ++ failing 8 (fun k => 0x40000 + 4 * k) (fun k => outside 15 200 (fld (rd (0x40000 + 4 * k)) 8 8))
  ++ failing 1 (fun _ => 0x40020) (fun _ => outside 10 3600 (fld (rd 0x40020) 0 12))

/-- A field gain lies outside 0.9-1.1 in Q2.30 (R70). -/
def badGain (w : W32) : Bool := decide (10 * w.toNat < 9 * 2 ^ 30) || decide (11 * 2 ^ 30 < 10 * w.toNat)

/-- An offset lies outside 0.50 % of a range of 2^b (R70). -/
def badOfs (b : Nat) (w : W32) : Bool := decide (2 ^ b < 200 * w.toInt.natAbs)

/-- Calibration (R70), OFF taps in use, and the rates the loaded programs allow (R71, R89). -/
def checkCg1Cal (c : Chip) (rd : Nat → W32) : List Nat :=
  failing 128 aCal (fun n => badGain (rd (aCal n)))
  ++ failing 128 (fun n => aCal n + 4) (fun n => badOfs 23 (rd (aCal n + 4)))
  ++ failing 128 (fun n => aCal n + 8) (fun n => badGain (rd (aCal n + 8)))
  ++ failing 128 (fun n => aCal n + 12) (fun n => badOfs 15 (rd (aCal n + 12)))
  ++ failing 128 (fun n => aCal n + 16) (fun n =>
      decide (10000 < (BitVec.ofNat 16 (fld (rd (aCal n + 16)) 0 16)).toInt.natAbs))
  ++ failing 128 aTapMode (fun n => modeIn rd n == mOFF && c.usedTap n)
  ++ failing 8 (fun k => 0x40000 + 4 * k) (fun k =>
      match imgIn c c.live k with
      | some x => decide (budget (fld (rd (0x40000 + 4 * k)) 0 2) < x.w)
      | none => false)

/-- CG1 (R71). -/
def checkCg1 (c : Chip) (rd : Nat → W32) : List Nat :=
  checkCg1Modes c rd ++ checkCg1Fields rd ++ checkCg1Cal c rd

/-- The used roles of a meter point: role and tap. -/
def rolesIn (rd : Nat → W32) (m : Nat) : List (Nat × Nat) :=
  (List.range 8).filterMap (fun r =>
    let b := fld (rd (aMp m + 4 + 4 * (r / 4))) (8 * (r % 4)) 8
    if 128 ≤ b then some (r, b % 128) else none)

/-- The defined slots of a meter point. -/
def slotsIn (rd : Nat → W32) (m : Nat) : List Nat :=
  (List.range 8).filter (fun s => (rd (aMp m + 0x80 + 4 * s)).getLsbD 31)

/-- The defined meter points. -/
def mpsIn (rd : Nat → W32) : List Nat := (List.range 64).filter (fun m => (rd (aMp m)).getLsbD 31)

/-- The addresses of a meter point that break R132 against an image. -/
def imgMp (c : Chip) (x : TallyImg) (rd : Nat → W32) (m : Nat) : List Nat :=
  let kind := fld (rd (aMp m)) 0 8
  let dir := (rd (aMp m)).getLsbD 30
  match x.kinds.findIdx? (fun v => v == kind && v != 0) with
  | none => [aMp m]
  | some j =>
    ((rolesIn rd m).filter (fun p =>
      let mask := x.roles.getD (8 * j + p.1) 0
      !(mask.testBit (modeIn c.live p.2)))).map (fun p => aMp m + 4 + 4 * (p.1 / 4))
    ++ (if x.reqDir.getLsbD j && !dir then [aMp m] else [])
    ++ (if dir && !x.reqDir.getLsbD j && !x.optDir.getLsbD j then [aMp m] else [])
    ++ ((slotsIn rd m).filter (fun s => !((x.slots.getD j 0).testBit s))).map
        (fun s => aMp m + 0x80 + 4 * s)

/-- The addresses of a group that break R132 against an image. -/
def imgGroup (c : Chip) (x : TallyImg) (rd : Nat → W32) (k : Nat) : List Nat :=
  let ms := (List.range 64).filter (mpOn rd k)
  ms.flatMap (imgMp c x rd) ++ (ms.drop x.maxpts).map aMp

/-- CG2 (R90, R89, R132). -/
def checkCg2 (c : Chip) (rd : Nat → W32) : List Nat :=
  let en := fun k => (rd (aGate k)).getLsbD 31
  failing 8 aGate (fun k => fld (rd (aGate k)) 0 2 == 3)
  ++ failing 8 aGate (fun k => en k && (imgIn c rd k).isNone)
  ++ failing 8 aGate (fun k => (imgIn c rd k).any (fun x => decide (budget (c.cf (0x40000 + 4 * k) 0 2) < x.w)))
  ++ failing 8 aGate (fun k => (imgIn c rd k).any (fun x => decide (113 < x.foot) && !(rd (aGate k)).getLsbD 30))
  ++ failing 8 aGate (fun k => !en k && !(c.engMps k).isEmpty)
  ++ failing 8 aGate (fun k => (imgIn c rd k).any (fun x => !(imgGroup c x c.live k).isEmpty))

/-- The roles of a meter point that break R159 item 1: none used, a tap of a second group, or one that is
OFF. -/
def mpTapsBad (c : Chip) (rd : Nat → W32) (m : Nat) : List Nat :=
  match rolesIn rd m with
  | [] => [aMp m + 4]
  | p :: t => ((p :: t).filter (fun q => q.2 / 16 != p.2 / 16 || modeIn c.live q.2 == mOFF)).map
      (fun q => aMp m + 4 + 4 * (q.1 / 4))

/-- The full-scale rate of a slot in units of 2^-1074 base units per second. -/
def fsIn (rd : Nat → W32) (m s : Nat) : Int := fFix (f64OfF32 (rd (aMp m + 0xA0 + 4 * s)))

/-- FS / (q * n) exceeds a limit (R137, R156): FS in units of 2^-1074, q = F * 10^e. -/
def fsAbove (fs : Int) (f : Nat) (e : Int) (num den : Nat) : Bool :=
  decide ((num * f * 10 ^ e.toNat * 2 ^ 1074 : Nat) < fs * (den * 10 ^ (-e).toNat : Nat))

/-- A slot's unit, exponent (R136) and full-scale rate (R137). -/
def slotBad (rd : Nat → W32) (m s : Nat) : List Nat :=
  let a := aMp m + 0x80 + 4 * s
  let w := rd a
  match unitF (fld w 0 8) with
  | none => [a]
  | some f =>
    let e := slotExp w
    if e < -6 ∨ 3 < e then [a]
    else
      let fs := fsIn rd m s
      let ok := fFinite (f64OfF32 (rd (aMp m + 0xA0 + 4 * s))) && decide (0 < fs)
      let lim := if w.getLsbD 30 then 31300000000000000000 else 62700000000000000000
      if !ok || fsAbove fs f e lim 1 then [aMp m + 0xA0 + 4 * s] else []

/-- AIRD of dry air at reference conditions: 1 ISO 1217, 2 DIN 1343 (R144). -/
def refDensity (r : Nat) : W64 :=
  if r = 1 then Config.air 1 (f64OfRat 1 10) (f64OfRat 29315 100) 0
  else Config.air 1 (f64OfRat 101325 1000000) (f64OfRat 27315 100) 0

/-- The reference conditions of a meter point (R144). -/
def refBad (rd : Nat → W32) (m : Nat) : List Nat :=
  let w := rd (aMp m)
  let r := fld w 28 2
  let unit := fun s => fld (rd (aMp m + 0x80 + 4 * s)) 0 8
  if fld w 0 8 = 6 then
    let p := fFix (two rd (aMp m + 0x20 + 72))
    let q := fFix (refDensity r)
    if r = 0 ∨ r = 3 then [aMp m]
    else if !fFinite (two rd (aMp m + 0x20 + 72)) || decide (q.natAbs < 1000000000 * (p - q).natAbs) then
      [aMp m + 0x20 + 72]
    else if unit 0 ≠ 9 then [aMp m + 0x80] else []
  else
    (if r ≠ 0 then [aMp m] else [])
    ++ ((slotsIn rd m).filter (fun s => unit s == 9)).map (fun s => aMp m + 0x80 + 4 * s)

/-- The RATE factor of a meter point's group: samples per ms. -/
def perMs (c : Chip) (rd : Nat → W32) (m : Nat) : Nat :=
  4 * 2 ^ c.cf (0x40000 + 4 * (((rolesIn rd m).map Prod.snd).headD 0 / 16)) 0 2

/-- A binary64 that is not finite and positive. -/
def notPos (x : W64) : Bool := !fFinite x || decide (fFix x ≤ 0)

/-- The direction-unit fields (R153). -/
def dirBad (c : Chip) (rd : Nat → W32) (m : Nat) : List Nat :=
  let w := rd (aMp m + 0x0C)
  let cut := two rd (aMp m + 0x10)
  let band := two rd (aMp m + 0x18)
  if !(rd (aMp m)).getLsbD 30 then []
  else if outside 1 1024 (fld w 0 12) || outside 1 50 (fld w 24 7)
      || outside 1 3072 (fld w 12 12 * perMs c rd m) then [aMp m + 0x0C]
  else if notPos cut then [aMp m + 0x10]
  else if notPos band then [aMp m + 0x18]
  else if w.getLsbD 31 && decide (100 * fFix band < fFix cut * (100 + fld w 24 7 : Nat)) then [aMp m + 0x18]
  else []

/-- The output a spill word names: PO outputs 0-7, drives from 64. -/
def spillOut (w : W32) : Nat := fld w 0 6 + 64 * b2n (w.getLsbD 7)

/-- The enabled spill slots, in ascending order. -/
def spillsIn (rd : Nat → W32) : List (Nat × Nat) :=
  (mpsIn rd).flatMap (fun m =>
    ((List.range 8).filter (fun s => (rd (aMp m + 0xC0 + 8 * s)).getLsbD 31)).map (fun s => (m, s)))

/-- The spill fields of a slot (R154, R156). -/
def spillBad (c : Chip) (rd : Nat → W32) (m s : Nat) : Bool :=
  let w := rd (aMp m + 0xC0 + 8 * s)
  let sl := rd (aMp m + 0x80 + 4 * s)
  let drv := w.getLsbD 7
  let out := fld w 0 6
  let lo := if drv then 10 else 30
  let wt := (rd (aMp m + 0xC4 + 8 * s)).toNat
  let on := fld w 16 8
  let off := fld w 8 8
  let dir := fld w 28 2
  dir == 3 || (!w.getLsbD 30 && (sl.getLsbD 30 != (dir == 2)))
    || (if drv then decide (39 < out) || c.cf (aDcfg out) 30 2 != 3 else decide (7 < out))
    || outside lo 250 on || outside lo 250 off || wt == 0
    || (match unitF (fld sl 0 8) with
        | some f => fsAbove (fsIn rd m s) f (slotExp sl) (1000 * wt) (on + off)
        | none => false)

/-- The spill slots that fail: by their own fields, or for an output an earlier slot names. -/
def spillsBad (c : Chip) (rd : Nat → W32) : List Nat :=
  let l := spillsIn rd
  ((l.zipIdx.filter (fun p =>
    spillBad c rd p.1.1 p.1.2 ||
    (l.take p.2).any (fun q => spillOut (rd (aMp q.1 + 0xC0 + 8 * q.2))
      == spillOut (rd (aMp p.1.1 + 0xC0 + 8 * p.1.2))))).map
    (fun p => aMp p.1.1 + 0xC0 + 8 * p.1.2))

/-- A quality binding (R159 item 5). -/
def qualBad (c : Chip) (rd : Nat → W32) (m : Nat) : List Nat :=
  let a := rd (0x56000 + 8 * m)
  let b := rd (0x56004 + 8 * m)
  let tmo := fld b 0 10
  if !a.getLsbD 31 then []
  else if !(rd (0x56200 + 4 * b2n (a.getLsbD 30))).getLsbD 31 || decide (11 < fld a 24 4)
      || outside 1 247 (fld a 16 8) then [0x56000 + 8 * m]
  else if outside 1 3600 (fld b 12 12) || fld b 24 4 == 0 || decide (tmo < 10)
      || decide (3072 < tmo * perMs c rd m) then [0x56004 + 8 * m]
  else []

/-- A Modbus port that is enabled with a reserved field (07). -/
def portBad (rd : Nat → W32) (p : Nat) : Bool :=
  let w := rd (0x56200 + 4 * p)
  w.getLsbD 31 && (fld w 4 2 == 3 || decide (4 < fld w 0 3))

/-- CG3 (R132, R159). Two bindings never read one meter point: each has its own registers. -/
def checkCg3 (c : Chip) (rd : Nat → W32) : List Nat :=
  let ms := mpsIn rd
  engs8.flatMap (fun k => match imgIn c c.live k with
    | some x => imgGroup c x rd k
    | none => [])
  ++ ms.flatMap (mpTapsBad c rd)
  ++ ms.flatMap (fun m => (slotsIn rd m).flatMap (slotBad rd m))
  ++ ms.flatMap (refBad rd)
  ++ ms.flatMap (dirBad c rd)
  ++ spillsBad c rd
  ++ ms.flatMap (qualBad c rd)
  ++ failing 2 (fun p => 0x56200 + 4 * p) (portBad rd)

/-- The nine interval lengths (R171). -/
def lens9 : List Nat := [1, 2, 3, 5, 10, 15, 20, 30, 60]

/-- The close schedule (R192 item 3). -/
def closeBad (w : W32) (len : Nat) : Bool :=
  let day := fld w 16 5
  w.getLsbD 31 &&
  ((match fld w 28 2 with
    | 0 => outside 1 28 day
    | 1 => outside 1 7 day
    | 2 => day != 0
    | _ => true)
   || decide (23 < fld w 8 5) || decide (59 < fld w 0 6) || fld w 0 6 % len != 0)

/-- CG4 (R192). -/
def checkCg4 (c : Chip) (rd : Nat → W32) : List Nat :=
  let d := rd 0x60000
  let len := fld d 0 6
  let subs := fld d 8 4
  let cost := rd 0x60008
  (if !lens9.contains len then [0x60000] else [])
  ++ (if d.getLsbD 30 && (subs == 0 || len * 60 % subs != 0) then [0x60000] else [])
  ++ (if closeBad (rd 0x60004) len then [0x60004] else [])
  ++ (if cost.getLsbD 31 && outside 1 999 (fld cost 0 10) then [0x60008] else [])
  ++ failing 128 (fun i => 0x60100 + 4 * i) (fun i => (List.range 4).any (fun j =>
      (rd (0x60100 + 4 * i)).getLsbD (8 * j + 7) && !c.slotDef (i / 2) (4 * (i % 2) + j)))
  ++ failing 256 (fun j => 0x60400 + 4 * j) (fun j =>
      let w := rd (0x60400 + 4 * j)
      w.getLsbD 31 && (decide (8 < fld w 16 4) || !c.identOk (fld w 0 16)))

/-- Drive n has an enabled entry in DRV_LIMP_MAP. -/
def limpIn (rd : Nat → W32) (n : Nat) : Bool :=
  decide (n < 40) && (rd (0xD0040 + 4 * (n / 8))).getLsbD (4 * (n % 8) + 3)

/-- A live spill slot of CG3 drives drive n. -/
def Chip.spillUses (c : Chip) (n : Nat) : Bool :=
  (spillsIn c.live).any (fun p => spillDrive (c.live (aMp p.1 + 0xC0 + 8 * p.2)) == some n)

/-- A standard drive has a fail state other than OFF. -/
def failsOn (rd : Nat → W32) : Bool := (List.range 40).any (fun n => fld (rd (aDcfg n)) 28 2 != 0)

/-- CG5 (R284, R392). -/
def checkCg5 (c : Chip) (rd : Nat → W32) : List Nat :=
  let own := fun n => fld (rd (aDcfg n)) 30 2
  let fs := fun n => fld (rd (aDcfg n)) 28 2
  let b := fun n i => (rd (aDcfg n)).getLsbD i
  (if outside 1 1000 (fld (rd 0xD0010) 0 10) then [0xD0010] else [])
  ++ failing 48 aDcfg (fun n => fs n == 3 || (decide (40 ≤ n) && fs n != 0))
  ++ failing 48 aDcfg (fun n => (fs n == 2) != limpIn rd n)
  ++ failing 40 aDcfg (fun n => b n 25 && outside 1 60 (fld (rd (aDcfg n)) 8 6))
  ++ failing 48 aDcfg (fun n => own n == 3 && (decide (40 ≤ n) || b n 25))
  ++ failing 48 aDcfg (fun n => decide (40 ≤ n) && b n 26)
  ++ failing 48 aDcfg (fun n =>
      (c.cf (aDcfg n) 30 2 == 1 && own n != 1 && c.inTripMap n)
      || (c.cf (aDcfg n) 30 2 == 3 && own n != 3 && c.spillUses n))
  ++ failing 40 aDcfg (fun n => c.cb 0x130000 31 && fs n != 0)

/-- CG6 (R267). -/
def checkCg6 (c : Chip) (rd : Nat → W32) : List Nat :=
  let w := rd 0xC0000
  let t := rd 0xC000C
  let can := fun p => rd (0xC0020 + 4 * p)
  let node := fun p => fld (can p) 0 8
  let onBay := fun n => c.cf (aDcfg n) 30 2 == 1
  (if w.getLsbD 31 && !(c.bayImg (fld w 0 2)).installed then [0xC0000] else [])
  ++ (if (w.getLsbD 28 || w.getLsbD 26) && !w.getLsbD 30 then [0xC0000] else [])
  ++ (if w.getLsbD 28 && !c.mpEn (fld w 16 6) then [0xC0000] else [])
  ++ (if (List.range 32).any (fun n => (rd 0xC0004).getLsbD n && !onBay n) then [0xC0004] else [])
  ++ (if (List.range 16).any (fun n => (rd 0xC0008).getLsbD n && !onBay (32 + n)) then [0xC0008] else [])
  ++ (if (w.getLsbD 27 || t.getLsbD 31) && outside 50 1500 (fld t 4 11) then [0xC000C] else [])
  ++ failing 2 (fun p => 0xC0020 + 4 * p) (fun p => (can p).getLsbD 31 && outside 1 15 (node p))
  ++ (if (can 0).getLsbD 31 && (can 1).getLsbD 31 && node 0 == node 1 then [0xC0024] else [])

/-- A slot holds a key of class TAGMASTER whose destinations name LK (R332). -/
def Chip.tagKey (c : Chip) (i : Nat) : Bool :=
  !(c.kslot i).empty && c.slotCls i == 4 && (c.kslot i).half.dest.getLsbD 1

/-- CG7 (R332). LINK_KEYSEL holds the slots of PLATE1, PLATE2, CROSS and BADGE. -/
def checkCg7 (c : Chip) (rd : Nat → W32) : List Nat :=
  let w := rd 0xF0000
  let k := rd 0xF0004
  let slot := fun i => fld k (8 * i) 6
  (if outside 50 1000 (fld w 0 10) || outside 1 255 (fld w 12 8) then [0xF0000] else [])
  ++ (if (w.getLsbD 28 && !w.getLsbD 30) || (w.getLsbD 27 && !w.getLsbD 29) then [0xF0000] else [])
  ++ (if !c.tagKey (slot 1) || !c.tagKey (slot 0)
      || (w.getLsbD 27 && !c.tagKey (slot 2)) || (w.getLsbD 28 && !c.tagKey (slot 3))
      then [0xF0004] else [])

/-- The 260 bytes that SF authenticates (R307): the connection entries, then NET_ESC_CTL. -/
def escBytes (rd : Nat → W32) : List W8 :=
  ((List.range 64).map (fun i => rd (0x128000 + 4 * i)) ++ [rd 0x128100]).flatMap wordBytes

/-- The check of NET_ESC_MAC under the SAFE key of KEY_SLOT (R307), which SC gives to SF alone (R338). -/
def escMacOk (c : Chip) (rd : Nat → W32) : Bool :=
  let i := fld (rd 0x128100) 0 6
  c.rdy rKEYS && c.slotUsable i && c.slotCls i == 6 && (c.kslot i).half.dest.getLsbD 3 &&
  ((List.range 8).flatMap (fun j => wordBytes (rd (0x128120 + 4 * j)))
    == digBytes (Config.hmac (c.kslot i).half.mat (escBytes rd)))

/-- CG8 (R307, R308). -/
def checkCg8 (c : Chip) (rd : Nat → W32) : List Nat :=
  let a := fun i => rd (0x128000 + 0x10 * i)
  let id := fun i => rd (0x128004 + 0x10 * i)
  let en := fun i => (a i).getLsbD 31
  let adr := fun i => 0x128000 + 0x10 * i
  let tr := fun i => fld (a i) 28 2
  (if escMacOk c rd then [] else [0x128120])
  ++ failing 16 adr (fun i => en i && outside 5 1000 (fld (a i) 0 10))
  ++ failing 16 (fun i => adr i + 4) (fun i => en i && fld (id i) 14 18 == 0)
  ++ failing 16 (fun i => adr i + 4) (fun i => en i && outside 1 4 (fld (id i) 0 6))
  ++ failing 16 (fun i => adr i + 4) (fun i => en i && (List.range i).any (fun j => en j && id j == id i))
  ++ failing 16 adr (fun i => en i && tr i == 3 && !c.sys.te)
  ++ failing 16 adr (fun i => en i && tr i == 2 && !c.cb (0xC0020 + 4 * fld (a i) 27 1) 31)

/-- The ITEM of a display entry is valid for its object (R234). -/
def itemOk (c : Chip) (obj item : Nat) : Bool :=
  match obj with
  | 1 => c.identOk item
  | 2 => c.identOk item
  | 3 => c.identOk item
  | 5 => c.identOk item
  | 6 => decide (item < 32)
  | 7 => evtCodes.contains item
  | _ => true

/-- CG9 (R234). -/
def checkCg9 (c : Chip) (rd : Nat → W32) : List Nat :=
  failing 64 (fun i => 0xB0100 + 8 * i) (fun i =>
    let w := rd (0xB0100 + 8 * i)
    w.getLsbD 31 && (outside 1 30 (fld w 24 6) || outside 1 9 (fld w 20 4) || decide (6 < fld w 16 4)
      || !itemOk c (fld w 20 4) (fld w 0 16)))
  ++ failing 64 (fun i => 0xB0104 + 8 * i) (fun i =>
      (rd (0xB0100 + 8 * i)).getLsbD 31 && decide (36 < fld (rd (0xB0104 + 8 * i)) 0 6))
  ++ (if outside 1 30 (fld (rd 0xB0000) 0 5) then [0xB0000] else [])

/-- A daylight-saving change date (R202). -/
def dstBad (w : W32) : Bool :=
  outside 1 12 (fld w 24 4) || outside 1 5 (fld w 16 3) || outside 1 7 (fld w 8 3) || decide (23 < fld w 0 5)

/-- CG10 (R202). -/
def checkCg10 (rd : Nat → W32) : List Nat :=
  let z := rd 0x80004
  let ofs := (BitVec.ofNat 8 (fld z 8 8)).toInt
  let t := rd 0x80000
  (if ofs < -48 ∨ 56 < ofs then [0x80004] else [])
  ++ (if !z.getLsbD 31 then [] else
      (if outside 1 4 (fld z 0 3) then [0x80004] else [])
      ++ (if dstBad (rd 0x80008) then [0x80008] else [])
      ++ (if dstBad (rd 0x8000C) then [0x8000C] else [])
      ++ (if fld (rd 0x80008) 24 4 = fld (rd 0x8000C) 24 4 then [0x80008] else []))
  ++ (if t.getLsbD 31 && decide (127 < fld t 16 8) then [0x80000] else [])
  ++ (if outside 50 500 (fld t 0 9) then [0x80000] else [])

/-- CG11 (R392); on a YX-128-SE the group is without effect (R3). -/
def checkCg11 (c : Chip) (rd : Nat → W32) : List Nat :=
  let w := rd 0x130000
  if !c.sys.te then [] else
  (if w.getLsbD 31 && c.postNo == 0 then [0x130000] else [])
  ++ (if w.getLsbD 29 && rd 0x130004 == 0 then [0x130004] else [])
  ++ (if outside 1 100 (fld w 0 7) then [0x130000] else [])
  ++ (if w.getLsbD 31 && failsOn c.live then [0x130000] else [])

/-- The addresses of group g that fail its consistency check, in the order of its rules. -/
def Chip.checkGroup (c : Chip) (g : Nat) : List Nat :=
  let rd := c.cand g
  match g with
  | 0 => checkCg0 rd
  | 1 => checkCg1 c rd
  | 2 => checkCg2 c rd
  | 3 => checkCg3 c rd
  | 4 => checkCg4 c rd
  | 5 => checkCg5 c rd
  | 6 => checkCg6 c rd
  | 7 => checkCg7 c rd
  | 8 => checkCg8 c rd
  | 9 => checkCg9 c rd
  | 10 => checkCg10 rd
  | 11 => checkCg11 c rd
  | _ => []

end Sys2Proof.Machine
end

