-- ==== Sys2Proof/Machine/Time.lean ====
section
/-! DEFINITION. The civil-time mapping (R195), slews and steps (R197, R198), PTP (R196), the leap
second (R199), the AO counter's rate (R194) and CG10 (R201). -/

namespace Sys2Proof.Machine

open Sys2Proof

/-- The slew still to apply, in ns, at an instant (TIME_SLEW_REM, R197). -/
def Time.slewLeft (six : Nat) (t : Time) : Int :=
  match t.pieces with
  | [] => 0
  | p :: _ =>
    if t.slewRem = 0 then 0
    else t.slewRem - ((six - p.six : Nat) : Int) * 31250 * (p.rate - t.tcxo) / 1000000000000

/-- Starts a slew of an offset in ns (R197): it replaces the remaining one. -/
def Chip.slewTo (d : Int) (c : Chip) : Chip :=
  let ppm : Int := (c.cf 0x80000 0 9 : Nat)
  let a := if d = 0 then c.time.tcxo else clampRate (c.time.tcxo + (if 0 < d then ppm else -ppm) * 1000000)
  (c.modTime (fun t => { t.piece c.pieceStart 0 a with slewRem := d, leapPending := false })).replace

/-- A source sets the time: SRC_STATE reads host set where PTP is not the source. -/
def Chip.hostSet (c : Chip) : Chip :=
  c.when (!c.cb 0x80000 31) (Chip.modTime (fun t => { t with srcState := 4 }))

/-- Payload of a CLOCK record (R230): 1 step or 2 slew, then the signed size in ns. -/
def clockPayload (kind : Nat) (d : Int) : List W8 :=
  leBytes 8 kind ++ leBytes 8 (BitVec.ofInt 64 d).toNat

/-- TIME_ADJUST (R197). -/
def cmdTimeAdjust (r : CmdReq) (c : Chip) : Chip × Ans :=
  let us := r.a0.toInt
  if us < -1000000 ∨ 1000000 < us then (c, { st := stRANGE })
  else if c.time.srcState = 3 then (c, { st := stLOCKED })
  else if us = 0 then (c, { st := stOK })
  else ((c.slewTo (us * 1000)).hostSet, { st := stOK })

/-- Schedules a step (R198): a CMD event for every engine. -/
def Chip.planStep (ofs : Int) (t : W16) (c : Chip) : Chip :=
  let s := c.stampAfter 1
  (c.toEngines { stamp := s, src := 3, change := .clockStep }).modTime (fun x =>
    { x with step := some { stamp := s, ofs := ofs, ticket := t } })

/-- The offset TIME_SET asks for: its value minus civil time at receipt, in ns. -/
def Chip.setOffset (c : Chip) (r : CmdReq) : Int :=
  (r.a0.toNat : Int) * nsS + fld r.a1 0 30 - c.civil c.now

/-- TIME_SET steps (R198, R200): above 1 s, and always while TIME_VALID is clear. -/
def Chip.stepSet (c : Chip) (d : Int) : Bool := !c.time.valid || decide (nsS < d) || decide (d < -nsS)

/-- The role TIME_SET needs: METROLOGIST for a step back larger than the demand interval (R189), else ADMIN. -/
def Chip.mayTimeSet (c : Chip) (r : CmdReq) : Bool :=
  let role := c.roleNo r.m.val
  let d := c.setOffset r
  let big := c.stepSet d && decide (d < -((fld c.demandCfg 0 6 * 60 : Nat) : Int) * nsS)
  if big then role == roleMETROLOGIST else role == roleADMIN || role == roleVENDOR

/-- TIME_SET (R198, R200, R189). A second step while one is pending answers BUSY (log 64). -/
def cmdTimeSet (r : CmdReq) (c : Chip) : Chip × Ans :=
  let ns := fld r.a1 0 30
  let d := c.setOffset r
  let step := c.stepSet d
  if 1000000000 ≤ ns then (c, { st := stRANGE })
  else if c.time.srcState = 3 ∧ c.time.valid then (c, { st := stLOCKED })
  else if !step then
    (((c.slewTo d).hostSet).stage 0x0C 0 c.now (clockPayload 2 d), { st := stOK })
  else if c.time.step.isSome then (c, { st := stBUSY })
  else c.long r.m.val 0x0802 0 (fun t c => (c.planStep d t).hostSet)

/-- The demand boundaries up to a civil instant that have not executed: the first, which ends the open
interval, and the last, whose number the interval then open has; those between hold no instants (R190). -/
def Chip.missedDemand (c : Chip) (base upTo : Int) : List Int :=
  let d0 := c.execBase 0 base
  let st : Int := (max 1 (stepSec c.demandCfg) : Nat)
  let last := ((upTo / nsS + c.zoning.std) / st * st - c.zoning.std) * nsS
  let first := c.nextBoundary c.demandCfg d0
  if upTo < first then [] else if first = last then [first] else [first, last]

/-- The boundaries up to a civil instant that have not executed, as kind, civil instant and tariff, in the
order of their instants and within one by R75 (R190). -/
def Chip.missed (c : Chip) (base upTo : Int) : List (Nat × Int × Nat) :=
  let l := (c.missedDemand base upTo).map (fun u => (0, u, 0))
    ++ (c.closesIn (c.execBase 1 base) upTo).map (fun u => (1, u, 0))
    ++ c.tariffPlan (c.execBase 2 base) upTo
  sortBy (fun a b => decide (a.2.1 < b.2.1)) l

/-- Hands missed boundaries to the engines and the billing block at a stamp, as CMD events (R190,
R201); `fwd` marks those that a step forward skips. -/
def Chip.handMissed (fwd : Bool) (stamp : Nat) (base : Int) (c : Chip) : Chip :=
  each (c.missed base (c.civil stamp)).zipIdx (fun p c =>
    c.handTariff 3 (if fwd then 8 else 0) (if fwd then p.2 + 1 else 0) stamp p.1) c

/-- Boundaries are due from the civil instant a step back leads to (R188). -/
def Chip.backFrom (u : Int) (c : Chip) : Chip :=
  each [0, 1, 2] (fun k c =>
    c.when (decide (u ≤ Tbl.get 0 c.bill.from_ k)) (Chip.setFrom k (u - 1))) c

/-- A clock step takes effect at its stamp (R198, R188-R190). -/
def Chip.clockStep (c : Chip) : Chip :=
  match c.time.step with
  | none => c
  | some x =>
    if c.now < x.stamp then c else
    let base := c.civil x.stamp
    let c := c.withdraw (max x.stamp c.now)
    let c := c.modTime (fun t =>
      { t.piece x.stamp x.ofs (clampRate t.tcxo) with
        slewRem := 0, leapPending := false, stepNeeded := false, valid := true, step := none })
    let ms := durMs (x.ofs.natAbs / 1000000)
    let c := if x.ofs < 0 then c.tamperInst 8 0xFF x.stamp ms []
             else if 0 < x.ofs then c.tamperInst 9 0xFF x.stamp ms [] else c
    let c := c.stage 0x0C 0 x.stamp (clockPayload 1 x.ofs)
    let c := if 0 < x.ofs then c.handMissed true x.stamp base else c.backFrom (c.civil x.stamp)
    c.complete x.ticket stOK 0

/-- The oldest CG10 commit takes effect at its stamp (R201). -/
def Chip.cg10Apply (c : Chip) : Chip :=
  match c.time.tz with
  | [] => c
  | x :: rest =>
    let s := x.stamp
    if c.now < s then c else
    let c := c.withdraw (max s c.now)
    let c := c.modTime (fun t => { t with tz := rest })
    if c.time.valid then c.handMissed false s (c.civil s) else c

/-- A new measurement of the TCXO's error enters the rate factor with the slew in progress (R195). -/
def Chip.tcxoSet (e : Int) (c : Chip) : Chip :=
  if e = c.time.tcxo then c else
  let start := c.pieceStart
  let left := c.time.slewLeft start
  let slew := match c.time.pieces with
    | [] => 0
    | p :: _ => if c.time.slewRem = 0 then 0 else p.rate - c.time.tcxo
  (c.modTime (fun t =>
    { t.piece start 0 (clampRate (e + slew)) with slewRem := left, tcxo := e })).replace

/-- The error of the TCXO stays within 0.5 ppm (R193), in parts of 10^12. -/
def tcxoBound (e : Int) : Int := max (-500000) (min 500000 e)

/-- TIME_MAPPING_FREEZE (R195, R74): the mapping is frozen up to the newest sample; a rate that follows the
error of the TCXO as measured, a free value within the bound of R193 (log 129), starts after it. Free running,
the mapping keeps its last rate. -/
def Chip.mapFreeze (c : Chip) : Chip :=
  if !c.rdy rSV then c else
  let keep := c.modTime (fun t => { t with horizon := max t.horizon t.six })
  if c.time.srcState = 0 then keep else
  let d := keep.draw
  d.2.tcxoSet (tcxoBound d.1.toInt)

/-- AO_CALIBRATE (R194): the crystal measured against the TCXO corrects the AO counter's rate. -/
def Chip.aoCalibrate (meas : Int) (c : Chip) : Chip :=
  if c.power.off then c else c.modTime (fun t => { t with aoRate := meas })

/-- PTP is the time source, and NX runs it. -/
def Chip.ptpOn (c : Chip) : Bool := c.cb 0x80000 31 && c.net.nxUp

/-- Data set a is better than b: the first difference in the standard's comparison order. -/
def betterGm : List Nat → List Nat → Bool
  | _, [] => true
  | [], _ => false
  | a :: t, b :: u => if a < b then true else if b < a then false else betterGm t u

/-- An Announce message (R196, R199): the best announced master is selected; a leap announcement
counts when it comes 2,000 s before its instant or earlier. -/
def Chip.ptpAnnounce (src : W64) (ds : List Nat) (id : W64) (utcOffset : W8) (leap leapAt : Int)
    (c : Chip) : Chip :=
  let p := c.time.ptp
  let none_ := decide (c.time.srcState.toNat < 2)
  let take := none_ || p.parent == src || (ds != p.gmData && betterGm ds p.gmData)
  if !take then c else
  let early := leap != 0 && decide (c.civil c.now + 2000 * nsS ≤ leapAt)
  c.modTime (fun t =>
    let fresh := none_ || t.ptp.gmId != id || t.ptp.parent != src
    { t with srcState := if fresh then 2 else t.srcState, utcOffset := utcOffset,
             ptp := { t.ptp with gmId := id, parent := src, gmData := ds, syncs := if fresh then 0 else t.ptp.syncs,
                                 leap := if early then leap else if leap = 0 then 0 else t.ptp.leap,
                                 leapAt := if early then leapAt else t.ptp.leapAt } })

/-- An offset of civil time from the grandmaster has been measured (R196-R198, R200). -/
def Chip.ptpOffset (o : Int) (c : Chip) : Chip :=
  let lim : Int := 2147483647
  let n := if -100000 < o ∧ o < 100000 then c.time.ptp.syncs + 1 else 0
  let c := c.modTime (fun t =>
    { t with offset := max (-lim) (min lim o), ptp := { t.ptp with syncs := n, twoStep := false },
             srcState := if 16 ≤ n then 3 else t.srcState,
             stepNeeded := t.stepNeeded && (decide (nsS < o) || decide (o < -nsS)) })
  if !c.time.valid then
    if c.time.step.isSome then c else c.planStep (-o) 0
  else if c.time.leapPending ∨ nsS < o ∨ o < -nsS ∨ (-1000 < o ∧ o < 1000) then c
  else c.slewTo (-o)

/-- A frame is one of the domain, the port and the transport that CG10 configures (R196). -/
def Chip.ptpMine (f : PtpFrame) (c : Chip) : Bool :=
  f.port == c.cb 0x80000 28 && f.udp == c.cb 0x80000 29 && f.domain.toNat == c.cf 0x80000 16 8

/-- A PTP message of clock `src` (R196): one-step and two-step Sync and Follow_Up of the selected master,
measurements of the configured delay mechanism, Announce. -/
def Chip.ptpTake (src : W64) (m : PtpMsg) (c : Chip) : Chip :=
  match m with
  | .announce ds id u l a => c.ptpAnnounce src ds id u l a
  | .sync two seq origin rx =>
    if c.time.srcState.toNat < 2 ∨ 3 < c.time.srcState.toNat ∨ c.time.ptp.parent ≠ src then c
    else if two then c.modTime (fun t => { t with ptp := { t.ptp with twoStep := true, seq := seq, rx := rx } })
    else c.ptpOffset (rx - origin - c.time.ptp.delay)
  | .followUp seq origin =>
    if c.time.ptp.twoStep ∧ c.time.ptp.seq = seq ∧ c.time.ptp.parent = src then
      c.ptpOffset (c.time.ptp.rx - origin - c.time.ptp.delay)
    else c
  | .delay peer d =>
    c.when (peer == c.cb 0x80000 30 && (peer || c.time.ptp.parent == src))
      (Chip.modTime (fun t => { t with ptp := { t.ptp with delay := d } }))

/-- A PTP frame is received (R196). -/
def Chip.ptpRx (f : PtpFrame) (c : Chip) : Chip :=
  c.when (c.ptpOn && c.ptpMine f) (Chip.ptpTake f.src f.msg)

/-- 3 s without Sync (R196): the clock is uncalibrated, and any master announced next may be selected. -/
def Chip.ptpTimeout (c : Chip) : Chip :=
  if c.time.srcState = 3 ∨ c.time.srcState = 2 then
    c.modTime (fun t =>
      { t with srcState := 2, ptp := { t.ptp with syncs := 0, twoStep := false, gmData := [] } })
  else c

/-- PTP locked with an offset above 1 s for 10 s (R198). -/
def Chip.stepNeeded (c : Chip) : Chip :=
  let o := c.time.offset
  if c.time.srcState = 3 ∧ (nsS < o ∨ o < -nsS) ∧ !c.time.stepNeeded then
    (c.modTime (fun t => { t with stepNeeded := true })).raise 0x0801 0xFF 0 0
  else c

/-- 2,000 s before an announced leap second (R199): leap61 makes civil time 1 s slower over that
time, leap59 1 s faster. -/
def Chip.leapStart (c : Chip) : Chip :=
  let l := c.time.ptp.leap
  if l = 0 ∨ !c.ptpOn ∨ !c.time.valid then c
  else
    let d := if 0 < l then -nsS else nsS
    let a := clampRate (c.time.tcxo + (if 0 < l then -maxRate else maxRate))
    ((c.modTime (fun t =>
      { t.piece c.pieceStart 0 a with slewRem := d, leapPending := true,
                                      ptp := { t.ptp with leap := 0 } })).replace).raise 0x0802 0xFF 0 0

end Sys2Proof.Machine
end

