-- ==== Sys2Proof/Machine/Power.lean ====
section
/-! DEFINITION. Supplies (R203-R206, R213), the journal (R209), HK (R15, R205, R212), the final save
(R85, R186, R208), the end of START (R374) and SYS_QUAR_CLR and SYS_RESTART (R378, R381). -/

namespace Sys2Proof.Machine

open Sys2Proof

/-- A supply feeds the module and no final save runs. -/
def Chip.powered (c : Chip) : Bool := !c.power.saving && !c.power.off

/-- MAIN_DROP (R203): the AUX rail takes over where it is there. -/
def Chip.mainDrop (c : Chip) : Chip :=
  c.when c.powered (Chip.modPower (fun p => { p with mainOk := false, onAux := p.auxOk }))

/-- MAIN_TAKEOVER (R203). -/
def Chip.mainTakeover (c : Chip) : Chip :=
  c.when c.powered (Chip.modPower (fun p => { p with mainOk := true, onAux := false }))

/-- AUX_LOST (R203): MAIN feeds the module again. -/
def Chip.auxLost (c : Chip) : Chip :=
  if !c.powered || !c.power.auxOk then c
  else (c.modPower (fun p => { p with auxOk := false, onAux := false })).raise 0x0005 0xFF 0 0

/-- AUX_RAIL_RETURN (R203). -/
def Chip.auxReturn (c : Chip) : Chip :=
  c.when c.powered (Chip.modPower (fun p => { p with auxOk := true, onAux := !p.mainOk }))

/-- MAIN_LOW (R203). -/
def Chip.mainLow (c : Chip) : Chip :=
  if !c.powered || c.power.onAux then c else c.raise 0x0004 0xFF 0 0

/-- HOLDUP_CHARGED (R213). -/
def Chip.holdupCharged (c : Chip) : Chip :=
  c.when c.powered (Chip.modPower (fun p =>
    { p with holdupChg := false, chargedAt := if p.holdupChg then some c.now else p.chargedAt }))

/-- A hold-up test may start (R212): not on AUX, in CHANGEOVER, while the bank charges or within 5 s of
its full charge, or while a test runs. -/
def Chip.mayTest (c : Chip) : Bool :=
  c.powered && !c.power.onAux && !c.sys.changeover && !c.power.holdupChg && !c.power.testRun
    && c.power.chargedAt.all (fun t => decide (t + 160000 ≤ c.now))

/-- HK disconnects the charger (R212), or defers the test. -/
def Chip.testStart (c : Chip) : Chip :=
  if c.mayTest then c.modPower (fun p => { p with charger := false, testRun := true, testDue := false })
  else c.modPower (fun p => { p with testDue := p.testDue || (!p.testRun && p.testTicket == 0) })

/-- The hour of local time is that of the daily test. -/
def Chip.testHour (c : Chip) : Bool :=
  c.cb 0x110 31 && decide (c.localSec c.now / 3600 % 24 = (c.cf 0x110 0 5 : Nat))

/-- HOLDUP_TEST_DAILY (R212): the test of the day, or one that was deferred or that a power failure cut
short. -/
def Chip.testDaily (c : Chip) : Chip :=
  c.when (c.powered && !c.power.testRun && (c.testHour || c.power.testDue || c.power.testTicket != 0)) Chip.testStart

/-- HOLDUP_TEST. -/
def cmdHoldupTest (r : CmdReq) (c : Chip) : Chip × Ans :=
  if c.sys.changeover then (c, { st := stMODE })
  else if c.power.onAux || c.power.holdupChg || c.power.testRun || c.power.testTicket != 0 then
    (c, { st := stBUSY })
  else c.long r.m.val 0x0010 0 (fun t c => (c.modPower (fun p => { p with testTicket := t })).testStart)

/-- CHARGER_RECONNECT (R15, R212): the test's result in 0.1 ms; below 36 ms the bank is weak. After a test that
was cancelled (R46) the charger alone comes back. -/
def Chip.testEnd (holdup : W16) (cap : W8) (c : Chip) : Chip :=
  if !c.power.testRun then c.modPower (fun p => { p with charger := true }) else
  let t := c.power.testTicket
  let weak := decide (holdup.toNat < 360)
  let c := c.modPower (fun p =>
    { p with charger := true, testRun := false, testTicket := 0, holdup := holdup, cap := cap,
             testAt := c.now, holdupWeak := weak })
  let c := if weak then (c.raise 0x0008 0xFF 0 0).tamperInst 18 0xFF c.now 0 [] else c
  if t = 0 then c else c.complete t (if weak then stINTEGRITY else stOK) (holdup.zeroExtend 32)

/-- HU_OVERDUE (R212). -/
def Chip.huOverdue (c : Chip) : Chip := c.when c.powered (fun c => c.raise 0x0009 0xFF 0 0)

/-- The cell is measured (R205), in 20 mV units: CELL_LOW below 2.70 V. -/
def Chip.cellMeasured (v : W8) (c : Chip) : Chip :=
  let low := decide (v.toNat < 135)
  let c := c.modPower (fun p => { p with cellV := v, cellLow := low })
  if low then c.raise 0x0006 0xFF 0 0 else c

/-- HK_REPORT (R15). -/
def Chip.hkReport (r : HkReport) (c : Chip) : Chip :=
  if c.power.off then c else
  let c := c.modPower (fun p =>
    { p with mainV := r.mainV, auxV := r.auxV, voutA := r.voutA, voutB := r.voutB,
             voutAOk := decide (1600 < r.voutA.toNat), voutBOk := decide (1600 < r.voutB.toNat), hkSilent := false })
  c.modSys (fun s => { s with backplate := r.backplate })

/-- HK_SILENT (R15), raised once for each silence. -/
def Chip.hkSilence (c : Chip) : Chip :=
  if c.power.hkSilent || !c.rdy rSV then c
  else (c.modPower (fun p => { p with hkSilent := true })).raise 0x0003 0xFF 0 0

/-- SYS_HOLDUP.AGE_H: hours since the last completed test, saturating. -/
def Chip.testAge (c : Chip) : Nat := min 255 ((c.now - c.power.testAt) / 115200000)

/-- The uncommitted segments of engine k up to its H (R209). -/
def Engine.standing (q : Engine) : List Seg :=
  if q.active && !q.head.inInit then
    q.gates.map Gate.seg ++ [if q.head.busy && q.mark.six == q.hpos then q.mark.seg else q.seg]
  else []

/-- H of the engines that process instants, the lowest of them. -/
def Chip.lowestH (c : Chip) : Nat :=
  ((engs8.filter (fun k => (c.eng k).active)).map (fun k => (c.eng k).hpos)).foldl min c.now

/-- A record of the save engine for an instant (R208, R209). -/
def Chip.saveRec (c : Chip) (six : Nat) : SaveRec :=
  { six := six, civil := c.civil six, bill := c.bill,
    arb := c.taps.foldl (fun t p => Tbl.put 0 t p.1 p.2.arb) [],
    standing := engs8.flatMap (fun k => (c.eng k).standing.map (fun s => (k, s))),
    hpos := c.lowestH, pend := c.save.pendTime,
    dirs := (engs8.filter (fun k => (c.eng k).active)).flatMap (fun k =>
      (c.engMps k).map (fun m => (m, ((c.eng k).head.ctx.mp m).rev))) }

/-- Writes a journal entry: a ring of 32 (R209). -/
def Chip.journalPut (c : Chip) : Chip :=
  let r := { c.saveRec c.now with arb := [] }
  c.modSave (fun s => { s with journal := (r :: s.journal).take 32 })

/-- JOURNAL_ENTRY (R209): at an instant J that is a multiple of 3,200. -/
def Chip.journalEntry (c : Chip) : Chip :=
  if c.powered && c.now % 3200 == 0 then c.journalPut else c

/-- Where engine k stands short of p (R85): the instant to which its results reach. -/
def Engine.lagAt (p : Nat) (q : Engine) : Option Nat :=
  if q.active && !q.head.inInit then (if q.hpos < p then some q.hpos else none)
  else if q.run = ruRESTART ∨ q.run = ruLOADING then some q.c
  else none

/-- The forced gate at c of an engine that stands there for a reload (R366): the instants from c on are lost. -/
def Chip.gateAtC (k : Nat) (c : Chip) : Chip :=
  let c := c.modEng k (fun q =>
    { q with gates := [], head := Thread.ofCkpt q.ck, seg := { start := q.c, saveShort := true } })
  ((c.forcedNote k).placeGate k false (c.eng k).c).commitAll k

/-- The forced gate of engine k in the final save (R85, R366): at p, or at H with the instants from H to p
lost, or at c when stopped; the engine then stops. -/
def Chip.finalGate (p k : Nat) (c : Chip) : Chip :=
  let q := c.eng k
  let c := if q.active && !q.head.inInit then c.forceAtH k (decide (q.hpos < p))
    else if (q.run = ruRESTART ∨ q.run = ruLOADING) ∧ q.c < p then c.gateAtC k else c
  (c.modEng k (fun q => { q with run := ruUNLOADED, reloaded := false })).setRdy (rQE k) false

/-- A pending boundary executes, whichever kind it is. -/
def Chip.pendRun (p : PendTime) (c : Chip) : Chip :=
  match p.kind % 8 with
  | 0 => c.demandExec p
  | 2 => c.switchExec p
  | 3 => c.activate p
  | _ => c.closeExec p

/-- The pending boundaries stamped at or before an instant execute, in their order (R186). -/
def Chip.pendUpTo (p : Nat) (c : Chip) : Chip :=
  each (c.save.pendTime.filter (fun x => decide (x.stamp ≤ p))) (fun x c => c.dropPend.pendRun x) c

/-- Sessions whose open or close is stamped at or before p take effect (R186). -/
def Chip.sessUpTo (p : Nat) (c : Chip) : Chip :=
  each c.openSessions (fun m c =>
    let x := c.session m
    let c := if x.openSix ≤ p then c.modBill (Bill.putSess m { x with applied := true }) else c
    match x.closeSix with
    | some z => if z ≤ p then c.sessionEnd m else c
    | none => c) c

/-- The final save, steps 3 to 5 of its table (R208): forced gates, boundaries up to p, the interval
open at p closed PARTIAL, the events persisted, and the save with its commit word. -/
def Chip.finalSave (c : Chip) : Chip :=
  match c.power.pAt with
  | none => c
  | some p =>
    let c := c.modTime (fun t => { t with six := max t.six p })
    let lags := engs8.filterMap (fun k => (c.eng k).lagAt p)
    let c := each engs8 (Chip.finalGate p) c
    let c := match c.time.step with
      | some x => if x.stamp ≤ p then c.clockStep else c
      | none => c
    let c := each (c.time.tz.filter (fun x => decide (x.stamp ≤ p))) (fun _ c => c.cg10Apply) c
    let c := (c.pendUpTo p).sessUpTo p
    let c := if c.bill.win.openSix < p then c.closeInterval (c.civil p / nsS) p false true else c
    let c := c.modSave (fun s => { s with pendTime := [] })
    let c := c.closeOverrun.modEvt (fun e =>
      let e := { e with ring := e.ring ++ e.waiting ++ e.heldQ, waiting := [], heldQ := [] }
      Evt.persistN (e.ring.length + 1) e)
    let r := { c.saveRec p with standing := [], pend := [], lag := !lags.isEmpty,
                                hpos := lags.foldl min p }
    c.modSave (fun s => { s with final := some r })

/-- POWER_FAIL_DETECT (R206-R208, R341, R349): the domains that the save does not need are shed, the SEC island among
them, and p is the
first multiple of 8 after the newest instant. -/
def Chip.powerFail (c : Chip) : Chip :=
  if !c.powered then c else
  let p := match c.power.pAt with
    | some s => min s (up8 (c.now + 1))
    | none => up8 (c.now + 1)
  let c := c.modPower (fun x =>
    { x with mainOk := false, auxOk := false, onAux := false, saving := true, failAt := c.now,
             pAt := some p, testDue := x.testDue || x.testRun, testRun := false, testTicket := 0, charger := true })
  let c := (c.modTime (fun t => { t with sixP := p })).modTamper (fun t => { t with aoTicks := 0 })
  let c := each [1, 2, 3, 4] (fun m c => c.closeConn m) c
  let c := each [rSV, rLINK, rNET, rBAY, rPAIR, rKEYS] (fun i c => c.setRdy i false) c
  let c := ((c.modNet (fun n => { n with nxUp := false, links := 0 })).bayStop baUNLOADED).setDead 0x398 true
  let c := c.modKey (fun k => { k with kwr := {} })
  ((c.modLink (fun l => { l with field := false })).controllerLost false).pairReset

/-- HOLDUP_EXHAUSTED (R208 step 7): a save that has run to its end stands; then every island but AO
stops. -/
def Chip.exhausted (complete : Bool) (c : Chip) : Chip :=
  if !c.power.saving || c.power.off then c else
  let c := if complete then c.finalSave else c
  let c := c.modSys (fun s => { s with ready := 1, dead := 0x3FE })
  let c := c.modSafe (fun s => { s with edgeUp := false, sfUp := false })
  c.modPower (fun p => { p with off := true, pAt := none })

/-- The readiness bits START waits for that are not there (R374); an engine HALTED or FAILED is not
waited for. -/
def Chip.startMissing (c : Chip) : Nat :=
  let fixed := [rEDGE, rSF, rDRV, rAFE, rSV, rBILL].filter (fun i => !c.rdy i)
  let engs := engs8.filter (fun k =>
    c.engEn k && !c.rdy (rQE k) && (c.eng k).run != ruHALTED && (c.eng k).run != ruFAILED)
  let bay := if c.bayEn && !c.rdy rBAY then [rBAY] else []
  ((fixed ++ engs.map rQE ++ bay).map (fun i => 2 ^ i)).sum

/-- Payload of a RESTART record (R230): LAST_SAVE, SIX_p, SIX_r, reset cause. -/
def Chip.restartPayload (c : Chip) : List W8 :=
  leBytes 4 c.power.lastSave.toNat ++ leBytes 8 c.time.sixP ++ leBytes 8 c.time.sixR
    ++ leBytes 4 c.sys.cause.toNat

/-- The end of START opens a PARTIAL demand interval (R374, R173): the open one closes there once every running
engine has committed up to it. It keeps the number of the interval in civil time (log 75). -/
def Chip.startInterval (c : Chip) : Chip :=
  let u := c.civil c.now
  c.addPend { c.boundary 0 u c.now 0 with partl := true }

/-- START ends (R374, R243): the RESTART record, a PARTIAL interval, pointer mode at the next swap. -/
def Chip.startOver (c : Chip) : Chip :=
  let c := c.modSys (fun s => { s with starting := false })
  let c := (c.stageSigned 0x0D 0 c.now c.restartPayload).startInterval
  each (List.range 8) (fun q c => c.modFq q (fun f => if f.parity then { f with leaving := true } else f)) c

/-- START_END (R374). -/
def Chip.startEnd (c : Chip) : Chip :=
  if c.sys.starting && c.startMissing == 0 then c.startOver else c

/-- START_INCOMPLETE (R374). -/
def Chip.startLate (c : Chip) : Chip :=
  if !c.sys.starting || c.startMissing == 0 || !c.powered then c
  else
    let m := c.startMissing
    c.startOver.raise 0x000A 0xFF (w32 m) 0

/-- Queues a legal change that is not a commit of a group (R377): its stamp is chosen as for
BILL_CLOSE. -/
def Chip.legalQueue (kind arg stamp mask : Nat) (t : W16) (c : Chip) : Chip :=
  c.modCfg (fun x => { x with pend := x.pend ++
    [{ kind := kind, arg := arg, ticket := t, stamp := some stamp, engines := BitVec.ofNat 8 mask }] })

/-- The mask of the running engines. -/
def Chip.runMask (c : Chip) : Nat := (c.running.map (fun k => 2 ^ k)).sum

/-- SYS_MODE_SET (R377): a context event for every running engine. -/
def cmdSysModeSet (r : CmdReq) (c : Chip) : Chip × Ans :=
  let on := r.a0.getLsbD 0
  if !c.tamper.lsw then (c, { st := stSEAL })
  else if !on && c.key.lc != 2 then (c, { st := stMODE })
  else c.long r.m.val 0x0001 (b2n on) (fun t c =>
    let s := c.stampAfter 1
    (c.toEngines { stamp := s, src := 3, change := .modeSet on }).legalQueue 0x102 (b2n on) s c.runMask t)

/-- A quarantine cause is still present (R378): a mismatch of a metrology group, an enabled engine
that has not started, a zeroised module, the recovery image. -/
def Chip.causePresent (c : Chip) (i : Nat) : Bool :=
  if i = 0 then c.cfg.mismatch &&& 0xE != 0
  else if i = 1 then engs8.any (fun k => c.engEn k && !c.rdy (rQE k))
  else true

/-- SYS_QUAR_CLR (R378). -/
def cmdSysQuarClr (r : CmdReq) (c : Chip) : Chip × Ans :=
  let named := (List.range 4).filter (fun i => r.a0.getLsbD i && c.sys.qcause.getLsbD i)
  let gone := named.filter (fun i => !c.causePresent i)
  if named.isEmpty then (c, { st := stSTALE })
  else
    let mask := (gone.map (fun i => 2 ^ i)).sum
    (c.modSys (fun s => { s with qcause := s.qcause &&& ~~~ BitVec.ofNat 4 mask }),
      { st := if gone.length = named.length then stOK else stINTEGRITY })

/-- SYS_RESTART (R381): a final save at the stamp; POWER_UP is its reset and restart. -/
def cmdSysRestart (r : CmdReq) (c : Chip) : Chip × Ans :=
  if c.sys.changeover || c.onTrial then (c, { st := stMODE })
  else c.long r.m.val 0x0003 0 (fun _ c =>
    c.modPower (fun p => { p with pAt := some ((p.pAt).getD (c.stampAfter 1)) }))

end Sys2Proof.Machine
end

