-- ==== Sys2Proof/Machine/EngineRows.lean ====
section
/-! DEFINITION. The meanings of the commands of the quantity engines (03, 04, 06). -/

namespace Sys2Proof.Machine

open Sys2Proof

/-- AFE_SAMPLE (R54): one sample instant of group k. -/
def execAfeSample (k : Fin 8) (raw : Vector RawSample 16) (temp : Option W16) (s : State) :
    Host.Outcome State Fault Refusal :=
  run (fun c => if c.power.off then c else ((c.sampleGroup k.val raw.toList temp).tapRecord k.val).metrologyEnd k.val) s

/-- HORIZON_PUBLISH (R74). -/
def execHorizonPublish (k : Fin 8) (src : Fin 4) (s : State) : Host.Outcome State Fault Refusal :=
  run (Chip.publish k.val src.val) s

/-- GATE_COMMIT (R78). -/
def execGateCommit (k : Fin 8) (s : State) : Host.Outcome State Fault Refusal :=
  run (Chip.gateCommit k.val) s

/-- CONTEXT_EVENT (R74, R80, R84). -/
def execContextEvent (k : Fin 8) (ev : CtxEv) (s : State) : Host.Outcome State Fault Refusal :=
  run (Chip.toEngine k.val ev) s

/-- SIDESTEP_SWITCHOVER (R80). -/
def execSidestepSwitchover (k : Fin 8) (s : State) : Host.Outcome State Fault Refusal :=
  run (Chip.switchover k.val) s

/-- FORCED_GATE (R83). -/
def execForcedGate (k : Fin 8) (s : State) : Host.Outcome State Fault Refusal :=
  run (Chip.forcedDue k.val) s

/-- HEAD_STALL_END (R79). -/
def execHeadStallEnd (k : Fin 8) (s : State) : Host.Outcome State Fault Refusal :=
  run (Chip.stallEnd k.val) s

/-- QE_LOCKSTEP (R86). -/
def execQeLockstep (k : Fin 8) (s : State) : Host.Outcome State Fault Refusal :=
  run (Chip.engLockstep k.val) s

/-- RECOVER_CATCH_UP (R86). -/
def execRecoverCatchUp (k : Fin 8) (s : State) : Host.Outcome State Fault Refusal :=
  run (Chip.recoverDone k.val) s

/-- QE_RELOAD_DONE (R87). -/
def execQeReloadDone (k : Fin 8) (s : State) : Host.Outcome State Fault Refusal :=
  run (fun c => if c.rdy rSV && !c.sys.changeover then c.reloadDone k.val else c) s

/-- QE_CATCH_UP (R87). -/
def execQeCatchUp (k : Fin 8) (s : State) : Host.Outcome State Fault Refusal :=
  run (Chip.catchUp k.val) s

/-- PROG_LOAD_DONE (R130). -/
def execProgLoadDone (k : Fin 8) (s : State) : Host.Outcome State Fault Refusal :=
  run (fun c => if c.rdy rSV then c.progLoaded k.val else c) s

/-- HEAD_CATCH_UP (R130). -/
def execHeadCatchUp (k : Fin 8) (s : State) : Host.Outcome State Fault Refusal :=
  run (Chip.headCaught k.val) s

/-- TAP_RECORD_END (R134). -/
def execTapRecordEnd (k : Fin 8) (s : State) : Host.Outcome State Fault Refusal :=
  run (Chip.recordEnd k.val stOK) s

/-- QUAL_POLL (R148, R149). -/
def execQualPoll (mp : MpNo) (s : State) : Host.Outcome State Fault Refusal :=
  run (Chip.qualPoll mp.val) s

/-- QUAL_RESPONSE (R148). -/
def execQualResponse (mp : MpNo) (raw : List W16) (s : State) : Host.Outcome State Fault Refusal :=
  run (Chip.qualAnswer mp.val raw) s

/-- QUAL_REQUEST_FAIL (R149). -/
def execQualRequestFail (mp : MpNo) (_why : Fin 8) (s : State) : Host.Outcome State Fault Refusal :=
  run (Chip.qualFail mp.val) s

end Sys2Proof.Machine
end

