-- ==== Sys2Proof/Machine/TapRows.lean ====
section
/-! DEFINITION. The meanings of the commands of the metering taps (03). -/

namespace Sys2Proof.Machine

open Sys2Proof

/-- CMP_WINDOW_END (R58). -/
def execCmpWindowEnd (t : TapNo) (s : State) : Host.Outcome State Fault Refusal :=
  run (Chip.windowEnd t.val) s

/-- REF_ROUND_START (R61): a routine slot. -/
def execRefRoundStart (t : TapNo) (s : State) : Host.Outcome State Fault Refusal :=
  run (Chip.routineSlot t.val) s

/-- IDENT_ROUND_START (R63): the 5 s timer of a tap in IDENT. -/
def execIdentRoundStart (t : TapNo) (s : State) : Host.Outcome State Fault Refusal :=
  run (fun c => if (c.tap t.val).arb = 2 then c.askRound t.val false else c) s

/-- REF_ROUND_END (R60, R63). -/
def execRefRoundEnd (t : TapNo) (r : RefReading) (s : State) : Host.Outcome State Fault Refusal :=
  run (Chip.roundEnd t.val r) s

/-- ZC_TIMEOUT (R57). -/
def execZcTimeout (t : TapNo) (s : State) : Host.Outcome State Fault Refusal :=
  run (Chip.zcTimeout t.val) s

/-- TAP_FAULT_DECLARE (R68, R69, R65). -/
def execTapFaultDeclare (t : TapNo) (cls : BitVec 4) (lost : Bool) (s : State) :
    Host.Outcome State Fault Refusal :=
  run (Chip.faultDeclare t.val cls lost) s

/-- TAP_FAULT_CLEAR (R68). -/
def execTapFaultClear (x : TapClear) (s : State) : Host.Outcome State Fault Refusal :=
  run (Chip.faultClear x.t.val x.lost) s

/-- PHASE_LOSS_CHECK (R224). -/
def execPhaseLossCheck (mp : MpNo) (s : State) : Host.Outcome State Fault Refusal :=
  run (Chip.phaseLossCheck mp.val) s

/-- TAP_REF_NOW (03): one round of a tap at the next window start. A round that is already waiting
for its window counts as running (log 30). -/
def cmdTapRefNow (r : CmdReq) (c : Chip) : Chip × Ans :=
  let n := fld r.a0 0 7
  let t := c.tap n
  if t.arb = 4 ∨ t.arb = 6 then (c, { st := stMODE })
  else if c.tapMode n = mOFF then (c, { st := stRANGE })
  else if t.refBusy ∨ t.roundTicket ≠ 0 then (c, { st := stBUSY })
  else c.long r.m.val 0x0401 n (fun tk c => c.modTap n (fun t => { t with roundTicket := tk, roundDue := true, routine := false }))

/-- TAP_CHAIN_RESET (03, R62): the arbiter becomes NORMAL at the next sample instant of its group,
as a legal change. -/
def cmdTapChainReset (r : CmdReq) (c : Chip) : Chip × Ans :=
  let n := fld r.a0 0 7
  let k := n / 16
  if (c.master r.m.val).role.toNat ≠ roleMETROLOGIST then (c, { st := stDENIED })
  else if !c.tamper.lsw then (c, { st := stSEAL })
  else if c.tapMode n = mOFF then (c, { st := stRANGE })
  else if (c.tap n).arb = 1 then (c, {})
  else
    let s := c.nextSample k
    ((c.toEngine k { stamp := s, src := 3, change := .chainReset n }).modCfg
      (fun g => { g with pend := g.pend ++ [{ kind := 0x100, arg := n, stamp := some s,
                                              engines := BitVec.ofNat 8 (2 ^ k) }] }), {})

/-- TAP_GLITCH_CLR (03). -/
def cmdTapGlitchClr (r : CmdReq) (c : Chip) : Chip × Ans :=
  (c.modTap (fld r.a0 0 7) (fun t => { t with glitch := 0 }), {})

/-- The arbiter's return to NORMAL (R62). -/
def Chip.chainNormal (n stamp : Nat) (c : Chip) : Chip :=
  (c.modTap n (fun t => { t with arb := 1, disagree := false, exceedRun := 0, clearRun := 0,
                                 rounds := 0, passRun := 0, failRun := 0 })).recordLegal
    0x100 n 0 stamp

end Sys2Proof.Machine
end

