-- ==== Sys2Proof/Machine/Legal.lean ====
section
/-! DEFINITION. Configuration commits (R38-R40, R420), what a commit of each group changes besides its
registers, legal changes at their instants, and the running configuration check (R41, R42). -/

namespace Sys2Proof.Machine

open Sys2Proof

/-- The words that a commit of group g changes. -/
def Chip.newWords (c : Chip) (g : Nat) : List (Nat × W32) :=
  c.cfg.shadow.filter (fun p => inGroup g p.1 && p.2 != c.live p.1)

/-- A word of CG1 governs group k (R420): its rate, or a mode or calibration word of its taps. -/
def cg1Governs (k a : Nat) : Bool :=
  a == 0x40000 + 4 * k || inBlock (0x40100 + 64 * k) 64 a || inBlock (0x41000 + 0x200 * k) 0x200 a

/-- The meter points of group k under a reader. -/
def mpsOn (rd : Nat → W32) (k : Nat) : List Nat := (List.range 64).filter (mpOn rd k)

/-- The engines a legal commit affects (R420). -/
def Chip.affects (c : Chip) (g : Nat) (ws : List (Nat × W32)) : List Nat :=
  engs8.filter (fun k =>
    match g with
    | 1 => changes ws (cg1Governs k)
    | 2 => changes ws (fun a => a == aGate k)
    | 3 => changes ws (fun a => match mpOfAddr a with
        | some m => mpOn c.live k m || mpOn (overlaid c.live ws) k m
        | none => false)
    | _ => false)

/-- Sets hint bits of the host port (R29). -/
def Chip.hintBit (i : Nat) (c : Chip) : Chip :=
  c.modSys (fun s => { s with hintStatus := s.hintStatus ||| BitVec.ofNat 11 (2 ^ i) })

/-- What CFG_STATUS and CFG_FAIL of a master show after a CFG_COMMIT write. -/
def Chip.cfgAnswer (m g : Nat) (st : W8) (ticket : W16) (fail : Nat) (c : Chip) : Chip :=
  c.modMaster m (fun x =>
    { x with cfgTicket := ticket, cfgGroup := BitVec.ofNat 4 g, cfgStat := st,
             cfgFail := BitVec.ofNat 24 fail })

/-- A commit of the host port has completed (R29, HINT bit 9). -/
def Chip.commitDone (m : Nat) (c : Chip) : Chip := c.when (m == 0) (Chip.hintBit 9)

/-- The checks of a commit in the order of R39 but for the consistency check: the first refusal. -/
def Chip.commitRefusal (c : Chip) (m g : Nat) : Option W8 :=
  let role := (c.master m).role.toNat
  let bits := match g with
    | 1 => [rSV, rAFE]
    | 4 => [rSV, rBILL]
    | 5 => [rSV, rDRV]
    | 7 => [rSV, rLINK]
    | _ => [rSV]
  if c.sys.changeover || c.sys.qcause != 0 || c.retired || (legalGroup g && c.onTrial) then some stMODE
  else if (if legalGroup g then role != roleMETROLOGIST else role != roleADMIN && role != roleVENDOR) then
    some stDENIED
  else if bits.any (fun i => !c.rdy i) then some stBUSY
  else if legalGroup g && !c.tamper.lsw then some stSEAL
  else if (c.cfgOwner g).any (fun o => o != m) then some stLOCKED
  else if c.cfg.pend.any (fun p => p.kind == g && !p.applied) then some stBUSY
  else if c.cfg.mismatch.getLsbD g then some stINTEGRITY
  else if (g == 11 && !c.sys.te && (c.cand 11 0x130000).getLsbD 31) || (legalGroup g && c.tixFull) then
    some stNORES
  else none

/-- Writes words as live and rewrites the group's reference (R40 steps 4 and 5). -/
def Chip.putLive (g : Nat) (ws : List (Nat × W32)) (c : Chip) : Chip :=
  (c.modCfg (fun x => { x with live := ws.foldl (fun t w => putWord t w.1 w.2) x.live })).newRef g

/-- CG0: the POST record of a new post number (R22). While no engine runs its instant is the first multiple
of 8 at or after 1 ms, for one that has waited for a gate too (log 93). -/
def Chip.postRecord (old : BitVec 18) (c : Chip) : Chip :=
  let c := c.modLedger (fun l => { l with postPend := l.postPend ++ [(old, BitVec.ofNat 18 c.postNo)] })
  if c.running.isEmpty then c.postNow (c.stampAfter 1) else c

/-- What POST_NO 0 or an assignment means for the Eombelan connections (R21): one that is STARTING is given
up, and those that could not start then start (log 123). -/
def Chip.postConns (c : Chip) : Chip :=
  each (List.range 16) (fun i c =>
    let x := c.conn i
    if c.postNo = 0 then (if x.st = 1 then (c.modConn i (fun x => { x with st := 0 })).safeEval else c)
    else if x.st = 0 ∧ c.escEn i then (c.escStart i).safeEval else c) c

/-- CG0: a new post number is live (R21, R22). -/
def Chip.postChange (old : BitVec 18) (c : Chip) : Chip :=
  if old.toNat = c.postNo then c else (c.postRecord old).postConns

/-- CG4: a load-profile channel whose word changes starts anew in a period that is PARTIAL (R184). -/
def Chip.lpChange (ws : List (Nat × W32)) (c : Chip) : Chip :=
  each ((List.range 256).filter (fun j => changes ws (fun a => a == 0x60400 + 4 * j))) (fun j c =>
    (c.modBill (Bill.putLp j {})).lpOpen j c.now (c.civil c.now / nsS) (c.lpReg j).v true false) c

/-- CG4: a changed schedule of closes counts from now on (R176), and boundaries handed over for an instant
still to come are placed anew under the changed settings (R175). -/
def Chip.schedChange (ws : List (Nat × W32)) (c : Chip) : Chip :=
  let c := c.when (changes ws (· == 0x60004)) (fun c => c.setFrom 1 (c.civil c.now))
  c.when (changes ws (fun a => a == 0x60000 || a == 0x60004)) Chip.replace

/-- CG6: EN or PROG loads or stops the bay program (R248); IMD_EN ends what the monitor reported; without
V2G_EN the modem is held in reset, which ends the ISO 15118 connection (R407). -/
def Chip.bayChange (old : W32) (c : Chip) : Chip :=
  let new := c.live 0xC0000
  let c := if old.getLsbD 28 = new.getLsbD 28 then c
           else if new.getLsbD 28 then c.modemRelease
           else (c.when c.bay.v2gConn (Chip.v2gAbort {})).modBay (fun b =>
             { b with modem := false, modemUp := none, modemRx := [], modemTx := [] })
  let c := if old.getLsbD 27 = new.getLsbD 27 then c else c.modBay (fun b => { b with iso := 0, riso := 0 })
  if old.getLsbD 31 = new.getLsbD 31 ∧ (fld old 0 2 = fld new 0 2 ∨ !new.getLsbD 31) then c
  else c.bayLoad (if new.getLsbD 31 then 1 else 0)

/-- CG10: the new placement takes effect at its stamp (R201); a change of the PTP fields starts the PTP
clock anew. -/
def Chip.timeChange (old : List (Nat × W32)) (c : Chip) : Chip :=
  let tz := [0x80004, 0x80008, 0x8000C]
  let changed := old.filter (fun w => c.live w.1 != w.2)
  let c := if changed.any (fun w => w.1 == 0x80000 && w.2 &&& 0xF0FF0000 != c.live 0x80000 &&& 0xF0FF0000)
           then c.ptpRestart else c
  if changed.any (fun w => tz.contains w.1) then
    let s := c.stampAfter 1
    (c.modTime (fun t =>
      { t with tz := t.tz ++ [{ stamp := s, old := old.foldl (fun x w => putWord x w.1 w.2) [] }] })).toEngines
      { stamp := s, src := 3, change := .tzCommit }
  else c

/-- What a commit of a non-legal group changes besides its registers. -/
def Chip.cgEffect (g : Nat) (old : Nat → W32) (ws : List (Nat × W32)) (c : Chip) : Chip :=
  match g with
  | 0 => c.postChange (BitVec.ofNat 18 (fld (old 0x40) 0 18))
  | 4 => (c.lpChange ws).schedChange ws
  | 5 => c.latchCg5 (fun n => fld (old (aDcfg n)) 20 4)
  | 6 => c.bayChange (old 0xC0000)
  | 7 => (c.modLink (fun l => { l with antFault := false })).plateKeys
  | 8 => c.escAdopt.netFollow
  | 10 => c.timeChange ([0x80000, 0x80004, 0x80008, 0x8000C].map (fun a => (a, old a)))
  | 11 => if c.cb 0x130000 31 then c else c.pairReset
  | _ => c

/-- A legal commit is accepted (R40 steps 2 and 3): PENDING with a ticket, the new generation written,
its instant is chosen as soon as R420 allows (`chooseAll`). -/
def Chip.commitLegal (m g : Nat) (ws : List (Nat × W32)) (c : Chip) : Chip :=
  let r := c.issue m (0x300 + g) g
  let c := r.1.cfgAnswer m g stPENDING r.2 0
  let mask := ((c.affects g ws).map (fun k => 2 ^ k)).sum
  c.modCfg (fun x => { x with pend := x.pend ++
    [{ kind := g, arg := m, ticket := r.2, words := ws.foldl (fun t w => Tbl.ins t w.1 w.2) [],
       old := ws.foldl (fun t w => Tbl.ins t w.1 (c.live w.1)) [], engines := BitVec.ofNat 8 mask }] })

/-- A non-legal commit is accepted (R40): live and reference change together and the claim ends. -/
def Chip.commitNow (m g : Nat) (ws : List (Nat × W32)) (c : Chip) : Chip :=
  let old := c.live
  let c := c.modCfg (fun x => { x with trialChanged :=
    if c.onTrial then x.trialChanged ||| BitVec.ofNat 12 (2 ^ g) else x.trialChanged })
  let c := ((c.putLive g ws).discardShadow g).cgEffect g old ws
  (c.cfgAnswer m g stOK 0 0).commitDone m

/-- CFG_COMMIT with OP commit (R39, R40). A die whose latches fail their read-back ends a commit of CG5
with INTEGRITY; the previous generation and fail-state settings stay (R283), and so does the claim
(log 70). DESIGN CHOICE: a GROUP of 12 to 15 answers RANGE before every other check (log 179). -/
def Chip.cfgCommit (m g : Nat) (c : Chip) : Chip :=
  if 11 < g then (c.cfgAnswer m g stRANGE 0 0).commitDone m
  else match c.commitRefusal m g with
    | some st => (c.cfgAnswer m g st 0 0).commitDone m
    | none =>
      match c.checkGroup g with
      | a :: _ => (c.cfgAnswer m g stRANGE 0 a).commitDone m
      | [] =>
        let ws := c.newWords g
        if g = 5 ∧ c.drv.badLatch ≠ 0 then (c.cfgAnswer m g stINTEGRITY 0 0).commitDone m else
        let c := c.writeGen (ws.foldl (fun t w => putWord t w.1 w.2) c.genWords)
        if legalGroup g then c.commitLegal m g ws else c.commitNow m g ws

/-- CFG_COMMIT with OP discard (R38): LOCKED for another master's claim. -/
def Chip.cfgDiscard (m g : Nat) (c : Chip) : Chip :=
  if 11 < g then c.cfgAnswer m g stRANGE 0 0
  else match c.cfgOwner g with
    | none => c.cfgAnswer m g stOK 0 0
    | some o => if o = m then (c.discardShadow g).cfgAnswer m g stOK 0 0 else c.cfgAnswer m g stLOCKED 0 0

/-- A legal commit takes effect (R40 steps 5 and 6): live, reference, record, completion. -/
def Chip.legalEffect (p : PendCommit) (s : Nat) (c : Chip) : Chip :=
  let g := p.kind
  let old := overlaid c.live p.old
  let c := c.putLive g p.words
  let c := match g with
    | 1 => c.tapChange s old
    | 2 => c.progChange s old
    | 3 => c.mpChange old p.words
    | _ => c
  let c := c.recordLegal g 0 (Tbl.get 0 c.cfg.ref g) s
  let c := if c.cfgOwner g = some p.arg then c.discardShadow g else c
  (c.doneIf p.ticket stOK).commitDone p.arg

/-- The COMMISSION flag at its stamp (R377). -/
def Chip.modeEffect (p : PendCommit) (s : Nat) (c : Chip) : Chip :=
  ((c.modSys (fun x => { x with commission := p.arg != 0 })).recordLegal 0x102 p.arg 0 s).doneIf p.ticket stOK

/-- The effect of a legal change at its instant, by its source. -/
def Chip.applyOne (p : PendCommit) (c : Chip) : Chip :=
  let s := p.stamp.getD 0
  let c := c.modCfg (fun x => { x with pend := mapIf (fun y => y == p) (fun y => { y with applied := true }) x.pend })
  if p.kind < 12 then c.legalEffect p s
  else if p.kind = 0x100 then c.chainNormal p.arg s
  else if p.kind = 0x101 then (c.billZero s).doneIf p.ticket stOK
  else c.modeEffect p s

/-- An instant is reached: SIX is there, or no sample before it is still to come in the groups a
change affects. -/
def Chip.atInstant (c : Chip) (p : PendCommit) : Bool :=
  match p.stamp with
  | none => false
  | some s =>
    decide (s ≤ c.now) ||
    (p.engines != 0 && engs8.all (fun k => !p.engines.getLsbD k || decide (s ≤ c.nextSample k)))

/-- BILL_ZERO executes once every running engine has committed up to its stamp, so that no bin of an
instant before it follows, and after the billing closes stamped at or before it (R75). -/
def Chip.dueNow (c : Chip) (p : PendCommit) : Bool :=
  let s := p.stamp.getD 0
  !p.applied && c.atInstant p && (p.kind != 0x101 ||
    (c.reached s && !c.save.pendTime.any (fun x => (x.kind % 8 == 1 || x.kind == 4) && decide (x.stamp ≤ s))))

/-- LEGAL_CHANGE_APPLY (R40, R420): the first legal change whose instant is reached takes effect. -/
def Chip.legalApply (c : Chip) : Chip :=
  match c.cfg.pend.find? c.dueNow with
  | some p => c.applyOne p
  | none => c

/-- The words of group g of the settings generation in force become live (R42). -/
def Chip.reloadGroup (g : Nat) (c : Chip) : Chip :=
  let keep := c.cfg.live.filter (fun w => groupOf w.1 != some g)
  let new := c.genWords.filter (fun w => groupOf w.1 == some g)
  c.modCfg (fun x => { x with live := new.foldl (fun t w => Tbl.ins t w.1 w.2) keep })

/-- The reaction to a mismatch at its detection (R42): the group is reloaded from the settings generation in
force, which a legal commit that waits for its instant has written already. -/
def Chip.mismatch (g : Nat) (c : Chip) : Chip :=
  let c := ((c.modCfg (fun x => { x with mismatch := x.mismatch ||| BitVec.ofNat 12 (2 ^ g) })).reloadGroup
    g).raise 0x0301 g (w32 g) 0
  if g = 5 then c.drvMismatch else c

/-- A pass matches after a mismatch (R42). -/
def Chip.resolved (g : Nat) (c : Chip) : Chip :=
  let off := ~~~ BitVec.ofNat 12 (2 ^ g)
  (c.modCfg (fun x => { x with mismatch := x.mismatch &&& off, persist := x.persist &&& off })).raise
    0x0302 g (w32 g) 0

/-- The CRC of group g with the words `bad` in the place of its own (R41). -/
def Chip.crcAfter (c : Chip) (g : Nat) (bad : List (W32 × W32)) : W32 :=
  let ws := bad.filterMap (fun w => match cmtFind w.1.toNat with
    | some f => if f.group = g then some (w.1.toNat, w.2 &&& f.mask) else none
    | none => none)
  let ts := bad.filter (fun w => inBlock 0x74000 0x3000 w.1.toNat && w.1.toNat % 4 == 0)
  let hit := ws.foldl (fun t w => putWord t w.1 w.2) c.cfg.live
  let tar := ts.foldl (fun t w => tarPut t (w.1.toNat - 0x74000) w.2) c.tariff.act
  groupCrcOf (wordOf hit) (if g = 4 then tariffWords tar else []) g

/-- CFG_CRC_PASS (R41, R42): `bad` is what a fault has made of words that the CRC of group g covers since the
last pass: its registers, and for CG4 the active tariff set, 0x74000 on. -/
def Chip.crcPass (g : Nat) (bad : List (W32 × W32)) (c : Chip) : Chip :=
  if !c.rdy rSV || !c.cfg.loaded then c else
  if c.crcAfter g bad ≠ Tbl.get 0 c.cfg.ref g then
    if c.cfg.mismatch.getLsbD g then c else c.mismatch g
  else if c.cfg.mismatch.getLsbD g then c.resolved g else c

/-- CFG_PERSIST (R42). -/
def Chip.cfgPersist (g : Nat) (c : Chip) : Chip :=
  if !c.cfg.mismatch.getLsbD g || c.cfg.persist.getLsbD g then c else
  let c := (c.modCfg (fun x => { x with persist := x.persist ||| BitVec.ofNat 12 (2 ^ g) })).raise
    0x0303 g (w32 g) 0
  c.when (legalGroup g) (Chip.modSys (fun s => { s with qcause := s.qcause ||| 1 }))

end Sys2Proof.Machine
end

