-- ==== Sys2Proof/Machine/Images.lean ====
section
/-! DEFINITION. Tally and bay images: the header (R125, R246), installing and removing them (R127-R129,
R247). -/

namespace Sys2Proof.Machine

open Sys2Proof

/-- Every byte of a slice is zero. -/
def zeroAt (b : List W8) (o n : Nat) : Bool := (slice b o n).all (fun x => x == 0)

/-- Length of the text and data sections that a header declares. -/
def imgBody (b : List W8) : Nat := 4 * leAt b 0x28 4 + leAt b 0x2C 4

/-- The digest of an image (R125): header to 0x0FF, text, data. -/
def imgDigest (b : List W8) : BitVec 256 :=
  Config.sha256 (b.take 0x100 ++ slice b 0x200 (imgBody b))

/-- An image as the library holds it. -/
def imgOf (b : List W8) : TallyImg :=
  { nameHash := BitVec.ofNat 128 (leAt b 0x10 16), entry := leAt b 0x24 4, initAt := leAt b 0x20 4,
    maxpts := leAt b 0x0C 4, w := leAt b 0x30 4, foot := leAt b 0x34 4, initBound := leAt b 0x38 4,
    reqDir := w32 (leAt b 0x3C 4), optDir := w32 (leAt b 0x50 4),
    kinds := (slice b 0x40 8).map BitVec.toNat, slots := (slice b 0x48 8).map BitVec.toNat,
    roles := (List.range 64).map (fun i => leAt b (0x80 + 2 * i) 2), bytes := b,
    sealDig := BitVec.ofNat 256 (ofBe (slice b 0x100 32)), installed := true }

/-- What every image keeps (R125): reserved bytes zero, the sections fill the image. -/
def imgShape (b : List W8) : Bool :=
  zeroAt b 0x54 44 && zeroAt b 0x120 224 && b.length == 0x200 + imgBody b
    && decide (1 ≤ leAt b 0x28 4) && decide (leAt b 0x20 4 < leAt b 0x28 4)

/-- NAME of an image (R125): ASCII, padded with zeros. DESIGN CHOICE: its codes are 0x20 to 0x7E (log 182). -/
def nameOk (b : List W8) : Bool :=
  let n := slice b 0x10 16
  let text := n.takeWhile (fun x => x != 0)
  text.all (fun x => decide (0x20 ≤ x.toNat) && decide (x.toNat < 0x7F))
    && (n.drop text.length).all (fun x => x == 0)

/-- A tally image keeps R125 and the limits of R126. -/
def tallyOk (b : List W8) : Bool :=
  imgShape b && nameOk b && leAt b 8 4 == 0 && decide (1 ≤ leAt b 0x0C 4) && decide (leAt b 0x0C 4 ≤ 16)
    && decide (leAt b 0x28 4 ≤ 16384) && decide (leAt b 0x2C 4 ≤ 253952)
    && decide (leAt b 0x24 4 < leAt b 0x28 4) && decide (leAt b 0x30 4 ≤ 50000)
    && decide (leAt b 0x38 4 ≤ 1000000)

/-- A bay image keeps R246. -/
def bayImgOk (b : List W8) : Bool :=
  imgShape b && nameOk b && leAt b 8 4 == 1 && decide (leAt b 0x28 4 ≤ 32768) && decide (leAt b 0x2C 4 ≤ 507904)
    && zeroAt b 0x0C 4 && zeroAt b 0x24 4 && zeroAt b 0x30 0x24 && zeroAt b 0x80 128

/-- Steps 7 to 9 of R127 for an image: the first failure. -/
def imgRefusal (ok : List W8 → Bool) (b : List W8) : Option W8 :=
  if leAt b 0 4 ≠ 0x54464C59 ∨ leAt b 4 4 ≠ 1 then some stVERSION
  else if digBytes (imgDigest b) ≠ slice b 0x100 32 then some stCRC
  else if !ok b then some stRANGE
  else none

/-- The live CG2 of engine k names an index. DESIGN CHOICE: a word with EN clear names none (log 183). -/
def Chip.namesImg (c : Chip) (i k : Nat) : Bool := c.engEn k && c.cf (aGate k) 16 8 == i

/-- Engine k is stopped under R128: a bad image kept it from starting. -/
def Chip.stoppedBad (c : Chip) (k : Nat) : Bool :=
  (c.eng k).run == ruUNLOADED && (c.eng k).lostFrom.isSome

/-- An install at an index is the recovery of R128: every engine that names it is stopped there. -/
def Chip.imgRecovery (c : Chip) (i : Nat) : Bool :=
  engs8.any (c.namesImg i) && engs8.all (fun k => !c.namesImg i k || c.stoppedBad k)

/-- The index is in use (R127 step 5). -/
def Chip.imgLocked (c : Chip) (i : Nat) : Bool :=
  !c.imgRecovery i &&
  (engs8.any (c.namesImg i) ||
   ((c.cfgOwner 2).isSome && engs8.any (fun k =>
      (c.cand 2 (aGate k)).getLsbD 31 && fld (c.cand 2 (aGate k)) 16 8 == i)))

/-- Steps 2 to 5 of R127, for an index. -/
def Chip.imgGate (c : Chip) (m i : Nat) : Option W8 :=
  if (c.master m).role.toNat ≠ roleMETROLOGIST then some stDENIED
  else if !c.tamper.lsw then some stSEAL
  else if 31 < i then some stRANGE
  else if c.imgLocked i then some stLOCKED
  else none

/-- The IMAGE record and the legal change of an install or a removal (R127, R129). -/
def Chip.imgRecord (i : Nat) (x : TallyImg) (c : Chip) : Chip :=
  (c.recordLegal 0x103 i 0 c.now).stage 9 0 c.now
    (leBytes 4 i ++ leBytes 16 x.nameHash.toNat ++ digBytes x.sealDig)

/-- An engine that a bad image had stopped loads the new one afresh and begins at the first sample instant
after its initialisation (R128). -/
def Chip.imgRestart (i k : Nat) (c : Chip) : Chip :=
  let at_ := (c.group k).newest
  let ctx := c.startCtx k at_
  let dirs := c.startDirs k at_
  (c.modEng k (fun q => { q with run := ruLOADING, c := at_, hpos := at_, stallAt := at_, atHalt := true,
                                 log := q.log.filter (fun e => decide (at_ ≤ e.stamp)) })).loadFresh k i ctx dirs

/-- The group of engine k passes R90 and R132 with an image under the live CG2 and CG3 (R128). -/
def Chip.imgFits (c : Chip) (x : TallyImg) (k : Nat) : Bool :=
  decide (x.w ≤ budget (c.cf (0x40000 + 4 * k) 0 2)) && (decide (x.foot ≤ 113) || c.cb (aGate k) 30)
    && (imgGroup c x c.live k).isEmpty

/-- A checked image is installed and sealed (R127, R128): the final status. -/
def Chip.imgPut (i : Nat) (b : List W8) (c : Chip) : Chip × W8 :=
  let rec_ := engs8.filter (fun k => c.namesImg i k && c.stoppedBad k)
  let x := imgOf b
  let c := (c.modImg i (fun _ => x)).imgRecord i x
  let good := rec_.filter (c.imgFits x)
  (each good (fun k c => c.imgRestart i k) c, if good.length = rec_.length then stOK else stRANGE)

/-- A staged image of a kind under a ticket, complete. -/
def Chip.stagedImg (c : Chip) (kind t : Nat) : Option Staging :=
  c.upd.stagings.find? (fun s => s.ticket.toNat == t && s.kind == kind && s.done)

/-- QE_IMG_INSTALL (R127). The staged image is consumed by an install (R357). -/
def cmdQeImgInstall (r : CmdReq) (c : Chip) : Chip × Ans :=
  let i := r.a0.toNat
  match c.imgGate r.m.val i with
  | some st => (c, { st := st })
  | none =>
    match c.stagedImg 2 (fld r.a1 0 16) with
    | none => (c, { st := stSTALE })
    | some s =>
      match imgRefusal tallyOk s.plain with
      | some st => (c, { st := st })
      | none => c.long r.m.val 0x0504 i (fun t c =>
          let x := (c.dropStaging s.ticket).imgPut i s.plain
          x.1.complete t x.2 0)

/-- QE_IMG_REMOVE (R129). -/
def cmdQeImgRemove (r : CmdReq) (c : Chip) : Chip × Ans :=
  let i := r.a0.toNat
  match c.imgGate r.m.val i with
  | some st => (c, { st := st })
  | none =>
    let x := c.img i
    if !x.installed then (c, {}) else ((c.modImg i (fun _ => {})).imgRecord i x, {})

/-- A bay index is in use (R247). -/
def Chip.bayLocked (c : Chip) (i : Nat) : Bool :=
  let names := fun (w : W32) => fld w 0 2 == i
  names (c.live 0xC0000) || ((c.cfgOwner 6).isSome && names (c.cand 6 0xC0000))

/-- BAY_IMG_INSTALL (R247). -/
def cmdBayImgInstall (r : CmdReq) (c : Chip) : Chip × Ans :=
  let i := r.a0.toNat
  if 3 < i then (c, { st := stRANGE })
  else match c.stagedImg 3 (fld r.a1 0 16) with
    | none => (c, { st := stSTALE })
    | some s =>
      match imgRefusal bayImgOk s.plain with
      | some st => (c, { st := st })
      | none => if c.bayLocked i then (c, { st := stLOCKED }) else c.long r.m.val 0x0C04 i (fun t c =>
          ((c.dropStaging s.ticket).modBayImg i (fun _ => imgOf s.plain)).complete t stOK 0)

/-- BAY_IMG_REMOVE (R247). -/
def cmdBayImgRemove (r : CmdReq) (c : Chip) : Chip × Ans :=
  let i := r.a0.toNat
  if 3 < i then (c, { st := stRANGE })
  else if !(c.bayImg i).installed then (c, {})
  else if c.bayLocked i then (c, { st := stLOCKED })
  else (c.modBayImg i (fun _ => {}), {})

end Sys2Proof.Machine
end

