-- ==== Sys2Proof/Machine/PairRows.lean ====
section
/-! DEFINITION. The tandem pair and the network links: heartbeats, switch-over, failover, lanes
(R372, R383-R391, R410), and their rows of the opcode table. -/

namespace Sys2Proof.Machine

open Sys2Proof

/-- A handover of the role is under way on the active module (R390). -/
def Pair.switching (p : Pair) : Bool := p.switchT != 0 || p.switchUpd

/-- The partner is active, so the handover is complete (R390): this module is standby; an activation
that waited for it starts (R361). -/
def Chip.switchDone (c : Chip) : Chip :=
  let p := c.pair
  let c := (c.pairStandby.modPair (fun p => { p with switchT := 0, switchUpd := false })).doneIf p.switchT stOK
  if p.switchUpd then c.startChangeover c.upd.coTicket else c

/-- The handover cannot complete, because the partner is lost: the switch is ABORTED, and an activation
that waited goes on as on a single module (log 79). -/
def Chip.switchLost (c : Chip) : Chip :=
  let p := c.pair
  let c := (c.modPair (fun p => { p with switchT := 0, switchUpd := false })).doneIf p.switchT stABORTED
  if p.switchUpd then c.startChangeover c.upd.coTicket else c

/-- What a heartbeat of the partner tells (R384). -/
def Chip.heartNote (h : Heartbeat) (c : Chip) : Chip :=
  c.modPair (fun p =>
    { p with j11Up := p.j11Up || !h.udp, udpAt := if h.udp then some c.now else p.udpAt, pRole := h.role, pMode := h.mode,
             pReady := h.ready, pSeq := h.seq, pSafe := h.safe, pTrial := h.trial })

/-- A heartbeat of the formed pair: handover, two active modules, check data (R389-R391). -/
def Chip.heartFormed (h : Heartbeat) (c : Chip) : Chip :=
  let hActive := h.role == 1 || h.role == 3
  let c :=
    if c.pair.role = 2 ∧ h.handOver then
      c.modPair (fun p => { p with role := 1, byFailover := false })
    else if c.pair.isActive && hActive then
      if c.pair.switching then c.switchDone else c.pairDual h
    else c
  match h.check with
  | some x => c.pairCompare x
  | none => c

/-- A heartbeat before the pair has formed (R20, R383): with the same post number on both modules the
pair forms on J11; with different numbers PAIR_MISMATCH holds the drives off until the first heartbeat
that shows them to agree. -/
def Chip.heartAlone (h : Heartbeat) (c : Chip) : Chip :=
  if h.post.toNat ≠ c.postNo then
    if c.pair.mismatch then c
    else (c.modPair (fun p => { p with mismatch := true })).raise 0x1301 0xFF 0 0
  else
    let c := c.modPair (fun p => { p with mismatch := false })
    if c.pair.j11Up then c.pairForm h else c

/-- A heartbeat can arrive: SV runs with PAIR_CFG.EN, on a J11 lane or with UDP_EN over NX. -/
def Chip.heartPath (c : Chip) (udp : Bool) : Bool :=
  c.pairEn && c.rdy rSV && (if udp then c.cb aPairCfg 29 && c.net.nxUp else c.pair.lane != 0)

/-- PAIR_HEARTBEAT (R383, R384, R389-R391). -/
def Chip.heartbeat (h : Heartbeat) (c : Chip) : Chip :=
  if !c.heartPath h.udp || !h.macOk then c
  else
    let c := c.heartNote h
    if c.pair.formed then c.heartFormed h else c.heartAlone h

/-- PAIR_ALONE_TIMEOUT (R383). -/
def Chip.pairAlone (c : Chip) : Chip :=
  if c.pairEn && c.rdy rSV && !c.pair.formed && c.pair.role == 0 && !c.pair.j11Up && !c.udpUp then
    c.modPair (fun p => { p with role := 3 })
  else c

/-- PAIR_PARTNER_LOST (R388): the standby takes over; in CHANGEOVER only once the new image has claimed
its dies (R387). -/
def Chip.partnerLost (c : Chip) : Chip :=
  if !c.pair.formed then c
  else
    let c := (c.modPair (fun p =>
      { p with formed := false, j11Up := false, udpAt := none, markRun := 0, excl := true })).setRdy rPAIR false
    let c := c.switchLost
    if c.pair.role = 2 ∧ c.rdy rSV then c.pairTake else c

/-- PAIR_LANE_LOSS (R410): the link is down when both lanes are. -/
def Chip.laneLoss (l : Nat) (c : Chip) : Chip :=
  if !c.pair.lane.getLsbD l then c
  else
    let c := c.modPair (fun p => { p with lane := p.lane &&& ~~~ BitVec.ofNat 2 (2 ^ l) })
    if c.pair.lane ≠ 0 then c
    else
      let c := c.modPair (fun p => { p with j11Up := false, markRun := 0 })
      if c.pairEn then c.raise 0x1303 0xFF 0 0 else c

/-- PAIR_LANE_REJOIN (R410). -/
def Chip.laneRejoin (l : Nat) (c : Chip) : Chip :=
  c.modPair (fun p => { p with lane := p.lane ||| BitVec.ofNat 2 (2 ^ l) })

/-- PAIR_SWITCH (R390). -/
def cmdPairSwitch (r : CmdReq) (c : Chip) : Chip × Ans :=
  if c.pair.role == 2 || c.sys.changeover then (c, { st := stMODE })
  else if !c.rdy rPAIR || c.pair.pMode == 0 then (c, { st := stBUSY })
  else if c.pair.switching then (c, { st := stBUSY })
  else c.long r.m.val 0x1301 0 (fun t c => c.modPair (fun p => { p with switchT := t }))

/-- NET_LINK_CHANGE (R372). -/
def Chip.linkChange (port : Nat) (up : Bool) (c : Chip) : Chip :=
  (c.modNet (fun n =>
    { n with links := if up then n.links ||| BitVec.ofNat 4 (2 ^ port)
                      else n.links &&& ~~~ BitVec.ofNat 4 (2 ^ port) })).netFollow

/-- PAIR_HEARTBEAT (R384). -/
def execPairHeartbeat (h : Heartbeat) (s : State) : Host.Outcome State Fault Refusal :=
  run (Chip.heartbeat h) s

/-- PAIR_ALONE_TIMEOUT (R383). -/
def execPairAloneTimeout (s : State) : Host.Outcome State Fault Refusal := run Chip.pairAlone s

/-- PAIR_PARTNER_LOST (R388). -/
def execPairPartnerLost (s : State) : Host.Outcome State Fault Refusal := run Chip.partnerLost s

/-- PAIR_LANE_LOSS (R410). -/
def execPairLaneLoss (lane : Fin 2) (s : State) : Host.Outcome State Fault Refusal :=
  run (Chip.laneLoss lane.val) s

/-- PAIR_LANE_REJOIN (R410). -/
def execPairLaneRejoin (lane : Fin 2) (s : State) : Host.Outcome State Fault Refusal :=
  run (Chip.laneRejoin lane.val) s

/-- NET_LINK_CHANGE (R372). -/
def execNetLinkChange (port : Fin 4) (up : Bool) (s : State) : Host.Outcome State Fault Refusal :=
  run (Chip.linkChange port.val up) s

end Sys2Proof.Machine
end

