-- ==== Sys2Proof/Machine/PowerUp.lean ====
section
/-! DEFINITION. The restart after a power failure, at first power and after SYS_RESTART: the restore of
R210, the instant r (R194), what does not survive, the records of the outage (R186, R187, R223), and
the start sequence (R374). -/

namespace Sys2Proof.Machine

open Sys2Proof

/-- What a restore found: the instant p from which the outage counts, SIX_p, civil time at SIX_p,
LAST_SAVE, and the span lost by a short save. -/
structure Restored where
  p : Nat := 0
  sixP : Nat := 0
  civil : Int := 0
  last : BitVec 2 := 0
  lost : Option Nat := none
  deriving DecidableEq, Repr

/-- A journal entry is restored (R210 step 2): its standing image counts as committed results, and the
boundaries up to its H execute. Session numbers issued since stay used (R179). -/
def Chip.restoreJournal (j : SaveRec) (c : Chip) : Chip :=
  let c := ({ c with bill := { j.bill with sessNext := c.bill.sessNext } }).modSave (fun s => { s with pendTime := j.pend })
  let c := each j.dirs (fun d c => c.modBill (fun b => b.putMp d.1 { b.mp d.1 with dirC := d.2 })) c
  let c := each j.standing (fun x c =>
    c.commitSeg x.1 j.hpos { x.2.merged with forced := true, saveShort := true }) c
  let c := (c.pendUpTo j.hpos).sessUpTo j.hpos
  let c := if c.bill.win.openSix < j.hpos then c.closeInterval (c.civil j.hpos / nsS) j.hpos false true else c
  c.modSave (fun s => { s with pendTime := [] })

/-- The restore of R210: the final save if its commit word is newer than the newest journal entry, else
that entry; neither at first power. -/
def Chip.restore (c : Chip) : Chip × Restored :=
  let fin := fun (f : SaveRec) =>
    ({ c with bill := f.bill },
      { p := f.six, sixP := f.six, civil := f.civil, last := if f.lag then 3 else 1,
        lost := if f.lag then some (f.six - f.hpos) else none : Restored })
  let jou := fun (j : SaveRec) =>
    (c.restoreJournal j, { p := j.hpos, sixP := j.six, civil := j.civil, last := 2,
                           lost := some (c.power.failAt - j.hpos) : Restored })
  match c.save.final, c.save.journal with
  | none, [] => (c, { p := c.now, sixP := c.now, civil := c.civil c.now })
  | some f, [] => fin f
  | none, j :: _ => jou j
  | some f, j :: _ => if j.six ≤ f.six then fin f else jou j

/-- The instant r (R194): SIX_p plus the outage the AO counter measured, rounded up to a multiple of 8;
8 when that counter was lost. SIX never decreases. -/
def Chip.restartSix (p : PowerOn) (x : Restored) (c : Chip) : Nat :=
  let n := if p.aoLost then 8
    else up8 (max 1 (p.outage + (if x.last = 2 then c.power.failAt - x.sixP else 0)))
  max (up8 x.sixP + n) (up8 (c.now + 1))

/-- SIX, civil time and the time sources at the restart (R194, R197, R200). -/
def Chip.restartTime (r : Nat) (aoLost : Bool) (x : Restored) (c : Chip) : Chip :=
  c.modTime (fun t =>
    let old := t.pieces.filter (fun q => decide (q.six < x.sixP))
    { six := r, pieces := { six := x.sixP, ns := x.civil, rate := clampRate t.tcxo } :: old.take 15,
      horizon := r, valid := t.valid && !aoLost, tcxo := t.tcxo, aoRate := t.aoRate, sixP := x.sixP,
      sixR := r })

/-- A tap keeps its arbiter state, its faults and its factory values through a power loss (R67); a declared
disagreement is not kept (log 177). -/
def Tap.cold (t : Tap) : Tap :=
  { arb := t.arb, fault := t.fault, held := t.held, gainFP := t.gainFP, gainFC := t.gainFC, ofsFP := t.ofsFP,
    ofsFC := t.ofsFC, tc := t.tc }

/-- A drive after a power loss: its fail state, with the latched settings of CG5 (R280, R283). -/
def Drive.cold (d : Drive) : Drive :=
  { fs := d.fs, lhMap := d.lhMap, retryLeft := d.retryLeft, tj := d.tj, therm := d.therm, ocLock := d.ocLock }

/-- What does not survive the loss of power of every island but AO: banks, sessions, claims, landings,
shadows, tickets, queues, engines, bay, drives' state, tracking, the key register, links, the pair. DESIGN CHOICE:
SYS_DENIED_CNT keeps its exact count, though R33 persists it at most once a second (log 159). -/
def Chip.coldBlocks (c : Chip) : Chip :=
  { c with
    host := { vioOk := c.host.vioOk }
    sys := { c.sys with hintStatus := 0, hintEn := 0, deniedAddr := 0, ready := 1, starting := true, changeover := false, stopAt := none,
                        dead := 0x3FE }
    masters := Tbl.mapV {} (fun m => { sess := m.sess }) c.masters
    lands := []
    cfg := { c.cfg with shadow := [], owner := [], pend := [] }
    taps := Tbl.mapV {} Tap.cold c.taps
    engs := []
    bill := { c.bill with closeT := [],
                          mps := Tbl.mapV {} (fun x => { dirC := x.dirC }) c.bill.mps,
                          spill := Tbl.mapV {} (fun (x : Spill) => { x with phase := 0 }) c.bill.spill }
    tariff := { c.tariff with stamp := none }
    evt := { c.evt with ring := [], overrun := {}, waiting := [], heldQ := [],
                        srcAt := none, src := Tbl.mapV {} EvtSrc.cold c.evt.src }
    ledger := { c.ledger with staging := c.ledger.staging.map (fun (r : LedgerRec) => { r with flags := r.flags ||| 64 }) }
    disp := {}
    ferry := []
    bay := { lib := c.bay.lib }
    drv := { c.drv with d := drives48.foldl (fun t n => Tbl.put {} t n (c.drive n).cold) [], lost := true,
                        failCg5 := false, holdExt := false }
    link := { plate := c.link.plate }
    key := { c.key with kwr := {}, pending := [], j12 := 0, j12Data := [] }
    upd := { c.upd with stagings := [], coTicket := 0, coRevert := false, coStep := 0, handover := [],
                        healthOk := false }
    net := {}
    pair := { lane := c.pair.lane } }.loseTickets

/-- The tap groups start on the grid at r (R54, R194). -/
def Chip.coldGroups (r : Nat) (c : Chip) : Chip :=
  { c with groups := engs8.foldl (fun t k =>
      Tbl.put {} t k { temp := (c.group k).temp, newest := r - c.gridD k }) [] }

/-- A change of a tamper type at an instant that the lost AO counter leaves unknown (R223): the time reads 0
and the duration 0xFFFFFFFF. -/
def Chip.tamperLost (ty : Nat) (start : Bool) (c : Chip) : Chip :=
  let c := c.modTrec ty (fun t =>
    if !start then { t with dur := 0xFFFFFFFF, holders := [] }
    else if ty = 30 then { t.start 0 with dur := 0xFFFFFFFF }
    else { t.start 0 with holders := if t.holders.isEmpty then [(0xFF, c.now)] else t.holders })
  c.tamperNote ty 0xFF c.now start []

/-- One change that the AO island captured, at its stamp (R223); MESH_BREACH is an instantaneous type (R222). -/
def Chip.tamperCaptured (ty six : Nat) (start : Bool) (c : Chip) : Chip :=
  if ty = 30 then c.tamperInst 30 0xFF six 0 []
  else if start then c.tamperStart ty 0xFF six
  else c.tamperEnd ty 0xFF six

/-- Changes of AO types in the order of their stamps, starts at one stamp in ascending type (R222, R223). -/
def capturedOrder (l : List (Nat × Bool × Nat)) : List (Nat × Bool × Nat) :=
  sortBy (fun a b => decide (a.2.2 < b.2.2) || (a.2.2 == b.2.2 && a.2.1 && b.2.1 && decide (a.1 < b.1))) l

/-- The changes the AO island captured, in the order of their stamps (R223). A condition of an AO type that
still stands when the counter was lost spans an unknown time. -/
def Chip.aoReplay (lost : Bool) (l : List (Nat × Bool × Nat)) (c : Chip) : Chip :=
  let c := c.modTamper (fun t => { t with captured := [], aoTicks := 0 })
  let c := each l (fun x c =>
    if lost then c.tamperLost x.1 x.2.1 else c.tamperCaptured x.1 (min x.2.2 c.now) x.2.1) c
  if lost then each [0, 1, 2, 3] (fun ty c =>
    c.modTrec ty (fun t => { t with unknown := !t.holders.isEmpty })) c
  else c

/-- Demand boundaries in a span of civil time, after `lo` and up to `hi`. -/
def Chip.demandPassed (c : Chip) (lo hi : Int) : Nat :=
  let st : Int := (max 1 (stepSec c.demandCfg) : Nat)
  let at_ := fun (n : Int) => (n / nsS + c.zoning.std) / st
  (at_ hi - at_ (max lo (Tbl.get 0 c.bill.lastExec 0))).toNat

/-- The tamper records of the outage up to SAVE_SHORT (R187, R210, R223), in the order of their instants and types. -/
def Chip.outageRecords (p : PowerOn) (cause : Nat) (x : Restored) (counts : Nat × Nat) (c : Chip) : Chip :=
  let r := c.now
  let off := cause == 1
  let own := if off && !p.aoLost then [(10, true, c.power.failAt)] else []
  let c := if off && p.aoLost then c.tamperLost 10 true else c
  let c := c.aoReplay p.aoLost (if p.aoLost then c.tamper.captured else capturedOrder (own ++ c.tamper.captured))
  let c := if !off then c
    else if p.aoLost then c.tamperLost 10 false else c.tamperEnd 10 0xFF r
  let dur := if p.aoLost then 0xFFFFFFFF else durMs ((r - x.p) / 32)
  let c := c.tamperInst 11 0xFF r dur
    (leBytes 4 counts.1 ++ leBytes 4 counts.2 ++ leBytes 4 (b2n p.aoLost))
  match x.lost with
  | some n => c.tamperInst 12 0xFF r (durMs (n / 32)) []
  | none => c

/-- CELL_EMPTY (R205): the AO counter was lost. -/
def Chip.cellEmpty (p : PowerOn) (c : Chip) : Chip :=
  c.when p.aoLost (fun c => (c.tamperInst 19 0xFF c.now 0 []).raise 0x0007 0xFF 0 0)

/-- A billing close that fell due during the outage executes at r, LATE_CLOSE (R186). -/
def Chip.lateClose (r : Nat) (u : Int) (c : Chip) : Chip :=
  ((c.modBill (fun b => { b with outage := true })).periodClose 2 (c.civil r / nsS) r).setExec 1 u

/-- The calendar at r (R186): an activation that fell due executes, and the tariff is that of the calendar;
switch points and demand ends of the outage are not replayed. -/
def Chip.calendarAt (r : Nat) (c : Chip) : Chip :=
  if !c.time.valid then c else
  let now := c.civil r
  let c := match c.actAt with
    | some u => if u ≤ now then c.activate (c.boundary 3 u r 1) else c
    | none => c
  let c := c.setInForce (BitVec.ofNat 6 (tariffAt c.tariff.act (c.zoning.loc (now / nsS))))
  each [0, 1, 2] (fun k c => c.setFrom k now) c

/-- The deferred boundaries at r (R186): late closes, an activation, the tariff from the calendar; the
interval and every open period carry OUTAGE where they span it (R187), and sessions close. -/
def Chip.deferred (r : Nat) (closes : List Int) (c : Chip) : Chip :=
  let c := c.modBill (fun b => { b with outage := true })
  let c := each (closes.take 36) (fun u c => c.lateClose r u) c
  let c := match closes.getLast? with
    | some u => c.setExec 1 u
    | none => c
  let c := c.calendarAt r
  let c := each c.openSessions (fun m c =>
    (c.modBill (Bill.putSess m { c.session m with closeSix := some r, reason := 0x10, outage := true })).sessionEnd m) c
  let c := c.openInterval (c.civil r / nsS) r true
  each ((List.range 256).filter (fun ch => c.cb (0x60400 + 4 * ch) 31)) (fun ch c =>
    c.modBill (fun b => b.putLp ch { b.lpc ch with partl := true, outage := true })) c

/-- Legal commits that waited for their instant are in force from the restart (R40): each is recorded. -/
def Chip.lateLegal (l : List PendCommit) (c : Chip) : Chip :=
  each (l.filter (fun x => !x.applied && decide (x.kind < 12))) (fun x c =>
    c.recordLegal x.kind 0 (c.groupCrc x.kind) c.now) c

/-- The engines enabled in CG2 load their images and start at r under the context in force (R210, R374
step 9); those that `up` names have their image loaded and verified. -/
def Chip.startEngines (r : Nat) (up : BitVec 20) (c : Chip) : Chip :=
  each (engs8.filter (fun k => c.engEn k && !c.retired)) (fun k c =>
    let ctx := c.freshCtx k
    let dirs := c.freshDirs k
    let c := c.modEng k (fun _ =>
      { run := ruLOADING, c := r, hpos := r, stallAt := r, ck := { ctx := ctx, dirs := dirs } })
    if up.getLsbD (rQE k) && c.rdy rSV then c.loadFresh k (c.cf (aGate k) 16 8) ctx dirs else c) c

/-- The SAFE, DRV, AFE and SEC islands start (R374 steps 2 to 6); each drive stands in its fail state,
limp-home where that is LIMP (R280). -/
def Chip.startIslands (p : PowerOn) (c : Chip) : Chip :=
  let up := fun i => p.up.getLsbD i
  let c := c.setDead 0x76 false
  let c := (c.setRdy rEDGE (up rEDGE)).setRdy rSF (up rEDGE && up rSF)
  let c := (c.safeStart p.swSf p.swEdge p.swBad).modSafe (fun s =>
    { s with edgeUp := up rEDGE, sfUp := up rEDGE && up rSF, sfStopped := false })
  let c := ((c.setRdy rDRV (up rDRV)).drvFailFrom [2]).setRdy rAFE (up rAFE)
  if up rKEYS && !c.key.zeroPend then (c.setRdy rKEYS true).secStart else c.when c.key.meshTrip Chip.zeroise2

/-- SV starts with its boot selection and settings, and LINK with it (R359, R369, R374 steps 7 and 8). -/
def Chip.startSv (p : PowerOn) (c : Chip) : Chip :=
  let c := c.bootSelect false
  let c := if p.up.getLsbD rSV then c.svUp else c.loadSettings
  ((c.setRdy rLINK (c.rdy rLINK && p.up.getLsbD rLINK)).ptpRestart).escAdopt

/-- The bay starts at INIT (R374 step 11). -/
def Chip.startBay (p : PowerOn) (c : Chip) : Chip :=
  let c := c.setDead 0x200 false
  if !c.bayEn then c
  else
    let c := (c.bayLoad baLOADING).when c.v2gEn Chip.modemRelease
    if p.up.getLsbD rBAY then c.bayReloaded else c

/-- The stored images that no longer match their digests (R128, R359; log 178). -/
def Chip.spoil (p : PowerOn) (c : Chip) : Chip :=
  let hit := fun (second : Bool) (x : TallyImg) => if second then { x with bad2 := true } else { x with bad1 := true }
  let c := each p.badImgs (fun b c => c.modImg b.1.val (hit b.2)) c
  let c := each p.badBays (fun b c => c.modBayImg b.1.val (hit b.2)) c
  each [false, true] (fun b c =>
    c.when (p.badSlots.getLsbD (b2n b)) (Chip.modFw b (fun x => { x with bad := true }))) c

/-- The supplies as the restart finds them (R203, R213). -/
def Chip.startSupply (p : PowerOn) (cause : Nat) (last : BitVec 2) (c : Chip) : Chip :=
  let main := decide (1600 ≤ p.mainV.toNat)
  let aux := decide (1100 ≤ p.auxV.toNat)
  (c.modPower (fun x =>
    { x with mainV := p.mainV, auxV := p.auxV, voutA := p.voutA, voutB := p.voutB,
             voutAOk := decide (1600 < p.voutA.toNat), voutBOk := decide (1600 < p.voutB.toNat), mainOk := main, auxOk := aux, onAux := !main && aux,
             holdupChg := x.holdupChg || cause == 1, saving := false, off := false, pAt := none,
             lastSave := last, testRun := false, testTicket := 0, charger := true, hkSilent := false })).cellMeasured
    p.cell

/-- POWER_UP may come now: at first power, after a power failure, or for a SYS_RESTART. -/
def Chip.mayStart (c : Chip) : Bool :=
  c.power.saving || c.power.off || c.power.pAt.isSome || (c.sys.starting && c.sys.ready == 1)

/-- POWER_UP (R374): a save under way runs to its end; then the module restores and starts. The tamper types that
start at r are recorded in ascending order (R222). -/
def Chip.powerUp (p : PowerOn) (c : Chip) : Chip :=
  if !c.mayStart then c else
  let first := !c.power.saving && !c.power.off && c.power.pAt.isNone
  let cause := if c.power.saving || c.power.off || first then 1 else 4
  let c := if c.power.off then c.pairReset else c.pairReset.finalSave
  let legal := c.cfg.pend
  let x := c.restore
  let c := x.1
  let x := x.2
  let r := c.restartSix p x
  let c := if first then c.modSys (fun s => { s with resetCount := satInc s.resetCount, cause := 1 })
           else c.countReset cause
  let c := ((c.coldBlocks.restartTime r p.aoLost x).startSupply p cause x.last).spoil p
  let sw := c.safe.prevCrc
  let c := ((c.startIslands p).startSv p).coldGroups r
  let closes := if c.time.valid then c.closesIn (c.dueFrom 1 x.civil) (c.civil r) else []
  let counts := (if c.time.valid then c.demandPassed x.civil (c.civil r) else 0, closes.length)
  let c := if first then c else (c.outageRecords p cause x counts).lateLegal legal
  let c := c.when (c.rdy rKEYS) Chip.secRecords
  let c := (if first then c else c.cellEmpty p).swRecord sw
  let c := if first then c.openInterval (c.civil r / nsS) r true else c.deferred r closes
  let c := c.startEngines r p.up
  let c := (c.setRdy rBILL (p.up.getLsbD rBILL)).journalPut
  (c.startBay p).enterHeld

end Sys2Proof.Machine
end

