-- ==== Sys2Proof/Machine/PowerRows.lean ====
section
/-! DEFINITION. The rows of the opcode table about supplies, saving, HK and the start (09, 18). -/

namespace Sys2Proof.Machine

open Sys2Proof

/-- MAIN_DROP (R203). -/
def execMainDrop (s : State) : Host.Outcome State Fault Refusal := run Chip.mainDrop s

/-- MAIN_TAKEOVER (R203). -/
def execMainTakeover (s : State) : Host.Outcome State Fault Refusal := run Chip.mainTakeover s

/-- AUX_LOST (R203). -/
def execAuxLost (s : State) : Host.Outcome State Fault Refusal := run Chip.auxLost s

/-- AUX_RAIL_RETURN (R203). -/
def execAuxRailReturn (s : State) : Host.Outcome State Fault Refusal := run Chip.auxReturn s

/-- MAIN_LOW (R203). -/
def execMainLow (s : State) : Host.Outcome State Fault Refusal := run Chip.mainLow s

/-- POWER_FAIL_DETECT (R206-R208). -/
def execPowerFailDetect (s : State) : Host.Outcome State Fault Refusal := run Chip.powerFail s

/-- HOLDUP_EXHAUSTED (R208). -/
def execHoldupExhausted (complete : Bool) (s : State) : Host.Outcome State Fault Refusal :=
  run (Chip.exhausted complete) s

/-- POWER_UP (R374). -/
def execPowerUp (p : PowerOn) (s : State) : Host.Outcome State Fault Refusal := run (Chip.powerUp p) s

/-- START_END (R374). -/
def execStartEnd (s : State) : Host.Outcome State Fault Refusal := run Chip.startEnd s

/-- START_INCOMPLETE (R374). -/
def execStartIncomplete (s : State) : Host.Outcome State Fault Refusal := run Chip.startLate s

/-- JOURNAL_ENTRY (R209). -/
def execJournalEntry (s : State) : Host.Outcome State Fault Refusal := run Chip.journalEntry s

/-- HOLDUP_TEST_DAILY (R212). -/
def execHoldupTestDaily (s : State) : Host.Outcome State Fault Refusal := run Chip.testDaily s

/-- CHARGER_RECONNECT (R15, R212). -/
def execChargerReconnect (holdup : W16) (cap : W8) (s : State) : Host.Outcome State Fault Refusal :=
  run (Chip.testEnd holdup cap) s

/-- HU_OVERDUE (R212). -/
def execHuOverdue (s : State) : Host.Outcome State Fault Refusal := run Chip.huOverdue s

/-- HOLDUP_CHARGED (R213). -/
def execHoldupCharged (s : State) : Host.Outcome State Fault Refusal := run Chip.holdupCharged s

/-- CELL_MEASURE (R205). -/
def execCellMeasure (v : W8) (s : State) : Host.Outcome State Fault Refusal :=
  run (fun c => c.when c.powered (Chip.cellMeasured v)) s

/-- HK_REPORT (R15). -/
def execHkReport (r : HkReport) (s : State) : Host.Outcome State Fault Refusal :=
  run (Chip.hkReport r) s

/-- HK_SILENT (R15). -/
def execHkSilent (s : State) : Host.Outcome State Fault Refusal := run Chip.hkSilence s

/-- MEMORY_SCRUB (R15): the controller writes back the corrected value of a word, so that no word of the
block changes; the write is counted. -/
def execMemoryScrub (s : State) : Host.Outcome State Fault Refusal :=
  run (Chip.modPower (fun p => { p with scrubbed := p.scrubbed + 1 })) s

end Sys2Proof.Machine
end

