-- ==== Sys2Proof/Machine/Commands.lean ====
section
/-! DEFINITION. The command banks: what is checked before a command's own checks (R418, R34, R25,
R416), TICKET_CANCEL and NOP (R46), and the rows that write a command's code (R43). -/

namespace Sys2Proof.Machine

open Sys2Proof

/-- A row of the command tables: its code, the role it needs (0 none, 6 ADMIN or METROLOGIST), the
readiness bits of R416, whether it is open in QUARANTINE or RETIRED (R34) and closed on trial (R368),
an ownership it needs, and its own description. -/
structure CmdRow where
  code : Nat
  role : CmdReq → Nat
  bits : List Nat := [rSV]
  quar : Chip → CmdReq → Bool := fun _ _ => false
  retd : CmdReq → Bool := fun _ => false
  trial : Bool := false
  own : Chip → CmdReq → Bool := fun _ _ => true
  fn : CmdReq → Chip → Chip × Ans

/-- The table Roles (R352): whether a role is or includes the one that is needed; 6 stands for ADMIN
or METROLOGIST. -/
def roleHolds (have_ need : Nat) : Bool :=
  if need = 3 then have_ == 3 || have_ == 5
  else if need = 4 then have_ == 4
  else if need = 5 then have_ == 5
  else if need = 6 then decide (3 ≤ have_)
  else decide (need ≤ have_)

/-- A quarantine cause is set. -/
def Chip.quarCause (c : Chip) (i : Nat) : Bool := c.sys.qcause.getLsbD i

/-- The kinds of staging that a quarantine cause leaves open: PLATFORM under the recovery image
(R360), key messages after a zeroisation (R349), tally images for the recovery of R128. -/
def Chip.quarKind (c : Chip) (kind : Nat) : Bool :=
  (kind == 1 && c.quarCause 3) || (kind == 4 && c.quarCause 2) || (kind == 2 && c.quarCause 1)

/-- A chunk for a staging that the quarantine leaves open. -/
def Chip.quarChunk (c : Chip) (r : CmdReq) : Bool :=
  c.upd.stagings.any (fun s => s.ticket.toNat == fld r.a0 0 16 && c.quarKind s.kind)

/-- LINK_PT_READ of the public mirror is a read command (R326). -/
def ptMirror (r : CmdReq) : Bool := decide (fld r.a0 0 8 < 0x40)

/-- The role LINK_PT_READ needs for a block (the table Plate tag areas). -/
def ptRole (r : CmdReq) : Nat :=
  if fld r.a0 0 8 < 0x40 then 1 else if fld r.a0 0 8 < 0x80 then 6 else 2

/-- The role UPD_STAGE needs (17): ADMIN, or METROLOGIST for TALLY. -/
def stageRole (r : CmdReq) : Nat := if fld r.a0 0 4 = 2 then 6 else 3

/-- A mode closes a command (R418 step 2, R34, R368). -/
def Chip.cmdClosed (c : Chip) (x : CmdRow) (r : CmdReq) : Bool :=
  c.sys.changeover || (c.retired && !(r.m.val == 0 && x.retd r))
    || (c.sys.qcause != 0 && !x.quar c r) || (x.trial && c.onTrial)

/-- A READER session may issue no session command but KEY_LOGOUT and KEY_PASSWD (R25). -/
def notReader (c : Chip) (r : CmdReq) : Bool := c.roleNo r.m.val != 1

/-- The session, role or ownership allows a command (R418 step 3); in RETIRED the commands left
open are open to every host-port master. -/
def Chip.cmdAllowed (c : Chip) (x : CmdRow) (r : CmdReq) : Bool :=
  (c.retired || roleHolds (c.roleNo r.m.val) (x.role r)) && x.own c r

/-- A command from its checks in the order of R418 to its answer. -/
def Chip.command (x : CmdRow) (r : CmdReq) (c : Chip) : Chip × Ans :=
  if c.cmdClosed x r then (c, { st := stMODE })
  else if !c.cmdAllowed x r then (c, { st := stDENIED })
  else if x.bits.any (fun i => !c.rdy i) then (c, { st := stBUSY })
  else x.fn r c

/-- KEY_BUF is cleared after each KEY command (16). -/
def Chip.keyBufClear (m code : Nat) (c : Chip) : Chip :=
  if code / 256 = 0x10 then c.modMaster m (fun y => { y with keyBuf := [] }) else c

/-- CMD_STATUS shows an acknowledgement (R43); the host port is hinted (R29). -/
def Chip.acknowledge (m : Nat) (a : Ans) (c : Chip) : Chip :=
  (c.modMaster m (fun y => { y with ticket := a.ticket, ack := true, lost := false,
                                    status := a.st })).when (m == 0) (Chip.hint 8)

/-- A write of CMD_CODE (R43): discarded with LOST while the previous command of the bank has not
been acknowledged, else answered; a code that no block defines is UNKNOWN_CMD. -/
def Chip.cmdCode (x : Option CmdRow) (code : Nat) (r : CmdReq) (c : Chip) : Chip :=
  let m := r.m.val
  if r.early && (c.master m).ack then c.modMaster m (fun y => { y with lost := true })
  else
    let a : Chip × Ans := match x with
      | none => (c, { st := stUNKNOWN })
      | some x => c.command x r
    (a.1.keyBufClear m code).acknowledge m a.2

/-- A master's accesses reach the window: the host port answers frames (R373, R402), or the session's
connection is open. -/
def Chip.hears (c : Chip) (m : Nat) : Bool :=
  if m = 0 then c.host.enabled && c.host.vioOk && !c.power.off else (c.master m).conn

/-- The bridge completes an access to an island that does not answer (R17). -/
def Chip.bridgeTimeout (isl m a : Nat) (write : Bool) (c : Chip) : Chip :=
  c.raise 0x0002 isl (w32 (m * 2 ^ 24 + a % 2 ^ 24)) (w32 (b2n write))

/-- A master writes a command's arguments and then its code (R43). The command bank lies in the SV
island (R416); in CHANGEOVER the frames complete with BUSY and write nothing (R34). -/
def Chip.writeCode (x : CmdRow) (r : CmdReq) (c : Chip) : Chip :=
  let m := r.m.val
  if !c.hears m || c.sys.changeover then c
  else if c.sys.dead.getLsbD 3 then c.bridgeTimeout 3 m 0x20010 true
  else (c.modMaster m (fun y => { y with arg0 := r.a0, arg1 := r.a1, arg2 := r.a2,
                                         arg3 := r.a3 })).cmdCode (some x) x.code r

/-- NOP (R46). -/
def cmdNop (_r : CmdReq) (c : Chip) : Chip × Ans := (c, {})

/-- The commands their chapters call uncancellable: SYS_RESTART, BILL_CLOSE, BILL_ZERO, TIME_SET,
KEY_UPDATE, KEY_LC_SET, UPD_ACTIVATE. -/
def noCancel : List Nat :=
  [0x0003, 0x0601, 0x0603, 0x0802, 0x1006, 0x100A, 0x1103]

/-- The pending legal change of a ticket. -/
def Chip.pendOf (c : Chip) (t : W16) : Option PendCommit := c.cfg.pend.find? (fun p => p.ticket == t)

/-- The events of a pending change at its stamp, in an engine's log. -/
def pendEvent (p : PendCommit) (e : CtxEv) : Bool :=
  some e.stamp == p.stamp && e.src == 3 &&
  match e.change with
  | .legal g _ _ _ => g == p.kind
  | .modeSet on => p.kind == 0x102 && on == (p.arg != 0)
  | _ => false

/-- A session that a CG3 commit was to close stays open (R182). -/
def Chip.sessionKeep (stamp m : Nat) (c : Chip) : Chip :=
  let mine := fun (e : CtxEv) => e.stamp == stamp && e.src == 3 &&
    match e.change with
    | .sessClose n _ _ => n == m
    | _ => false
  let c := c.modBill (Bill.putSess m { c.session m with closeSix := none, reason := 0, eng := none })
  each engs8 (fun k c => c.modEng k (fun q => { q with log := q.log.filter (fun e => !mine e) })) c

/-- A pending change is given up before its instant: its events leave the engines' logs, and the settings
generation that holds its words is followed by one without them. -/
def Chip.cancelChange (p : PendCommit) (c : Chip) : Chip :=
  let c := c.modCfg (fun x => { x with pend := x.pend.filter (fun y => y != p) })
  let c := each engs8 (fun k c => c.modEng k (fun q =>
    { q with log := q.log.filter (fun e => !pendEvent p e),
             prog := if p.kind == 2 && q.prog == p.stamp then none else q.prog })) c
  if 12 ≤ p.kind then c else
  let c := match p.stamp with
    | some s =>
      each (c.openSessions.filter (fun m => p.kind == 3 && (c.session m).closeSix == some s
        && (c.session m).reason == 0x13)) (Chip.sessionKeep s) c
    | none => c
  c.writeGen (p.words.foldl (fun t w => putWord t w.1 (c.live w.1)) c.genWords)

/-- The cancellation of a pending change (R46): before its instant it is given up, and after it the change
takes effect without its ticket. -/
def Chip.cancelPend (p : PendCommit) (c : Chip) : Chip :=
  if c.atInstant p then
    c.modCfg (fun x => { x with pend := mapIf (fun y => y == p) (fun y => { y with ticket := 0 }) x.pend })
  else c.cancelChange p

/-- What the cancellation of an outstanding operation leaves undone. -/
def Chip.cancelEffect (x : Ticket) (c : Chip) : Chip :=
  match c.pendOf x.no with
  | some p => c.cancelPend p
  | none =>
    match x.code.toNat with
    | 0x0010 => c.modPower (fun p => { p with testTicket := 0, testRun := false })
    | 0x0401 => c.modTap x.arg (fun t => { t with roundTicket := 0, roundDue := t.roundDue && t.routine })
    | 0x0501 => c.restartCancel x.arg
    | 0x0506 => c.modEng x.arg (fun q => { q with recMask := 0, recTicket := 0, recDrop := 0 })
    | 0x0A01 => c.ferryTestEnd x.arg
    | 0x0C02 => c.bayCancel x.no
    | 0x0D03 => c.modDrive x.arg (fun d => { d with ticket := 0, testing := 0 })
    | 0x0F01 | 0x0F02 => c.modPlate (fun p => { p with queue := p.queue.filter (fun y => y.ticket != x.no) })
    | 0x0F03 => c.modLink (fun l => { l with xfers := l.xfers.filter (fun y => y.ticket != x.no) })
    | 0x1002 | 0x1004 | 0x1007 | 0x1009 => c.modKey (fun k => { k with pending := k.pending.filter (fun y => y.ticket != x.no) })
    | 0x1101 => c.dropStaging x.no
    | 0x1104 => c.modUpd (fun u => { u with coTicket := if u.coTicket = x.no then 0 else u.coTicket })
    | 0x1301 => c.modPair (fun p => { p with switchT := 0 })
    | _ => c

/-- A ticket that a session may cancel (R46): its own, or any for ADMIN. -/
def Chip.mayCancel (c : Chip) (r : CmdReq) : Bool :=
  (c.ticketOut (BitVec.ofNat 16 (fld r.a0 0 16))).all (fun x =>
    (x.master == r.m.val && x.sess == (c.master r.m.val).sess) || roleHolds (c.roleNo r.m.val) 3)

/-- TICKET_CANCEL (R46): STALE for a ticket that is not outstanding, DENIED unless the issuing session
or an ADMIN session asks and the operation can be cancelled. The next safe point is now. -/
def cmdTicketCancel (r : CmdReq) (c : Chip) : Chip × Ans :=
  match c.ticketOut (BitVec.ofNat 16 (fld r.a0 0 16)) with
  | none => (c, { st := stSTALE })
  | some x =>
    if noCancel.contains x.code.toNat then (c, { st := stDENIED })
    else ((c.cancelEffect x).complete x.no stABORTED 0, {})

/-- SYS_MODE_SET (R377). -/
def rowSysModeSet : CmdRow :=
  { code := 0x0001, role := fun _ => 4, fn := cmdSysModeSet }

/-- SYS_QUAR_CLR (R378). -/
def rowSysQuarClr : CmdRow :=
  { code := 0x0002, role := fun _ => 4, quar := fun _ _ => true, fn := cmdSysQuarClr }

/-- SYS_RESTART (R381). -/
def rowSysRestart : CmdRow :=
  { code := 0x0003, role := fun _ => 3, fn := cmdSysRestart }

/-- HOLDUP_TEST (R212). -/
def rowHoldupTest : CmdRow :=
  { code := 0x0010, role := fun _ => 2, fn := cmdHoldupTest }

/-- NOP (R46). -/
def rowNop : CmdRow :=
  { code := 0x0200, role := fun _ => 1, quar := fun _ _ => true, retd := fun _ => true,
    fn := cmdNop }

/-- TICKET_CANCEL (R46). -/
def rowTicketCancel : CmdRow :=
  { code := 0x0201, role := fun _ => 1, quar := fun _ _ => true, retd := fun _ => true,
    own := Chip.mayCancel, fn := cmdTicketCancel }

/-- TAP_REF_NOW (R60). -/
def rowTapRefNow : CmdRow :=
  { code := 0x0401, role := fun _ => 2, bits := [rAFE], fn := cmdTapRefNow }

/-- TAP_CHAIN_RESET (R62). -/
def rowTapChainReset : CmdRow :=
  { code := 0x0402, role := fun _ => 4, bits := [rAFE], trial := true, fn := cmdTapChainReset }

/-- TAP_GLITCH_CLR (R53). -/
def rowTapGlitchClr : CmdRow :=
  { code := 0x0403, role := fun _ => 2, bits := [rAFE], fn := cmdTapGlitchClr }

/-- QE_RESTART (R87). -/
def rowQeRestart : CmdRow :=
  { code := 0x0501, role := fun _ => 3, fn := cmdQeRestart }

/-- QE_CNT_CLR (R90). -/
def rowQeCntClr : CmdRow :=
  { code := 0x0502, role := fun _ => 2, fn := cmdQeCntClr }

/-- QE_TRACE (R12). -/
def rowQeTrace : CmdRow :=
  { code := 0x0503, role := fun _ => 2, fn := cmdQeTrace }

/-- QE_IMG_INSTALL (R127). -/
def rowQeImgInstall : CmdRow :=
  { code := 0x0504, role := fun _ => 4, trial := true, quar := fun c r => c.imgRecovery r.a0.toNat,
    fn := cmdQeImgInstall }

/-- QE_IMG_REMOVE (R129). -/
def rowQeImgRemove : CmdRow :=
  { code := 0x0505, role := fun _ => 4, fn := cmdQeImgRemove }

/-- QE_TAP_RECORD (R134). -/
def rowQeTapRecord : CmdRow :=
  { code := 0x0506, role := fun _ => 3, fn := cmdQeTapRecord }

/-- BILL_CLOSE (R176). -/
def rowBillClose : CmdRow :=
  { code := 0x0601, role := fun _ => 3, bits := [rBILL], fn := cmdBillClose }

/-- BILL_SESS_CLOSE (R182). -/
def rowBillSessClose : CmdRow :=
  { code := 0x0602, role := fun _ => 3, bits := [rBILL], fn := cmdBillSessClose }

/-- BILL_ZERO (R178). -/
def rowBillZero : CmdRow :=
  { code := 0x0603, role := fun _ => 4, bits := [rBILL], trial := true, fn := cmdBillZero }

/-- BILL_LP_READ (R184). -/
def rowBillLpRead : CmdRow :=
  { code := 0x0604, role := fun _ => 2, bits := [rBILL],
    quar := fun _ _ => true, retd := fun _ => true, fn := cmdBillLpRead }

/-- TARIFF_SCHEDULE (R167). -/
def rowTariffSchedule : CmdRow :=
  { code := 0x0701, role := fun _ => 3, bits := [rBILL], fn := cmdTariffSchedule }

/-- TARIFF_UNSCHEDULE (R168). -/
def rowTariffUnschedule : CmdRow :=
  { code := 0x0702, role := fun _ => 3, bits := [rBILL], fn := cmdTariffUnschedule }

/-- TARIFF_COPY (R166). -/
def rowTariffCopy : CmdRow :=
  { code := 0x0703, role := fun _ => 3, bits := [rBILL], fn := cmdTariffCopy }

/-- TIME_ADJUST (R197). -/
def rowTimeAdjust : CmdRow :=
  { code := 0x0801, role := fun _ => 3, fn := cmdTimeAdjust }

/-- TIME_SET (R198). -/
def rowTimeSet : CmdRow :=
  { code := 0x0802, role := fun _ => 6, own := Chip.mayTimeSet, fn := cmdTimeSet }

/-- EVT_READ (R220). -/
def rowEvtRead : CmdRow :=
  { code := 0x0901, role := fun _ => 1, quar := fun _ _ => true, retd := fun _ => true,
    fn := cmdEvtRead }

/-- EVT_CNT_CLR (R216). -/
def rowEvtCntClr : CmdRow :=
  { code := 0x0902, role := fun _ => 3, fn := cmdEvtCntClr }

/-- LEDGER_READ (R233). -/
def rowLedgerRead : CmdRow :=
  { code := 0x0903, role := fun _ => 1, quar := fun _ _ => true, retd := fun _ => true,
    fn := cmdLedgerRead }

/-- LEDGER_ACK (R232). -/
def rowLedgerAck : CmdRow :=
  { code := 0x0904, role := fun _ => 3, fn := cmdLedgerAck }

/-- FERRY_TEST (R243). -/
def rowFerryTest : CmdRow :=
  { code := 0x0A01, role := fun _ => 3,
    own := fun c r => (c.fq (fld r.a0 0 3)).owner == some r.m.val, fn := cmdFerryTest }

/-- DISP_TEST (R227). -/
def rowDispTest : CmdRow :=
  { code := 0x0B01, role := fun _ => 2, fn := cmdDispTest }

/-- BAY_SIGNAL (R249). -/
def rowBaySignal : CmdRow :=
  { code := 0x0C01, role := fun _ => 2, fn := cmdBaySignal }

/-- BAY_RESTART (R250). -/
def rowBayRestart : CmdRow :=
  { code := 0x0C02, role := fun _ => 3, fn := cmdBayRestart }

/-- BAY_TRIP_CLR (R265). -/
def rowBayTripClr : CmdRow :=
  { code := 0x0C03, role := fun _ => 3, fn := cmdBayTripClr }

/-- BAY_IMG_INSTALL (R247). -/
def rowBayImgInstall : CmdRow :=
  { code := 0x0C04, role := fun _ => 3, fn := cmdBayImgInstall }

/-- BAY_IMG_REMOVE (R247). -/
def rowBayImgRemove : CmdRow :=
  { code := 0x0C05, role := fun _ => 3, fn := cmdBayImgRemove }

/-- DRV_CLR (R273). -/
def rowDrvClr : CmdRow :=
  { code := 0x0D01, role := fun _ => 2, bits := [rDRV], fn := cmdDrvClr }

/-- DRV_RECLAIM (R282). -/
def rowDrvReclaim : CmdRow :=
  { code := 0x0D02, role := fun _ => 3, fn := cmdDrvReclaim }

/-- DRV_TEST_NOW (R276). -/
def rowDrvTestNow : CmdRow :=
  { code := 0x0D03, role := fun _ => 2, bits := [rDRV], fn := cmdDrvTestNow }

/-- LINK_PT_READ (R328). -/
def rowLinkPtRead : CmdRow :=
  { code := 0x0F01, role := ptRole, bits := [rLINK],
    quar := fun _ r => ptMirror r, retd := ptMirror, fn := cmdLinkPtRead }

/-- LINK_PT_WRITE (R328). -/
def rowLinkPtWrite : CmdRow :=
  { code := 0x0F02, role := fun _ => 3, bits := [rLINK], fn := cmdLinkPtWrite }

/-- LINK_XFER (R331). -/
def rowLinkXfer : CmdRow :=
  { code := 0x0F03, role := fun _ => 2, bits := [rLINK], fn := cmdLinkXfer }

/-- LINK_CNT_CLR (R312). -/
def rowLinkCntClr : CmdRow :=
  { code := 0x0F04, role := fun _ => 2, bits := [rLINK], fn := cmdLinkCntClr }

/-- KEY_CHALLENGE (R353). -/
def rowKeyChallenge : CmdRow :=
  { code := 0x1001, role := fun _ => 0, bits := [rSV, rKEYS], quar := fun _ _ => true,
    own := notReader, fn := cmdKeyChallenge }

/-- KEY_LOGIN (R353). -/
def rowKeyLogin : CmdRow :=
  { code := 0x1002, role := fun _ => 0, bits := [rSV, rKEYS], quar := fun _ _ => true,
    own := notReader, fn := cmdKeyLogin }

/-- KEY_LOGOUT (R355). -/
def rowKeyLogout : CmdRow :=
  { code := 0x1003, role := fun _ => 1, bits := [rSV, rKEYS],
    quar := fun _ _ => true, retd := fun _ => true, fn := cmdKeyLogout }

/-- KEY_PASSWD (R355). -/
def rowKeyPasswd : CmdRow :=
  { code := 0x1004, role := fun _ => 1, bits := [rSV, rKEYS],
    quar := fun _ _ => true, retd := fun _ => true, own := Chip.mayPasswd, fn := cmdKeyPasswd }

/-- KEY_ACCT_SET (R353). -/
def rowKeyAcctSet : CmdRow :=
  { code := 0x1005, role := fun _ => 6, bits := [rSV, rKEYS], quar := fun c _ => c.quarCause 2,
    own := Chip.mayAcctSet, fn := cmdKeyAcctSet }

/-- KEY_UPDATE (R341). -/
def rowKeyUpdate : CmdRow :=
  { code := 0x1006, role := fun _ => 3, bits := [rSV, rKEYS], quar := fun c _ => c.quarCause 2,
    fn := cmdKeyUpdate }

/-- KEY_REPLACE (R343). -/
def rowKeyReplace : CmdRow :=
  { code := 0x1007, role := fun _ => 3, bits := [rSV, rKEYS], fn := cmdKeyReplace }

/-- KEY_INVALIDATE (R345). -/
def rowKeyInvalidate : CmdRow :=
  { code := 0x1008, role := fun _ => 3, bits := [rSV, rKEYS], fn := cmdKeyInvalidate }

/-- KEY_DERIVE (R346). -/
def rowKeyDerive : CmdRow :=
  { code := 0x1009, role := fun _ => 3, bits := [rSV, rKEYS], fn := cmdKeyDerive }

/-- KEY_LC_SET (R347). -/
def rowKeyLcSet : CmdRow :=
  { code := 0x100A, role := fun _ => 3, bits := [rSV, rKEYS],
    quar := fun c r => c.quarCause 2 && fld r.a0 0 4 == 2, own := Chip.mayLcSet, fn := cmdKeyLcSet }

/-- UPD_STAGE (R357). -/
def rowUpdStage : CmdRow :=
  { code := 0x1101, role := stageRole, quar := fun c r => c.quarKind (fld r.a0 0 4),
    fn := cmdUpdStage }

/-- UPD_CHUNK (R357). -/
def rowUpdChunk : CmdRow :=
  { code := 0x1102, role := fun _ => 2, quar := fun c r => c.quarChunk r, own := Chip.mayChunk,
    fn := cmdUpdChunk }

/-- UPD_ACTIVATE (R362). -/
def rowUpdActivate : CmdRow :=
  { code := 0x1103, role := fun _ => 6, quar := fun c r => roleHolds (c.roleNo r.m.val) 3, trial := true,
    fn := cmdUpdActivate }

/-- UPD_REVERT (R367). -/
def rowUpdRevert : CmdRow :=
  { code := 0x1104, role := fun _ => 3, fn := cmdUpdRevert }

/-- UPD_DISCARD (R357). -/
def rowUpdDiscard : CmdRow :=
  { code := 0x1105, role := fun _ => 3, fn := cmdUpdDiscard }

/-- PAIR_SWITCH (R390). -/
def rowPairSwitch : CmdRow :=
  { code := 0x1301, role := fun _ => 3, fn := cmdPairSwitch }

/-- Every command of the table Host window blocks (R32). -/
def cmdRows : List CmdRow :=
  [rowSysModeSet, rowSysQuarClr, rowSysRestart, rowHoldupTest, rowNop, rowTicketCancel,
   rowTapRefNow, rowTapChainReset, rowTapGlitchClr, rowQeRestart, rowQeCntClr, rowQeTrace] ++
  [rowQeImgInstall, rowQeImgRemove, rowQeTapRecord, rowBillClose, rowBillSessClose, rowBillZero,
   rowBillLpRead, rowTariffSchedule, rowTariffUnschedule, rowTariffCopy, rowTimeAdjust,
   rowTimeSet] ++
  [rowEvtRead, rowEvtCntClr, rowLedgerRead, rowLedgerAck, rowFerryTest, rowDispTest, rowBaySignal,
   rowBayRestart, rowBayTripClr, rowBayImgInstall, rowBayImgRemove, rowDrvClr] ++
  [rowDrvReclaim, rowDrvTestNow, rowLinkPtRead, rowLinkPtWrite, rowLinkXfer, rowLinkCntClr,
   rowKeyChallenge, rowKeyLogin, rowKeyLogout, rowKeyPasswd, rowKeyAcctSet, rowKeyUpdate] ++
  [rowKeyReplace, rowKeyInvalidate, rowKeyDerive, rowKeyLcSet, rowUpdStage, rowUpdChunk,
   rowUpdActivate, rowUpdRevert, rowUpdDiscard, rowPairSwitch]

/-- The command of a code (R32). -/
def cmdFind (code : Nat) : Option CmdRow := cmdRows.find? (fun x => x.code == code)

/-- TICKET_COMPLETION (R45): a long operation reports its end. A key operation reports the outcome
that its checks fixed; a queue test ends its parity mode. -/
def Chip.opDone (t : W16) (st : W8) (result : W32) (c : Chip) : Chip :=
  match c.ticketOut t with
  | none => c
  | some x =>
    if x.code.toNat / 256 = 0x10 then c.keyDone x
    else (c.when (x.code == 0x0A01) (Chip.ferryTestEnd x.arg)).complete t st result

/-- TICKET_COMPLETION. -/
def execTicketCompletion (t : W16) (status : W8) (result : W32) (s : State) :
    Host.Outcome State Fault Refusal :=
  run (Chip.opDone t status result) s

/-- SYS_MODE_SET (R377): its code is written with its arguments (R43, R418). -/
def execSysModeSet (r : CmdReq) (s : State) : Host.Outcome State Fault Refusal :=
  run (Chip.writeCode rowSysModeSet r) s

/-- SYS_QUAR_CLR (R378): its code is written with its arguments (R43, R418). -/
def execSysQuarClr (r : CmdReq) (s : State) : Host.Outcome State Fault Refusal :=
  run (Chip.writeCode rowSysQuarClr r) s

/-- SYS_RESTART (R381): its code is written with its arguments (R43, R418). -/
def execSysRestart (r : CmdReq) (s : State) : Host.Outcome State Fault Refusal :=
  run (Chip.writeCode rowSysRestart r) s

/-- HOLDUP_TEST (R212): its code is written with its arguments (R43, R418). -/
def execHoldupTest (r : CmdReq) (s : State) : Host.Outcome State Fault Refusal :=
  run (Chip.writeCode rowHoldupTest r) s

/-- NOP (R46): its code is written with its arguments (R43, R418). -/
def execNop (r : CmdReq) (s : State) : Host.Outcome State Fault Refusal :=
  run (Chip.writeCode rowNop r) s

/-- TICKET_CANCEL (R46): its code is written with its arguments (R43, R418). -/
def execTicketCancel (r : CmdReq) (s : State) : Host.Outcome State Fault Refusal :=
  run (Chip.writeCode rowTicketCancel r) s

/-- TAP_REF_NOW (R60): its code is written with its arguments (R43, R418). -/
def execTapRefNow (r : CmdReq) (s : State) : Host.Outcome State Fault Refusal :=
  run (Chip.writeCode rowTapRefNow r) s

/-- TAP_CHAIN_RESET (R62): its code is written with its arguments (R43, R418). -/
def execTapChainReset (r : CmdReq) (s : State) : Host.Outcome State Fault Refusal :=
  run (Chip.writeCode rowTapChainReset r) s

/-- TAP_GLITCH_CLR (R53): its code is written with its arguments (R43, R418). -/
def execTapGlitchClr (r : CmdReq) (s : State) : Host.Outcome State Fault Refusal :=
  run (Chip.writeCode rowTapGlitchClr r) s

/-- QE_RESTART (R87): its code is written with its arguments (R43, R418). -/
def execQeRestart (r : CmdReq) (s : State) : Host.Outcome State Fault Refusal :=
  run (Chip.writeCode rowQeRestart r) s

/-- QE_CNT_CLR (R90): its code is written with its arguments (R43, R418). -/
def execQeCntClr (r : CmdReq) (s : State) : Host.Outcome State Fault Refusal :=
  run (Chip.writeCode rowQeCntClr r) s

/-- QE_TRACE (R12): its code is written with its arguments (R43, R418). -/
def execQeTrace (r : CmdReq) (s : State) : Host.Outcome State Fault Refusal :=
  run (Chip.writeCode rowQeTrace r) s

/-- QE_IMG_INSTALL (R127): its code is written with its arguments (R43, R418). -/
def execQeImgInstall (r : CmdReq) (s : State) : Host.Outcome State Fault Refusal :=
  run (Chip.writeCode rowQeImgInstall r) s

/-- QE_IMG_REMOVE (R129): its code is written with its arguments (R43, R418). -/
def execQeImgRemove (r : CmdReq) (s : State) : Host.Outcome State Fault Refusal :=
  run (Chip.writeCode rowQeImgRemove r) s

/-- QE_TAP_RECORD (R134): its code is written with its arguments (R43, R418). -/
def execQeTapRecord (r : CmdReq) (s : State) : Host.Outcome State Fault Refusal :=
  run (Chip.writeCode rowQeTapRecord r) s

/-- BILL_CLOSE (R176): its code is written with its arguments (R43, R418). -/
def execBillClose (r : CmdReq) (s : State) : Host.Outcome State Fault Refusal :=
  run (Chip.writeCode rowBillClose r) s

/-- BILL_SESS_CLOSE (R182): its code is written with its arguments (R43, R418). -/
def execBillSessClose (r : CmdReq) (s : State) : Host.Outcome State Fault Refusal :=
  run (Chip.writeCode rowBillSessClose r) s

/-- BILL_ZERO (R178): its code is written with its arguments (R43, R418). -/
def execBillZero (r : CmdReq) (s : State) : Host.Outcome State Fault Refusal :=
  run (Chip.writeCode rowBillZero r) s

/-- BILL_LP_READ (R184): its code is written with its arguments (R43, R418). -/
def execBillLpRead (r : CmdReq) (s : State) : Host.Outcome State Fault Refusal :=
  run (Chip.writeCode rowBillLpRead r) s

/-- TARIFF_SCHEDULE (R167): its code is written with its arguments (R43, R418). -/
def execTariffSchedule (r : CmdReq) (s : State) : Host.Outcome State Fault Refusal :=
  run (Chip.writeCode rowTariffSchedule r) s

/-- TARIFF_UNSCHEDULE (R168): its code is written with its arguments (R43, R418). -/
def execTariffUnschedule (r : CmdReq) (s : State) : Host.Outcome State Fault Refusal :=
  run (Chip.writeCode rowTariffUnschedule r) s

/-- TARIFF_COPY (R166): its code is written with its arguments (R43, R418). -/
def execTariffCopy (r : CmdReq) (s : State) : Host.Outcome State Fault Refusal :=
  run (Chip.writeCode rowTariffCopy r) s

/-- TIME_ADJUST (R197): its code is written with its arguments (R43, R418). -/
def execTimeAdjust (r : CmdReq) (s : State) : Host.Outcome State Fault Refusal :=
  run (Chip.writeCode rowTimeAdjust r) s

/-- TIME_SET (R198): its code is written with its arguments (R43, R418). -/
def execTimeSet (r : CmdReq) (s : State) : Host.Outcome State Fault Refusal :=
  run (Chip.writeCode rowTimeSet r) s

/-- EVT_READ (R220): its code is written with its arguments (R43, R418). -/
def execEvtRead (r : CmdReq) (s : State) : Host.Outcome State Fault Refusal :=
  run (Chip.writeCode rowEvtRead r) s

/-- EVT_CNT_CLR (R216): its code is written with its arguments (R43, R418). -/
def execEvtCntClr (r : CmdReq) (s : State) : Host.Outcome State Fault Refusal :=
  run (Chip.writeCode rowEvtCntClr r) s

/-- LEDGER_READ (R233): its code is written with its arguments (R43, R418). -/
def execLedgerRead (r : CmdReq) (s : State) : Host.Outcome State Fault Refusal :=
  run (Chip.writeCode rowLedgerRead r) s

/-- LEDGER_ACK (R232): its code is written with its arguments (R43, R418). -/
def execLedgerAck (r : CmdReq) (s : State) : Host.Outcome State Fault Refusal :=
  run (Chip.writeCode rowLedgerAck r) s

/-- FERRY_TEST (R243): its code is written with its arguments (R43, R418). -/
def execFerryTest (r : CmdReq) (s : State) : Host.Outcome State Fault Refusal :=
  run (Chip.writeCode rowFerryTest r) s

/-- DISP_TEST (R227): its code is written with its arguments (R43, R418). -/
def execDispTest (r : CmdReq) (s : State) : Host.Outcome State Fault Refusal :=
  run (Chip.writeCode rowDispTest r) s

/-- BAY_SIGNAL (R249): its code is written with its arguments (R43, R418). -/
def execBaySignal (r : CmdReq) (s : State) : Host.Outcome State Fault Refusal :=
  run (Chip.writeCode rowBaySignal r) s

/-- BAY_RESTART (R250): its code is written with its arguments (R43, R418). -/
def execBayRestart (r : CmdReq) (s : State) : Host.Outcome State Fault Refusal :=
  run (Chip.writeCode rowBayRestart r) s

/-- BAY_TRIP_CLR (R265): its code is written with its arguments (R43, R418). -/
def execBayTripClr (r : CmdReq) (s : State) : Host.Outcome State Fault Refusal :=
  run (Chip.writeCode rowBayTripClr r) s

/-- BAY_IMG_INSTALL (R247): its code is written with its arguments (R43, R418). -/
def execBayImgInstall (r : CmdReq) (s : State) : Host.Outcome State Fault Refusal :=
  run (Chip.writeCode rowBayImgInstall r) s

/-- BAY_IMG_REMOVE (R247): its code is written with its arguments (R43, R418). -/
def execBayImgRemove (r : CmdReq) (s : State) : Host.Outcome State Fault Refusal :=
  run (Chip.writeCode rowBayImgRemove r) s

/-- DRV_CLR (R273): its code is written with its arguments (R43, R418). -/
def execDrvClr (r : CmdReq) (s : State) : Host.Outcome State Fault Refusal :=
  run (Chip.writeCode rowDrvClr r) s

/-- DRV_RECLAIM (R282): its code is written with its arguments (R43, R418). -/
def execDrvReclaim (r : CmdReq) (s : State) : Host.Outcome State Fault Refusal :=
  run (Chip.writeCode rowDrvReclaim r) s

/-- DRV_TEST_NOW (R276): its code is written with its arguments (R43, R418). -/
def execDrvTestNow (r : CmdReq) (s : State) : Host.Outcome State Fault Refusal :=
  run (Chip.writeCode rowDrvTestNow r) s

/-- LINK_PT_READ (R328): its code is written with its arguments (R43, R418). -/
def execLinkPtRead (r : CmdReq) (s : State) : Host.Outcome State Fault Refusal :=
  run (Chip.writeCode rowLinkPtRead r) s

/-- LINK_PT_WRITE (R328): its code is written with its arguments (R43, R418). -/
def execLinkPtWrite (r : CmdReq) (s : State) : Host.Outcome State Fault Refusal :=
  run (Chip.writeCode rowLinkPtWrite r) s

/-- LINK_XFER (R331): its code is written with its arguments (R43, R418). -/
def execLinkXfer (r : CmdReq) (s : State) : Host.Outcome State Fault Refusal :=
  run (Chip.writeCode rowLinkXfer r) s

/-- LINK_CNT_CLR (R312): its code is written with its arguments (R43, R418). -/
def execLinkCntClr (r : CmdReq) (s : State) : Host.Outcome State Fault Refusal :=
  run (Chip.writeCode rowLinkCntClr r) s

/-- KEY_CHALLENGE (R353): its code is written with its arguments (R43, R418). -/
def execKeyChallenge (r : CmdReq) (s : State) : Host.Outcome State Fault Refusal :=
  run (Chip.writeCode rowKeyChallenge r) s

/-- KEY_LOGIN (R353): its code is written with its arguments (R43, R418). -/
def execKeyLogin (r : CmdReq) (s : State) : Host.Outcome State Fault Refusal :=
  run (Chip.writeCode rowKeyLogin r) s

/-- KEY_LOGOUT (R355): its code is written with its arguments (R43, R418). -/
def execKeyLogout (r : CmdReq) (s : State) : Host.Outcome State Fault Refusal :=
  run (Chip.writeCode rowKeyLogout r) s

/-- KEY_PASSWD (R355): its code is written with its arguments (R43, R418). -/
def execKeyPasswd (r : CmdReq) (s : State) : Host.Outcome State Fault Refusal :=
  run (Chip.writeCode rowKeyPasswd r) s

/-- KEY_ACCT_SET (R353): its code is written with its arguments (R43, R418). -/
def execKeyAcctSet (r : CmdReq) (s : State) : Host.Outcome State Fault Refusal :=
  run (Chip.writeCode rowKeyAcctSet r) s

/-- KEY_UPDATE (R341): its code is written with its arguments (R43, R418). -/
def execKeyUpdate (r : CmdReq) (s : State) : Host.Outcome State Fault Refusal :=
  run (Chip.writeCode rowKeyUpdate r) s

/-- KEY_REPLACE (R343): its code is written with its arguments (R43, R418). -/
def execKeyReplace (r : CmdReq) (s : State) : Host.Outcome State Fault Refusal :=
  run (Chip.writeCode rowKeyReplace r) s

/-- KEY_INVALIDATE (R345): its code is written with its arguments (R43, R418). -/
def execKeyInvalidate (r : CmdReq) (s : State) : Host.Outcome State Fault Refusal :=
  run (Chip.writeCode rowKeyInvalidate r) s

/-- KEY_DERIVE (R346): its code is written with its arguments (R43, R418). -/
def execKeyDerive (r : CmdReq) (s : State) : Host.Outcome State Fault Refusal :=
  run (Chip.writeCode rowKeyDerive r) s

/-- KEY_LC_SET (R347): its code is written with its arguments (R43, R418). -/
def execKeyLcSet (r : CmdReq) (s : State) : Host.Outcome State Fault Refusal :=
  run (Chip.writeCode rowKeyLcSet r) s

/-- UPD_STAGE (R357): its code is written with its arguments (R43, R418). -/
def execUpdStage (r : CmdReq) (s : State) : Host.Outcome State Fault Refusal :=
  run (Chip.writeCode rowUpdStage r) s

/-- UPD_CHUNK (R357): its code is written with its arguments (R43, R418). -/
def execUpdChunk (r : CmdReq) (s : State) : Host.Outcome State Fault Refusal :=
  run (Chip.writeCode rowUpdChunk r) s

/-- UPD_ACTIVATE (R362): its code is written with its arguments (R43, R418). -/
def execUpdActivate (r : CmdReq) (s : State) : Host.Outcome State Fault Refusal :=
  run (Chip.writeCode rowUpdActivate r) s

/-- UPD_REVERT (R367): its code is written with its arguments (R43, R418). -/
def execUpdRevert (r : CmdReq) (s : State) : Host.Outcome State Fault Refusal :=
  run (Chip.writeCode rowUpdRevert r) s

/-- UPD_DISCARD (R357): its code is written with its arguments (R43, R418). -/
def execUpdDiscard (r : CmdReq) (s : State) : Host.Outcome State Fault Refusal :=
  run (Chip.writeCode rowUpdDiscard r) s

/-- PAIR_SWITCH (R390): its code is written with its arguments (R43, R418). -/
def execPairSwitch (r : CmdReq) (s : State) : Host.Outcome State Fault Refusal :=
  run (Chip.writeCode rowPairSwitch r) s

end Sys2Proof.Machine
end

