-- ==== Sys2Proof/Machine/DriveRows.lean ====
section
/-! DEFINITION. The meanings of the commands of the output drives (13). -/

namespace Sys2Proof.Machine

open Sys2Proof

/-- VOUT_UNDERVOLT (R269). -/
def execVoutUndervolt (b : Bool) (s : State) : Host.Outcome State Fault Refusal :=
  run (Chip.undervolt b) s

/-- VOUT_RECOVER (R269). -/
def execVoutRecover (b : Bool) (s : State) : Host.Outcome State Fault Refusal :=
  run (Chip.voutRecovered b) s

/-- VOUT_OVERLOAD (R268): a report only. -/
def execVoutOverload (b : Bool) (s : State) : Host.Outcome State Fault Refusal :=
  run (fun c => c.raise 0x0D0C (b2n b) 0 0) s

/-- DRV_OVERCURRENT (R272). -/
def execDrvOvercurrent (n : DriveNo) (s : State) : Host.Outcome State Fault Refusal :=
  run (Chip.overcurrent n.val) s

/-- DRV_RETRY (R272). -/
def execDrvRetry (n : DriveNo) (s : State) : Host.Outcome State Fault Refusal :=
  run (Chip.retryEnd n.val) s

/-- DRV_RETRY_RELOAD (R272). -/
def execDrvRetryReload (n : DriveNo) (s : State) : Host.Outcome State Fault Refusal :=
  run (Chip.retryReload n.val) s

/-- DRV_THERMAL (R273). -/
def execDrvThermal (n : DriveNo) (s : State) : Host.Outcome State Fault Refusal :=
  run (Chip.thermalLatch n.val) s

/-- DRV_TEST_PULSE (R274). -/
def execDrvTestPulse (n : DriveNo) (fell conclusive : Bool) (s : State) :
    Host.Outcome State Fault Refusal :=
  run (Chip.testPulse true n.val fell conclusive) s

/-- DRV_OPEN_LOAD (R275). -/
def execDrvOpenLoad (n : DriveNo) (result : OpenLoad) (s : State) : Host.Outcome State Fault Refusal :=
  run (Chip.openLoad n.val result) s

/-- DRV_CLAMP_TEST (R271). -/
def execDrvClampTest (n : DriveNo) (ok : Bool) (s : State) : Host.Outcome State Fault Refusal :=
  run (Chip.clampTest n.val ok) s

/-- DRV_TEST_RETRY (R276). -/
def execDrvTestRetry (n : DriveNo) (fell conclusive : Bool) (s : State) :
    Host.Outcome State Fault Refusal :=
  run (Chip.testRetry n.val fell conclusive) s

/-- DRV_HEARTBEAT (R279): the dies hear their controller and answer with what their sensors read. -/
def execDrvHeartbeat (s : State) : Host.Outcome State Fault Refusal := run Chip.dieReport s

/-- CONTROLLER_LOST (R279): the dies act on a loss once. -/
def execControllerLost (s : State) : Host.Outcome State Fault Refusal :=
  run (fun c => if c.drv.lost then c else c.controllerLost false) s

/-- HOLD_WINDOW_EXPIRE (R279). -/
def execHoldWindowExpire (s : State) : Host.Outcome State Fault Refusal := run Chip.holdExpire s

/-- DRV_CLAIM (R281): a write by a host master is ignored and counted. -/
def execDrvClaim (dies : BitVec 12) (by_ : Option Master5) (s : State) :
    Host.Outcome State Fault Refusal :=
  run (fun c => match by_ with
    | some m => c.denied m.val 0xD0020
    | none => each ((List.range 6).filter (fun d => dies.getLsbD d)) Chip.claimDie c) s

/-- LH_INPUT_CHANGE (R280). -/
def execLhInputChange (lh : W8) (s : State) : Host.Outcome State Fault Refusal :=
  run (Chip.modDrv (fun x => { x with lh := lh })) s

end Sys2Proof.Machine
end

