-- ==== Sys2Proof/Machine/FirmwareRows.lean ====
section
/-! DEFINITION. The rows of the opcode table about stagings, the changeover, the trial and resets
of SV (17, 18). -/

namespace Sys2Proof.Machine

open Sys2Proof

/-- STAGING_TIMEOUT (R357). -/
def execStagingTimeout (t : W16) (s : State) : Host.Outcome State Fault Refusal :=
  run (Chip.stagingTimeout t) s

/-- STAGED_IMAGE_EXPIRY (R357). -/
def execStagedImageExpiry (t : W16) (s : State) : Host.Outcome State Fault Refusal :=
  run (Chip.stagedExpiry t) s

/-- CHANGEOVER_BOOT (R362). -/
def execChangeoverBoot (s : State) : Host.Outcome State Fault Refusal := run Chip.changeoverBoot s

/-- CHANGEOVER_RESUME (R362). -/
def execChangeoverResume (s : State) : Host.Outcome State Fault Refusal := run Chip.changeoverResume s

/-- CHANGEOVER_WATCHDOG (R364). -/
def execChangeoverWatchdog (s : State) : Host.Outcome State Fault Refusal :=
  run Chip.changeoverWatchdog s

/-- BRIDGE_OVERFLOW (R363). -/
def execBridgeOverflow (k : Fin 8) (s : State) : Host.Outcome State Fault Refusal :=
  run (Chip.bridgeOverflow k.val) s

/-- UPD_HEALTH_WRITE (R367). -/
def execUpdHealthWrite (s : State) : Host.Outcome State Fault Refusal := run Chip.healthWrite s

/-- TRIAL_WATCHDOG (R367). -/
def execTrialWatchdog (s : State) : Host.Outcome State Fault Refusal := run Chip.trialWatchdog s

/-- SV_WATCHDOG (R380). -/
def execSvWatchdog (s : State) : Host.Outcome State Fault Refusal := run (Chip.svReset 2) s

/-- SV_LOCKSTEP (R380). -/
def execSvLockstep (s : State) : Host.Outcome State Fault Refusal := run (Chip.svReset 3) s

/-- SV_RESET_EXIT (R423, R369). -/
def execSvResetExit (s : State) : Host.Outcome State Fault Refusal := run Chip.svExit s

end Sys2Proof.Machine
end

