-- ==== Sys2Proof/Machine/Window.lean ====
section
/-! DEFINITION. The host window word by word: which island serves an address (R416), who may read or
write it (R6, R25, R32, R34), and what every register reads (02 to 18, the register tables). -/

namespace Sys2Proof.Machine

open Sys2Proof

/-- The index of an address in an array of registers. -/
def ixOf (a base stride n : Nat) : Option Nat :=
  if base ≤ a ∧ (a - base) % stride = 0 ∧ (a - base) / stride < n then some ((a - base) / stride) else none

/-- The value of an arrayed register, 0 where the address is none of it. -/
def regAt (a base stride n : Nat) (f : Nat → W32) : W32 := ((ixOf a base stride n).map f).getD 0

/-- The number of the island that serves an address (R416), in the order of the table Clock islands;
none for SYS_READY, SYS_MODE, SYS_RESET and above the last block. -/
def islandOf (a : Nat) : Option Nat :=
  let o := a % 65536
  if (cmtFind a).isSome then some 3
  else match a / 65536 with
    | 0x00 => if o = 0x10 ∨ o = 0x14 ∨ o = 0x18 then none else some 3
    | 0x04 => some 1
    | 0x05 => some (if 0x100 ≤ o ∧ o < 0x300 ∧ o % 0x40 < 0x28 then 2 else 3)
    | 0x0C => some (if 0x100 ≤ o ∧ o < 0x118 then 9 else 3)
    | 0x0D => some (if (0x400 ≤ o ∧ o < 0x4C0) ∨ (0x600 ≤ o ∧ o < 0x618) ∨ (0x800 ≤ o ∧ o < 0x8C0) then 6
                    else 3)
    | 0x0E => some 5
    | 0x0F => some 7
    | 0x10 => some 4
    | n => if n < 0x14 then some 3 else none

/-- The island of an address does not answer (R17). -/
def Chip.deadAt (c : Chip) (a : Nat) : Option Nat := (islandOf a).filter (fun i => c.sys.dead.getLsbD i)

/-- Registers marked SEC (R6): every CMT register but those of CG5, and those their tables mark. -/
def isSec (a : Nat) : Bool :=
  match cmtFind a with
  | some f => f.group != 5
  | none =>
    (decide (0x78000 ≤ a) && decide (a < 0x7B000)) || a == 0x90040 || a == 0x90044 || a == 0xD0020
      || a == 0x100004 || (decide (0x100100 ≤ a) && decide (a < 0x100500))
      || (decide (0x100600 ≤ a) && decide (a < 0x100640))

/-- Writes open to a master without a session (R25). -/
def noSessWrite (a : Nat) : Bool :=
  (decide (0x20000 ≤ a) && decide (a ≤ 0x20010)) || (decide (0x100540 ≤ a) && decide (a < 0x100580))

/-- The role that claims a queue (the table Ferry queues). -/
def claimRole (q : Nat) : Nat := if q = 4 ∨ q = 5 ∨ q = 7 then 2 else 1

/-- The read-support writes of R25, FERRY_CTL of the queues that a role may claim among them. -/
def readSupport (role a : Nat) : Bool :=
  noSessWrite a || (ixOf a 0x10000 0x20 16).isSome
    || (ixOf a 0xA0010 0x20 8).any (fun q => decide (claimRole q ≤ role)) || a == 0x20018 || a == 0x90010 || a == 0x3000C || a == 0x64

/-- What a master may read (R6, R25). -/
def Chip.mayRead (c : Chip) (m a : Nat) : Bool :=
  let role := c.roleNo m
  if isSec a then decide (3 ≤ role)
  else decide (1 ≤ role) || decide (a < 0x10000) || (ixOf a 0x100500 4 4).isSome || a == 0x100580

/-- A write that stays open in QUARANTINE besides the read-support writes (log 13): the commit
that R39 answers with MODE, and UPD_BUF while a staging of a recovery is open. -/
def Chip.stillOpen (c : Chip) (a : Nat) (v : W32) : Bool :=
  (a == 0x30000 && fld v 28 4 == 1)
    || ((ixOf a 0x110400 4 256).isSome && c.upd.stagings.any (fun s => c.quarKind s.kind))

/-- What a master may write (R6, R25, R32, R34). -/
def Chip.mayWrite (c : Chip) (m a : Nat) (v : W32) : Bool :=
  let role := c.roleNo m
  if a / 65536 = 0x0E then false
  else if role = 0 then noSessWrite a
  else if c.retired then readSupport 1 a
  else if role = 1 then readSupport 1 a
  else if c.sys.qcause ≠ 0 then readSupport role a || c.stillOpen a v
  else !isSec a || decide (3 ≤ role)

/-- SYS registers (02, 09, 18, 19). -/
def Chip.rdSys (c : Chip) (m o : Nat) : W32 :=
  let s := c.sys
  let p := c.power
  match o with
  | 0x10 => s.ready.zeroExtend 32
  | 0x14 => w32 (s.qcause.toNat * 65536 + c.conds * 256 + c.modeOf.toNat)
  | 0x18 => s.resetCount ++ s.prevCause ++ s.cause
  | 0x60 => s.hintStatus.zeroExtend 32
  | 0x64 => s.hintEn.zeroExtend 32
  | 0x68 => s.deniedCnt
  | 0x6C => s.deniedAddr
  | 0x70 => w32 ((c.master m).role.toNat * 256 + m)
  | 0x100 => w32 (b2n p.mainOk * 2 ^ 31 + b2n p.auxOk * 2 ^ 30 + b2n p.onAux * 2 ^ 29
      + b2n p.voutAOk * 2 ^ 28 + b2n p.voutBOk * 2 ^ 27 + b2n p.holdupChg * 2 ^ 26
      + b2n p.holdupWeak * 2 ^ 25 + b2n p.cellLow * 2 ^ 24 + p.lastSave.toNat * 256)
  | 0x104 => p.mainV ++ p.auxV ++ p.cellV
  | 0x108 => p.voutA ++ p.voutB
  | 0x10C => p.holdup ++ p.cap ++ BitVec.ofNat 8 c.testAge
  | 0x120 => w32 (b2n c.tamper.cover * 2 ^ 31 + b2n c.tamper.sealOpen * 2 ^ 30 + b2n c.tamper.lsw * 2 ^ 29
      + b2n c.magHeld * 2 ^ 28 + min c.tamper.mag 65535)
  | _ => 0

/-- LANDn registers (R35, R36): another master's landing reads 0. -/
def Chip.rdLand (c : Chip) (m o : Nat) : W32 :=
  let n := o / 0x20
  if 16 ≤ n ∨ !(landsOf m).contains n then 0 else
  let l := c.land n
  match o % 0x20 with
  | 0x00 => l.req
  | 0x04 => w32 (l.errCode.toNat * 256 + b2n l.busy * 4 + b2n l.err * 2 + b2n l.valid)
  | 0x10 => l.d0
  | 0x14 => l.d1
  | 0x18 => l.d2
  | 0x1C => l.d3
  | _ => 0

/-- CMD_STATUS. -/
def Master.cmdStatus (x : Master) : W32 :=
  w32 (x.ticket.toNat * 65536 + b2n x.ack * 2 ^ 15 + b2n x.lost * 2 ^ 14 + x.status.toNat)

/-- CMD registers (R43-R45). -/
def Chip.rdCmd (c : Chip) (m o : Nat) : W32 :=
  let x := c.master m
  match o with
  | 0x00 => x.arg0
  | 0x04 => x.arg1
  | 0x08 => x.arg2
  | 0x0C => x.arg3
  | 0x14 => x.cmdStatus
  | 0x18 => x.ticketSel.zeroExtend 32
  | 0x1C => c.ticketState x.ticketSel
  | 0x20 => c.tix.base.zeroExtend 32
  | _ => 0

/-- CFG registers (R37-R41). -/
def Chip.rdCfg (c : Chip) (m o : Nat) : W32 :=
  let x := c.master m
  match o with
  | 0x04 => w32 (x.cfgTicket.toNat * 65536 + x.cfgGroup.toNat * 256 + x.cfgStat.toNat)
  | 0x08 => x.cfgFail.zeroExtend 32
  | 0x0C => w32 (b2n x.cfgView)
  | _ => regAt o 0x40 4 12 (fun g => w32 ((c.cfgOwner g).getD 0xFF))
      ||| regAt o 0x80 4 12 (fun g => Tbl.get 0 c.cfg.ref g)

/-- TAP registers that are not CMT (03). -/
def Chip.rdTap (c : Chip) (o : Nat) : W32 :=
  regAt o 0x40 4 8 (fun k => (c.group k).temp.zeroExtend 32)
    ||| regAt o 0x400 4 128 (fun n => (c.tap n).stateWord)
    ||| regAt o 0x1014 0x20 128 (fun n => (c.tap n).gainFP)
    ||| regAt o 0x1018 0x20 128 (fun n => (c.tap n).gainFC)
    ||| regAt o 0x101C 0x20 128 (fun n => (c.tap n).tc)

/-- The status registers of engine k (04); 0 while the engine has never been loaded. Lags count whole
samples and whole ms (log 19). -/
def Chip.rdEngine (c : Chip) (k r : Nat) : W32 :=
  let q := c.eng k
  let newest := (c.group k).newest
  let d := c.gridD k
  let idle := q.run == ruUNLOADED
  let lag := fun (x : Nat) => if idle then 0 else min 65535 ((newest - x) / d)
  let hz := fun (i : Nat) => if idle then 0 else min 255 ((newest - Tbl.get 0 q.hz i) / 32)
  match r with
  | 0x00 => w32 (q.run.toNat * 2 ^ 28 + q.gates.length % 16 * 2 ^ 24 + c.holdBits k * 2 ^ 20 + q.epoch.toNat)
  | 0x04 => w32 (lag q.c * 65536 + lag q.hpos)
  | 0x08 => w32 (hz 0 * 2 ^ 24 + hz 1 * 65536 + hz 2 * 256 + hz 3)
  | 0x0C => q.stallCnt ++ q.stallMax
  | 0x10 => q.ssCtx ++ q.ssLock
  | 0x14 => q.forced ++ q.lateCnt
  | 0x18 => q.cycMax ++ q.imgDecl
  | 0x1C => w32 (q.trapCode.toNat * 2 ^ 24
      + min 255 (q.restarts.filter (fun t => decide (c.now < t + 600 * 32000))).length * 65536
      + q.trapPc.toNat)
  | 0x20 => q.undoHwm ++ q.imgFoot
  | 0x24 => q.gateSkip ++ q.inPlace
  | _ => 0

/-- QE_IMG_STATE[i] (06); ENGINES counts the engines whose EN is set. -/
def Chip.imgWord (c : Chip) (i : Nat) : W32 :=
  let x := c.img i
  let es := (engs8.map (fun k => if c.engEn k && c.cf (aGate k) 16 8 == i then 2 ^ k else 0)).sum
  if !x.installed then w32 (es * 65536)
  else w32 (2 ^ 31 + x.maxpts % 32 * 2 ^ 24 + es * 65536 + x.w % 65536)

/-- QE_MP_STATE[m] (07). -/
def Chip.mpWord (c : Chip) (m : Nat) : W32 :=
  let x := c.bill.mp m
  let u := match c.mpEngine m with
    | some k => Tbl.get ({} : DirUnit) (c.eng k).head.dirs m
    | none => {}
  w32 (b2n x.dirC * 2 ^ 31 + b2n u.openCand * 2 ^ 30 + b2n u.cutoff * 2 ^ 29 + b2n x.qlost * 2 ^ 28
    + b2n x.nanMark * 2 ^ 27 + x.neg.toNat)

/-- QE registers that are not CMT (04, 06, 07). -/
def Chip.rdQe (c : Chip) (o : Nat) : W32 :=
  if 0x100 ≤ o ∧ o < 0x300 then c.rdEngine ((o - 0x100) / 0x40) (o % 0x40)
  else
    regAt o 0x400 8 32 c.imgWord
      ||| regAt o 0x404 8 32 (fun i =>
        let x := c.img i
        if x.installed then BitVec.ofNat 32 (x.sealDig.toNat / 2 ^ 224) else 0)
      ||| regAt o 0x6400 4 64 c.mpWord
      ||| regAt o 0x6800 4 512 (fun j => (Tbl.get ({} : Spill) c.bill.spill j).backlog)

/-- BILL registers that are not CMT (08). -/
def Chip.rdBill (c : Chip) (o : Nat) : W32 :=
  match o with
  | 0x800 => c.bill.period
  | 0x804 => c.bill.seq
  | 0x808 => c.bill.lastClose
  | _ => regAt o 0x900 4 64 (fun m => let x := c.session m; if x.applied then x.no else 0)

/-- TARIFF registers (08). -/
def Chip.rdTariff (c : Chip) (o : Nat) : W32 :=
  let t := c.tariff
  if 0x4000 ≤ o ∧ o < 0x7000 then tarWord t.act (o - 0x4000)
  else if 0x8000 ≤ o ∧ o < 0xB000 then tarWord t.pas (o - 0x8000)
  else match o with
    | 0x0 => w32 (b2n t.sched.isSome * 2 ^ 31)
    | 0x4 => w32 (t.sched.getD 0)
    | 0x8 => t.lastAct
    | 0xC => crc32c ((tariffWords t.act).flatMap wordBytes)
    | _ => 0

/-- A signed number in 32 bits, saturating at ±(2^31 - 1). -/
def satInt32 (x : Int) : W32 := BitVec.ofInt 32 (max (-2147483647) (min 2147483647 x))

/-- TIME registers that are not CMT (09). -/
def Chip.rdTime (c : Chip) (o : Nat) : W32 :=
  let t := c.time
  let rem := t.slewLeft c.now
  match o with
  | 0x40 => w32 (b2n t.valid * 2 ^ 31 + b2n (rem != 0) * 2 ^ 30 + b2n t.leapPending * 2 ^ 29
      + b2n t.stepNeeded * 2 ^ 28 + t.srcState.toNat * 2 ^ 24 + t.utcOffset.toNat)
  | 0x44 => satInt32 t.offset
  | 0x48 => satInt32 (rem.tdiv 1000)
  | 0x4C => c.utc c.now
  | _ => 0

/-- EVT registers (10). -/
def Chip.rdEvt (c : Chip) (m o : Nat) : W32 :=
  let e := c.evt
  let sel := (c.master m).evtSel
  let x := Tbl.get ({} : EvtSrc) e.src sel.toNat
  let l := c.ledger
  match o with
  | 0x00 => w32 (b2n e.overrun.isOpen * 2 ^ 31 + min 479 e.general * 65536 + min 32 e.reserved)
  | 0x04 => e.ovrTotal
  | 0x10 => sel.zeroExtend 32
  | 0x14 => x.cnt.zeroExtend 32
  | 0x18 => x.first
  | 0x1C => x.last
  | 0x20 => e.legalCnt
  | 0x24 => w32 (min 100 (l.used * 100 / ledgerRegion) * 2 ^ 24
      + min 100 (l.stagedBytes * 100 / 1048576) * 65536 + min 65535 ((c.now - l.lastGood) / 32000))
  | 0x28 => w32 (((List.range 32).map (fun i => b2n (c.tamperActive i) * 2 ^ i)).sum)
  | 0x40 => w32 e.revWatch.toNat
  | 0x44 => hi32 e.revWatch.toNat
  | _ =>
    regAt o 0x100 0x10 32 (fun i => (c.trec i).cnt) ||| regAt o 0x104 0x10 32 (fun i => (c.trec i).first)
      ||| regAt o 0x108 0x10 32 (fun i => (c.trec i).last)
      ||| regAt o 0x10C 0x10 32 (fun i => (c.trec i).dur)

/-- FERRY registers but FERRY_DATA (11). -/
def Chip.rdFerry (c : Chip) (o : Nat) : W32 :=
  let q := o / 0x20
  if 8 ≤ q then 0 else
  let f := c.fq q
  match o % 0x20 with
  | 0x04 => f.rxst
  | 0x08 => f.occ ((q == 3 && c.ringHolds) || (q == 5 && c.bay.signal.isSome))
  | 0x0C => f.cnt
  | 0x14 => w32 (f.owner.getD 0xFF)
  | _ => 0

/-- BAY registers that are not CMT (12). -/
def Chip.rdBay (c : Chip) (o : Nat) : W32 :=
  match o with
  | 0x100 => c.bayWord
  | 0x104 => c.pilotWord
  | 0x108 => c.monWord
  | 0x10C => c.bayFaultWord
  | _ =>
    regAt o 0x110 4 2 (fun p => let x := Tbl.get ({} : CanPort) c.bay.can p; x.drop ++ x.busOff)
      ||| regAt o 0x200 4 4 (fun i =>
        let x := c.bayImg i
        if x.installed then w32 (2 ^ 31 + x.sealDig.toNat / 2 ^ 216 % 2 ^ 32 / 2) else 0)

/-- DRV registers that are not CMT (13). -/
def Chip.rdDrv (c : Chip) (o : Nat) : W32 :=
  regAt o 0x200 4 3 c.drvCmdWord ||| regAt o 0x400 4 48 c.drvWord ||| regAt o 0x600 4 6 c.dieWord
    ||| regAt o 0x800 4 48 (fun n => (c.drive n).cntWord)

/-- SAFE registers (14): 0 while SF does not run (R17). -/
def Chip.rdSafe (c : Chip) (o : Nat) : W32 :=
  let s := c.safe
  if !c.sfRuns then 0 else
  match o with
  | 0x00 => c.safeState
  | 0x04 => c.safeZones
  | 0x08 => s.edge.sw ++ s.sf.sw
  | 0x0C => s.edge.crc ++ s.sf.crc
  | 0x10 => (s.sf.pfault ||| s.sf.pfaultB) ++ s.sf.inp
  | 0x14 => w32 (s.rdcAc.toNat * 16 + s.rdcDc.toNat)
  | _ =>
    regAt o 0x40 4 4 (fun k => Tbl.get (0 : W16) s.trips k ++ Tbl.get (0 : W16) s.demands k)
      ||| regAt o 0x100 4 16 (fun i =>
        let x := c.conn i
        w32 (x.st.toNat * 2 ^ 29 + x.reason.toNat * 2 ^ 24 + x.rx.toNat * 256 + x.tx.toNat))
      ||| regAt o 0x180 4 16 (fun i => let x := c.conn i; x.cntCrc ++ x.cntSeq ++ x.cntWd ++ x.cntDup)

/-- LINK registers that are not CMT (15). -/
def Chip.rdLink (c : Chip) (m o : Nat) : W32 :=
  let l := c.link
  match o with
  | 0x10 => c.linkState
  | 0x14 => l.cntCrc ++ l.cntAuth ++ l.cntOver ++ l.cntUnsup
  | 0x220 => (c.master m).ptVer.zeroExtend 32
  | _ =>
    if 0x100 ≤ o ∧ o < 0x200 then c.linkTagReg ((o - 0x100) / 0x10) (o % 0x10)
    else regAt o 0x200 4 8 (fun w => Tbl.get 0 (c.master m).linkBuf w)

/-- A slot register (16): ATTR, GEN, PGEN, CTR. -/
def Chip.slotReg (c : Chip) (i r : Nat) : W32 :=
  let s := c.kslot i
  let h := s.half
  if s.empty then 0 else
  match r with
  | 0x0 => w32 (c.slotState i * 2 ^ 30 + h.cls % 16 * 2 ^ 24 + h.typ % 16 * 2 ^ 20 + b2n h.compat * 2 ^ 19
      + b2n s.useB * 2 ^ 18 + h.parent.toNat * 2 ^ 12 + h.dest.toNat)
  | 0x4 => h.gen
  | 0x8 => h.pgen
  | 0xC => h.ctr
  | _ => 0

/-- KEY registers (16). -/
def Chip.rdKey (c : Chip) (m o : Nat) : W32 :=
  let k := c.key
  let x := c.master m
  if 0x100 ≤ o ∧ o < 0x500 then c.slotReg ((o - 0x100) / 0x10) (o % 0x10)
  else match o with
    | 0x0 => w32 (k.lc.toNat * 2 ^ 28 + b2n k.testRoot * 2 ^ 27 + b2n k.zeroised * 2 ^ 26
        + fld c.ledger.keyGen 0 16)
    | 0x4 => k.ctr
    | 0x580 => w32 (x.account.toNat * 65536 + x.role.toNat * 4096
        + (match x.tried with | some a => min 4095 (c.lockLeft (c.failIx a.toNat)) | none => 0))
    | _ =>
      regAt o 0x500 4 4 (fun w => w32 (x.nonce.toNat / 2 ^ (32 * w)))
        ||| regAt o 0x600 4 16 (fun a =>
          let y := c.acct a
          w32 (b2n y.en * 2 ^ 31 + y.role.toNat * 2 ^ 28 + y.method.toNat * 2 ^ 26 + y.slot.toNat * 2 ^ 20
            + min 15 y.fails * 65536 + min 4095 (c.lockLeft a)))

/-- UPD_STATE (17): seconds left are rounded up. -/
def Chip.updState (c : Chip) : W32 :=
  let u := c.upd
  let other := match (u.slot c.otherSlot).st.toNat with
    | 0 => 0 | 1 => 1 | 2 => 1 | 3 => 2 | _ => 3
  let left := if c.onTrial && u.phase == 2 then (u.trialFrom + 120 * 32000 - c.now + 31999) / 32000 else 0
  w32 (u.runSlot.toNat * 2 ^ 30 + u.phase.toNat * 2 ^ 28 + other * 2 ^ 26 + b2n u.fellBack * 2 ^ 25
    + u.lastFail.toNat * 2 ^ 22 + min 120 left)

/-- UPD registers (17). -/
def Chip.rdUpd (c : Chip) (o : Nat) : W32 :=
  match o with
  | 0x00 => c.updState
  | 0x04 => c.runImg.ver
  | 0x08 => let x := c.upd.slot c.otherSlot; if x.st = fwEMPTY then 0 else x.ver
  | 0x0C => c.runImg.legalVer
  | 0x10 => w32 (ofBe c.legalSum)
  | 0x14 => w32 (c.cfg.gen.toNat % 2 ^ 24 * 256
      + (match c.cfg.gens.find? (fun g => g.no == c.cfg.gen) with | some g => g.fmt.toNat | none => 0))
  | 0x18 => c.upd.roll
  | 0x1C => c.upd.sfVer
  | 0x20 => w32 (b2n c.upd.healthOk * 2 ^ 31 + c.health)
  | _ => 0

/-- PAIR registers that are not CMT (18); on a YX-128-SE the block reads 0 (R3). -/
def Chip.rdPair (c : Chip) (o : Nat) : W32 :=
  let p := c.pair
  if !c.sys.te then 0 else
  match o with
  | 0x10 => w32 (p.role.toNat * 2 ^ 30 + b2n p.j11Up * 2 ^ 29 + b2n c.udpUp * 2 ^ 28
      + b2n p.deviating * 2 ^ 27 + p.failovers.toNat)
  | 0x14 => if p.formed then w32 p.pid.toNat else 0
  | 0x18 => if p.formed then hi32 p.pid.toNat else 0
  | _ => 0

/-- A CMT register (R37): live, or the shadow for a master that has set CFG_VIEW.SHADOW. -/
def Chip.rdCmt (c : Chip) (m a : Nat) : W32 :=
  if a / 65536 = 0x13 ∧ !c.sys.te then 0
  else if (c.master m).cfgView then c.shadow a else c.live a

/-- The value an address reads for a master that may read it, before any effect of the read. -/
def Chip.rdWord (c : Chip) (m a : Nat) : W32 :=
  let o := a % 65536
  if (cmtFind a).isSome then c.rdCmt m a
  else match a / 65536 with
    | 0x00 => c.rdSys m o
    | 0x01 => c.rdLand m o
    | 0x02 => c.rdCmd m o
    | 0x03 => c.rdCfg m o
    | 0x04 => c.rdTap o
    | 0x05 => c.rdQe o
    | 0x06 => c.rdBill o
    | 0x07 => c.rdTariff o
    | 0x08 => c.rdTime o
    | 0x09 => c.rdEvt m o
    | 0x0A => c.rdFerry o
    | 0x0C => c.rdBay o
    | 0x0D => c.rdDrv o
    | 0x0E => c.rdSafe o
    | 0x0F => c.rdLink m o
    | 0x10 => c.rdKey m o
    | 0x11 => c.rdUpd o
    | 0x13 => c.rdPair o
    | _ => 0

/-- A read of FERRY_DATA (R237, R239): the owner on the host port pops a word; everyone else gets the
idle item. Bad parity is raised once for a packet (R243). -/
def Chip.ferryRead (m q : Nat) (c : Chip) : Chip × W32 :=
  if m ≠ 0 ∨ (c.fq q).owner ≠ some m then (c, 0) else
  let r := (c.fq q).pop
  let c := (c.modFq q (fun _ => r.2.1)).when r.2.2 (fun c => c.raise 0x0A02 q 3 0)
  (c.holdRelease q, r.1)

/-- A read of LANDn_D3 clears VALID (R36). -/
def Chip.landRead (m n : Nat) (c : Chip) : Chip :=
  if (landsOf m).contains n then c.modLand n (fun l => { l with valid := false }) else c

/-- What a read changes besides the value it returns. -/
def Chip.readEffect (m a : Nat) (c : Chip) : Chip × W32 :=
  let v := c.rdWord m a
  match ixOf a 0xA0000 0x20 8, ixOf a 0x1001C 0x20 16, ixOf a 0x56400 4 64 with
  | some q, _, _ => c.ferryRead m q
  | none, some n, _ => (c.landRead m n, v)
  | none, none, some j =>
    (c.modBill (fun b => b.putMp j { b.mp j with nanMark := false }), v)
  | none, none, none => (c, v)

/-- CHANGEOVER closes the window (R34) but for the registers the host-port interface serves. -/
def Chip.changeShut (c : Chip) (a : Nat) : Bool :=
  c.sys.changeover && !(a == 0x10 || a == 0x14 || a == 0x18)

/-- One word read (R5, R17, R27, R34): the data and the status. -/
def Chip.readWord (m a : Nat) (c : Chip) : Chip × W32 × W8 :=
  if a % 4 ≠ 0 then (c, 0, stRANGE)
  else if c.changeShut a then (c, 0, stBUSY)
  else match c.deadAt a with
    | some i => (c.bridgeTimeout i m a false, 0, stTIMEOUT)
    | none =>
      if !c.mayRead m a then (c, 0, stOK)
      else
        let r := c.readEffect m a
        (r.1, r.2, stOK)

/-- A write to a CMT register (R37, R38): the group's shadow, claimed by the first write. -/
def Chip.shadowWrite (m a : Nat) (f : CmtFam) (v : W32) (c : Chip) : Chip × W8 :=
  if (c.cfgOwner f.group).any (fun o => o != m) then (c.denied m a, stDENIED)
  else
    let w := v &&& f.mask
    let rest := c.cfg.shadow.filter (fun p => p.1 != a)
    let c := c.modCfg (fun x => { x with shadow := if w = c.live a then rest else rest ++ [(a, w)] })
    (c.setOwner f.group (some m), stOK)

/-- A write of CFG_COMMIT (R38, R39). -/
def Chip.commitWrite (m : Nat) (v : W32) (c : Chip) : Chip :=
  let g := fld v 0 4
  if fld v 28 4 = 1 then c.cfgCommit m g
  else if fld v 28 4 = 2 then c.cfgDiscard m g
  else c.cfgAnswer m g stRANGE 0 0

/-- A write of LANDn_REQ (R36): a fill begins. -/
def Chip.landWrite (n : Nat) (v : W32) (c : Chip) : Chip :=
  c.modLand n (fun _ => { req := v &&& 0xFFC0FFFF, busy := true })

/-- A write of FERRY_CTL (R235). -/
def Chip.ferryCtl (m q op : Nat) (c : Chip) : Chip × W8 :=
  let own := (c.fq q).owner
  let refuse := (c.denied m (0xA0010 + 0x20 * q), stDENIED)
  if op = 1 then
    if own.isNone ∧ claimRole q ≤ c.roleNo m ∧ c.rdy rSV then
      (c.modFq q (fun f => { f with owner := some m }), stOK)
    else refuse
  else if op = 2 then (if own = some m then (c.endClaim q, stOK) else refuse)
  else if op = 3 then
    if own = some m then ((c.modFq q Ferry.empty).holdRelease q, stOK) else refuse
  else (c, stOK)

/-- A write of CMD_CODE through the window (R43): the arguments are those of the bank. -/
def Chip.codeWrite (m : Master5) (v : W32) (c : Chip) : Chip :=
  let x := c.master m.val
  let code := fld v 0 16
  c.cmdCode (cmdFind code) code { m := m, a0 := x.arg0, a1 := x.arg1, a2 := x.arg2, a3 := x.arg3 }

/-- A write to a SYS, CMD, CFG, EVT, LINK, KEY or UPD register that is not CMT; others ignore it (R7). -/
def Chip.plainWrite (m : Master5) (a : Nat) (v : W32) (c : Chip) : Chip :=
  let n := m.val
  let mm := fun f => c.modMaster n f
  match a with
  | 0x60 => c.modSys (fun s => { s with hintStatus := s.hintStatus &&& ~~~ (v.truncate 11) })
  | 0x64 => c.modSys (fun s =>
      let k : BitVec 11 := BitVec.ofNat 11 (fld v 16 11)
      { s with hintEn := (s.hintEn &&& ~~~ k) ||| (v.truncate 11 &&& k) })
  | 0x20000 => mm (fun x => { x with arg0 := v })
  | 0x20004 => mm (fun x => { x with arg1 := v })
  | 0x20008 => mm (fun x => { x with arg2 := v })
  | 0x2000C => mm (fun x => { x with arg3 := v })
  | 0x20010 => c.codeWrite m v
  | 0x20018 => mm (fun x => { x with ticketSel := v.truncate 16 })
  | 0x30000 => c.commitWrite n v
  | 0x3000C => mm (fun x => { x with cfgView := v.getLsbD 0 })
  | 0x90010 => mm (fun x => { x with evtSel := v.truncate 16 })
  | 0x90040 => c.modEvt (fun e => { e with revWatch := (e.revWatch &&& 0xFFFFFFFF00000000) ||| v.zeroExtend 64 })
  | 0x90044 => c.modEvt (fun e => { e with revWatch := (e.revWatch &&& 0xFFFFFFFF) ||| (v.zeroExtend 64 <<< 32) })
  | _ =>
    match ixOf a 0xF0200 4 8, ixOf a 0x100540 4 16, ixOf a 0x110400 4 256 with
    | some w, _, _ => mm (fun x => { x with linkBuf := Tbl.put 0 x.linkBuf w v })
    | none, some w, _ => mm (fun x => { x with keyBuf := Tbl.put 0 x.keyBuf w v })
    | none, none, some w => mm (fun x => { x with updBuf := Tbl.put 0 x.updBuf w v })
    | none, none, none => c

/-- An address lies in a landing that the master does not own (R35). -/
def foreignLand (m a : Nat) : Bool :=
  decide (0x10000 ≤ a) && decide (a < 0x10200) && !(landsOf m).contains ((a - 0x10000) / 0x20)

/-- A write that the master may make, at the register. -/
def Chip.regWrite (m : Master5) (a : Nat) (v : W32) (c : Chip) : Chip × W8 :=
  let n := m.val
  match cmtFind a with
  | some f => c.shadowWrite n a f v
  | none =>
    if foreignLand n a then (c.denied n a, stDENIED) else
    match ixOf a 0x10000 0x20 16, ixOf a 0xA0010 0x20 8, ixOf a 0xD0200 4 3 with
    | some l, _, _ => (c.landWrite l v, stOK)
    | none, some q, _ => c.ferryCtl n q (fld v 28 4)
    | none, none, some k =>
      let bad := (List.range 16).any (fun i => v.getLsbD (16 + i) && c.drvOwner (16 * k + i) != 2)
      (c.drvCmdWrite n k v, if bad then stDENIED else stOK)
    | none, none, none =>
      if a = 0xD0020 then (c.denied n a, stDENIED)
      else if 0x78000 ≤ a ∧ a < 0x7B000 then
        if c.tariff.sched.isSome then (c.denied n a, stDENIED)
        else
          let o := a - 0x78000
          (c.modTariff (fun t => { t with pas := tarPut t.pas o (v &&& tariffMask o) }), stOK)
      else (c.plainWrite m a v, stOK)

/-- One word write (R5, R17, R27, R34): the status. -/
def Chip.writeWord (m : Master5) (a : Nat) (v : W32) (c : Chip) : Chip × W8 :=
  let n := m.val
  if a % 4 ≠ 0 then (c, stRANGE)
  else if c.sys.changeover then (c, stBUSY)
  else match c.deadAt a with
    | some i => (c.bridgeTimeout i n a true, stTIMEOUT)
    | none => if !c.mayWrite n a v then (c.denied n a, stDENIED) else c.regWrite m a v

end Sys2Proof.Machine
end

