-- ==== Sys2Proof/Machine/Host.lean ====
section
/-! DEFINITION. The two paths to the window (02): host-port frames (R26-R28, R373), YHP (R23, R30,
R31), landings and their fill (R35, R36, R162, R419), and the rows of register writes and reads. -/

namespace Sys2Proof.Machine

open Sys2Proof

/-- The three address bytes of a frame, most significant first. -/
def addrBytes (a : BitVec 24) : List W8 := (leBytes 3 a.toNat).reverse

/-- What the module drives for a read frame: CRC over address, data and status (R26). -/
def readReply (a : BitVec 24) (d : W32) (st : W8) : HostReply :=
  { kind := .answered, data := d, status := st, crc := crc8 (addrBytes a ++ wordBytes d ++ [st]) }

/-- What the module drives for a write frame: CRC over address and status (R26). -/
def writeReply (a : BitVec 24) (st : W8) : HostReply :=
  { kind := .answered, status := st, crc := crc8 (addrBytes a ++ [st]) }

/-- The check a host sends with a write frame (R26). -/
def frameCrc (op : W8) (a : BitVec 24) (d : W32) : W8 := crc8 (op :: addrBytes a ++ wordBytes d)

/-- Notes the module's answer on J6. -/
def Chip.answer (r : HostReply) (c : Chip) : Chip := c.modHost (fun h => { h with reply := r })

/-- A complete frame of the host port (R27, R28). DESIGN CHOICE: a write frame that is both unaligned and of
bad CRC answers RANGE, since R27 lists that test first (log 14); and one of bad CRC in CHANGEOVER answers CRC_FAIL,
since no write has been received that R34 could ignore (log 160). -/
def Chip.frame (op : W8) (a : BitVec 24) (d : W32) (crc : W8) (c : Chip) : Chip :=
  if !c.hears 0 then c
  else if op = 0x3C then
    let r := c.readWord 0 a.toNat
    r.1.answer (readReply a r.2.1 r.2.2)
  else if op = 0xC3 then
    if a.toNat % 4 ≠ 0 then c.answer (writeReply a stRANGE)
    else if crc ≠ frameCrc op a d then c.answer (writeReply a stCRC)
    else
      let r := c.writeWord 0 a.toNat d
      r.1.answer (writeReply a r.2)
  else c.answer { kind := .released }

/-- A word write by a master whose accesses reach the window. -/
def Chip.put1 (m : Master5) (a : Nat) (v : W32) (c : Chip) : Chip :=
  if c.hears m.val then (c.writeWord m a v).1 else c

/-- A word read by a master whose accesses reach the window. -/
def Chip.get1 (m : Master5) (a : Nat) (c : Chip) : Chip :=
  if c.hears m.val then (c.readWord m.val a).1 else c

/-- ISLAND_TIMEOUT (R17): this access finds no answer behind the bridge. -/
def Chip.noAnswer (m : Master5) (a : Nat) (write : Bool) (c : Chip) : Chip :=
  match islandOf a with
  | none => c
  | some i =>
    if !c.hears m.val then c else
    (c.bridgeTimeout i m.val a write).when (m.val == 0) (Chip.answer
      (let x : BitVec 24 := BitVec.ofNat 24 a
       if write then writeReply x stTIMEOUT else readReply x 0 stTIMEOUT))

/-- Status bytes packed four to a word, first in [7:0] (R30). -/
def packStatus (l : List W8) : List W32 := toWords l

/-- The reads of a READ message, in payload order (R30). -/
def Chip.yhpReads (m : Nat) : List W32 → Chip → Chip × List W32 × List W8
  | [], c => (c, [], [])
  | a :: t, c =>
    let r := c.readWord m a.toNat
    let q := Chip.yhpReads m t r.1
    (q.1, r.2.1 :: q.2.1, r.2.2 :: q.2.2)

/-- The writes of a WRITE message (R30, R31): what follows a refused operation reports ABORTED. -/
def Chip.yhpWrites (m : Master5) (ok : Bool) : List W32 → Chip → Chip × List W8
  | a :: v :: t, c =>
    if !ok then
      let q := Chip.yhpWrites m false t c
      (q.1, stABORTED :: q.2)
    else
      let r := c.writeWord m a.toNat v
      let q := Chip.yhpWrites m (r.2 == stOK) t r.1
      (q.1, r.2 :: q.2)
  | _, c => (c, [])

/-- A reply to a message of a session (R30), while its connection stands. -/
def Chip.yhpReply (m : Nat) (msg : YhpIn) (payload : List W32) (c : Chip) : Chip :=
  if (c.master m).conn then
    c.send m { kind := msg.kind + 0x80, hi := BitVec.ofNat 8 msg.n, req := msg.req, payload := payload }
  else c

/-- The reads and writes of a COMMAND message (R30): CMD_STATUS is the reply, which also a master
without a session receives (log 16). -/
def Chip.yhpCmd (m : Master5) (p : List W32) (c : Chip) : Chip × W32 :=
  let w := fun a i (c : Chip) => (c.writeWord m a (p.getD i 0)).1
  let c := w 0x20010 0 (w 0x2000C 4 (w 0x20008 3 (w 0x20004 2 (w 0x20000 1 c))))
  match c.deadAt 0x20014 with
  | some i => (c.bridgeTimeout i m.val 0x20014 false, 0)
  | none => (c, (c.master m.val).cmdStatus)

/-- A message of host software on a YHP connection (R30): a protocol error closes it. -/
def Chip.yhpIn (s : Fin 4) (msg : YhpIn) (c : Chip) : Chip :=
  let m : Master5 := s.succ
  let len := msg.payload.length
  let n := msg.n % 256
  if !(c.master m.val).conn then c
  else if msg.kind = 0x01 ∧ len = n then
    let r := c.yhpReads m.val msg.payload
    r.1.yhpReply m.val msg (r.2.1 ++ packStatus r.2.2)
  else if (msg.kind = 0x02 ∨ msg.kind = 0x03) ∧ len = 0 then
    c.yhpReply m.val msg (packStatus [stLENGTH])
  else if msg.kind = 0x02 ∧ len = 2 * n then
    let r := c.yhpWrites m true msg.payload
    r.1.yhpReply m.val msg (packStatus r.2)
  else if msg.kind = 0x03 ∧ len = 5 then
    let r := c.yhpCmd m msg.payload
    r.1.yhpReply m.val msg [r.2]
  else c.closeConn m.val

/-- The account whose type-5 key a client certificate shows (R353). -/
def Chip.keyAccount (c : Chip) (key : List W8) : Option Nat :=
  (List.range 16).find? (fun a =>
    let x := c.acct a
    let i := x.slot.toNat
    x.en && x.method == 2 && c.slotUsable i && c.slotCls i == 7 && (c.kslot i).half.typ == 5
      && (c.kslot i).half.mat == key)

/-- The session a TLS client takes at the handshake (R352, R353): none where no account or no VENDOR
right fits (log 17). -/
def Chip.tlsSession (m : Nat) (client : TlsClient) (c : Chip) : Chip :=
  match client with
  | .anonymous => c
  | .clientKey key =>
    match c.keyAccount key with
    | some a => if c.lockLeft a = 0 then c.openSession m a (c.acct a).role else c
    | none => c
  | .vendorChain =>
    if c.key.lc = lcDEPLOYED ∧ ¬ c.tamper.lsw then c
    else (c.endSession m).modMaster m (fun x => { x with role := 5 })

/-- YHP_CONNECT (R23): NX serves it while NET is ready, outside CHANGEOVER and RETIRED (R34). -/
def Chip.connect (client : TlsClient) (c : Chip) : Chip :=
  if !c.rdy rNET || !c.net.nxUp || c.sys.changeover || c.retired then c
  else match [1, 2, 3, 4].find? (fun m => !(c.master m).conn) with
    | none => c.modNet (fun n => { n with noRes := n.noRes + 1 })
    | some m =>
      (c.modMaster m (fun x => { x with conn := true, outbox := [], sess := x.sess + 1 })).tlsSession m client

/-- What a landing shows (R36): D0 to D2 as one number, and flags [7:0] of D3. -/
structure LandVal where
  v : Nat := 0
  flags : Nat := 0
  deriving DecidableEq, Repr

/-- The flags of a register (R161, the table Billing landing flags). -/
def RegVal.flags (r : RegVal) : Nat := b2n r.notLegal + 2 * b2n r.degraded + 4 * b2n r.suspect

/-- The same flags of a demand. -/
def MaxD.flags (x : MaxD) : Nat := b2n x.notLegal + 2 * b2n x.degraded + 4 * b2n x.suspect

/-- What the flags of a register of meter point m tell of its period (R161, R187): the current one, or a
history entry. -/
def Chip.periodFlags (c : Chip) (hist m : Nat) : Nat :=
  let h := (c.bill.hist)[hist - 1]?.getD {}
  if hist = 0 then 64 * b2n (Tbl.get false c.bill.adj m) + 128 * b2n c.bill.outage
  else 16 * b2n (h.kind == 2) + 32 * b2n (h.kind == 3) + 64 * b2n (Tbl.get false h.adj m) + 128 * b2n h.outage

/-- A 96-bit register value. -/
def RegVal.count (r : RegVal) : Nat := (BitVec.ofInt 96 (r.v / q64)).toNat

/-- A register of the current period or of a history entry, with its flags. -/
def Chip.landReg (c : Chip) (cost : Bool) (hist i : Nat) : LandVal :=
  let h := (c.bill.hist)[hist - 1]?.getD {}
  let cur := hist = 0
  let t := if cur then (if cost then c.bill.cost else c.bill.qty) else if cost then h.cost else h.qty
  let r := Tbl.get ({} : RegVal) t i
  { v := r.count,
    flags := r.flags + 8 * b2n (cost || c.slotNet (idMp i) (idSlot i)) + c.periodFlags hist (idMp i) }

/-- A maximum-demand register of the current period or of a history entry. -/
def Chip.landMax (c : Chip) (hist i : Nat) : LandVal :=
  let h := (c.bill.hist)[hist - 1]?.getD {}
  let cur := hist = 0
  let x := Tbl.get ({} : MaxD) (if cur then c.bill.maxd else h.maxd) i
  { v := x.v.toNat + x.at_.toNat * 2 ^ 64,
    flags := x.flags + c.periodFlags hist (idMp i) }

/-- The demand of the last closed interval or window; 0 before one has closed (log 109). -/
def Chip.landDemand (c : Chip) (i : Nat) : LandVal :=
  let x := Tbl.get ({} : MaxD) c.bill.lastD i
  let w := c.bill.lastWin
  { v := x.v.toNat + w.at_.toNat * 2 ^ 64,
    flags := x.flags + 16 * b2n w.partl + 32 * b2n w.irreg + 64 * b2n w.adj + 128 * b2n w.outage }

/-- A session register: the open session, or the last closed one. -/
def Chip.landSess (c : Chip) (cost : Bool) (hist i : Nat) : Option LandVal :=
  let m := idMp i
  let s := if hist = 0 then c.session m else Tbl.get ({} : Session) c.bill.lastSess m
  if s.no = 0 ∨ (hist = 0 ∧ !s.applied) then none
  else
    let r := Tbl.get ({} : RegVal) (if cost then s.cost else s.qty) i
    some { v := r.count, flags := r.flags + 8 * b2n (cost || c.slotNet m (idSlot i)) + 64 * b2n s.adj
      + 128 * b2n s.outage }

/-- Space 0x5, engine instants (R91). -/
def Chip.landEngine (c : Chip) (item : Nat) : Option Nat :=
  let k := item % 8
  let q := c.eng k
  if item / 8 % 32 ≠ 0 then none
  else match item / 256 with
    | 0x00 => some (c.group k).newest
    | 0x01 => some q.hpos
    | 0x02 => some q.c
    | 0x03 => q.gates.head?.map Gate.six
    | 0x10 => some (Tbl.get 0 q.hz 0)
    | 0x11 => some (Tbl.get 0 q.hz 1)
    | 0x12 => some (Tbl.get 0 q.hz 2)
    | 0x13 => some (Tbl.get 0 q.hz 3)
    | _ => none

/-- Space 0x9, time values (R214). -/
def Chip.landTime (c : Chip) (item : Nat) : Option Nat :=
  match item with
  | 0 => some c.now
  | 1 => some (BitVec.ofInt 64 (c.civil c.now)).toNat
  | 2 => if c.time.srcState = 3 then some c.time.ptp.gmId.toNat else none
  | 3 => some c.time.sixP
  | _ => none

/-- Space 0xA, the ledger head (10): SEQ, or 8 bytes of h beside the low word of SEQ. -/
def Chip.landLedger (c : Chip) (item : Nat) : Option Nat :=
  let seq := c.ledger.seq.toNat - 1
  if item = 0 then some seq
  else if 0x10 ≤ item ∧ item < 0x14 then
    some (leAt (digBytes c.ledger.h) (8 * (item - 0x10)) 8 + seq % 2 ^ 32 * 2 ^ 64)
  else none

/-- What a fill loads (R36, R162, R419): a value, or none for RANGE. -/
def Chip.fillValue (c : Chip) (space hist item : Nat) : Option LandVal :=
  let ok := c.identOk item
  let net := c.slotNet (idMp item) (idSlot item)
  let plain := fun (v : Option Nat) => if hist = 0 then v.map (fun n => { v := n }) else none
  match space with
  | 0x1 => if ok && decide (hist ≤ 36) then some (c.landReg false hist item) else none
  | 0x2 => if ok && decide (hist ≤ 36) then some (c.landReg true hist item) else none
  | 0x3 => if ok && !net && decide (hist ≤ 36) then some (c.landMax hist item) else none
  | 0x4 => if item = 0 then plain (some c.sys.deviceId.toNat) else none
  | 0x5 => plain (c.landEngine item)
  | 0x6 => if ok && decide (hist ≤ 1) then c.landSess false hist item else none
  | 0x7 => if ok && !net && hist == 0 then some (c.landDemand item) else none
  | 0x8 => if ok && decide (hist ≤ 1) then c.landSess true hist item else none
  | 0x9 => plain (c.landTime item)
  | 0xA => plain (c.landLedger item)
  | _ => none

/-- The billing spaces (R416). -/
def billSpace (s : Nat) : Bool := [1, 2, 3, 6, 7, 8].contains s

/-- A landing whose fill is refused. -/
def Landing.refused (st : W8) (l : Landing) : Landing := { req := l.req, err := true, errCode := st }

/-- LAND_FILL_COMPLETE (R36, R416): BUSY for a billing space while BILL is clear. -/
def Chip.fill (n : Nat) (c : Chip) : Chip :=
  let l := c.land n
  let space := fld l.req 28 4
  if !l.busy then c
  else if billSpace space && !c.rdy rBILL then c.modLand n (Landing.refused stBUSY)
  else match c.fillValue space (fld l.req 22 6) (fld l.req 0 16) with
    | none => c.modLand n (Landing.refused stRANGE)
    | some x =>
      c.modLand n (fun l => { req := l.req, valid := true, d0 := w32 x.v, d1 := w32 (x.v / 2 ^ 32),
                              d2 := w32 (x.v / 2 ^ 64),
                              d3 := w32 (c.bill.seq.toNat % 2 ^ 24 * 256 + x.flags) })

/-- A lockstep mismatch in LK, NX, SC or SF (R14): the engine stops, so its readiness ends (R372, log).
With NX the YHP connections end; SF's silence is the Edge logic's to see (R286). -/
def Chip.islandStop (i : Island) (c : Chip) : Chip :=
  match i with
  | .lk => ((c.setRdy rLINK false).setDead 0x080 true).modLink (fun l => { l with field := false })
  | .nx =>
    let c := each [1, 2, 3, 4] (fun m c => c.closeConn m) c
    (((c.modNet (fun n => { n with nxUp := false })).setRdy rNET false).setDead 0x100 true)
  | .sc => (c.setRdy rKEYS false).setDead 0x010 true
  | .sf => (c.setRdy rSF false).modSafe (fun s => { s with sfStopped := true })

/-- HOST_PORT_FRAME (R27). -/
def execHostFrame (op : W8) (addr : BitVec 24) (data : W32) (crc : W8) (s : State) :
    Host.Outcome State Fault Refusal :=
  run (Chip.frame op addr data crc) s

/-- HOST_PORT_FRAME_ABANDONED (R28): nothing is written and nothing is driven. -/
def execHostFrameAbandoned (s : State) : Host.Outcome State Fault Refusal :=
  run (fun c => if c.hears 0 then c.answer {} else c) s

/-- HOST_PORT_ENABLE (R373): 20 ms after a supply was applied. -/
def execHostPortEnable (s : State) : Host.Outcome State Fault Refusal :=
  run (fun c => if c.power.off then c else c.modHost (fun h => { h with enabled := true })) s

/-- SYS_HINT_STATUS_WRITE (R29). -/
def execSysHintStatusWrite (m : Master5) (v : W32) (s : State) : Host.Outcome State Fault Refusal :=
  run (Chip.put1 m 0x60 v) s

/-- REGISTER_WRITE (R6). -/
def execRegisterWrite (m : Master5) (addr v : W32) (s : State) : Host.Outcome State Fault Refusal :=
  run (Chip.put1 m addr.toNat v) s

/-- ISLAND_TIMEOUT (R17). -/
def execIslandTimeout (m : Master5) (addr : W32) (write : Bool) (s : State) :
    Host.Outcome State Fault Refusal :=
  run (Chip.noAnswer m addr.toNat write) s

/-- YHP_CONNECT (R23). -/
def execYhpConnect (client : TlsClient) (s : State) : Host.Outcome State Fault Refusal :=
  run (Chip.connect client) s

/-- YHP_CONNECTION_CLOSE (R355). -/
def execYhpConnectionClose (sess : Fin 4) (s : State) : Host.Outcome State Fault Refusal :=
  run (Chip.closeConn (sess.val + 1)) s

/-- YHP_READ (R30): a message whose header gives its kind. -/
def execYhpRead (sess : Fin 4) (msg : YhpIn) (s : State) : Host.Outcome State Fault Refusal :=
  run (Chip.yhpIn sess msg) s

/-- YHP_WRITE (R31). -/
def execYhpWrite (sess : Fin 4) (msg : YhpIn) (s : State) : Host.Outcome State Fault Refusal :=
  run (Chip.yhpIn sess msg) s

/-- YHP_COMMAND (R30). -/
def execYhpCommand (sess : Fin 4) (msg : YhpIn) (s : State) : Host.Outcome State Fault Refusal :=
  run (Chip.yhpIn sess msg) s

/-- LAND_REQ_WRITE (R36). -/
def execLandReqWrite (m : Master5) (n : Fin 16) (v : W32) (s : State) :
    Host.Outcome State Fault Refusal :=
  run (Chip.put1 m (0x10000 + 0x20 * n.val) v) s

/-- LAND_FILL_COMPLETE (R36). -/
def execLandFillComplete (n : Fin 16) (s : State) : Host.Outcome State Fault Refusal :=
  run (Chip.fill n.val) s

/-- LAND_D3_READ (R36). -/
def execLandD3Read (m : Master5) (n : Fin 16) (s : State) : Host.Outcome State Fault Refusal :=
  run (Chip.get1 m (0x1001C + 0x20 * n.val)) s

/-- CFG_SHADOW_WRITE (R38). -/
def execCfgShadowWrite (m : Master5) (addr v : W32) (s : State) : Host.Outcome State Fault Refusal :=
  run (Chip.put1 m addr.toNat v) s

/-- CFG_COMMIT (R39, R40). -/
def execCfgCommit (m : Master5) (g : BitVec 4) (s : State) : Host.Outcome State Fault Refusal :=
  run (Chip.put1 m 0x30000 (w32 (2 ^ 28 + g.toNat))) s

/-- CFG_DISCARD (R38). -/
def execCfgDiscard (m : Master5) (g : BitVec 4) (s : State) : Host.Outcome State Fault Refusal :=
  run (Chip.put1 m 0x30000 (w32 (2 ^ 29 + g.toNat))) s

/-- LEGAL_CHANGE_APPLY (R40). -/
def execLegalChangeApply (s : State) : Host.Outcome State Fault Refusal := run Chip.legalApply s

/-- CFG_CRC_PASS (R41, R42). -/
def execCfgCrcPass (g : Fin 12) (bad : List (W32 × W32)) (s : State) : Host.Outcome State Fault Refusal :=
  run (Chip.crcPass g.val bad) s

/-- CFG_PERSIST (R42). -/
def execCfgPersist (g : Fin 12) (s : State) : Host.Outcome State Fault Refusal :=
  run (Chip.cfgPersist g.val) s

/-- FERRY_CLAIM (R235). -/
def execFerryClaim (m : Master5) (q : Fin 8) (s : State) : Host.Outcome State Fault Refusal :=
  run (Chip.put1 m (0xA0010 + 0x20 * q.val) 0x10000000) s

/-- FERRY_RELEASE (R235). -/
def execFerryRelease (m : Master5) (q : Fin 8) (s : State) : Host.Outcome State Fault Refusal :=
  run (Chip.put1 m (0xA0010 + 0x20 * q.val) 0x20000000) s

/-- FERRY_FLUSH (R235). -/
def execFerryFlush (m : Master5) (q : Fin 8) (s : State) : Host.Outcome State Fault Refusal :=
  run (Chip.put1 m (0xA0010 + 0x20 * q.val) 0x30000000) s

/-- FERRY_DATA_READ (R239). -/
def execFerryDataRead (m : Master5) (q : Fin 8) (s : State) : Host.Outcome State Fault Refusal :=
  run (Chip.get1 m (0xA0000 + 0x20 * q.val)) s

/-- DRV_CMD_WRITE (R278). -/
def execDrvCmdWrite (m : Master5) (k : Fin 3) (v : W32) (s : State) : Host.Outcome State Fault Refusal :=
  run (Chip.put1 m (0xD0200 + 4 * k.val) v) s

/-- ENGINE_LOCKSTEP_MISMATCH (R14). -/
def execEngineLockstepMismatch (i : Island) (s : State) : Host.Outcome State Fault Refusal :=
  run (Chip.islandStop i) s

/-- VIO_CHANGE (R402). -/
def execVioChange (ok : Bool) (s : State) : Host.Outcome State Fault Refusal :=
  run (Chip.modHost (fun h => { h with vioOk := ok })) s

end Sys2Proof.Machine
end

