-- ==== Sys2Proof/Machine/KeyRows.lean ====
section
/-! DEFINITION. The meanings of the commands of the security engine (16). -/

namespace Sys2Proof.Machine

open Sys2Proof

/-- A request for a slot key (R338): answered, loaded at once, or waiting in the order of priority. -/
def Chip.kwrAsk (e i : Nat) (c : Chip) : Chip :=
  let st := if c.rdy rKEYS then c.kwrCheck e i else stBUSY
  if st ≠ stOK then c.kwrAnswer e st
  else if c.key.kwr.eng.isNone then
    (c.modKey (fun k => { k with kwr := { k.kwr with eng := some e, slot := i } })).kwrAnswer e stOK
  else (c.modKey (fun k => { k with kwr := { k.kwr with queue := k.kwr.queue ++ [(e, i)] } })).kwrAnswer e
    stPENDING

/-- An engine releases its grant (R338). -/
def Chip.kwrFree (e : Nat) (c : Chip) : Chip :=
  if c.key.kwr.eng ≠ some e then c
  else if c.key.kwr.grace then c.graceEnd stOK else c.kwrClear

/-- A grant expires (R338). -/
def Chip.kwrExpire (c : Chip) : Chip :=
  match c.key.kwr.eng with
  | none => c
  | some e =>
    let i := c.key.kwr.slot
    if c.key.kwr.grace then c.graceEnd stCONDEMNED
    else ((c.kwrAnswer e stTIMEOUT).raise 0x1007 i 0 0).kwrClear

/-- AO_TAMPER_SAMPLE (R223). -/
def execAoTamperSample (cover sealOpen lsw mesh : Bool) (s : State) :
    Host.Outcome State Fault Refusal :=
  run (fun c => ((c.aoSample cover sealOpen lsw mesh).when (mesh && !c.tamper.mesh) (Chip.classA 30)).vendorEnd) s

/-- KWR_REQUEST (R338). -/
def execKwrRequest (e : Fin 5) (slot : Fin 64) (s : State) : Host.Outcome State Fault Refusal :=
  run (Chip.kwrAsk e.val slot.val) s

/-- KWR_RELEASE (R338). -/
def execKwrRelease (e : Fin 5) (s : State) : Host.Outcome State Fault Refusal :=
  run (Chip.kwrFree e.val) s

/-- KWR_TIMEOUT (R338). -/
def execKwrTimeout (s : State) : Host.Outcome State Fault Refusal := run Chip.kwrExpire s

/-- CONDEMN_GRACE_END (R345). -/
def execCondemnGraceEnd (s : State) : Host.Outcome State Fault Refusal :=
  run (Chip.graceEnd stCONDEMNED) s

/-- CLASS_A_TAMPER (R349): only the mesh is watched once the SEC island is shed. -/
def execClassATamper (t : Fin 4) (s : State) : Host.Outcome State Fault Refusal :=
  run (fun c => if c.secOff && decide (t.val < 3) then c else c.classA (27 + t.val)) s

/-- ZEROISE_REKEY (R349). -/
def execZeroiseRekey (s : State) : Host.Outcome State Fault Refusal := run Chip.zeroRekey s

/-- SESSION_TIMEOUT (R355): 600 s with no frame or message. -/
def execSessionTimeout (m : Master5) (s : State) : Host.Outcome State Fault Refusal :=
  run (fun c => if (c.master m.val).role = 0 then c else c.endSession m.val) s

/-- LOCKOUT_END (R354): a lockout ends once the tick has reached its end; the next failure starts one twice as
long. -/
def execLockoutEnd (a : Fin 16) (s : State) : Host.Outcome State Fault Refusal :=
  run (fun c => c.modAcct a.val (fun x => if c.now < x.lockTo then x else { x with lockTo := 0 })) s

/-- What J12 and block 0x00 of the plate tag serve (R415): identity, ordering code, hardware revision. -/
def Chip.labelData (c : Chip) : List W8 :=
  leBytes 8 c.sys.deviceId.toNat ++ c.orderCode ++ c.hwRevision

/-- SERVICE_PORT_ACCESS (R351, R411): while the module is powered. -/
def execServicePortAccess (debug : Bool) (s : State) : Host.Outcome State Fault Refusal :=
  run (fun c =>
    let set := fun (n : W8) (c : Chip) =>
      c.modKey (fun k => { k with j12 := n, j12Data := if n = 1 then c.labelData else [] })
    if c.secOff then c
    else if c.key.lc = lcMANUFACTURE ∨ c.key.lc = lcSERVICEDEBUG then set (if debug then 2 else 1) c
    else if !debug then set 1 c
    else if c.key.lc = lcDEPLOYED then (set 3 c).tamperInst 20 0xFF c.now 0 []
    else set 3 c) s

end Sys2Proof.Machine
end

