-- ==== Sys2Proof/Machine/LinkRows.lean ====
section
/-! DEFINITION. The meanings of the commands of the reader and the plate tag (15). -/

namespace Sys2Proof.Machine

open Sys2Proof

/-- PLATE_MIRROR_UPDATE (R327). -/
def execPlateMirrorUpdate (s : State) : Host.Outcome State Fault Refusal := run Chip.mirrorUpdate s

/-- LINK_POLL (R311). -/
def execLinkPoll (r : PollResult) (s : State) : Host.Outcome State Fault Refusal := run (Chip.linkPoll r) s

/-- TAG_LEFT (R323). -/
def execTagLeft (s : State) : Host.Outcome State Fault Refusal := run Chip.tagsLeft s

/-- A body of a fixed length. -/
def lenIs (n : Nat) (b : List W8) : Bool := b.length == n

/-- A row of the table Crossing commands (R317): the code, the lengths of its bodies, the states that accept it and
what the tag does. -/
structure CrossRow where
  code : W8
  lens : List W8 → Bool
  accepts : BitVec 2 → Bool
  act : List W8 → BitVec 2 → Chip → Chip

/-- The table Crossing commands. -/
def crossReq : CrossRow := ⟨0x01, lenIs 1, plNotHalted, fun _ _ => Chip.plateReq⟩
def crossSel : CrossRow := ⟨0x02, selLen, fun st => st == 1, fun b _ => Chip.plateSel b⟩
def crossHalt : CrossRow := ⟨0x03, lenIs 1, plActive, fun _ _ => Chip.plateHalt⟩
def crossQuiet : CrossRow := ⟨0x04, lenIs 2, plActive, fun b _ => Chip.plateQuiet b⟩
def crossStatus : CrossRow := ⟨0x05, lenIs 1, plActive, fun _ _ c => c.plateSt stOK c.selAck⟩
def crossRead : CrossRow := ⟨0x10, lenIs 3, plActive, fun b _ => Chip.plateRead b⟩
def crossWrite : CrossRow :=
  ⟨0x11, fun b => b.length == 4 + 34 * (b.getD 2 0).toNat, plActive, fun b _ => Chip.plateWrite b⟩
def crossAuth1 : CrossRow := ⟨0x20, lenIs 2, plActive, fun b _ => Chip.plateAuth1 b⟩
def crossAuth2 : CrossRow := ⟨0x21, lenIs 33, plActive, Chip.plateAuth2⟩
def crossAuth3 : CrossRow := ⟨0x22, lenIs 11, plActive, Chip.plateAuth3⟩
def crossSread : CrossRow := ⟨0x30, lenIs 3, plActive, Chip.plateSread⟩
def crossSwrite : CrossRow :=
  ⟨0x31, fun b => b.length == 12 + 34 * (b.getD 2 0).toNat, plActive, Chip.plateSwrite⟩

/-- A code that the table does not have (R317). -/
def crossOther : CrossRow := ⟨0, fun _ => true, plActive, fun _ _ => Chip.plateSt stUNKNOWN []⟩

def crossRows : List CrossRow :=
  [crossReq, crossSel, crossHalt, crossQuiet, crossStatus, crossRead, crossWrite, crossAuth1, crossAuth2, crossAuth3,
   crossSread, crossSwrite]

/-- The plate tag acts on a frame as a row of the table. -/
def CrossRow.run (x : CrossRow) (frame : List W8) (c : Chip) : Chip := c.plateFrame frame x.lens x.accepts x.act

/-- The plate tag receives a frame (R317): its first byte is the command's code. A command of the opcode table
expects its own row `x`; a frame with another code is what that code says. -/
def crossing (x : CrossRow) (frame : List W8) (s : State) : Host.Outcome State Fault Refusal :=
  run (if frame.head? = some x.code then x.run frame
       else ((crossRows.find? (fun y => frame.head? == some y.code)).getD crossOther).run frame) s

/-- CROSSING_REQ (R317, R318). -/
def execCrossingReq (frame : List W8) (s : State) : Host.Outcome State Fault Refusal := crossing crossReq frame s

/-- CROSSING_SEL (R317, R318). -/
def execCrossingSel (frame : List W8) (s : State) : Host.Outcome State Fault Refusal := crossing crossSel frame s

/-- CROSSING_HALT (R318). -/
def execCrossingHalt (frame : List W8) (s : State) : Host.Outcome State Fault Refusal := crossing crossHalt frame s

/-- CROSSING_QUIET (R317). -/
def execCrossingQuiet (frame : List W8) (s : State) : Host.Outcome State Fault Refusal := crossing crossQuiet frame s

/-- CROSSING_STATUS (R317: as SELACK). -/
def execCrossingStatus (frame : List W8) (s : State) : Host.Outcome State Fault Refusal := crossing crossStatus frame s

/-- CROSSING_READ (R318, R326). -/
def execCrossingRead (frame : List W8) (s : State) : Host.Outcome State Fault Refusal := crossing crossRead frame s

/-- CROSSING_WRITE (R326). -/
def execCrossingWrite (frame : List W8) (s : State) : Host.Outcome State Fault Refusal := crossing crossWrite frame s

/-- CROSSING_AUTH1 (R321). -/
def execCrossingAuth1 (frame : List W8) (s : State) : Host.Outcome State Fault Refusal := crossing crossAuth1 frame s

/-- CROSSING_AUTH2 (R321). -/
def execCrossingAuth2 (frame : List W8) (s : State) : Host.Outcome State Fault Refusal := crossing crossAuth2 frame s

/-- CROSSING_AUTH3 (R321, R322). -/
def execCrossingAuth3 (frame : List W8) (s : State) : Host.Outcome State Fault Refusal := crossing crossAuth3 frame s

/-- CROSSING_SREAD (R326). -/
def execCrossingSread (frame : List W8) (s : State) : Host.Outcome State Fault Refusal := crossing crossSread frame s

/-- CROSSING_SWRITE (R326, R330). -/
def execCrossingSwrite (frame : List W8) (s : State) : Host.Outcome State Fault Refusal := crossing crossSwrite frame s

/-- FIELD_GAP (R318). -/
def execFieldGap (ms : Nat) (s : State) : Host.Outcome State Fault Refusal := run (Chip.plateGap ms) s

/-- QUIET_TIME_EXPIRE (R318). -/
def execQuietTimeExpire (s : State) : Host.Outcome State Fault Refusal := run Chip.plateQuietEnd s

/-- CROSSING_SESSION_TIMEOUT (R322): 10 s after AUTH3. -/
def execCrossingSessionTimeout (s : State) : Host.Outcome State Fault Refusal :=
  run (fun c => if c.link.plate.auth = 3 then c.plateSessEnd else c) s

/-- PLATE_HOLD_END (R329). -/
def execPlateHoldEnd (s : State) : Host.Outcome State Fault Refusal := run Chip.holdEnd s

/-- SLICE_MARKER (R325). -/
def execSliceMarker (s : State) : Host.Outcome State Fault Refusal := run Chip.sliceMark s

end Sys2Proof.Machine
end

