-- ==== Sys2Proof/Machine/RecordRows.lean ====
section
/-! DEFINITION. The meanings of the commands of events, ledger, display and ferry queues that come
from the module itself (10, 11). -/

namespace Sys2Proof.Machine

open Sys2Proof

/-- EVT_PERSIST (R220): one entry per 10 ms. -/
def execEvtPersist (s : State) : Host.Outcome State Fault Refusal :=
  run (fun c => (c.modEvt Evt.persist).deliver) s

/-- EVT_ARCHIVE_COPY (R220, R417): it waits until SV is ready. -/
def execEvtArchiveCopy (s : State) : Host.Outcome State Fault Refusal :=
  run (fun c => if c.rdy rSV then c.modEvt (fun e =>
    { e with archive := (e.log.take e.unarch ++ e.archive).take 4194304, unarch := 0 }) else c) s

/-- EVT_COUNTER_PERSIST (R216): at most once per second. -/
def execEvtCounterPersist (s : State) : Host.Outcome State Fault Refusal := run Chip.countersPersist s

/-- HELD_EVENTS_ENTER (R218). -/
def execHeldEventsEnter (s : State) : Host.Outcome State Fault Refusal := run Chip.enterHeld s

/-- MAG_SAMPLE (R223). -/
def execMagSample (v : W16) (s : State) : Host.Outcome State Fault Refusal :=
  run (Chip.magSampled v.toNat) s

/-- TEMP_RANGE_CHECK (R398). -/
def execTempRangeCheck (backplate : Int) (s : State) : Host.Outcome State Fault Refusal :=
  run (Chip.tempCheck backplate) s

/-- LEDGER_SIGNATURE_TIMER (R231). -/
def execLedgerSignatureTimer (s : State) : Host.Outcome State Fault Refusal :=
  run (fun c => c.stageSig c.now) s

/-- A change that is still to take effect at an instant up to six, and so to stage a record of that instant: a
boundary, a legal change, a clock step, a session. -/
def Chip.effectDue (c : Chip) (six : Nat) : Bool :=
  c.save.pendTime.any (fun p => decide (p.stamp ≤ six)) ||
  c.cfg.pend.any (fun p => !p.applied && p.stamp.any (fun s => decide (s ≤ six))) ||
  c.bill.closeT.any (fun p => decide (p.2 ≤ six)) ||
  c.time.step.any (fun p => decide (p.stamp ≤ six)) ||
  (List.range 64).any (fun m => (c.session m).no != 0 && (c.session m).closeSix.any (fun s => decide (s ≤ six)))

/-- The oldest staged record waits (R22, R231): a running engine has not committed its instant, so that a record
of a lower SIX may follow and the post number of the instant is not settled, or a change is still to take effect
at or before it. -/
def Chip.ledgerWaits (c : Chip) : Bool :=
  match c.ledger.staging with
  | [] => false
  | r :: _ => c.running.any (fun k => decide ((c.eng k).c < r.six.toNat)) || c.effectDue r.six.toNat

/-- LEDGER_APPEND (R232): SV appends one record, in the order of SIX (R231). -/
def execLedgerAppend (s : State) : Host.Outcome State Fault Refusal :=
  run (fun c => if c.rdy rSV && !c.ledgerWaits then c.ledgerPut else c) s

/-- LEDGER_WRITE_FAIL (R232): LEDGER_FAULT is written. -/
def execLedgerWriteFail (s : State) : Host.Outcome State Fault Refusal :=
  run (fun c => c.tamperInst 25 0xFF c.now 0 []) s

/-- DISP_BTN_SHORT (R228). -/
def execDispBtnShort (s : State) : Host.Outcome State Fault Refusal := run Chip.btnShort s

/-- DISP_BTN_LONG (R228). -/
def execDispBtnLong (s : State) : Host.Outcome State Fault Refusal := run Chip.btnLong s

/-- DISP_PAGE_TIMER (R227, R228). -/
def execDispPageTimer (s : State) : Host.Outcome State Fault Refusal := run Chip.pageTimer s

/-- FERRY_HOLD_RELEASE (R241). -/
def execFerryHoldRelease (q : Fin 8) (s : State) : Host.Outcome State Fault Refusal :=
  run (Chip.holdRelease q.val) s

/-- QUEUE_STALL (R241). -/
def execQueueStall (q : Fin 8) (ten : Bool) (s : State) : Host.Outcome State Fault Refusal :=
  run (Chip.stallTime q.val ten) s

/-- FERRY_PTR_MISMATCH (R242). -/
def execFerryPtrMismatch (q : Fin 8) (s : State) : Host.Outcome State Fault Refusal :=
  run (Chip.ptrMismatch q.val) s

/-- FERRY_PARITY_END (R243): the first swap after the recovery has ended. -/
def execFerryParityEnd (q : Fin 8) (s : State) : Host.Outcome State Fault Refusal :=
  run (fun c => (c.modFq q.val (fun f => if f.leaving then f.swap else f)).holdRelease q.val) s

/-- QUEUE_PUSH (R237): a whole packet of a queue that a YHP session owns goes to the session, with
one FERRY_RXST word. -/
def execQueuePush (q : Fin 8) (s : State) : Host.Outcome State Fault Refusal :=
  run (fun c =>
    match (c.fq q.val).owner with
    | none => c
    | some m =>
      if m = 0 ∨ !(c.master m).conn then c else
      match (c.fq q.val).popPkt with
      | (none, _) => c
      | (some p, f, bad) =>
        let c := (c.modFq q.val (fun _ => f)).when bad (fun c => c.raise 0x0A02 q.val 3 0)
        (c.send m
          { kind := 0x91, hi := BitVec.ofNat 8 q.val,
            payload := p ++ [{ f with cur := [], owed := 0 }.rxst] }).holdRelease q.val) s

end Sys2Proof.Machine
end

