-- ==== Sys2Proof/Machine/TimeRows.lean ====
section
/-! DEFINITION. The rows of the opcode table about the time base (09). -/

namespace Sys2Proof.Machine

open Sys2Proof

/-- CLOCK_STEP (R198). -/
def execClockStep (s : State) : Host.Outcome State Fault Refusal := run Chip.clockStep s

/-- CG10_APPLY (R201). -/
def execCg10Apply (s : State) : Host.Outcome State Fault Refusal := run Chip.cg10Apply s

/-- TIME_MAPPING_FREEZE (R195). -/
def execTimeMappingFreeze (s : State) : Host.Outcome State Fault Refusal := run Chip.mapFreeze s

/-- AO_CALIBRATE (R194). -/
def execAoCalibrate (meas : Int) (s : State) : Host.Outcome State Fault Refusal :=
  run (Chip.aoCalibrate meas) s

/-- PTP_MESSAGE (R196). -/
def execPtpMessage (f : PtpFrame) (s : State) : Host.Outcome State Fault Refusal :=
  run (Chip.ptpRx f) s

/-- PTP_SYNC_TIMEOUT (R196). -/
def execPtpSyncTimeout (s : State) : Host.Outcome State Fault Refusal := run Chip.ptpTimeout s

/-- TIME_STEP_NEEDED (R198). -/
def execTimeStepNeeded (s : State) : Host.Outcome State Fault Refusal := run Chip.stepNeeded s

/-- LEAP_SMEAR (R199). -/
def execLeapSmear (s : State) : Host.Outcome State Fault Refusal := run Chip.leapStart s

/-- SLEW_COMPLETE (R197). -/
def execSlewComplete (s : State) : Host.Outcome State Fault Refusal := run Chip.slewEnd s

end Sys2Proof.Machine
end

