-- ==== Sys2Proof/Machine/Dispatch.lean ====
section
/-! DEFINITION. The meaning of every command: one direct call per constructor. -/

namespace Sys2Proof.Machine

open Sys2Proof

/-- Runs one command on the state (the queue stands aside): every row of the opcode table has one arm. -/
def exec (i : Instr) (s : State) : Host.Outcome State Fault Refusal :=
  match i with
  | .hostFrame op addr data crc => Sys2Proof.Machine.execHostFrame op addr data crc s
  | .hostFrameAbandoned => Sys2Proof.Machine.execHostFrameAbandoned s
  | .hostPortEnable => Sys2Proof.Machine.execHostPortEnable s
  | .sysHintStatusWrite m v => Sys2Proof.Machine.execSysHintStatusWrite m v s
  | .registerWrite m addr v => Sys2Proof.Machine.execRegisterWrite m addr v s
  | .islandTimeout m addr write => Sys2Proof.Machine.execIslandTimeout m addr write s
  | .yhpConnect client => Sys2Proof.Machine.execYhpConnect client s
  | .yhpConnectionClose sess => Sys2Proof.Machine.execYhpConnectionClose sess s
  | .yhpRead sess msg => Sys2Proof.Machine.execYhpRead sess msg s
  | .yhpWrite sess msg => Sys2Proof.Machine.execYhpWrite sess msg s
  | .yhpCommand sess msg => Sys2Proof.Machine.execYhpCommand sess msg s
  | .queuePush q => Sys2Proof.Machine.execQueuePush q s
  | .landReqWrite m n v => Sys2Proof.Machine.execLandReqWrite m n v s
  | .landFillComplete n => Sys2Proof.Machine.execLandFillComplete n s
  | .landD3Read m n => Sys2Proof.Machine.execLandD3Read m n s
  | .cfgShadowWrite m addr v => Sys2Proof.Machine.execCfgShadowWrite m addr v s
  | .cfgCommit m g => Sys2Proof.Machine.execCfgCommit m g s
  | .cfgDiscard m g => Sys2Proof.Machine.execCfgDiscard m g s
  | .legalChangeApply => Sys2Proof.Machine.execLegalChangeApply s
  | .cfgCrcPass g bad => Sys2Proof.Machine.execCfgCrcPass g bad s
  | .cfgPersist g => Sys2Proof.Machine.execCfgPersist g s
  | .ticketCompletion t status result => Sys2Proof.Machine.execTicketCompletion t status result s
  | .nop r => Sys2Proof.Machine.execNop r s
  | .ticketCancel r => Sys2Proof.Machine.execTicketCancel r s
  | .sysModeSet r => Sys2Proof.Machine.execSysModeSet r s
  | .sysQuarClr r => Sys2Proof.Machine.execSysQuarClr r s
  | .sysRestart r => Sys2Proof.Machine.execSysRestart r s
  | .holdupTest r => Sys2Proof.Machine.execHoldupTest r s
  | .tapRefNow r => Sys2Proof.Machine.execTapRefNow r s
  | .tapChainReset r => Sys2Proof.Machine.execTapChainReset r s
  | .tapGlitchClr r => Sys2Proof.Machine.execTapGlitchClr r s
  | .qeRestart r => Sys2Proof.Machine.execQeRestart r s
  | .qeCntClr r => Sys2Proof.Machine.execQeCntClr r s
  | .qeTrace r => Sys2Proof.Machine.execQeTrace r s
  | .qeImgInstall r => Sys2Proof.Machine.execQeImgInstall r s
  | .qeImgRemove r => Sys2Proof.Machine.execQeImgRemove r s
  | .qeTapRecord r => Sys2Proof.Machine.execQeTapRecord r s
  | .tapRecordEnd k => Sys2Proof.Machine.execTapRecordEnd k s
  | .billClose r => Sys2Proof.Machine.execBillClose r s
  | .billSessClose r => Sys2Proof.Machine.execBillSessClose r s
  | .billZero r => Sys2Proof.Machine.execBillZero r s
  | .billLpRead r => Sys2Proof.Machine.execBillLpRead r s
  | .tariffSchedule r => Sys2Proof.Machine.execTariffSchedule r s
  | .tariffUnschedule r => Sys2Proof.Machine.execTariffUnschedule r s
  | .tariffCopy r => Sys2Proof.Machine.execTariffCopy r s
  | .timeAdjust r => Sys2Proof.Machine.execTimeAdjust r s
  | .timeSet r => Sys2Proof.Machine.execTimeSet r s
  | .evtRead r => Sys2Proof.Machine.execEvtRead r s
  | .evtCntClr r => Sys2Proof.Machine.execEvtCntClr r s
  | .ledgerRead r => Sys2Proof.Machine.execLedgerRead r s
  | .ledgerAck r => Sys2Proof.Machine.execLedgerAck r s
  | .ferryTest r => Sys2Proof.Machine.execFerryTest r s
  | .dispTest r => Sys2Proof.Machine.execDispTest r s
  | .baySignal r => Sys2Proof.Machine.execBaySignal r s
  | .bayRestart r => Sys2Proof.Machine.execBayRestart r s
  | .bayTripClr r => Sys2Proof.Machine.execBayTripClr r s
  | .bayImgInstall r => Sys2Proof.Machine.execBayImgInstall r s
  | .bayImgRemove r => Sys2Proof.Machine.execBayImgRemove r s
  | .drvClr r => Sys2Proof.Machine.execDrvClr r s
  | .drvReclaim r => Sys2Proof.Machine.execDrvReclaim r s
  | .drvTestNow r => Sys2Proof.Machine.execDrvTestNow r s
  | .linkPtRead r => Sys2Proof.Machine.execLinkPtRead r s
  | .linkPtWrite r => Sys2Proof.Machine.execLinkPtWrite r s
  | .linkXfer r => Sys2Proof.Machine.execLinkXfer r s
  | .linkCntClr r => Sys2Proof.Machine.execLinkCntClr r s
  | .keyChallenge r => Sys2Proof.Machine.execKeyChallenge r s
  | .keyLogin r => Sys2Proof.Machine.execKeyLogin r s
  | .keyLogout r => Sys2Proof.Machine.execKeyLogout r s
  | .keyPasswd r => Sys2Proof.Machine.execKeyPasswd r s
  | .keyAcctSet r => Sys2Proof.Machine.execKeyAcctSet r s
  | .keyUpdate r => Sys2Proof.Machine.execKeyUpdate r s
  | .keyReplace r => Sys2Proof.Machine.execKeyReplace r s
  | .keyInvalidate r => Sys2Proof.Machine.execKeyInvalidate r s
  | .keyDerive r => Sys2Proof.Machine.execKeyDerive r s
  | .keyLcSet r => Sys2Proof.Machine.execKeyLcSet r s
  | .updStage r => Sys2Proof.Machine.execUpdStage r s
  | .updChunk r => Sys2Proof.Machine.execUpdChunk r s
  | .stagingTimeout t => Sys2Proof.Machine.execStagingTimeout t s
  | .stagedImageExpiry t => Sys2Proof.Machine.execStagedImageExpiry t s
  | .updActivate r => Sys2Proof.Machine.execUpdActivate r s
  | .updRevert r => Sys2Proof.Machine.execUpdRevert r s
  | .updDiscard r => Sys2Proof.Machine.execUpdDiscard r s
  | .pairSwitch r => Sys2Proof.Machine.execPairSwitch r s
  | .add e rd rs1 rs2 => Sys2Proof.Machine.execAdd e rd rs1 rs2 s
  | .sub e rd rs1 rs2 => Sys2Proof.Machine.execSub e rd rs1 rs2 s
  | .and e rd rs1 rs2 => Sys2Proof.Machine.execAnd e rd rs1 rs2 s
  | .or e rd rs1 rs2 => Sys2Proof.Machine.execOr e rd rs1 rs2 s
  | .xor e rd rs1 rs2 => Sys2Proof.Machine.execXor e rd rs1 rs2 s
  | .mul e rd rs1 rs2 => Sys2Proof.Machine.execMul e rd rs1 rs2 s
  | .mulh e rd rs1 rs2 => Sys2Proof.Machine.execMulh e rd rs1 rs2 s
  | .div e rd rs1 rs2 => Sys2Proof.Machine.execDiv e rd rs1 rs2 s
  | .rem e rd rs1 rs2 => Sys2Proof.Machine.execRem e rd rs1 rs2 s
  | .slt e rd rs1 rs2 => Sys2Proof.Machine.execSlt e rd rs1 rs2 s
  | .sltu e rd rs1 rs2 => Sys2Proof.Machine.execSltu e rd rs1 rs2 s
  | .min e rd rs1 rs2 => Sys2Proof.Machine.execMin e rd rs1 rs2 s
  | .max e rd rs1 rs2 => Sys2Proof.Machine.execMax e rd rs1 rs2 s
  | .shl e rd rs1 rs2 sh => Sys2Proof.Machine.execShl e rd rs1 rs2 sh s
  | .shr e rd rs1 rs2 sh => Sys2Proof.Machine.execShr e rd rs1 rs2 sh s
  | .sra e rd rs1 rs2 sh => Sys2Proof.Machine.execSra e rd rs1 rs2 sh s
  | .addi e rd rs1 imm => Sys2Proof.Machine.execAddi e rd rs1 imm s
  | .andi e rd rs1 imm => Sys2Proof.Machine.execAndi e rd rs1 imm s
  | .ori e rd rs1 imm => Sys2Proof.Machine.execOri e rd rs1 imm s
  | .lui e rd imm => Sys2Proof.Machine.execLui e rd imm s
  | .fadd e rd rs1 rs2 => Sys2Proof.Machine.execFadd e rd rs1 rs2 s
  | .fsub e rd rs1 rs2 => Sys2Proof.Machine.execFsub e rd rs1 rs2 s
  | .fmul e rd rs1 rs2 => Sys2Proof.Machine.execFmul e rd rs1 rs2 s
  | .fdiv e rd rs1 rs2 => Sys2Proof.Machine.execFdiv e rd rs1 rs2 s
  | .fsqrt e rd rs1 => Sys2Proof.Machine.execFsqrt e rd rs1 s
  | .fma e rd rs1 rs2 rs3 => Sys2Proof.Machine.execFma e rd rs1 rs2 rs3 s
  | .fcvtI e rm rd rs1 => Sys2Proof.Machine.execFcvtI e rm rd rs1 s
  | .fcvtFInt e rd rs1 => Sys2Proof.Machine.execFcvtFInt e rd rs1 s
  | .fcvtFAcc e rd wa => Sys2Proof.Machine.execFcvtFAcc e rd wa s
  | .fcmp e cond rd rs1 rs2 => Sys2Proof.Machine.execFcmp e cond rd rs1 rs2 s
  | .ld e rd rs1 imm => Sys2Proof.Machine.execLd e rd rs1 imm s
  | .st e rs2 rs1 imm => Sys2Proof.Machine.execSt e rs2 rs1 imm s
  | .ldw e wa rs1 imm => Sys2Proof.Machine.execLdw e wa rs1 imm s
  | .stw e wa rs1 imm => Sys2Proof.Machine.execStw e wa rs1 imm s
  | .tap e rd rs1 imm => Sys2Proof.Machine.execTap e rd rs1 imm s
  | .tapc e rd rs1 imm => Sys2Proof.Machine.execTapc e rd rs1 imm s
  | .tapst e rd rs1 imm => Sys2Proof.Machine.execTapst e rd rs1 imm s
  | .macw e wa rs1 rs2 neg => Sys2Proof.Machine.execMacw e wa rs1 rs2 neg s
  | .addw e wa wb rs1 sel => Sys2Proof.Machine.execAddw e wa wb rs1 sel s
  | .clrw e wa => Sys2Proof.Machine.execClrw e wa s
  | .bin e wa rs1 slot keep => Sys2Proof.Machine.execBin e wa rs1 slot keep s
  | .bins e wa rs1 slot keep => Sys2Proof.Machine.execBins e wa rs1 slot keep s
  | .spill e wa rs1 slot keep => Sys2Proof.Machine.execSpill e wa rs1 slot keep s
  | .ctx e rd rs1 sel => Sys2Proof.Machine.execCtx e rd rs1 sel s
  | .mark e rs1 rs2 => Sys2Proof.Machine.execMark e rs1 rs2 s
  | .if97h e rd rs1 rs2 pair => Sys2Proof.Machine.execIf97h e rd rs1 rs2 pair s
  | .if97d e rd rs1 rs2 pair => Sys2Proof.Machine.execIf97d e rd rs1 rs2 pair s
  | .if97s e rd rs1 rs2 pair => Sys2Proof.Machine.execIf97s e rd rs1 rs2 pair s
  | .if97c e rd rs1 rs2 pair => Sys2Proof.Machine.execIf97c e rd rs1 rs2 pair s
  | .if97x e rd rs1 rs2 pair => Sys2Proof.Machine.execIf97x e rd rs1 rs2 pair s
  | .airz e rd rs1 rs2 rs3 => Sys2Proof.Machine.execAirz e rd rs1 rs2 rs3 s
  | .aird e rd rs1 rs2 rs3 => Sys2Proof.Machine.execAird e rd rs1 rs2 rs3 s
  | .gate e => Sys2Proof.Machine.execGate e s
  | .fence e => Sys2Proof.Machine.execFence e s
  | .pushl e rs1 rs2 tag => Sys2Proof.Machine.execPushl e rs1 rs2 tag s
  | .pushr e rs1 rs2 tag => Sys2Proof.Machine.execPushr e rs1 rs2 tag s
  | .beq e rs1 rs2 off => Sys2Proof.Machine.execBeq e rs1 rs2 off s
  | .bne e rs1 rs2 off => Sys2Proof.Machine.execBne e rs1 rs2 off s
  | .blt e rs1 rs2 off => Sys2Proof.Machine.execBlt e rs1 rs2 off s
  | .bge e rs1 rs2 off => Sys2Proof.Machine.execBge e rs1 rs2 off s
  | .jal e off => Sys2Proof.Machine.execJal e off s
  | .jr e rs1 => Sys2Proof.Machine.execJr e rs1 s
  | .loop e rs1 k n => Sys2Proof.Machine.execLoop e rs1 k n s
  | .halt e => Sys2Proof.Machine.execHalt e s
  | .yield e cycles => Sys2Proof.Machine.execYield e cycles s
  | .trap e imm => Sys2Proof.Machine.execTrap e imm s
  | .bayReloadDone => Sys2Proof.Machine.execBayReloadDone s
  | .drvset e rd rs1 rs2 => Sys2Proof.Machine.execDrvset e rd rs1 rs2 s
  | .drvget e rd rs1 => Sys2Proof.Machine.execDrvget e rd rs1 s
  | .evwait e rd rs1 => Sys2Proof.Machine.execEvwait e rd rs1 s
  | .tmset e rd rs1 rs2 => Sys2Proof.Machine.execTmset e rd rs1 rs2 s
  | .tmsetCancel e rd rs1 => Sys2Proof.Machine.execTmsetCancel e rd rs1 s
  | .signal e rd rs1 rs2 => Sys2Proof.Machine.execSignal e rd rs1 rs2 s
  | .pilot e rd rs1 rs2 => Sys2Proof.Machine.execPilot e rd rs1 rs2 s
  | .sliptx e rd rs1 rs2 rs3 => Sys2Proof.Machine.execSliptx e rd rs1 rs2 rs3 s
  | .sliprx e rd rs1 rs2 => Sys2Proof.Machine.execSliprx e rd rs1 rs2 s
  | .sessopen e rd rs1 rs2 => Sys2Proof.Machine.execSessopen e rd rs1 rs2 s
  | .sessclose e rd rs1 rs2 => Sys2Proof.Machine.execSessclose e rd rs1 rs2 s
  | .bayTimerExpire n => Sys2Proof.Machine.execBayTimerExpire n s
  | .afeSample k raw temp => Sys2Proof.Machine.execAfeSample k raw temp s
  | .horizonPublish k src => Sys2Proof.Machine.execHorizonPublish k src s
  | .gateCommit k => Sys2Proof.Machine.execGateCommit k s
  | .contextEvent k ev => Sys2Proof.Machine.execContextEvent k ev s
  | .sidestepSwitchover k => Sys2Proof.Machine.execSidestepSwitchover k s
  | .forcedGate k => Sys2Proof.Machine.execForcedGate k s
  | .headStallEnd k => Sys2Proof.Machine.execHeadStallEnd k s
  | .qeLockstep k => Sys2Proof.Machine.execQeLockstep k s
  | .recoverCatchUp k => Sys2Proof.Machine.execRecoverCatchUp k s
  | .qeReloadDone k => Sys2Proof.Machine.execQeReloadDone k s
  | .qeCatchUp k => Sys2Proof.Machine.execQeCatchUp k s
  | .progLoadDone k => Sys2Proof.Machine.execProgLoadDone k s
  | .headCatchUp k => Sys2Proof.Machine.execHeadCatchUp k s
  | .cmpWindowEnd t => Sys2Proof.Machine.execCmpWindowEnd t s
  | .refRoundStart t => Sys2Proof.Machine.execRefRoundStart t s
  | .identRoundStart t => Sys2Proof.Machine.execIdentRoundStart t s
  | .refRoundEnd t r => Sys2Proof.Machine.execRefRoundEnd t r s
  | .zcTimeout t => Sys2Proof.Machine.execZcTimeout t s
  | .tapFaultDeclare t cls lost => Sys2Proof.Machine.execTapFaultDeclare t cls lost s
  | .tapFaultClear x => Sys2Proof.Machine.execTapFaultClear x s
  | .qualPoll mp => Sys2Proof.Machine.execQualPoll mp s
  | .qualResponse mp raw => Sys2Proof.Machine.execQualResponse mp raw s
  | .qualRequestFail mp why => Sys2Proof.Machine.execQualRequestFail mp why s
  | .spillPulseOnEnd mp slot => Sys2Proof.Machine.execSpillPulseOnEnd mp slot s
  | .spillPulseOffEnd mp slot => Sys2Proof.Machine.execSpillPulseOffEnd mp slot s
  | .timeEventHandoff => Sys2Proof.Machine.execTimeEventHandoff s
  | .demandClose => Sys2Proof.Machine.execDemandClose s
  | .billingClose => Sys2Proof.Machine.execBillingClose s
  | .tariffSwitch => Sys2Proof.Machine.execTariffSwitch s
  | .calendarActivation => Sys2Proof.Machine.execCalendarActivation s
  | .sessionOpenApply mp => Sys2Proof.Machine.execSessionOpenApply mp s
  | .sessionCloseApply mp => Sys2Proof.Machine.execSessionCloseApply mp s
  | .lpPeriodEnd ch => Sys2Proof.Machine.execLpPeriodEnd ch s
  | .clockStep => Sys2Proof.Machine.execClockStep s
  | .cg10Apply => Sys2Proof.Machine.execCg10Apply s
  | .timeMappingFreeze => Sys2Proof.Machine.execTimeMappingFreeze s
  | .aoCalibrate meas => Sys2Proof.Machine.execAoCalibrate meas s
  | .ptpMessage f => Sys2Proof.Machine.execPtpMessage f s
  | .ptpSyncTimeout => Sys2Proof.Machine.execPtpSyncTimeout s
  | .timeStepNeeded => Sys2Proof.Machine.execTimeStepNeeded s
  | .leapSmear => Sys2Proof.Machine.execLeapSmear s
  | .slewComplete => Sys2Proof.Machine.execSlewComplete s
  | .mainDrop => Sys2Proof.Machine.execMainDrop s
  | .mainTakeover => Sys2Proof.Machine.execMainTakeover s
  | .auxLost => Sys2Proof.Machine.execAuxLost s
  | .mainLow => Sys2Proof.Machine.execMainLow s
  | .powerFailDetect => Sys2Proof.Machine.execPowerFailDetect s
  | .holdupExhausted complete => Sys2Proof.Machine.execHoldupExhausted complete s
  | .powerUp p => Sys2Proof.Machine.execPowerUp p s
  | .startEnd => Sys2Proof.Machine.execStartEnd s
  | .startIncomplete => Sys2Proof.Machine.execStartIncomplete s
  | .journalEntry => Sys2Proof.Machine.execJournalEntry s
  | .holdupTestDaily => Sys2Proof.Machine.execHoldupTestDaily s
  | .chargerReconnect holdup cap => Sys2Proof.Machine.execChargerReconnect holdup cap s
  | .huOverdue => Sys2Proof.Machine.execHuOverdue s
  | .holdupCharged => Sys2Proof.Machine.execHoldupCharged s
  | .cellMeasure v => Sys2Proof.Machine.execCellMeasure v s
  | .hkReport r => Sys2Proof.Machine.execHkReport r s
  | .hkSilent => Sys2Proof.Machine.execHkSilent s
  | .memoryScrub => Sys2Proof.Machine.execMemoryScrub s
  | .evtPersist => Sys2Proof.Machine.execEvtPersist s
  | .evtArchiveCopy => Sys2Proof.Machine.execEvtArchiveCopy s
  | .evtCounterPersist => Sys2Proof.Machine.execEvtCounterPersist s
  | .heldEventsEnter => Sys2Proof.Machine.execHeldEventsEnter s
  | .aoTamperSample cover sealOpen lsw mesh => Sys2Proof.Machine.execAoTamperSample cover sealOpen lsw mesh s
  | .magSample v => Sys2Proof.Machine.execMagSample v s
  | .phaseLossCheck mp => Sys2Proof.Machine.execPhaseLossCheck mp s
  | .tempRangeCheck backplate => Sys2Proof.Machine.execTempRangeCheck backplate s
  | .ledgerSignatureTimer => Sys2Proof.Machine.execLedgerSignatureTimer s
  | .ledgerAppend => Sys2Proof.Machine.execLedgerAppend s
  | .ledgerWriteFail => Sys2Proof.Machine.execLedgerWriteFail s
  | .plateMirrorUpdate => Sys2Proof.Machine.execPlateMirrorUpdate s
  | .dispBtnShort => Sys2Proof.Machine.execDispBtnShort s
  | .dispBtnLong => Sys2Proof.Machine.execDispBtnLong s
  | .dispPageTimer => Sys2Proof.Machine.execDispPageTimer s
  | .ferryClaim m q => Sys2Proof.Machine.execFerryClaim m q s
  | .ferryRelease m q => Sys2Proof.Machine.execFerryRelease m q s
  | .ferryFlush m q => Sys2Proof.Machine.execFerryFlush m q s
  | .ferryDataRead m q => Sys2Proof.Machine.execFerryDataRead m q s
  | .ferryHoldRelease q => Sys2Proof.Machine.execFerryHoldRelease q s
  | .queueStall q ten => Sys2Proof.Machine.execQueueStall q ten s
  | .ferryPtrMismatch q => Sys2Proof.Machine.execFerryPtrMismatch q s
  | .ferryParityEnd q => Sys2Proof.Machine.execFerryParityEnd q s
  | .pilotStateChange hi lo => Sys2Proof.Machine.execPilotStateChange hi lo s
  | .ppMeasure ohms => Sys2Proof.Machine.execPpMeasure ohms s
  | .v2gRequest r => Sys2Proof.Machine.execV2gRequest r s
  | .canFrameRx p id data t => Sys2Proof.Machine.execCanFrameRx p id data t s
  | .canBusOff p => Sys2Proof.Machine.execCanBusOff p s
  | .rcmFltInput k active => Sys2Proof.Machine.execRcmFltInput k active s
  | .imdMeasure kohm => Sys2Proof.Machine.execImdMeasure kohm s
  | .bayLockstep => Sys2Proof.Machine.execBayLockstep s
  | .bayPauseEnd => Sys2Proof.Machine.execBayPauseEnd s
  | .modemPoll status frames sent => Sys2Proof.Machine.execModemPoll status frames sent s
  | .modemFault => Sys2Proof.Machine.execModemFault s
  | .voutUndervolt b => Sys2Proof.Machine.execVoutUndervolt b s
  | .voutRecover b => Sys2Proof.Machine.execVoutRecover b s
  | .voutOverload b => Sys2Proof.Machine.execVoutOverload b s
  | .drvOvercurrent n => Sys2Proof.Machine.execDrvOvercurrent n s
  | .drvRetry n => Sys2Proof.Machine.execDrvRetry n s
  | .drvRetryReload n => Sys2Proof.Machine.execDrvRetryReload n s
  | .drvThermal n => Sys2Proof.Machine.execDrvThermal n s
  | .drvTestPulse n fell conclusive => Sys2Proof.Machine.execDrvTestPulse n fell conclusive s
  | .drvOpenLoad n result => Sys2Proof.Machine.execDrvOpenLoad n result s
  | .drvClampTest n ok => Sys2Proof.Machine.execDrvClampTest n ok s
  | .drvTestRetry n fell conclusive => Sys2Proof.Machine.execDrvTestRetry n fell conclusive s
  | .drvCmdWrite m k v => Sys2Proof.Machine.execDrvCmdWrite m k v s
  | .drvHeartbeat => Sys2Proof.Machine.execDrvHeartbeat s
  | .controllerLost => Sys2Proof.Machine.execControllerLost s
  | .holdWindowExpire => Sys2Proof.Machine.execHoldWindowExpire s
  | .drvClaim dies by_ => Sys2Proof.Machine.execDrvClaim dies by_ s
  | .lhInputChange lh => Sys2Proof.Machine.execLhInputChange lh s
  | .safetyInputChange sf edge => Sys2Proof.Machine.execSafetyInputChange sf edge s
  | .safetyTestPulse b fell ok => Sys2Proof.Machine.execSafetyTestPulse b fell ok s
  | .discrepancyTimeout z second => Sys2Proof.Machine.execDiscrepancyTimeout z second s
  | .crossLinkExchange => Sys2Proof.Machine.execCrossLinkExchange s
  | .sfSilent => Sys2Proof.Machine.execSfSilent s
  | .sfReload => Sys2Proof.Machine.execSfReload s
  | .safetySwitchRead sf edge => Sys2Proof.Machine.execSafetySwitchRead sf edge s
  | .safeAckEdge high => Sys2Proof.Machine.execSafeAckEdge high s
  | .safeAckStuck => Sys2Proof.Machine.execSafeAckStuck s
  | .rdcTrip k ac dc => Sys2Proof.Machine.execRdcTrip k ac dc s
  | .safetyDriveOffPulse edge stuck => Sys2Proof.Machine.execSafetyDriveOffPulse edge stuck s
  | .escFrameRx ec bytes => Sys2Proof.Machine.execEscFrameRx ec bytes s
  | .escSendTimer ec => Sys2Proof.Machine.execEscSendTimer ec s
  | .escWatchdog ec => Sys2Proof.Machine.execEscWatchdog ec s
  | .escRestart ec => Sys2Proof.Machine.execEscRestart ec s
  | .sfTableCheck bad => Sys2Proof.Machine.execSfTableCheck bad s
  | .linkPoll r => Sys2Proof.Machine.execLinkPoll r s
  | .tagLeft => Sys2Proof.Machine.execTagLeft s
  | .crossingReq frame => Sys2Proof.Machine.execCrossingReq frame s
  | .crossingSel frame => Sys2Proof.Machine.execCrossingSel frame s
  | .crossingHalt frame => Sys2Proof.Machine.execCrossingHalt frame s
  | .crossingQuiet frame => Sys2Proof.Machine.execCrossingQuiet frame s
  | .crossingStatus frame => Sys2Proof.Machine.execCrossingStatus frame s
  | .crossingRead frame => Sys2Proof.Machine.execCrossingRead frame s
  | .crossingWrite frame => Sys2Proof.Machine.execCrossingWrite frame s
  | .crossingAuth1 frame => Sys2Proof.Machine.execCrossingAuth1 frame s
  | .crossingAuth2 frame => Sys2Proof.Machine.execCrossingAuth2 frame s
  | .crossingAuth3 frame => Sys2Proof.Machine.execCrossingAuth3 frame s
  | .crossingSread frame => Sys2Proof.Machine.execCrossingSread frame s
  | .crossingSwrite frame => Sys2Proof.Machine.execCrossingSwrite frame s
  | .fieldGap ms => Sys2Proof.Machine.execFieldGap ms s
  | .quietTimeExpire => Sys2Proof.Machine.execQuietTimeExpire s
  | .crossingSessionTimeout => Sys2Proof.Machine.execCrossingSessionTimeout s
  | .plateHoldEnd => Sys2Proof.Machine.execPlateHoldEnd s
  | .sliceMarker => Sys2Proof.Machine.execSliceMarker s
  | .kwrRequest e slot => Sys2Proof.Machine.execKwrRequest e slot s
  | .kwrRelease e => Sys2Proof.Machine.execKwrRelease e s
  | .kwrTimeout => Sys2Proof.Machine.execKwrTimeout s
  | .condemnGraceEnd => Sys2Proof.Machine.execCondemnGraceEnd s
  | .classATamper t => Sys2Proof.Machine.execClassATamper t s
  | .zeroiseRekey => Sys2Proof.Machine.execZeroiseRekey s
  | .sessionTimeout m => Sys2Proof.Machine.execSessionTimeout m s
  | .lockoutEnd a => Sys2Proof.Machine.execLockoutEnd a s
  | .changeoverBoot => Sys2Proof.Machine.execChangeoverBoot s
  | .changeoverResume => Sys2Proof.Machine.execChangeoverResume s
  | .changeoverWatchdog => Sys2Proof.Machine.execChangeoverWatchdog s
  | .bridgeOverflow k => Sys2Proof.Machine.execBridgeOverflow k s
  | .updHealthWrite => Sys2Proof.Machine.execUpdHealthWrite s
  | .trialWatchdog => Sys2Proof.Machine.execTrialWatchdog s
  | .svWatchdog => Sys2Proof.Machine.execSvWatchdog s
  | .svLockstep => Sys2Proof.Machine.execSvLockstep s
  | .svResetExit => Sys2Proof.Machine.execSvResetExit s
  | .pairHeartbeat h => Sys2Proof.Machine.execPairHeartbeat h s
  | .pairAloneTimeout => Sys2Proof.Machine.execPairAloneTimeout s
  | .pairPartnerLost => Sys2Proof.Machine.execPairPartnerLost s
  | .pairLaneLoss lane => Sys2Proof.Machine.execPairLaneLoss lane s
  | .pairLaneRejoin lane => Sys2Proof.Machine.execPairLaneRejoin lane s
  | .netLinkChange port up => Sys2Proof.Machine.execNetLinkChange port up s
  | .illegalInstruction e w => Sys2Proof.Machine.execIllegalInstruction e w s
  | .engineLockstepMismatch isl => Sys2Proof.Machine.execEngineLockstepMismatch isl s
  | .auxRailReturn => Sys2Proof.Machine.execAuxRailReturn s
  | .vioChange ok => Sys2Proof.Machine.execVioChange ok s
  | .servicePortAccess debug => Sys2Proof.Machine.execServicePortAccess debug s
  | .canFrameTx p => Sys2Proof.Machine.execCanFrameTx p s

end Sys2Proof.Machine
end

