-- ==== Sys2Proof/Machine/Display.lean ====
section
/-! DEFINITION. What the display on J10 shows (R227-R229): a function of the state, for no command
reads it. -/

namespace Sys2Proof.Machine

open Sys2Proof

/-- A value on a page: counts of 10^exp of a unit, the decimals shown, and its marks: NL, DG, CS
(R227), and the tilde of a speculative live value (R228). -/
structure Shown where
  item : Nat := 0
  count : Int := 0
  exp : Int := 0
  unit : Nat := 0
  decimals : Nat := 0
  nl : Bool := false
  dg : Bool := false
  cs : Bool := false
  tilde : Bool := false
  deriving DecidableEq, Repr

/-- A page of a list (R227, DISP_ITEM). -/
inductive Page
  | values (l : List Shown)
  | software (major minor : W8) (sum : List W8)
  | clock (localSec : Int) (asterisk : Bool)
  | legalCount (n : W32)
  | safetyCrc (sf edge : W16)
  | demand (item : Nat) (v : W64) (atSec : W32) (adj : Bool)
  | tamper (ty : Nat) (r : TampRec)
  | event (code : Nat) (e : EvtSrc)
  | identity (post : Nat) (device : W64)
  | status (mode : BitVec 4) (ready : BitVec 20)
  deriving DecidableEq, Repr

/-- What the display shows: nothing while it is unpowered, the display test, the mode and SYS_READY in
START, the last frame in CHANGEOVER, or a page under a first line that may name the mode (R229). -/
inductive Screen
  | dark
  | allOn
  | allOff
  | start (mode : BitVec 4) (ready : BitVec 20)
  | lastFrame
  | page (named : Option (BitVec 4)) (p : Option Page)
  deriving DecidableEq, Repr

/-- A register with the unit, exponent and marks of its slot (R227). -/
def Chip.shownReg (c : Chip) (cost : Bool) (i dec : Nat) (r : RegVal) : Shown :=
  let w := c.live (aMp (idMp i) + 0x80 + 4 * idSlot i)
  { item := i, count := r.v / q64, exp := if cost then 0 else slotExp w, unit := fld w 0 8,
    decimals := dec, nl := r.notLegal, dg := r.degraded, cs := r.suspect }

/-- The registers of item 1 of the legal sequence: tier 0 of every defined slot and direction, meter
points in ascending number (R227). A net slot has one register. -/
def Chip.legalIds (c : Chip) : List Nat :=
  (List.range 64).flatMap (fun m => (List.range 8).flatMap (fun s =>
    if !c.slotDef m s then []
    else if c.slotNet m s then [ident m s 0 0] else [ident m s 0 0, ident m s 1 0]))

/-- A legal register value shows the decimals that EXP gives. -/
def Chip.legalShown (c : Chip) (i : Nat) : Shown :=
  let e := slotExp (c.live (aMp (idMp i) + 0x80 + 4 * idSlot i))
  c.shownReg false i (-e).toNat (Tbl.get {} c.bill.qty i)

/-- The legal sequence (R227). -/
def Chip.legalPages (c : Chip) : List Page :=
  let ids := c.legalIds
  (chunks 4 ids.length ids).map (fun l => Page.values (l.map c.legalShown)) ++
    [.software (BitVec.ofNat 8 (fld c.runImg.legalVer 24 8)) (BitVec.ofNat 8 (fld c.runImg.legalVer 16 8)) c.legalSum, .clock (c.localSec c.now) (!c.time.valid),
     .legalCount c.evt.legalCnt, .safetyCrc c.safe.sf.crc c.safe.edge.crc]

/-- A quantity or cost register of the current period or of a history entry, for an item. -/
def Chip.itemReg (c : Chip) (cost : Bool) (hist i dec : Nat) : Page :=
  let h := (c.bill.hist)[hist - 1]?.getD {}
  let t := if hist = 0 then (if cost then c.bill.cost else c.bill.qty) else if cost then h.cost else h.qty
  .values [c.shownReg cost i dec (Tbl.get {} t i)]

/-- A maximum-demand register for an item. -/
def Chip.itemMax (c : Chip) (hist i : Nat) : Page :=
  let h := (c.bill.hist)[hist - 1]?.getD {}
  let x := Tbl.get ({} : MaxD) (if hist = 0 then c.bill.maxd else h.maxd) i
  .demand i x.v x.at_ (Tbl.get false (if hist = 0 then c.bill.adj else h.adj) (idMp i))

/-- What a configured item shows (DISP_ITEM, DISP_ITEMX). -/
def Chip.itemPage (c : Chip) (n : Nat) : Page :=
  let w := c.live (0xB0100 + 8 * n)
  let hist := c.cf (0xB0104 + 8 * n) 0 6
  let i := fld w 0 16
  let dec := fld w 16 4
  match fld w 20 4 with
  | 1 => c.itemReg false hist i dec
  | 2 => c.itemReg true hist i dec
  | 3 => c.itemMax hist i
  | 4 =>
    .values [{ item := i, count := (Tbl.get (0 : W64) c.disp.live (64 * idMp i + idTar i)).toInt,
               decimals := dec, tilde := true }]
  | 5 => .values [c.shownReg false i dec (Tbl.get {} (c.session (idMp i)).qty i)]
  | 6 => .tamper (i % 32) (c.trec (i % 32))
  | 7 => .event i (Tbl.get {} c.evt.src i)
  | 8 => .identity c.postNo c.sys.deviceId
  | 9 => .status c.modeOf c.sys.ready
  | _ => .values []

/-- The enabled items of one list (R228). -/
def Chip.itemPages (c : Chip) (alt : Bool) : List Page :=
  ((List.range 64).filter (fun n =>
    c.cb (0xB0100 + 8 * n) 31 && c.cb (0xB0100 + 8 * n) 30 == alt)).map c.itemPage

/-- The list shown (R227, R228). -/
def Chip.listShown (c : Chip) : List Page :=
  if c.disp.alt then c.itemPages true else c.legalPages ++ c.itemPages false

/-- The display (R227-R229). In SAFE, QUARANTINE and RETIRED the first line names the mode. -/
def Chip.screen (c : Chip) : Screen :=
  let mode := c.modeOf
  if c.power.saving || c.power.off then .dark
  else if c.sys.starting then .start mode c.sys.ready
  else if c.sys.changeover then .lastFrame
  else if c.disp.test = 1 then .allOn
  else if c.disp.test = 2 then .allOff
  else .page (if mode = 4 ∨ mode = 6 ∨ mode = 7 then some mode else none) (c.listShown)[c.disp.page]?

end Sys2Proof.Machine
end

