-- ==== Sys2Proof/Safety.lean ====
section
/-! DEFINITION. What counts as a safe run of the block, the states its runs stay in, and what a
command leaves as it was, in the terms the statements use. -/

namespace Sys2Proof

open Sys2Proof.Machine

/-- The mode the block reports is the one its conditions give (R19). -/
def modeHonest (s : State) : Prop := s.chip.sys.mode = s.chip.modeOf

/-- The module holds the QUARANTINE tamper condition (type 23). -/
def quarHeld (c : Chip) : Bool := (c.trec 23).holders.any (fun h => h.1 == 0xFF)

/-- The QUARANTINE tamper condition stands exactly while a quarantine cause is set (R222). -/
def quarNoted (s : State) : Prop := quarHeld s.chip = (s.chip.sys.qcause != 0)

/-- The reader's field is on only where it may be on (R310, R325). -/
def fieldRuled (s : State) : Prop := s.chip.link.field = true → s.chip.fieldMay = true

/-- The mode, the QUARANTINE record and the field agree with the conditions they follow. -/
def Settled (s : State) : Prop := modeHonest s ∧ quarNoted s ∧ fieldRuled s

/-- A step that neither faults nor refuses. -/
def goesOn (s : State) : Prop := ∃ t, step s = .next t

/-- Every step of `n` steps from `s` goes on. -/
def safeFor : Nat → State → Prop
  | 0, _ => True
  | n + 1, s => ∃ t, step s = .next t ∧ safeFor n t

/-- The command `i` completes: it answers a next state in which the queue stands as it was and the
block has the property `P`. -/
def completes (i : Instr) (s : State) (P : Chip → Prop) : Prop :=
  ∃ t, exec i s = .next t ∧ t.pending = s.pending ∧ P t.chip

/-- The blocks of the machine; the hint bits stand apart from the rest of `sys`. -/
inductive Block where
  | host | hint | sys | masters | lands | tix | cfg | groups | taps | engs | lib | bill | tariff | time
  | power | save | evt | tamper | ledger | disp | ferry | bay | drv | safe | link | key | upd | net
  | pair | free
  deriving DecidableEq, Repr

/-- A block is the same on both sides. -/
def Block.same (b : Block) (c d : Chip) : Prop :=
  match b with
  | .host => d.host = c.host
  | .hint => d.sys.hintStatus = c.sys.hintStatus
  | .sys => { d.sys with hintStatus := 0 } = { c.sys with hintStatus := 0 }
  | .masters => d.masters = c.masters
  | .lands => d.lands = c.lands
  | .tix => d.tix = c.tix
  | .cfg => d.cfg = c.cfg
  | .groups => d.groups = c.groups
  | .taps => d.taps = c.taps
  | .engs => d.engs = c.engs
  | .lib => d.lib = c.lib
  | .bill => d.bill = c.bill
  | .tariff => d.tariff = c.tariff
  | .time => d.time = c.time
  | .power => d.power = c.power
  | .save => d.save = c.save
  | .evt => d.evt = c.evt
  | .tamper => d.tamper = c.tamper
  | .ledger => d.ledger = c.ledger
  | .disp => d.disp = c.disp
  | .ferry => d.ferry = c.ferry
  | .bay => d.bay = c.bay
  | .drv => d.drv = c.drv
  | .safe => d.safe = c.safe
  | .link => d.link = c.link
  | .key => d.key = c.key
  | .upd => d.upd = c.upd
  | .net => d.net = c.net
  | .pair => d.pair = c.pair
  | .free => d.free = c.free

/-- Every block outside `bs` is as it was. -/
def keepsBut (bs : List Block) (c d : Chip) : Prop := ∀ b, b ∉ bs → b.same c d

/-- The blocks an event may reach on its way: the ring, the ferry queues and the hint bits. -/
def noteBlocks : List Block := [.evt, .ferry, .hint]

end Sys2Proof

namespace Sys2Proof.Claims

open Sys2Proof Sys2Proof.Machine

/-- The command's whole effect is that the block becomes `c`: the queue stands as it was. -/
def answers (i : Instr) (s : State) (c : Chip) : Prop := exec i s = .next { s with chip := c }

/-- The thread that executes. -/
def threadOf (e : Exec) (c : Chip) : Thread :=
  match e with
  | .head k => (c.eng k.val).head
  | .replay k => (c.eng k.val).rep
  | .bay => c.bay.core

/-- The block with another thread in the place of the one that executes. -/
def withThread (e : Exec) (t : Thread) (c : Chip) : Chip :=
  match e with
  | .head k => c.modEng k.val (fun q => { q with head := t })
  | .replay k => c.modEng k.val (fun q => { q with rep := t })
  | .bay => c.modBay (fun b => { b with core := t })

/-- The thread is inside an instant or its initialisation and executes (R95, R96, R80); the bay
program runs and waits for nothing. -/
def runs (e : Exec) (c : Chip) : Prop :=
  match e with
  | .head k => (c.eng k.val).canRun false = true
  | .replay k => (c.eng k.val).canRun true = true
  | .bay => c.bayRuns false false = true

/-- The thread is one of an engine. -/
def onEngine (e : Exec) (k : Nat) (rep : Bool) : Prop :=
  match e with
  | .head j => k = j.val ∧ rep = false
  | .replay j => k = j.val ∧ rep = true
  | .bay => False

/-- Words the program counter of a profile can name (R93). -/
def pcs (e : Exec) : Nat := if e = .bay then 32768 else 16384

/-- The PC that a thread outside every loop goes on at. -/
def nextPc (e : Exec) (t : Thread) : Nat := (t.pc + 1) % pcs e

/-- What an instruction that writes v to rd leaves (R93, R99). -/
def wrote (e : Exec) (rd : Reg) (v : W64) (c : Chip) : Chip :=
  withThread e (((threadOf e c).wx rd v).advance (e == .bay)) c

/-- What an instruction that writes v to an accumulator leaves. -/
def wroteW (e : Exec) (wa : WReg) (v : W128) (c : Chip) : Chip :=
  withThread e (((threadOf e c).ww wa v).advance (e == .bay)) c

/-- The data memory a thread sees. -/
def memOf (e : Exec) (c : Chip) : Mem :=
  match e with
  | .head k => (c.eng k.val).mem
  | .replay k => (c.eng k.val).rmem
  | .bay => c.bay.mem

/-- The open segment of an engine's thread. -/
def segOf (e : Exec) (c : Chip) : Seg :=
  match e with
  | .head k => (c.eng k.val).seg
  | .replay k => (c.eng k.val).rseg
  | .bay => {}

/-- Room to log `n` more words of the open segment (R79): in the undo log for the head, in the
overlay for the replay thread. -/
def room (e : Exec) (n : Nat) (c : Chip) : Prop :=
  match e with
  | .head k => (threadOf e c).inInit = true ∨ (c.eng k.val).undo.length + n ≤ 1024
  | .replay k => (threadOf e c).inInit = false ∧ (c.eng k.val).overlay.length + n ≤ 1024
  | .bay => True

/-- An address that a thread may store n bytes at (R103). -/
def storable (e : Exec) (a n : Nat) : Prop :=
  if e = .bay then a + n ≤ 0x80000 else 0x2000 ≤ a ∧ a < 0x40000

/-- Every engine but the thread's is as it was. -/
def otherEngines (e : Exec) (c d : Chip) : Prop :=
  match e with
  | .head k | .replay k => ∀ j, j ≠ k.val → d.eng j = c.eng j
  | .bay => d.engs = c.engs

/-- An instant of an engine's program, past the initialisation and before its GATE. -/
def inInstant (e : Exec) (c : Chip) : Prop :=
  (threadOf e c).inInit = false ∧ (threadOf e c).gateDone = false

/-- The answer of a bay instruction: a status with a result above it (R118). -/
def status (st : Nat) (v : Nat) : W64 := BitVec.ofNat 64 (v * 256 + st)

/-- The bay program goes on with v in rd. -/
def bayGoes (rd : Reg) (v : W64) (c d : Chip) : Prop := d.bay.core = (c.bay.core.wx rd v).advance true

/-- A write by master m of v at address a reaches the register: the path is open, the window is not
closed, the island answers and the access right holds (R5, R6, R17, R25, R34). -/
def writes (m : Master5) (a : Nat) (v : W32) (c : Chip) : Prop :=
  c.hears m.val = true ∧ a % 4 = 0 ∧ c.sys.changeover = false ∧ c.deadAt a = none ∧
    c.mayWrite m.val a v = true

/-- A read by master m at address a reaches the register. -/
def reads (m : Master5) (a : Nat) (c : Chip) : Prop :=
  c.hears m.val = true ∧ a % 4 = 0 ∧ c.changeShut a = false ∧ c.deadAt a = none ∧
    c.mayRead m.val a = true

/-- The bytes an answer's check covers: the address, most significant byte first, then the data words,
low byte first, and the status (R26). -/
def checked (a : BitVec 24) (d : List W32) (st : W8) : List W8 :=
  [a.extractLsb' 16 8, a.extractLsb' 8 8, a.extractLsb' 0 8] ++ d.flatMap wordBytes ++ [st]

/-- A command of a row comes to its own description (R43, R418): the path is open, the SV island
answers, the previous command has been acknowledged, no mode closes it, the session allows it and its
readiness bits are set. -/
def takes (x : CmdRow) (r : CmdReq) (c : Chip) : Prop :=
  c.hears r.m.val = true ∧ c.sys.dead.getLsbD 3 = false ∧ (r.early && (c.master r.m.val).ack) = false ∧
    c.cmdClosed x r = false ∧ c.cmdAllowed x r = true ∧ ∀ i ∈ x.bits, c.rdy i = true

/-- CMD_STATUS of the master shows an acknowledgement (R43). -/
def acked (r : CmdReq) (st : W8) (ticket : W16) (d : Chip) : Prop :=
  (d.master r.m.val).status = st ∧ (d.master r.m.val).ticket = ticket ∧
    (d.master r.m.val).ack = true ∧ (d.master r.m.val).lost = false

/-- The ticket a long operation of the master gets (R44). -/
def ticketOf (r : CmdReq) (code arg : Nat) (c : Chip) : Ticket :=
  { no := c.tix.next, master := r.m.val, sess := (c.master r.m.val).sess,
    code := BitVec.ofNat 16 code, arg := arg }

/-- A long operation has started (R44): PENDING with the next ticket, which is outstanding. -/
def pends (r : CmdReq) (code arg : Nat) (c d : Chip) : Prop :=
  acked r 0x01 c.tix.next d ∧ d.tix.next = nextTicket c.tix.next ∧
    d.tix.out = c.tix.out ++ [ticketOf r code arg c]

/-- The commands of the table Host window blocks and their rows (R32). -/
def commandRows : List ((CmdReq → Instr) × CmdRow) :=
  [(.sysModeSet, rowSysModeSet), (.sysQuarClr, rowSysQuarClr), (.sysRestart, rowSysRestart),
   (.holdupTest, rowHoldupTest), (.nop, rowNop), (.ticketCancel, rowTicketCancel),
   (.tapRefNow, rowTapRefNow), (.tapChainReset, rowTapChainReset), (.tapGlitchClr, rowTapGlitchClr),
   (.qeRestart, rowQeRestart), (.qeCntClr, rowQeCntClr), (.qeTrace, rowQeTrace),
   (.qeImgInstall, rowQeImgInstall), (.qeImgRemove, rowQeImgRemove), (.qeTapRecord, rowQeTapRecord)] ++
  [(.billClose, rowBillClose), (.billSessClose, rowBillSessClose), (.billZero, rowBillZero),
   (.billLpRead, rowBillLpRead), (.tariffSchedule, rowTariffSchedule),
   (.tariffUnschedule, rowTariffUnschedule), (.tariffCopy, rowTariffCopy), (.timeAdjust, rowTimeAdjust),
   (.timeSet, rowTimeSet), (.evtRead, rowEvtRead), (.evtCntClr, rowEvtCntClr),
   (.ledgerRead, rowLedgerRead), (.ledgerAck, rowLedgerAck), (.ferryTest, rowFerryTest),
   (.dispTest, rowDispTest)] ++
  [(.baySignal, rowBaySignal), (.bayRestart, rowBayRestart), (.bayTripClr, rowBayTripClr),
   (.bayImgInstall, rowBayImgInstall), (.bayImgRemove, rowBayImgRemove), (.drvClr, rowDrvClr),
   (.drvReclaim, rowDrvReclaim), (.drvTestNow, rowDrvTestNow), (.linkPtRead, rowLinkPtRead),
   (.linkPtWrite, rowLinkPtWrite), (.linkXfer, rowLinkXfer), (.linkCntClr, rowLinkCntClr),
   (.keyChallenge, rowKeyChallenge), (.keyLogin, rowKeyLogin), (.keyLogout, rowKeyLogout)] ++
  [(.keyPasswd, rowKeyPasswd), (.keyAcctSet, rowKeyAcctSet), (.keyUpdate, rowKeyUpdate),
   (.keyReplace, rowKeyReplace), (.keyInvalidate, rowKeyInvalidate), (.keyDerive, rowKeyDerive),
   (.keyLcSet, rowKeyLcSet), (.updStage, rowUpdStage), (.updChunk, rowUpdChunk),
   (.updActivate, rowUpdActivate), (.updRevert, rowUpdRevert), (.updDiscard, rowUpdDiscard),
   (.pairSwitch, rowPairSwitch)]

end Sys2Proof.Claims
end

