-- ==== Sys2Proof/Certificates/Slice0/Obligations.lean ====
section
/-! DEFINITION. The statements for the provers. -/

open Sys2Proof Sys2Proof.Machine Sys2Proof.Claims

/-- The block takes the command at the front of its queue and executes it with the queue's rest; with no
command waiting it idles (log 2). -/
def Obligations.StepTakesFront : Prop :=
  (∀ (i : Instr) (l : List Instr) (s : State), s.pending = i :: l → step s = exec i { s with pending := l }) ∧
  (∀ s : State, s.pending = [] → step s = .next s)

/-- R19, R222, R310, R325: the reported mode, the QUARANTINE record and the field agree with the conditions they
follow; every step keeps that, whatever the command. -/
def Obligations.StepKeepsSettled : Prop :=
  ∀ (s t : State), Settled s → step s = .next t → Settled t

/-- R296: an acknowledgement is the only restart path of a zone. No command but SAFE_ACK_EDGE brings a zone of
the Edge logic that stands outside GRANT (2) and DEMAND (3) back to one of them. -/
def Obligations.RestartOnlyByAcknowledgement : Prop :=
  ∀ (i : Instr) (k : Nat) (s t : State), exec i s = .next t → (∀ high, i ≠ .safeAckEdge high) →
    (s.chip.safe.edge.zone k).st ≠ 2 → (s.chip.safe.edge.zone k).st ≠ 3 →
    (t.chip.safe.edge.zone k).st ≠ 2 ∧ (t.chip.safe.edge.zone k).st ≠ 3

/-- What reset leaves: START with the AO readiness bit alone, nobody connected, no claim, no ticket, every drive
in its fail state and every zone in START, in agreement with its conditions. -/
def Obligations.ResetState : Prop :=
  let c := State.reset.chip
  Settled State.reset ∧ State.reset.pending = [] ∧ c.sys.mode = 0 ∧ (∀ i, 1 ≤ i → c.rdy i = false) ∧
    c.rdy 0 = true ∧ c.sys.commission = true ∧ c.tix.out = [] ∧
    (∀ m, (c.master m).role = 0 ∧ (c.master m).conn = false) ∧
    (∀ q, (c.fq q).owner = none ∧ (c.fq q).fill = [] ∧ (c.fq q).drain = [] ∧ (c.fq q).parity = true) ∧
    (∀ g, c.cfgOwner g = none) ∧ (∀ n, (c.drive n).phase = 2 ∧ (c.drive n).cmd = false) ∧
    (∀ e k, ((c.chan e).zone k).st = 1) ∧ c.bay.pilotReq = 0xFFFF ∧ c.bay.run = 0 ∧ c.link.field = false

/-- The memories of the engines, the bay and the plate tag keep their canonical form, in which equal memories
are equal data: a write of bytes reads back, leaves every other address, and keeps the form. A byte never written reads zero (log 105). -/
def Obligations.MemoryCanonical : Prop :=
  ∀ (m m' : Mem) (a j : Nat) (l : List W8),
    Mem.rdN (Mem.wrN m a l) a l.length = l ∧
    (j < a ∨ a + l.length ≤ j → Mem.rd (Mem.wrN m a l) j = Mem.rd m j) ∧
    (Memory.wf m = true → Memory.wf (Mem.wrN m a l) = true) ∧
    (Memory.wf m = true → Memory.wf m' = true → (∀ i, Mem.rd m i = Mem.rd m' i) → m = m')

/-- R240: a packet that does not fit in a lossy queue is discarded and counted in DROP, the packets queued stay, and
no producer waits on FQ2 or FQ7. -/
def Obligations.LossyQueues : Prop :=
  ∀ (q : Nat) (p : List W32) (c : Chip), (q = 2 ∨ q = 7) → 2 ≤ p.length → (c.fq q).owner ≠ none →
    let f := c.fq q
    (f.fits p = false → (c.fqPut q p).fq q = { f with drop := satAdd f.drop 1 }) ∧
    ((c.fqPut q p).fq q).holdBuf = f.holdBuf ∧
    (∀ j, j ≠ q → (c.fqPut q p).fq j = c.fq j)

/-- R93: x0 reads 0 and a write to it is discarded; every other register and every accumulator keeps
a write and no other; going on to the next instruction changes the PC and the loops alone. R99: at the end of a loop body the PC returns to the body's first instruction while repetitions
are left, and goes past the body after the last; outside every loop end it goes to the next word. -/
def Obligations.ThreadRegistersAndLoops : Prop :=
  ((∀ (t : Thread) (r q : Reg) (v : W64),
    (t.wx r v).rx q = (if q = 0 then 0 else if q = r then v else t.rx q) ∧
    (t.wx 0 v) = t ∧ (t.wx r v).w = t.w ∧ (t.wx r v).pc = t.pc) ∧
  (∀ (t : Thread) (a b : WReg) (v : W128),
    (t.ww a v).rw b = (if b = a then v else t.rw b) ∧ (t.ww a v).x = t.x ∧ (t.ww a v).pc = t.pc) ∧
  (∀ (t : Thread) (bay : Bool), { t.advance bay with pc := t.pc, loops := t.loops } = t)) ∧
  (∀ (t : Thread) (bay : Bool),
    ((∀ l ∈ t.loops, l.last ≠ t.pc) →
      t.advance bay = { t with pc := (t.pc + 1) % pcMod bay }) ∧
    (∀ l ls, t.loops = l :: ls → l.last = t.pc → 1 < l.left →
      t.advance bay = { t with pc := l.first % pcMod bay,
                               loops := { l with left := l.left - 1, call := false } :: ls }) ∧
    (∀ l, t.loops = [l] → l.last = t.pc → l.left ≤ 1 →
      t.advance bay = { t with pc := (t.pc + 1) % pcMod bay, loops := [] }))

/-- R100: the integer instructions over two registers, on every thread that executes: the result in
rd, the next PC, and nothing else of the block changes. R100: the immediate instructions. R100: a quotient and a remainder, where the divisor is not 0 and the quotient fits. -/
def Obligations.IntegerResults : Prop :=
  (∀ (e : Exec) (rd a b : Reg) (sh : BitVec 6) (s : State), Settled s → runs e s.chip →
    let x := (threadOf e s.chip).rx a
    let y := (threadOf e s.chip).rx b
    let n := (y.toNat + sh.toNat) % 64
    let r := fun i v => answers i s (wrote e rd v s.chip)
    r (.add e rd a b) (x + y) ∧ r (.sub e rd a b) (x - y) ∧
    r (.and e rd a b) (x &&& y) ∧ r (.or e rd a b) (x ||| y) ∧ r (.xor e rd a b) (x ^^^ y) ∧
    r (.mul e rd a b) (BitVec.ofInt 64 (x.toInt * y.toInt)) ∧
    r (.mulh e rd a b) (BitVec.ofInt 64 (x.toInt * y.toInt / 2 ^ 64)) ∧
    r (.slt e rd a b) (if x.toInt < y.toInt then 1 else 0) ∧
    r (.sltu e rd a b) (if x.toNat < y.toNat then 1 else 0) ∧
    r (.min e rd a b) (if x.toInt < y.toInt then x else y) ∧
    r (.max e rd a b) (if x.toInt < y.toInt then y else x) ∧
    r (.shl e rd a b sh) (BitVec.ofNat 64 (x.toNat * 2 ^ n)) ∧
    r (.shr e rd a b sh) (BitVec.ofNat 64 (x.toNat / 2 ^ n)) ∧
    r (.sra e rd a b sh) (BitVec.ofInt 64 (x.toInt / 2 ^ n))) ∧
  (∀ (e : Exec) (rd a : Reg) (imm : W16) (s : State), Settled s → runs e s.chip →
    let x := (threadOf e s.chip).rx a
    let r := fun i v => answers i s (wrote e rd v s.chip)
    r (.addi e rd a imm) (BitVec.ofInt 64 (x.toInt + imm.toInt)) ∧
    r (.andi e rd a imm) (x &&& BitVec.ofNat 64 imm.toNat) ∧
    r (.ori e rd a imm) (x ||| BitVec.ofNat 64 imm.toNat) ∧
    r (.lui e rd imm) (BitVec.ofInt 64 (imm.toInt * 65536))) ∧
  (∀ (e : Exec) (rd a b : Reg) (s : State), Settled s → runs e s.chip →
    let x := (threadOf e s.chip).rx a
    let y := (threadOf e s.chip).rx b
    y ≠ 0 → ¬ (x.toInt = -2 ^ 63 ∧ y.toInt = -1) →
    answers (.div e rd a b) s (wrote e rd (BitVec.ofInt 64 (x.toInt.tdiv y.toInt)) s.chip) ∧
    answers (.rem e rd a b) s (wrote e rd (BitVec.ofInt 64 (x.toInt.tmod y.toInt)) s.chip))

/-- R101, R102: the floating-point instructions leave their result in rd where they do not trap. R112, R113: the property instructions leave their value in rd where the inputs are numbers. -/
def Obligations.FloatAndPropertyResults : Prop :=
  (∀ (e : Exec) (rd a b d : Reg) (rm : Rounding) (q : FCond) (s : State) (v : W64), Settled s →
    runs e s.chip →
    let x := (threadOf e s.chip).rx a
    let y := (threadOf e s.chip).rx b
    let z := (threadOf e s.chip).rx d
    let r := fun (i : Instr) (o : Except W8 W64) => o = .ok v → answers i s (wrote e rd v s.chip)
    r (.fadd e rd a b) (fadd x y) ∧ r (.fsub e rd a b) (fsub x y) ∧ r (.fmul e rd a b) (fmul x y) ∧
    r (.fdiv e rd a b) (fdiv x y) ∧ r (.fsqrt e rd a) (fsqrt x) ∧ r (.fma e rd a b d) (fma x y z) ∧
    r (.fcvtI e rm rd a) (fcvtI rm x) ∧ r (.fcvtFInt e rd a) (.ok (f64OfInt x.toInt 0)) ∧
    r (.fcmp e q rd a b) (fcmp q x y)) ∧
  (∀ (e : Exec) (k : Nat) (rep : Bool) (rd a b d : Reg) (pair : BitVec 5) (s : State) (v : W64),
    Settled s → runs e s.chip → onEngine e k rep →
    let x := (threadOf e s.chip).rx a
    let y := (threadOf e s.chip).rx b
    let z := (threadOf e s.chip).rx d
    let r := fun (i : Instr) (o : Except W8 W64) => o = .ok v → answers i s (wrote e rd v s.chip)
    r (.if97h e rd a b pair) (if97Op 0 pair x y) ∧ r (.if97d e rd a b pair) (if97Op 1 pair x y) ∧
    r (.if97s e rd a b pair) (if97Op 2 pair x y) ∧ r (.if97c e rd a b pair) (if97Op 3 pair x y) ∧
    r (.if97x e rd a b pair) (if97xOp pair (BitVec.ofNat 5 b.val) x y) ∧
    r (.airz e rd a b d) (airOp 0 x y z) ∧ r (.aird e rd a b d) (airOp 1 x y z))

/-- R107, R102: accumulators. MACW adds or subtracts a product rounded once to Q64.64, ADDW adds a
source, with its unused field 0, both while the sum fits; CLRW clears; FCVT.F reads an accumulator. -/
def Obligations.AccumulatorResults : Prop :=
  ∀ (e : Exec) (k : Nat) (rep : Bool) (rd a b : Reg) (wa wb : WReg) (neg : Bool) (s : State),
    Settled s → runs e s.chip → onEngine e k rep →
    let t := threadOf e s.chip
    let fits := fun (n : Int) => -(2 ^ 127) ≤ n ∧ n < 2 ^ 127
    let add := fun (i : Instr) (p : Int) => fits ((t.rw wa).toInt + p) →
      answers i s (wroteW e wa (BitVec.ofInt 128 ((t.rw wa).toInt + p)) s.chip)
    (∀ p, mulAcc (t.rx a) (t.rx b) = some p → add (.macw e wa a b neg) (if neg then -p else p)) ∧
    (a.val = 0 → add (.addw e wa wb a 0) (t.rw wb).toInt) ∧
    (∀ p, wb.val = 0 → fAcc (t.rx a) = some p → add (.addw e wa wb a 1) p) ∧
    (wb.val = 0 → add (.addw e wa wb a 2) ((t.rx a).toInt * 2 ^ 64)) ∧
    (a.val = 0 → add (.addw e wa wb a 3) (-(t.rw wb).toInt)) ∧
    answers (.clrw e wa) s (wroteW e wa 0 s.chip) ∧
    answers (.fcvtFAcc e rd wa) s (wrote e rd (f64OfInt (t.rw wa).toInt (-64)) s.chip)

/-- R98, R99: branches, calls, returns and loops change the PC, the link stack and the loops, and
JAL writes the return address to x31. A tally program returns only to the address on its link stack, a bay
program to any; nothing else of the block changes. A thread outside every
loop is shown; `ThreadRegistersAndLoops` says what a loop end adds. -/
def Obligations.ControlFlow : Prop :=
  ∀ (e : Exec) (a b : Reg) (off : W16) (far : BitVec 26) (k : BitVec 4) (n : BitVec 12) (s : State),
    Settled s → runs e s.chip → (threadOf e s.chip).loops = [] →
    let t := threadOf e s.chip
    let x := t.rx a
    let y := t.rx b
    let at_ := fun (i : Instr) (pc : Nat) => answers i s (withThread e { t with pc := pc } s.chip)
    let dest := fun (d : Int) => (((t.pc : Int) + d) % (pcs e : Int)).toNat
    ((e = .bay ∨ 0 < off.toInt) →
      at_ (.beq e a b off) (if x = y then dest off.toInt else nextPc e t) ∧
      at_ (.bne e a b off) (if x = y then nextPc e t else dest off.toInt) ∧
      at_ (.blt e a b off) (if x.toInt < y.toInt then dest off.toInt else nextPc e t) ∧
      at_ (.bge e a b off) (if x.toInt < y.toInt then nextPc e t else dest off.toInt)) ∧
    ((e = .bay ∨ (0 < far.toInt ∧ t.link.length < 8)) →
      answers (.jal e far) s
        (withThread e { t.wx 31 (BitVec.ofNat 64 (nextPc e t)) with
                          link := if e = .bay then t.link else nextPc e t :: t.link,
                          pc := dest far.toInt } s.chip)) ∧
    (e = .bay → at_ (.jr e a) (x.toNat % pcs e)) ∧
    (e ≠ .bay → ∀ l, t.link = x.toNat :: l →
      answers (.jr e a) s (withThread e { t with link := l, pc := x.toNat } s.chip)) ∧
    (n ≠ 0 → x = 0 → at_ (.loop e a k n) ((t.pc + n.toNat + 1) % pcs e)) ∧
    (n ≠ 0 → x ≠ 0 → x.toNat ≤ 2 ^ k.toNat →
      answers (.loop e a k n) s
        (withThread e { t with pc := nextPc e t,
                               loops := [{ first := t.pc + 1, last := t.pc + n.toNat, left := x.toNat }] }
          s.chip))

/-- R103: LD and LDW read the data memory of the thread, low byte first; the 8 KiB below 0x2000 of an
engine's address space hold the point table and the information block. R103, R79: ST and STW, with room in the log of the segment: the address x[rs1] plus the offset holds
the value, every other byte of the thread's memory is as it was, the thread goes on, and nothing but
the thread's own engine or bay changes. -/
def Obligations.LoadsAndStores : Prop :=
  (∀ (e : Exec) (rd a : Reg) (wa : WReg) (imm : W16) (imm8 : W8) (s : State), Settled s → runs e s.chip →
    let t := threadOf e s.chip
    let p := (t.rx a + imm.signExtend 64).toNat
    let w := (t.rx a + imm8.signExtend 64 * 16).toNat
    (e = .bay → p % 8 = 0 → p + 8 ≤ 0x80000 →
      answers (.ld e rd a imm) s (wrote e rd (Mem.rd64 s.chip.bay.mem p) s.chip)) ∧
    (∀ k rep, onEngine e k rep → p % 8 = 0 → 0x2000 ≤ p → p < 0x40000 →
      answers (.ld e rd a imm) s (wrote e rd (Mem.rd64 (memOf e s.chip) p) s.chip)) ∧
    (∀ k rep, onEngine e k rep → p % 8 = 0 → p < 0x2000 →
      answers (.ld e rd a imm) s (wrote e rd (s.chip.infoWord k t p) s.chip)) ∧
    (∀ k rep, onEngine e k rep → w % 16 = 0 → 0x2000 ≤ w → w < 0x40000 →
      answers (.ldw e wa a imm8) s
        (wroteW e wa (Mem.rd64 (memOf e s.chip) (w + 8) ++ Mem.rd64 (memOf e s.chip) w) s.chip))) ∧
  (∀ (e : Exec) (b a : Reg) (wa : WReg) (imm : W16) (imm8 : W8) (s : State), Settled s → runs e s.chip →
    let t := threadOf e s.chip
    let p := (t.rx a + imm.signExtend 64).toNat
    let w := (t.rx a + imm8.signExtend 64 * 16).toNat
    let rest := fun (q n : Nat) (d : Chip) =>
      (∀ j, j < q ∨ q + n ≤ j → Mem.rd (memOf e d) j = Mem.rd (memOf e s.chip) j) ∧
      threadOf e d = t.advance (e == .bay) ∧ otherEngines e s.chip d ∧
      keepsBut [if e = .bay then .bay else .engs] s.chip d
    (p % 8 = 0 → storable e p 8 → room e 1 s.chip → (∀ k, e = .head k → t.inInit = false) →
      completes (.st e b a imm) s (fun d => Mem.rd64 (memOf e d) p = t.rx b ∧ rest p 8 d)) ∧
    (p % 8 = 0 → storable e p 8 → ∀ k, e = .head k → t.inInit = true →
      completes (.st e b a imm) s (fun d => Mem.rd64 (memOf e d) p = t.rx b ∧ rest p 8 d)) ∧
    (∀ k rep, onEngine e k rep → w % 16 = 0 → storable e w 16 → room e 2 s.chip →
      completes (.stw e wa a imm8) s (fun d =>
        Mem.rd64 (memOf e d) w = (t.rw wa).extractLsb' 0 64 ∧
        Mem.rd64 (memOf e d) (w + 8) = (t.rw wa).extractLsb' 64 64 ∧ rest w 16 d)))

/-- R105, R106, R110: TAP, TAPC and TAPST read the sample at the instant or a look-back before it;
CTX reads the context word, the instant, the session and the grid distance. -/
def Obligations.SampleAndContextReads : Prop :=
  ∀ (e : Exec) (k : Nat) (rep : Bool) (rd a : Reg) (imm : W16) (s : State), Settled s →
    runs e s.chip → onEngine e k rep → (threadOf e s.chip).inInit = false →
    let t := threadOf e s.chip
    let n := (t.rx a + BitVec.ofNat 64 (imm.toNat % 16)).toNat
    let v := imm.toNat / 16 % 16
    let x := s.chip.lookBack k n t.six (imm.toNat / 256)
    let r := fun i v => answers i s (wrote e rd v s.chip)
    let w := s.chip.viewAt t.six
    (v ≤ 2 → n < 16 →
      r (.tap e rd a imm) (tapRead false v x.1) ∧ r (.tapc e rd a imm) (tapRead true v x.1)) ∧
    (v = 0 → n < 16 → r (.tapst e rd a imm) (BitVec.ofNat 64 (x.1.st.toNat ||| (if x.2 then 0x40 else 0)))) ∧
    (a.val = 0 → r (.ctx e rd a 1) (BitVec.ofNat 64 t.six) ∧
      r (.ctx e rd a 3) (BitVec.ofNat 64 (s.chip.gridDAt k t.six))) ∧
    (∀ m, w.mpOf k (t.rx a).toNat = some m →
      r (.ctx e rd a 0) (w.ctxWord k t m) ∧
      r (.ctx e rd a 2) (BitVec.ofNat 64 (t.ctx.mp m).session.toNat))

/-- R108, R109, R111: a contribution of a meter point's slot to the open segment. BIN takes the sign of
the accumulator as it is, BINS takes its magnitude and lets the sign choose the direction; SPILL and
PUSHR leave an item of the instant. The accumulator is cleared unless K is set. -/
def Obligations.Contributions : Prop :=
  ∀ (e : Exec) (k : Nat) (rep : Bool) (wa : WReg) (a b : Reg) (slot : Fin 8) (keep : Bool)
    (tag : BitVec 6) (m : Nat) (s : State), Settled s → runs e s.chip → onEngine e k rep →
    inInstant e s.chip →
    let t := threadOf e s.chip
    let v := (t.rw wa).toInt
    let seg := segOf e s.chip
    let w := s.chip.viewAt t.six
    let next := (if keep then t else t.ww wa 0).advance false
    let only := fun (th : Thread) (d : Chip) => threadOf e d = th ∧ otherEngines e s.chip d ∧
      keepsBut [.engs] s.chip d
    (w.binCheck k t a slot.val = .ok m → t.cutoff m = false → (s.chip.eng k).binCount seg < 2048 →
      completes (.bin e wa a slot keep) s (fun d => only next d ∧
        ∃ x, segOf e d = { seg with bins := seg.bins ++ [x] } ∧ x.six = t.six ∧ x.mp = m ∧
          x.slot = slot.val ∧ x.value = v ∧ x.tariff = (t.ctx.tariff m).toNat ∧
          x.interval = t.ctx.interval ∧ x.session = (t.ctx.mp m).session) ∧
      (v ≠ 0 → w.slotNet m slot.val = false →
        completes (.bins e wa a slot keep) s (fun d => only next d ∧
          ∃ x, segOf e d = { seg with bins := seg.bins ++ [x] } ∧ x.six = t.six ∧ x.mp = m ∧
            x.slot = slot.val ∧ x.value = v.natAbs ∧ (x.rev = true ↔ v < 0))) ∧
      completes (.spill e wa a slot keep) s (fun d => only next d ∧
        segOf e d = { seg with spills := seg.spills ++ [(t.six, 8 * m + slot.val, v)] })) ∧
    (w.mpOf k (t.rx a).toNat = some m →
      completes (.pushr e a b tag) s (fun d => only (t.advance false) d ∧
        segOf e d = { seg with items := seg.items ++
          [{ six := t.six, mp := m, tag := tag.toNat, value := t.rx b }] }))

/-- R114, R77: GATE marks the instant, and places a gate at the next one where a gate period or a
boundary falls due; the open segment starts again behind it. R95, R115, R76: FENCE sends what the instant has pushed and goes on; YIELD ends the instant, and
the thread stands one grid distance further on. -/
def Obligations.GatesAndInstantEnds : Prop :=
  (∀ (e : Exec) (k : Nat) (rep : Bool) (s : State), Settled s → runs e s.chip → onEngine e k rep →
    inInstant e s.chip →
    let t := threadOf e s.chip
    let q := s.chip.eng k
    let z := t.six + s.chip.gridDAt k t.six
    let t' := ({ t with gateDone := true } : Thread).advance false
    let due := q.hasGate z = false ∧ (rep = true ∨ q.run ≠ 3) ∧
      (q.boundaryDue z = true ∨ z % s.chip.gatePeriod k z = 0)
    q.forceDue = false → q.gates.length < 8 → q.late = [] →
    completes (.gate e) s (fun d =>
      threadOf e d = { t' with atGate := some t'.capture } ∧
      (due → segOf e d = { start := z } ∧ ∃ g, (d.eng k).gates = q.gates ++ [g] ∧ g.six = z ∧
        g.ck.x = t.x ∧ g.ck.w = t.w) ∧
      (¬ due → (d.eng k).gates = q.gates ∧ segOf e d = segOf e s.chip) ∧
      otherEngines e s.chip d ∧ keepsBut [.engs] s.chip d)) ∧
  (∀ (e : Exec) (k : Nat) (rep : Bool) (cycles : Nat) (s : State), Settled s → runs e s.chip →
    onEngine e k rep →
    let t := threadOf e s.chip
    let q := s.chip.eng k
    let out := fun (d : Chip) => otherEngines e s.chip d ∧
      keepsBut [.engs, .disp, .ferry, .evt, .hint] s.chip d
    completes (.fence e) s (fun d => threadOf e d = { t.advance false with live := [] } ∧ out d) ∧
    (t.inInit = false → t.loops = [] → t.link = [] → t.gateDone = true → q.prog = none →
      completes (.yield e cycles) s (fun d =>
        (threadOf e d).busy = false ∧ (threadOf e d).x = t.x ∧ (threadOf e d).w = t.w ∧
        (d.eng k).hpos = q.hpos + (if rep then 0 else s.chip.gridDAt k t.six) ∧
        (d.eng k).rpos = q.rpos + (if rep then s.chip.gridDAt k t.six else 0) ∧
        (d.eng k).cycMax = BitVec.ofNat 16 (max q.cycMax.toNat (min cycles 0xFFFF)) ∧ out d)))

/-- R111: the head publishes a live item in RUN (2) and SIDESTEP (3); every other thread goes on. R109, R150, R152: MARK feeds the direction unit of its meter point once an instant; a reversal it
confirms becomes a direction event of the engine, stamped with the grid instant it began at. -/
def Obligations.LiveItemsAndDirection : Prop :=
  (∀ (e : Exec) (k : Nat) (rep : Bool) (a b : Reg) (tag : BitVec 6) (m : Nat) (s : State), Settled s →
    runs e s.chip → onEngine e k rep → (threadOf e s.chip).inInit = false →
    let t := threadOf e s.chip
    let x : ResItem := { six := t.six, mp := m, tag := tag.toNat, value := t.rx b }
    let shows := rep = false ∧ ((s.chip.eng k).run = 2 ∨ (s.chip.eng k).run = 3)
    (s.chip.viewAt t.six).mpOf k (t.rx a).toNat = some m →
    (shows → completes (.pushl e a b tag) s (fun d =>
      threadOf e d = { t with live := t.live ++ [x] }.advance false ∧
      Tbl.get 0 d.disp.live (64 * m + tag.toNat) = t.rx b ∧ otherEngines e s.chip d ∧
      keepsBut [.engs, .disp] s.chip d)) ∧
    (¬ shows → answers (.pushl e a b tag) s (withThread e (t.advance false) s.chip))) ∧
  (∀ (e : Exec) (k : Nat) (rep : Bool) (a b : Reg) (m : Nat) (s : State), Settled s → runs e s.chip →
    onEngine e k rep → inInstant e s.chip →
    let t := threadOf e s.chip
    let c := s.chip
    let w := c.viewAt t.six
    let two := fun o => two w.live (aMp m + o)
    let r := (Tbl.get ({} : DirUnit) t.dirs m).mark (w.live (aMp m + 0x0C)) (two 0x10) (two 0x18) t.six (t.rx b)
    let t' := ({ t with dirs := Tbl.put {} t.dirs m r.1, marked := m :: t.marked } : Thread).advance false
    w.mpOf k (t.rx a).toNat = some m → w.mpDir m = true → t.marked.contains m = false →
    fFinite (t.rx b) = true →
    (r.2 = none → answers (.mark e a b) s (withThread e t' c)) ∧
    (∀ z, r.2 = some z → completes (.mark e a b) s (fun d =>
      (d.eng k).knows m (z / c.gridDAt k t.six * c.gridDAt k t.six) r.1.rev = true ∧
      otherEngines e c d ∧ keepsBut [.engs, .evt, .ferry, .hint] c d)))

/-- R96, R130: HALT ends the initialisation of a tally program: the checkpoint holds its registers,
and the thread waits for its first instant. R250: HALT of a bay program leaves BS HALTED (5) with
fault code 0x21 and the PC of the instruction, readiness bit 17 clear, the pilot at -12 V and ISO
15118 ended. R88, R116: TRAP, a word that is no legal word, and a division by zero stop an engine, in the head or in the replay
thread: HALTED (6) with the trap code and the PC of the instruction, and readiness bit 8 + k clear. In a
bay program each is a bay fault with its code (R250). -/
def Obligations.HaltsAndFaults : Prop :=
  (∀ (k : Fin 8) (s : State), Settled s →
    (runs (.head k) s.chip → (s.chip.eng k.val).head.inInit = true →
      completes (.halt (.head k)) s (fun d =>
        (d.eng k.val).head.busy = false ∧ (d.eng k.val).head.inInit = false ∧
        (d.eng k.val).head.x = (s.chip.eng k.val).head.x ∧
        (d.eng k.val).ck.x = (s.chip.eng k.val).head.x ∧ (d.eng k.val).ck.w = (s.chip.eng k.val).head.w ∧
        (d.eng k.val).reloaded = true ∧ otherEngines (.head k) s.chip d ∧ keepsBut [.engs, .cfg] s.chip d)) ∧
    (runs .bay s.chip →
      completes (.halt .bay) s (fun d =>
        d.bay.run = 5 ∧ d.bay.core.busy = false ∧ d.bay.faultCode = 0x21 ∧
        d.bay.faultPc = BitVec.ofNat 15 s.chip.bay.core.pc ∧ d.sys.ready.getLsbD 17 = false ∧
        d.bay.pilotReq = 0xFFFF ∧ d.bay.v2gConn = false))) ∧
  (∀ (e : Exec) (k : Nat) (rep : Bool) (imm : W16) (w : W32) (rd a b : Reg) (s : State), Settled s → runs e s.chip →
    let pc := (threadOf e s.chip).pc
    let stops := fun (i : Instr) (code : W8) => completes i s (fun d =>
      (d.eng k).run = 6 ∧ (d.eng k).trapCode = code ∧ (d.eng k).trapPc = BitVec.ofNat 14 pc ∧
      d.sys.ready.getLsbD (8 + k) = false)
    let faults := fun (i : Instr) (code : W8) => completes i s (fun d =>
      d.bay.faultCode = code ∧ d.bay.faultPc = BitVec.ofNat 15 pc ∧
      (d.bay.run = 4 ∨ d.bay.run = 6) ∧ d.sys.ready.getLsbD 17 = false)
    (onEngine e k rep → stops (.trap e imm) 0x01 ∧
      (legalWord false w = false → stops (.illegalInstruction e w) 0x03) ∧
      ((threadOf e s.chip).rx b = 0 → stops (.div e rd a b) trDIVZERO)) ∧
    (e = .bay → faults (.trap e imm) 0x01 ∧
      (legalWord true w = false → faults (.illegalInstruction e w) 0x03) ∧
      ((threadOf e s.chip).rx b = 0 → faults (.div e rd a b) trDIVZERO)))

/-- R119, R284: DRVSET commands a drive of the bay that both channels grant, no mode forbids and no latch
holds, and answers OK, and it commands any drive off; one that its fail state or a latch holds off is commanded and
answers LOCKED; a turn-on of a drive of another owner answers DENIED and the drive stays; DRVGET answers the drive's
word; a number above 47 answers RANGE. -/
def Obligations.BayDrives : Prop :=
  ∀ (rd a b : Reg) (s : State), Settled s → runs .bay s.chip →
    let c := s.chip
    let n := (c.bay.core.rx a).toNat
    let on := (c.bay.core.rx b).getLsbD 0
    (n < 48 → (c.drive n).testing = 0 → (on = true →
        c.drvOwner n = 1 ∧ c.drvGranted n = true ∧ c.modeHolds n = false ∧ (c.drive n).phase = 0 ∧
        (c.drive n).therm = false ∧ c.uvHolds n = false) →
      completes (.drvset .bay rd a b) s (fun d =>
        bayGoes rd 0 c d ∧ (d.drive n).cmd = on ∧ (∀ j, j ≠ n → d.drive j = c.drive j) ∧
        keepsBut [.bay, .drv] c d)) ∧
    (n < 48 → c.drvOwner n = 1 → (c.drive n).testing = 0 → on = true → c.drvGranted n = true →
      c.modeHolds n = false → ((c.drive n).phase ≠ 0 ∨ (c.drive n).therm = true ∨ c.uvHolds n = true) →
      completes (.drvset .bay rd a b) s (fun d => bayGoes rd (status 3 0) c d ∧ (d.drive n).cmd = true ∧
        (∀ j, j ≠ n → d.drive j = c.drive j) ∧ keepsBut [.bay, .drv] c d)) ∧
    (n < 48 → c.drvOwner n ≠ 1 → on = true →
      answers (.drvset .bay rd a b) s (wrote .bay rd (status 4 0) c)) ∧
    (48 ≤ n → answers (.drvset .bay rd a b) s (wrote .bay rd (status 6 0) c)) ∧
    (n < 48 → answers (.drvget .bay rd a) s (wrote .bay rd (status 0 (c.drvWord n).toNat) c)) ∧
    (48 ≤ n → answers (.drvget .bay rd a) s (wrote .bay rd (status 6 0) c))

/-- R120, R121, R122, R241: EVWAIT takes the latched classes of its mask, or waits for one, or with its poll bit answers
that there is none; TMSET starts a timer and its CANCEL form stops it and takes its event back; SIGNAL sends its
packet to FQ5, waits while an owned FQ5 has no room for it, and drops it on an unowned one; PILOT reads or sets the
pilot generator. R122, R123, R179, R180, R182: SLIPTX queues a frame of an enabled CAN port that is not full; SLIPRX takes the
oldest received frame into memory; SESSOPEN opens a session of a well-formed descriptor at a free meter point of a
running engine, with the next number; SESSCLOSE asks for the close of an open one at the next stamp. -/
def Obligations.BayInstructions : Prop :=
  (∀ (rd a b : Reg) (s : State), Settled s → runs .bay s.chip →
    let c := s.chip
    let x := c.bay.core.rx a
    let y := c.bay.core.rx b
    let mask : W32 := x.truncate 32
    let hit := c.bay.events &&& mask
    let q := c.fq 5
    let pkt := mkPkt 0x50 0x0C [BitVec.ofNat 32 (x.toNat % 65536), y.truncate 32, BitVec.ofNat 32 (y.toNat / 2 ^ 32)]
    let sets := fun (v : W16) => completes (.pilot .bay rd a b) s (fun d => bayGoes rd 0 c d ∧ d.bay.pilotReq = v ∧
      d.bay.timers = c.bay.timers ∧ keepsBut [.bay, .evt, .ferry, .hint] c d)
    (hit ≠ 0 → completes (.evwait .bay rd a) s (fun d =>
      bayGoes rd (status 0 hit.toNat) c d ∧ d.bay.events = c.bay.events &&& ~~~ hit ∧
      keepsBut [.bay] c d)) ∧
    (mask ≠ 0 → hit = 0 → x.getLsbD 32 = false → completes (.evwait .bay rd a) s (fun d =>
      d.bay = { c.bay with waitMask := some mask } ∧ keepsBut [.bay] c d)) ∧
    (hit = 0 → x.getLsbD 32 = true → completes (.evwait .bay rd a) s (fun d =>
      bayGoes rd 0 c d ∧ d.bay.events = c.bay.events ∧ keepsBut [.bay] c d)) ∧
    (x.toNat < 16 → 0 < y.toNat → y.toNat < 2 ^ 32 → completes (.tmset .bay rd a b) s (fun d =>
      bayGoes rd 0 c d ∧ Tbl.get 0 d.bay.timers x.toNat = y.truncate 32 ∧ d.bay.events = c.bay.events ∧
      (∀ j, j ≠ x.toNat → Tbl.get 0 d.bay.timers j = Tbl.get 0 c.bay.timers j) ∧ keepsBut [.bay] c d)) ∧
    ((16 ≤ x.toNat ∨ y.toNat = 0 ∨ 2 ^ 32 ≤ y.toNat) →
      answers (.tmset .bay rd a b) s (wrote .bay rd (status 6 0) c)) ∧
    (x.toNat < 16 → completes (.tmsetCancel .bay rd a) s (fun d =>
      bayGoes rd 0 c d ∧ Tbl.get 0 d.bay.timers x.toNat = 0 ∧ d.bay.events.getLsbD x.toNat = false ∧
      (∀ j, j ≠ x.toNat → Tbl.get 0 d.bay.timers j = Tbl.get 0 c.bay.timers j) ∧
      (∀ j, j ≠ x.toNat → d.bay.events.getLsbD j = c.bay.events.getLsbD j) ∧ keepsBut [.bay] c d)) ∧
    (q.owner = none → completes (.signal .bay rd a b) s (fun d =>
      bayGoes rd 0 c d ∧ d.bay.signal = none ∧ (d.fq 5).fill = q.fill ∧ (d.fq 5).drain = q.drain ∧
      (d.fq 5).holdBuf = q.holdBuf ∧ keepsBut [.bay, .ferry] c d)) ∧
    (q.owner ≠ none → pktWords q.fill + 4 ≤ 1024 → q.holdBuf = [] → q.testing = false → q.fill = [] →
      q.drain = [] → q.cur = [] → completes (.signal .bay rd a b) s (fun d =>
        bayGoes rd 0 c d ∧ d.bay.signal = none ∧ (d.fq 5).drain = [pkt] ∧ (d.fq 5).fill = [] ∧
        (∀ j, j ≠ 5 → d.fq j = c.fq j) ∧ keepsBut [.bay, .ferry, .hint] c d)) ∧
    (q.owner ≠ none → pktWords q.fill + 4 ≤ 1024 → q.holdBuf = [] → q.testing = false →
      (q.fill ≠ [] ∧ (q.drain ≠ [] ∨ q.cur ≠ [])) → completes (.signal .bay rd a b) s (fun d =>
        bayGoes rd 0 c d ∧ d.bay.signal = none ∧ (d.fq 5).fill = q.fill ++ [pkt] ∧ (d.fq 5).drain = q.drain ∧
        (∀ j, j ≠ 5 → d.fq j = c.fq j) ∧ keepsBut [.bay, .ferry, .hint] c d)) ∧
    (q.owner ≠ none → (1024 < pktWords q.fill + 4 ∨ q.holdBuf ≠ []) → completes (.signal .bay rd a b) s (fun d =>
      d.bay = { c.bay with signal := some (rd, pkt) } ∧ keepsBut [.bay] c d)) ∧
    (c.pilotEn = true →
      (x = 0 → answers (.pilot .bay rd a b) s (wrote .bay rd (status 0 c.pilotWord.toNat) c)) ∧
      (x = 1 → (y = 50 ∨ (80 ≤ y.toNat ∧ y.toNat ≤ 970)) → sets (y.truncate 16)) ∧
      (x = 2 → sets 0) ∧ (x = 3 → sets 0xFFFF))) ∧
  (∀ (rd a b f : Reg) (s : State), Settled s → runs .bay s.chip →
    let c := s.chip
    let x := c.bay.core.rx a
    let y := (c.bay.core.rx b).toNat
    let n := (c.bay.core.rx f).toNat
    let p := x.toNat / 2 ^ 30 % 2
    let id : W32 := BitVec.ofNat 32 (x.toNat % 2 ^ 29)
    let desc := Mem.rdN c.bay.mem y 64
    let others := fun (j : Nat) (d : Chip) => ∀ i, i ≠ j → d.session i = c.session i
    (canLen n = true → 0 < n → id.toNat / 2 ^ 18 % 256 ≠ 0x3F → c.canEn p = true → y + n ≤ 0x80000 →
      c.pair.role ≠ 2 → (c.canPort p).tx.length < 8 →
      completes (.sliptx .bay rd a b f) s (fun d => bayGoes rd 0 c d ∧
        (d.canPort p).tx = (c.canPort p).tx ++ [wordBytes id ++ Mem.rdN c.bay.mem y n] ∧
        (d.canPort p).rx = (c.canPort p).rx ∧ (∀ i, i ≠ p → d.canPort i = c.canPort i) ∧
        d.bay.mem = c.bay.mem ∧ keepsBut [.bay] c d)) ∧
    (∀ fr rest, (c.canPort (x.toNat % 2)).rx = fr :: rest → 8 ≤ fr.length → y + fr.length ≤ 0x80000 →
      completes (.sliprx .bay rd a b) s (fun d => bayGoes rd (status 0 (fr.length - 8)) c d ∧
        (d.canPort (x.toNat % 2)).rx = rest ∧ Mem.rdN d.bay.mem (y + 8) (fr.length - 8) = fr.drop 8 ∧
        (∀ j, j < y ∨ y + fr.length ≤ j → Mem.rd d.bay.mem j = Mem.rd c.bay.mem j) ∧
        keepsBut [.bay] c d)) ∧
    ((c.canPort (x.toNat % 2)).rx = [] → answers (.sliprx .bay rd a b) s (wrote .bay rd 0 c)) ∧
    (y + 64 ≤ 0x80000 → c.postNo ≠ 0 → c.sys.starting = false → c.sys.qcause = 0 → c.retired = false →
      c.power.onAux = false → x.toNat < 64 → c.mpEn x.toNat = true → (desc.getD 0x21 0).toNat ≤ 16 →
      (desc.getD 0x22 0).toNat < 128 → (∀ v ∈ slice desc 0x23 5, v = 0) → (∀ v ∈ slice desc 0x30 16, v = 0) →
      (c.session x.toNat).no = 0 → c.rdy rBILL = true → c.mpRuns x.toNat = true → c.mpLoads x.toNat = false →
      (∀ e ∈ c.cfg.pend, e.kind ≠ 3) → completes (.sessopen .bay rd a b) s (fun d =>
        bayGoes rd (status 0 c.bill.sessNext.toNat) c d ∧
        d.session x.toNat = { no := c.bill.sessNext, desc := desc, openSix := c.stampAfter 1 } ∧
        others x.toNat d ∧ d.bill.sessNext = nextSess c.bill.sessNext ∧ d.bill.qty = c.bill.qty)) ∧
    (∀ m, 0 < y % 256 → y % 256 < 16 → c.sessMp (x.truncate 32) = some m → x.toNat < 2 ^ 32 →
      (c.session m).no ≠ 0 → (c.session m).closeSix = none → c.mpRuns m = true →
      completes (.sessclose .bay rd a b) s (fun d => bayGoes rd 0 c d ∧
        d.session m =
          { c.session m with closeSix := some (c.stampAfter 1), reason := BitVec.ofNat 8 y, eng := c.mpEngine m } ∧
        others m d ∧ d.bill.qty = c.bill.qty)))

/-- R26, R27, R28: a read frame on J6 is answered with the word, its status and a check over address,
data and status; a write frame with its status, and writes only when its own check is right and the
address is a multiple of 4; another first byte releases the lines and an abandoned frame drives
nothing. R373, R402: the port opens after power, and VIO gates it. -/
def Obligations.HostPortFrames : Prop :=
  ∀ (op crc : W8) (a : BitVec 24) (v : W32) (ok : Bool) (s : State), Settled s →
    let c := s.chip
    let r := c.readWord 0 a.toNat
    let good := frameCrc 0xC3 a v
    (c.hears 0 = true →
      completes (.hostFrame 0x3C a v crc) s (fun d => d.host.reply =
        { kind := .answered, data := r.2.1, status := r.2.2, crc := crc8 (checked a [r.2.1] r.2.2) }) ∧
      (a.toNat % 4 ≠ 0 → completes (.hostFrame 0xC3 a v crc) s (fun d => d.host.reply.status = 0x06 ∧
        keepsBut [.host] c d)) ∧
      (a.toNat % 4 = 0 → crc ≠ good → completes (.hostFrame 0xC3 a v crc) s (fun d => d.host.reply =
        { kind := .answered, status := 0x08, crc := crc8 (checked a [] 0x08) } ∧ keepsBut [.host] c d)) ∧
      (writes 0 0x20000 v c → a = 0x20000 → completes (.hostFrame 0xC3 a v good) s (fun d =>
        d.host.reply = { kind := .answered, status := 0x00, crc := crc8 (checked a [] 0x00) } ∧
        d.master 0 = { c.master 0 with arg0 := v } ∧ keepsBut [.host, .masters] c d)) ∧
      (op ≠ 0x3C → op ≠ 0xC3 → completes (.hostFrame op a v crc) s (fun d =>
        d.host.reply = { kind := .released } ∧ keepsBut [.host] c d)) ∧
      completes .hostFrameAbandoned s (fun d => d.host.reply = {} ∧ keepsBut [.host] c d)) ∧
    (c.power.off = false → completes .hostPortEnable s (fun d => d.host.enabled = true ∧
      keepsBut [.host] c d)) ∧
    completes (.vioChange ok) s (fun d => d.host.vioOk = ok ∧ d.host.enabled = c.host.enabled ∧
      keepsBut [.host] c d)

/-- R6, R29, R33, R43: register writes that reach their register: the argument and selection registers of
the master's own bank, the hint enables under their mask, the hint bits by writing 1; a write without
the access right changes nothing but the count of refusals and the event. -/
def Obligations.RegisterWrites : Prop :=
  ∀ (m : Master5) (a v : W32) (s : State), Settled s →
    let c := s.chip
    let x := c.master m.val
    let sets := fun (n : Nat) (y : Master) => writes m n v c → a.toNat = n →
      completes (.registerWrite m a v) s (fun d => d.master m.val = y ∧
        (∀ j, j ≠ m.val → d.master j = c.master j) ∧ keepsBut [.masters] c d)
    sets 0x20000 { x with arg0 := v } ∧ sets 0x20004 { x with arg1 := v } ∧
    sets 0x20008 { x with arg2 := v } ∧ sets 0x2000C { x with arg3 := v } ∧
    sets 0x20018 { x with ticketSel := v.truncate 16 } ∧ sets 0x3000C { x with cfgView := v.getLsbD 0 } ∧
    (writes m 0x64 v c → a = 0x64 → completes (.registerWrite m a v) s (fun d =>
      (∀ i, i < 11 → d.sys.hintEn.getLsbD i =
        if v.getLsbD (16 + i) then v.getLsbD i else c.sys.hintEn.getLsbD i) ∧ keepsBut [.sys] c d)) ∧
    (writes m 0x60 v c → completes (.sysHintStatusWrite m v) s (fun d =>
      (∀ i, i < 11 → d.sys.hintStatus.getLsbD i = (c.sys.hintStatus.getLsbD i && !v.getLsbD i)) ∧
      keepsBut [.hint] c d)) ∧
    (c.hears m.val = true → a.toNat % 4 = 0 → c.sys.changeover = false → c.deadAt a.toNat = none →
      c.mayWrite m.val a.toNat v = false → completes (.registerWrite m a v) s (fun d =>
        d.sys.deniedCnt = satInc c.sys.deniedCnt ∧
        d.sys.deniedAddr = BitVec.ofNat 32 (m.val * 2 ^ 24 + a.toNat % 2 ^ 24) ∧
        keepsBut [.sys, .evt, .ferry, .hint] c d))

/-- R23, R30, R31, R355: YHP. A connection takes the lowest free session with an empty bank of messages;
READ answers the words and then the status bytes; WRITE writes its words and answers the statuses;
COMMAND answers CMD_STATUS of the command it wrote; a closed connection ends its session. -/
def Obligations.YhpMessages : Prop :=
  ∀ (i : Fin 4) (req : BitVec 16) (v a0 a1 a2 a3 : W32) (l : List W32) (s : State), Settled s →
    let c := s.chip
    let m : Master5 := i.succ
    let x := c.master m.val
    let msg := fun (kind : W8) (n : Nat) (p : List W32) => ({ kind := kind, n := n, req := req, payload := p } : YhpIn)
    (c.rdy rNET = true → c.net.nxUp = true → c.sys.changeover = false → c.retired = false →
      x.conn = false → (∀ j, j < m.val → 0 < j → (c.master j).conn = true) →
      completes (.yhpConnect .anonymous) s (fun d => d.master m.val =
        { x with conn := true, outbox := [], sess := x.sess + 1 } ∧ keepsBut [.masters] c d)) ∧
    (x.conn = true →
      completes (.yhpConnectionClose i) s (fun d => (d.master m.val).conn = false ∧
        (d.master m.val).role = 0 ∧ (d.master m.val).sess = x.sess + 1) ∧
      (l.length < 256 → (((c.yhpReads m.val l).1).master m.val).conn = true →
        completes (.yhpRead i (msg 0x01 l.length l)) s (fun d => (d.master m.val).outbox.getLast? =
          some { kind := 0x81, hi := BitVec.ofNat 8 l.length, req := req,
                 payload := (c.yhpReads m.val l).2.1 ++ toWords (c.yhpReads m.val l).2.2 })) ∧
      (writes m 0x20000 v c → completes (.yhpWrite i (msg 0x02 1 [0x20000, v])) s (fun d =>
        (d.master m.val).arg0 = v ∧
        (d.master m.val).outbox = x.outbox ++ [{ kind := 0x82, hi := 1, req := req, payload := [0] }] ∧
        keepsBut [.masters] c d)) ∧
      ((∀ p ∈ [(0x20000, a0), (0x20004, a1), (0x20008, a2), (0x2000C, a3), (0x20010, (0x200 : W32))],
          writes m p.1 p.2 c) →
        c.deadAt 0x20014 = none → c.retired = false → 1 ≤ x.role.toNat → c.rdy rSV = true →
        completes (.yhpCommand i (msg 0x03 1 [0x200, a0, a1, a2, a3])) s (fun d =>
          (d.master m.val).arg0 = a0 ∧ (d.master m.val).arg3 = a3 ∧ (d.master m.val).status = 0 ∧
          (d.master m.val).outbox =
            x.outbox ++ [{ kind := 0x83, hi := 1, req := req, payload := [BitVec.ofNat 32 0x8000] }] ∧
          keepsBut [.masters] c d)))

/-- R35, R36, R17: a landing takes a request, is filled, and gives up its value at the read of its last
word; an access to an island that does not answer raises ISLAND_TIMEOUT and answers TIMEOUT on J6. -/
def Obligations.Landings : Prop :=
  ∀ (m : Master5) (n : Fin 16) (a v : W32) (w : Bool) (s : State), Settled s →
    let c := s.chip
    let l := c.land n.val
    (writes m (0x10000 + 0x20 * n.val) v c → (landsOf m.val).contains n.val = true →
      completes (.landReqWrite m n v) s (fun d =>
        d.land n.val = { req := v &&& 0xFFC0FFFF, busy := true } ∧
        (∀ j, j ≠ n.val → d.land j = c.land j) ∧ keepsBut [.lands] c d)) ∧
    (∀ x, l.busy = true → (billSpace (l.req.toNat / 2 ^ 28) = true → c.rdy rBILL = true) →
      c.fillValue (l.req.toNat / 2 ^ 28) (l.req.toNat / 2 ^ 22 % 64) (l.req.toNat % 65536) = some x →
      completes (.landFillComplete n) s (fun d => d.land n.val =
        { req := l.req, valid := true, d0 := BitVec.ofNat 32 x.v, d1 := BitVec.ofNat 32 (x.v / 2 ^ 32),
          d2 := BitVec.ofNat 32 (x.v / 2 ^ 64),
          d3 := BitVec.ofNat 32 (c.bill.seq.toNat % 2 ^ 24 * 256 + x.flags) } ∧
        keepsBut [.lands] c d)) ∧
    (l.busy = true → (billSpace (l.req.toNat / 2 ^ 28) = true → c.rdy rBILL = true) →
      c.fillValue (l.req.toNat / 2 ^ 28) (l.req.toNat / 2 ^ 22 % 64) (l.req.toNat % 65536) = none →
      completes (.landFillComplete n) s (fun d => (d.land n.val).err = true ∧
        (d.land n.val).errCode = 0x06 ∧ (d.land n.val).busy = false ∧ keepsBut [.lands] c d)) ∧
    (reads m (0x1001C + 0x20 * n.val) c → (landsOf m.val).contains n.val = true →
      completes (.landD3Read m n) s (fun d => d.land n.val = { l with valid := false } ∧
        keepsBut [.lands] c d)) ∧
    (∀ k, c.hears m.val = true → islandOf a.toNat = some k → a.toNat < 2 ^ 24 →
      completes (.islandTimeout m a w) s (fun d =>
        (Tbl.get {} d.evt.src 2).cnt = satInc (Tbl.get {} c.evt.src 2).cnt ∧
        (m = 0 → d.host.reply.status = 0x11) ∧ keepsBut [.host, .evt, .ferry, .hint] c d))

/-- R37, R38, R39, R40: a write of a CMT word goes to the shadow and claims its group, and is refused while another
master holds the claim; the live words stay. A discard drops the group's shadow words and its claim. An accepted
commit of a group that is not legal makes the shadow words live with the group's reference, ends the claim and
reports OK; one of a legal group reports PENDING with a ticket and waits for an instant at least 10 ms ahead, with
the claim kept and nothing live changed. For CG11 the consistency check is R392. R39, R40, R62, R377, R41, R42, R283: a refused commit, and one of CG5 whose latches fail their read-back,
reports its status and changes nothing live. A legal change whose instant is reached takes effect and is counted: a
group's words become live with its reference, its claim ends and its ticket completes; a tap's arbiter returns to
NORMAL; the COMMISSION flag is set or cleared. A check pass that finds the reference leaves the block as it is or
resolves a mismatch; one that does not raises CFG_MISMATCH and takes the group's words from the settings generation
in force; a mismatch of a legal group that persists sets quarantine cause 0. -/
def Obligations.ConfigurationAccess : Prop :=
  (∀ (m : Master5) (a v : W32) (g : BitVec 4) (f : CmtFam) (s : State), Settled s →
    let c := s.chip
    let n := g.toNat
    let w11 := c.cand 11 0x130000
    let ready := [rSV] ++ (if n = 1 then [rAFE] else if n = 4 then [rBILL] else if n = 5 then [rDRV]
      else if n = 7 then [rLINK] else [])
    let may := c.sys.changeover = false ∧ c.sys.qcause = 0 ∧ c.retired = false ∧ (∀ i ∈ ready, c.rdy i = true) ∧
      (c.cfgOwner n = none ∨ c.cfgOwner n = some m.val) ∧ (∀ p ∈ c.cfg.pend, p.kind = n → p.applied = true) ∧
      c.cfg.mismatch.getLsbD n = false ∧ (n = 11 → c.sys.te = true ∨ w11.getLsbD 31 = false) ∧
      (n ≠ 11 → c.checkGroup n = []) ∧
      (n = 11 → c.sys.te = true → (w11.getLsbD 31 = true → c.postNo ≠ 0 ∧ failsOn c.live = false) ∧
        (w11.getLsbD 29 = true → c.cand 11 0x130004 ≠ 0) ∧ 1 ≤ w11.toNat % 128 ∧ w11.toNat % 128 ≤ 100)
    let commits := writes m 0x30000 (BitVec.ofNat 32 (2 ^ 28 + n)) c ∧ n < 12 ∧ may
    let answered := fun (st : W8) (t : W16) (d : Chip) => (d.master m.val).cfgStat = st ∧
      (d.master m.val).cfgGroup = g ∧ (d.master m.val).cfgTicket = t ∧ (d.master m.val).cfgFail = 0
    (writes m a.toNat v c → cmtFind a.toNat = some f →
      (c.cfgOwner f.group = none ∨ c.cfgOwner f.group = some m.val) →
      completes (.cfgShadowWrite m a v) s (fun d =>
        d.shadow a.toNat = v &&& f.mask ∧ d.cfgOwner f.group = some m.val ∧
        (∀ b, b ≠ a.toNat → d.shadow b = c.shadow b) ∧ d.cfg.live = c.cfg.live ∧
        keepsBut [.cfg] c d)) ∧
    (∀ o, writes m a.toNat v c → cmtFind a.toNat = some f → c.cfgOwner f.group = some o → o ≠ m.val →
      completes (.cfgShadowWrite m a v) s (fun d => d.cfg = c.cfg ∧ d.sys.deniedCnt = satInc c.sys.deniedCnt)) ∧
    (writes m 0x30000 (BitVec.ofNat 32 (2 ^ 29 + n)) c → n < 12 →
      ((c.cfgOwner n = none ∨ c.cfgOwner n = some m.val) → completes (.cfgDiscard m g) s (fun d =>
        d.cfgOwner n = none ∧ (c.cfgOwner n = some m.val → ∀ b, inGroup n b = true → d.shadow b = c.live b) ∧
        (∀ b, inGroup n b = false → d.shadow b = c.shadow b) ∧ d.cfg.live = c.cfg.live ∧
        answered 0 0 d ∧ keepsBut [.cfg, .masters] c d)) ∧
      (∀ o, c.cfgOwner n = some o → o ≠ m.val → completes (.cfgDiscard m g) s (fun d =>
        answered stLOCKED 0 d ∧ d.cfg = c.cfg ∧ keepsBut [.masters] c d))) ∧
    (commits → legalGroup n = false → ((c.master m.val).role = 3 ∨ (c.master m.val).role = 5) →
      (n = 5 → c.drv.badLatch = 0) → completes (.cfgCommit m g) s (fun d =>
        (∀ p ∈ c.cfg.shadow, c.cfg.shadow.filter (fun q => q.1 == p.1) = [p] → inGroup n p.1 = true →
          d.live p.1 = p.2) ∧
        (∀ b, (c.cfg.shadow.filter (fun p => p.1 == b) = [] ∨ inGroup n b = false) → d.live b = c.live b) ∧
        Tbl.get 0 d.cfg.ref n = d.groupCrc n ∧ d.cfgOwner n = none ∧ answered 0 0 d)) ∧
    (commits → legalGroup n = true → (c.master m.val).role = 4 → c.onTrial = false → c.tamper.lsw = true →
      c.tixFull = false → c.cfg.pend = [] → completes (.cfgCommit m g) s (fun d =>
        answered 0x01 c.tix.next d ∧ d.cfg.live = c.cfg.live ∧ d.cfg.shadow = c.cfg.shadow ∧
        d.cfgOwner n = c.cfgOwner n ∧ d.tix.next = nextTicket c.tix.next ∧
        (∃ p, d.cfg.pend = [p] ∧ p.kind = n ∧ p.arg = m.val ∧ p.ticket = c.tix.next ∧ p.applied = false ∧
          p.stamp = some (c.stampAfter 10))))) ∧
  (∀ (m : Master5) (g : BitVec 4) (k : Fin 12) (st : W8) (p : PendCommit) (z : Nat) (bad : List (W32 × W32))
    (s : State), Settled s →
    let c := s.chip
    let due := c.cfg.pend = [p] ∧ p.stamp = some z ∧ z ≤ c.now ∧ p.applied = false
    let effect := fun (P : Chip → Prop) => completes .legalChangeApply s (fun d =>
      d.evt.legalCnt = satInc c.evt.legalCnt ∧ P d)
    let ended := fun (d : Chip) => (c.ticketOut p.ticket).isSome = true → p.ticket ≠ 0 →
      d.tix.done.head? = some (p.ticket, 0)
    let counts := fun (code : Nat) (d : Chip) =>
      (Tbl.get {} d.evt.src code).cnt = satInc (Tbl.get {} c.evt.src code).cnt
    (writes m 0x30000 (BitVec.ofNat 32 (2 ^ 28 + g.toNat)) c → g.toNat < 12 →
      c.commitRefusal m.val g.toNat = some st →
      completes (.cfgCommit m g) s (fun d => (d.master m.val).cfgStat = st ∧ d.cfg = c.cfg ∧
        keepsBut [.masters, .hint] c d)) ∧
    (writes m 0x30000 (BitVec.ofNat 32 (2 ^ 28 + 5)) c → c.commitRefusal m.val 5 = none →
      c.checkGroup 5 = [] → c.drv.badLatch ≠ 0 →
      completes (.cfgCommit m 5) s (fun d => (d.master m.val).cfgStat = stINTEGRITY ∧ d.cfg = c.cfg ∧
        keepsBut [.masters, .hint] c d)) ∧
    (due → legalGroup p.kind = true → (p.words.map Prod.fst).Nodup → effect (fun d =>
      (∀ w ∈ p.words, d.live w.1 = w.2) ∧ (∀ b, b ∉ p.words.map Prod.fst → d.live b = c.live b) ∧
      Tbl.get 0 d.cfg.ref p.kind = d.groupCrc p.kind ∧
      (c.cfgOwner p.kind = some p.arg → d.cfgOwner p.kind = none) ∧ ended d)) ∧
    (due → p.kind = 0x100 → effect (fun d => (d.tap p.arg).arb = 1 ∧ (d.tap p.arg).disagree = false ∧
      (d.tap p.arg).rounds = 0 ∧ (∀ j, j ≠ p.arg → d.tap j = c.tap j) ∧ d.cfg.live = c.cfg.live)) ∧
    (due → p.kind = 0x102 → effect (fun d => d.sys.commission = decide (p.arg ≠ 0) ∧ d.taps = c.taps ∧
      d.cfg.live = c.cfg.live ∧ ended d)) ∧
    (c.cfg.pend = [] → answers .legalChangeApply s c) ∧
    (c.rdy rSV = true → c.cfg.loaded = true →
      let right := c.crcAfter k.val bad = Tbl.get 0 c.cfg.ref k.val
      (c.crcAfter k.val [] = c.groupCrc k.val) ∧
      (right → c.cfg.mismatch.getLsbD k.val = false →
        completes (.cfgCrcPass k bad) s (fun d => d.cfg = c.cfg ∧ keepsBut [] c d)) ∧
      (right → c.cfg.mismatch.getLsbD k.val = true → completes (.cfgCrcPass k bad) s (fun d =>
        d.cfg.mismatch.getLsbD k.val = false ∧ d.cfg.persist.getLsbD k.val = false ∧
        (∀ j, j ≠ k.val → d.cfg.mismatch.getLsbD j = c.cfg.mismatch.getLsbD j) ∧ d.cfg.live = c.cfg.live ∧
        counts 0x0302 d ∧ keepsBut [.cfg, .evt, .ferry, .hint] c d)) ∧
      (¬ right → c.cfg.mismatch.getLsbD k.val = false → completes (.cfgCrcPass k bad) s (fun d =>
        d.cfg.mismatch.getLsbD k.val = true ∧ counts 0x0301 d ∧
        (∀ b, groupOf b = some k.val → d.live b = wordOf c.genWords b) ∧
        (∀ b, groupOf b ≠ some k.val → d.live b = c.live b)))) ∧
    (c.cfg.mismatch.getLsbD k.val = true → c.cfg.persist.getLsbD k.val = false →
      completes (.cfgPersist k) s (fun d => d.cfg.persist.getLsbD k.val = true ∧ counts 0x0303 d ∧
        d.cfg.mismatch = c.cfg.mismatch ∧ d.cfg.live = c.cfg.live ∧
        d.sys.qcause.getLsbD 0 = (c.sys.qcause.getLsbD 0 || legalGroup k.val) ∧
        (legalGroup k.val = true → c.sys.starting = false → c.retired = false → d.sys.mode = 6))) ∧
    ((c.cfg.mismatch.getLsbD k.val = false ∨ c.cfg.persist.getLsbD k.val = true) → answers (.cfgPersist k) s c))

/-- R44, R45, R46: a ticket that completes leaves the outstanding ones and its state shows its status; one that is
cancelled completes ABORTED, whatever its operation, but for the commands whose chapters call them uncancellable,
which answer DENIED; one that is not outstanding answers STALE; NOP only acknowledges. -/
def Obligations.Tickets : Prop :=
  ∀ (t : W16) (st : W8) (res : W32) (x : Ticket) (r : CmdReq) (s : State), Settled s →
    let c := s.chip
    let fixed := [0x0003, 0x0601, 0x0603, 0x0802, 0x1006, 0x100A, 0x1103]
    (c.ticketOut t = some x → x.code.toNat / 256 ≠ 0x10 → completes (.ticketCompletion t st res) s (fun d =>
      d.tix.out = c.tix.out.filter (fun y => y.no != t) ∧ d.tix.done.head? = some (t, st) ∧
      d.tix.next = c.tix.next)) ∧
    (takes rowTicketCancel r c → r.a0.toNat % 65536 = t.toNat →
      (c.ticketOut t = some x → x.code.toNat ∉ fixed → completes (.ticketCancel r) s (fun d => acked r 0 0 d ∧
        d.tix.out = c.tix.out.filter (fun y => y.no != t) ∧ d.tix.done.head? = some (t, 0x0A) ∧
        d.tix.next = c.tix.next)) ∧
      (c.ticketOut t = some x → x.code.toNat ∈ fixed → completes (.ticketCancel r) s (fun d => acked r 0x04 0 d ∧
        keepsBut [.masters, .hint] c d)) ∧
      (c.ticketOut t = none → completes (.ticketCancel r) s (fun d => acked r 0x09 0 d ∧
        keepsBut [.masters, .hint] c d))) ∧
    (takes rowNop r c → completes (.nop r) s (fun d => acked r 0 0 d ∧ keepsBut [.masters, .hint] c d))

/-- R44, R341, R342, R343, R346, R353, R355: the ticket of a key operation completes it, in the order of its checks: a
password login opens the session of a right password and fails with AUTH otherwise, KEY_PASSWD writes the verifier,
KEY_REPLACE and KEY_DERIVE write their slot; KEY_UPDATE and KEY_LC_SET, whose work is done, report its result. The status
and result that the row carries belong to the other operations. That these take effect at their ticket's completion is the model's choice (logs 24, 145). -/
def Obligations.KeyOperationsComplete : Prop :=
  ∀ (t : W16) (st : W8) (res : W32) (x : Ticket) (j : KeyJob) (k : List W8) (s : State), Settled s →
    let c := s.chip
    let i := x.arg
    let m := x.master
    let a := c.acct i
    let h := (c.kslot i).half
    let p := j.a1.toNat % 64
    let ph := (c.kslot p).half
    let typ := j.a3.toNat / 2 ^ 28
    let dest := j.a3.toNat % 32
    let pw := j.buf.take j.a1.toNat
    let wrap := if h.typ = 1 then 24 else 40
    let mat := (c.kslot a.slot.toNat).half.mat
    let right := c.slotUsable a.slot.toNat = true ∧ c.slotCls a.slot.toNat = 7 ∧
      (c.kslot a.slot.toNat).half.typ = 6 ∧ digBytes (Config.pbkdf2 (mat.take 16) pw) = mat.drop 16
    let ends := fun (z : W8) (P : Chip → Prop) => completes (.ticketCompletion t st res) s (fun d =>
      d.tix.out = c.tix.out.filter (fun y => y.no != t) ∧ d.tix.done.head? = some (t, z) ∧
      d.key.pending = c.key.pending.filter (fun y => y.ticket != t) ∧ P d)
    c.ticketOut t = some x → x.no = t → c.key.pending.find? (fun y => y.ticket == t) = some j → c.rdy rKEYS = true →
    ((x.code = 0x1006 ∨ x.code = 0x100A) → ends j.st (fun d => d.key.slots = c.key.slots ∧ d.key.lc = c.key.lc)) ∧
    (x.code = 0x1002 → i < 16 → (c.acct (c.failIx i)).lockTo ≤ c.now → a.en = true →
      (right → (c.master m).sess = x.sess → (m = 0 ∨ (c.master m).conn = true) →
        ends 0 (fun d => (d.master m).role = a.role ∧ (d.master m).account.toNat = i ∧
          (d.master m).sess = (c.master m).sess + 1 ∧ (d.acct i).fails = 0)) ∧
      (¬ right → c.slotState a.slot.toNat ≠ 2 → ends 0x05 (fun d => (d.master m).role = (c.master m).role ∧
        (d.acct (c.failIx i)).fails = min ((c.acct (c.failIx i)).fails + 1) 15))) ∧
    (x.code = 0x1004 → a.en = true → a.method = 0 → 2 ≤ a.slot.toNat →
      (∀ b ∈ pw, 0x20 ≤ b.toNat ∧ b.toNat ≤ 0x7E) → ends 0 (fun d =>
        let v := (d.kslot a.slot.toNat).half
        v.gen = (c.kslot a.slot.toNat).lastGen + 1 ∧ v.cls = 7 ∧ v.typ = 6 ∧
        v.mat.drop 16 = digBytes (Config.pbkdf2 (v.mat.take 16) pw))) ∧
    (x.code = 0x1007 → i < 64 → (c.kslot i).empty = false → h.compat = true → (h.typ = 1 ∨ h.typ = 2) →
      j.a1.toNat = wrap + 4 → c.slotUsable i = true →
      (Config.unwrap h.mat (j.buf.take wrap) = some k → Config.kcv k = slice j.buf wrap 4 → ends 0 (fun d =>
        (d.kslot i).half.gen = h.gen + 1 ∧ (d.kslot i).half.cls = h.cls ∧ (d.kslot i).half.typ = h.typ)) ∧
      (Config.unwrap h.mat (j.buf.take wrap) = some k → Config.kcv k ≠ slice j.buf wrap 4 →
        ends 0x12 (fun d => d.key.slots = c.key.slots)) ∧
      (Config.unwrap h.mat (j.buf.take wrap) = none → ends 0x05 (fun d => d.key.slots = c.key.slots))) ∧
    (x.code = 0x1009 → 0 < j.a2.toNat → j.a2.toNat ≤ 64 → 2 ≤ i → i < 64 → 2 ≤ p → p ≠ 0x3F → i ≠ p → c.slotState i ≠ 1 →
      (c.kslot p).empty = false → c.slotUsable p = true → 1 ≤ ph.typ → ph.typ ≤ 3 → 1 ≤ typ → typ ≤ 3 →
      keyFits ph.cls typ dest = true → (dest &&& ph.dest.toNat) = dest → ends 0 (fun d =>
        let e := (d.kslot i).half
        e.gen = (c.kslot i).lastGen + 1 ∧ e.cls = ph.cls ∧ e.typ = typ ∧ e.dest.toNat = dest ∧
        e.parent.toNat = p ∧ e.pgen = ph.gen))

/-- R43, R418: every command checks, before its own description, first the mode, then the session and its
role, then readiness, and the first refusal is its status; the code written before the acknowledgement of
the previous command is lost. A refused command changes nothing but the command bank. In CHANGEOVER the write
of the code is turned away at the window and leaves nothing behind (log 149). -/
def Obligations.CommandRefusals : Prop :=
  ∀ p ∈ commandRows, ∀ (r : CmdReq) (s : State), Settled s →
    let c := s.chip
    let x := p.2
    let refused := fun (st : W8) => completes (p.1 r) s (fun d => acked r st 0 d ∧ keepsBut [.masters, .hint] c d)
    (c.hears r.m.val = true → c.sys.changeover = true → answers (p.1 r) s c) ∧
    (c.hears r.m.val = true → c.sys.changeover = false → c.sys.dead.getLsbD 3 = false →
    ((r.early && (c.master r.m.val).ack) = true → completes (p.1 r) s (fun d =>
      (d.master r.m.val).lost = true ∧ (d.master r.m.val).ack = true ∧ keepsBut [.masters] c d)) ∧
    ((r.early && (c.master r.m.val).ack) = false →
      (c.cmdClosed x r = true → refused 0x0C) ∧
      (c.cmdClosed x r = false → c.cmdAllowed x r = false → refused 0x04) ∧
      (c.cmdClosed x r = false → c.cmdAllowed x r = true → (∃ i ∈ x.bits, c.rdy i = false) → refused 0x02)))

/-- R46, R377, R378, R381, R212: NOP, TICKET_CANCEL, SYS_MODE_SET, SYS_QUAR_CLR, SYS_RESTART and HOLDUP_TEST where
nothing refuses them. -/
def Obligations.SystemCommands : Prop :=
  ∀ (r : CmdReq) (s : State), Settled s →
    let c := s.chip
    (takes rowNop r c → completes (.nop r) s (fun d => acked r 0 0 d ∧ keepsBut [.masters, .hint] c d)) ∧
    (∀ x, takes rowTicketCancel r c → c.ticketOut (BitVec.ofNat 16 r.a0.toNat) = some x →
      x.master = r.m.val → x.sess = (c.master r.m.val).sess → x.code = 0x1301 → c.pendOf x.no = none →
      x.no = BitVec.ofNat 16 r.a0.toNat →
      completes (.ticketCancel r) s (fun d => acked r 0 0 d ∧
        d.tix.out = c.tix.out.filter (fun y => y.no != x.no) ∧ d.tix.done.head? = some (x.no, 0x0A) ∧
        d.pair.switchT = 0)) ∧
    (takes rowSysModeSet r c → c.tixFull = false → c.tamper.lsw = true →
      (r.a0.getLsbD 0 = true ∨ c.key.lc = 2) →
      completes (.sysModeSet r) s (fun d => pends r 0x0001 (r.a0.toNat % 2) c d ∧
        { kind := 0x102, arg := r.a0.toNat % 2, ticket := c.tix.next, stamp := some (c.stampAfter 1)
          engines := BitVec.ofNat 8 c.runMask : PendCommit } ∈ d.cfg.pend ∧
        d.sys.commission = c.sys.commission)) ∧
    (takes rowSysQuarClr r c → (∃ i, i < 4 ∧ r.a0.getLsbD i = true ∧ c.sys.qcause.getLsbD i = true) →
      (∀ i, i < 4 → r.a0.getLsbD i = true → c.causePresent i = false) →
      completes (.sysQuarClr r) s (fun d => acked r 0 0 d ∧
        ∀ i, i < 4 → d.sys.qcause.getLsbD i = (c.sys.qcause.getLsbD i && !r.a0.getLsbD i))) ∧
    (takes rowSysRestart r c → c.tixFull = false → c.sys.changeover = false → c.onTrial = false →
      completes (.sysRestart r) s (fun d => pends r 0x0003 0 c d ∧
        d.power = { c.power with pAt := some ((c.power.pAt).getD (c.stampAfter 1)) } ∧
        keepsBut [.masters, .hint, .tix, .power] c d)) ∧
    (takes rowHoldupTest r c → c.tixFull = false → c.sys.changeover = false → c.power.onAux = false →
      c.power.holdupChg = false → c.power.testRun = false → c.power.testTicket = 0 → c.powered = true →
      (∀ t, c.power.chargedAt = some t → t + 160000 ≤ c.now) →
      completes (.holdupTest r) s (fun d => pends r 0x0010 0 c d ∧
        d.power =
          { c.power with charger := false, testRun := true, testDue := false, testTicket := c.tix.next } ∧
        keepsBut [.masters, .hint, .tix, .power] c d))

/-- The commands of the metering taps and the quantity engines (03, 04) where nothing refuses them. -/
def Obligations.TapAndEngineCommands : Prop :=
  ∀ (r : CmdReq) (st : Staging) (s : State), Settled s →
    let c := s.chip
    let n := r.a0.toNat % 128
    let k := r.a0.toNat % 8
    let i := r.a0.toNat
    let bits := ((List.range 16).filter (fun j => r.a1.getLsbD j)).length
    (takes rowTapRefNow r c → c.tixFull = false → (c.tap n).arb ≠ 4 → (c.tap n).arb ≠ 6 →
      c.tapMode n ≠ mOFF → (c.tap n).refBusy = false → (c.tap n).roundTicket = 0 →
      completes (.tapRefNow r) s (fun d => pends r 0x0401 n c d ∧
        d.tap n = { c.tap n with roundTicket := c.tix.next, roundDue := true, routine := false } ∧ (∀ j, j ≠ n → d.tap j = c.tap j) ∧
        keepsBut [.masters, .hint, .tix, .taps] c d)) ∧
    (takes rowTapChainReset r c → (c.master r.m.val).role = 4 → c.tamper.lsw = true → c.tapMode n ≠ mOFF →
      (c.tap n).arb ≠ 1 →
      completes (.tapChainReset r) s (fun d => acked r 0 0 d ∧ d.taps = c.taps ∧
        { kind := 0x100, arg := n, stamp := some (c.nextSample (n / 16))
          engines := BitVec.ofNat 8 (2 ^ (n / 16)) : PendCommit } ∈ d.cfg.pend)) ∧
    (takes rowTapGlitchClr r c → completes (.tapGlitchClr r) s (fun d => acked r 0 0 d ∧
      d.tap n = { c.tap n with glitch := 0 } ∧ (∀ j, j ≠ n → d.tap j = c.tap j) ∧
      keepsBut [.masters, .hint, .taps] c d)) ∧
    (takes rowQeRestart r c → c.tixFull = false → ((c.eng k).run = 6 ∨ (c.eng k).run = 7) →
      completes (.qeRestart r) s (fun d => pends r 0x0501 k c d ∧
        d.eng k = { c.eng k with run := 5, reloaded := false, restarts := [], resume := true,
                                 stoppedRun := (c.eng k).run, restartTicket := c.tix.next } ∧
        (∀ j, j ≠ k → d.eng j = c.eng j) ∧ keepsBut [.masters, .hint, .tix, .engs] c d)) ∧
    (takes rowQeCntClr r c → completes (.qeCntClr r) s (fun d => acked r 0 0 d ∧
      d.eng k =
        { c.eng k with
            stallCnt := 0, stallMax := 0, ssCtx := 0, ssLock := 0, forced := 0, lateCnt := 0, gateSkip := 0,
            inPlace := 0, cycMax := 0 } ∧
      (∀ j, j ≠ k → d.eng j = c.eng j) ∧ keepsBut [.masters, .hint, .engs] c d)) ∧
    (takes rowQeTrace r c → (c.fq 7).owner = some r.m.val →
      completes (.qeTrace r) s (fun d => acked r 0 0 d ∧
        d.eng k = { c.eng k with traceOn := r.a1.getLsbD 0 } ∧ keepsBut [.masters, .hint, .engs] c d)) ∧
    (takes rowQeTapRecord r c → c.tixFull = false → 1 ≤ bits → bits ≤ 4 → 0 < r.a2.toNat → r.a2.toNat ≤ 600000 → (c.eng k).run = 2 → (c.fq 7).owner = some r.m.val →
      (c.eng k).recMask = 0 →
      completes (.qeTapRecord r) s (fun d => pends r 0x0506 k c d ∧
        d.eng k = { c.eng k with recMask := BitVec.ofNat 16 r.a1.toNat, recTicket := c.tix.next, recDrop := 0 } ∧
        keepsBut [.masters, .hint, .tix, .engs] c d)) ∧
    (takes rowQeImgInstall r c → c.tixFull = false → c.imgGate r.m.val i = none →
      c.stagedImg 2 (r.a1.toNat % 65536) = some st → imgRefusal tallyOk st.plain = none →
      c.imgRecovery i = false →
      completes (.qeImgInstall r) s (fun d => acked r 0x01 c.tix.next d ∧ d.img i = imgOf st.plain ∧
        (∀ j, j ≠ i → d.img j = c.img j) ∧ d.evt.legalCnt = satInc c.evt.legalCnt ∧
        d.engs = c.engs)) ∧
    (takes rowQeImgRemove r c → c.imgGate r.m.val i = none → (c.img i).installed = true →
      completes (.qeImgRemove r) s (fun d => acked r 0 0 d ∧ d.img i = {} ∧ (∀ j, j ≠ i → d.img j = c.img j) ∧
        d.evt.legalCnt = satInc c.evt.legalCnt ∧
        keepsBut [.masters, .hint, .lib, .evt, .ferry, .tamper, .ledger] c d))

/-- The commands of the billing block, the tariffs and the clock (08, 09) where nothing refuses them. -/
def Obligations.BillingCommands : Prop :=
  ∀ (r : CmdReq) (m : Nat) (s : State), Settled s →
    let c := s.chip
    let d64 : Int := r.a0.toNat * 1000000000 + (r.a1.toNat % 2 ^ 30 : Nat) - c.civil c.now
    (takes rowBillClose r c → c.tixFull = false →
      completes (.billClose r) s (fun d => pends r 0x0601 0 c d ∧
        d.bill = { c.bill with closeT := c.bill.closeT ++ [(c.tix.next, c.stampAfter 1)] } ∧
        (∃ p ∈ d.save.pendTime, p.kind = 4 ∧ p.stamp = c.stampAfter 1))) ∧
    (takes rowBillSessClose r c → c.sessMp r.a0 = some m → (c.session m).no ≠ 0 →
      (c.session m).closeSix = none → c.mpRuns m = true →
      completes (.billSessClose r) s (fun d => acked r 0 0 d ∧
        (d.session m).closeSix = some (c.stampAfter 1) ∧ (d.session m).reason = 0x11)) ∧
    (takes rowBillZero r c → c.tixFull = false → (c.master r.m.val).role = 4 → c.tamper.lsw = true →
      c.commCond = true →
      completes (.billZero r) s (fun d => pends r 0x0603 0 c d ∧ d.bill.qty = c.bill.qty ∧
        d.bill.cost = c.bill.cost ∧
        ({ kind := 0x101, ticket := c.tix.next, stamp := some (c.stampAfter 1) } : PendCommit) ∈ d.cfg.pend)) ∧
    (takes rowBillLpRead r c → c.tixFull = false → c.cb (0x60400 + 4 * (r.a0.toNat % 256)) 31 = true →
      0 < r.a2.toNat → r.a2.toNat ≤ 9600 → (c.fq 1).owner = some r.m.val →
      completes (.billLpRead r) s (fun d => acked r 0x01 c.tix.next d ∧ d.bill = c.bill ∧
        d.tix.done.head? = some (c.tix.next, 0))) ∧
    (takes rowTariffSchedule r c → c.tariff.sched = none → tariffBad c.tariff.pas = none →
      c.civil c.now + 2000000000 ≤ (r.a0.toNat : Int) * 1000000000 →
      ((r.a0.toNat : Int) + c.zoning.std) % max 1 ((c.demandCfg.toNat % 64 * 60 : Nat) : Int) = 0 →
      completes (.tariffSchedule r) s (fun d => acked r 0 0 d ∧
        d.tariff = { c.tariff with sched := some r.a0.toNat, stamp := none } ∧
        keepsBut [.masters, .hint, .tariff, .ledger] c d)) ∧
    (∀ u, takes rowTariffUnschedule r c → c.actAt = some u → c.civil c.now + 1000000000 ≤ u →
      c.tariff.stamp = none →
      completes (.tariffUnschedule r) s (fun d => acked r 0 0 d ∧
        d.tariff = { c.tariff with sched := none } ∧ keepsBut [.masters, .hint, .tariff] c d)) ∧
    (takes rowTariffCopy r c → c.tariff.sched = none →
      completes (.tariffCopy r) s (fun d => acked r 0 0 d ∧
        d.tariff = { c.tariff with pas := c.tariff.act } ∧ keepsBut [.masters, .hint, .tariff] c d)) ∧
    (takes rowTimeAdjust r c → r.a0.toInt ≠ 0 → -1000000 ≤ r.a0.toInt → r.a0.toInt ≤ 1000000 →
      c.time.srcState ≠ 3 →
      completes (.timeAdjust r) s (fun d => acked r 0 0 d ∧ d.time.slewRem = r.a0.toInt * 1000 ∧
        d.time.six = c.time.six ∧ d.time.valid = c.time.valid ∧
        (c.cb 0x80000 31 = false → d.time.srcState = 4))) ∧
    (takes rowTimeSet r c → c.tixFull = false → r.a1.toNat % 2 ^ 30 < 1000000000 → c.roleNo r.m.val = 3 →
      (c.time.srcState ≠ 3 ∨ c.time.valid = false) → c.time.step = none → 1000000000 < d64 →
      completes (.timeSet r) s (fun d => pends r 0x0802 0 c d ∧
        d.time.step = some { stamp := c.stampAfter 1, ofs := d64, ticket := c.tix.next } ∧
        d.time.six = c.time.six))

/-- The commands of the event log, the ledger, the ferry queues and the display (10, 11) where nothing
refuses them: EVT_READ and LEDGER_READ send what is kept and complete, EVT_CNT_CLR clears a counter,
LEDGER_ACK moves the acknowledged number, FERRY_TEST starts a parity test, DISP_TEST lights the display. -/
def Obligations.RecordCommands : Prop :=
  ∀ (r : CmdReq) (s : State), Settled s →
    let c := s.chip
    let start := r.a1.toNat * 2 ^ 32 + r.a0.toNat
    let code := r.a0.toNat % 65536
    let q := r.a0.toNat % 8
    (takes rowEvtRead r c → c.tixFull = false → 0 < r.a2.toNat → r.a2.toNat < 65536 →
      (c.fq 3).owner = some r.m.val → completes (.evtRead r) s (fun d => acked r 0x01 c.tix.next d ∧
        d.tix.done.head? = some (c.tix.next, 0) ∧
        keepsBut [.masters, .tix, .hint, .evt, .ferry] c d)) ∧
    (takes rowEvtCntClr r c → evtCodes.contains code = true → completes (.evtCntClr r) s (fun d =>
      acked r 0 0 d ∧ (Tbl.get ({} : EvtSrc) d.evt.src code).cnt = 0 ∧
      (Tbl.get ({} : EvtSrc) d.evt.src code).first = 0 ∧ (Tbl.get ({} : EvtSrc) d.evt.src code).last = 0 ∧
      (Tbl.get ({} : EvtSrc) d.evt.src code).mCnt = 0 ∧
      (∀ j, j ≠ code → Tbl.get ({} : EvtSrc) d.evt.src j = Tbl.get {} c.evt.src j) ∧
      d.evt.log = c.evt.log ∧ keepsBut [.masters, .hint, .evt] c d)) ∧
    (takes rowLedgerRead r c → c.tixFull = false → 0 < r.a2.toNat → r.a2.toNat ≤ 4096 →
      (c.fq 1).owner = some r.m.val →
      (c.ledger.seq.toNat ≤ start ∨ c.ledger.recs.any (fun x => x.seq.toNat == start) = true) →
      completes (.ledgerRead r) s (fun d => acked r 0x01 c.tix.next d ∧ d.ledger = c.ledger ∧
        d.tix.done.head? = some (c.tix.next, 0))) ∧
    (takes rowLedgerAck r c → start < c.ledger.seq.toNat → (∀ a, c.ledger.acked = some a → a ≤ start) →
      completes (.ledgerAck r) s (fun d => acked r 0 0 d ∧
        d.ledger = { c.ledger with acked := some start, wrapRaised := false } ∧
        keepsBut [.masters, .hint, .ledger] c d)) ∧
    (takes rowFerryTest r c → c.tixFull = false → (c.fq q).held = 0 → (c.fq q).testing = false →
      completes (.ferryTest r) s (fun d => pends r 0x0A01 q c d ∧
        d.fq q = { c.fq q with testing := true } ∧ (d.fq q).inParity = true ∧ (∀ j, j ≠ q → d.fq j = c.fq j) ∧
        keepsBut [.masters, .hint, .tix, .ferry] c d)) ∧
    (takes rowDispTest r c → completes (.dispTest r) s (fun d => acked r 0 0 d ∧
      d.disp = { c.disp with test := 1 } ∧ keepsBut [.masters, .hint, .disp] c d))

/-- The commands of the bay and the drives (12, 13) where nothing refuses them. -/
def Obligations.BayAndDriveCommands : Prop :=
  ∀ (r : CmdReq) (st : Staging) (s : State), Settled s →
    let c := s.chip
    let i := r.a0.toNat
    let n := r.a0.toNat % 64
    (takes rowBaySignal r c → (c.bay.run = 2 ∨ c.bay.run = 3) → completes (.baySignal r) s (fun d =>
      acked r 0 0 d ∧ d.bay.hsSeq = c.bay.hsSeq + 1 ∧ Mem.rd64 d.bay.mem 0x7C000 = d.bay.hsSeq ∧
      Mem.rd64 d.bay.mem 0x7C008 = BitVec.ofNat 64 (i % 65536) ∧
      Mem.rd64 d.bay.mem 0x7C010 = r.a2 ++ r.a1 ∧ d.bay.events.getLsbD 24 = true ∧
      (∀ j, (j < 0x7C000 ∨ 0x7C018 ≤ j) → Mem.rd d.bay.mem j = Mem.rd c.bay.mem j) ∧
      keepsBut [.masters, .hint, .bay] c d)) ∧
    (takes rowBayRestart r c → c.tixFull = false → c.bayEn = true → completes (.bayRestart r) s (fun d =>
      acked r 0x01 c.tix.next d ∧ d.bay.run = 4 ∧ d.bay.core.busy = false ∧ d.bay.faults = [] ∧
      c.tix.next ∈ d.bay.restartTickets ∧ d.bay.pilotReq = 0xFFFF ∧ d.sys.ready.getLsbD 17 = false)) ∧
    (takes rowBayTripClr r c → c.tripPresent = false → completes (.bayTripClr r) s (fun d =>
      acked r 0 0 d ∧ d.bay.trip = false ∧ d.bay.tripCause = 0 ∧ d.bay.run = c.bay.run)) ∧
    (takes rowBayImgInstall r c → c.tixFull = false → i < 4 → c.bayLocked i = false →
      c.stagedImg 3 (r.a1.toNat % 65536) = some st → imgRefusal bayImgOk st.plain = none →
      completes (.bayImgInstall r) s (fun d => acked r 0x01 c.tix.next d ∧ d.bayImg i = imgOf st.plain ∧
        (∀ j, j ≠ i → d.bayImg j = c.bayImg j) ∧ d.tix.done.head? = some (c.tix.next, 0))) ∧
    (takes rowBayImgRemove r c → i < 4 → c.bayLocked i = false → completes (.bayImgRemove r) s (fun d =>
      acked r 0 0 d ∧ (d.bayImg i).installed = false ∧ (∀ j, j ≠ i → d.bayImg j = c.bayImg j) ∧
      keepsBut [.masters, .hint, .bay] c d)) ∧
    (takes rowDrvClr r c → n < 48 → (c.drive n).tj < 150 → completes (.drvClr r) s (fun d =>
      acked r 0 0 d ∧
      d.drive n = { c.drive n with therm := false, ocLock := false, onAt := (d.drive n).onAt,
                                   retryLeft := BitVec.ofNat 4 (c.cf (aDcfg n) 20 4) } ∧
      (∀ j, j ≠ n → d.drive j = c.drive j) ∧ keepsBut [.masters, .hint, .drv] c d)) ∧
    (takes rowDrvReclaim r c → c.cfg.mismatch.getLsbD 5 = false → (∃ n, n < 48 ∧ 2 ≤ (c.drive n).phase.toNat) →
      completes (.drvReclaim r) s (fun d => acked r 0 0 d ∧ d.drv.failCg5 = false ∧ d.drv.lost = false ∧
        (∀ n, n < 48 → (d.drive n).phase = 0 ∧ (d.drive n).cmd = c.driveOn n) ∧
        keepsBut [.masters, .hint, .drv, .evt, .ferry] c d)) ∧
    (takes rowDrvTestNow r c → c.tixFull = false → n < 40 → completes (.drvTestNow r) s (fun d =>
      pends r 0x0D03 n c d ∧
      d.drive n = { c.drive n with ticket := c.tix.next,
                                   testing := if c.driveOn n = true ∧ c.drvOwner n ≠ 3 then 1 else 2 } ∧
      (∀ j, j ≠ n → d.drive j = c.drive j) ∧ keepsBut [.masters, .hint, .tix, .drv] c d))

/-- The commands of the plate tag and the reader (15) where nothing refuses them: a read and a write of a
block, a transfer that waits for a tag, the counters. -/
def Obligations.LinkCommands : Prop :=
  ∀ (r : CmdReq) (s : State), Settled s →
    let c := s.chip
    let b := r.a0.toNat % 256
    let p := c.link.plate
    let mine := (c.master r.m.val).role
    (takes rowLinkPtRead r c → c.retired = false → p.hold ≠ some b → completes (.linkPtRead r) s (fun d =>
      acked r 0 0 d ∧ (d.master r.m.val).ptVer = p.ver b ∧
      (∀ q ∈ (toWords (p.block b)).zipIdx, Tbl.get 0 (d.master r.m.val).linkBuf q.2 = q.1) ∧
      keepsBut [.masters, .hint] c d)) ∧
    (takes rowLinkPtWrite r c → 0x80 ≤ b → p.locked b = false → r.a0.getLsbD 31 = false →
      (p.hold ≠ some b → completes (.linkPtWrite r) s (fun d => acked r 0 0 d ∧
        d.link.plate = Plate.write b (c.linkBufBytes r.m.val) p ∧
        (d.master r.m.val).ptVer = d.link.plate.ver b ∧ keepsBut [.masters, .hint, .link] c d)) ∧
      (p.hold = some b → c.tixFull = false → completes (.linkPtWrite r) s (fun d =>
        acked r 0x02 c.tix.next d ∧ d.link.plate.queue.length = p.queue.length + 1 ∧
        d.link.plate.ver b = p.ver b ∧ keepsBut [.masters, .hint, .tix, .link] c d))) ∧
    (takes rowLinkXfer r c → c.tixFull = false → mine ≠ 0 → (c.fq 4).owner = some r.m.val → c.fq4Holds = false →
      completes (.linkXfer r) s (fun d => pends r 0x0F03 0 c d ∧
        (∃ x, d.link.xfers = c.link.xfers ++ [x] ∧ x.ticket = c.tix.next ∧ x.master = r.m.val ∧
          x.index = r.a0.toNat % 16 ∧ x.op = r.a1.extractLsb' 0 2 ∧ x.block = r.a1.extractLsb' 8 8 ∧
          x.key = r.a1.extractLsb' 16 2 ∧ x.data = c.linkBufBytes r.m.val) ∧
        keepsBut [.masters, .hint, .tix, .link] c d)) ∧
    (takes rowLinkCntClr r c → completes (.linkCntClr r) s (fun d => acked r 0 0 d ∧
      d.link = { c.link with cntCrc := 0, cntAuth := 0, cntOver := 0, cntUnsup := 0 } ∧
      keepsBut [.masters, .hint, .link] c d))

/-- R353, R354, R355: the session commands where nothing refuses them. KEY_CHALLENGE draws a nonce; a login with
its HMAC opens a new session with the account's role and clears its failures; an attempt against an
account that is not enabled fails and is counted in entry 16 (log 36); KEY_LOGOUT ends the session with its
landings, claims and shadows; a login with a password and KEY_PASSWD start the operation that their ticket
completes; KEY_ACCT_SET sets an account. -/
def Obligations.SessionCommands : Prop :=
  ∀ (r : CmdReq) (s : State), Settled s →
    let c := s.chip
    let m := r.m.val
    let a := r.a0.toNat % 16
    let x := c.acct a
    let me := c.master m
    let i := r.a1.toNat / 2 ^ 20 % 64
    let role := r.a1.extractLsb' 28 3
    let meth := r.a1.extractLsb' 26 2
    let starts := fun (code : Nat) (d : Chip) => pends r code a c d ∧
      d.key = { c.key with pending := c.key.pending ++
        [{ ticket := c.tix.next, a1 := r.a1, a2 := r.a2, a3 := r.a3, buf := c.keyBufBytes m }] } ∧
      keepsBut [.masters, .hint, .tix, .key] c d
    (takes rowKeyChallenge r c → completes (.keyChallenge r) s (fun d => acked r 0 0 d ∧
      (d.master m).nonce = c.draw128.1 ∧ (d.master m).nonceOk = true ∧ (d.master m).nonceSix = c.now ∧
      (d.master m).keyBuf = [] ∧ keepsBut [.masters, .hint, .free] c d)) ∧
    (takes rowKeyLogin r c → (c.acct (c.failIx a)).lockTo ≤ c.now → x.en = true → x.method = 1 →
      me.nonceOk = true → c.now ≤ me.nonceSix + 320000 → c.acctKey a 3 = 0 →
      digBytes (c.loginMac m a) = (c.keyBufBytes m).take 32 → completes (.keyLogin r) s (fun d =>
        acked r 0 0 d ∧ (d.master m).role = x.role ∧ (d.master m).account.toNat = a ∧
        (d.master m).sess = me.sess + 1 ∧ (d.master m).nonceOk = false ∧
        (d.acct a).fails = 0 ∧ (d.acct a).lockLen = 0 ∧ (∀ j, j ≠ a → d.acct j = c.acct j))) ∧
    (takes rowKeyLogin r c → (c.acct 16).lockTo ≤ c.now → x.en = false → completes (.keyLogin r) s (fun d =>
      acked r 0x05 0 d ∧ (d.acct 16).fails = min ((c.acct 16).fails + 1) 15 ∧
      (d.master m).role = me.role ∧ (∀ j, j ≠ 16 → d.acct j = c.acct j))) ∧
    (takes rowKeyLogout r c → completes (.keyLogout r) s (fun d => acked r 0 0 d ∧
      (d.master m).role = 0 ∧ (d.master m).account = 0xFF ∧ (d.master m).sess = me.sess + 1 ∧
      (∀ n ∈ landsOf m, d.land n = {}) ∧
      (∀ g, g < 12 → c.cfgOwner g = some m → d.cfgOwner g = none) ∧
      (∀ q, q < 8 → (c.fq q).owner = some m → (d.fq q).owner = none) ∧ d.cfg.live = c.cfg.live)) ∧
    (takes rowKeyLogin r c → c.tixFull = false → (c.acct (c.failIx a)).lockTo ≤ c.now → x.en = true → x.method = 0 →
      m ≠ 0 → 12 ≤ r.a1.toNat → r.a1.toNat ≤ 64 → c.slotState x.slot.toNat ≠ 2 →
      completes (.keyLogin r) s (fun d => starts 0x1002 d ∧ (d.master m).role = me.role)) ∧
    (takes rowKeyPasswd r c → c.tixFull = false → me.account.toNat = a → 12 ≤ r.a1.toNat → r.a1.toNat ≤ 64 →
      x.en = true → x.method = 0 → 2 ≤ x.slot.toNat →
      (∀ b ∈ (c.keyBufBytes m).take r.a1.toNat, 0x20 ≤ b.toNat ∧ b.toNat ≤ 0x7E) →
      completes (.keyPasswd r) s (starts 0x1004)) ∧
    (takes rowKeyAcctSet r c → c.retired = false → (me.role = 3 ∨ me.role = 5) → role ≠ 4 →
      (x.en = false ∨ x.role ≠ 4) → role.toNat ≤ 4 → role ≠ 0 → meth = 1 → 2 ≤ i → c.slotUsable i = true →
      c.slotCls i = 7 → (c.kslot i).half.typ = 3 → completes (.keyAcctSet r) s (fun d => acked r 0 0 d ∧
        d.acct a = { x with en := r.a1.getLsbD 31, role := role, method := meth, slot := BitVec.ofNat 6 i } ∧
        (∀ j, j ≠ a → d.acct j = c.acct j)))

/-- R341, R343, R345, R346, R347: the commands of the key slots where nothing refuses them: what KEY_UPDATE and
KEY_INVALIDATE leave in their slot, the anti-replay counter, the operations that KEY_REPLACE and KEY_DERIVE start
for their ticket to complete, and the life cycle. -/
def Obligations.KeySlotCommands : Prop :=
  ∀ (r : CmdReq) (x : Staging) (mat : List W8) (t : BitVec 3) (vendor lsw : Bool) (s : State), Settled s →
    let c := s.chip
    let i := r.a0.toNat % 64
    let p := r.a1.toNat % 64
    let h := (c.kslot i).half
    let ph := (c.kslot p).half
    let typ := r.a3.toNat / 2 ^ 28
    let dest := r.a3.toNat % 32
    let wrap := if h.typ = 1 then 24 else 40
    let ends := fun (res : Nat) (d : Chip) => acked r 0x01 c.tix.next d ∧
      d.key.pending = c.key.pending ++ [{ ticket := c.tix.next, st := 0, res := BitVec.ofNat 32 res }]
    let starts := fun (code : Nat) (d : Chip) => pends r code i c d ∧
      d.key = { c.key with pending := c.key.pending ++
        [{ ticket := c.tix.next, a1 := r.a1, a2 := r.a2, a3 := r.a3, buf := c.keyBufBytes r.m.val }] } ∧
      keepsBut [.masters, .hint, .tix, .key] c d
    (takes rowKeyUpdate r c → c.tixFull = false →
      c.upd.stagings.find? (fun y => y.ticket.toNat == r.a0.toNat % 65536 && y.kind == 4 && y.done) = some x →
      c.msgCheck r.m.val x.got = (0, mat) → completes (.keyUpdate r) s (fun d =>
        let j := leAt x.got 0x14 1
        ends (leAt x.got 0x18 4) d ∧ d.key.ctr.toNat = leAt x.got 0x10 4 ∧
        (d.kslot j).lastGen.toNat = leAt x.got 0x18 4 ∧
        (leAt x.got 0x1E 1 % 2 = 1 → (d.kslot j).empty = true) ∧
        (leAt x.got 0x1E 1 % 2 = 0 → (d.kslot j).half.gen.toNat = leAt x.got 0x18 4 ∧
          (d.kslot j).half.cls = leAt x.got 0x15 1 ∧ (d.kslot j).half.typ = leAt x.got 0x16 1) ∧
        (∀ y ∈ d.upd.stagings, y.ticket ≠ x.ticket))) ∧
    (takes rowKeyReplace r c → c.tixFull = false → (c.kslot i).empty = false → h.compat = true →
      (h.typ = 1 ∨ h.typ = 2) → r.a1.toNat = wrap + 4 → c.slotUsable i = true →
      completes (.keyReplace r) s (starts 0x1007)) ∧
    (takes rowKeyInvalidate r c → 2 ≤ i → (c.kslot i).empty = false → c.slotUsable i = true →
      completes (.keyInvalidate r) s (fun d => acked r 0 0 d ∧ (d.kslot i).empty = true ∧
        (d.kslot i).lastGen = (c.kslot i).lastGen ∧ d.key.lc = c.key.lc)) ∧
    (takes rowKeyDerive r c → c.tixFull = false → 0 < r.a2.toNat → r.a2.toNat ≤ 64 → 2 ≤ i → 2 ≤ p → p ≠ 0x3F →
      i ≠ p → c.slotState i ≠ 1 → (c.kslot p).empty = false → c.slotUsable p = true → 1 ≤ ph.typ → ph.typ ≤ 3 →
      1 ≤ typ → typ ≤ 3 → keyFits ph.cls typ dest = true → (dest &&& ph.dest.toNat) = dest →
      completes (.keyDerive r) s (starts 0x1009)) ∧
    (takes rowKeyLcSet r c → c.tixFull = false → r.a0.toNat % 16 = t.toNat → lcRow c.key.lc t = some (vendor, lsw) →
      ((c.master r.m.val).role = 5 ∨ (vendor = false ∧ (c.master r.m.val).role = 3)) →
      r.a1.toNat = c.sys.deviceId.toNat % 2 ^ 32 → (lsw = true → c.tamper.lsw = true) →
      (t = 2 → c.mayDeploy = true) →
      completes (.keyLcSet r) s (fun d => ends 0 d ∧ d.key.lc = t ∧
        (t = 4 → (d.master r.m.val).role = 0 ∧ d.key.kekSeed = 0 ∧ d.ledger.closed = true)))

/-- R357, R362, R367, R390: the commands of firmware and the pair where nothing refuses them; a staging that receives
nothing for 60 s completes TIMEOUT and a staged image that is not consumed goes. -/
def Obligations.UpdateCommands : Prop :=
  ∀ (r : CmdReq) (x : Staging) (t : W16) (s : State), Settled s →
    let c := s.chip
    let kind := r.a0.toNat % 16
    let o := c.otherSlot
    (takes rowUpdStage r c → c.tixFull = false → stageLimits kind r.a1.toNat = true → kind ≠ 1 → c.dramUsed < 4 →
      completes (.updStage r) s (fun d => pends r 0x1101 kind c d ∧
        d.upd = { c.upd with stagings := c.upd.stagings ++
          [{ ticket := c.tix.next, master := r.m.val, kind := kind, len := r.a1.toNat, at_ := c.now }] } ∧
        keepsBut [.masters, .hint, .tix, .upd] c d)) ∧
    (takes rowUpdStage r c → c.tixFull = false → stageLimits kind r.a1.toNat = true → kind = 1 →
      c.onTrial = false → c.sys.changeover = false → completes (.updStage r) s (fun d =>
        acked r 0x01 c.tix.next d ∧ d.upd.slot o = {} ∧ d.upd.slot (!o) = c.upd.slot (!o) ∧
        d.upd.stagings.getLast? =
          some { ticket := c.tix.next, master := r.m.val, kind := 1, len := r.a1.toNat, at_ := c.now })) ∧
    (takes rowUpdChunk r c → c.staging (r.a0.toNat % 65536) = some x → x.master = r.m.val → 0 < r.a2.toNat →
      r.a2.toNat ≤ 1024 → x.done = false → r.a1.toNat = x.got.length → r.a1.toNat + r.a2.toNat < x.len →
      completes (.updChunk r) s (fun d => acked r 0 0 d ∧
        (∃ y, d.staging (r.a0.toNat % 65536) = some y ∧ y.at_ = c.now ∧ y.len = x.len ∧ y.got = x.got ++
          ((List.range 256).flatMap (fun i =>
            wordBytes (Tbl.get 0 (c.master r.m.val).updBuf i))).take r.a2.toNat) ∧
        keepsBut [.masters, .hint, .upd] c d)) ∧
    (takes rowUpdActivate r c → c.tixFull = false → c.sys.changeover = false → c.retired = false →
      c.onTrial = false → (c.upd.slot o).st = 1 → (c.upd.slot o).legal = c.runImg.legal → c.power.onAux = false →
      c.power.holdupChg = false → c.power.holdupWeak = false → c.pair.formed = false → 3 ≤ c.roleNo r.m.val →
      completes (.updActivate r) s (fun d => acked r 0x01 c.tix.next d ∧ d.sys.changeover = true ∧
        (d.upd.slot o).st = 2 ∧ d.upd.bootSlot = o ∧ d.upd.coTicket = c.tix.next ∧ d.rdy rSV = false ∧
        d.sys.cause = 5)) ∧
    (takes rowUpdRevert r c → c.tixFull = false → c.sys.changeover = false → c.onTrial = true →
      completes (.updRevert r) s (fun d => acked r 0x01 c.tix.next d ∧ d.sys.changeover = true ∧
        (d.upd.slot c.upd.bootSlot).st = 4 ∧ d.upd.bootSlot = !c.upd.bootSlot ∧ d.upd.lastFail = 5 ∧
        d.rdy rSV = false ∧ d.sys.cause = 6)) ∧
    (takes rowUpdDiscard r c → r.a0.toNat % 65536 = 0 → (c.upd.slot o).st = 1 →
      completes (.updDiscard r) s (fun d => acked r 0 0 d ∧ d.upd.slot o = {} ∧
        d.upd.slot (!o) = c.upd.slot (!o) ∧ d.upd.stagings = c.upd.stagings ∧
        keepsBut [.masters, .hint, .upd] c d)) ∧
    (takes rowPairSwitch r c → c.tixFull = false → c.pair.role ≠ 2 → c.sys.changeover = false → c.rdy rPAIR = true →
      c.pair.pMode ≠ 0 → c.pair.switching = false → completes (.pairSwitch r) s (fun d =>
        pends r 0x1301 0 c d ∧ d.pair = { c.pair with switchT := c.tix.next } ∧
        keepsBut [.masters, .hint, .tix, .pair] c d)) ∧
    (c.staging t.toNat = some x → x.done = false → completes (.stagingTimeout t) s (fun d =>
      (∀ y ∈ d.upd.stagings, y.ticket ≠ t) ∧
      ((c.ticketOut t).isSome = true → d.tix.done.head? = some (t, 0x11)))) ∧
    (c.staging t.toNat = some x → x.done = true → completes (.stagedImageExpiry t) s (fun d =>
      (∀ y ∈ d.upd.stagings, y.ticket ≠ t) ∧ keepsBut [.upd] c d))

/-- R54, R57, R134, R224: one sample instant of a group enters its replay buffer as the newest, with the values its
conversion gives under the settings of that instant, and SIX follows; 16 codes come with it; a demand interval that
begins by then is latched, and a safe connection whose 1 ms has passed sends what it owes. A zero-crossing
timeout shows NOAC where a detector runs. Phase loss of a tap stands while the criterion of its meter point
names it. -/
def Obligations.SamplesAndZeroCrossings : Prop :=
  ∀ (k : Fin 8) (raw : Vector RawSample 16) (temp : Option W16) (t : TapNo) (m : MpNo) (n : Nat) (s : State),
    Settled s →
    let c := s.chip
    let z := c.nextSample k.val
    let degrees := match temp with
      | some v => v.toInt
      | none => (c.group k.val).temp.toInt
    (c.power.off = false → c.sys.stopAt = none → (c.eng k.val).recMask = 0 →
      completes (.afeSample k raw temp) s (fun d => (d.group k.val).newest = z ∧
        (∃ x, (d.group k.val).buf.head? = some x ∧ x.six = z ∧ x.taps = (List.range 16).map (fun i =>
          ((c.viewAt z).convert (16 * k.val + i) z (z - (c.group k.val).newest) degrees (raw.toList.getD i {})).2)) ∧
        d.time.six = max c.time.six z ∧ (∀ j, j ≠ k.val → d.group j = c.group j) ∧
        d.bill = { c.bill with aheadW := d.bill.aheadW } ∧
        ((∀ p ∈ c.save.pendTime, p.kind % 8 = 0 → p.stamp ≤ c.now ∨ d.now < p.stamp) → d.bill = c.bill) ∧
        d.safe = { c.safe with conns := d.safe.conns } ∧
        (∀ j, j < 16 → (c.escFree j = true ∨ ((c.conn j).st ≠ 1 ∧ (c.conn j).st ≠ 2)) → d.conn j = c.conn j) ∧
        keepsBut [.taps, .groups, .time, .bill, .safe] c d)) ∧
    (c.cb (aTapMode t.val) 5 = true → (c.tapMode t.val = mVOLT ∨ c.tapMode t.val = mCURR ∨ c.tapMode t.val = mROGO) →
      completes (.zcTimeout t) s (fun d =>
      d.tap t.val = { c.tap t.val with noac := true, zcPos := 0, zcNeg := 0 } ∧
      (∀ j, j ≠ t.val → d.tap j = c.tap j) ∧ keepsBut [.taps] c d)) ∧
    completes (.phaseLossCheck m) s (fun d =>
      (n ∈ c.phaseLost m.val → (d.trec 6).holders.any (fun h => h.1 == n) = true) ∧
      (n ∉ c.phaseLost m.val → n ∈ c.mpTaps m.val → (d.trec 6).holders.any (fun h => h.1 == n) = false) ∧
      (n ∉ c.mpTaps m.val → (d.trec 6).holders.any (fun h => h.1 == n) = (c.trec 6).holders.any (fun h => h.1 == n)) ∧
      keepsBut [.tamper, .ledger, .evt, .ferry, .hint] c d)

/-- R58, R59, R63, R65: the arbiter of a tap. A comparison window that counts and exceeds its limit adds to the
run, the third declares a disagreement and enters IDENT (2) with a round in the next window; one that does not
exceed clears the run; an excluded one changes neither; a round that waits starts with the new window; an over
range of the check chain in ON_CHECK (4) that the signal cannot explain ends in FAILED (6). R68: a fault class
that its mode can show is held once its criterion has held for its time, and clears once it has been absent for
1 s; the lowest held is shown. R65: OPEN, SHORT and EXCITATION on a tap in ON_PRIMARY (3) that the primary chain
shows and the check chain does not, each judged alone, end in FAILED. R60, R61, R63, R64: reference rounds. A routine slot asks for a round in NORMAL (1), IDENT (2) and ON_PRIMARY (3)
with REF_EN set and, whatever REF_EN holds, in UNRESOLVED (5), and for none in ON_CHECK (4) and FAILED (6); IDENT
asks for its own. A round starts at the beginning of a comparison window and waits for the next one elsewhere; one
that runs is not started again. A round that ends, routine, of an identification or commanded, leaves its outcome,
and completes its ticket with OK or INTEGRITY. One that fails in NORMAL enters IDENT as round 1. A round of an
identification then decides in this order: the third failure in a row ON_PRIMARY; the third pass in a row while
the disagreement is declared ON_CHECK; in IDENT a pass after three windows that did not exceed NORMAL; the tenth
round UNRESOLVED (where the counts in a row start at 0, log 176). -/
def Obligations.TapArbiter : Prop :=
  (∀ (t : TapNo) (cls : BitVec 4) (lost : Bool) (s : State), Settled s →
    let c := s.chip
    let n := t.val
    let x := c.tap n
    let tol := c.cf (0x40000 + 4 * (n / 16)) 8 8
    let mode := c.tapMode n
    let exceeds := if mode = mPULSE then 2 < (x.winP - x.winC).natAbs
      else x.winN * (tol * tol * (calU * calU).toNat) < x.winSq * 100000000
    let only := fun (d : Chip) => (∀ j, j ≠ n → d.tap j = c.tap j)
    let bit := fun (i : Nat) => (c.live (aTapMode n)).getLsbD i = true
    let fits := (cls = 1 ∧ c.oddOfPair n = false ∧
        (mode = mLOOP ∨ mode = mRTD ∨ (bit 11 ∧ mode ∈ [mVOLT, mCURR, mROGO, mBRIDGE]))) ∨
      (cls = 2 ∧ c.oddOfPair n = false ∧ (mode = mLOOP ∨ mode = mRTD)) ∨ (cls = 3 ∧ mode ≠ mOFF) ∨
      (cls = 4 ∧ mode = mLOOP) ∨ (cls = 5 ∧ ((mode = mLOOP ∧ bit 4) ∨ mode = mRTD ∨ mode = mBRIDGE))
    let now := (c.group (n / 16)).newest
    let held := fun (l : List CritRun) (i d : Nat) => l[i]?.any (fun u => u.on && decide (u.since + d ≤ now)) = true
    let gone := fun (i : Nat) => x.crit[i]?.any (fun u => !u.on && decide (u.since + 32000 ≤ now)) = true
    let due := (cls = 3 ∧ (5 ≤ x.winRun ∨ held x.crit 0 32000 ∨ held x.crit 3 0)) ∨
      (cls = 1 ∧ (held x.crit 1 32000 ∨ (lost = true ∧ mode = mRTD))) ∨
      (cls ≠ 1 ∧ cls ≠ 3 ∧ held x.crit cls.toNat 32000)
    let alone := ((cls = 1 ∨ cls = 2) ∧ held x.critP cls.toNat 32000 ∧ ¬ held x.critC cls.toNat 0) ∨
      (cls = 5 ∧ x.excP = true ∧ x.excC = false)
    let over_ := fun (j : Nat) => (j = 3 ∧ x.winRun ≤ -5 ∧ gone 0 ∧ gone 3) ∨
      (j = 1 ∧ gone 1 ∧ ¬ (lost = true ∧ mode = mRTD)) ∨ (j ≠ 1 ∧ j ≠ 3 ∧ gone j)
    let lowest := fun (y : Tap) => ∀ j, 1 ≤ j → j ≤ 5 →
      (y.fault.toNat = j ↔ y.held.getLsbD j = true ∧ ∀ i, 1 ≤ i → i < j → y.held.getLsbD i = false)
    let bad := c.checkUnexplained n
    let declared := x.winExcl = false ∧ exceeds ∧ 2 ≤ x.exceedRun ∧ x.disagree = false ∧ x.arb = 1
    let fx := keepsBut [.taps, .tamper, .ledger, .evt, .ferry, .hint] c
    (mode ≠ mOFF → x.arb ≠ 0 → completes (.cmpWindowEnd t) s (fun d =>
      let y := d.tap n
      y.winN = 0 ∧ y.winSq = 0 ∧ y.winP = 0 ∧ y.winC = 0 ∧ only d ∧
      (x.winExcl = true → y.cmpExceed = x.cmpExceed ∧ y.exceedRun = x.exceedRun ∧ y.clearRun = x.clearRun ∧
        y.disagree = x.disagree) ∧
      (x.winExcl = false → ¬ exceeds → y.cmpExceed = false ∧ y.exceedRun = 0 ∧ y.clearRun = x.clearRun + 1 ∧
        y.disagree = x.disagree) ∧
      (x.winExcl = false → exceeds → y.cmpExceed = true ∧ y.exceedRun = x.exceedRun + 1 ∧ y.clearRun = 0 ∧
        (y.disagree = true ↔ x.disagree = true ∨ 2 ≤ x.exceedRun)) ∧
      (bad = true → y.arb = 6 ∧ y.refBusy = false) ∧
      (bad = false → (declared → y.arb = 2) ∧ (¬ declared → y.arb = x.arb) ∧
        (y.refBusy = true ↔ x.refBusy = true ∨ x.roundDue = true ∨ declared) ∧ y.winExcl = y.refBusy) ∧
      keepsBut [.taps, .tix, .masters, .evt, .ferry, .hint] c d)) ∧
    ((mode = mOFF ∨ x.arb = 0) → answers (.cmpWindowEnd t) s c) ∧
    (x.arb ≠ 0 → fits → completes (.tapFaultDeclare t cls lost) s (fun d =>
      let y := d.tap n
      only d ∧ (∀ j, j ≤ 5 → (y.held.getLsbD j = true ↔ x.held.getLsbD j = true ∨ (due ∧ j = cls.toNat))) ∧
      (due → lowest y) ∧ (¬ due → y.fault = x.fault) ∧
      (x.arb = 3 ∧ alone → y.arb = 6) ∧ (¬ (x.arb = 3 ∧ alone) → y.arb = x.arb) ∧
      keepsBut [.taps, .tamper, .ledger, .tix, .masters, .evt, .ferry, .hint] c d)) ∧
    ((x.arb = 0 ∨ ¬ fits) → answers (.tapFaultDeclare t cls lost) s c) ∧
    completes (.tapFaultClear ⟨t, lost⟩) s (fun d =>
      let y := d.tap n
      only d ∧ y.arb = x.arb ∧
      (∀ j, 1 ≤ j → j ≤ 5 → (y.held.getLsbD j = true ↔ x.held.getLsbD j = true ∧ ¬ over_ j)) ∧
      (y.held = x.held → y = x) ∧ (y.held ≠ x.held → lowest y) ∧ fx d)) ∧
  (∀ (t : TapNo) (r : RefReading) (s : State), Settled s →
    let c := s.chip
    let n := t.val
    let x := c.tap n
    let starts := fun (i : Instr) (routine : Bool) =>
      let y := { x with roundDue := true, routine := routine && (!x.roundDue || x.routine) }
      completes i s (fun d =>
        d.tap n = (if x.winN = 0 then { y with refBusy := true, roundDue := false, winExcl := true,
                                               seen := x.hist.headD (0, 0) } else y) ∧
        (∀ j, j ≠ n → d.tap j = c.tap j) ∧ keepsBut [.taps] c d)
    let pass := roundPass (c.tapMode n == mPULSE) r
    let now := (c.group (n / 16)).newest
    let held := fun (l : List CritRun) (i d : Nat) => l[i]?.any (fun u => u.on && decide (u.since + d ≤ now)) = true
    let alone := fun (y : Tap) => (held y.critP 1 32000 ∧ ¬ held y.critC 1 0) ∨
      (held y.critP 2 32000 ∧ ¬ held y.critC 2 0) ∨ (y.excP = true ∧ y.excC = false)
    let counts := x.arb = 5 ∨ (x.arb = 2 ∧ x.routine = false)
    let rounds := satInc x.rounds
    let fails := if pass then 0 else x.failRun + 1
    let passes := if pass && x.disagree then x.passRun + 1 else 0
    (x.refBusy = false → (x.arb = 1 ∨ x.arb = 2 ∨ x.arb = 3) → c.cb 0x40020 31 = true →
      starts (.refRoundStart t) true) ∧
    (x.refBusy = false → x.arb = 5 → starts (.refRoundStart t) false) ∧
    (x.refBusy = false → x.arb = 2 → starts (.identRoundStart t) false) ∧
    ((x.arb = 0 ∨ x.arb = 4 ∨ x.arb = 6) → answers (.refRoundStart t) s c) ∧
    (x.arb ≠ 5 → c.cb 0x40020 31 = false → answers (.refRoundStart t) s c) ∧
    (x.arb ≠ 2 → answers (.identRoundStart t) s c) ∧
    (x.refBusy = true → answers (.refRoundStart t) s c ∧ answers (.identRoundStart t) s c) ∧
    (x.refBusy = false → answers (.refRoundEnd t r) s c) ∧
    (x.refBusy = true → completes (.refRoundEnd t r) s (fun d =>
      let y := d.tap n
      y.refBusy = false ∧ y.lastRound = (if pass then 1 else 2) ∧ y.routine = false ∧
      (∀ j, j ≠ n → d.tap j = c.tap j) ∧
      (x.roundTicket ≠ 0 → (c.ticketOut x.roundTicket).isSome = true → y.roundTicket = 0 ∧
        d.tix.done.head? = some (x.roundTicket, if pass then 0x00 else 0x12)) ∧
      (∀ e, r.exc = some e → x.routine = true → c.shares n = true → y.excBad = decide (1000 < e.dev.natAbs)) ∧
      (x.arb = 1 → pass = true → y.arb = 1 ∧ y.rounds = x.rounds ∧ y.passRun = x.passRun ∧ y.failRun = x.failRun) ∧
      (x.arb = 1 → pass = false → y.arb = 2 ∧ y.rounds = 1 ∧ y.failRun = 1 ∧ y.passRun = 0) ∧
      (x.arb ≠ 1 → ¬ counts → y.arb = x.arb ∧ y.rounds = x.rounds ∧ y.passRun = x.passRun ∧ y.failRun = x.failRun) ∧
      (counts → 3 ≤ fails → (alone y → y.arb = 6) ∧ (¬ alone y → y.arb = 3)) ∧
      (counts → fails < 3 → 3 ≤ passes → y.arb = 4) ∧
      (counts → fails < 3 → passes < 3 →
        (x.arb = 2 → 3 ≤ x.clearRun → pass = true → y.arb = 1 ∧ y.disagree = false) ∧
        (x.arb = 2 → (x.clearRun < 3 ∨ pass = false) → 10 ≤ rounds.toNat → y.arb = 5 ∧ y.rounds = 0 ∧
          y.passRun = 0 ∧ y.failRun = 0) ∧
        ((x.arb = 5 ∨ ((x.clearRun < 3 ∨ pass = false) ∧ rounds.toNat < 10)) → y.arb = x.arb ∧ y.rounds = rounds ∧
          y.passRun = passes ∧ y.failRun = fails)) ∧
      keepsBut [.taps, .tix, .masters, .evt, .ferry, .hint] c d)))

/-- R74, R78, R83, R79: a horizon never goes back; the oldest gate commits once every horizon allows it, which
makes its checkpoint the engine's and its instant c, and waits while one does not; a forced gate falls
due when the samples run 3,584 ahead, and ends a sidestep; a stalled head takes it where it stands and goes on; a stall
ends when the logs have room. -/
def Obligations.GatesAndHorizons : Prop :=
  ∀ (k : Fin 8) (src : Fin 4) (g : Gate) (rest : List Gate) (s : State), Settled s →
    let c := s.chip
    let q := c.eng k.val
    completes (.horizonPublish k src) s (fun d =>
      Tbl.get 0 q.hz src.val ≤ Tbl.get 0 (d.eng k.val).hz src.val ∧
      (src = 3 → Tbl.get 0 (d.eng k.val).hz 3 = max (Tbl.get 0 q.hz 3) (c.group k.val).newest) ∧
      (∀ j, j ≠ src.val → Tbl.get 0 (d.eng k.val).hz j = Tbl.get 0 q.hz j) ∧
      otherEngines (.head k) c d ∧ keepsBut [.engs] c d) ∧
    (q.gates = g :: rest → c.hznOk k.val g.six = true → c.stagingFull = false →
      completes (.gateCommit k) s (fun d => (d.eng k.val).c = g.six ∧ (d.eng k.val).ck = g.ck ∧
        (d.eng k.val).gates = rest ∧ (d.eng k.val).head = q.head ∧ (d.eng k.val).mem = q.mem ∧
        (∀ u ∈ (d.eng k.val).undo, g.six ≤ u.seg) ∧ d.upd.gated.getLsbD k.val = true ∧
        otherEngines (.head k) c d)) ∧
    ((q.gates = [] ∨ (q.gates = g :: rest ∧ c.hznOk k.val g.six = false)) → answers (.gateCommit k) s c) ∧
    (2 ≤ q.run.toNat → q.run.toNat ≤ 4 → 3584 ≤ c.commitLag k.val → q.stalled = true → q.head.busy = false →
      q.c ≤ q.hpos → completes (.forcedGate k) s (fun d => (d.eng k.val).stalled = false ∧ (d.eng k.val).c = q.hpos ∧
        (d.eng k.val).gates = [] ∧ (d.eng k.val).run = (if q.run = 3 then 2 else q.run) ∧ otherEngines (.head k) c d)) ∧
    (2 ≤ q.run.toNat → q.run.toNat ≤ 4 → 3584 ≤ c.commitLag k.val → q.stalled = false → completes (.forcedGate k) s (fun d =>
      (d.eng k.val).forceDue = true ∧ (d.eng k.val).run = (if q.run = 3 then 2 else q.run) ∧
      (d.eng k.val).head = q.head ∧ (d.eng k.val).mem = q.mem ∧ otherEngines (.head k) c d ∧
      keepsBut [.engs] c d)) ∧
    (q.stalled = true → q.run ≠ 1 → q.undoLen < 1024 → q.binCount q.seg < 2048 →
      completes (.headStallEnd k) s (fun d => (d.eng k.val).stalled = false ∧ (d.eng k.val).head = q.head ∧
        otherEngines (.head k) c d ∧ keepsBut [.engs] c d))

/-- R74, R75, R80, R83, R84, R86: a context event that the head has not reached enters the log; one at an instant it has
begun or passed starts a sidestep (3) that goes back to a gate at or before it; one before c is late and
counted, and so is one behind the head while a forced gate is due; one at or before its source's published horizon
raises HZN_BREACH. The switchover makes the replay
thread the engine's own and opens an epoch. A lockstep mismatch goes back in place (RECOVER, 4), and
the engine runs again once it has caught up. -/
def Obligations.SidestepsAndRecovery : Prop :=
  ∀ (k : Fin 8) (ev : CtxEv) (s : State), Settled s →
    let c := s.chip
    let q := c.eng k.val
    let same := fun (d : Chip) => otherEngines (.head k) c d ∧ keepsBut [.engs, .evt, .ferry, .hint] c d
    let g := q.gateAt ev.stamp
    let behind := if q.head.busy = true ∧ q.head.inInit = false then ev.stamp ≤ q.hpos else ev.stamp < q.hpos
    (q.run ≠ 0 → ev.stamp ≤ Tbl.get 0 q.hz ev.src → Tbl.get 0 q.hz ev.src ≠ 0 → completes (.contextEvent k ev) s (fun d =>
      (Tbl.get {} d.evt.src 0x0501).cnt = satInc (Tbl.get {} c.evt.src 0x0501).cnt ∧ same d)) ∧
    (2 ≤ q.run.toNat → q.run.toNat ≤ 4 →
      (q.c ≤ ev.stamp → ¬ behind → completes (.contextEvent k ev) s (fun d =>
        (d.eng k.val).log = insEv ev q.log ∧ (d.eng k.val).run = q.run ∧ (d.eng k.val).head = q.head ∧ same d)) ∧
      (q.c ≤ ev.stamp → behind → q.forceDue = true → completes (.contextEvent k ev) s (fun d =>
        (d.eng k.val).late = q.late ++ [ev] ∧ (d.eng k.val).lateCnt = satInc q.lateCnt ∧
        (d.eng k.val).log = q.log ∧ (d.eng k.val).run = q.run ∧ same d)) ∧
      (ev.stamp < q.c → completes (.contextEvent k ev) s (fun d =>
        (d.eng k.val).late = q.late ++ [ev] ∧ (d.eng k.val).lateCnt = satInc q.lateCnt ∧
        (d.eng k.val).log = q.log ∧ (d.eng k.val).run = q.run ∧ same d))) ∧
    (q.run = 2 → q.c ≤ ev.stamp → behind → q.forceDue = false → completes (.contextEvent k ev) s (fun d =>
      (d.eng k.val).run = 3 ∧ (d.eng k.val).log = insEv ev q.log ∧ (d.eng k.val).rpos = g.2.pos g.1 ∧
      (d.eng k.val).ssG = g.1 ∧ g.1 ≤ ev.stamp ∧
      (d.eng k.val).head = q.head ∧ (d.eng k.val).ssCtx = satInc q.ssCtx ∧ same d)) ∧
    (q.run = 0 → completes (.contextEvent k ev) s (fun d =>
      (q.log.length < 256 → d.eng k.val = { q with log := insEv ev q.log }) ∧ same d)) ∧
    (q.run = 3 → q.hpos ≤ q.rpos → q.rep.busy = false → q.head.busy = false →
      completes (.sidestepSwitchover k) s (fun d => (d.eng k.val).run = 2 ∧ (d.eng k.val).head = q.rep ∧
        (d.eng k.val).hpos = q.rpos ∧ (d.eng k.val).mem = q.rmem ∧ (d.eng k.val).epoch = q.epoch + 1 ∧ same d)) ∧
    ((q.run = 2 ∨ q.run = 4) → (q.mmAt ≠ q.hpos ∨ q.mmRun = 0) → q.head.inInit = false → completes (.qeLockstep k) s (fun d =>
      (d.eng k.val).run = 4 ∧ (d.eng k.val).ssLock = satInc q.ssLock ∧ (d.eng k.val).mmRun = 1 ∧
      (d.eng k.val).head.x = q.lastGate.2.x ∧ (d.eng k.val).hpos = q.lastGate.2.pos q.lastGate.1 ∧ same d)) ∧
    (q.run = 4 → (c.group k.val).newest < q.hpos → q.head.busy = false → completes (.recoverCatchUp k) s (fun d =>
      (d.eng k.val).run = 2 ∧ (d.eng k.val).epoch = (if q.ssEv then q.epoch + 1 else q.epoch) ∧
      (d.eng k.val).head = q.head ∧ same d))

/-- R87, R96, R128, R130: a reloaded engine stands at its checkpoint, or at its initialisation while it has none of
its program, and runs again, in a new epoch, once it has caught up; a
program load starts the new image's initialisation with its registers zero, or, with both copies bad,
leaves the engine unloaded and sets quarantine cause 1; a loaded head that has caught up runs. R134: a
tap recording ends with its ticket. R148, R149: the quality bindings of a meter point. A poll leaves one request, stamped with the newest sample, or waits
while another binding of its port has one; a valid response ends it and puts its value in force for its parameter; a failure ends it and keeps the value in force until the
failures in a row reach LOST, which takes it away. -/
def Obligations.EngineLoadsAndQuality : Prop :=
  (∀ (k : Fin 8) (s : State), Settled s →
    let c := s.chip
    let q := c.eng k.val
    let i := q.img.getD 0
    let j := c.cf (aGate k.val) 16 8
    let sound := fun (x : TallyImg) => x.installed = true ∧ (x.bad1 = false ∨ x.bad2 = false)
    (c.rdy rSV = true → c.sys.changeover = false → q.run = 5 → q.reloaded = false → q.head.inInit = false → sound (c.img i) →
      (q.ckOk = true → completes (.qeReloadDone k) s (fun d => (d.eng k.val).reloaded = true ∧ (d.eng k.val).run = 5 ∧
        (d.eng k.val).head.x = q.ck.x ∧ (d.eng k.val).head.w = q.ck.w ∧
        (d.eng k.val).hpos = (if q.lostFrom.isSome then (c.group k.val).newest else q.ck.pos q.c) ∧
        (d.eng k.val).gates = [] ∧ otherEngines (.head k) c d)) ∧
      (q.ckOk = false → completes (.qeReloadDone k) s (fun d => (d.eng k.val).head.inInit = true ∧
        (d.eng k.val).head.pc = (c.img i).initAt ∧ (∀ r, (d.eng k.val).head.rx r = 0) ∧ (d.eng k.val).run = 5 ∧
        otherEngines (.head k) c d))) ∧
    (q.run = 5 → q.reloaded = true → (c.group k.val).newest < q.hpos → q.head.busy = false →
      completes (.qeCatchUp k) s (fun d => (d.eng k.val).run = 2 ∧ (d.eng k.val).epoch = q.epoch + 1 ∧
        (d.eng k.val).head = q.head ∧ d.sys.ready.getLsbD (8 + k.val) = true ∧
        (∀ t, q.restartTicket = t → t ≠ 0 → (c.ticketOut t).isSome = true → d.tix.done.head? = some (t, 0)))) ∧
    (c.rdy rSV = true → q.run = 1 → q.reloaded = false → q.head.inInit = false →
      (sound (c.img j) → completes (.progLoadDone k) s (fun d =>
        (d.eng k.val).head.inInit = true ∧ (d.eng k.val).head.busy = true ∧
        (d.eng k.val).head.pc = (c.img j).initAt ∧ (∀ r, (d.eng k.val).head.rx r = 0) ∧
        (∀ r, (d.eng k.val).head.rw r = 0) ∧ (d.eng k.val).img = some j ∧ otherEngines (.head k) c d)) ∧
      (¬ sound (c.img j) → completes (.progLoadDone k) s (fun d => (d.eng k.val).run = 0 ∧
        d.sys.qcause.getLsbD 1 = true ∧ d.sys.ready.getLsbD (8 + k.val) = false))) ∧
    (q.run = 1 → q.reloaded = true → (c.group k.val).newest < q.hpos → q.head.busy = false →
      completes (.headCatchUp k) s (fun d => (d.eng k.val).run = 2 ∧ (d.eng k.val).epoch = q.epoch ∧
        (d.eng k.val).head = q.head ∧ d.sys.ready.getLsbD (8 + k.val) = true ∧ otherEngines (.head k) c d)) ∧
    (q.recMask ≠ 0 → completes (.tapRecordEnd k) s (fun d => (d.eng k.val).recMask = 0 ∧
      ((c.ticketOut q.recTicket).isSome = true → d.tix.done.head? = some (q.recTicket, 0)) ∧
      (d.eng k.val).head = q.head ∧ otherEngines (.head k) c d))) ∧
  (∀ (m : MpNo) (raw : List W16) (why : Fin 8) (k z : Nat) (s : State), Settled s →
    let c := s.chip
    let x := c.bill.mp m.val
    let lost := c.cf (0x56004 + 8 * m.val) 24 4
    let others := fun (d : Chip) => ∀ j, j ≠ m.val → d.bill.mp j = c.bill.mp j
    let alone := ∀ j, j < 64 → c.qualPort j = c.qualPort m.val → (c.bill.mp j).qreq = none
    let idle := ∀ j, j < 64 → c.qualPort j = c.qualPort m.val → (c.bill.mp j).qwait = false
    let par := c.cf (0x56000 + 8 * m.val) 24 4
    let value := c.qualValue m.val raw
    let rules := c.cb (0x56000 + 8 * m.val) 31 = true ∧ (c.viewAt z).cf (0x56000 + 8 * m.val) 24 4 = par
    (c.cb (0x56000 + 8 * m.val) 31 = true → x.qreq = none → c.mpEngine m.val = some k →
      (alone → completes (.qualPoll m) s (fun d =>
        d.bill.mp m.val = { x with qreq := some (c.group k).newest, qwait := false } ∧
        others d ∧ keepsBut [.bill] c d)) ∧
      (¬ alone → completes (.qualPoll m) s (fun d => d.bill.mp m.val = { x with qwait := true } ∧ others d ∧
        keepsBut [.bill] c d))) ∧
    (x.qreq = some z → idle → isNaN value = false → completes (.qualResponse m raw) s (fun d =>
      d.bill.mp m.val = { x with qreq := none, qfails := 0, qlost := false, qval := (d.bill.mp m.val).qval } ∧
      (rules → (d.bill.mp m.val).qval = (if value = c.qualNow m.val par then x.qval else some (par, value))) ∧
      others d ∧ keepsBut [.bill, .engs, .evt, .ferry, .hint] c d)) ∧
    (x.qreq = some z → idle → (x.qfails + 1 < lost ∨ x.qlost = true) → completes (.qualRequestFail m why) s (fun d =>
      d.bill.mp m.val = { x with qreq := none, qfails := min (x.qfails + 1) 15 } ∧ others d ∧
      keepsBut [.bill] c d)) ∧
    (x.qreq = some z → idle → lost ≤ x.qfails + 1 → x.qlost = false → completes (.qualRequestFail m why) s (fun d =>
      d.bill.mp m.val =
        { x with qreq := none, qfails := min (x.qfails + 1) 15, qlost := true, qval := (d.bill.mp m.val).qval } ∧
      (rules → (d.bill.mp m.val).qval = (if x.qval.any (fun q => q.1 == par) then none else x.qval)) ∧
      others d ∧ keepsBut [.bill, .engs, .evt, .ferry, .hint] c d)))

/-- R75, R168, R169, R171, R172, R177: the boundaries that civil time schedules. The next demand boundary is handed over
at most 1 s before its civil instant; at its turn, and once every engine has committed up to the instant at which it
took effect, a demand boundary closes the interval and opens the next under the number handed over with it, a billing
close keeps the period's registers in the history and starts the next period; a switch point and an activation set
the tariff handed over with them. A boundary that is not first, or whose instant is still ahead, waits. -/
def Obligations.ScheduledBoundaries : Prop :=
  ∀ (p : PendTime) (rest : List PendTime) (s : State), Settled s →
    let c := s.chip
    let u := c.nextBoundary c.demandCfg (c.execBase 0 (c.civil c.now))
    let zero := ∃ e ∈ c.cfg.pend, e.kind = 0x101 ∧ e.applied = false ∧ e.stamp.getD 0 < p.stamp
    ((c.time.valid = false ∨ c.rdy rSV = false) → answers .timeEventHandoff s c) ∧
    (c.time.valid = true → c.rdy rSV = true → u ≤ c.civil c.now + 1000000000 →
      completes .timeEventHandoff s (fun d =>
        (∃ x ∈ d.save.pendTime, x.kind = 0 ∧ x.civil = u ∧ x.stamp = c.sixOfCivil u) ∧
        (∀ x ∈ c.save.pendTime, x ∈ d.save.pendTime) ∧
        keepsBut [.engs, .save, .tariff, .bill, .evt, .ferry, .hint] c d)) ∧
    (c.save.pendTime = p :: rest → p.stamp ≤ c.now →
      ((p.kind = 0 ∨ p.kind = 8) → c.pendReached p = true → ¬ zero → ((p.kind = 0 ∧ p.partl = false) ∨ c.bill.win.openSix ≠ p.done) →
        completes .demandClose s (fun d =>
          d.save.pendTime = rest ∧ d.bill.qty = c.bill.qty ∧ d.bill.cost = c.bill.cost ∧
          (∃ w, d.bill.closedW.head? = some w ∧ w.no = c.bill.win.no ∧ w.openSix = c.bill.win.openSix ∧
            w.closeSix = p.done ∧ w.qty = c.bill.win.qty) ∧
          d.bill.win.openSix = p.done ∧ d.bill.win.no = p.no ∧ d.engs = c.engs ∧
          ((∀ w ∈ c.bill.aheadW, w.no ≠ p.no) → d.bill.win.partl = p.partl))) ∧
      ((p.kind = 0 ∨ p.kind = 8) → c.pendReached p = false → answers .demandClose s c) ∧
      ((p.kind = 1 ∨ p.kind = 4 ∨ p.kind = 9) → c.pendReached p = true → ¬ zero → c.bill.snaps = [] →
        completes .billingClose s (fun d =>
          d.save.pendTime = rest ∧ d.bill.period = c.bill.period + 1 ∧ d.bill.maxd = [] ∧
          (∃ h, d.bill.hist.head? = some h ∧ h.qty = c.bill.qty ∧ h.cost = c.bill.cost ∧ h.maxd = c.bill.maxd ∧
            h.period = c.bill.period) ∧ d.bill.win.no = c.bill.win.no)) ∧
      ((p.kind = 2 ∨ p.kind = 10) → completes .tariffSwitch s (fun d => d.save.pendTime = rest ∧
        d.tariff = { c.tariff with inForce := p.tar } ∧
        (c.ledger.closed = false → ∃ x ∈ d.ledger.staging, x.kind = 0x0B ∧ x.six = BitVec.ofNat 64 p.stamp) ∧
        keepsBut [.save, .tariff, .bill, .ledger] c d)) ∧
      ((p.kind = 3 ∨ p.kind = 11) → completes .calendarActivation s (fun d => d.save.pendTime = rest ∧
        d.tariff.act = c.tariff.pas ∧ d.tariff.pas = c.tariff.pas ∧ d.tariff.prev = c.tariff.act ∧
        d.tariff.sched = none ∧ d.tariff.inForce = p.tar ∧ d.tariff.gen = c.tariff.gen + 1 ∧
        keepsBut [.save, .tariff, .bill, .cfg, .ledger] c d)))

/-- R179, R182, R184, R155: a session takes effect at its stamp and ends once its engine has committed up to its close; a
load profile period leaves an entry with the increment; a spill pulse is on, then off, and a backlog
starts the next. -/
def Obligations.SessionsProfilesPulses : Prop :=
  ∀ (m : MpNo) (slot : Fin 8) (ch : Fin 256) (z n : Nat) (fwd : Bool) (s : State), Settled s →
    let c := s.chip
    let x := c.session m.val
    let p := c.spill m.val slot.val
    let w := c.spillCfg m.val slot.val
    let others := fun (d : Chip) => ∀ j, j ≠ m.val → d.session j = c.session j
    let lw := c.live (0x60400 + 4 * ch.val)
    let r := Tbl.get ({} : RegVal) c.bill.qty (lw.toNat % 65536)
    let y := c.bill.lpc ch.val
    let through := ∀ k ∈ c.mpEngine (idMp (lw.toNat % 65536)), c.running.contains k = true → z ≤ (c.eng k).c
    (x.no ≠ 0 → x.applied = false → x.openSix ≤ c.now → completes (.sessionOpenApply m) s (fun d =>
      d.session m.val = { x with applied := true } ∧ others d ∧ keepsBut [.bill] c d)) ∧
    (x.no ≠ 0 → x.closeSix = some z → z ≤ c.now → c.mpLoads m.val = false →
      (∀ k ∈ c.mpEngine m.val, z ≤ (c.eng k).c) → completes (.sessionCloseApply m) s (fun d =>
        d.session m.val = {} ∧ Tbl.get {} d.bill.lastSess m.val = x ∧ others d ∧ d.bill.qty = c.bill.qty ∧
        d.bay.events.getLsbD 25 = true ∧ keepsBut [.bill, .bay, .ledger] c d)) ∧
    (lw.getLsbD 31 = true → c.time.valid = true → c.lpDue ch.val = some (z, fwd) → z ≤ c.now → through →
      (∀ u ∈ y.cap, u.1 = z) → completes (.lpPeriodEnd ch) s (fun d =>
        let v := match y.cap with
          | some (_, v, _) => v
          | none => r.v
        (∃ e, (d.bill.lpc ch.val).entries = (e :: y.entries).take 9600 ∧
          e.inc = BitVec.ofInt 64 (v / 2 ^ 64 - y.last / 2 ^ 64)) ∧
        (d.bill.lpc ch.val).last = v ∧ (∀ j, j ≠ ch.val → d.bill.lpc j = c.bill.lpc j) ∧
        d.bill.qty = c.bill.qty ∧ keepsBut [.bill] c d)) ∧
    ((lw.getLsbD 31 = false ∨ c.time.valid = false ∨ c.lpDue ch.val = none) → answers (.lpPeriodEnd ch) s c) ∧
    (p.phase = 1 → spillDrive w = some n → completes (.spillPulseOnEnd m slot) s (fun d =>
      d.spill m.val slot.val = { p with phase := 2 } ∧ (d.drive n).cmd = false ∧
      (∀ j, j ≠ n → d.drive j = c.drive j))) ∧
    (p.phase = 1 → spillDrive w = none → completes (.spillPulseOnEnd m slot) s (fun d =>
      d.spill m.val slot.val = { p with phase := 2 } ∧ keepsBut [.bill] c d)) ∧
    (p.phase = 2 → p.backlog = 0 → completes (.spillPulseOffEnd m slot) s (fun d =>
      d.spill m.val slot.val = { p with phase := 0 } ∧ keepsBut [.bill] c d)) ∧
    (p.phase = 2 → p.backlog ≠ 0 → w.getLsbD 31 = true → c.spillFree w = true → c.power.saving = false →
      c.power.off = false → c.sys.ready ≠ 1 →
      completes (.spillPulseOffEnd m slot) s (fun d => (d.spill m.val slot.val).phase = 1 ∧
        (d.spill m.val slot.val).backlog = p.backlog - 1 ∧ (d.spill m.val slot.val).acc = p.acc ∧
        d.bill.qty = c.bill.qty))

/-- R198, R201, R195, R194, R197, R199: a step moves civil time at its stamp by its offset, ends a slew and is kept as a
tamper record of its sign; the oldest time-zone change takes effect at its stamp; the mapping is frozen up to the
newest sample, and a newly measured error of the crystal, a free value, enters the rate after it (log 129); a calibration sets the AO counter's rate; a slew ends with the rate of the crystal alone; a leap
second is smeared by 500 ppm over the time before it. R196, R198: a frame of another port, transport or domain is ignored. The first announced master is selected (SRC_STATE
2); a measured delay of the configured kind is kept; a sync of the selected clock in two steps waits for its follow-up; an offset is kept and the sixteenth in a row within 100 µs locks (3), here within 1 µs, where
none is slewed; 3 s without Sync unlock; an offset above 1 s of a locked clock asks for a step. -/
def Obligations.CivilAndPrecisionTime : Prop :=
  (∀ (x : PendStep) (y : TzPend) (rest : List TzPend) (meas : Int) (s : State), Settled s →
    let c := s.chip
    let t := c.time
    let err := max (-500000) (min 500000 (Config.free c.free).toInt)
    (t.step = some x → x.stamp ≤ c.now → x.ofs ≠ 0 → completes .clockStep s (fun d =>
      d.time.valid = true ∧ d.time.step = none ∧ d.time.slewRem = 0 ∧ d.time.stepNeeded = false ∧
      d.time.six = t.six ∧
      d.time.pieces.head? = some { six := x.stamp, ns := t.civil x.stamp + x.ofs, rate := clampRate t.tcxo } ∧
      (d.trec 8).cnt = (if x.ofs < 0 then satInc (c.trec 8).cnt else (c.trec 8).cnt) ∧
      (d.trec 9).cnt = (if 0 < x.ofs then satInc (c.trec 9).cnt else (c.trec 9).cnt))) ∧
    (t.tz = y :: rest → y.stamp ≤ c.now → completes .cg10Apply s (fun d => d.time.tz = rest ∧
      d.time.pieces = t.pieces ∧ d.time.six = t.six)) ∧
    ((∀ y' ∈ t.tz.head?, c.now < y'.stamp) → answers .cg10Apply s c) ∧
    (c.rdy rSV = true → t.srcState = 0 → completes .timeMappingFreeze s (fun d =>
      d.time = { t with horizon := max t.horizon t.six } ∧ keepsBut [.time] c d)) ∧
    (c.rdy rSV = false → answers .timeMappingFreeze s c) ∧
    (c.rdy rSV = true → t.srcState ≠ 0 →
      (err = t.tcxo → completes .timeMappingFreeze s (fun d =>
        d.time = { t with horizon := max t.horizon t.six } ∧ keepsBut [.time, .free] c d)) ∧
      (err ≠ t.tcxo → t.slewRem = 0 → completes .timeMappingFreeze s (fun d => d.time.tcxo = err ∧
        d.time.horizon = max t.horizon t.six ∧ d.time.slewRem = 0 ∧ d.time.six = t.six ∧
        (d.time.pieces.head?.map Piece.rate) = some (clampRate err)))) ∧
    (c.power.off = false → completes (.aoCalibrate meas) s (fun d => d.time = { t with aoRate := meas } ∧
      keepsBut [.time] c d)) ∧
    (t.slewRem ≠ 0 → completes .slewComplete s (fun d => d.time.slewRem = 0 ∧ d.time.leapPending = false ∧
      (d.time.pieces.head?.map Piece.rate) = some (clampRate t.tcxo) ∧
      (d.time.pieces.head?.map Piece.six) = some c.pieceStart ∧ d.time.six = t.six ∧ d.time.valid = t.valid)) ∧
    (t.ptp.leap ≠ 0 → c.ptpOn = true → t.valid = true → completes .leapSmear s (fun d =>
      d.time.leapPending = true ∧ d.time.ptp.leap = 0 ∧
      d.time.slewRem = (if 0 < t.ptp.leap then -1000000000 else 1000000000) ∧
      (d.time.pieces.head?.map Piece.rate) =
        some (clampRate (t.tcxo + (if 0 < t.ptp.leap then -500000000 else 500000000)))))) ∧
  (∀ (ds : List Nat) (id src : W64) (uo : W8) (leap leapAt o rx : Int) (seq : W16) (f : PtpFrame) (s : State), Settled s →
    let c := s.chip
    let t := c.time
    let n := t.ptp.syncs + 1
    let kept := fun (d : Chip) => d.time.offset = o ∧ d.time.ptp.syncs = n ∧
      d.time.srcState = (if 16 ≤ n then 3 else t.srcState) ∧ d.time.pieces = t.pieces ∧ keepsBut [.time] c d
    let mine := fun (src : W64) (m : PtpMsg) => Instr.ptpMessage
      { port := c.cb 0x80000 28, udp := c.cb 0x80000 29, domain := BitVec.ofNat 8 (c.cf 0x80000 16 8), src := src, msg := m }
    ((c.ptpOn = false ∨ f.port ≠ c.cb 0x80000 28 ∨ f.udp ≠ c.cb 0x80000 29 ∨ f.domain.toNat ≠ c.cf 0x80000 16 8) →
      answers (.ptpMessage f) s c) ∧
    (c.ptpOn = true →
      (t.srcState.toNat < 2 → completes (mine src (.announce ds id uo leap leapAt)) s (fun d =>
        d.time.srcState = 2 ∧ d.time.ptp.gmId = id ∧ d.time.ptp.parent = src ∧ d.time.ptp.gmData = ds ∧
        d.time.utcOffset = uo ∧ d.time.ptp.syncs = 0 ∧ keepsBut [.time] c d)) ∧
      completes (mine t.ptp.parent (.delay (c.cb 0x80000 30) o)) s (fun d =>
        d.time = { t with ptp := { t.ptp with delay := o } } ∧ keepsBut [.time] c d) ∧
      ((t.srcState = 2 ∨ t.srcState = 3) →
        (src ≠ t.ptp.parent → answers (mine src (.sync true seq o rx)) s c ∧ answers (mine src (.followUp seq o)) s c) ∧
        completes (mine t.ptp.parent (.sync true seq o rx)) s (fun d =>
          d.time = { t with ptp := { t.ptp with twoStep := true, seq := seq, rx := rx } } ∧ keepsBut [.time] c d) ∧
        (t.valid = true → -1000 < o → o < 1000 →
          completes (mine t.ptp.parent (.sync false seq (rx - t.ptp.delay - o) rx)) s kept ∧
          (t.ptp.twoStep = true → t.ptp.seq = seq →
            completes (mine t.ptp.parent (.followUp seq (t.ptp.rx - t.ptp.delay - o))) s kept)))) ∧
    ((t.srcState = 2 ∨ t.srcState = 3) → completes .ptpSyncTimeout s (fun d => d.time.srcState = 2 ∧
      d.time.ptp.syncs = 0 ∧ d.time.ptp.gmData = [] ∧ d.time.pieces = t.pieces ∧ keepsBut [.time] c d)) ∧
    (t.srcState = 3 → (1000000000 < t.offset ∨ t.offset < -1000000000) → t.stepNeeded = false →
      completes .timeStepNeeded s (fun d => d.time = { t with stepNeeded := true } ∧
        (Tbl.get {} d.evt.src 0x0801).cnt = satInc (Tbl.get {} c.evt.src 0x0801).cnt ∧
        keepsBut [.time, .evt, .ferry, .hint] c d)))

/-- R203, R205, R212, R213, R15: the supplies and what HK does, while a supply feeds the module and no final save runs. AUX
feeds while MAIN is gone; a daily hold-up test that may not run yet is deferred, one that may disconnects the
charger, its end keeps the time measured and marks a bank
below 36.0 ms weak; a report of HK is kept; a scrub changes no word of the block. -/
def Obligations.SuppliesAndHousekeeping : Prop :=
  ∀ (v cap : W8) (hold : W16) (r : HkReport) (s : State), Settled s →
    let c := s.chip
    let p := c.power
    let counts := fun (code : Nat) (d : Chip) =>
      (Tbl.get {} d.evt.src code).cnt = satInc (Tbl.get {} c.evt.src code).cnt
    let fed := fun (q : Power) (d : Chip) => d.power = q ∧ d.engs = c.engs ∧ d.bill = c.bill ∧ d.time = c.time
    (c.powered = true →
      completes .mainDrop s (fed { p with mainOk := false, onAux := p.auxOk }) ∧
      completes .mainTakeover s (fed { p with mainOk := true, onAux := false }) ∧
      completes .auxRailReturn s (fed { p with auxOk := true, onAux := !p.mainOk }) ∧
      (p.auxOk = true → completes .auxLost s (fun d =>
        fed { p with auxOk := false, onAux := false } d ∧ counts 5 d)) ∧
      (p.onAux = false → completes .mainLow s (fun d => counts 4 d ∧ keepsBut noteBlocks c d)) ∧
      completes .huOverdue s (fun d => counts 9 d ∧ keepsBut noteBlocks c d) ∧
      completes .holdupCharged s (fun d => d.power =
          { p with holdupChg := false, chargedAt := if p.holdupChg then some c.now else p.chargedAt } ∧
        keepsBut [.power] c d) ∧
      completes (.cellMeasure v) s (fun d =>
        d.power = { p with cellV := v, cellLow := decide (v.toNat < 135) } ∧
        (v.toNat < 135 → counts 6 d) ∧ keepsBut [.power, .evt, .ferry, .hint] c d)) ∧
    (c.powered = true → p.testRun = false → (c.testHour = true ∨ p.testDue = true) →
      (c.mayTest = true → completes .holdupTestDaily s (fun d =>
        d.power = { p with charger := false, testRun := true, testDue := false } ∧ keepsBut [.power] c d)) ∧
      (c.mayTest = false → completes .holdupTestDaily s (fun d =>
        d.power = { p with testDue := p.testDue || p.testTicket == 0 } ∧ keepsBut [.power] c d))) ∧
    ((c.powered = false ∨ p.testRun = true ∨ (c.testHour = false ∧ p.testDue = false ∧ p.testTicket = 0)) →
      answers .holdupTestDaily s c) ∧
    (p.testRun = true → completes (.chargerReconnect hold cap) s (fun d =>
      d.power.charger = true ∧ d.power.testRun = false ∧ d.power.holdup = hold ∧ d.power.cap = cap ∧
      d.power.testAt = c.now ∧ d.power.holdupWeak = decide (hold.toNat < 360) ∧
      ((c.ticketOut p.testTicket).isSome = true → p.testTicket ≠ 0 → d.tix.done.head? =
        some (p.testTicket, if hold.toNat < 360 then 0x12 else 0)))) ∧
    (p.off = false → completes (.hkReport r) s (fun d => d.power.mainV = r.mainV ∧ d.power.auxV = r.auxV ∧
      d.power.voutA = r.voutA ∧ d.power.voutB = r.voutB ∧ d.power.hkSilent = false ∧
      d.sys.backplate = r.backplate ∧
      keepsBut [.power, .sys] c d)) ∧
    (p.hkSilent = false → c.rdy rSV = true → completes .hkSilent s (fun d =>
      d.power = { p with hkSilent := true } ∧ counts 3 d ∧ keepsBut [.power, .evt, .ferry, .hint] c d)) ∧
    completes .memoryScrub s (fun d => d.power = { p with scrubbed := p.scrubbed + 1 } ∧ keepsBut [.power] c d)

/-- R206, R208, R209, R194, R374: a power failure fixes the save instant, the first multiple of 8 after the newest (log 71), and sheds
what the save does not need; an exhausted bank leaves AO alone, with the save where it came to its end; a restart
begins at a later instant of the grid in START (0), with no session, claim or ticket, and START ends when
what it waits for is there, or late with an event. A journal entry is taken every 100 ms of the grid and holds the
billing block. -/
def Obligations.PowerLossAndRestart : Prop :=
  ∀ (x : PowerOn) (z : Nat) (s : State), Settled s →
    let c := s.chip
    let p := c.power
    let counts := fun (code : Nat) (d : Chip) =>
      (Tbl.get {} d.evt.src code).cnt = satInc (Tbl.get {} c.evt.src code).cnt
    let begins := fun (d : Chip) => ∃ p ∈ d.save.pendTime, p.kind = 0 ∧ p.stamp = c.now ∧ p.partl = true
    (c.powered = true → p.pAt = none → completes .powerFailDetect s (fun d =>
      d.power.saving = true ∧ d.power.pAt = some d.time.sixP ∧ c.now < d.time.sixP ∧
      d.time.sixP ≤ c.now + 8 ∧ d.time.sixP % 8 = 0 ∧ d.power.failAt = c.now ∧ d.rdy rSV = false ∧
      d.rdy rNET = false ∧ d.net.nxUp = false ∧ d.bay.run = 0 ∧ d.link.field = false ∧ d.bill = c.bill)) ∧
    (p.saving = true → p.off = false → completes (.holdupExhausted false) s (fun d =>
      d.power.off = true ∧ d.power.pAt = none ∧ d.sys.ready = 1 ∧ d.sys.dead = 0x3FE ∧ d.save = c.save ∧
      d.safe.sfUp = false ∧ d.safe.edgeUp = false)) ∧
    (p.saving = true → p.off = false → p.pAt = some z → completes (.holdupExhausted true) s (fun d =>
      d.power.off = true ∧ d.sys.ready = 1 ∧ (∃ f, d.save.final = some f ∧ f.six = z) ∧
      d.save.pendTime = [])) ∧
    (p.off = true → completes (.powerUp x) s (fun d =>
      d.sys.starting = true ∧ d.sys.mode = 0 ∧ d.sys.cause = 1 ∧ d.power.off = false ∧ d.power.saving = false ∧
      c.now < d.time.six ∧ d.time.six % 8 = 0 ∧ d.time.sixR = d.time.six ∧ d.tix.out = [] ∧
      (∀ m, (d.master m).role = 0 ∧ (d.master m).conn = false) ∧ (∀ q, (d.fq q).owner = none) ∧
      (∀ g, d.cfgOwner g = none) ∧ (∀ n, d.land n = {}) ∧
      (x.swSf = x.swEdge → (∀ j, j < 4 → tmplOf x.swSf j ≤ 8) → d.safe.adopted = some x.swSf ∧
        (swCrc x.swSf ≠ c.safe.prevCrc → counts 0x0E08 d)))) ∧
    (c.sys.starting = true → c.startMissing = 0 → completes .startEnd s (fun d =>
      d.sys.starting = false ∧ begins d ∧ d.bill.qty = c.bill.qty ∧ d.sys.ready = c.sys.ready)) ∧
    (c.sys.starting = true → c.startMissing ≠ 0 → answers .startEnd s c) ∧
    (c.sys.starting = true → c.startMissing ≠ 0 → c.powered = true → completes .startIncomplete s (fun d =>
      d.sys.starting = false ∧ begins d ∧
      (Tbl.get {} d.evt.src 0x000A).cnt = satInc (Tbl.get {} c.evt.src 0x000A).cnt)) ∧
    (c.powered = true → c.now % 3200 = 0 → completes .journalEntry s (fun d =>
      (∃ r, d.save.journal = (r :: c.save.journal).take 32 ∧ r.six = c.now ∧ r.bill = c.bill) ∧
      keepsBut [.save] c d))

/-- R216, R218, R220: the life of events. EVT_PERSIST writes one entry of the ring to the event log, a reserved
one before the general ones and among those the oldest; SV copies what is not yet archived; the counters
that changed are copied to MRAM at most once a second, which changes no count; the events held while SV was away enter when it is ready. R230, R231, R232: the ledger. A signature is staged with its instant; an append moves the oldest staged
record to the head of the chain with its sequence number and the digest of the record before it, and
the head's digest is that of its bytes; a write that fails counts LEDGER_FAULT. -/
def Obligations.EventsAndLedger : Prop :=
  (∀ (x : EvtEntry) (s : State), Settled s →
    let c := s.chip
    let open_ := fun (y : EvtEntry) => y ∈ c.evt.ring ∧ y.persisted = false
    (c.evt.nextPersist = some x → completes .evtPersist s (fun d =>
      d.evt.log = (x :: c.evt.log).take 8192 ∧ d.evt.unarch = c.evt.unarch + 1 ∧ keepsBut noteBlocks c d)) ∧
    ((∀ y ∈ c.evt.ring, y.persisted = false → y.ovr = false) → open_ x → x.rsv = true → completes .evtPersist s (fun d =>
      ∃ z, d.evt.log.head? = some z ∧ open_ z ∧ z.rsv = true ∧
        ∀ y, open_ y → y.rsv = true → z.six ≤ y.six)) ∧
    (c.evt.nextPersist = none → completes .evtPersist s (fun d => d.evt.log = c.evt.log ∧
      keepsBut noteBlocks c d)) ∧
    (c.rdy rSV = true → completes .evtArchiveCopy s (fun d =>
      d.evt = { c.evt with archive := (c.evt.log.take c.evt.unarch ++ c.evt.archive).take 4194304, unarch := 0 } ∧
      keepsBut [.evt] c d)) ∧
    ((∀ z, c.evt.srcAt = some z → z + 32000 ≤ c.now) → completes .evtCounterPersist s (fun d =>
      (∀ n, let y := Tbl.get ({} : EvtSrc) c.evt.src n
        Tbl.get ({} : EvtSrc) d.evt.src n = if y.dirty then
          { y with dirty := false, mCnt := y.cnt, mFirst := y.first, mLast := y.last } else y) ∧
      d.evt.ring = c.evt.ring ∧ d.evt.srcAt = some c.now ∧ keepsBut [.evt] c d)) ∧
    ((∃ z, c.evt.srcAt = some z ∧ c.now < z + 32000) → answers .evtCounterPersist s c) ∧
    (c.rdy rSV = true → completes .heldEventsEnter s (fun d => d.evt.heldQ = [] ∧ d.link.plate.heldEv = [] ∧
      keepsBut [.evt, .ferry, .hint, .link] c d)) ∧
    (c.rdy rSV = false → answers .heldEventsEnter s c ∧ answers .evtArchiveCopy s c)) ∧
  (∀ (r : LedgerRec) (l : List LedgerRec) (s : State), Settled s →
    let c := s.chip
    let g := c.ledger
    (g.closed = false → completes .ledgerSignatureTimer s (fun d => d.ledger.lastSig = c.now ∧
      d.ledger.staging.length = g.staging.length + 1 ∧
      (∃ x ∈ d.ledger.staging, x.kind = 2 ∧ x.six = BitVec.ofNat 64 c.now) ∧ keepsBut [.ledger] c d)) ∧
    (c.rdy rSV = true → g.staging = r :: l → c.ledgerWaits = false → g.used + r.len ≤ 6442450944 → completes .ledgerAppend s (fun d =>
      d.ledger.staging = l ∧ d.ledger.seq = g.seq + 1 ∧ d.ledger.used = g.used + r.len ∧
      (∃ x, d.ledger.recs = x :: g.recs ∧ x.seq = g.seq ∧ x.prev = g.h ∧ x.kind = r.kind ∧ x.six = r.six ∧
        (r.kind ≠ 2 → x.payload = r.payload) ∧ d.ledger.h = Config.sha256 (x.bytes c.sys.deviceId)) ∧
      keepsBut [.ledger, .evt, .ferry, .hint] c d)) ∧
    (g.staging = r :: l → (∃ k ∈ c.running, (c.eng k).c < r.six.toNat) → answers .ledgerAppend s c) ∧
    ((c.rdy rSV = false ∨ g.staging = []) → answers .ledgerAppend s c) ∧
    completes .ledgerWriteFail s (fun d => (d.trec 25).cnt = satInc (c.trec 25).cnt ∧
      keepsBut [.tamper, .ledger, .evt, .ferry, .hint] c d))

/-- R223, R398, R414: what the AO island and HK sample. A switch changes with the fourth sample in a row that reads it so (log 147),
which starts or ends its tamper condition while a supply is present and is only captured without one; MAGNETIC starts at the third sample above 40 mT and
ends at the third below 30 mT; TEMP_RANGE stands while a temperature is out of range. -/
def Obligations.TamperSamples : Prop :=
  ∀ (cover seal_ lsw mesh : Bool) (v : W16) (b : Int) (s : State), Settled s →
    let c := s.chip
    let t := c.tamper
    let held := fun (ty : Nat) (d : Chip) => (d.trec ty).holders.any (fun h => h.1 == 0xFF)
    let frame := keepsBut [.tamper, .ledger, .evt, .ferry, .hint] c
    let seen := fun (was now_ : Bool) (run : Nat) (is : Bool) (runs : Nat) =>
      (now_ = was → is = was ∧ runs = 0) ∧ (now_ ≠ was → run < 3 → is = was ∧ runs = run + 1) ∧
      (now_ ≠ was → 3 ≤ run → is = now_ ∧ runs = 0)
    ((mesh = false ∨ t.mesh = true) → completes (.aoTamperSample cover seal_ lsw mesh) s (fun d =>
      d.tamper.mesh = mesh ∧
      seen t.cover cover t.coverRun d.tamper.cover d.tamper.coverRun ∧
      seen t.sealOpen seal_ t.sealRun d.tamper.sealOpen d.tamper.sealRun ∧
      seen t.lsw lsw t.lswRun d.tamper.lsw d.tamper.lswRun ∧
      (c.power.off = false → d.tamper.aoTicks = t.aoTicks ∧ d.tamper.captured = t.captured ∧
        (d.tamper.cover ≠ t.cover → held 0 d = cover) ∧ (d.tamper.sealOpen ≠ t.sealOpen → held 1 d = seal_) ∧
        (d.tamper.lsw ≠ t.lsw → held 2 d = lsw)) ∧
      (c.power.off = true → d.tamper.aoTicks = t.aoTicks + 1 ∧ (∀ ty, d.trec ty = c.trec ty) ∧
        (d.tamper.cover = t.cover → d.tamper.sealOpen = t.sealOpen → d.tamper.lsw = t.lsw →
          d.tamper.captured = t.captured)) ∧
      (c.key.lc ≠ 2 → frame d))) ∧
    (mesh = true → t.mesh = false → (c.power.off = true ∨ c.power.saving = true) → c.key.lc ≠ 0 → c.key.lc ≠ 4 →
      completes (.aoTamperSample cover seal_ lsw mesh) s (fun d => d.key.kekSeed = 0 ∧ d.key.meshTrip = true ∧
        d.key.lc = c.key.lc ∧ (d.trec 30).cnt = (c.trec 30).cnt ∧ d.tamper.captured.any (fun x => x.1 == 30) = true)) ∧
    (mesh = true → t.mesh = false → c.power.off = false → c.power.saving = false → c.key.lc ≠ 0 → c.key.lc ≠ 4 →
      completes (.aoTamperSample cover seal_ lsw mesh) s (fun d => d.key.kekSeed = 0 ∧ d.key.lc = 1 ∧
        d.rdy rKEYS = false ∧ (d.trec 30).cnt = satInc (c.trec 30).cnt)) ∧
    completes (.magSample v) s (fun d => d.tamper.mag = v.toNat ∧ frame d ∧
      (300 ≤ v.toNat → v.toNat ≤ 400 → d.trec 3 = c.trec 3) ∧
      (c.power.off = false → c.magHeld = false → 2 ≤ t.magOver → 400 < v.toNat → held 3 d = true) ∧
      (c.power.off = false → c.magHeld = true → 2 ≤ t.magUnder → v.toNat < 300 → held 3 d = false)) ∧
    completes (.tempRangeCheck b) s (fun d => d.sys.backplate = b ∧
      (9000 < b → held 17 d = true) ∧
      (b ≤ 9000 → (∀ k, k < 8 → -4000 ≤ (c.group k).temp.toInt) → held 17 d = false) ∧
      keepsBut [.sys, .tamper, .ledger, .evt, .ferry, .hint] c d)

/-- R235, R236, R237, R239, R241, R242, R243: the ferry queues. A claim takes an unowned queue; its release empties
it; a flush counts what it discards; a read pops the next word; a whole packet goes to a session; room
releases what a producer holds; at the first swap of the banks after its recovery a queue leaves parity mode; a hold of 1 s is an event and one of 10 s ends the claim; pointers that
differ reset the queue. -/
def Obligations.FerryQueues : Prop :=
  ∀ (m : Master5) (q : Fin 8) (p : List W32) (l : List (List W32)) (g : Ferry) (w x : W32) (s : State),
    Settled s →
    let c := s.chip
    let f := c.fq q.val
    let a := 0xA0010 + 0x20 * q.val
    let others := fun (d : Chip) => ∀ j, j ≠ q.val → d.fq j = c.fq j
    let counts := fun (code : Nat) (d : Chip) =>
      (Tbl.get {} d.evt.src code).cnt = satInc (Tbl.get {} c.evt.src code).cnt
    (writes m a 0x10000000 c → f.owner = none → claimRole q.val ≤ c.roleNo m.val → c.rdy rSV = true →
      completes (.ferryClaim m q) s (fun d => d.fq q.val = { f with owner := some m.val } ∧ others d ∧
        keepsBut [.ferry] c d)) ∧
    (writes m a 0x10000000 c → f.owner ≠ none → completes (.ferryClaim m q) s (fun d =>
      (d.fq q.val).owner = f.owner ∧ d.sys.deniedCnt = satInc c.sys.deniedCnt)) ∧
    (writes m a 0x20000000 c → f.owner = some m.val → completes (.ferryRelease m q) s (fun d =>
      (d.fq q.val).owner = none ∧ (d.fq q.val).fill = [] ∧ (d.fq q.val).drain = [] ∧ (d.fq q.val).holdBuf = [] ∧
      others d ∧ keepsBut noteBlocks c d)) ∧
    (writes m a 0x30000000 c → f.owner = some m.val → q ≠ 3 → f.holdBuf = [] → completes (.ferryFlush m q) s (fun d =>
      d.fq q.val = { f with fill := [], drain := [], cur := [], curPkt := [], owed := 0, badWords := [],
                            drop := satAdd f.drop f.held } ∧ others d ∧ keepsBut [.ferry] c d)) ∧
    (reads m (0xA0000 + 0x20 * q.val) c → m = 0 → f.owner = some 0 → q ≠ 3 → f.holdBuf = [] → f.owed = 0 →
      f.inParity = false →
      (f.cur = w :: x :: p → completes (.ferryDataRead m q) s (fun d => (d.fq q.val).cur = x :: p ∧
        (d.fq q.val).eop = false ∧ (d.fq q.val).drain = f.drain ∧ (d.fq q.val).fill = f.fill ∧ others d ∧
        keepsBut [.ferry] c d)) ∧
      (f.cur = [] → f.drain = (w :: p) :: l → completes (.ferryDataRead m q) s (fun d =>
        (d.fq q.val).cur = p ∧ (d.fq q.val).drain = l ∧ (d.fq q.val).abort = false ∧
        (d.fq q.val).eop = p.isEmpty ∧ others d ∧ keepsBut [.ferry] c d)) ∧
      (f.cur = [] → f.drain = [] → f.fill = [] → completes (.ferryDataRead m q) s (fun d => d.fq q.val = f ∧
        others d ∧ keepsBut [.ferry] c d))) ∧
    (m ≠ 0 → f.owner = some m.val → (c.master m.val).conn = true → f.popPkt = (some p, g, false) → f.holdBuf = [] → q ≠ 3 →
      completes (.queuePush q) s (fun d => (d.master m.val).outbox = (c.master m.val).outbox ++
        [{ kind := 0x91, hi := BitVec.ofNat 8 q.val, payload := p ++ [{ g with cur := [], owed := 0 }.rxst] }] ∧
        keepsBut [.masters, .evt, .ferry, .hint] c d)) ∧
    (f.testing = false → f.holdBuf = [p] → f.fill = [] → f.drain = [] → f.cur = [] → p.length ≤ 1024 →
      completes (.ferryHoldRelease q) s (fun d => (d.fq q.val).holdBuf = [] ∧ (d.fq q.val).drain = [p] ∧
        keepsBut noteBlocks c d)) ∧
    (f.owner ≠ none → c.holds q.val = true → q ≠ 2 → q ≠ 7 →
      (f.stalled = false → completes (.queueStall q false) s (fun d =>
        ((d.fq q.val).stalled = true ∨ d.holds q.val = false) ∧
        (d.fq q.val).owner = f.owner ∧ (d.fq q.val).stall = satInc f.stall ∧ counts 0x0A01 d ∧
        keepsBut noteBlocks c d)) ∧
      completes (.queueStall q true) s (fun d => (d.fq q.val).owner = none ∧
        (d.fq q.val).stall = satInc f.stall ∧ counts 0x0A01 d ∧ (q ≠ 5 → keepsBut noteBlocks c d) ∧
        (q = 5 → d.bay.signal = none ∧ keepsBut (.bay :: noteBlocks) c d))) ∧
    (f.inParity = false → completes (.ferryPtrMismatch q) s (fun d => (d.fq q.val).abort = true ∧
      counts 0x0A02 d ∧ keepsBut noteBlocks c d)) ∧
    (q ≠ 3 → f.holdBuf = [] →
      (f.leaving = true → f.drain = [] → f.cur = [] → f.fill ≠ [] → completes (.ferryParityEnd q) s (fun d =>
        d.fq q.val = { f with drain := f.fill, fill := [], leaving := false, parity := false } ∧ others d ∧
        keepsBut [.ferry] c d)) ∧
      ((f.leaving = false ∨ f.drain ≠ [] ∨ f.cur ≠ [] ∨ f.fill = []) → answers (.ferryParityEnd q) s c))

/-- R227, R228, R229: the display. A short press shows the next page of its list, holds it and lights the panel;
a long press goes to the alternate list where one is configured; the timer ends the test, the hold, or
the page, and 60 s after the last press the alternate list. START and CHANGEOVER hold the frame. -/
def Obligations.DisplayButtons : Prop :=
  ∀ (s : State), Settled s →
    let c := s.chip
    let p := c.disp
    let sets := fun (i : Instr) (y : Disp) => completes i s (fun d => d.disp = y ∧ keepsBut [.disp] c d)
    let next := if p.page + 1 < c.normalPages then p.page + 1 else 0
    let old := decide (p.pressAt + 1920000 ≤ c.now)
    (c.dispHeld = true → answers .dispBtnShort s c ∧ answers .dispBtnLong s c ∧ answers .dispPageTimer s c) ∧
    (c.dispHeld = false → p.alt = false →
      sets .dispBtnShort { p with page := next, hold := true, backlight := true, pressAt := c.now }) ∧
    (c.dispHeld = false → c.altPages = 0 → sets .dispBtnLong { p with backlight := true, pressAt := c.now }) ∧
    (c.dispHeld = false → 0 < c.altPages →
      sets .dispBtnLong { p with alt := true, page := 0, hold := false, backlight := true, pressAt := c.now }) ∧
    (c.dispHeld = false → p.test = 1 → sets .dispPageTimer { p with test := 2 }) ∧
    (c.dispHeld = false → p.test = 2 → sets .dispPageTimer { p with test := 0 }) ∧
    (c.dispHeld = false → p.test = 0 → p.hold = true → p.alt = false → c.cb 0xB0000 31 = false →
      sets .dispPageTimer { p with hold := false }) ∧
    (c.dispHeld = false → p.test = 0 → p.hold = false → p.alt = false →
      sets .dispPageTimer { p with page := next, backlight := p.backlight && !(c.cb 0xB0000 31 && old) }) ∧
    (c.dispHeld = false → p.test = 0 → p.hold = false → p.alt = true → old = true →
      sets .dispPageTimer { p with page := 0, alt := false, backlight := p.backlight && !c.cb 0xB0000 31 })

/-- R119, R268, R269, R271-R276, R278-R283: the drives. An under-voltage turns the drives of its supply off and counts each
that was on; an over-current takes a retry or locks; the retry wait's end uses one; the thermal latch
cancels a wait; tests that conclude show what they found; a command word commands the host's drives and no
other; a heartbeat's answer brings junction temperatures and currents, which are free values (log 155); the loss of the controller opens the hold window or
the fail state and a claim takes each output as its command. R255, R265: a drive of the trip map is off while the bay
trips and, with the pilot gate enabled, outside the pilot states C (3) and D (4), but in limp-home (phase 3), where the
drive die acts alone. -/
def Obligations.DriveConditions : Prop :=
  ∀ (b fell ok : Bool) (n : DriveNo) (m : Master5) (k : Fin 3) (v : W32) (dies : BitVec 12) (lh : W8)
    (s : State),
    Settled s →
    let c := s.chip
    let x := c.drive n.val
    let others := fun (d : Chip) => ∀ j, j ≠ n.val → d.drive j = c.drive j
    let sets := fun (i : Instr) (y : Drive) => completes i s (fun d => d.drive n.val = y ∧ others d ∧
      keepsBut [.drv] c d)
    let frame := keepsBut [.drv, .bay, .evt, .ferry, .hint] c
    let counts := fun (code : Nat) (d : Chip) =>
      (Tbl.get {} d.evt.src code).cnt = satInc (Tbl.get {} c.evt.src code).cnt
    let lock := decide (40 ≤ n.val) || x.retryLeft == 0
    let tests := n.val < 40 ∧ c.driveOn n.val = true ∧ c.driveLimit n.val = false ∧ c.inLamp n.val = false
    let failed := fun (j : Nat) => if (c.drive j).fs = 2 ∧ c.drv.limpArm = true ∧ c.drv.failCg5 = false ∧ j < 40
      then { c.drive j with phase := 3 }
      else { c.drive j with phase := 2, frozen := decide ((c.drive j).fs = 1) && decide (j < 40) && c.driveOn j }
    let routine := c.cb (aDcfg n.val) 24 = true ∧ x.testing = 0
    let mapped := (if n.val < 32 then c.cb 0xC0004 n.val else c.cb 0xC0008 (n.val - 32)) = true
    let becomes := fun (j : Nat) (y : Drive) (d : Chip) => { d.drive j with onAt := none } = { y with onAt := none }
    ((if b then c.drv.uvB else c.drv.uvA) = false → completes (.voutUndervolt b) s (fun d =>
      d.drv.uvA = (c.drv.uvA || !b) ∧ d.drv.uvB = (c.drv.uvB || b) ∧ counts 0x0D04 d ∧
      (if b then d.power.voutBOk else d.power.voutAOk) = false ∧
      (∀ j, j < 48 → onVoutB j = b → d.driveOn j = false ∧
        (d.drive j).cntUv = (if c.driveOn j then satInc (c.drive j).cntUv else (c.drive j).cntUv)) ∧
      (∀ j, j < 48 → onVoutB j ≠ b → d.drive j = c.drive j) ∧
      keepsBut [.drv, .power, .bay, .evt, .ferry, .hint] c d)) ∧
    completes (.voutRecover b) s (fun d => d.drv.uvA = (c.drv.uvA && b) ∧ d.drv.uvB = (c.drv.uvB && !b) ∧
      (if b then d.power.voutBOk else d.power.voutAOk) = true ∧ (∀ j, j < 48 → becomes j (c.drive j) d) ∧
      keepsBut [.drv, .power] c d) ∧
    completes (.voutOverload b) s (fun d => counts 0x0D0C d ∧ keepsBut noteBlocks c d) ∧
    (c.driveOn n.val = true → c.inLamp n.val = false → completes (.drvOvercurrent n) s (fun d => d.driveOn n.val = false ∧
      d.drive n.val = { x with cntOc := satInc x.cntOc, ocWait := !lock, ocLock := lock, current := 0 } ∧
      others d ∧ counts 0x0D01 d ∧ (lock = true → counts 0x0D02 d) ∧ frame d)) ∧
    (x.ocWait = true → completes (.drvRetry n) s (fun d => (d.drive n.val).ocWait = false ∧
      (d.drive n.val).retryLeft = (if d.driveOn n.val then x.retryLeft - 1 else x.retryLeft) ∧ others d ∧
      keepsBut [.drv] c d)) ∧
    (x.ocWait = false → answers (.drvRetry n) s c) ∧
    (c.driveOn n.val = true → sets (.drvRetryReload n) { x with retryLeft := BitVec.ofNat 4 (c.cf (aDcfg n.val) 20 4) }) ∧
    (x.therm = false → completes (.drvThermal n) s (fun d => d.driveOn n.val = false ∧
      d.drive n.val = { x with therm := true, ocWait := false, tj := 175, cntTherm := satInc x.cntTherm } ∧
      others d ∧ counts 0x0D03 d ∧ frame d)) ∧
    (x.ticket = 0 → x.testing = 0 → tests →
      (c.cb (aDcfg n.val) 25 = true → completes (.drvTestPulse n fell true) s (fun d =>
        (d.drive n.val).shortHi = !fell ∧ (d.drive n.val).incRun = 0 ∧ (d.drive n.val).cmd = x.cmd ∧
        (fell = false → counts 0x0D06 d) ∧ others d ∧ frame d)) ∧
      (c.cb (aDcfg n.val) 25 = true → completes (.drvTestPulse n fell false) s (fun d =>
        (d.drive n.val).cntInc = satInc x.cntInc ∧ (d.drive n.val).incRun = x.incRun + 1 ∧
        (d.drive n.val).testRetry = true ∧ (d.drive n.val).shortHi = x.shortHi ∧
        (9 ≤ x.incRun → x.starved = false → counts 0x0D08 d) ∧ others d ∧ frame d)) ∧
      (c.cb (aDcfg n.val) 25 = false → answers (.drvTestPulse n fell ok) s c) ∧
      (x.testRetry = true → c.drvOwner n.val ≠ 3 → completes (.drvTestRetry n fell true) s (fun d =>
        (d.drive n.val).shortHi = !fell ∧ (d.drive n.val).testRetry = false ∧ others d ∧ frame d))) ∧
    (x.testRetry = false → answers (.drvTestRetry n fell ok) s c) ∧
    (c.inLamp n.val = true → answers (.drvOvercurrent n) s c) ∧
    (routine → completes (.drvOpenLoad n .load) s (fun d => others d ∧ frame d ∧
      d.drive n.val = { x with openL := false, incRun := 0, starved := false, testRetry := false })) ∧
    (routine → completes (.drvOpenLoad n .noLoad) s (fun d => others d ∧ frame d ∧
      d.drive n.val = { x with openL := true, incRun := 0, starved := false, testRetry := false } ∧
      (x.openL = false → counts 0x0D05 d))) ∧
    (routine → x.ticket = 0 → completes (.drvOpenLoad n .aborted) s (fun d => others d ∧ frame d ∧
      (d.drive n.val).cntInc = satInc x.cntInc ∧ (d.drive n.val).incRun = x.incRun + 1 ∧
      (d.drive n.val).testRetry = true ∧ (d.drive n.val).openL = x.openL ∧
      (9 ≤ x.incRun → x.starved = false → counts 0x0D08 d))) ∧
    (c.cb 0xD0000 29 = true → completes (.drvClampTest n ok) s (fun d =>
      d.drive n.val = { x with clampBad := !ok } ∧ (ok = false → counts 0x0D07 d) ∧ others d ∧ frame d)) ∧
    (writes m (0xD0200 + 4 * k.val) v c →
      (∀ i, i < 16 → (c.drive (16 * k.val + i)).testing = 0) →
      completes (.drvCmdWrite m k v) s (fun d => ∀ i, i < 16 → let j := 16 * k.val + i
        d.drive j = if v.getLsbD (16 + i) = true ∧ c.drvOwner j = 2
          then { c.drive j with cmd := v.getLsbD i, frozen := (c.drive j).frozen && v.getLsbD i, onAt := (d.drive j).onAt }
          else c.drive j)) ∧
    completes .drvHeartbeat s (fun d => d.drv.lost = false ∧
      (∀ j, j < 48 → becomes j { c.drive j with tj := (dieRead c.free j).1,
                                                current := (dieRead c.free j).2 } d) ∧
      keepsBut [.drv, .free] c d) ∧
    (c.drv.lost = true → answers .controllerLost s c) ∧
    (c.drv.lost = false → c.drv.holdEn = true → c.pair.formed = false →
      completes .controllerLost s (fun d => d.drv.lost = true ∧
        (∀ j, j < 48 → becomes j (if (c.drive j).phase = 0
          then { c.drive j with phase := 1, frozen := (c.drive j).cmd } else c.drive j) d) ∧ frame d)) ∧
    (c.drv.lost = false → (c.drv.holdEn = false ∨ c.pair.formed = true) → completes .controllerLost s (fun d => d.drv.lost = true ∧
      (∀ j, j < 48 → becomes j (if (c.drive j).phase.toNat ≤ 1 then failed j else c.drive j) d) ∧ frame d)) ∧
    (c.drv.lost = true → completes .holdWindowExpire s (fun d => d.drv.holdExt = false ∧
      (∀ j, j < 48 → becomes j (if (c.drive j).phase = 1 then failed j else c.drive j) d) ∧ frame d)) ∧
    completes (.drvClaim dies none) s (fun d => ∀ j, j < 48 →
      d.drive j = if dies.getLsbD (j / 8) then { c.drive j with cmd := c.driveOn j, phase := 0 } else c.drive j) ∧
    completes (.drvClaim dies (some m)) s (fun d => d.sys.deniedCnt = satInc c.sys.deniedCnt ∧
      (∀ j, d.drive j = c.drive j) ∧ keepsBut [.sys, .evt, .ferry, .hint] c d) ∧
    (x.phase ≠ 3 → mapped → (c.bay.trip = true ∨ (c.cb 0xC0000 26 = true ∧ c.bay.pilotState ≠ 3 ∧ c.bay.pilotState ≠ 4)) →
      c.driveOn n.val = false) ∧
    (x.phase = 0 → c.dieHolds n.val = false → c.modeHolds n.val = false → c.standbyHolds n.val = false →
      c.postHolds n.val = false → c.drvGranted n.val = true → c.bay.trip = false →
      (c.cb 0xC0000 26 = false ∨ c.bay.pilotState = 3 ∨ c.bay.pilotState = 4) → c.driveOn n.val = x.cmd) ∧
    completes (.lhInputChange lh) s (fun d => d.drv.lh = lh ∧
      (∀ j, j < 48 → becomes j (c.drive j) d) ∧ keepsBut [.drv] c d)

/-- R121, R248, R250, R251, R253, R256, R258, R261-R265, R407: the bay. Three samples of CP in one class confirm a state;
PP, CAN, the residual-current and insulation inputs and the modem do what their rules say; a reload starts
the program at its entry and a lockstep mismatch stops it. R406: a poll of the modem counts for what it brings while
the modem is up and the status byte's CRC-16 is right: frames where RX_READY shows, and one frame written where
TX_SPACE shows, which stays where CRC_ERR follows. -/
def Obligations.BayConditions : Prop :=
  ∀ (n : Fin 16) (v lo : Int) (ohms : Nat) (q : V2gReq) (p : Fin 2) (id t : W32) (data : List W8) (k : Fin 4)
    (on : Bool) (kohm : W16) (fs : List ModemFrame) (y : ModemStatus) (u : W8) (a : V2gAns) (tx : List V2gAns)
    (s : State), Settled s →
    let c := s.chip
    let g := c.bay
    let x := c.bayImg (c.cf 0xC0000 0 2)
    let port := c.canPort p.val
    let up := c.v2gEn = true ∧ g.modemUp.any (fun z => decide (z ≤ c.now)) = true
    let counts := fun (code : Nat) (d : Chip) =>
      (Tbl.get {} d.evt.src code).cnt = satInc (Tbl.get {} c.evt.src code).cnt
    let frame := keepsBut [.bay, .evt, .ferry, .hint] c
    (c.rdy rSV = false → answers .bayReloadDone s c) ∧
    (c.rdy rSV = true → (g.run = 1 ∨ g.run = 4) → x.installed = true → (x.bad1 && x.bad2) = false → completes .bayReloadDone s (fun d =>
      d.bay.run = 2 ∧ d.rdy rBAY = true ∧ d.bay.core = { pc := x.initAt, busy := true } ∧
      d.bay.mem = Mem.wrN [] 0 x.dataSec ∧ d.bay.timers = [] ∧ d.bay.loaded = some (c.cf 0xC0000 0 2))) ∧
    (g.run ≠ 1 → g.run ≠ 4 → answers .bayReloadDone s c) ∧
    (Tbl.get 0 g.timers n.val ≠ 0 → completes (.bayTimerExpire n) s (fun d => Tbl.get 0 d.bay.timers n.val = 0 ∧
      d.bay.events = g.events ||| BitVec.ofNat 32 (2 ^ n.val) ∧ keepsBut [.bay] c d)) ∧
    (c.pilotEn = true → completes (.pilotStateChange ⟨v, v, v⟩ lo) s (fun d =>
      d.bay.pilotState = (if (if c.isStandby then -13000 ≤ v ∧ v ≤ -11000 else c.pilotOut = 0xFFFF) then 6
        else if 11000 ≤ v ∧ v ≤ 13000 then 1 else if 8000 ≤ v ∧ v ≤ 10000 then 2
        else if 5000 ≤ v ∧ v ≤ 7000 then 3 else if 2000 ≤ v ∧ v ≤ 4000 then 4
        else if -1000 ≤ v ∧ v ≤ 1000 then 5 else 0) ∧
      (d.bay.pilotState ≠ g.pilotState → d.bay.events.getLsbD 16 = true) ∧ d.bay.core = g.core ∧ frame d)) ∧
    (c.pilotEn = false → answers (.pilotStateChange ⟨v, v, v⟩ lo) s c) ∧
    (c.ppEn = true → completes (.ppMeasure ohms) s (fun d => d.bay.pp = (if 4500 < ohms then 0
        else if 1100 ≤ ohms ∧ ohms ≤ 2460 then 1 else if 400 ≤ ohms ∧ ohms ≤ 936 then 2
        else if 164 ≤ ohms ∧ ohms ≤ 300 then 3 else if 75 ≤ ohms ∧ ohms ≤ 130 then 4 else 15) ∧
      (d.bay.pp ≠ g.pp → d.bay.events.getLsbD 17 = true) ∧ frame d)) ∧
    (c.v2gEn = true → c.pair.role ≠ 2 → (c.sys.changeover = true ∨ g.run = 3) → completes (.v2gRequest q) s (fun d =>
      d.bay = { g with v2gHeld := g.v2gHeld ++ [q] } ∧ keepsBut [.bay] c d)) ∧
    (c.v2gEn = true → c.pair.role ≠ 2 → c.sys.changeover = false → g.run ≠ 3 → q.msg ∈ [1, 2, 3, 4, 6, 8, 9] → v2gForeign q = false →
      completes (.v2gRequest q) s (fun d => d.bay.v2gConn = true ∧ d.bay.v2gAns.msg = q.msg ∧
        d.bay.modemTx = g.modemTx ++ [d.bay.v2gAns] ∧ d.bay.v2gSeq = g.v2gSeq + 1 ∧
        d.bay.events.getLsbD 20 = true ∧ frame d)) ∧
    (c.v2gEn = true → c.pair.role ≠ 2 → c.sys.changeover = false → g.run ≠ 3 → v2gForeign q = true →
      completes (.v2gRequest q) s (fun d => d.bay.v2gConn = false ∧ d.bay.v2gAns.failed = true ∧ counts 0x0C08 d ∧
        d.bay.events.getLsbD 20 = true ∧ frame d)) ∧
    (c.canAccepts p.val id = true → id.toNat / 2 ^ 18 % 256 ≠ 0x3F →
      (port.rx.length < 64 → completes (.canFrameRx p id data t) s (fun d =>
        (d.canPort p.val).rx = port.rx ++ [wordBytes (BitVec.ofNat 32 (id.toNat % 2 ^ 29)) ++ wordBytes t ++ data] ∧
        (d.canPort p.val).tx = port.tx ∧ d.bay.events.getLsbD (18 + p.val) = true ∧ keepsBut [.bay] c d)) ∧
      (64 ≤ port.rx.length → completes (.canFrameRx p id data t) s (fun d =>
        d.canPort p.val = { port with drop := satInc port.drop } ∧ keepsBut [.bay] c d))) ∧
    (c.canAccepts p.val id = false → answers (.canFrameRx p id data t) s c) ∧
    (c.canEn p.val = true →
      completes (.canFrameTx p) s (fun d => d.canPort p.val = { port with tx := port.tx.drop 1 } ∧
        keepsBut [.bay] c d) ∧
      completes (.canBusOff p) s (fun d => d.canPort p.val = { port with busOff := satInc port.busOff } ∧
        counts 0x0C07 d ∧ frame d)) ∧
    completes (.rcmFltInput k on) s (fun d => d.bay.rcmFlt.getLsbD k.val = on ∧
      (∀ j, j ≠ k.val → d.bay.rcmFlt.getLsbD j = g.rcmFlt.getLsbD j) ∧
      (on = true → c.cb 0xC000C k.val = true → d.bay.trip = true) ∧ frame d) ∧
    (c.imdEn = true → completes (.imdMeasure kohm) s (fun d =>
      d.bay.riso = (if 10000 < kohm.toNat then 0xFFFF else kohm) ∧
      (kohm.toNat * 1000 < 100 * c.cf 0xC000C 4 11 → d.bay.iso = 3 ∧ (c.cb 0xC000C 31 = true → d.bay.trip = true)) ∧
      (550 * c.cf 0xC000C 4 11 ≤ kohm.toNat * 1000 → d.bay.iso = 1) ∧ frame d)) ∧
    ((g.run = 2 ∨ g.run = 3) → completes .bayLockstep s (fun d => d.bay.faultCode = 0x20 ∧
      (d.bay.run = 4 ∨ d.bay.run = 6) ∧ d.rdy rBAY = false ∧ d.bay.pilotReq = 0xFFFF ∧ d.bay.v2gConn = false ∧
      counts 0x0C01 d)) ∧
    (c.sys.changeover = false → c.rdy rSV = true → g.v2gHeld = [] →
      (c.bayStale = false → completes .bayPauseEnd s (fun d =>
        d.bay.run = (if g.run = 3 then 2 else g.run) ∧ d.bay.v2gHeld = [] ∧ frame d)) ∧
      (c.bayStale = true → completes .bayPauseEnd s (fun d => d.bay.run = (if c.bayEn then 1 else 0)))) ∧
    ((c.sys.changeover = true ∨ c.rdy rSV = false) → answers .bayPauseEnd s c) ∧
    (up → y.crc = crc16 [y.status] →
      completes (.modemPoll (some y) fs []) s (fun d => d.bay = { g with
        modem := true, modemStatus := y.status,
        modemRx := g.modemRx ++ (if y.status.getLsbD 0 then modemKeep fs else []) } ∧ keepsBut [.bay] c d) ∧
      (y.status.getLsbD 1 = true → g.modemTx = a :: tx → completes (.modemPoll (some y) fs [u]) s (fun d =>
        d.bay.modemTx = (if u.getLsbD 3 then g.modemTx else tx) ∧ d.bay.modemStatus = u ∧
        d.bay.modemSent = modemWrite (Config.v2gFrame a.fields) :: g.modemSent ∧ keepsBut [.bay] c d)) ∧
      (y.status.getLsbD 1 = false → completes (.modemPoll (some y) fs [u]) s (fun d =>
        d.bay.modemTx = g.modemTx ∧ d.bay.modemSent = g.modemSent ∧ keepsBut [.bay] c d))) ∧
    ((¬ up ∨ y.crc ≠ crc16 [y.status]) → answers (.modemPoll (some y) fs [u]) s c) ∧
    answers (.modemPoll none fs [u]) s c ∧
    (¬ up → answers .modemFault s c) ∧
    (up → completes .modemFault s (fun d => d.bay.modem = false ∧ d.bay.modemTx = [] ∧
      d.bay.v2gConn = false ∧ counts 0x0C09 d ∧ (g.v2gConn = true → counts 0x0C08 d) ∧ frame d))

/-- R291, R293, R294, R295, R296, R297, R305: the zones of both channels. A zone in GRANT or DEMAND trips at once on a
local demand with its cause and follows the causes that end by themselves; a pair in discrepancy, or one
whose test pulse fails twice, puts its zone in FAULT; a valid acknowledgement restarts the eligible zones
and no other edge of SAFE_ACK does. -/
def Obligations.SafetyZones : Prop :=
  ∀ (e b second : Bool) (k : Fin 4) (m : Fin 8) (sf edge : W16) (fell : Fell) (ac dc : Bool) (cause : BitVec 5) (t : Nat)
    (s : State), Settled s →
    let c := s.chip
    let x := { c.chan e with inp := if e then edge else sf }
    let z := (c.chan e).zone k.val
    let after := fun (d : Chip) => (d.chan e).zone k.val
    let frame := keepsBut [.safe, .sys, .bay, .evt, .ferry, .hint] c
    let seen := if e then fell.edge else fell.sf
    let missed := ((c.pulsed e b &&& ~~~ seen) ||| (c.pulsed e (!b) &&& seen)) &&& ((c.chan e).pbad ||| (c.chan e).pbadB)
    let sits := z.st ≠ 2 ∧ z.st ≠ 3
    completes (.safetyInputChange sf edge) s (fun d => d.safe.sf.inp = sf ∧ d.safe.edge.inp = edge ∧
      d.safe.global = c.safe.global ∧ frame d ∧
      (sits → (after d).st = z.st ∧ (after d).cause = z.cause) ∧
      ((z.st = 2 ∨ z.st = 3) → c.localTrip x k.val = some cause → (after d).st = 4 ∧ (after d).cause = cause ∧
        (c.safe.sfUp = true → e = false → Tbl.get 0 d.safe.trips k.val = satInc (Tbl.get 0 c.safe.trips k.val))) ∧
      ((z.st = 2 ∨ z.st = 3) → c.tmpl k.val ≠ 6 → c.tripCause x k.val = none →
        (after d).st = if c.softCause x k.val = none then 2 else 3) ∧
      (z.st = 2 → c.tmpl k.val = 6 → c.remoteCause k.val = none → x.handOn (2 * k.val) = false →
        (after d).st = 3 ∧ (after d).cause = 6)) ∧
    completes (.safetyTestPulse b fell true) s (fun d => frame d ∧
      (b = false → d.safe.tpGood = min 100 (c.safe.tpGood + 1) ∧ d.safe.tpGoodB = c.safe.tpGoodB) ∧
      (b = true → d.safe.tpGoodB = min 100 (c.safe.tpGoodB + 1) ∧ d.safe.tpGood = c.safe.tpGood) ∧
      (c.pulsed false b = fell.sf → d.safe.sf.zones = c.safe.sf.zones) ∧
      (c.pulsed true b = fell.edge → d.safe.edge.zones = c.safe.edge.zones) ∧
      (c.chanRuns e = true → missed.toNat / 4 ^ m.val % 4 ≠ 0 → c.tmpl (m.val / 2) ≠ 0 →
        ((c.chan e).zone (m.val / 2)).flt = 0 → ((d.chan e).zone (m.val / 2)).st = 5)) ∧
    completes (.safetyTestPulse b fell false) s (fun d =>
      d.safe.tpGood = (if b then c.safe.tpGood else 0) ∧ d.safe.tpGoodB = (if b then 0 else c.safe.tpGoodB) ∧ d.safe.global.getLsbD 6 = true ∧ frame d) ∧
    completes (.discrepancyTimeout k second) s (fun d => frame d ∧
      (pairUsed (c.tmpl k.val) second = true → (z.st = 5 ∨ z.flt = 0) → (c.chan e).discrep (c.tmpl k.val) (2 * k.val + second.toNat) = true →
        (after d).st = 5 ∧ (z.st ≠ 5 → (after d).cause = 10)) ∧
      ((c.chan e).discrep (c.tmpl k.val) (2 * k.val + second.toNat) = false → after d = z)) ∧
    completes (.safeAckEdge true) s (fun d => d.safe = { c.safe with ackHigh := some c.now } ∧ keepsBut [.safe] c d) ∧
    (c.safe.ackHigh = some t → t + 6400 ≤ c.now → c.now ≤ t + 64000 → c.safe.ackStuck = false → c.safe.global = 0 →
      completes (.safeAckEdge false) s (fun d => d.safe.ackHigh = none ∧ frame d ∧
        (c.ackable (c.chan e) k.val = true → (after d).st = if c.softCause (c.chan e) k.val = none then 2 else 3) ∧
        (c.ackable (c.chan e) k.val = false → sits → (after d).st = z.st))) ∧
    ((c.safe.ackHigh = none ∨ (c.safe.ackHigh = some t ∧ (c.now < t + 6400 ∨ t + 64000 < c.now))) →
      completes (.safeAckEdge false) s (fun d => d.safe.ackHigh = none ∧ d.safe.sf = c.safe.sf ∧
        d.safe.edge = c.safe.edge ∧ d.safe.global = c.safe.global ∧ frame d)) ∧
    (c.safe.ackHigh = some t → c.safe.ackStuck = false → completes .safeAckStuck s (fun d =>
      d.safe = { c.safe with ackStuck := true } ∧
      (Tbl.get {} d.evt.src 0x0E07).cnt = satInc (Tbl.get {} c.evt.src 0x0E07).cnt ∧ frame d)) ∧
    (c.safe.ackHigh = none → answers .safeAckStuck s c) ∧
    completes (.rdcTrip k ac dc) s (fun d => d.safe.rdcAc.getLsbD k.val = ac ∧ d.safe.rdcDc.getLsbD k.val = dc ∧ frame d ∧
      (z.st = 2 → c.tmpl k.val = 7 → (c.chan e).closed (2 * k.val) = true → (ac || dc) = true →
        (after d).st = 4 ∧ (after d).cause = 7))

/-- R286, R287, R289, R290, R299, R307: what makes the channels cut. A switch word both channels read alike, with known
templates, is adopted and disables the zones it gives no template; disagreeing channels, a switch that
changes, a stuck switch, a table that differs and a silent SF each latch their global fault, after which no
zone is granted; a reloaded SF takes its zones from the other channel and grants nothing yet. -/
def Obligations.SafetyChannels : Prop :=
  ∀ (e : Bool) (k : Fin 4) (i : Fin 16) (n : Fin 8) (sf edge w : W16) (stuck : StuckSeen) (s : State), Settled s →
    let c := s.chip
    let g := c.safe
    let read := if c.sfRuns then sf else g.sf.sw
    let frame := keepsBut [.safe, .sys, .bay, .evt, .ferry, .hint] c
    let cuts := fun (n : Nat) (d : Chip) => d.safe.global.getLsbD n = true ∧ d.zoneGranted k.val = false ∧
      (g.global.getLsbD n = false → ((c.chan e).zone k.val).st ≠ 0 → ((d.chan e).zone k.val).st = 5)
    let notes := fun (n : Nat) (d : Chip) => g.global.getLsbD n = false →
      (Tbl.get {} d.evt.src 0x0E04).cnt = satInc (Tbl.get {} c.evt.src 0x0E04).cnt
    let differ := fun (j : Nat) => c.safeCond = false ∧ ¬ ((g.sf.zone j).st = 2 ↔ (g.edge.zone j).st = 2)
    let long := ∃ j ∈ List.range 4, differ j ∧ 5 ≤ Tbl.get 0 g.grantMm j
    let bits := (stuck.pulse &&& c.energised) ||| (stuck.cut &&& ~~~ c.energised)
    let known := fun (v : W16) => ∀ j, j < 4 → tmplOf v j ≤ 8
    let start := c.switchRead true sf edge
    (c.sfRuns = true → g.edgeUp = true → completes .crossLinkExchange s (fun d => frame d ∧
      (∀ j, j < 4 → (differ j → Tbl.get 0 d.safe.grantMm j = Tbl.get 0 g.grantMm j + 1) ∧
        (¬ differ j → Tbl.get 0 d.safe.grantMm j = 0)) ∧
      ((∀ j, j < 4 → ¬ differ j) → d.safe.agreeing = min 1000 (g.agreeing + 1)) ∧
      (long → cuts 4 d ∧ notes 4 d ∧ d.rdy rSF = false) ∧
      (¬ long → d.safe.global = g.global ∧ (d.rdy rSF = true ↔ d.safe.agreeing = 1000)))) ∧
    ((c.sfRuns = false ∨ g.edgeUp = false) → answers .crossLinkExchange s c) ∧
    (g.sfUp = true → completes .sfSilent s (fun d => d.safe.sfUp = false ∧ d.rdy rSF = false ∧ cuts 7 d ∧ notes 7 d ∧ frame d)) ∧
    (g.sfUp = false → answers .sfSilent s c) ∧
    (g.global.getLsbD 7 = true → g.sfUp = false → c.rdy rSV = true → completes .sfReload s (fun d =>
      d.safe.sfUp = true ∧ d.rdy rSF = c.rdy rSF ∧ d.safe.agreeing = 0 ∧ d.safe.sf.zones = g.edge.zones ∧
      d.safe.global = g.global ∧ d.zoneGranted k.val = false ∧
      (d.conn i.val).st = (if c.escEn i.val = true ∧ c.postNo ≠ 0 then 1 else 0) ∧
      keepsBut [.safe, .sys, .bay, .evt, .ferry, .hint, .free] c d)) ∧
    ((g.global.getLsbD 7 = false ∨ g.sfUp = true ∨ c.rdy rSV = false) → answers .sfReload s c) ∧
    (g.edgeUp = false → answers (.safetySwitchRead sf edge) s c) ∧
    (g.edgeUp = true → completes (.safetySwitchRead sf edge) s (fun d => d.safe.adopted = g.adopted ∧ frame d ∧
      d.safe.sf.sw = read ∧ d.safe.edge.sw = edge ∧ (read ≠ edge → cuts 1 d) ∧
      (¬ (known read ∧ known edge) → cuts 2 d) ∧
      (g.adopted = some w → (read ≠ w ∨ edge ≠ w) → cuts 3 d ∧ (read = edge → known edge → notes 3 d)) ∧
      ((g.adopted = none ∨ g.adopted = some edge) → read = edge → known edge → d.safe.global = g.global ∧
        d.safe.sf.zones = g.sf.zones ∧ d.safe.edge.zones = g.edge.zones))) ∧
    (g.adopted = none → g.global.getLsbD 1 = false → g.global.getLsbD 2 = false →
        (sf ≠ edge → cuts 1 start ∧ start.safe.adopted = none) ∧
        (sf = edge → ¬ known sf → cuts 2 start ∧ start.safe.adopted = none) ∧
        (sf = edge → known sf → start.safe.adopted = some sf ∧ start.safe.global = g.global ∧
          (tmplOf sf k.val = 0 → ((start.chan e).zone k.val).st = 0) ∧
          (tmplOf sf k.val ≠ 0 → (start.chan e).zone k.val = (c.chan e).zone k.val) ∧
          (swCrc sf ≠ g.prevCrc → ((start.swRecord g.prevCrc).trec 21).cnt = satInc (c.trec 21).cnt))) ∧
    (c.chanRuns e = true → bits &&& ~~~ g.stuck ≠ 0 → completes (.safetyDriveOffPulse e stuck) s (fun d =>
      d.safe.stuck = g.stuck ||| bits ∧ cuts 5 d ∧ frame d ∧
      (bits &&& ~~~ g.stuck = BitVec.ofNat 8 (2 ^ n.val) →
        (Tbl.get {} d.evt.src 0x0E04).cnt = satInc (Tbl.get {} c.evt.src 0x0E04).cnt ∧
        (c.rdy rSV = true → c.evt.ring = [] → ∃ y ∈ d.evt.ring, y.code = 0x0E04 ∧ y.arg1 = BitVec.ofNat 32 (40 + n.val))))) ∧
    ((c.chanRuns e = false ∨ bits &&& ~~~ g.stuck = 0) → answers (.safetyDriveOffPulse e stuck) s c) ∧
    (c.sfRuns = false → answers (.sfTableCheck true) s c) ∧
    (c.sfRuns = true → completes (.sfTableCheck true) s (fun d => cuts 8 d ∧ notes 8 d ∧ frame d)) ∧
    answers (.sfTableCheck false) s c

/-- R301, R303, R304: Eombelan connections. A frame with a right check, the partner's side, this connection's
WD_MS, the next sequence number and a known echo is accepted with its permit; a wrong check is counted; a repeated frame is
ignored and a lost one ends the connection; nothing accepted for WD_MS ends it, and it restarts. -/
def Obligations.EombelanConnections : Prop :=
  ∀ (i : Fin 16) (f : List W8) (s : State), Settled s →
    let c := s.chip
    let x := c.conn i.val
    let ty := (f.getD 0 0).toNat
    let seq := frU16 f 2
    let frame := keepsBut [.safe, .sys, .bay, .evt, .ferry, .hint] c
    let counts := fun (code : Nat) (d : Chip) =>
      (Tbl.get {} d.evt.src code).cnt = satInc (Tbl.get {} c.evt.src code).cnt
    let lost := fun (r : BitVec 5) (d : Chip) => (d.conn i.val).st = 3 ∧ (d.conn i.val).reason = r ∧
      (d.conn i.val).rx = 0 ∧ counts 0x0E06 d ∧ frame d
    let via := (c.escA i.val).toNat / 2 ^ 28 % 4
    let free := c.sfRuns = true ∧ x.sentAt.all (fun z => decide (z + 32 ≤ c.now)) = true
    let leaves := fun (b : List W8) (d : Chip) => let o := (d.conn i.val).out.headD {}
      (d.conn i.val).out = o :: x.out ∧ o.via.toNat = via ∧
      o.bytes = (if via = 2 then b ++ [0, 0] else b) ∧ o.udp.toNat = (if via < 2 then 6171 else 0)
    let formed := c.sfRuns = true ∧ c.escEn i.val = true ∧ (x.st = 1 ∨ x.st = 2) ∧ f.getD 1 0 = 4 ∧ f.length = 14 ∧
      (c.escA i.val).toNat / 2 ^ 28 % 4 ≠ 2 ∧ ty / 16 % 8 = 0 ∧ (ty % 16 = 1 ∨ ty % 16 = 2)
    let checks := crc32esc (c.escId i.val) (f.take 10) = BitVec.ofNat 32 (leAt f 10 4) ∧
      (128 ≤ ty ↔ c.escSide i.val = false) ∧ leAt f 4 2 = c.escWd i.val
    let known := ∃ p ∈ x.sent, p.1 = frU16 f 6 ∧ c.now ≤ p.2 + 32 * c.escWd i.val
    ((c.escEn i.val = false ∨ x.st = 0) → answers (.escFrameRx i f) s c) ∧
    (formed → crc32esc (c.escId i.val) (f.take 10) ≠ BitVec.ofNat 32 (leAt f 10 4) → x.crcFails.length < 10 →
      completes (.escFrameRx i f) s (fun d => (d.conn i.val).cntCrc = satInc x.cntCrc ∧ (d.conn i.val).st = x.st ∧
        (d.conn i.val).rx = x.rx ∧ frame d)) ∧
    (formed → checks → known → ty % 16 = 2 → x.st = 2 → seq = x.lastAcc + 1 → completes (.escFrameRx i f) s (fun d =>
      (d.conn i.val).st = 2 ∧ (d.conn i.val).rx = f.getD 8 0 ∧ (d.conn i.val).lastAcc = seq ∧
      (d.conn i.val).accepted = true ∧ frame d)) ∧
    (formed → checks → known → x.st = 1 → completes (.escFrameRx i f) s (fun d =>
      (d.conn i.val).lastAcc = seq ∧ (d.conn i.val).accepted = true ∧ frame d ∧
      (c.postNo = 0 → (d.conn i.val).st = 1 ∧ (d.conn i.val).rx = 0) ∧
      (c.postNo ≠ 0 → (d.conn i.val).st = 2 ∧ (d.conn i.val).rx = f.getD 8 0 ∧ counts 0x0E05 d))) ∧
    (formed → checks → ty % 16 = 2 → x.st = 2 → seq = x.lastAcc → completes (.escFrameRx i f) s (fun d =>
      d.conn i.val = { x with cntDup := satInc x.cntDup } ∧ frame d)) ∧
    (formed → checks → ty % 16 = 2 → x.st = 2 → seq ≠ x.lastAcc → seq ≠ x.lastAcc + 1 →
      completes (.escFrameRx i f) s (fun d => lost 4 d ∧ (d.conn i.val).cntSeq = satInc x.cntSeq)) ∧
    (x.st = 2 → free → completes (.escSendTimer i) s (fun d => (d.conn i.val).seq = x.seq + 1 ∧
      leaves (c.escFrame i.val false (x.seq + 1)) d ∧ keepsBut [.safe] c d)) ∧
    (x.st = 1 → c.postNo ≠ 0 → free → completes (.escSendTimer i) s (fun d =>
      (d.conn i.val).seq = (if x.seq = 0xFFFF then 1 else x.seq + 1) ∧
      leaves (c.escFrame i.val true (d.conn i.val).seq) d ∧ keepsBut [.safe] c d)) ∧
    (c.sfRuns = true → ¬ free → (x.st = 2 ∨ (x.st = 1 ∧ c.postNo ≠ 0)) → completes (.escSendTimer i) s (fun d =>
      d.conn i.val = { x with owed := true } ∧ keepsBut [.safe] c d)) ∧
    (c.sfRuns = false → answers (.escSendTimer i) s c ∧ answers (.escFrameRx i f) s c ∧ answers (.escWatchdog i) s c ∧
      answers (.escRestart i) s c) ∧
    (x.st = 1 → c.postNo = 0 → answers (.escSendTimer i) s c) ∧
    (x.st ≠ 1 → x.st ≠ 2 → answers (.escSendTimer i) s c ∧ answers (.escWatchdog i) s c) ∧
    (c.sfRuns = true → (x.st = 1 ∨ x.st = 2) → completes (.escWatchdog i) s (fun d => lost 1 d ∧
      (d.conn i.val).cntWd = satInc x.cntWd)) ∧
    (c.sfRuns = true → x.st = 3 → c.postNo = 0 → completes (.escRestart i) s (fun d =>
      d.conn i.val = { x with st := 0 } ∧ keepsBut [.safe] c d)) ∧
    (c.sfRuns = true → x.st = 3 → c.escEn i.val = true → c.postNo ≠ 0 → free → completes (.escRestart i) s (fun d => (d.conn i.val).st = 1 ∧
      (d.conn i.val).accepted = false ∧ (d.conn i.val).rx = 0 ∧ (d.conn i.val).seq ≠ 0 ∧
      keepsBut [.safe, .free] c d))

/-- R310, R311, R312, R323, R324, R325, R327, R331: the reader. A poll measures the antenna where it switches the field on (log 56), shows a
new badge and a new tag once, keeps a known one alive, counts a full table and ends an answered transfer;
what has been missed long enough leaves; a slice marker passes the field on; the mirror's blocks are the
plate data and their signature. -/
def Obligations.ReaderPolls : Prop :=
  ∀ (r : PollResult) (b : BadgeSeen) (t : TagSeen) (x : Xfer) (y : XferReply) (i : Nat) (s : State), Settled s →
    let c := s.chip
    let l := c.link
    let goes := c.fieldMay = true ∧ (r.antennaOk = true ∨ l.field = true)
    let aged := l.badges.map (fun z => { z with missed := min 3 (z.missed + 1) })
    let fresh := t.id ≠ 0 ∧ t.id ≠ BitVec.allOnes 64 ∧ t.id ≠ c.sys.deviceId
    let crosses := c.cb 0xF0000 29 = true ∧ c.fq4Holds = false ∧ r.badges = [] ∧ r.tags = [t] ∧ l.xfers = []
    let one := c.cb 0xF0000 29 = true ∧ r.badges = [] ∧ r.tags = [] ∧ l.xfers = [x] ∧ (l.tag x.index).present = true ∧
      x.op.getLsbD 0 = false ∧ c.fq4Holds = false
    let answer := r.replies.find? (fun z => z.index == x.index && z.answered)
    let lim := (c.cf 0xF0000 12 8 + 1) * 32000
    let may := c.cb 0xF0000 31 = true ∧ c.rdy rLINK = true ∧ c.power.onAux = false ∧ c.sys.changeover = false ∧
      c.retired = false ∧ l.antFault = false
    let frame := keepsBut [.link, .bay, .evt, .ferry, .hint] c
    let counts := fun (code : Nat) (d : Chip) =>
      (Tbl.get {} d.evt.src code).cnt = satInc (Tbl.get {} c.evt.src code).cnt
    (c.fieldMay = false → answers (.linkPoll r) s c) ∧
    (c.fieldMay = true → l.field = false → r.antennaOk = false → completes (.linkPoll r) s (fun d =>
      d.link = { l with field := false, antFault := true } ∧ counts 0x0F01 d ∧ frame d)) ∧
    (goes → r.badges = [] → r.tags = [] → l.xfers = [] → completes (.linkPoll r) s (fun d =>
      d.link = { l with field := c.cb 0xF0000 26, air := d.link.air, badges := aged,
                        cntCrc := satAdd l.cntCrc (r.crcErrors + r.bad.length) } ∧
      keepsBut [.link] c d)) ∧
    (goes → r.badges = [b] → r.tags = [] → l.xfers = [] → c.cb 0xF0000 30 = true → c.cb 0xF0000 28 = false →
      b.supported = true → (b.len = 4 → b.uid &&& 0xFF ≠ 8) → l.badges.length < 4 →
      (∀ z ∈ l.badges, z.uid ≠ b.uid ∨ z.len ≠ b.len) → completes (.linkPoll r) s (fun d =>
        d.link.badges = aged ++ [{ uid := b.uid, len := b.len, auth := false }] ∧ d.bay.lkWr = c.bay.lkWr + 1 ∧
        d.bay.events.getLsbD 21 = true ∧ frame d)) ∧
    (goes → crosses → fresh → i < 16 → (l.tag i).present = false → (∀ j, j < i → (l.tag j).present = true) →
      (∀ j, j < 16 → (l.tag j).present = true → (l.tag j).id ≠ t.id) → c.cb 0xF0000 27 = false →
      completes (.linkPoll r) s (fun d =>
        d.link.tag i = { present := true, id := t.id, batt := t.batt, cls := t.cls, medium := t.medium, seen := c.now } ∧
        (∀ j, j ≠ i → d.link.tag j = l.tag j) ∧ frame d)) ∧
    (goes → crosses → fresh → i < 16 → (l.tag i).present = true → (l.tag i).id = t.id →
      (∀ j, j < i → (l.tag j).id ≠ t.id) → completes (.linkPoll r) s (fun d =>
        d.link.tag i = { l.tag i with seen := c.now } ∧ (∀ j, j ≠ i → d.link.tag j = l.tag j) ∧ keepsBut [.link] c d)) ∧
    (goes → crosses → fresh → (∀ j, j < 16 → (l.tag j).present = true ∧ (l.tag j).id ≠ t.id) →
      completes (.linkPoll r) s (fun d => d.link.cntOver = satInc l.cntOver ∧ counts 0x0F03 d ∧
        d.link.tags = l.tags ∧ frame d)) ∧
    (goes → one → answer = some y → completes (.linkPoll r) s (fun d => d.link.xfers = [] ∧
      ((c.ticketOut x.ticket).isSome = true → d.tix.done.head? = some (x.ticket, y.status)))) ∧
    (goes → one → answer = none → x.polls < 2 → completes (.linkPoll r) s (fun d =>
      d.link.xfers = [{ x with polls := x.polls + 1 }] ∧ keepsBut [.link] c d)) ∧
    (goes → one → answer = none → 2 ≤ x.polls → completes (.linkPoll r) s (fun d => d.link.xfers = [] ∧
      ((c.ticketOut x.ticket).isSome = true → d.tix.done.head? = some (x.ticket, 0x11)))) ∧
    completes .tagLeft s (fun d => d.link.badges = l.badges.filter (fun z => decide (z.missed < 2)) ∧
      (∀ j, j < 16 → d.link.tag j = if (l.tag j).present = true ∧ (l.tag j).seen + lim < c.now then {} else l.tag j) ∧
      frame d) ∧
    (c.pair.formed = true → c.pair.j11Up = true → completes .sliceMarker s (fun d =>
      d.pair = { c.pair with markRun := min 50 (c.pair.markRun + 1), evenSlice := !c.pair.evenSlice } ∧
      d.link.sliceOwn = (d.pair.evenSlice == c.lowerId) ∧
      (49 ≤ c.pair.markRun → (d.link.sliceOwn = true ∧ may →
          d.link.field = c.draw.1.getLsbD 0 ∧ d.link.antFault = !c.draw.1.getLsbD 0) ∧
        (¬ (d.link.sliceOwn = true ∧ may) → d.link.field = false)) ∧
      keepsBut [.pair, .link, .free, .evt, .ferry, .hint] c d)) ∧
    ((c.pair.formed = false ∨ c.pair.j11Up = false) → answers .sliceMarker s c) ∧
    completes .plateMirrorUpdate s (fun d => (∀ j, j < 64 → l.plate.locked j = false →
      d.link.plate.block j = slice (c.mirrorData ++ c.mirrorSig c.mirrorData) (32 * j) 32 ∧
      d.link.plate.ver j = l.plate.ver j + 1) ∧
      (∀ j, (64 ≤ j ∨ l.plate.locked j = true) → d.link.plate.block j = l.plate.block j ∧ d.link.plate.ver j = l.plate.ver j) ∧
      keepsBut [.link] c d)

/-- R315, R317, R318, R321, R322, R326, R328, R329: the plate tag. Each command does what its state and key allow and nothing else (logs 52, 53); a frame with a wrong check gets no reply. A frame is what its first byte
says, whichever row brings it, and in ACTIVE (2) a code that no row has is answered UNKNOWN_CMD. A reply ends with the check bytes of R315. -/
def Obligations.PlateTag : Prop :=
  ∀ (f rest : List W8) (rate : Bool) (q k blk first n : W8) (key : BitVec 128) (d0 : List W8) (ms : Nat) (a : PlateAcc)
    (s : State), Settled s →
    let c := s.chip
    let p := c.link.plate
    let rows : List ((List W8 → Instr) × W8) := [(.crossingReq, 1), (.crossingSel, 2), (.crossingHalt, 3),
      (.crossingQuiet, 4), (.crossingStatus, 5), (.crossingRead, 0x10), (.crossingWrite, 0x11), (.crossingAuth1, 0x20),
      (.crossingAuth2, 0x21), (.crossingAuth3, 0x22), (.crossingSread, 0x30), (.crossingSwrite, 0x31)]
    let fr := fun (l : List W8) => l ++ crcBytes l
    let quiet := p.hold = none ∧ p.queue = []
    let replies := fun (row : List W8 → Instr) (body : List W8) (z : Plate) =>
      completes (row (fr body)) s (fun d => d.link.plate = z ∧ { d.link with plate := p } = c.link ∧
        keepsBut [.link] c d)
    let kept := if p.auth = 3 then (3 : BitVec 2) else 0
    let pw := { p with ctrRx := 0, ctrTx := 0 }
    let t := Config.cbcOpen key rest
    let ra := bytes128 (t.take 16)
    let rb := bytes128 (slice t 16 16)
    let token := Config.cbcSeal key (b128Bytes rb ++ b128Bytes ra)
    let sealed := Config.ccmSeal p.ks (p.nonce true) [0x30, blk, 1] (p.verBlock blk.toNat)
    (∀ y ∈ rows, ∀ z ∈ rows, f.head? = some z.2 → exec (y.1 f) s = exec (z.1 f) s) ∧
    (∀ y ∈ rows, quiet → p.st = 2 → (∀ z ∈ rows, (fr f).head? ≠ some z.2) →
      replies y.1 f { p with auth := kept, reply := fr [0x0F] }) ∧
    (∀ z ∈ rows, f ≠ fr f.dropLast.dropLast → completes (z.1 f) s (fun d =>
      d.link = { c.link with plate := { p with reply := [] } } ∧ keepsBut [.link] c d)) ∧
    (quiet → p.st ≠ 3 → completes (.crossingReq (fr [1])) s (fun d => d.link.plate.st = 1 ∧
      d.link.plate.reply = fr c.idBytes ∧ d.link.plate.blocks = p.blocks ∧ keepsBut (.link :: noteBlocks) c d)) ∧
    (quiet → p.st = 1 → replies .crossingSel (2 :: 64 :: c.idBytes ++ [if rate then 1 else 0])
      { p with st := 2, rate := rate, auth := kept, reply := fr (0 :: c.selAck) }) ∧
    (quiet → p.st = 2 → completes (.crossingHalt (fr [3])) s (fun d => d.link.plate.st = 3 ∧
      d.link.plate.reply = fr [0] ∧ d.link.plate.auth = 0 ∧ keepsBut (.link :: noteBlocks) c d)) ∧
    (quiet → p.st = 2 → q ≠ 0 → replies .crossingQuiet [4, q] { p with qt := q, auth := kept, reply := fr [0] }) ∧
    (quiet → p.st = 2 → replies .crossingStatus [5] { p with auth := kept, reply := fr (0 :: c.selAck) }) ∧
    (quiet → p.st = 2 → blk.toNat < 0x40 → replies .crossingRead [0x10, blk, 1]
      { p with auth := kept, hold := some blk.toNat, reply := fr (0 :: p.verBlock blk.toNat) }) ∧
    (quiet → p.st = 2 → 0x40 ≤ blk.toNat → replies .crossingRead [0x10, blk, 1] { p with auth := kept, reply := fr [4] }) ∧
    (quiet → p.st = 2 → rest.length = 35 → replies .crossingWrite (0x11 :: blk :: 1 :: rest)
      { p with auth := kept, reply := fr [4] }) ∧
    (quiet → p.st = 2 → k.toNat ≤ 3 → p.key k.toNat = some key →
      completes (.crossingAuth1 (fr [0x20, k])) s (fun d => d.link.plate.auth = 1 ∧ d.link.plate.authKey.toNat = k.toNat ∧
        d.link.plate.rndB = c.draw128.1 ∧ d.link.plate.reply = fr (0 :: b128Bytes c.draw128.1) ∧
        keepsBut (.link :: .free :: noteBlocks) c d)) ∧
    (quiet → p.st = 2 → p.auth = 1 → p.key p.authKey.toNat = some key → rest.length = 32 →
      (rb = p.rndB → replies .crossingAuth2 (0x21 :: rest)
        { p with auth := 2, rndA := ra, ks := crossSes key ra rb, reply := fr (0 :: token) }) ∧
      (rb ≠ p.rndB → replies .crossingAuth2 (0x21 :: rest) { p with auth := 0, reply := fr [5] })) ∧
    (quiet → p.st = 2 → p.auth = 2 → rest.length = 10 →
      Config.ccmOpen p.ks (pw.nonce false) [0x22] rest = some (first :: n :: d0) → first.toNat + n.toNat ≤ 256 →
      completes (.crossingAuth3 (fr (0x22 :: rest))) s (fun d => d.link.plate.auth = 3 ∧
        d.link.plate.lockFirst = first.toNat ∧ d.link.plate.lockCount = n.toNat ∧
        d.link.plate.ctrRx = 1 ∧ d.link.plate.ctrTx = 1 ∧ d.link.plate.blocks = p.blocks)) ∧
    (quiet → p.st = 2 → p.auth = 3 → p.mayRead blk.toNat = true → replies .crossingSread [0x30, blk, 1]
      { p with hold := some blk.toNat, ctrTx := p.ctrTx + 1, reply := fr (0 :: sealed) }) ∧
    (quiet → p.st = 2 → p.auth = 3 → rest.length = 43 → p.mayWrite blk.toNat = true →
      Config.ccmOpen p.ks (p.nonce false) [0x31, blk, 1] rest = some d0 → (d0.getD 0 0).getLsbD 0 = false →
      completes (.crossingSwrite (fr (0x31 :: blk :: 1 :: rest))) s (fun d =>
        d.link.plate.block blk.toNat = (slice d0 3 32 ++ List.replicate 32 0).take 32 ∧
        d.link.plate.ver blk.toNat = p.ver blk.toNat + 1 ∧ d.link.plate.ctrRx = p.ctrRx + 1 ∧
        (∀ j, j ≠ blk.toNat → d.link.plate.block j = p.block j ∧ d.link.plate.ver j = p.ver j) ∧
        (Tbl.get {} d.evt.src 0x0F04).cnt = satInc (Tbl.get {} c.evt.src 0x0F04).cnt)) ∧
    (8 ≤ ms → p.st ≠ 3 → completes (.fieldGap ms) s (fun d => d.link.plate.st = 0 ∧ d.link.plate.auth = 0 ∧
      d.link.plate.lockCount = 0 ∧ d.link.plate.blocks = p.blocks)) ∧
    ((ms < 8 ∨ p.st = 3) → answers (.fieldGap ms) s c) ∧
    completes .quietTimeExpire s (fun d =>
      d.link = { c.link with plate := { p with st := if p.st = 3 then 0 else p.st } } ∧ keepsBut [.link] c d) ∧
    completes .crossingSessionTimeout s (fun d => d.link.plate.auth = (if p.auth = 3 then 0 else p.auth) ∧
      (p.auth = 3 → d.link.plate.lockCount = 0) ∧ d.link.plate.st = p.st ∧ d.link.plate.blocks = p.blocks) ∧
    (p.queue = [] → completes .plateHoldEnd s (fun d =>
      d.link = { c.link with plate := { p with hold := none } } ∧ keepsBut [.link] c d)) ∧
    (p.queue = [a] → a.write = true → p.locked a.block = true → completes .plateHoldEnd s (fun d =>
      d.link.plate = { p with hold := none, queue := [] } ∧
      ((c.ticketOut a.ticket).isSome = true → d.tix.done.head? = some (a.ticket, 0x03)))) ∧
    (p.queue = [a] → a.write = true → p.locked a.block = false → a.vchk = false → completes .plateHoldEnd s (fun d => d.link.plate.hold = none ∧
      d.link.plate.queue = [] ∧ d.link.plate.ver a.block = p.ver a.block + 1 ∧
      d.link.plate.block a.block = (a.data ++ List.replicate 32 0).take 32 ∧
      ((c.ticketOut a.ticket).isSome = true → d.tix.done.head? = some (a.ticket, 0))))

/-- R338, R345, R349, R351, R354, R355: the security engine. The working key register serves one engine after the other; a
grant that expires is reported; the grace of a condemned key ends with its material gone; a class A
detector zeroises the keys and the sessions, and a fresh ledger key follows; a session that times out
releases what it held; J12 is served as the life cycle says. -/
def Obligations.SecurityEngine : Prop :=
  ∀ (e e' : Fin 5) (i i' : Fin 64) (t : Fin 4) (m : Master5) (a : Fin 16) (debug : Bool) (s : State), Settled s →
    let c := s.chip
    let k := c.key.kwr
    let x := c.master m.val
    let counts := fun (code : Nat) (d : Chip) =>
      (Tbl.get {} d.evt.src code).cnt = satInc (Tbl.get {} c.evt.src code).cnt
    let asks := fun (z : Kwr) => completes (.kwrRequest e i) s (fun d =>
      d.key = { c.key with kwr := z } ∧ keepsBut [.key] c d)
    (c.rdy rKEYS = false → asks { k with result := Tbl.put 0 k.result e.val 0x02 }) ∧
    (c.rdy rKEYS = true → c.kwrCheck e.val i.val ≠ 0 →
      asks { k with result := Tbl.put 0 k.result e.val (c.kwrCheck e.val i.val) }) ∧
    (c.rdy rKEYS = true → c.kwrCheck e.val i.val = 0 → k.eng = none →
      asks { k with eng := some e.val, slot := i.val, result := Tbl.put 0 k.result e.val 0 }) ∧
    (c.rdy rKEYS = true → c.kwrCheck e.val i.val = 0 → k.eng = some e'.val →
      asks { k with queue := k.queue ++ [(e.val, i.val)], result := Tbl.put 0 k.result e.val 1 }) ∧
    (k.eng = some e.val → k.grace = false → k.queue = [] → k.plate = true → completes (.kwrRelease e) s (fun d =>
      d.key.kwr.eng = none ∧ d.key.kwr.plate = false ∧ d.key.kwr.queue = [] ∧
      { d.link.plate with key1 := c.link.plate.key1, src1 := c.link.plate.src1, key2 := c.link.plate.key2,
                          src2 := c.link.plate.src2 } = c.link.plate)) ∧
    (k.eng = some e.val → k.grace = false → k.queue = [] → k.plate = false → completes (.kwrRelease e) s (fun d =>
      d.key = { c.key with kwr := { k with eng := none, slot := 0 } } ∧ keepsBut [.key] c d)) ∧
    (k.eng = some e.val → k.grace = false → k.queue = [(e'.val, i'.val)] → c.kwrCheck e'.val i'.val = 0 →
      completes (.kwrRelease e) s (fun d => d.key.kwr.eng = some e'.val ∧ d.key.kwr.slot = i'.val ∧
        d.key.kwr.queue = [] ∧ keepsBut [.key] c d)) ∧
    (k.eng ≠ some e.val → answers (.kwrRelease e) s c) ∧
    (k.eng = some e.val → k.grace = false → k.queue = [] → k.plate = false → completes .kwrTimeout s (fun d => d.key.kwr.eng = none ∧
      Tbl.get 0 d.key.kwr.result e.val = 0x11 ∧ counts 0x1007 d ∧ keepsBut (.key :: noteBlocks) c d)) ∧
    (k.eng = none → answers .kwrTimeout s c) ∧
    (k.grace = true → k.queue = [] → completes .condemnGraceEnd s (fun d => d.key.kwr.grace = false ∧ d.key.kwr.eng = none ∧
      (∀ j, j < 64 → (c.kslot j).condemned = true → (d.kslot j).a.mat = [] ∧ (d.kslot j).b.mat = []))) ∧
    (k.grace = false → answers .condemnGraceEnd s c) ∧
    (c.power.saving = false → c.power.off = false →
      completes (.classATamper t) s (fun d => (d.trec (27 + t.val)).cnt = satInc (c.trec (27 + t.val)).cnt ∧
        ((c.key.lc = 0 ∨ c.key.lc = 4) → d.key = c.key) ∧
        (c.key.lc ≠ 0 → c.key.lc ≠ 4 → d.key.kekSeed = 0 ∧ d.key.lc = 1 ∧ d.sys.qcause.getLsbD 2 = true ∧
          d.rdy rKEYS = false ∧ (∀ j, 1 ≤ j → j < 64 → (d.kslot j).empty = true) ∧ counts 0x1003 d ∧
          (x.conn = true ∨ m = 0 → (d.master m.val).role = 0)))) ∧
    (c.key.zeroPend = true → c.power.off = false → completes .zeroiseRekey s (fun d => d.key.zeroPend = false ∧
      d.rdy rKEYS = true ∧ d.ledger.keyGen = c.ledger.keyGen + 1 ∧ (d.kslot 1).empty = false ∧ d.key.kekSeed ≠ 0 ∧
      counts 0x1006 d)) ∧
    ((c.key.zeroPend = false ∨ c.power.off = true) → answers .zeroiseRekey s c) ∧
    (x.role ≠ 0 → completes (.sessionTimeout m) s (fun d =>
      d.master m.val = { x with role := 0, account := 0xFF, sess := x.sess + 1 } ∧
      (∀ n ∈ landsOf m.val, d.land n = {}) ∧ (∀ g, g < 12 → c.cfgOwner g = some m.val → d.cfgOwner g = none) ∧
      (∀ q, q < 8 → (c.fq q).owner = some m.val → (d.fq q).owner = none) ∧
      (c.bay.signal = none → d.bay = c.bay) ∧
      keepsBut [.masters, .lands, .cfg, .bay, .evt, .ferry, .hint] c d)) ∧
    (x.role = 0 → answers (.sessionTimeout m) s c) ∧
    ((c.acct a.val).lockTo ≤ c.now → completes (.lockoutEnd a) s (fun d => d.acct a.val = { c.acct a.val with lockTo := 0 } ∧
      (∀ j, j ≠ a.val → d.acct j = c.acct j) ∧ keepsBut [.key] c d)) ∧
    (c.now < (c.acct a.val).lockTo → completes (.lockoutEnd a) s (fun d =>
      (∀ j, d.acct j = c.acct j) ∧ keepsBut [.key] c d)) ∧
    (c.power.saving = false → c.power.off = false → completes (.servicePortAccess debug) s (fun d =>
      d.key.j12 = (if debug = false then 1 else if c.key.lc = 0 ∨ c.key.lc = 3 then 2 else 3) ∧
      d.key.j12Data = (if debug = false then c.labelData else []) ∧
      (debug = true → c.key.lc = 2 → (d.trec 20).cnt = satInc (c.trec 20).cnt) ∧
      keepsBut [.key, .tamper, .ledger, .evt, .ferry, .hint] c d)) ∧
    ((c.power.saving = true ∨ c.power.off = true) → answers (.servicePortAccess debug) s c)

/-- R359, R361-R367, R369, R379, R380, R423: firmware changes. A boot in CHANGEOVER starts the trial image, loads settings and
takes the drives over; the changeover ends with its ticket; its watchdog and the trial's give the new slot
up for the previous one; a good image is confirmed; SV's own resets lose the tickets and sessions and
the settings are loaded again. -/
def Obligations.FirmwareChanges : Prop :=
  ∀ (k : Fin 8) (j : Nat) (s : State), Settled s →
    let c := s.chip
    let u := c.upd
    let b := u.bootSlot
    let x := u.slot b
    let g := c.group k.val
    let counts := fun (code : Nat) (d : Chip) =>
      (Tbl.get {} d.evt.src code).cnt = satInc (Tbl.get {} c.evt.src code).cnt
    let loads := c.cfg.gens = [] ∨ ∃ g ∈ c.cfg.gens, x.reads g.fmt = true
    let runs := fun (d : Chip) => d.rdy rSV = true ∧ d.rdy rLINK = true ∧ d.net.nxUp = true ∧ d.cfg.loaded = true ∧
      d.upd.runSlot = (if b then 1 else 0) ∧ (j < 48 → (d.drive j).phase = 0)
    let gives := fun (why : BitVec 3) (d : Chip) => (d.upd.slot b).st = 4 ∧ d.upd.bootSlot = !b ∧ d.upd.lastFail = why ∧
      d.upd.coRevert = true ∧ d.sys.changeover = true ∧ d.sys.cause = 6 ∧ d.rdy rSV = false ∧ counts 0x1104 d
    let resets := fun (i : Instr) (cause : W8) =>
      (c.power.saving = true → answers i s c) ∧
      (c.power.saving = false → completes i s (fun d => d.rdy rSV = false ∧ d.sys.cause = cause ∧
        d.sys.prevCause = c.sys.cause ∧ d.sys.resetCount = satInc c.sys.resetCount ∧ d.tix.out = [] ∧
        (d.master 0).role = 0 ∧ d.net.nxUp = false ∧ d.pair.role = 0 ∧ d.pair.formed = false ∧ d.cfg.live = c.cfg.live))
    (c.sys.changeover = true → c.rdy rSV = false → c.power.saving = false → c.sys.cause = 5 → x.st = 2 → x.bad = false →
      loads → completes .changeoverBoot s (fun d => runs d ∧ d.upd.coStep = 4 ∧ d.upd.trialFrom = c.now ∧ d.upd.phase = 2 ∧
        d.sys.changeover = true)) ∧
    ((c.sys.changeover = false ∨ c.rdy rSV = true ∨ c.power.saving = true) → answers .changeoverBoot s c) ∧
    (c.sys.changeover = true → c.rdy rSV = true → u.handover = [] → completes .changeoverResume s (fun d =>
      d.sys.changeover = false ∧ d.upd.coStep = 0 ∧ d.upd.coTicket = 0 ∧ d.upd.fwRecPend = true ∧
      ((c.ticketOut u.coTicket).isSome = true → d.tix.done.head? =
        some (u.coTicket, if u.coRevert = false ∨ u.lastFail = 5 then 0 else 0x12)))) ∧
    (c.sys.changeover = true → c.rdy rSV = true → u.coStep = 5 → (∃ h ∈ u.handover, (c.eng h.1).run = ruRESTART) →
      answers .changeoverResume s c) ∧
    ((c.sys.changeover = false ∨ c.rdy rSV = false) → answers .changeoverResume s c) ∧
    (c.sys.changeover = true → u.coRevert = false → completes .changeoverWatchdog s (gives 2)) ∧
    ((c.sys.changeover = false ∨ u.coRevert = true) → answers .changeoverWatchdog s c) ∧
    (c.sys.changeover = false → c.onTrial = true → c.rdy rSV = true → completes .trialWatchdog s (gives 1)) ∧
    ((c.sys.changeover = true ∨ c.onTrial = false ∨ c.rdy rSV = false) → answers .trialWatchdog s c) ∧
    ((g.bridgeOn = true → g.bridgeLost = none → 98304 ≤ g.bridge → completes (.bridgeOverflow k) s (fun d =>
        d.group k.val = { g with bridgeLost := some (g.newest + c.gridD k.val) } ∧ counts 0x1107 d ∧
        keepsBut (.groups :: noteBlocks) c d)) ∧
      ((g.bridgeOn = false ∨ g.bridge < 98304) → answers (.bridgeOverflow k) s c)) ∧
    (c.onTrial = true → c.sys.changeover = false → c.rdy rSV = true → c.health = 15 → completes .updHealthWrite s (fun d =>
      (d.upd.slot (u.runSlot == 1)).st = 3 ∧ d.upd.roll = c.runImg.anti ∧ d.upd.sfVer = c.runImg.sfVer ∧
      d.upd.phase = 0 ∧ d.upd.fellBack = false ∧ d.cfg.trialChanged = 0 ∧ counts 0x1103 d ∧
      keepsBut [.upd, .cfg, .evt, .ferry, .hint] c d)) ∧
    ((c.onTrial = false ∨ c.sys.changeover = true ∨ c.rdy rSV = false ∨ c.health ≠ 15) → answers .updHealthWrite s c) ∧
    resets .svWatchdog 2 ∧ resets .svLockstep 3 ∧
    (c.rdy rSV = false → c.power.saving = false → c.sys.changeover = false → x.st = 3 → x.bad = false → loads →
      completes .svResetExit s (fun d => runs d ∧ d.upd.phase = 0)) ∧
    ((c.rdy rSV = true ∨ c.power.saving = true) → answers .svResetExit s c)

/-- R14, R20, R372, R383, R384, R388, R389, R390, R410: the pair, the network and lockstep. A heartbeat of the same
post forms the pair and settles the roles; one of another post holds the drives off; a standby takes
over from a lost partner; a lane that goes may take the link with it; NET follows its links; a mismatch
stops its island. -/
def Obligations.PairAndIslands : Prop :=
  ∀ (h : Heartbeat) (lane : Fin 2) (port : Fin 4) (up : Bool) (s : State), Settled s →
    let c := s.chip
    let p := c.pair
    let active := h.role = 1 ∨ h.role = 3
    let path := c.heartPath h.udp = true ∧ h.macOk = true
    let counts := fun (code : Nat) (d : Chip) =>
      (Tbl.get {} d.evt.src code).cnt = satInc (Tbl.get {} c.evt.src code).cnt
    let heard := fun (d : Chip) => d.pair.pRole = h.role ∧ d.pair.pMode = h.mode ∧ d.pair.pReady = h.ready ∧
      d.pair.pSeq = h.seq ∧ d.pair.pSafe = h.safe ∧ d.pair.pTrial = h.trial
    ((c.heartPath h.udp = false ∨ h.macOk = false) → answers (.pairHeartbeat h) s c) ∧
    (path → p.formed = false → h.post.toNat = c.postNo → (p.j11Up = true ∨ h.udp = false) →
      completes (.pairHeartbeat h) s (fun d => heard d ∧ d.pair.formed = true ∧ d.pair.mismatch = false ∧
        d.pair.pid = h.id ∧ d.rdy rPAIR = true ∧ counts 0x1302 d ∧
        (p.role = 0 → active → d.pair.role = 2) ∧ (p.role = 3 → ¬ active → d.pair.role = 1) ∧
        (p.role = 0 → ¬ active → d.pair.role = if c.pairPrefers h then 1 else 2))) ∧
    (path → p.formed = false → h.post.toNat ≠ c.postNo → completes (.pairHeartbeat h) s (fun d => heard d ∧
      d.pair.mismatch = true ∧ d.pair.formed = false ∧ (p.mismatch = false → counts 0x1301 d) ∧
      (∀ n, n < 40 → (d.drive n).phase.toNat < 2 → d.driveOn n = false))) ∧
    (path → p.formed = true → p.role = 2 → h.handOver = true → h.check = none → completes (.pairHeartbeat h) s (fun d =>
      heard d ∧ d.pair.role = 1 ∧ d.pair.byFailover = false)) ∧
    (path → p.formed = true → (p.role = 1 ∨ p.role = 3) → active → p.switchT = 0 → p.switchUpd = false → h.check = none →
      completes (.pairHeartbeat h) s (fun d => heard d ∧ d.pair.role =
        if (if p.byFailover != h.failover then p.byFailover else c.pairPrefers h) = true then 1 else 2)) ∧
    (c.pairEn = true → c.rdy rSV = true → p.formed = false → p.role = 0 → p.j11Up = false → c.udpUp = false →
      completes .pairAloneTimeout s (fun d => d.pair = { p with role := 3 } ∧ keepsBut [.pair] c d)) ∧
    ((p.formed = true ∨ p.role ≠ 0) → answers .pairAloneTimeout s c) ∧
    (p.formed = true → p.role = 2 → c.rdy rSV = true → p.switchT = 0 → p.switchUpd = false →
      completes .pairPartnerLost s (fun d => d.pair.formed = false ∧ d.pair.role = 1 ∧ d.pair.byFailover = true ∧
        d.pair.failovers = satInc p.failovers ∧ d.rdy rPAIR = false ∧ counts 0x1304 d)) ∧
    (p.formed = false → answers .pairPartnerLost s c) ∧
    (p.lane.getLsbD lane.val = true → completes (.pairLaneLoss lane) s (fun d => d.pair.lane.getLsbD lane.val = false ∧
      (∀ j, j ≠ lane.val → d.pair.lane.getLsbD j = p.lane.getLsbD j) ∧
      (d.pair.lane = 0 → d.pair.j11Up = false ∧ d.pair.markRun = 0 ∧ (c.pairEn = true → counts 0x1303 d)) ∧
      (d.pair.lane ≠ 0 → d.pair.j11Up = p.j11Up ∧ keepsBut [.pair] c d))) ∧
    (p.lane.getLsbD lane.val = false → answers (.pairLaneLoss lane) s c) ∧
    completes (.pairLaneRejoin lane) s (fun d => d.pair.lane.getLsbD lane.val = true ∧
      (∀ j, j ≠ lane.val → d.pair.lane.getLsbD j = p.lane.getLsbD j) ∧ keepsBut [.pair] c d) ∧
    completes (.netLinkChange port up) s (fun d => d.net.links.getLsbD port.val = up ∧
      (∀ j, j ≠ port.val → d.net.links.getLsbD j = c.net.links.getLsbD j) ∧ d.rdy rNET = d.netOk ∧
      (∀ j, j ≠ 18 → d.rdy j = c.rdy j) ∧ keepsBut [.net, .sys] c d) ∧
    completes (.engineLockstepMismatch .lk) s (fun d => d.rdy rLINK = false ∧ d.link.field = false ∧
      d.sys.dead.getLsbD 7 = true ∧ keepsBut [.sys, .link] c d) ∧
    completes (.engineLockstepMismatch .nx) s (fun d => d.rdy rNET = false ∧ d.net.nxUp = false ∧
      d.sys.dead.getLsbD 8 = true ∧ (d.master 1).conn = false) ∧
    completes (.engineLockstepMismatch .sc) s (fun d => d.rdy rKEYS = false ∧ d.sys.dead.getLsbD 4 = true ∧
      keepsBut [.sys] c d) ∧
    completes (.engineLockstepMismatch .sf) s (fun d => d.rdy rSF = false ∧ d.sfRuns = false ∧
      d.safe = { c.safe with sfStopped := true } ∧ keepsBut [.sys, .safe, .bay, .evt, .ferry, .hint] c d)
end

