-- ==== Sys2Proof/Laws/Tables.lean ====
section
/-! SUPPORT. The sparse tables and byte memories: a read after a write, the canonical form every
write keeps, and that equal contents are equal tables. -/

namespace Sys2Proof.Machine

open Sys2Proof

section
variable {α : Type}

theorem Tbl.get_ins (d v : α) : ∀ (t : Tbl α) (k i : Nat),
    Tbl.get d (Tbl.ins t k v) i = if i = k then v else Tbl.get d t i
  | [], k, i => by
    by_cases h : k = i
    · simp [Tbl.ins, Tbl.get, h]
    · simp [Tbl.ins, Tbl.get, h, Ne.symm h]
  | (j, a) :: t, k, i => by
    simp only [Tbl.ins]
    split
    · by_cases h : k = i
      · simp [Tbl.get, h]
      · simp [Tbl.get, h, Ne.symm h]
    · split
      · rename_i h
        subst h
        by_cases h : j = i
        · simp [Tbl.get, h]
        · simp [Tbl.get, h, Ne.symm h]
      · rename_i h
        by_cases hj : j = i
        · subst hj
          simp [Tbl.get, h]
        · simp [Tbl.get, hj, Tbl.get_ins d v t k i]

theorem Tbl.get_del (d : α) : ∀ (t : Tbl α) (k i : Nat),
    Tbl.get d (Tbl.del t k) i = if i = k then d else Tbl.get d t i
  | [], k, i => by simp [Tbl.del, Tbl.get]
  | (j, a) :: t, k, i => by
    simp only [Tbl.del]
    split
    · rename_i h
      subst h
      rw [Tbl.get_del d t j i]
      by_cases h : i = j
      · simp [h]
      · simp [h, Tbl.get, Ne.symm h]
    · rename_i h
      by_cases hj : j = i
      · subst hj
        simp [Tbl.get, h]
      · simp [Tbl.get, hj, Tbl.get_del d t k i]

/-- A read after a write: the value written there, and every other entry as before. -/
@[simp] theorem Tbl.get_put [DecidableEq α] (d : α) (t : Tbl α) (k i : Nat) (v : α) :
    Tbl.get d (Tbl.put d t k v) i = if i = k then v else Tbl.get d t i := by
  unfold Tbl.put
  split
  · rename_i h
    rw [Tbl.get_del, h]
  · exact Tbl.get_ins d v t k i

theorem Tbl.wfFrom_mono [DecidableEq α] (d : α) : ∀ (t : Tbl α) (lo hi : Nat), lo ≤ hi →
    Tbl.wfFrom d hi t = true → Tbl.wfFrom d lo t = true
  | [], _, _, _, _ => rfl
  | (j, a) :: t, lo, hi, hle, h => by
    simp only [Tbl.wfFrom, Bool.and_eq_true, decide_eq_true_eq] at h ⊢
    exact ⟨⟨by omega, h.1.2⟩, h.2⟩

theorem Tbl.wfFrom_ins [DecidableEq α] (d v : α) (hv : v ≠ d) : ∀ (t : Tbl α) (lo k : Nat), lo ≤ k →
    Tbl.wfFrom d lo t = true → Tbl.wfFrom d lo (Tbl.ins t k v) = true
  | [], lo, k, hk, _ => by simp [Tbl.ins, Tbl.wfFrom, hk, hv]
  | (j, a) :: t, lo, k, hk, h => by
    simp only [Tbl.wfFrom, Bool.and_eq_true, decide_eq_true_eq] at h
    simp only [Tbl.ins]
    split
    · rename_i hkj
      simp only [Tbl.wfFrom, Bool.and_eq_true, decide_eq_true_eq]
      exact ⟨⟨hk, hv⟩, ⟨by omega, h.1.2⟩, h.2⟩
    · split
      · rename_i h1 h2
        subst h2
        simp only [Tbl.wfFrom, Bool.and_eq_true, decide_eq_true_eq]
        exact ⟨⟨hk, hv⟩, h.2⟩
      · simp only [Tbl.wfFrom, Bool.and_eq_true, decide_eq_true_eq]
        exact ⟨h.1, Tbl.wfFrom_ins d v hv t (j + 1) k (by omega) h.2⟩

theorem Tbl.wfFrom_del [DecidableEq α] (d : α) : ∀ (t : Tbl α) (lo k : Nat),
    Tbl.wfFrom d lo t = true → Tbl.wfFrom d lo (Tbl.del t k) = true
  | [], _, _, _ => rfl
  | (j, a) :: t, lo, k, h => by
    simp only [Tbl.wfFrom, Bool.and_eq_true, decide_eq_true_eq] at h
    simp only [Tbl.del]
    split
    · exact Tbl.wfFrom_del d t lo k (Tbl.wfFrom_mono d t lo (j + 1) (by omega) h.2)
    · simp only [Tbl.wfFrom, Bool.and_eq_true, decide_eq_true_eq]
      exact ⟨h.1, Tbl.wfFrom_del d t (j + 1) k h.2⟩

/-- Every write keeps the canonical form. -/
theorem Tbl.wf_put [DecidableEq α] (d : α) (t : Tbl α) (k : Nat) (v : α) (h : Tbl.wf d t = true) :
    Tbl.wf d (Tbl.put d t k v) = true := by
  unfold Tbl.put
  split
  · exact Tbl.wfFrom_del d t 0 k h
  · rename_i hv
    exact Tbl.wfFrom_ins d v hv t 0 k (Nat.zero_le _) h

end

/-- A byte read after a byte write. -/
@[simp] theorem Mem.rd_wr (m : Mem) (a b : Nat) (v : W8) :
    Mem.rd (Mem.wr m a v) b = if b = a then v else Mem.rd m b :=
  Tbl.get_put 0 m a b v

/-- A byte write keeps the canonical form. -/
theorem Mem.wf_wr (m : Mem) (a : Nat) (v : W8) (h : Memory.wf m = true) :
    Memory.wf (Mem.wr m a v) = true := Tbl.wf_put 0 m a v h

/-- A write of several bytes keeps the canonical form. -/
theorem Mem.wf_wrN : ∀ (l : List W8) (m : Mem) (a : Nat), Memory.wf m = true →
    Memory.wf (Mem.wrN m a l) = true
  | [], _, _, h => h
  | _ :: t, m, a, h => Mem.wf_wrN t _ _ (Mem.wf_wr m a _ h)

/-- A write of several bytes leaves every other byte as it was. -/
theorem Mem.rd_wrN_other : ∀ (l : List W8) (m : Mem) (a b : Nat),
    b < a ∨ a + l.length ≤ b → Mem.rd (Mem.wrN m a l) b = Mem.rd m b
  | [], _, _, _, _ => rfl
  | v :: t, m, a, b, hb => by
    have hl : (v :: t).length = t.length + 1 := rfl
    have hb' : b < a + 1 ∨ a + 1 + t.length ≤ b := by omega
    have hne : b ≠ a := by omega
    rw [Mem.wrN, Mem.rd_wrN_other t _ _ _ hb', Mem.rd_wr m a b v, if_neg hne]

/-- A 64-bit write keeps the canonical form. -/
theorem Mem.wf_wr64 (m : Mem) (a : Nat) (v : W64) (h : Memory.wf m = true) :
    Memory.wf (Mem.wr64 m a v) = true := Mem.wf_wrN _ _ _ h

end Sys2Proof.Machine
end

