-- ==== Sys2Proof/Laws/State.lean ====
section
/-! SUPPORT. One lemma per block of the state per update: what the update writes and what it keeps.
All hold by definition, so that no later proof unfolds an update of the block. -/

namespace Sys2Proof.Machine

open Sys2Proof

section
variable (c : Chip) (g : HostPort → HostPort)
@[simp] theorem modHost_host : (Chip.modHost g c).host = g c.host := rfl
@[simp] theorem modHost_sys : (Chip.modHost g c).sys = c.sys := rfl
@[simp] theorem modHost_masters : (Chip.modHost g c).masters = c.masters := rfl
@[simp] theorem modHost_lands : (Chip.modHost g c).lands = c.lands := rfl
@[simp] theorem modHost_tix : (Chip.modHost g c).tix = c.tix := rfl
@[simp] theorem modHost_cfg : (Chip.modHost g c).cfg = c.cfg := rfl
@[simp] theorem modHost_groups : (Chip.modHost g c).groups = c.groups := rfl
@[simp] theorem modHost_taps : (Chip.modHost g c).taps = c.taps := rfl
@[simp] theorem modHost_engs : (Chip.modHost g c).engs = c.engs := rfl
@[simp] theorem modHost_lib : (Chip.modHost g c).lib = c.lib := rfl
@[simp] theorem modHost_bill : (Chip.modHost g c).bill = c.bill := rfl
@[simp] theorem modHost_tariff : (Chip.modHost g c).tariff = c.tariff := rfl
@[simp] theorem modHost_time : (Chip.modHost g c).time = c.time := rfl
@[simp] theorem modHost_power : (Chip.modHost g c).power = c.power := rfl
@[simp] theorem modHost_save : (Chip.modHost g c).save = c.save := rfl
@[simp] theorem modHost_evt : (Chip.modHost g c).evt = c.evt := rfl
@[simp] theorem modHost_tamper : (Chip.modHost g c).tamper = c.tamper := rfl
@[simp] theorem modHost_ledger : (Chip.modHost g c).ledger = c.ledger := rfl
@[simp] theorem modHost_disp : (Chip.modHost g c).disp = c.disp := rfl
@[simp] theorem modHost_ferry : (Chip.modHost g c).ferry = c.ferry := rfl
@[simp] theorem modHost_bay : (Chip.modHost g c).bay = c.bay := rfl
@[simp] theorem modHost_drv : (Chip.modHost g c).drv = c.drv := rfl
@[simp] theorem modHost_safe : (Chip.modHost g c).safe = c.safe := rfl
@[simp] theorem modHost_link : (Chip.modHost g c).link = c.link := rfl
@[simp] theorem modHost_key : (Chip.modHost g c).key = c.key := rfl
@[simp] theorem modHost_upd : (Chip.modHost g c).upd = c.upd := rfl
@[simp] theorem modHost_net : (Chip.modHost g c).net = c.net := rfl
@[simp] theorem modHost_pair : (Chip.modHost g c).pair = c.pair := rfl
@[simp] theorem modHost_free : (Chip.modHost g c).free = c.free := rfl
end

section
variable (c : Chip) (g : Sys → Sys)
@[simp] theorem modSys_host : (Chip.modSys g c).host = c.host := rfl
@[simp] theorem modSys_sys : (Chip.modSys g c).sys = g c.sys := rfl
@[simp] theorem modSys_masters : (Chip.modSys g c).masters = c.masters := rfl
@[simp] theorem modSys_lands : (Chip.modSys g c).lands = c.lands := rfl
@[simp] theorem modSys_tix : (Chip.modSys g c).tix = c.tix := rfl
@[simp] theorem modSys_cfg : (Chip.modSys g c).cfg = c.cfg := rfl
@[simp] theorem modSys_groups : (Chip.modSys g c).groups = c.groups := rfl
@[simp] theorem modSys_taps : (Chip.modSys g c).taps = c.taps := rfl
@[simp] theorem modSys_engs : (Chip.modSys g c).engs = c.engs := rfl
@[simp] theorem modSys_lib : (Chip.modSys g c).lib = c.lib := rfl
@[simp] theorem modSys_bill : (Chip.modSys g c).bill = c.bill := rfl
@[simp] theorem modSys_tariff : (Chip.modSys g c).tariff = c.tariff := rfl
@[simp] theorem modSys_time : (Chip.modSys g c).time = c.time := rfl
@[simp] theorem modSys_power : (Chip.modSys g c).power = c.power := rfl
@[simp] theorem modSys_save : (Chip.modSys g c).save = c.save := rfl
@[simp] theorem modSys_evt : (Chip.modSys g c).evt = c.evt := rfl
@[simp] theorem modSys_tamper : (Chip.modSys g c).tamper = c.tamper := rfl
@[simp] theorem modSys_ledger : (Chip.modSys g c).ledger = c.ledger := rfl
@[simp] theorem modSys_disp : (Chip.modSys g c).disp = c.disp := rfl
@[simp] theorem modSys_ferry : (Chip.modSys g c).ferry = c.ferry := rfl
@[simp] theorem modSys_bay : (Chip.modSys g c).bay = c.bay := rfl
@[simp] theorem modSys_drv : (Chip.modSys g c).drv = c.drv := rfl
@[simp] theorem modSys_safe : (Chip.modSys g c).safe = c.safe := rfl
@[simp] theorem modSys_link : (Chip.modSys g c).link = c.link := rfl
@[simp] theorem modSys_key : (Chip.modSys g c).key = c.key := rfl
@[simp] theorem modSys_upd : (Chip.modSys g c).upd = c.upd := rfl
@[simp] theorem modSys_net : (Chip.modSys g c).net = c.net := rfl
@[simp] theorem modSys_pair : (Chip.modSys g c).pair = c.pair := rfl
@[simp] theorem modSys_free : (Chip.modSys g c).free = c.free := rfl
end

section
variable (c : Chip) (g : Tickets → Tickets)
@[simp] theorem modTix_host : (Chip.modTix g c).host = c.host := rfl
@[simp] theorem modTix_sys : (Chip.modTix g c).sys = c.sys := rfl
@[simp] theorem modTix_masters : (Chip.modTix g c).masters = c.masters := rfl
@[simp] theorem modTix_lands : (Chip.modTix g c).lands = c.lands := rfl
@[simp] theorem modTix_tix : (Chip.modTix g c).tix = g c.tix := rfl
@[simp] theorem modTix_cfg : (Chip.modTix g c).cfg = c.cfg := rfl
@[simp] theorem modTix_groups : (Chip.modTix g c).groups = c.groups := rfl
@[simp] theorem modTix_taps : (Chip.modTix g c).taps = c.taps := rfl
@[simp] theorem modTix_engs : (Chip.modTix g c).engs = c.engs := rfl
@[simp] theorem modTix_lib : (Chip.modTix g c).lib = c.lib := rfl
@[simp] theorem modTix_bill : (Chip.modTix g c).bill = c.bill := rfl
@[simp] theorem modTix_tariff : (Chip.modTix g c).tariff = c.tariff := rfl
@[simp] theorem modTix_time : (Chip.modTix g c).time = c.time := rfl
@[simp] theorem modTix_power : (Chip.modTix g c).power = c.power := rfl
@[simp] theorem modTix_save : (Chip.modTix g c).save = c.save := rfl
@[simp] theorem modTix_evt : (Chip.modTix g c).evt = c.evt := rfl
@[simp] theorem modTix_tamper : (Chip.modTix g c).tamper = c.tamper := rfl
@[simp] theorem modTix_ledger : (Chip.modTix g c).ledger = c.ledger := rfl
@[simp] theorem modTix_disp : (Chip.modTix g c).disp = c.disp := rfl
@[simp] theorem modTix_ferry : (Chip.modTix g c).ferry = c.ferry := rfl
@[simp] theorem modTix_bay : (Chip.modTix g c).bay = c.bay := rfl
@[simp] theorem modTix_drv : (Chip.modTix g c).drv = c.drv := rfl
@[simp] theorem modTix_safe : (Chip.modTix g c).safe = c.safe := rfl
@[simp] theorem modTix_link : (Chip.modTix g c).link = c.link := rfl
@[simp] theorem modTix_key : (Chip.modTix g c).key = c.key := rfl
@[simp] theorem modTix_upd : (Chip.modTix g c).upd = c.upd := rfl
@[simp] theorem modTix_net : (Chip.modTix g c).net = c.net := rfl
@[simp] theorem modTix_pair : (Chip.modTix g c).pair = c.pair := rfl
@[simp] theorem modTix_free : (Chip.modTix g c).free = c.free := rfl
end

section
variable (c : Chip) (g : Cfg → Cfg)
@[simp] theorem modCfg_host : (Chip.modCfg g c).host = c.host := rfl
@[simp] theorem modCfg_sys : (Chip.modCfg g c).sys = c.sys := rfl
@[simp] theorem modCfg_masters : (Chip.modCfg g c).masters = c.masters := rfl
@[simp] theorem modCfg_lands : (Chip.modCfg g c).lands = c.lands := rfl
@[simp] theorem modCfg_tix : (Chip.modCfg g c).tix = c.tix := rfl
@[simp] theorem modCfg_cfg : (Chip.modCfg g c).cfg = g c.cfg := rfl
@[simp] theorem modCfg_groups : (Chip.modCfg g c).groups = c.groups := rfl
@[simp] theorem modCfg_taps : (Chip.modCfg g c).taps = c.taps := rfl
@[simp] theorem modCfg_engs : (Chip.modCfg g c).engs = c.engs := rfl
@[simp] theorem modCfg_lib : (Chip.modCfg g c).lib = c.lib := rfl
@[simp] theorem modCfg_bill : (Chip.modCfg g c).bill = c.bill := rfl
@[simp] theorem modCfg_tariff : (Chip.modCfg g c).tariff = c.tariff := rfl
@[simp] theorem modCfg_time : (Chip.modCfg g c).time = c.time := rfl
@[simp] theorem modCfg_power : (Chip.modCfg g c).power = c.power := rfl
@[simp] theorem modCfg_save : (Chip.modCfg g c).save = c.save := rfl
@[simp] theorem modCfg_evt : (Chip.modCfg g c).evt = c.evt := rfl
@[simp] theorem modCfg_tamper : (Chip.modCfg g c).tamper = c.tamper := rfl
@[simp] theorem modCfg_ledger : (Chip.modCfg g c).ledger = c.ledger := rfl
@[simp] theorem modCfg_disp : (Chip.modCfg g c).disp = c.disp := rfl
@[simp] theorem modCfg_ferry : (Chip.modCfg g c).ferry = c.ferry := rfl
@[simp] theorem modCfg_bay : (Chip.modCfg g c).bay = c.bay := rfl
@[simp] theorem modCfg_drv : (Chip.modCfg g c).drv = c.drv := rfl
@[simp] theorem modCfg_safe : (Chip.modCfg g c).safe = c.safe := rfl
@[simp] theorem modCfg_link : (Chip.modCfg g c).link = c.link := rfl
@[simp] theorem modCfg_key : (Chip.modCfg g c).key = c.key := rfl
@[simp] theorem modCfg_upd : (Chip.modCfg g c).upd = c.upd := rfl
@[simp] theorem modCfg_net : (Chip.modCfg g c).net = c.net := rfl
@[simp] theorem modCfg_pair : (Chip.modCfg g c).pair = c.pair := rfl
@[simp] theorem modCfg_free : (Chip.modCfg g c).free = c.free := rfl
end

section
variable (c : Chip) (g : Bill → Bill)
@[simp] theorem modBill_host : (Chip.modBill g c).host = c.host := rfl
@[simp] theorem modBill_sys : (Chip.modBill g c).sys = c.sys := rfl
@[simp] theorem modBill_masters : (Chip.modBill g c).masters = c.masters := rfl
@[simp] theorem modBill_lands : (Chip.modBill g c).lands = c.lands := rfl
@[simp] theorem modBill_tix : (Chip.modBill g c).tix = c.tix := rfl
@[simp] theorem modBill_cfg : (Chip.modBill g c).cfg = c.cfg := rfl
@[simp] theorem modBill_groups : (Chip.modBill g c).groups = c.groups := rfl
@[simp] theorem modBill_taps : (Chip.modBill g c).taps = c.taps := rfl
@[simp] theorem modBill_engs : (Chip.modBill g c).engs = c.engs := rfl
@[simp] theorem modBill_lib : (Chip.modBill g c).lib = c.lib := rfl
@[simp] theorem modBill_bill : (Chip.modBill g c).bill = g c.bill := rfl
@[simp] theorem modBill_tariff : (Chip.modBill g c).tariff = c.tariff := rfl
@[simp] theorem modBill_time : (Chip.modBill g c).time = c.time := rfl
@[simp] theorem modBill_power : (Chip.modBill g c).power = c.power := rfl
@[simp] theorem modBill_save : (Chip.modBill g c).save = c.save := rfl
@[simp] theorem modBill_evt : (Chip.modBill g c).evt = c.evt := rfl
@[simp] theorem modBill_tamper : (Chip.modBill g c).tamper = c.tamper := rfl
@[simp] theorem modBill_ledger : (Chip.modBill g c).ledger = c.ledger := rfl
@[simp] theorem modBill_disp : (Chip.modBill g c).disp = c.disp := rfl
@[simp] theorem modBill_ferry : (Chip.modBill g c).ferry = c.ferry := rfl
@[simp] theorem modBill_bay : (Chip.modBill g c).bay = c.bay := rfl
@[simp] theorem modBill_drv : (Chip.modBill g c).drv = c.drv := rfl
@[simp] theorem modBill_safe : (Chip.modBill g c).safe = c.safe := rfl
@[simp] theorem modBill_link : (Chip.modBill g c).link = c.link := rfl
@[simp] theorem modBill_key : (Chip.modBill g c).key = c.key := rfl
@[simp] theorem modBill_upd : (Chip.modBill g c).upd = c.upd := rfl
@[simp] theorem modBill_net : (Chip.modBill g c).net = c.net := rfl
@[simp] theorem modBill_pair : (Chip.modBill g c).pair = c.pair := rfl
@[simp] theorem modBill_free : (Chip.modBill g c).free = c.free := rfl
end

section
variable (c : Chip) (g : Tariff → Tariff)
@[simp] theorem modTariff_host : (Chip.modTariff g c).host = c.host := rfl
@[simp] theorem modTariff_sys : (Chip.modTariff g c).sys = c.sys := rfl
@[simp] theorem modTariff_masters : (Chip.modTariff g c).masters = c.masters := rfl
@[simp] theorem modTariff_lands : (Chip.modTariff g c).lands = c.lands := rfl
@[simp] theorem modTariff_tix : (Chip.modTariff g c).tix = c.tix := rfl
@[simp] theorem modTariff_cfg : (Chip.modTariff g c).cfg = c.cfg := rfl
@[simp] theorem modTariff_groups : (Chip.modTariff g c).groups = c.groups := rfl
@[simp] theorem modTariff_taps : (Chip.modTariff g c).taps = c.taps := rfl
@[simp] theorem modTariff_engs : (Chip.modTariff g c).engs = c.engs := rfl
@[simp] theorem modTariff_lib : (Chip.modTariff g c).lib = c.lib := rfl
@[simp] theorem modTariff_bill : (Chip.modTariff g c).bill = c.bill := rfl
@[simp] theorem modTariff_tariff : (Chip.modTariff g c).tariff = g c.tariff := rfl
@[simp] theorem modTariff_time : (Chip.modTariff g c).time = c.time := rfl
@[simp] theorem modTariff_power : (Chip.modTariff g c).power = c.power := rfl
@[simp] theorem modTariff_save : (Chip.modTariff g c).save = c.save := rfl
@[simp] theorem modTariff_evt : (Chip.modTariff g c).evt = c.evt := rfl
@[simp] theorem modTariff_tamper : (Chip.modTariff g c).tamper = c.tamper := rfl
@[simp] theorem modTariff_ledger : (Chip.modTariff g c).ledger = c.ledger := rfl
@[simp] theorem modTariff_disp : (Chip.modTariff g c).disp = c.disp := rfl
@[simp] theorem modTariff_ferry : (Chip.modTariff g c).ferry = c.ferry := rfl
@[simp] theorem modTariff_bay : (Chip.modTariff g c).bay = c.bay := rfl
@[simp] theorem modTariff_drv : (Chip.modTariff g c).drv = c.drv := rfl
@[simp] theorem modTariff_safe : (Chip.modTariff g c).safe = c.safe := rfl
@[simp] theorem modTariff_link : (Chip.modTariff g c).link = c.link := rfl
@[simp] theorem modTariff_key : (Chip.modTariff g c).key = c.key := rfl
@[simp] theorem modTariff_upd : (Chip.modTariff g c).upd = c.upd := rfl
@[simp] theorem modTariff_net : (Chip.modTariff g c).net = c.net := rfl
@[simp] theorem modTariff_pair : (Chip.modTariff g c).pair = c.pair := rfl
@[simp] theorem modTariff_free : (Chip.modTariff g c).free = c.free := rfl
end

section
variable (c : Chip) (g : Time → Time)
@[simp] theorem modTime_host : (Chip.modTime g c).host = c.host := rfl
@[simp] theorem modTime_sys : (Chip.modTime g c).sys = c.sys := rfl
@[simp] theorem modTime_masters : (Chip.modTime g c).masters = c.masters := rfl
@[simp] theorem modTime_lands : (Chip.modTime g c).lands = c.lands := rfl
@[simp] theorem modTime_tix : (Chip.modTime g c).tix = c.tix := rfl
@[simp] theorem modTime_cfg : (Chip.modTime g c).cfg = c.cfg := rfl
@[simp] theorem modTime_groups : (Chip.modTime g c).groups = c.groups := rfl
@[simp] theorem modTime_taps : (Chip.modTime g c).taps = c.taps := rfl
@[simp] theorem modTime_engs : (Chip.modTime g c).engs = c.engs := rfl
@[simp] theorem modTime_lib : (Chip.modTime g c).lib = c.lib := rfl
@[simp] theorem modTime_bill : (Chip.modTime g c).bill = c.bill := rfl
@[simp] theorem modTime_tariff : (Chip.modTime g c).tariff = c.tariff := rfl
@[simp] theorem modTime_time : (Chip.modTime g c).time = g c.time := rfl
@[simp] theorem modTime_power : (Chip.modTime g c).power = c.power := rfl
@[simp] theorem modTime_save : (Chip.modTime g c).save = c.save := rfl
@[simp] theorem modTime_evt : (Chip.modTime g c).evt = c.evt := rfl
@[simp] theorem modTime_tamper : (Chip.modTime g c).tamper = c.tamper := rfl
@[simp] theorem modTime_ledger : (Chip.modTime g c).ledger = c.ledger := rfl
@[simp] theorem modTime_disp : (Chip.modTime g c).disp = c.disp := rfl
@[simp] theorem modTime_ferry : (Chip.modTime g c).ferry = c.ferry := rfl
@[simp] theorem modTime_bay : (Chip.modTime g c).bay = c.bay := rfl
@[simp] theorem modTime_drv : (Chip.modTime g c).drv = c.drv := rfl
@[simp] theorem modTime_safe : (Chip.modTime g c).safe = c.safe := rfl
@[simp] theorem modTime_link : (Chip.modTime g c).link = c.link := rfl
@[simp] theorem modTime_key : (Chip.modTime g c).key = c.key := rfl
@[simp] theorem modTime_upd : (Chip.modTime g c).upd = c.upd := rfl
@[simp] theorem modTime_net : (Chip.modTime g c).net = c.net := rfl
@[simp] theorem modTime_pair : (Chip.modTime g c).pair = c.pair := rfl
@[simp] theorem modTime_free : (Chip.modTime g c).free = c.free := rfl
end

section
variable (c : Chip) (g : Power → Power)
@[simp] theorem modPower_host : (Chip.modPower g c).host = c.host := rfl
@[simp] theorem modPower_sys : (Chip.modPower g c).sys = c.sys := rfl
@[simp] theorem modPower_masters : (Chip.modPower g c).masters = c.masters := rfl
@[simp] theorem modPower_lands : (Chip.modPower g c).lands = c.lands := rfl
@[simp] theorem modPower_tix : (Chip.modPower g c).tix = c.tix := rfl
@[simp] theorem modPower_cfg : (Chip.modPower g c).cfg = c.cfg := rfl
@[simp] theorem modPower_groups : (Chip.modPower g c).groups = c.groups := rfl
@[simp] theorem modPower_taps : (Chip.modPower g c).taps = c.taps := rfl
@[simp] theorem modPower_engs : (Chip.modPower g c).engs = c.engs := rfl
@[simp] theorem modPower_lib : (Chip.modPower g c).lib = c.lib := rfl
@[simp] theorem modPower_bill : (Chip.modPower g c).bill = c.bill := rfl
@[simp] theorem modPower_tariff : (Chip.modPower g c).tariff = c.tariff := rfl
@[simp] theorem modPower_time : (Chip.modPower g c).time = c.time := rfl
@[simp] theorem modPower_power : (Chip.modPower g c).power = g c.power := rfl
@[simp] theorem modPower_save : (Chip.modPower g c).save = c.save := rfl
@[simp] theorem modPower_evt : (Chip.modPower g c).evt = c.evt := rfl
@[simp] theorem modPower_tamper : (Chip.modPower g c).tamper = c.tamper := rfl
@[simp] theorem modPower_ledger : (Chip.modPower g c).ledger = c.ledger := rfl
@[simp] theorem modPower_disp : (Chip.modPower g c).disp = c.disp := rfl
@[simp] theorem modPower_ferry : (Chip.modPower g c).ferry = c.ferry := rfl
@[simp] theorem modPower_bay : (Chip.modPower g c).bay = c.bay := rfl
@[simp] theorem modPower_drv : (Chip.modPower g c).drv = c.drv := rfl
@[simp] theorem modPower_safe : (Chip.modPower g c).safe = c.safe := rfl
@[simp] theorem modPower_link : (Chip.modPower g c).link = c.link := rfl
@[simp] theorem modPower_key : (Chip.modPower g c).key = c.key := rfl
@[simp] theorem modPower_upd : (Chip.modPower g c).upd = c.upd := rfl
@[simp] theorem modPower_net : (Chip.modPower g c).net = c.net := rfl
@[simp] theorem modPower_pair : (Chip.modPower g c).pair = c.pair := rfl
@[simp] theorem modPower_free : (Chip.modPower g c).free = c.free := rfl
end

section
variable (c : Chip) (g : Save → Save)
@[simp] theorem modSave_host : (Chip.modSave g c).host = c.host := rfl
@[simp] theorem modSave_sys : (Chip.modSave g c).sys = c.sys := rfl
@[simp] theorem modSave_masters : (Chip.modSave g c).masters = c.masters := rfl
@[simp] theorem modSave_lands : (Chip.modSave g c).lands = c.lands := rfl
@[simp] theorem modSave_tix : (Chip.modSave g c).tix = c.tix := rfl
@[simp] theorem modSave_cfg : (Chip.modSave g c).cfg = c.cfg := rfl
@[simp] theorem modSave_groups : (Chip.modSave g c).groups = c.groups := rfl
@[simp] theorem modSave_taps : (Chip.modSave g c).taps = c.taps := rfl
@[simp] theorem modSave_engs : (Chip.modSave g c).engs = c.engs := rfl
@[simp] theorem modSave_lib : (Chip.modSave g c).lib = c.lib := rfl
@[simp] theorem modSave_bill : (Chip.modSave g c).bill = c.bill := rfl
@[simp] theorem modSave_tariff : (Chip.modSave g c).tariff = c.tariff := rfl
@[simp] theorem modSave_time : (Chip.modSave g c).time = c.time := rfl
@[simp] theorem modSave_power : (Chip.modSave g c).power = c.power := rfl
@[simp] theorem modSave_save : (Chip.modSave g c).save = g c.save := rfl
@[simp] theorem modSave_evt : (Chip.modSave g c).evt = c.evt := rfl
@[simp] theorem modSave_tamper : (Chip.modSave g c).tamper = c.tamper := rfl
@[simp] theorem modSave_ledger : (Chip.modSave g c).ledger = c.ledger := rfl
@[simp] theorem modSave_disp : (Chip.modSave g c).disp = c.disp := rfl
@[simp] theorem modSave_ferry : (Chip.modSave g c).ferry = c.ferry := rfl
@[simp] theorem modSave_bay : (Chip.modSave g c).bay = c.bay := rfl
@[simp] theorem modSave_drv : (Chip.modSave g c).drv = c.drv := rfl
@[simp] theorem modSave_safe : (Chip.modSave g c).safe = c.safe := rfl
@[simp] theorem modSave_link : (Chip.modSave g c).link = c.link := rfl
@[simp] theorem modSave_key : (Chip.modSave g c).key = c.key := rfl
@[simp] theorem modSave_upd : (Chip.modSave g c).upd = c.upd := rfl
@[simp] theorem modSave_net : (Chip.modSave g c).net = c.net := rfl
@[simp] theorem modSave_pair : (Chip.modSave g c).pair = c.pair := rfl
@[simp] theorem modSave_free : (Chip.modSave g c).free = c.free := rfl
end

section
variable (c : Chip) (g : Evt → Evt)
@[simp] theorem modEvt_host : (Chip.modEvt g c).host = c.host := rfl
@[simp] theorem modEvt_sys : (Chip.modEvt g c).sys = c.sys := rfl
@[simp] theorem modEvt_masters : (Chip.modEvt g c).masters = c.masters := rfl
@[simp] theorem modEvt_lands : (Chip.modEvt g c).lands = c.lands := rfl
@[simp] theorem modEvt_tix : (Chip.modEvt g c).tix = c.tix := rfl
@[simp] theorem modEvt_cfg : (Chip.modEvt g c).cfg = c.cfg := rfl
@[simp] theorem modEvt_groups : (Chip.modEvt g c).groups = c.groups := rfl
@[simp] theorem modEvt_taps : (Chip.modEvt g c).taps = c.taps := rfl
@[simp] theorem modEvt_engs : (Chip.modEvt g c).engs = c.engs := rfl
@[simp] theorem modEvt_lib : (Chip.modEvt g c).lib = c.lib := rfl
@[simp] theorem modEvt_bill : (Chip.modEvt g c).bill = c.bill := rfl
@[simp] theorem modEvt_tariff : (Chip.modEvt g c).tariff = c.tariff := rfl
@[simp] theorem modEvt_time : (Chip.modEvt g c).time = c.time := rfl
@[simp] theorem modEvt_power : (Chip.modEvt g c).power = c.power := rfl
@[simp] theorem modEvt_save : (Chip.modEvt g c).save = c.save := rfl
@[simp] theorem modEvt_evt : (Chip.modEvt g c).evt = g c.evt := rfl
@[simp] theorem modEvt_tamper : (Chip.modEvt g c).tamper = c.tamper := rfl
@[simp] theorem modEvt_ledger : (Chip.modEvt g c).ledger = c.ledger := rfl
@[simp] theorem modEvt_disp : (Chip.modEvt g c).disp = c.disp := rfl
@[simp] theorem modEvt_ferry : (Chip.modEvt g c).ferry = c.ferry := rfl
@[simp] theorem modEvt_bay : (Chip.modEvt g c).bay = c.bay := rfl
@[simp] theorem modEvt_drv : (Chip.modEvt g c).drv = c.drv := rfl
@[simp] theorem modEvt_safe : (Chip.modEvt g c).safe = c.safe := rfl
@[simp] theorem modEvt_link : (Chip.modEvt g c).link = c.link := rfl
@[simp] theorem modEvt_key : (Chip.modEvt g c).key = c.key := rfl
@[simp] theorem modEvt_upd : (Chip.modEvt g c).upd = c.upd := rfl
@[simp] theorem modEvt_net : (Chip.modEvt g c).net = c.net := rfl
@[simp] theorem modEvt_pair : (Chip.modEvt g c).pair = c.pair := rfl
@[simp] theorem modEvt_free : (Chip.modEvt g c).free = c.free := rfl
end

section
variable (c : Chip) (g : Tamper → Tamper)
@[simp] theorem modTamper_host : (Chip.modTamper g c).host = c.host := rfl
@[simp] theorem modTamper_sys : (Chip.modTamper g c).sys = c.sys := rfl
@[simp] theorem modTamper_masters : (Chip.modTamper g c).masters = c.masters := rfl
@[simp] theorem modTamper_lands : (Chip.modTamper g c).lands = c.lands := rfl
@[simp] theorem modTamper_tix : (Chip.modTamper g c).tix = c.tix := rfl
@[simp] theorem modTamper_cfg : (Chip.modTamper g c).cfg = c.cfg := rfl
@[simp] theorem modTamper_groups : (Chip.modTamper g c).groups = c.groups := rfl
@[simp] theorem modTamper_taps : (Chip.modTamper g c).taps = c.taps := rfl
@[simp] theorem modTamper_engs : (Chip.modTamper g c).engs = c.engs := rfl
@[simp] theorem modTamper_lib : (Chip.modTamper g c).lib = c.lib := rfl
@[simp] theorem modTamper_bill : (Chip.modTamper g c).bill = c.bill := rfl
@[simp] theorem modTamper_tariff : (Chip.modTamper g c).tariff = c.tariff := rfl
@[simp] theorem modTamper_time : (Chip.modTamper g c).time = c.time := rfl
@[simp] theorem modTamper_power : (Chip.modTamper g c).power = c.power := rfl
@[simp] theorem modTamper_save : (Chip.modTamper g c).save = c.save := rfl
@[simp] theorem modTamper_evt : (Chip.modTamper g c).evt = c.evt := rfl
@[simp] theorem modTamper_tamper : (Chip.modTamper g c).tamper = g c.tamper := rfl
@[simp] theorem modTamper_ledger : (Chip.modTamper g c).ledger = c.ledger := rfl
@[simp] theorem modTamper_disp : (Chip.modTamper g c).disp = c.disp := rfl
@[simp] theorem modTamper_ferry : (Chip.modTamper g c).ferry = c.ferry := rfl
@[simp] theorem modTamper_bay : (Chip.modTamper g c).bay = c.bay := rfl
@[simp] theorem modTamper_drv : (Chip.modTamper g c).drv = c.drv := rfl
@[simp] theorem modTamper_safe : (Chip.modTamper g c).safe = c.safe := rfl
@[simp] theorem modTamper_link : (Chip.modTamper g c).link = c.link := rfl
@[simp] theorem modTamper_key : (Chip.modTamper g c).key = c.key := rfl
@[simp] theorem modTamper_upd : (Chip.modTamper g c).upd = c.upd := rfl
@[simp] theorem modTamper_net : (Chip.modTamper g c).net = c.net := rfl
@[simp] theorem modTamper_pair : (Chip.modTamper g c).pair = c.pair := rfl
@[simp] theorem modTamper_free : (Chip.modTamper g c).free = c.free := rfl
end

section
variable (c : Chip) (g : Ledger → Ledger)
@[simp] theorem modLedger_host : (Chip.modLedger g c).host = c.host := rfl
@[simp] theorem modLedger_sys : (Chip.modLedger g c).sys = c.sys := rfl
@[simp] theorem modLedger_masters : (Chip.modLedger g c).masters = c.masters := rfl
@[simp] theorem modLedger_lands : (Chip.modLedger g c).lands = c.lands := rfl
@[simp] theorem modLedger_tix : (Chip.modLedger g c).tix = c.tix := rfl
@[simp] theorem modLedger_cfg : (Chip.modLedger g c).cfg = c.cfg := rfl
@[simp] theorem modLedger_groups : (Chip.modLedger g c).groups = c.groups := rfl
@[simp] theorem modLedger_taps : (Chip.modLedger g c).taps = c.taps := rfl
@[simp] theorem modLedger_engs : (Chip.modLedger g c).engs = c.engs := rfl
@[simp] theorem modLedger_lib : (Chip.modLedger g c).lib = c.lib := rfl
@[simp] theorem modLedger_bill : (Chip.modLedger g c).bill = c.bill := rfl
@[simp] theorem modLedger_tariff : (Chip.modLedger g c).tariff = c.tariff := rfl
@[simp] theorem modLedger_time : (Chip.modLedger g c).time = c.time := rfl
@[simp] theorem modLedger_power : (Chip.modLedger g c).power = c.power := rfl
@[simp] theorem modLedger_save : (Chip.modLedger g c).save = c.save := rfl
@[simp] theorem modLedger_evt : (Chip.modLedger g c).evt = c.evt := rfl
@[simp] theorem modLedger_tamper : (Chip.modLedger g c).tamper = c.tamper := rfl
@[simp] theorem modLedger_ledger : (Chip.modLedger g c).ledger = g c.ledger := rfl
@[simp] theorem modLedger_disp : (Chip.modLedger g c).disp = c.disp := rfl
@[simp] theorem modLedger_ferry : (Chip.modLedger g c).ferry = c.ferry := rfl
@[simp] theorem modLedger_bay : (Chip.modLedger g c).bay = c.bay := rfl
@[simp] theorem modLedger_drv : (Chip.modLedger g c).drv = c.drv := rfl
@[simp] theorem modLedger_safe : (Chip.modLedger g c).safe = c.safe := rfl
@[simp] theorem modLedger_link : (Chip.modLedger g c).link = c.link := rfl
@[simp] theorem modLedger_key : (Chip.modLedger g c).key = c.key := rfl
@[simp] theorem modLedger_upd : (Chip.modLedger g c).upd = c.upd := rfl
@[simp] theorem modLedger_net : (Chip.modLedger g c).net = c.net := rfl
@[simp] theorem modLedger_pair : (Chip.modLedger g c).pair = c.pair := rfl
@[simp] theorem modLedger_free : (Chip.modLedger g c).free = c.free := rfl
end

section
variable (c : Chip) (g : Disp → Disp)
@[simp] theorem modDisp_host : (Chip.modDisp g c).host = c.host := rfl
@[simp] theorem modDisp_sys : (Chip.modDisp g c).sys = c.sys := rfl
@[simp] theorem modDisp_masters : (Chip.modDisp g c).masters = c.masters := rfl
@[simp] theorem modDisp_lands : (Chip.modDisp g c).lands = c.lands := rfl
@[simp] theorem modDisp_tix : (Chip.modDisp g c).tix = c.tix := rfl
@[simp] theorem modDisp_cfg : (Chip.modDisp g c).cfg = c.cfg := rfl
@[simp] theorem modDisp_groups : (Chip.modDisp g c).groups = c.groups := rfl
@[simp] theorem modDisp_taps : (Chip.modDisp g c).taps = c.taps := rfl
@[simp] theorem modDisp_engs : (Chip.modDisp g c).engs = c.engs := rfl
@[simp] theorem modDisp_lib : (Chip.modDisp g c).lib = c.lib := rfl
@[simp] theorem modDisp_bill : (Chip.modDisp g c).bill = c.bill := rfl
@[simp] theorem modDisp_tariff : (Chip.modDisp g c).tariff = c.tariff := rfl
@[simp] theorem modDisp_time : (Chip.modDisp g c).time = c.time := rfl
@[simp] theorem modDisp_power : (Chip.modDisp g c).power = c.power := rfl
@[simp] theorem modDisp_save : (Chip.modDisp g c).save = c.save := rfl
@[simp] theorem modDisp_evt : (Chip.modDisp g c).evt = c.evt := rfl
@[simp] theorem modDisp_tamper : (Chip.modDisp g c).tamper = c.tamper := rfl
@[simp] theorem modDisp_ledger : (Chip.modDisp g c).ledger = c.ledger := rfl
@[simp] theorem modDisp_disp : (Chip.modDisp g c).disp = g c.disp := rfl
@[simp] theorem modDisp_ferry : (Chip.modDisp g c).ferry = c.ferry := rfl
@[simp] theorem modDisp_bay : (Chip.modDisp g c).bay = c.bay := rfl
@[simp] theorem modDisp_drv : (Chip.modDisp g c).drv = c.drv := rfl
@[simp] theorem modDisp_safe : (Chip.modDisp g c).safe = c.safe := rfl
@[simp] theorem modDisp_link : (Chip.modDisp g c).link = c.link := rfl
@[simp] theorem modDisp_key : (Chip.modDisp g c).key = c.key := rfl
@[simp] theorem modDisp_upd : (Chip.modDisp g c).upd = c.upd := rfl
@[simp] theorem modDisp_net : (Chip.modDisp g c).net = c.net := rfl
@[simp] theorem modDisp_pair : (Chip.modDisp g c).pair = c.pair := rfl
@[simp] theorem modDisp_free : (Chip.modDisp g c).free = c.free := rfl
end

section
variable (c : Chip) (g : Bay → Bay)
@[simp] theorem modBay_host : (Chip.modBay g c).host = c.host := rfl
@[simp] theorem modBay_sys : (Chip.modBay g c).sys = c.sys := rfl
@[simp] theorem modBay_masters : (Chip.modBay g c).masters = c.masters := rfl
@[simp] theorem modBay_lands : (Chip.modBay g c).lands = c.lands := rfl
@[simp] theorem modBay_tix : (Chip.modBay g c).tix = c.tix := rfl
@[simp] theorem modBay_cfg : (Chip.modBay g c).cfg = c.cfg := rfl
@[simp] theorem modBay_groups : (Chip.modBay g c).groups = c.groups := rfl
@[simp] theorem modBay_taps : (Chip.modBay g c).taps = c.taps := rfl
@[simp] theorem modBay_engs : (Chip.modBay g c).engs = c.engs := rfl
@[simp] theorem modBay_lib : (Chip.modBay g c).lib = c.lib := rfl
@[simp] theorem modBay_bill : (Chip.modBay g c).bill = c.bill := rfl
@[simp] theorem modBay_tariff : (Chip.modBay g c).tariff = c.tariff := rfl
@[simp] theorem modBay_time : (Chip.modBay g c).time = c.time := rfl
@[simp] theorem modBay_power : (Chip.modBay g c).power = c.power := rfl
@[simp] theorem modBay_save : (Chip.modBay g c).save = c.save := rfl
@[simp] theorem modBay_evt : (Chip.modBay g c).evt = c.evt := rfl
@[simp] theorem modBay_tamper : (Chip.modBay g c).tamper = c.tamper := rfl
@[simp] theorem modBay_ledger : (Chip.modBay g c).ledger = c.ledger := rfl
@[simp] theorem modBay_disp : (Chip.modBay g c).disp = c.disp := rfl
@[simp] theorem modBay_ferry : (Chip.modBay g c).ferry = c.ferry := rfl
@[simp] theorem modBay_bay : (Chip.modBay g c).bay = g c.bay := rfl
@[simp] theorem modBay_drv : (Chip.modBay g c).drv = c.drv := rfl
@[simp] theorem modBay_safe : (Chip.modBay g c).safe = c.safe := rfl
@[simp] theorem modBay_link : (Chip.modBay g c).link = c.link := rfl
@[simp] theorem modBay_key : (Chip.modBay g c).key = c.key := rfl
@[simp] theorem modBay_upd : (Chip.modBay g c).upd = c.upd := rfl
@[simp] theorem modBay_net : (Chip.modBay g c).net = c.net := rfl
@[simp] theorem modBay_pair : (Chip.modBay g c).pair = c.pair := rfl
@[simp] theorem modBay_free : (Chip.modBay g c).free = c.free := rfl
end

section
variable (c : Chip) (g : Drives → Drives)
@[simp] theorem modDrv_host : (Chip.modDrv g c).host = c.host := rfl
@[simp] theorem modDrv_sys : (Chip.modDrv g c).sys = c.sys := rfl
@[simp] theorem modDrv_masters : (Chip.modDrv g c).masters = c.masters := rfl
@[simp] theorem modDrv_lands : (Chip.modDrv g c).lands = c.lands := rfl
@[simp] theorem modDrv_tix : (Chip.modDrv g c).tix = c.tix := rfl
@[simp] theorem modDrv_cfg : (Chip.modDrv g c).cfg = c.cfg := rfl
@[simp] theorem modDrv_groups : (Chip.modDrv g c).groups = c.groups := rfl
@[simp] theorem modDrv_taps : (Chip.modDrv g c).taps = c.taps := rfl
@[simp] theorem modDrv_engs : (Chip.modDrv g c).engs = c.engs := rfl
@[simp] theorem modDrv_lib : (Chip.modDrv g c).lib = c.lib := rfl
@[simp] theorem modDrv_bill : (Chip.modDrv g c).bill = c.bill := rfl
@[simp] theorem modDrv_tariff : (Chip.modDrv g c).tariff = c.tariff := rfl
@[simp] theorem modDrv_time : (Chip.modDrv g c).time = c.time := rfl
@[simp] theorem modDrv_power : (Chip.modDrv g c).power = c.power := rfl
@[simp] theorem modDrv_save : (Chip.modDrv g c).save = c.save := rfl
@[simp] theorem modDrv_evt : (Chip.modDrv g c).evt = c.evt := rfl
@[simp] theorem modDrv_tamper : (Chip.modDrv g c).tamper = c.tamper := rfl
@[simp] theorem modDrv_ledger : (Chip.modDrv g c).ledger = c.ledger := rfl
@[simp] theorem modDrv_disp : (Chip.modDrv g c).disp = c.disp := rfl
@[simp] theorem modDrv_ferry : (Chip.modDrv g c).ferry = c.ferry := rfl
@[simp] theorem modDrv_bay : (Chip.modDrv g c).bay = c.bay := rfl
@[simp] theorem modDrv_drv : (Chip.modDrv g c).drv = g c.drv := rfl
@[simp] theorem modDrv_safe : (Chip.modDrv g c).safe = c.safe := rfl
@[simp] theorem modDrv_link : (Chip.modDrv g c).link = c.link := rfl
@[simp] theorem modDrv_key : (Chip.modDrv g c).key = c.key := rfl
@[simp] theorem modDrv_upd : (Chip.modDrv g c).upd = c.upd := rfl
@[simp] theorem modDrv_net : (Chip.modDrv g c).net = c.net := rfl
@[simp] theorem modDrv_pair : (Chip.modDrv g c).pair = c.pair := rfl
@[simp] theorem modDrv_free : (Chip.modDrv g c).free = c.free := rfl
end

section
variable (c : Chip) (g : Safe → Safe)
@[simp] theorem modSafe_host : (Chip.modSafe g c).host = c.host := rfl
@[simp] theorem modSafe_sys : (Chip.modSafe g c).sys = c.sys := rfl
@[simp] theorem modSafe_masters : (Chip.modSafe g c).masters = c.masters := rfl
@[simp] theorem modSafe_lands : (Chip.modSafe g c).lands = c.lands := rfl
@[simp] theorem modSafe_tix : (Chip.modSafe g c).tix = c.tix := rfl
@[simp] theorem modSafe_cfg : (Chip.modSafe g c).cfg = c.cfg := rfl
@[simp] theorem modSafe_groups : (Chip.modSafe g c).groups = c.groups := rfl
@[simp] theorem modSafe_taps : (Chip.modSafe g c).taps = c.taps := rfl
@[simp] theorem modSafe_engs : (Chip.modSafe g c).engs = c.engs := rfl
@[simp] theorem modSafe_lib : (Chip.modSafe g c).lib = c.lib := rfl
@[simp] theorem modSafe_bill : (Chip.modSafe g c).bill = c.bill := rfl
@[simp] theorem modSafe_tariff : (Chip.modSafe g c).tariff = c.tariff := rfl
@[simp] theorem modSafe_time : (Chip.modSafe g c).time = c.time := rfl
@[simp] theorem modSafe_power : (Chip.modSafe g c).power = c.power := rfl
@[simp] theorem modSafe_save : (Chip.modSafe g c).save = c.save := rfl
@[simp] theorem modSafe_evt : (Chip.modSafe g c).evt = c.evt := rfl
@[simp] theorem modSafe_tamper : (Chip.modSafe g c).tamper = c.tamper := rfl
@[simp] theorem modSafe_ledger : (Chip.modSafe g c).ledger = c.ledger := rfl
@[simp] theorem modSafe_disp : (Chip.modSafe g c).disp = c.disp := rfl
@[simp] theorem modSafe_ferry : (Chip.modSafe g c).ferry = c.ferry := rfl
@[simp] theorem modSafe_bay : (Chip.modSafe g c).bay = c.bay := rfl
@[simp] theorem modSafe_drv : (Chip.modSafe g c).drv = c.drv := rfl
@[simp] theorem modSafe_safe : (Chip.modSafe g c).safe = g c.safe := rfl
@[simp] theorem modSafe_link : (Chip.modSafe g c).link = c.link := rfl
@[simp] theorem modSafe_key : (Chip.modSafe g c).key = c.key := rfl
@[simp] theorem modSafe_upd : (Chip.modSafe g c).upd = c.upd := rfl
@[simp] theorem modSafe_net : (Chip.modSafe g c).net = c.net := rfl
@[simp] theorem modSafe_pair : (Chip.modSafe g c).pair = c.pair := rfl
@[simp] theorem modSafe_free : (Chip.modSafe g c).free = c.free := rfl
end

section
variable (c : Chip) (g : Link → Link)
@[simp] theorem modLink_host : (Chip.modLink g c).host = c.host := rfl
@[simp] theorem modLink_sys : (Chip.modLink g c).sys = c.sys := rfl
@[simp] theorem modLink_masters : (Chip.modLink g c).masters = c.masters := rfl
@[simp] theorem modLink_lands : (Chip.modLink g c).lands = c.lands := rfl
@[simp] theorem modLink_tix : (Chip.modLink g c).tix = c.tix := rfl
@[simp] theorem modLink_cfg : (Chip.modLink g c).cfg = c.cfg := rfl
@[simp] theorem modLink_groups : (Chip.modLink g c).groups = c.groups := rfl
@[simp] theorem modLink_taps : (Chip.modLink g c).taps = c.taps := rfl
@[simp] theorem modLink_engs : (Chip.modLink g c).engs = c.engs := rfl
@[simp] theorem modLink_lib : (Chip.modLink g c).lib = c.lib := rfl
@[simp] theorem modLink_bill : (Chip.modLink g c).bill = c.bill := rfl
@[simp] theorem modLink_tariff : (Chip.modLink g c).tariff = c.tariff := rfl
@[simp] theorem modLink_time : (Chip.modLink g c).time = c.time := rfl
@[simp] theorem modLink_power : (Chip.modLink g c).power = c.power := rfl
@[simp] theorem modLink_save : (Chip.modLink g c).save = c.save := rfl
@[simp] theorem modLink_evt : (Chip.modLink g c).evt = c.evt := rfl
@[simp] theorem modLink_tamper : (Chip.modLink g c).tamper = c.tamper := rfl
@[simp] theorem modLink_ledger : (Chip.modLink g c).ledger = c.ledger := rfl
@[simp] theorem modLink_disp : (Chip.modLink g c).disp = c.disp := rfl
@[simp] theorem modLink_ferry : (Chip.modLink g c).ferry = c.ferry := rfl
@[simp] theorem modLink_bay : (Chip.modLink g c).bay = c.bay := rfl
@[simp] theorem modLink_drv : (Chip.modLink g c).drv = c.drv := rfl
@[simp] theorem modLink_safe : (Chip.modLink g c).safe = c.safe := rfl
@[simp] theorem modLink_link : (Chip.modLink g c).link = g c.link := rfl
@[simp] theorem modLink_key : (Chip.modLink g c).key = c.key := rfl
@[simp] theorem modLink_upd : (Chip.modLink g c).upd = c.upd := rfl
@[simp] theorem modLink_net : (Chip.modLink g c).net = c.net := rfl
@[simp] theorem modLink_pair : (Chip.modLink g c).pair = c.pair := rfl
@[simp] theorem modLink_free : (Chip.modLink g c).free = c.free := rfl
end

section
variable (c : Chip) (g : Key → Key)
@[simp] theorem modKey_host : (Chip.modKey g c).host = c.host := rfl
@[simp] theorem modKey_sys : (Chip.modKey g c).sys = c.sys := rfl
@[simp] theorem modKey_masters : (Chip.modKey g c).masters = c.masters := rfl
@[simp] theorem modKey_lands : (Chip.modKey g c).lands = c.lands := rfl
@[simp] theorem modKey_tix : (Chip.modKey g c).tix = c.tix := rfl
@[simp] theorem modKey_cfg : (Chip.modKey g c).cfg = c.cfg := rfl
@[simp] theorem modKey_groups : (Chip.modKey g c).groups = c.groups := rfl
@[simp] theorem modKey_taps : (Chip.modKey g c).taps = c.taps := rfl
@[simp] theorem modKey_engs : (Chip.modKey g c).engs = c.engs := rfl
@[simp] theorem modKey_lib : (Chip.modKey g c).lib = c.lib := rfl
@[simp] theorem modKey_bill : (Chip.modKey g c).bill = c.bill := rfl
@[simp] theorem modKey_tariff : (Chip.modKey g c).tariff = c.tariff := rfl
@[simp] theorem modKey_time : (Chip.modKey g c).time = c.time := rfl
@[simp] theorem modKey_power : (Chip.modKey g c).power = c.power := rfl
@[simp] theorem modKey_save : (Chip.modKey g c).save = c.save := rfl
@[simp] theorem modKey_evt : (Chip.modKey g c).evt = c.evt := rfl
@[simp] theorem modKey_tamper : (Chip.modKey g c).tamper = c.tamper := rfl
@[simp] theorem modKey_ledger : (Chip.modKey g c).ledger = c.ledger := rfl
@[simp] theorem modKey_disp : (Chip.modKey g c).disp = c.disp := rfl
@[simp] theorem modKey_ferry : (Chip.modKey g c).ferry = c.ferry := rfl
@[simp] theorem modKey_bay : (Chip.modKey g c).bay = c.bay := rfl
@[simp] theorem modKey_drv : (Chip.modKey g c).drv = c.drv := rfl
@[simp] theorem modKey_safe : (Chip.modKey g c).safe = c.safe := rfl
@[simp] theorem modKey_link : (Chip.modKey g c).link = c.link := rfl
@[simp] theorem modKey_key : (Chip.modKey g c).key = g c.key := rfl
@[simp] theorem modKey_upd : (Chip.modKey g c).upd = c.upd := rfl
@[simp] theorem modKey_net : (Chip.modKey g c).net = c.net := rfl
@[simp] theorem modKey_pair : (Chip.modKey g c).pair = c.pair := rfl
@[simp] theorem modKey_free : (Chip.modKey g c).free = c.free := rfl
end

section
variable (c : Chip) (g : Upd → Upd)
@[simp] theorem modUpd_host : (Chip.modUpd g c).host = c.host := rfl
@[simp] theorem modUpd_sys : (Chip.modUpd g c).sys = c.sys := rfl
@[simp] theorem modUpd_masters : (Chip.modUpd g c).masters = c.masters := rfl
@[simp] theorem modUpd_lands : (Chip.modUpd g c).lands = c.lands := rfl
@[simp] theorem modUpd_tix : (Chip.modUpd g c).tix = c.tix := rfl
@[simp] theorem modUpd_cfg : (Chip.modUpd g c).cfg = c.cfg := rfl
@[simp] theorem modUpd_groups : (Chip.modUpd g c).groups = c.groups := rfl
@[simp] theorem modUpd_taps : (Chip.modUpd g c).taps = c.taps := rfl
@[simp] theorem modUpd_engs : (Chip.modUpd g c).engs = c.engs := rfl
@[simp] theorem modUpd_lib : (Chip.modUpd g c).lib = c.lib := rfl
@[simp] theorem modUpd_bill : (Chip.modUpd g c).bill = c.bill := rfl
@[simp] theorem modUpd_tariff : (Chip.modUpd g c).tariff = c.tariff := rfl
@[simp] theorem modUpd_time : (Chip.modUpd g c).time = c.time := rfl
@[simp] theorem modUpd_power : (Chip.modUpd g c).power = c.power := rfl
@[simp] theorem modUpd_save : (Chip.modUpd g c).save = c.save := rfl
@[simp] theorem modUpd_evt : (Chip.modUpd g c).evt = c.evt := rfl
@[simp] theorem modUpd_tamper : (Chip.modUpd g c).tamper = c.tamper := rfl
@[simp] theorem modUpd_ledger : (Chip.modUpd g c).ledger = c.ledger := rfl
@[simp] theorem modUpd_disp : (Chip.modUpd g c).disp = c.disp := rfl
@[simp] theorem modUpd_ferry : (Chip.modUpd g c).ferry = c.ferry := rfl
@[simp] theorem modUpd_bay : (Chip.modUpd g c).bay = c.bay := rfl
@[simp] theorem modUpd_drv : (Chip.modUpd g c).drv = c.drv := rfl
@[simp] theorem modUpd_safe : (Chip.modUpd g c).safe = c.safe := rfl
@[simp] theorem modUpd_link : (Chip.modUpd g c).link = c.link := rfl
@[simp] theorem modUpd_key : (Chip.modUpd g c).key = c.key := rfl
@[simp] theorem modUpd_upd : (Chip.modUpd g c).upd = g c.upd := rfl
@[simp] theorem modUpd_net : (Chip.modUpd g c).net = c.net := rfl
@[simp] theorem modUpd_pair : (Chip.modUpd g c).pair = c.pair := rfl
@[simp] theorem modUpd_free : (Chip.modUpd g c).free = c.free := rfl
end

section
variable (c : Chip) (g : Net → Net)
@[simp] theorem modNet_host : (Chip.modNet g c).host = c.host := rfl
@[simp] theorem modNet_sys : (Chip.modNet g c).sys = c.sys := rfl
@[simp] theorem modNet_masters : (Chip.modNet g c).masters = c.masters := rfl
@[simp] theorem modNet_lands : (Chip.modNet g c).lands = c.lands := rfl
@[simp] theorem modNet_tix : (Chip.modNet g c).tix = c.tix := rfl
@[simp] theorem modNet_cfg : (Chip.modNet g c).cfg = c.cfg := rfl
@[simp] theorem modNet_groups : (Chip.modNet g c).groups = c.groups := rfl
@[simp] theorem modNet_taps : (Chip.modNet g c).taps = c.taps := rfl
@[simp] theorem modNet_engs : (Chip.modNet g c).engs = c.engs := rfl
@[simp] theorem modNet_lib : (Chip.modNet g c).lib = c.lib := rfl
@[simp] theorem modNet_bill : (Chip.modNet g c).bill = c.bill := rfl
@[simp] theorem modNet_tariff : (Chip.modNet g c).tariff = c.tariff := rfl
@[simp] theorem modNet_time : (Chip.modNet g c).time = c.time := rfl
@[simp] theorem modNet_power : (Chip.modNet g c).power = c.power := rfl
@[simp] theorem modNet_save : (Chip.modNet g c).save = c.save := rfl
@[simp] theorem modNet_evt : (Chip.modNet g c).evt = c.evt := rfl
@[simp] theorem modNet_tamper : (Chip.modNet g c).tamper = c.tamper := rfl
@[simp] theorem modNet_ledger : (Chip.modNet g c).ledger = c.ledger := rfl
@[simp] theorem modNet_disp : (Chip.modNet g c).disp = c.disp := rfl
@[simp] theorem modNet_ferry : (Chip.modNet g c).ferry = c.ferry := rfl
@[simp] theorem modNet_bay : (Chip.modNet g c).bay = c.bay := rfl
@[simp] theorem modNet_drv : (Chip.modNet g c).drv = c.drv := rfl
@[simp] theorem modNet_safe : (Chip.modNet g c).safe = c.safe := rfl
@[simp] theorem modNet_link : (Chip.modNet g c).link = c.link := rfl
@[simp] theorem modNet_key : (Chip.modNet g c).key = c.key := rfl
@[simp] theorem modNet_upd : (Chip.modNet g c).upd = c.upd := rfl
@[simp] theorem modNet_net : (Chip.modNet g c).net = g c.net := rfl
@[simp] theorem modNet_pair : (Chip.modNet g c).pair = c.pair := rfl
@[simp] theorem modNet_free : (Chip.modNet g c).free = c.free := rfl
end

section
variable (c : Chip) (g : Pair → Pair)
@[simp] theorem modPair_host : (Chip.modPair g c).host = c.host := rfl
@[simp] theorem modPair_sys : (Chip.modPair g c).sys = c.sys := rfl
@[simp] theorem modPair_masters : (Chip.modPair g c).masters = c.masters := rfl
@[simp] theorem modPair_lands : (Chip.modPair g c).lands = c.lands := rfl
@[simp] theorem modPair_tix : (Chip.modPair g c).tix = c.tix := rfl
@[simp] theorem modPair_cfg : (Chip.modPair g c).cfg = c.cfg := rfl
@[simp] theorem modPair_groups : (Chip.modPair g c).groups = c.groups := rfl
@[simp] theorem modPair_taps : (Chip.modPair g c).taps = c.taps := rfl
@[simp] theorem modPair_engs : (Chip.modPair g c).engs = c.engs := rfl
@[simp] theorem modPair_lib : (Chip.modPair g c).lib = c.lib := rfl
@[simp] theorem modPair_bill : (Chip.modPair g c).bill = c.bill := rfl
@[simp] theorem modPair_tariff : (Chip.modPair g c).tariff = c.tariff := rfl
@[simp] theorem modPair_time : (Chip.modPair g c).time = c.time := rfl
@[simp] theorem modPair_power : (Chip.modPair g c).power = c.power := rfl
@[simp] theorem modPair_save : (Chip.modPair g c).save = c.save := rfl
@[simp] theorem modPair_evt : (Chip.modPair g c).evt = c.evt := rfl
@[simp] theorem modPair_tamper : (Chip.modPair g c).tamper = c.tamper := rfl
@[simp] theorem modPair_ledger : (Chip.modPair g c).ledger = c.ledger := rfl
@[simp] theorem modPair_disp : (Chip.modPair g c).disp = c.disp := rfl
@[simp] theorem modPair_ferry : (Chip.modPair g c).ferry = c.ferry := rfl
@[simp] theorem modPair_bay : (Chip.modPair g c).bay = c.bay := rfl
@[simp] theorem modPair_drv : (Chip.modPair g c).drv = c.drv := rfl
@[simp] theorem modPair_safe : (Chip.modPair g c).safe = c.safe := rfl
@[simp] theorem modPair_link : (Chip.modPair g c).link = c.link := rfl
@[simp] theorem modPair_key : (Chip.modPair g c).key = c.key := rfl
@[simp] theorem modPair_upd : (Chip.modPair g c).upd = c.upd := rfl
@[simp] theorem modPair_net : (Chip.modPair g c).net = c.net := rfl
@[simp] theorem modPair_pair : (Chip.modPair g c).pair = g c.pair := rfl
@[simp] theorem modPair_free : (Chip.modPair g c).free = c.free := rfl
end

section
variable (c : Chip) (n : Nat) (g : Master → Master)
@[simp] theorem modMaster_host : (Chip.modMaster n g c).host = c.host := rfl
@[simp] theorem modMaster_sys : (Chip.modMaster n g c).sys = c.sys := rfl
theorem modMaster_masters :
    (Chip.modMaster n g c).masters = Tbl.put {} c.masters n (g (c.master n)) := rfl
@[simp] theorem modMaster_lands : (Chip.modMaster n g c).lands = c.lands := rfl
@[simp] theorem modMaster_tix : (Chip.modMaster n g c).tix = c.tix := rfl
@[simp] theorem modMaster_cfg : (Chip.modMaster n g c).cfg = c.cfg := rfl
@[simp] theorem modMaster_groups : (Chip.modMaster n g c).groups = c.groups := rfl
@[simp] theorem modMaster_taps : (Chip.modMaster n g c).taps = c.taps := rfl
@[simp] theorem modMaster_engs : (Chip.modMaster n g c).engs = c.engs := rfl
@[simp] theorem modMaster_lib : (Chip.modMaster n g c).lib = c.lib := rfl
@[simp] theorem modMaster_bill : (Chip.modMaster n g c).bill = c.bill := rfl
@[simp] theorem modMaster_tariff : (Chip.modMaster n g c).tariff = c.tariff := rfl
@[simp] theorem modMaster_time : (Chip.modMaster n g c).time = c.time := rfl
@[simp] theorem modMaster_power : (Chip.modMaster n g c).power = c.power := rfl
@[simp] theorem modMaster_save : (Chip.modMaster n g c).save = c.save := rfl
@[simp] theorem modMaster_evt : (Chip.modMaster n g c).evt = c.evt := rfl
@[simp] theorem modMaster_tamper : (Chip.modMaster n g c).tamper = c.tamper := rfl
@[simp] theorem modMaster_ledger : (Chip.modMaster n g c).ledger = c.ledger := rfl
@[simp] theorem modMaster_disp : (Chip.modMaster n g c).disp = c.disp := rfl
@[simp] theorem modMaster_ferry : (Chip.modMaster n g c).ferry = c.ferry := rfl
@[simp] theorem modMaster_bay : (Chip.modMaster n g c).bay = c.bay := rfl
@[simp] theorem modMaster_drv : (Chip.modMaster n g c).drv = c.drv := rfl
@[simp] theorem modMaster_safe : (Chip.modMaster n g c).safe = c.safe := rfl
@[simp] theorem modMaster_link : (Chip.modMaster n g c).link = c.link := rfl
@[simp] theorem modMaster_key : (Chip.modMaster n g c).key = c.key := rfl
@[simp] theorem modMaster_upd : (Chip.modMaster n g c).upd = c.upd := rfl
@[simp] theorem modMaster_net : (Chip.modMaster n g c).net = c.net := rfl
@[simp] theorem modMaster_pair : (Chip.modMaster n g c).pair = c.pair := rfl
@[simp] theorem modMaster_free : (Chip.modMaster n g c).free = c.free := rfl
@[simp] theorem modMaster_master (i : Nat) :
    (Chip.modMaster n g c).master i = if i = n then g (c.master n) else c.master i := by
  simp [Chip.modMaster, Chip.master]
end

section
variable (c : Chip) (n : Nat) (g : Landing → Landing)
@[simp] theorem modLand_host : (Chip.modLand n g c).host = c.host := rfl
@[simp] theorem modLand_sys : (Chip.modLand n g c).sys = c.sys := rfl
@[simp] theorem modLand_masters : (Chip.modLand n g c).masters = c.masters := rfl
theorem modLand_lands :
    (Chip.modLand n g c).lands = Tbl.put {} c.lands n (g (c.land n)) := rfl
@[simp] theorem modLand_tix : (Chip.modLand n g c).tix = c.tix := rfl
@[simp] theorem modLand_cfg : (Chip.modLand n g c).cfg = c.cfg := rfl
@[simp] theorem modLand_groups : (Chip.modLand n g c).groups = c.groups := rfl
@[simp] theorem modLand_taps : (Chip.modLand n g c).taps = c.taps := rfl
@[simp] theorem modLand_engs : (Chip.modLand n g c).engs = c.engs := rfl
@[simp] theorem modLand_lib : (Chip.modLand n g c).lib = c.lib := rfl
@[simp] theorem modLand_bill : (Chip.modLand n g c).bill = c.bill := rfl
@[simp] theorem modLand_tariff : (Chip.modLand n g c).tariff = c.tariff := rfl
@[simp] theorem modLand_time : (Chip.modLand n g c).time = c.time := rfl
@[simp] theorem modLand_power : (Chip.modLand n g c).power = c.power := rfl
@[simp] theorem modLand_save : (Chip.modLand n g c).save = c.save := rfl
@[simp] theorem modLand_evt : (Chip.modLand n g c).evt = c.evt := rfl
@[simp] theorem modLand_tamper : (Chip.modLand n g c).tamper = c.tamper := rfl
@[simp] theorem modLand_ledger : (Chip.modLand n g c).ledger = c.ledger := rfl
@[simp] theorem modLand_disp : (Chip.modLand n g c).disp = c.disp := rfl
@[simp] theorem modLand_ferry : (Chip.modLand n g c).ferry = c.ferry := rfl
@[simp] theorem modLand_bay : (Chip.modLand n g c).bay = c.bay := rfl
@[simp] theorem modLand_drv : (Chip.modLand n g c).drv = c.drv := rfl
@[simp] theorem modLand_safe : (Chip.modLand n g c).safe = c.safe := rfl
@[simp] theorem modLand_link : (Chip.modLand n g c).link = c.link := rfl
@[simp] theorem modLand_key : (Chip.modLand n g c).key = c.key := rfl
@[simp] theorem modLand_upd : (Chip.modLand n g c).upd = c.upd := rfl
@[simp] theorem modLand_net : (Chip.modLand n g c).net = c.net := rfl
@[simp] theorem modLand_pair : (Chip.modLand n g c).pair = c.pair := rfl
@[simp] theorem modLand_free : (Chip.modLand n g c).free = c.free := rfl
@[simp] theorem modLand_land (i : Nat) :
    (Chip.modLand n g c).land i = if i = n then g (c.land n) else c.land i := by
  simp [Chip.modLand, Chip.land]
end

section
variable (c : Chip) (n : Nat) (g : TapGroup → TapGroup)
@[simp] theorem modGroup_host : (Chip.modGroup n g c).host = c.host := rfl
@[simp] theorem modGroup_sys : (Chip.modGroup n g c).sys = c.sys := rfl
@[simp] theorem modGroup_masters : (Chip.modGroup n g c).masters = c.masters := rfl
@[simp] theorem modGroup_lands : (Chip.modGroup n g c).lands = c.lands := rfl
@[simp] theorem modGroup_tix : (Chip.modGroup n g c).tix = c.tix := rfl
@[simp] theorem modGroup_cfg : (Chip.modGroup n g c).cfg = c.cfg := rfl
theorem modGroup_groups :
    (Chip.modGroup n g c).groups = Tbl.put {} c.groups n (g (c.group n)) := rfl
@[simp] theorem modGroup_taps : (Chip.modGroup n g c).taps = c.taps := rfl
@[simp] theorem modGroup_engs : (Chip.modGroup n g c).engs = c.engs := rfl
@[simp] theorem modGroup_lib : (Chip.modGroup n g c).lib = c.lib := rfl
@[simp] theorem modGroup_bill : (Chip.modGroup n g c).bill = c.bill := rfl
@[simp] theorem modGroup_tariff : (Chip.modGroup n g c).tariff = c.tariff := rfl
@[simp] theorem modGroup_time : (Chip.modGroup n g c).time = c.time := rfl
@[simp] theorem modGroup_power : (Chip.modGroup n g c).power = c.power := rfl
@[simp] theorem modGroup_save : (Chip.modGroup n g c).save = c.save := rfl
@[simp] theorem modGroup_evt : (Chip.modGroup n g c).evt = c.evt := rfl
@[simp] theorem modGroup_tamper : (Chip.modGroup n g c).tamper = c.tamper := rfl
@[simp] theorem modGroup_ledger : (Chip.modGroup n g c).ledger = c.ledger := rfl
@[simp] theorem modGroup_disp : (Chip.modGroup n g c).disp = c.disp := rfl
@[simp] theorem modGroup_ferry : (Chip.modGroup n g c).ferry = c.ferry := rfl
@[simp] theorem modGroup_bay : (Chip.modGroup n g c).bay = c.bay := rfl
@[simp] theorem modGroup_drv : (Chip.modGroup n g c).drv = c.drv := rfl
@[simp] theorem modGroup_safe : (Chip.modGroup n g c).safe = c.safe := rfl
@[simp] theorem modGroup_link : (Chip.modGroup n g c).link = c.link := rfl
@[simp] theorem modGroup_key : (Chip.modGroup n g c).key = c.key := rfl
@[simp] theorem modGroup_upd : (Chip.modGroup n g c).upd = c.upd := rfl
@[simp] theorem modGroup_net : (Chip.modGroup n g c).net = c.net := rfl
@[simp] theorem modGroup_pair : (Chip.modGroup n g c).pair = c.pair := rfl
@[simp] theorem modGroup_free : (Chip.modGroup n g c).free = c.free := rfl
@[simp] theorem modGroup_group (i : Nat) :
    (Chip.modGroup n g c).group i = if i = n then g (c.group n) else c.group i := by
  simp [Chip.modGroup, Chip.group]
end

section
variable (c : Chip) (n : Nat) (g : Tap → Tap)
@[simp] theorem modTap_host : (Chip.modTap n g c).host = c.host := rfl
@[simp] theorem modTap_sys : (Chip.modTap n g c).sys = c.sys := rfl
@[simp] theorem modTap_masters : (Chip.modTap n g c).masters = c.masters := rfl
@[simp] theorem modTap_lands : (Chip.modTap n g c).lands = c.lands := rfl
@[simp] theorem modTap_tix : (Chip.modTap n g c).tix = c.tix := rfl
@[simp] theorem modTap_cfg : (Chip.modTap n g c).cfg = c.cfg := rfl
@[simp] theorem modTap_groups : (Chip.modTap n g c).groups = c.groups := rfl
theorem modTap_taps :
    (Chip.modTap n g c).taps = Tbl.put {} c.taps n (g (c.tap n)) := rfl
@[simp] theorem modTap_engs : (Chip.modTap n g c).engs = c.engs := rfl
@[simp] theorem modTap_lib : (Chip.modTap n g c).lib = c.lib := rfl
@[simp] theorem modTap_bill : (Chip.modTap n g c).bill = c.bill := rfl
@[simp] theorem modTap_tariff : (Chip.modTap n g c).tariff = c.tariff := rfl
@[simp] theorem modTap_time : (Chip.modTap n g c).time = c.time := rfl
@[simp] theorem modTap_power : (Chip.modTap n g c).power = c.power := rfl
@[simp] theorem modTap_save : (Chip.modTap n g c).save = c.save := rfl
@[simp] theorem modTap_evt : (Chip.modTap n g c).evt = c.evt := rfl
@[simp] theorem modTap_tamper : (Chip.modTap n g c).tamper = c.tamper := rfl
@[simp] theorem modTap_ledger : (Chip.modTap n g c).ledger = c.ledger := rfl
@[simp] theorem modTap_disp : (Chip.modTap n g c).disp = c.disp := rfl
@[simp] theorem modTap_ferry : (Chip.modTap n g c).ferry = c.ferry := rfl
@[simp] theorem modTap_bay : (Chip.modTap n g c).bay = c.bay := rfl
@[simp] theorem modTap_drv : (Chip.modTap n g c).drv = c.drv := rfl
@[simp] theorem modTap_safe : (Chip.modTap n g c).safe = c.safe := rfl
@[simp] theorem modTap_link : (Chip.modTap n g c).link = c.link := rfl
@[simp] theorem modTap_key : (Chip.modTap n g c).key = c.key := rfl
@[simp] theorem modTap_upd : (Chip.modTap n g c).upd = c.upd := rfl
@[simp] theorem modTap_net : (Chip.modTap n g c).net = c.net := rfl
@[simp] theorem modTap_pair : (Chip.modTap n g c).pair = c.pair := rfl
@[simp] theorem modTap_free : (Chip.modTap n g c).free = c.free := rfl
@[simp] theorem modTap_tap (i : Nat) :
    (Chip.modTap n g c).tap i = if i = n then g (c.tap n) else c.tap i := by
  simp [Chip.modTap, Chip.tap]
end

section
variable (c : Chip) (n : Nat) (g : Engine → Engine)
@[simp] theorem modEng_host : (Chip.modEng n g c).host = c.host := rfl
@[simp] theorem modEng_sys : (Chip.modEng n g c).sys = c.sys := rfl
@[simp] theorem modEng_masters : (Chip.modEng n g c).masters = c.masters := rfl
@[simp] theorem modEng_lands : (Chip.modEng n g c).lands = c.lands := rfl
@[simp] theorem modEng_tix : (Chip.modEng n g c).tix = c.tix := rfl
@[simp] theorem modEng_cfg : (Chip.modEng n g c).cfg = c.cfg := rfl
@[simp] theorem modEng_groups : (Chip.modEng n g c).groups = c.groups := rfl
@[simp] theorem modEng_taps : (Chip.modEng n g c).taps = c.taps := rfl
theorem modEng_engs :
    (Chip.modEng n g c).engs = Tbl.put {} c.engs n (g (c.eng n)) := rfl
@[simp] theorem modEng_lib : (Chip.modEng n g c).lib = c.lib := rfl
@[simp] theorem modEng_bill : (Chip.modEng n g c).bill = c.bill := rfl
@[simp] theorem modEng_tariff : (Chip.modEng n g c).tariff = c.tariff := rfl
@[simp] theorem modEng_time : (Chip.modEng n g c).time = c.time := rfl
@[simp] theorem modEng_power : (Chip.modEng n g c).power = c.power := rfl
@[simp] theorem modEng_save : (Chip.modEng n g c).save = c.save := rfl
@[simp] theorem modEng_evt : (Chip.modEng n g c).evt = c.evt := rfl
@[simp] theorem modEng_tamper : (Chip.modEng n g c).tamper = c.tamper := rfl
@[simp] theorem modEng_ledger : (Chip.modEng n g c).ledger = c.ledger := rfl
@[simp] theorem modEng_disp : (Chip.modEng n g c).disp = c.disp := rfl
@[simp] theorem modEng_ferry : (Chip.modEng n g c).ferry = c.ferry := rfl
@[simp] theorem modEng_bay : (Chip.modEng n g c).bay = c.bay := rfl
@[simp] theorem modEng_drv : (Chip.modEng n g c).drv = c.drv := rfl
@[simp] theorem modEng_safe : (Chip.modEng n g c).safe = c.safe := rfl
@[simp] theorem modEng_link : (Chip.modEng n g c).link = c.link := rfl
@[simp] theorem modEng_key : (Chip.modEng n g c).key = c.key := rfl
@[simp] theorem modEng_upd : (Chip.modEng n g c).upd = c.upd := rfl
@[simp] theorem modEng_net : (Chip.modEng n g c).net = c.net := rfl
@[simp] theorem modEng_pair : (Chip.modEng n g c).pair = c.pair := rfl
@[simp] theorem modEng_free : (Chip.modEng n g c).free = c.free := rfl
@[simp] theorem modEng_eng (i : Nat) :
    (Chip.modEng n g c).eng i = if i = n then g (c.eng n) else c.eng i := by
  simp [Chip.modEng, Chip.eng]
end

section
variable (c : Chip) (n : Nat) (g : TallyImg → TallyImg)
@[simp] theorem modImg_host : (Chip.modImg n g c).host = c.host := rfl
@[simp] theorem modImg_sys : (Chip.modImg n g c).sys = c.sys := rfl
@[simp] theorem modImg_masters : (Chip.modImg n g c).masters = c.masters := rfl
@[simp] theorem modImg_lands : (Chip.modImg n g c).lands = c.lands := rfl
@[simp] theorem modImg_tix : (Chip.modImg n g c).tix = c.tix := rfl
@[simp] theorem modImg_cfg : (Chip.modImg n g c).cfg = c.cfg := rfl
@[simp] theorem modImg_groups : (Chip.modImg n g c).groups = c.groups := rfl
@[simp] theorem modImg_taps : (Chip.modImg n g c).taps = c.taps := rfl
@[simp] theorem modImg_engs : (Chip.modImg n g c).engs = c.engs := rfl
theorem modImg_lib :
    (Chip.modImg n g c).lib = Tbl.put {} c.lib n (g (c.img n)) := rfl
@[simp] theorem modImg_bill : (Chip.modImg n g c).bill = c.bill := rfl
@[simp] theorem modImg_tariff : (Chip.modImg n g c).tariff = c.tariff := rfl
@[simp] theorem modImg_time : (Chip.modImg n g c).time = c.time := rfl
@[simp] theorem modImg_power : (Chip.modImg n g c).power = c.power := rfl
@[simp] theorem modImg_save : (Chip.modImg n g c).save = c.save := rfl
@[simp] theorem modImg_evt : (Chip.modImg n g c).evt = c.evt := rfl
@[simp] theorem modImg_tamper : (Chip.modImg n g c).tamper = c.tamper := rfl
@[simp] theorem modImg_ledger : (Chip.modImg n g c).ledger = c.ledger := rfl
@[simp] theorem modImg_disp : (Chip.modImg n g c).disp = c.disp := rfl
@[simp] theorem modImg_ferry : (Chip.modImg n g c).ferry = c.ferry := rfl
@[simp] theorem modImg_bay : (Chip.modImg n g c).bay = c.bay := rfl
@[simp] theorem modImg_drv : (Chip.modImg n g c).drv = c.drv := rfl
@[simp] theorem modImg_safe : (Chip.modImg n g c).safe = c.safe := rfl
@[simp] theorem modImg_link : (Chip.modImg n g c).link = c.link := rfl
@[simp] theorem modImg_key : (Chip.modImg n g c).key = c.key := rfl
@[simp] theorem modImg_upd : (Chip.modImg n g c).upd = c.upd := rfl
@[simp] theorem modImg_net : (Chip.modImg n g c).net = c.net := rfl
@[simp] theorem modImg_pair : (Chip.modImg n g c).pair = c.pair := rfl
@[simp] theorem modImg_free : (Chip.modImg n g c).free = c.free := rfl
@[simp] theorem modImg_img (i : Nat) :
    (Chip.modImg n g c).img i = if i = n then g (c.img n) else c.img i := by
  simp [Chip.modImg, Chip.img]
end

section
variable (c : Chip) (n : Nat) (g : Ferry → Ferry)
@[simp] theorem modFq_host : (Chip.modFq n g c).host = c.host := rfl
@[simp] theorem modFq_sys : (Chip.modFq n g c).sys = c.sys := rfl
@[simp] theorem modFq_masters : (Chip.modFq n g c).masters = c.masters := rfl
@[simp] theorem modFq_lands : (Chip.modFq n g c).lands = c.lands := rfl
@[simp] theorem modFq_tix : (Chip.modFq n g c).tix = c.tix := rfl
@[simp] theorem modFq_cfg : (Chip.modFq n g c).cfg = c.cfg := rfl
@[simp] theorem modFq_groups : (Chip.modFq n g c).groups = c.groups := rfl
@[simp] theorem modFq_taps : (Chip.modFq n g c).taps = c.taps := rfl
@[simp] theorem modFq_engs : (Chip.modFq n g c).engs = c.engs := rfl
@[simp] theorem modFq_lib : (Chip.modFq n g c).lib = c.lib := rfl
@[simp] theorem modFq_bill : (Chip.modFq n g c).bill = c.bill := rfl
@[simp] theorem modFq_tariff : (Chip.modFq n g c).tariff = c.tariff := rfl
@[simp] theorem modFq_time : (Chip.modFq n g c).time = c.time := rfl
@[simp] theorem modFq_power : (Chip.modFq n g c).power = c.power := rfl
@[simp] theorem modFq_save : (Chip.modFq n g c).save = c.save := rfl
@[simp] theorem modFq_evt : (Chip.modFq n g c).evt = c.evt := rfl
@[simp] theorem modFq_tamper : (Chip.modFq n g c).tamper = c.tamper := rfl
@[simp] theorem modFq_ledger : (Chip.modFq n g c).ledger = c.ledger := rfl
@[simp] theorem modFq_disp : (Chip.modFq n g c).disp = c.disp := rfl
theorem modFq_ferry :
    (Chip.modFq n g c).ferry = Tbl.put {} c.ferry n (g (c.fq n)) := rfl
@[simp] theorem modFq_bay : (Chip.modFq n g c).bay = c.bay := rfl
@[simp] theorem modFq_drv : (Chip.modFq n g c).drv = c.drv := rfl
@[simp] theorem modFq_safe : (Chip.modFq n g c).safe = c.safe := rfl
@[simp] theorem modFq_link : (Chip.modFq n g c).link = c.link := rfl
@[simp] theorem modFq_key : (Chip.modFq n g c).key = c.key := rfl
@[simp] theorem modFq_upd : (Chip.modFq n g c).upd = c.upd := rfl
@[simp] theorem modFq_net : (Chip.modFq n g c).net = c.net := rfl
@[simp] theorem modFq_pair : (Chip.modFq n g c).pair = c.pair := rfl
@[simp] theorem modFq_free : (Chip.modFq n g c).free = c.free := rfl
@[simp] theorem modFq_fq (i : Nat) :
    (Chip.modFq n g c).fq i = if i = n then g (c.fq n) else c.fq i := by
  simp [Chip.modFq, Chip.fq]
end

@[simp] theorem when_true (f : Chip → Chip) (c : Chip) : c.when true f = f c := rfl

@[simp] theorem when_false (f : Chip → Chip) (c : Chip) : c.when false f = c := rfl

/-- A conditional update keeps what the update keeps. -/
theorem when_keeps {α : Type} (p : Chip → α) (b : Bool) (f : Chip → Chip) (c : Chip)
    (h : p (f c) = p c) : p (c.when b f) = p c := by
  cases b <;> simp [h]

/-- Updates in turn keep what each keeps. -/
theorem each_keeps {α β : Type} (p : Chip → β) (f : α → Chip → Chip)
    (h : ∀ a c, p (f a c) = p c) : ∀ (l : List α) (c : Chip), p (each l f c) = p c
  | [], _ => rfl
  | a :: t, c => (each_keeps p f h t (f a c)).trans (h a c)

end Sys2Proof.Machine
end

