-- ==== Sys2Proof/Laws/Events.lean ====
section
/-! SUPPORT. What raising an event, writing a packet and recording a tamper event can change, said
once each; every other block is as it was. -/

namespace Sys2Proof.Machine

open Sys2Proof

/-- `d` differs from `c` in the event block, the ferry queues and the hint bits at most. -/
def Noted (c d : Chip) : Prop :=
  ∃ e f h, d = { c with evt := e, ferry := f, sys := { c.sys with hintStatus := h } }

/-- `d` differs from `c` in what `Noted` allows, the tamper records and the ledger at most. -/
def Recorded (c d : Chip) : Prop :=
  ∃ e f h t l, d = { c with evt := e, ferry := f, sys := { c.sys with hintStatus := h },
                            tamper := t, ledger := l }

theorem Noted.refl (c : Chip) : Noted c c := ⟨c.evt, c.ferry, c.sys.hintStatus, rfl⟩

theorem Noted.trans {a b c : Chip} : Noted a b → Noted b c → Noted a c := by
  rintro ⟨e, f, h, rfl⟩ ⟨e', f', h', rfl⟩
  exact ⟨e', f', h', rfl⟩

theorem Noted.recorded {c d : Chip} : Noted c d → Recorded c d := by
  rintro ⟨e, f, h, rfl⟩
  exact ⟨e, f, h, c.tamper, c.ledger, rfl⟩

theorem Recorded.refl (c : Chip) : Recorded c c := (Noted.refl c).recorded

theorem Recorded.trans {a b c : Chip} : Recorded a b → Recorded b c → Recorded a c := by
  rintro ⟨e, f, h, t, l, rfl⟩ ⟨e', f', h', t', l', rfl⟩
  exact ⟨e', f', h', t', l', rfl⟩

section
variable {c d : Chip} (h : Noted c d)
include h
theorem Noted.host : d.host = c.host := by obtain ⟨_, _, _, rfl⟩ := h; rfl
theorem Noted.masters : d.masters = c.masters := by obtain ⟨_, _, _, rfl⟩ := h; rfl
theorem Noted.lands : d.lands = c.lands := by obtain ⟨_, _, _, rfl⟩ := h; rfl
theorem Noted.tix : d.tix = c.tix := by obtain ⟨_, _, _, rfl⟩ := h; rfl
theorem Noted.cfg : d.cfg = c.cfg := by obtain ⟨_, _, _, rfl⟩ := h; rfl
theorem Noted.groups : d.groups = c.groups := by obtain ⟨_, _, _, rfl⟩ := h; rfl
theorem Noted.taps : d.taps = c.taps := by obtain ⟨_, _, _, rfl⟩ := h; rfl
theorem Noted.engs : d.engs = c.engs := by obtain ⟨_, _, _, rfl⟩ := h; rfl
theorem Noted.lib : d.lib = c.lib := by obtain ⟨_, _, _, rfl⟩ := h; rfl
theorem Noted.bill : d.bill = c.bill := by obtain ⟨_, _, _, rfl⟩ := h; rfl
theorem Noted.tariff : d.tariff = c.tariff := by obtain ⟨_, _, _, rfl⟩ := h; rfl
theorem Noted.time : d.time = c.time := by obtain ⟨_, _, _, rfl⟩ := h; rfl
theorem Noted.power : d.power = c.power := by obtain ⟨_, _, _, rfl⟩ := h; rfl
theorem Noted.save : d.save = c.save := by obtain ⟨_, _, _, rfl⟩ := h; rfl
theorem Noted.tamper : d.tamper = c.tamper := by obtain ⟨_, _, _, rfl⟩ := h; rfl
theorem Noted.ledger : d.ledger = c.ledger := by obtain ⟨_, _, _, rfl⟩ := h; rfl
theorem Noted.disp : d.disp = c.disp := by obtain ⟨_, _, _, rfl⟩ := h; rfl
theorem Noted.bay : d.bay = c.bay := by obtain ⟨_, _, _, rfl⟩ := h; rfl
theorem Noted.drv : d.drv = c.drv := by obtain ⟨_, _, _, rfl⟩ := h; rfl
theorem Noted.safe : d.safe = c.safe := by obtain ⟨_, _, _, rfl⟩ := h; rfl
theorem Noted.link : d.link = c.link := by obtain ⟨_, _, _, rfl⟩ := h; rfl
theorem Noted.key : d.key = c.key := by obtain ⟨_, _, _, rfl⟩ := h; rfl
theorem Noted.upd : d.upd = c.upd := by obtain ⟨_, _, _, rfl⟩ := h; rfl
theorem Noted.net : d.net = c.net := by obtain ⟨_, _, _, rfl⟩ := h; rfl
theorem Noted.pair : d.pair = c.pair := by obtain ⟨_, _, _, rfl⟩ := h; rfl
theorem Noted.free : d.free = c.free := by obtain ⟨_, _, _, rfl⟩ := h; rfl
theorem Noted.sys_hintEn : d.sys.hintEn = c.sys.hintEn := by obtain ⟨_, _, _, rfl⟩ := h; rfl
theorem Noted.sys_deniedCnt : d.sys.deniedCnt = c.sys.deniedCnt := by obtain ⟨_, _, _, rfl⟩ := h; rfl
theorem Noted.sys_deniedAddr : d.sys.deniedAddr = c.sys.deniedAddr := by obtain ⟨_, _, _, rfl⟩ := h; rfl
theorem Noted.sys_ready : d.sys.ready = c.sys.ready := by obtain ⟨_, _, _, rfl⟩ := h; rfl
theorem Noted.sys_starting : d.sys.starting = c.sys.starting := by obtain ⟨_, _, _, rfl⟩ := h; rfl
theorem Noted.sys_commission : d.sys.commission = c.sys.commission := by obtain ⟨_, _, _, rfl⟩ := h; rfl
theorem Noted.sys_qcause : d.sys.qcause = c.sys.qcause := by obtain ⟨_, _, _, rfl⟩ := h; rfl
theorem Noted.sys_changeover : d.sys.changeover = c.sys.changeover := by obtain ⟨_, _, _, rfl⟩ := h; rfl
theorem Noted.sys_mode : d.sys.mode = c.sys.mode := by obtain ⟨_, _, _, rfl⟩ := h; rfl
theorem Noted.sys_resetCount : d.sys.resetCount = c.sys.resetCount := by obtain ⟨_, _, _, rfl⟩ := h; rfl
theorem Noted.sys_prevCause : d.sys.prevCause = c.sys.prevCause := by obtain ⟨_, _, _, rfl⟩ := h; rfl
theorem Noted.sys_cause : d.sys.cause = c.sys.cause := by obtain ⟨_, _, _, rfl⟩ := h; rfl
theorem Noted.sys_deviceId : d.sys.deviceId = c.sys.deviceId := by obtain ⟨_, _, _, rfl⟩ := h; rfl
theorem Noted.sys_te : d.sys.te = c.sys.te := by obtain ⟨_, _, _, rfl⟩ := h; rfl
theorem Noted.sys_dead : d.sys.dead = c.sys.dead := by obtain ⟨_, _, _, rfl⟩ := h; rfl
theorem Noted.sys_backplate : d.sys.backplate = c.sys.backplate := by obtain ⟨_, _, _, rfl⟩ := h; rfl
end

section
variable {c d : Chip} (h : Recorded c d)
include h
theorem Recorded.host : d.host = c.host := by obtain ⟨_, _, _, _, _, rfl⟩ := h; rfl
theorem Recorded.masters : d.masters = c.masters := by obtain ⟨_, _, _, _, _, rfl⟩ := h; rfl
theorem Recorded.lands : d.lands = c.lands := by obtain ⟨_, _, _, _, _, rfl⟩ := h; rfl
theorem Recorded.tix : d.tix = c.tix := by obtain ⟨_, _, _, _, _, rfl⟩ := h; rfl
theorem Recorded.cfg : d.cfg = c.cfg := by obtain ⟨_, _, _, _, _, rfl⟩ := h; rfl
theorem Recorded.groups : d.groups = c.groups := by obtain ⟨_, _, _, _, _, rfl⟩ := h; rfl
theorem Recorded.taps : d.taps = c.taps := by obtain ⟨_, _, _, _, _, rfl⟩ := h; rfl
theorem Recorded.engs : d.engs = c.engs := by obtain ⟨_, _, _, _, _, rfl⟩ := h; rfl
theorem Recorded.lib : d.lib = c.lib := by obtain ⟨_, _, _, _, _, rfl⟩ := h; rfl
theorem Recorded.bill : d.bill = c.bill := by obtain ⟨_, _, _, _, _, rfl⟩ := h; rfl
theorem Recorded.tariff : d.tariff = c.tariff := by obtain ⟨_, _, _, _, _, rfl⟩ := h; rfl
theorem Recorded.time : d.time = c.time := by obtain ⟨_, _, _, _, _, rfl⟩ := h; rfl
theorem Recorded.power : d.power = c.power := by obtain ⟨_, _, _, _, _, rfl⟩ := h; rfl
theorem Recorded.save : d.save = c.save := by obtain ⟨_, _, _, _, _, rfl⟩ := h; rfl
theorem Recorded.disp : d.disp = c.disp := by obtain ⟨_, _, _, _, _, rfl⟩ := h; rfl
theorem Recorded.bay : d.bay = c.bay := by obtain ⟨_, _, _, _, _, rfl⟩ := h; rfl
theorem Recorded.drv : d.drv = c.drv := by obtain ⟨_, _, _, _, _, rfl⟩ := h; rfl
theorem Recorded.safe : d.safe = c.safe := by obtain ⟨_, _, _, _, _, rfl⟩ := h; rfl
theorem Recorded.link : d.link = c.link := by obtain ⟨_, _, _, _, _, rfl⟩ := h; rfl
theorem Recorded.key : d.key = c.key := by obtain ⟨_, _, _, _, _, rfl⟩ := h; rfl
theorem Recorded.upd : d.upd = c.upd := by obtain ⟨_, _, _, _, _, rfl⟩ := h; rfl
theorem Recorded.net : d.net = c.net := by obtain ⟨_, _, _, _, _, rfl⟩ := h; rfl
theorem Recorded.pair : d.pair = c.pair := by obtain ⟨_, _, _, _, _, rfl⟩ := h; rfl
theorem Recorded.free : d.free = c.free := by obtain ⟨_, _, _, _, _, rfl⟩ := h; rfl
theorem Recorded.sys_hintEn : d.sys.hintEn = c.sys.hintEn := by obtain ⟨_, _, _, _, _, rfl⟩ := h; rfl
theorem Recorded.sys_deniedCnt : d.sys.deniedCnt = c.sys.deniedCnt := by obtain ⟨_, _, _, _, _, rfl⟩ := h; rfl
theorem Recorded.sys_deniedAddr : d.sys.deniedAddr = c.sys.deniedAddr := by obtain ⟨_, _, _, _, _, rfl⟩ := h; rfl
theorem Recorded.sys_ready : d.sys.ready = c.sys.ready := by obtain ⟨_, _, _, _, _, rfl⟩ := h; rfl
theorem Recorded.sys_starting : d.sys.starting = c.sys.starting := by obtain ⟨_, _, _, _, _, rfl⟩ := h; rfl
theorem Recorded.sys_commission : d.sys.commission = c.sys.commission := by obtain ⟨_, _, _, _, _, rfl⟩ := h; rfl
theorem Recorded.sys_qcause : d.sys.qcause = c.sys.qcause := by obtain ⟨_, _, _, _, _, rfl⟩ := h; rfl
theorem Recorded.sys_changeover : d.sys.changeover = c.sys.changeover := by obtain ⟨_, _, _, _, _, rfl⟩ := h; rfl
theorem Recorded.sys_mode : d.sys.mode = c.sys.mode := by obtain ⟨_, _, _, _, _, rfl⟩ := h; rfl
theorem Recorded.sys_resetCount : d.sys.resetCount = c.sys.resetCount := by obtain ⟨_, _, _, _, _, rfl⟩ := h; rfl
theorem Recorded.sys_prevCause : d.sys.prevCause = c.sys.prevCause := by obtain ⟨_, _, _, _, _, rfl⟩ := h; rfl
theorem Recorded.sys_cause : d.sys.cause = c.sys.cause := by obtain ⟨_, _, _, _, _, rfl⟩ := h; rfl
theorem Recorded.sys_deviceId : d.sys.deviceId = c.sys.deviceId := by obtain ⟨_, _, _, _, _, rfl⟩ := h; rfl
theorem Recorded.sys_te : d.sys.te = c.sys.te := by obtain ⟨_, _, _, _, _, rfl⟩ := h; rfl
theorem Recorded.sys_dead : d.sys.dead = c.sys.dead := by obtain ⟨_, _, _, _, _, rfl⟩ := h; rfl
theorem Recorded.sys_backplate : d.sys.backplate = c.sys.backplate := by obtain ⟨_, _, _, _, _, rfl⟩ := h; rfl
end

theorem noted_modEvt (g : Evt → Evt) (c : Chip) : Noted c (c.modEvt g) :=
  ⟨g c.evt, c.ferry, c.sys.hintStatus, rfl⟩

theorem noted_modFq (q : Nat) (g : Ferry → Ferry) (c : Chip) : Noted c (c.modFq q g) :=
  ⟨c.evt, _, c.sys.hintStatus, rfl⟩

theorem noted_hint (i : Nat) (c : Chip) : Noted c (c.hint i) := ⟨c.evt, c.ferry, _, rfl⟩

theorem noted_when {b : Bool} {f : Chip → Chip} {c : Chip} (h : Noted c (f c)) : Noted c (c.when b f) := by
  cases b
  · exact Noted.refl c
  · exact h

theorem noted_countSrc (code : W16) (utc : W32) (c : Chip) : Noted c (c.countSrc code utc) :=
  noted_modEvt _ c

theorem noted_deliverOnce (c : Chip) : Noted c c.deliverOnce := by
  unfold Chip.deliverOnce
  dsimp only
  split
  · exact ⟨_, _, _, rfl⟩
  · exact ⟨_, _, _, rfl⟩

theorem noted_closeOverrun (c : Chip) : Noted c c.closeOverrun := by
  unfold Chip.closeOverrun
  dsimp only
  split
  · exact Noted.refl c
  · exact (noted_countSrc _ _ c).trans (noted_modEvt _ _)

theorem noted_endOverrun (c : Chip) : Noted c c.endOverrun := by
  unfold Chip.endOverrun
  split
  · exact Noted.refl c
  · exact noted_closeOverrun c

theorem noted_deliver (c : Chip) : Noted c c.deliver := by
  unfold Chip.deliver
  dsimp only
  split
  · exact (((noted_deliverOnce c).trans (noted_endOverrun _)).trans (noted_modEvt _ _)).trans
      (noted_deliverOnce _)
  · exact noted_deliverOnce c

/-- Raising an event. -/
theorem noted_raiseAt (six : Nat) (code : W16) (unit : Nat) (a0 a1 : W32) (c : Chip) :
    Noted c (c.raiseAt six code unit a0 a1) := by
  unfold Chip.raiseAt
  refine (noted_countSrc code (c.utc six) c).trans ?_
  dsimp only
  split
  · exact (noted_modEvt _ _).trans (noted_deliver _)
  · split
    · exact noted_modEvt _ _
    · exact noted_modEvt _ _

theorem noted_raise (code : W16) (unit : Nat) (a0 a1 : W32) (c : Chip) :
    Noted c (c.raise code unit a0 a1) := noted_raiseAt _ _ _ _ _ c

theorem noted_fqOffer (q : Nat) (p : List W32) (c : Chip) : Noted c (c.fqOffer q p).1 := by
  unfold Chip.fqOffer
  dsimp only
  split
  · exact noted_modFq _ _ c
  · split
    · exact (noted_modFq _ _ c).trans (noted_hint _ _)
    · split
      · exact noted_modFq _ _ c
      · split
        · dsimp only; exact noted_modFq _ _ c
        · dsimp only; exact noted_modFq _ _ c

/-- Writing a packet to a queue. -/
theorem noted_fqPut (q : Nat) (p : List W32) (c : Chip) : Noted c (c.fqPut q p) := by
  unfold Chip.fqPut
  split
  · exact (noted_modFq _ _ c).trans (noted_raise _ _ _ _ _)
  · dsimp only
    split
    · exact (noted_fqOffer q p c).trans (noted_raise _ _ _ _ _)
    · exact noted_fqOffer q p c

theorem noted_endClaim (q : Nat) (c : Chip) : Noted c (c.endClaim q) :=
  (noted_modFq _ _ c).trans (noted_when (noted_deliver _))

theorem recorded_modTrec (ty : Nat) (g : TampRec → TampRec) (c : Chip) : Recorded c (c.modTrec ty g) :=
  ⟨c.evt, c.ferry, c.sys.hintStatus, _, c.ledger, rfl⟩

/-- A record staged at its place among those that wait. -/
theorem recorded_stageAt (place ord : Nat) (kind : W16) (flags six : Nat) (p : List W8) (c : Chip) :
    Recorded c (c.stageAt place ord kind flags six p) := by
  unfold Chip.stageAt
  split
  · exact Recorded.refl c
  · exact ⟨c.evt, c.ferry, c.sys.hintStatus, c.tamper, _, rfl⟩

theorem recorded_stage (kind : W16) (flags six : Nat) (p : List W8) (c : Chip) :
    Recorded c (c.stage kind flags six p) := recorded_stageAt _ _ _ _ _ _ c

theorem recorded_tamperNote (ty unit six : Nat) (start : Bool) (x : List W8) (c : Chip) :
    Recorded c (c.tamperNote ty unit six start x) :=
  (noted_raiseAt _ _ _ _ _ c).recorded.trans (recorded_stage _ _ _ _ _)

/-- The start of a tamper condition. -/
theorem recorded_tamperStart (ty unit six : Nat) (c : Chip) : Recorded c (c.tamperStart ty unit six) := by
  unfold Chip.tamperStart
  split
  · exact Recorded.refl c
  · exact (recorded_modTrec _ _ c).trans (recorded_tamperNote _ _ _ _ _ _)

/-- The end of a tamper condition. -/
theorem recorded_tamperEnd (ty unit six : Nat) (c : Chip) : Recorded c (c.tamperEnd ty unit six) := by
  unfold Chip.tamperEnd
  split
  · exact Recorded.refl c
  · exact (recorded_modTrec _ _ c).trans (recorded_tamperNote _ _ _ _ _ _)

/-- A tamper type without a condition. -/
theorem recorded_tamperInst (ty unit six : Nat) (dur : W32) (x : List W8) (c : Chip) :
    Recorded c (c.tamperInst ty unit six dur x) :=
  (recorded_modTrec _ _ c).trans (recorded_tamperNote _ _ _ _ _ _)

/-- The record of a legal change. -/
theorem recorded_recordLegal (source arg : Nat) (ref : W32) (six : Nat) (c : Chip) :
    Recorded c (c.recordLegal source arg ref six) :=
  ((noted_modEvt _ c).recorded.trans (recorded_tamperInst _ _ _ _ _ _)).trans (recorded_stage _ _ _ _ _)

section
variable (i : Nat) (c : Chip)
@[simp] theorem hint_host : (c.hint i).host = c.host := (noted_hint i c).host
@[simp] theorem hint_masters : (c.hint i).masters = c.masters := (noted_hint i c).masters
@[simp] theorem hint_lands : (c.hint i).lands = c.lands := (noted_hint i c).lands
@[simp] theorem hint_tix : (c.hint i).tix = c.tix := (noted_hint i c).tix
@[simp] theorem hint_cfg : (c.hint i).cfg = c.cfg := (noted_hint i c).cfg
@[simp] theorem hint_groups : (c.hint i).groups = c.groups := (noted_hint i c).groups
@[simp] theorem hint_taps : (c.hint i).taps = c.taps := (noted_hint i c).taps
@[simp] theorem hint_engs : (c.hint i).engs = c.engs := (noted_hint i c).engs
@[simp] theorem hint_lib : (c.hint i).lib = c.lib := (noted_hint i c).lib
@[simp] theorem hint_bill : (c.hint i).bill = c.bill := (noted_hint i c).bill
@[simp] theorem hint_tariff : (c.hint i).tariff = c.tariff := (noted_hint i c).tariff
@[simp] theorem hint_time : (c.hint i).time = c.time := (noted_hint i c).time
@[simp] theorem hint_power : (c.hint i).power = c.power := (noted_hint i c).power
@[simp] theorem hint_save : (c.hint i).save = c.save := (noted_hint i c).save
@[simp] theorem hint_tamper : (c.hint i).tamper = c.tamper := (noted_hint i c).tamper
@[simp] theorem hint_ledger : (c.hint i).ledger = c.ledger := (noted_hint i c).ledger
@[simp] theorem hint_disp : (c.hint i).disp = c.disp := (noted_hint i c).disp
@[simp] theorem hint_bay : (c.hint i).bay = c.bay := (noted_hint i c).bay
@[simp] theorem hint_drv : (c.hint i).drv = c.drv := (noted_hint i c).drv
@[simp] theorem hint_safe : (c.hint i).safe = c.safe := (noted_hint i c).safe
@[simp] theorem hint_link : (c.hint i).link = c.link := (noted_hint i c).link
@[simp] theorem hint_key : (c.hint i).key = c.key := (noted_hint i c).key
@[simp] theorem hint_upd : (c.hint i).upd = c.upd := (noted_hint i c).upd
@[simp] theorem hint_net : (c.hint i).net = c.net := (noted_hint i c).net
@[simp] theorem hint_pair : (c.hint i).pair = c.pair := (noted_hint i c).pair
@[simp] theorem hint_free : (c.hint i).free = c.free := (noted_hint i c).free
@[simp] theorem hint_sys_ready :
    (c.hint i).sys.ready = c.sys.ready := (noted_hint i c).sys_ready
@[simp] theorem hint_sys_starting :
    (c.hint i).sys.starting = c.sys.starting := (noted_hint i c).sys_starting
@[simp] theorem hint_sys_commission :
    (c.hint i).sys.commission = c.sys.commission := (noted_hint i c).sys_commission
@[simp] theorem hint_sys_qcause :
    (c.hint i).sys.qcause = c.sys.qcause := (noted_hint i c).sys_qcause
@[simp] theorem hint_sys_changeover :
    (c.hint i).sys.changeover = c.sys.changeover := (noted_hint i c).sys_changeover
@[simp] theorem hint_sys_mode :
    (c.hint i).sys.mode = c.sys.mode := (noted_hint i c).sys_mode
end

section
variable (six : Nat) (code : W16) (unit : Nat) (a0 a1 : W32) (c : Chip)
@[simp] theorem raiseAt_host : (c.raiseAt six code unit a0 a1).host = c.host := (noted_raiseAt six code unit a0 a1 c).host
@[simp] theorem raiseAt_masters : (c.raiseAt six code unit a0 a1).masters = c.masters := (noted_raiseAt six code unit a0 a1 c).masters
@[simp] theorem raiseAt_lands : (c.raiseAt six code unit a0 a1).lands = c.lands := (noted_raiseAt six code unit a0 a1 c).lands
@[simp] theorem raiseAt_tix : (c.raiseAt six code unit a0 a1).tix = c.tix := (noted_raiseAt six code unit a0 a1 c).tix
@[simp] theorem raiseAt_cfg : (c.raiseAt six code unit a0 a1).cfg = c.cfg := (noted_raiseAt six code unit a0 a1 c).cfg
@[simp] theorem raiseAt_groups : (c.raiseAt six code unit a0 a1).groups = c.groups := (noted_raiseAt six code unit a0 a1 c).groups
@[simp] theorem raiseAt_taps : (c.raiseAt six code unit a0 a1).taps = c.taps := (noted_raiseAt six code unit a0 a1 c).taps
@[simp] theorem raiseAt_engs : (c.raiseAt six code unit a0 a1).engs = c.engs := (noted_raiseAt six code unit a0 a1 c).engs
@[simp] theorem raiseAt_lib : (c.raiseAt six code unit a0 a1).lib = c.lib := (noted_raiseAt six code unit a0 a1 c).lib
@[simp] theorem raiseAt_bill : (c.raiseAt six code unit a0 a1).bill = c.bill := (noted_raiseAt six code unit a0 a1 c).bill
@[simp] theorem raiseAt_tariff : (c.raiseAt six code unit a0 a1).tariff = c.tariff := (noted_raiseAt six code unit a0 a1 c).tariff
@[simp] theorem raiseAt_time : (c.raiseAt six code unit a0 a1).time = c.time := (noted_raiseAt six code unit a0 a1 c).time
@[simp] theorem raiseAt_power : (c.raiseAt six code unit a0 a1).power = c.power := (noted_raiseAt six code unit a0 a1 c).power
@[simp] theorem raiseAt_save : (c.raiseAt six code unit a0 a1).save = c.save := (noted_raiseAt six code unit a0 a1 c).save
@[simp] theorem raiseAt_tamper : (c.raiseAt six code unit a0 a1).tamper = c.tamper := (noted_raiseAt six code unit a0 a1 c).tamper
@[simp] theorem raiseAt_ledger : (c.raiseAt six code unit a0 a1).ledger = c.ledger := (noted_raiseAt six code unit a0 a1 c).ledger
@[simp] theorem raiseAt_disp : (c.raiseAt six code unit a0 a1).disp = c.disp := (noted_raiseAt six code unit a0 a1 c).disp
@[simp] theorem raiseAt_bay : (c.raiseAt six code unit a0 a1).bay = c.bay := (noted_raiseAt six code unit a0 a1 c).bay
@[simp] theorem raiseAt_drv : (c.raiseAt six code unit a0 a1).drv = c.drv := (noted_raiseAt six code unit a0 a1 c).drv
@[simp] theorem raiseAt_safe : (c.raiseAt six code unit a0 a1).safe = c.safe := (noted_raiseAt six code unit a0 a1 c).safe
@[simp] theorem raiseAt_link : (c.raiseAt six code unit a0 a1).link = c.link := (noted_raiseAt six code unit a0 a1 c).link
@[simp] theorem raiseAt_key : (c.raiseAt six code unit a0 a1).key = c.key := (noted_raiseAt six code unit a0 a1 c).key
@[simp] theorem raiseAt_upd : (c.raiseAt six code unit a0 a1).upd = c.upd := (noted_raiseAt six code unit a0 a1 c).upd
@[simp] theorem raiseAt_net : (c.raiseAt six code unit a0 a1).net = c.net := (noted_raiseAt six code unit a0 a1 c).net
@[simp] theorem raiseAt_pair : (c.raiseAt six code unit a0 a1).pair = c.pair := (noted_raiseAt six code unit a0 a1 c).pair
@[simp] theorem raiseAt_free : (c.raiseAt six code unit a0 a1).free = c.free := (noted_raiseAt six code unit a0 a1 c).free
@[simp] theorem raiseAt_sys_ready :
    (c.raiseAt six code unit a0 a1).sys.ready = c.sys.ready := (noted_raiseAt six code unit a0 a1 c).sys_ready
@[simp] theorem raiseAt_sys_starting :
    (c.raiseAt six code unit a0 a1).sys.starting = c.sys.starting := (noted_raiseAt six code unit a0 a1 c).sys_starting
@[simp] theorem raiseAt_sys_commission :
    (c.raiseAt six code unit a0 a1).sys.commission = c.sys.commission := (noted_raiseAt six code unit a0 a1 c).sys_commission
@[simp] theorem raiseAt_sys_qcause :
    (c.raiseAt six code unit a0 a1).sys.qcause = c.sys.qcause := (noted_raiseAt six code unit a0 a1 c).sys_qcause
@[simp] theorem raiseAt_sys_changeover :
    (c.raiseAt six code unit a0 a1).sys.changeover = c.sys.changeover := (noted_raiseAt six code unit a0 a1 c).sys_changeover
@[simp] theorem raiseAt_sys_mode :
    (c.raiseAt six code unit a0 a1).sys.mode = c.sys.mode := (noted_raiseAt six code unit a0 a1 c).sys_mode
end

section
variable (code : W16) (unit : Nat) (a0 a1 : W32) (c : Chip)
@[simp] theorem raise_host : (c.raise code unit a0 a1).host = c.host := (noted_raise code unit a0 a1 c).host
@[simp] theorem raise_masters : (c.raise code unit a0 a1).masters = c.masters := (noted_raise code unit a0 a1 c).masters
@[simp] theorem raise_lands : (c.raise code unit a0 a1).lands = c.lands := (noted_raise code unit a0 a1 c).lands
@[simp] theorem raise_tix : (c.raise code unit a0 a1).tix = c.tix := (noted_raise code unit a0 a1 c).tix
@[simp] theorem raise_cfg : (c.raise code unit a0 a1).cfg = c.cfg := (noted_raise code unit a0 a1 c).cfg
@[simp] theorem raise_groups : (c.raise code unit a0 a1).groups = c.groups := (noted_raise code unit a0 a1 c).groups
@[simp] theorem raise_taps : (c.raise code unit a0 a1).taps = c.taps := (noted_raise code unit a0 a1 c).taps
@[simp] theorem raise_engs : (c.raise code unit a0 a1).engs = c.engs := (noted_raise code unit a0 a1 c).engs
@[simp] theorem raise_lib : (c.raise code unit a0 a1).lib = c.lib := (noted_raise code unit a0 a1 c).lib
@[simp] theorem raise_bill : (c.raise code unit a0 a1).bill = c.bill := (noted_raise code unit a0 a1 c).bill
@[simp] theorem raise_tariff : (c.raise code unit a0 a1).tariff = c.tariff := (noted_raise code unit a0 a1 c).tariff
@[simp] theorem raise_time : (c.raise code unit a0 a1).time = c.time := (noted_raise code unit a0 a1 c).time
@[simp] theorem raise_power : (c.raise code unit a0 a1).power = c.power := (noted_raise code unit a0 a1 c).power
@[simp] theorem raise_save : (c.raise code unit a0 a1).save = c.save := (noted_raise code unit a0 a1 c).save
@[simp] theorem raise_tamper : (c.raise code unit a0 a1).tamper = c.tamper := (noted_raise code unit a0 a1 c).tamper
@[simp] theorem raise_ledger : (c.raise code unit a0 a1).ledger = c.ledger := (noted_raise code unit a0 a1 c).ledger
@[simp] theorem raise_disp : (c.raise code unit a0 a1).disp = c.disp := (noted_raise code unit a0 a1 c).disp
@[simp] theorem raise_bay : (c.raise code unit a0 a1).bay = c.bay := (noted_raise code unit a0 a1 c).bay
@[simp] theorem raise_drv : (c.raise code unit a0 a1).drv = c.drv := (noted_raise code unit a0 a1 c).drv
@[simp] theorem raise_safe : (c.raise code unit a0 a1).safe = c.safe := (noted_raise code unit a0 a1 c).safe
@[simp] theorem raise_link : (c.raise code unit a0 a1).link = c.link := (noted_raise code unit a0 a1 c).link
@[simp] theorem raise_key : (c.raise code unit a0 a1).key = c.key := (noted_raise code unit a0 a1 c).key
@[simp] theorem raise_upd : (c.raise code unit a0 a1).upd = c.upd := (noted_raise code unit a0 a1 c).upd
@[simp] theorem raise_net : (c.raise code unit a0 a1).net = c.net := (noted_raise code unit a0 a1 c).net
@[simp] theorem raise_pair : (c.raise code unit a0 a1).pair = c.pair := (noted_raise code unit a0 a1 c).pair
@[simp] theorem raise_free : (c.raise code unit a0 a1).free = c.free := (noted_raise code unit a0 a1 c).free
@[simp] theorem raise_sys_ready :
    (c.raise code unit a0 a1).sys.ready = c.sys.ready := (noted_raise code unit a0 a1 c).sys_ready
@[simp] theorem raise_sys_starting :
    (c.raise code unit a0 a1).sys.starting = c.sys.starting := (noted_raise code unit a0 a1 c).sys_starting
@[simp] theorem raise_sys_commission :
    (c.raise code unit a0 a1).sys.commission = c.sys.commission := (noted_raise code unit a0 a1 c).sys_commission
@[simp] theorem raise_sys_qcause :
    (c.raise code unit a0 a1).sys.qcause = c.sys.qcause := (noted_raise code unit a0 a1 c).sys_qcause
@[simp] theorem raise_sys_changeover :
    (c.raise code unit a0 a1).sys.changeover = c.sys.changeover := (noted_raise code unit a0 a1 c).sys_changeover
@[simp] theorem raise_sys_mode :
    (c.raise code unit a0 a1).sys.mode = c.sys.mode := (noted_raise code unit a0 a1 c).sys_mode
end

section
variable (q : Nat) (p : List W32) (c : Chip)
@[simp] theorem fqPut_host : (c.fqPut q p).host = c.host := (noted_fqPut q p c).host
@[simp] theorem fqPut_masters : (c.fqPut q p).masters = c.masters := (noted_fqPut q p c).masters
@[simp] theorem fqPut_lands : (c.fqPut q p).lands = c.lands := (noted_fqPut q p c).lands
@[simp] theorem fqPut_tix : (c.fqPut q p).tix = c.tix := (noted_fqPut q p c).tix
@[simp] theorem fqPut_cfg : (c.fqPut q p).cfg = c.cfg := (noted_fqPut q p c).cfg
@[simp] theorem fqPut_groups : (c.fqPut q p).groups = c.groups := (noted_fqPut q p c).groups
@[simp] theorem fqPut_taps : (c.fqPut q p).taps = c.taps := (noted_fqPut q p c).taps
@[simp] theorem fqPut_engs : (c.fqPut q p).engs = c.engs := (noted_fqPut q p c).engs
@[simp] theorem fqPut_lib : (c.fqPut q p).lib = c.lib := (noted_fqPut q p c).lib
@[simp] theorem fqPut_bill : (c.fqPut q p).bill = c.bill := (noted_fqPut q p c).bill
@[simp] theorem fqPut_tariff : (c.fqPut q p).tariff = c.tariff := (noted_fqPut q p c).tariff
@[simp] theorem fqPut_time : (c.fqPut q p).time = c.time := (noted_fqPut q p c).time
@[simp] theorem fqPut_power : (c.fqPut q p).power = c.power := (noted_fqPut q p c).power
@[simp] theorem fqPut_save : (c.fqPut q p).save = c.save := (noted_fqPut q p c).save
@[simp] theorem fqPut_tamper : (c.fqPut q p).tamper = c.tamper := (noted_fqPut q p c).tamper
@[simp] theorem fqPut_ledger : (c.fqPut q p).ledger = c.ledger := (noted_fqPut q p c).ledger
@[simp] theorem fqPut_disp : (c.fqPut q p).disp = c.disp := (noted_fqPut q p c).disp
@[simp] theorem fqPut_bay : (c.fqPut q p).bay = c.bay := (noted_fqPut q p c).bay
@[simp] theorem fqPut_drv : (c.fqPut q p).drv = c.drv := (noted_fqPut q p c).drv
@[simp] theorem fqPut_safe : (c.fqPut q p).safe = c.safe := (noted_fqPut q p c).safe
@[simp] theorem fqPut_link : (c.fqPut q p).link = c.link := (noted_fqPut q p c).link
@[simp] theorem fqPut_key : (c.fqPut q p).key = c.key := (noted_fqPut q p c).key
@[simp] theorem fqPut_upd : (c.fqPut q p).upd = c.upd := (noted_fqPut q p c).upd
@[simp] theorem fqPut_net : (c.fqPut q p).net = c.net := (noted_fqPut q p c).net
@[simp] theorem fqPut_pair : (c.fqPut q p).pair = c.pair := (noted_fqPut q p c).pair
@[simp] theorem fqPut_free : (c.fqPut q p).free = c.free := (noted_fqPut q p c).free
@[simp] theorem fqPut_sys_ready :
    (c.fqPut q p).sys.ready = c.sys.ready := (noted_fqPut q p c).sys_ready
@[simp] theorem fqPut_sys_starting :
    (c.fqPut q p).sys.starting = c.sys.starting := (noted_fqPut q p c).sys_starting
@[simp] theorem fqPut_sys_commission :
    (c.fqPut q p).sys.commission = c.sys.commission := (noted_fqPut q p c).sys_commission
@[simp] theorem fqPut_sys_qcause :
    (c.fqPut q p).sys.qcause = c.sys.qcause := (noted_fqPut q p c).sys_qcause
@[simp] theorem fqPut_sys_changeover :
    (c.fqPut q p).sys.changeover = c.sys.changeover := (noted_fqPut q p c).sys_changeover
@[simp] theorem fqPut_sys_mode :
    (c.fqPut q p).sys.mode = c.sys.mode := (noted_fqPut q p c).sys_mode
end

section
variable (kind : W16) (flags six : Nat) (p : List W8) (c : Chip)
@[simp] theorem stage_host : (c.stage kind flags six p).host = c.host := (recorded_stage kind flags six p c).host
@[simp] theorem stage_masters : (c.stage kind flags six p).masters = c.masters := (recorded_stage kind flags six p c).masters
@[simp] theorem stage_lands : (c.stage kind flags six p).lands = c.lands := (recorded_stage kind flags six p c).lands
@[simp] theorem stage_tix : (c.stage kind flags six p).tix = c.tix := (recorded_stage kind flags six p c).tix
@[simp] theorem stage_cfg : (c.stage kind flags six p).cfg = c.cfg := (recorded_stage kind flags six p c).cfg
@[simp] theorem stage_groups : (c.stage kind flags six p).groups = c.groups := (recorded_stage kind flags six p c).groups
@[simp] theorem stage_taps : (c.stage kind flags six p).taps = c.taps := (recorded_stage kind flags six p c).taps
@[simp] theorem stage_engs : (c.stage kind flags six p).engs = c.engs := (recorded_stage kind flags six p c).engs
@[simp] theorem stage_lib : (c.stage kind flags six p).lib = c.lib := (recorded_stage kind flags six p c).lib
@[simp] theorem stage_bill : (c.stage kind flags six p).bill = c.bill := (recorded_stage kind flags six p c).bill
@[simp] theorem stage_tariff : (c.stage kind flags six p).tariff = c.tariff := (recorded_stage kind flags six p c).tariff
@[simp] theorem stage_time : (c.stage kind flags six p).time = c.time := (recorded_stage kind flags six p c).time
@[simp] theorem stage_power : (c.stage kind flags six p).power = c.power := (recorded_stage kind flags six p c).power
@[simp] theorem stage_save : (c.stage kind flags six p).save = c.save := (recorded_stage kind flags six p c).save
@[simp] theorem stage_disp : (c.stage kind flags six p).disp = c.disp := (recorded_stage kind flags six p c).disp
@[simp] theorem stage_bay : (c.stage kind flags six p).bay = c.bay := (recorded_stage kind flags six p c).bay
@[simp] theorem stage_drv : (c.stage kind flags six p).drv = c.drv := (recorded_stage kind flags six p c).drv
@[simp] theorem stage_safe : (c.stage kind flags six p).safe = c.safe := (recorded_stage kind flags six p c).safe
@[simp] theorem stage_link : (c.stage kind flags six p).link = c.link := (recorded_stage kind flags six p c).link
@[simp] theorem stage_key : (c.stage kind flags six p).key = c.key := (recorded_stage kind flags six p c).key
@[simp] theorem stage_upd : (c.stage kind flags six p).upd = c.upd := (recorded_stage kind flags six p c).upd
@[simp] theorem stage_net : (c.stage kind flags six p).net = c.net := (recorded_stage kind flags six p c).net
@[simp] theorem stage_pair : (c.stage kind flags six p).pair = c.pair := (recorded_stage kind flags six p c).pair
@[simp] theorem stage_free : (c.stage kind flags six p).free = c.free := (recorded_stage kind flags six p c).free
@[simp] theorem stage_sys_ready :
    (c.stage kind flags six p).sys.ready = c.sys.ready := (recorded_stage kind flags six p c).sys_ready
@[simp] theorem stage_sys_starting :
    (c.stage kind flags six p).sys.starting = c.sys.starting := (recorded_stage kind flags six p c).sys_starting
@[simp] theorem stage_sys_commission :
    (c.stage kind flags six p).sys.commission = c.sys.commission := (recorded_stage kind flags six p c).sys_commission
@[simp] theorem stage_sys_qcause :
    (c.stage kind flags six p).sys.qcause = c.sys.qcause := (recorded_stage kind flags six p c).sys_qcause
@[simp] theorem stage_sys_changeover :
    (c.stage kind flags six p).sys.changeover = c.sys.changeover := (recorded_stage kind flags six p c).sys_changeover
@[simp] theorem stage_sys_mode :
    (c.stage kind flags six p).sys.mode = c.sys.mode := (recorded_stage kind flags six p c).sys_mode
end

section
variable (ty unit six : Nat) (start : Bool) (x : List W8) (c : Chip)
@[simp] theorem tamperNote_host : (c.tamperNote ty unit six start x).host = c.host := (recorded_tamperNote ty unit six start x c).host
@[simp] theorem tamperNote_masters : (c.tamperNote ty unit six start x).masters = c.masters := (recorded_tamperNote ty unit six start x c).masters
@[simp] theorem tamperNote_lands : (c.tamperNote ty unit six start x).lands = c.lands := (recorded_tamperNote ty unit six start x c).lands
@[simp] theorem tamperNote_tix : (c.tamperNote ty unit six start x).tix = c.tix := (recorded_tamperNote ty unit six start x c).tix
@[simp] theorem tamperNote_cfg : (c.tamperNote ty unit six start x).cfg = c.cfg := (recorded_tamperNote ty unit six start x c).cfg
@[simp] theorem tamperNote_groups : (c.tamperNote ty unit six start x).groups = c.groups := (recorded_tamperNote ty unit six start x c).groups
@[simp] theorem tamperNote_taps : (c.tamperNote ty unit six start x).taps = c.taps := (recorded_tamperNote ty unit six start x c).taps
@[simp] theorem tamperNote_engs : (c.tamperNote ty unit six start x).engs = c.engs := (recorded_tamperNote ty unit six start x c).engs
@[simp] theorem tamperNote_lib : (c.tamperNote ty unit six start x).lib = c.lib := (recorded_tamperNote ty unit six start x c).lib
@[simp] theorem tamperNote_bill : (c.tamperNote ty unit six start x).bill = c.bill := (recorded_tamperNote ty unit six start x c).bill
@[simp] theorem tamperNote_tariff : (c.tamperNote ty unit six start x).tariff = c.tariff := (recorded_tamperNote ty unit six start x c).tariff
@[simp] theorem tamperNote_time : (c.tamperNote ty unit six start x).time = c.time := (recorded_tamperNote ty unit six start x c).time
@[simp] theorem tamperNote_power : (c.tamperNote ty unit six start x).power = c.power := (recorded_tamperNote ty unit six start x c).power
@[simp] theorem tamperNote_save : (c.tamperNote ty unit six start x).save = c.save := (recorded_tamperNote ty unit six start x c).save
@[simp] theorem tamperNote_disp : (c.tamperNote ty unit six start x).disp = c.disp := (recorded_tamperNote ty unit six start x c).disp
@[simp] theorem tamperNote_bay : (c.tamperNote ty unit six start x).bay = c.bay := (recorded_tamperNote ty unit six start x c).bay
@[simp] theorem tamperNote_drv : (c.tamperNote ty unit six start x).drv = c.drv := (recorded_tamperNote ty unit six start x c).drv
@[simp] theorem tamperNote_safe : (c.tamperNote ty unit six start x).safe = c.safe := (recorded_tamperNote ty unit six start x c).safe
@[simp] theorem tamperNote_link : (c.tamperNote ty unit six start x).link = c.link := (recorded_tamperNote ty unit six start x c).link
@[simp] theorem tamperNote_key : (c.tamperNote ty unit six start x).key = c.key := (recorded_tamperNote ty unit six start x c).key
@[simp] theorem tamperNote_upd : (c.tamperNote ty unit six start x).upd = c.upd := (recorded_tamperNote ty unit six start x c).upd
@[simp] theorem tamperNote_net : (c.tamperNote ty unit six start x).net = c.net := (recorded_tamperNote ty unit six start x c).net
@[simp] theorem tamperNote_pair : (c.tamperNote ty unit six start x).pair = c.pair := (recorded_tamperNote ty unit six start x c).pair
@[simp] theorem tamperNote_free : (c.tamperNote ty unit six start x).free = c.free := (recorded_tamperNote ty unit six start x c).free
@[simp] theorem tamperNote_sys_ready :
    (c.tamperNote ty unit six start x).sys.ready = c.sys.ready := (recorded_tamperNote ty unit six start x c).sys_ready
@[simp] theorem tamperNote_sys_starting :
    (c.tamperNote ty unit six start x).sys.starting = c.sys.starting := (recorded_tamperNote ty unit six start x c).sys_starting
@[simp] theorem tamperNote_sys_commission :
    (c.tamperNote ty unit six start x).sys.commission = c.sys.commission := (recorded_tamperNote ty unit six start x c).sys_commission
@[simp] theorem tamperNote_sys_qcause :
    (c.tamperNote ty unit six start x).sys.qcause = c.sys.qcause := (recorded_tamperNote ty unit six start x c).sys_qcause
@[simp] theorem tamperNote_sys_changeover :
    (c.tamperNote ty unit six start x).sys.changeover = c.sys.changeover := (recorded_tamperNote ty unit six start x c).sys_changeover
@[simp] theorem tamperNote_sys_mode :
    (c.tamperNote ty unit six start x).sys.mode = c.sys.mode := (recorded_tamperNote ty unit six start x c).sys_mode
end

section
variable (ty unit six : Nat) (c : Chip)
@[simp] theorem tamperStart_host : (c.tamperStart ty unit six).host = c.host := (recorded_tamperStart ty unit six c).host
@[simp] theorem tamperStart_masters : (c.tamperStart ty unit six).masters = c.masters := (recorded_tamperStart ty unit six c).masters
@[simp] theorem tamperStart_lands : (c.tamperStart ty unit six).lands = c.lands := (recorded_tamperStart ty unit six c).lands
@[simp] theorem tamperStart_tix : (c.tamperStart ty unit six).tix = c.tix := (recorded_tamperStart ty unit six c).tix
@[simp] theorem tamperStart_cfg : (c.tamperStart ty unit six).cfg = c.cfg := (recorded_tamperStart ty unit six c).cfg
@[simp] theorem tamperStart_groups : (c.tamperStart ty unit six).groups = c.groups := (recorded_tamperStart ty unit six c).groups
@[simp] theorem tamperStart_taps : (c.tamperStart ty unit six).taps = c.taps := (recorded_tamperStart ty unit six c).taps
@[simp] theorem tamperStart_engs : (c.tamperStart ty unit six).engs = c.engs := (recorded_tamperStart ty unit six c).engs
@[simp] theorem tamperStart_lib : (c.tamperStart ty unit six).lib = c.lib := (recorded_tamperStart ty unit six c).lib
@[simp] theorem tamperStart_bill : (c.tamperStart ty unit six).bill = c.bill := (recorded_tamperStart ty unit six c).bill
@[simp] theorem tamperStart_tariff : (c.tamperStart ty unit six).tariff = c.tariff := (recorded_tamperStart ty unit six c).tariff
@[simp] theorem tamperStart_time : (c.tamperStart ty unit six).time = c.time := (recorded_tamperStart ty unit six c).time
@[simp] theorem tamperStart_power : (c.tamperStart ty unit six).power = c.power := (recorded_tamperStart ty unit six c).power
@[simp] theorem tamperStart_save : (c.tamperStart ty unit six).save = c.save := (recorded_tamperStart ty unit six c).save
@[simp] theorem tamperStart_disp : (c.tamperStart ty unit six).disp = c.disp := (recorded_tamperStart ty unit six c).disp
@[simp] theorem tamperStart_bay : (c.tamperStart ty unit six).bay = c.bay := (recorded_tamperStart ty unit six c).bay
@[simp] theorem tamperStart_drv : (c.tamperStart ty unit six).drv = c.drv := (recorded_tamperStart ty unit six c).drv
@[simp] theorem tamperStart_safe : (c.tamperStart ty unit six).safe = c.safe := (recorded_tamperStart ty unit six c).safe
@[simp] theorem tamperStart_link : (c.tamperStart ty unit six).link = c.link := (recorded_tamperStart ty unit six c).link
@[simp] theorem tamperStart_key : (c.tamperStart ty unit six).key = c.key := (recorded_tamperStart ty unit six c).key
@[simp] theorem tamperStart_upd : (c.tamperStart ty unit six).upd = c.upd := (recorded_tamperStart ty unit six c).upd
@[simp] theorem tamperStart_net : (c.tamperStart ty unit six).net = c.net := (recorded_tamperStart ty unit six c).net
@[simp] theorem tamperStart_pair : (c.tamperStart ty unit six).pair = c.pair := (recorded_tamperStart ty unit six c).pair
@[simp] theorem tamperStart_free : (c.tamperStart ty unit six).free = c.free := (recorded_tamperStart ty unit six c).free
@[simp] theorem tamperStart_sys_ready :
    (c.tamperStart ty unit six).sys.ready = c.sys.ready := (recorded_tamperStart ty unit six c).sys_ready
@[simp] theorem tamperStart_sys_starting :
    (c.tamperStart ty unit six).sys.starting = c.sys.starting := (recorded_tamperStart ty unit six c).sys_starting
@[simp] theorem tamperStart_sys_commission :
    (c.tamperStart ty unit six).sys.commission = c.sys.commission := (recorded_tamperStart ty unit six c).sys_commission
@[simp] theorem tamperStart_sys_qcause :
    (c.tamperStart ty unit six).sys.qcause = c.sys.qcause := (recorded_tamperStart ty unit six c).sys_qcause
@[simp] theorem tamperStart_sys_changeover :
    (c.tamperStart ty unit six).sys.changeover = c.sys.changeover := (recorded_tamperStart ty unit six c).sys_changeover
@[simp] theorem tamperStart_sys_mode :
    (c.tamperStart ty unit six).sys.mode = c.sys.mode := (recorded_tamperStart ty unit six c).sys_mode
end

section
variable (ty unit six : Nat) (c : Chip)
@[simp] theorem tamperEnd_host : (c.tamperEnd ty unit six).host = c.host := (recorded_tamperEnd ty unit six c).host
@[simp] theorem tamperEnd_masters : (c.tamperEnd ty unit six).masters = c.masters := (recorded_tamperEnd ty unit six c).masters
@[simp] theorem tamperEnd_lands : (c.tamperEnd ty unit six).lands = c.lands := (recorded_tamperEnd ty unit six c).lands
@[simp] theorem tamperEnd_tix : (c.tamperEnd ty unit six).tix = c.tix := (recorded_tamperEnd ty unit six c).tix
@[simp] theorem tamperEnd_cfg : (c.tamperEnd ty unit six).cfg = c.cfg := (recorded_tamperEnd ty unit six c).cfg
@[simp] theorem tamperEnd_groups : (c.tamperEnd ty unit six).groups = c.groups := (recorded_tamperEnd ty unit six c).groups
@[simp] theorem tamperEnd_taps : (c.tamperEnd ty unit six).taps = c.taps := (recorded_tamperEnd ty unit six c).taps
@[simp] theorem tamperEnd_engs : (c.tamperEnd ty unit six).engs = c.engs := (recorded_tamperEnd ty unit six c).engs
@[simp] theorem tamperEnd_lib : (c.tamperEnd ty unit six).lib = c.lib := (recorded_tamperEnd ty unit six c).lib
@[simp] theorem tamperEnd_bill : (c.tamperEnd ty unit six).bill = c.bill := (recorded_tamperEnd ty unit six c).bill
@[simp] theorem tamperEnd_tariff : (c.tamperEnd ty unit six).tariff = c.tariff := (recorded_tamperEnd ty unit six c).tariff
@[simp] theorem tamperEnd_time : (c.tamperEnd ty unit six).time = c.time := (recorded_tamperEnd ty unit six c).time
@[simp] theorem tamperEnd_power : (c.tamperEnd ty unit six).power = c.power := (recorded_tamperEnd ty unit six c).power
@[simp] theorem tamperEnd_save : (c.tamperEnd ty unit six).save = c.save := (recorded_tamperEnd ty unit six c).save
@[simp] theorem tamperEnd_disp : (c.tamperEnd ty unit six).disp = c.disp := (recorded_tamperEnd ty unit six c).disp
@[simp] theorem tamperEnd_bay : (c.tamperEnd ty unit six).bay = c.bay := (recorded_tamperEnd ty unit six c).bay
@[simp] theorem tamperEnd_drv : (c.tamperEnd ty unit six).drv = c.drv := (recorded_tamperEnd ty unit six c).drv
@[simp] theorem tamperEnd_safe : (c.tamperEnd ty unit six).safe = c.safe := (recorded_tamperEnd ty unit six c).safe
@[simp] theorem tamperEnd_link : (c.tamperEnd ty unit six).link = c.link := (recorded_tamperEnd ty unit six c).link
@[simp] theorem tamperEnd_key : (c.tamperEnd ty unit six).key = c.key := (recorded_tamperEnd ty unit six c).key
@[simp] theorem tamperEnd_upd : (c.tamperEnd ty unit six).upd = c.upd := (recorded_tamperEnd ty unit six c).upd
@[simp] theorem tamperEnd_net : (c.tamperEnd ty unit six).net = c.net := (recorded_tamperEnd ty unit six c).net
@[simp] theorem tamperEnd_pair : (c.tamperEnd ty unit six).pair = c.pair := (recorded_tamperEnd ty unit six c).pair
@[simp] theorem tamperEnd_free : (c.tamperEnd ty unit six).free = c.free := (recorded_tamperEnd ty unit six c).free
@[simp] theorem tamperEnd_sys_ready :
    (c.tamperEnd ty unit six).sys.ready = c.sys.ready := (recorded_tamperEnd ty unit six c).sys_ready
@[simp] theorem tamperEnd_sys_starting :
    (c.tamperEnd ty unit six).sys.starting = c.sys.starting := (recorded_tamperEnd ty unit six c).sys_starting
@[simp] theorem tamperEnd_sys_commission :
    (c.tamperEnd ty unit six).sys.commission = c.sys.commission := (recorded_tamperEnd ty unit six c).sys_commission
@[simp] theorem tamperEnd_sys_qcause :
    (c.tamperEnd ty unit six).sys.qcause = c.sys.qcause := (recorded_tamperEnd ty unit six c).sys_qcause
@[simp] theorem tamperEnd_sys_changeover :
    (c.tamperEnd ty unit six).sys.changeover = c.sys.changeover := (recorded_tamperEnd ty unit six c).sys_changeover
@[simp] theorem tamperEnd_sys_mode :
    (c.tamperEnd ty unit six).sys.mode = c.sys.mode := (recorded_tamperEnd ty unit six c).sys_mode
end

section
variable (ty unit six : Nat) (dur : W32) (x : List W8) (c : Chip)
@[simp] theorem tamperInst_host : (c.tamperInst ty unit six dur x).host = c.host := (recorded_tamperInst ty unit six dur x c).host
@[simp] theorem tamperInst_masters : (c.tamperInst ty unit six dur x).masters = c.masters := (recorded_tamperInst ty unit six dur x c).masters
@[simp] theorem tamperInst_lands : (c.tamperInst ty unit six dur x).lands = c.lands := (recorded_tamperInst ty unit six dur x c).lands
@[simp] theorem tamperInst_tix : (c.tamperInst ty unit six dur x).tix = c.tix := (recorded_tamperInst ty unit six dur x c).tix
@[simp] theorem tamperInst_cfg : (c.tamperInst ty unit six dur x).cfg = c.cfg := (recorded_tamperInst ty unit six dur x c).cfg
@[simp] theorem tamperInst_groups : (c.tamperInst ty unit six dur x).groups = c.groups := (recorded_tamperInst ty unit six dur x c).groups
@[simp] theorem tamperInst_taps : (c.tamperInst ty unit six dur x).taps = c.taps := (recorded_tamperInst ty unit six dur x c).taps
@[simp] theorem tamperInst_engs : (c.tamperInst ty unit six dur x).engs = c.engs := (recorded_tamperInst ty unit six dur x c).engs
@[simp] theorem tamperInst_lib : (c.tamperInst ty unit six dur x).lib = c.lib := (recorded_tamperInst ty unit six dur x c).lib
@[simp] theorem tamperInst_bill : (c.tamperInst ty unit six dur x).bill = c.bill := (recorded_tamperInst ty unit six dur x c).bill
@[simp] theorem tamperInst_tariff : (c.tamperInst ty unit six dur x).tariff = c.tariff := (recorded_tamperInst ty unit six dur x c).tariff
@[simp] theorem tamperInst_time : (c.tamperInst ty unit six dur x).time = c.time := (recorded_tamperInst ty unit six dur x c).time
@[simp] theorem tamperInst_power : (c.tamperInst ty unit six dur x).power = c.power := (recorded_tamperInst ty unit six dur x c).power
@[simp] theorem tamperInst_save : (c.tamperInst ty unit six dur x).save = c.save := (recorded_tamperInst ty unit six dur x c).save
@[simp] theorem tamperInst_disp : (c.tamperInst ty unit six dur x).disp = c.disp := (recorded_tamperInst ty unit six dur x c).disp
@[simp] theorem tamperInst_bay : (c.tamperInst ty unit six dur x).bay = c.bay := (recorded_tamperInst ty unit six dur x c).bay
@[simp] theorem tamperInst_drv : (c.tamperInst ty unit six dur x).drv = c.drv := (recorded_tamperInst ty unit six dur x c).drv
@[simp] theorem tamperInst_safe : (c.tamperInst ty unit six dur x).safe = c.safe := (recorded_tamperInst ty unit six dur x c).safe
@[simp] theorem tamperInst_link : (c.tamperInst ty unit six dur x).link = c.link := (recorded_tamperInst ty unit six dur x c).link
@[simp] theorem tamperInst_key : (c.tamperInst ty unit six dur x).key = c.key := (recorded_tamperInst ty unit six dur x c).key
@[simp] theorem tamperInst_upd : (c.tamperInst ty unit six dur x).upd = c.upd := (recorded_tamperInst ty unit six dur x c).upd
@[simp] theorem tamperInst_net : (c.tamperInst ty unit six dur x).net = c.net := (recorded_tamperInst ty unit six dur x c).net
@[simp] theorem tamperInst_pair : (c.tamperInst ty unit six dur x).pair = c.pair := (recorded_tamperInst ty unit six dur x c).pair
@[simp] theorem tamperInst_free : (c.tamperInst ty unit six dur x).free = c.free := (recorded_tamperInst ty unit six dur x c).free
@[simp] theorem tamperInst_sys_ready :
    (c.tamperInst ty unit six dur x).sys.ready = c.sys.ready := (recorded_tamperInst ty unit six dur x c).sys_ready
@[simp] theorem tamperInst_sys_starting :
    (c.tamperInst ty unit six dur x).sys.starting = c.sys.starting := (recorded_tamperInst ty unit six dur x c).sys_starting
@[simp] theorem tamperInst_sys_commission :
    (c.tamperInst ty unit six dur x).sys.commission = c.sys.commission := (recorded_tamperInst ty unit six dur x c).sys_commission
@[simp] theorem tamperInst_sys_qcause :
    (c.tamperInst ty unit six dur x).sys.qcause = c.sys.qcause := (recorded_tamperInst ty unit six dur x c).sys_qcause
@[simp] theorem tamperInst_sys_changeover :
    (c.tamperInst ty unit six dur x).sys.changeover = c.sys.changeover := (recorded_tamperInst ty unit six dur x c).sys_changeover
@[simp] theorem tamperInst_sys_mode :
    (c.tamperInst ty unit six dur x).sys.mode = c.sys.mode := (recorded_tamperInst ty unit six dur x c).sys_mode
end

section
variable (source arg : Nat) (ref : W32) (six : Nat) (c : Chip)
@[simp] theorem recordLegal_host : (c.recordLegal source arg ref six).host = c.host := (recorded_recordLegal source arg ref six c).host
@[simp] theorem recordLegal_masters : (c.recordLegal source arg ref six).masters = c.masters := (recorded_recordLegal source arg ref six c).masters
@[simp] theorem recordLegal_lands : (c.recordLegal source arg ref six).lands = c.lands := (recorded_recordLegal source arg ref six c).lands
@[simp] theorem recordLegal_tix : (c.recordLegal source arg ref six).tix = c.tix := (recorded_recordLegal source arg ref six c).tix
@[simp] theorem recordLegal_cfg : (c.recordLegal source arg ref six).cfg = c.cfg := (recorded_recordLegal source arg ref six c).cfg
@[simp] theorem recordLegal_groups : (c.recordLegal source arg ref six).groups = c.groups := (recorded_recordLegal source arg ref six c).groups
@[simp] theorem recordLegal_taps : (c.recordLegal source arg ref six).taps = c.taps := (recorded_recordLegal source arg ref six c).taps
@[simp] theorem recordLegal_engs : (c.recordLegal source arg ref six).engs = c.engs := (recorded_recordLegal source arg ref six c).engs
@[simp] theorem recordLegal_lib : (c.recordLegal source arg ref six).lib = c.lib := (recorded_recordLegal source arg ref six c).lib
@[simp] theorem recordLegal_bill : (c.recordLegal source arg ref six).bill = c.bill := (recorded_recordLegal source arg ref six c).bill
@[simp] theorem recordLegal_tariff : (c.recordLegal source arg ref six).tariff = c.tariff := (recorded_recordLegal source arg ref six c).tariff
@[simp] theorem recordLegal_time : (c.recordLegal source arg ref six).time = c.time := (recorded_recordLegal source arg ref six c).time
@[simp] theorem recordLegal_power : (c.recordLegal source arg ref six).power = c.power := (recorded_recordLegal source arg ref six c).power
@[simp] theorem recordLegal_save : (c.recordLegal source arg ref six).save = c.save := (recorded_recordLegal source arg ref six c).save
@[simp] theorem recordLegal_disp : (c.recordLegal source arg ref six).disp = c.disp := (recorded_recordLegal source arg ref six c).disp
@[simp] theorem recordLegal_bay : (c.recordLegal source arg ref six).bay = c.bay := (recorded_recordLegal source arg ref six c).bay
@[simp] theorem recordLegal_drv : (c.recordLegal source arg ref six).drv = c.drv := (recorded_recordLegal source arg ref six c).drv
@[simp] theorem recordLegal_safe : (c.recordLegal source arg ref six).safe = c.safe := (recorded_recordLegal source arg ref six c).safe
@[simp] theorem recordLegal_link : (c.recordLegal source arg ref six).link = c.link := (recorded_recordLegal source arg ref six c).link
@[simp] theorem recordLegal_key : (c.recordLegal source arg ref six).key = c.key := (recorded_recordLegal source arg ref six c).key
@[simp] theorem recordLegal_upd : (c.recordLegal source arg ref six).upd = c.upd := (recorded_recordLegal source arg ref six c).upd
@[simp] theorem recordLegal_net : (c.recordLegal source arg ref six).net = c.net := (recorded_recordLegal source arg ref six c).net
@[simp] theorem recordLegal_pair : (c.recordLegal source arg ref six).pair = c.pair := (recorded_recordLegal source arg ref six c).pair
@[simp] theorem recordLegal_free : (c.recordLegal source arg ref six).free = c.free := (recorded_recordLegal source arg ref six c).free
@[simp] theorem recordLegal_sys_ready :
    (c.recordLegal source arg ref six).sys.ready = c.sys.ready := (recorded_recordLegal source arg ref six c).sys_ready
@[simp] theorem recordLegal_sys_starting :
    (c.recordLegal source arg ref six).sys.starting = c.sys.starting := (recorded_recordLegal source arg ref six c).sys_starting
@[simp] theorem recordLegal_sys_commission :
    (c.recordLegal source arg ref six).sys.commission = c.sys.commission := (recorded_recordLegal source arg ref six c).sys_commission
@[simp] theorem recordLegal_sys_qcause :
    (c.recordLegal source arg ref six).sys.qcause = c.sys.qcause := (recorded_recordLegal source arg ref six c).sys_qcause
@[simp] theorem recordLegal_sys_changeover :
    (c.recordLegal source arg ref six).sys.changeover = c.sys.changeover := (recorded_recordLegal source arg ref six c).sys_changeover
@[simp] theorem recordLegal_sys_mode :
    (c.recordLegal source arg ref six).sys.mode = c.sys.mode := (recorded_recordLegal source arg ref six c).sys_mode
end

end Sys2Proof.Machine
end

