-- ==== Sys2Proof/Laws/Settle.lean ====
section
/-! SUPPORT. What follows every command, said once: a block that agrees with its conditions, and
whose conditions a command leaves as they were, is left alone. -/

namespace Sys2Proof.Machine

open Sys2Proof

/-- The part of the block that settling reads, the bay apart. -/
def Chip.watched (c : Chip) : Chip :=
  { sys := { ready := c.sys.ready, starting := c.sys.starting, commission := c.sys.commission,
             qcause := c.sys.qcause, changeover := c.sys.changeover, mode := c.sys.mode,
             deviceId := c.sys.deviceId }
    key := { lc := c.key.lc }
    power := { onAux := c.power.onAux }
    cfg := { live := c.cfg.live }
    safe := c.safe
    link := { field := c.link.field, antFault := c.link.antFault, sliceOwn := c.link.sliceOwn }
    pair := { formed := c.pair.formed, j11Up := c.pair.j11Up, markRun := c.pair.markRun, pid := c.pair.pid }
    tamper := { recs := Tbl.put {} [] 23 (c.trec 23) } }

theorem watched_modeOf (c : Chip) : c.watched.modeOf = c.modeOf := rfl

theorem watched_safeState (c : Chip) : c.watched.safeState = c.safeState := rfl

theorem watched_safeZones (c : Chip) : c.watched.safeZones = c.safeZones := rfl

theorem watched_fieldMay (c : Chip) : c.watched.fieldMay = c.fieldMay := rfl

theorem watched_retired (c : Chip) : c.watched.retired = c.retired := rfl

theorem watched_quarHeld (c : Chip) : quarHeld c.watched = quarHeld c := by
  unfold quarHeld
  rw [show c.watched.trec 23 = c.trec 23 from by
    simp [Chip.trec, Chip.watched, Tbl.get_put]]

@[simp] theorem tamperEnd_none (ty unit six : Nat) (c : Chip)
    (h : ((c.trec ty).holders.any (fun x => x.1 == unit)) = false) : c.tamperEnd ty unit six = c := by
  unfold Chip.tamperEnd
  rw [List.find?_eq_none.mpr]
  intro x hx
  have := List.any_eq_false.mp h x hx
  simpa using this

@[simp] theorem tamperStart_held (ty unit six : Nat) (c : Chip)
    (h : ((c.trec ty).holders.any (fun x => x.1 == unit)) = true) : c.tamperStart ty unit six = c := by
  unfold Chip.tamperStart
  rw [if_pos h]

/-- A block whose QUARANTINE record agrees with its causes keeps it. -/
theorem settleQuar_noted {c : Chip} (h : quarHeld c = (c.sys.qcause != 0)) : c.settleQuar = c := by
  unfold Chip.settleQuar
  split
  · rename_i hq
    exact tamperStart_held 23 0xFF c.now c (h.trans hq)
  · rename_i hq
    exact tamperEnd_none 23 0xFF c.now c (h.trans (by simpa using hq))

/-- A packet of the bay that finds its queue's owner as before goes on waiting. -/
theorem signalLost_same {old c : Chip} (h : c.signalDue = old.signalDue) : Chip.signalLost old c = c := by
  unfold Chip.signalLost
  rw [h, Bool.and_not_self]
  split <;> rfl

theorem bayWatch_same {old c : Chip} (hp : c.pilotWord = old.pilotWord) (hm : c.monWord = old.monWord)
    (hr : c.bay.run = old.bay.run) (hs : c.signalDue = old.signalDue) : Chip.bayWatch old c = c := by
  unfold Chip.bayWatch
  simp [hp, hm, hr, signalLost_same hs]

/-- What settling follows is the same before and after: nothing has become due, begun or ended. -/
structure Quiet (old d : Chip) : Prop where
  watched : d.watched = old.watched
  pilot : d.pilotWord = old.pilotWord
  mon : d.monWord = old.monWord
  bayRun : d.bay.run = old.bay.run
  time : d.now = old.now
  pendTime : d.save.pendTime = old.save.pendTime
  pend : d.cfg.pend = old.cfg.pend
  pendDone : ∀ p, d.pendDone p = old.pendDone p
  pulse : ∀ i, d.pulseDue i = old.pulseDue i
  permit : ∀ i, d.permitDue i = old.permitDue i
  drive : ∀ n, d.driveOn n = old.driveOn n
  trip : d.tripDue = old.tripDue
  hold : ∀ q, d.holdOver q = old.holdOver q
  signal : d.signalDue = old.signalDue

theorem each_nil {α : Type} {l : List α} {f : α → Chip → Chip} {c : Chip} (h : l = []) :
    each l f c = c := by
  rw [h]
  rfl

theorem each_same {α : Type} (l : List α) (f : α → Chip → Chip) (c : Chip) (h : ∀ a, f a c = c) :
    each l f c = c := by
  induction l with
  | nil => rfl
  | cons a l ih =>
    rw [show each (a :: l) f c = each l f (f a c) from rfl, h a]
    exact ih

theorem filter_fresh {α : Type} (l : List α) {p q : α → Bool} (h : ∀ a, p a = q a) :
    l.filter (fun a => p a && !q a) = [] := by
  refine List.filter_eq_nil_iff.mpr (fun a _ => ?_)
  rw [h a]
  simp

section
variable {old d : Chip} (h : Quiet old d)
include h

theorem Quiet.latchWins : Chip.latchWins old d = d := by
  unfold Chip.latchWins
  refine each_nil (List.filter_eq_nil_iff.mpr (fun p hp => ?_))
  have hm : old.save.pendTime.contains p = true := by
    rw [← h.pendTime]
    exact List.contains_iff_mem.mpr hp
  simp only [hm, h.time]
  simp

theorem Quiet.chooseAll : Chip.chooseAll old d = d := by
  unfold Chip.chooseAll
  rw [if_pos]
  refine ⟨h.pend, ?_⟩
  simp [h.pendDone]

theorem Quiet.pulses : Chip.pulses old d = d := by
  unfold Chip.pulses
  exact each_nil (filter_fresh _ (fun p => h.pulse p.1))

theorem Quiet.escPermits : Chip.escPermits old d = d := by
  unfold Chip.escPermits
  exact each_nil (filter_fresh _ h.permit)

theorem Quiet.lampStart : Chip.lampStart old d = d := by
  unfold Chip.lampStart
  refine each_same _ _ _ (fun p => ?_)
  simp [h.drive]

theorem Quiet.tripCheck : Chip.tripCheck old d = d := by
  unfold Chip.tripCheck
  rw [h.trip]
  cases old.tripDue <;> rfl

theorem Quiet.holdsOver : Chip.holdsOver old d = d := by
  unfold Chip.holdsOver
  exact each_nil (filter_fresh _ h.hold)

end

/-- A command that leaves what settling follows as it was is all that happens. -/
theorem settle_quiet {old d : Chip} {l : List Instr} (hs : Settled ⟨old, l⟩) (h : Quiet old d) :
    Chip.settle old d = d := by
  obtain ⟨h1, h2, h3⟩ := hs
  have hw := h.watched
  have qh : quarHeld d = quarHeld old := by rw [← watched_quarHeld d, hw, watched_quarHeld]
  have qc : d.sys.qcause = old.sys.qcause := congrArg (fun c => c.sys.qcause) hw
  have rt : d.retired = old.retired := congrArg (fun c => c.retired) hw
  have ax : d.power.onAux = old.power.onAux := congrArg (fun c => c.power.onAux) hw
  have ss : d.safeState = old.safeState := congrArg (fun c => c.safeState) hw
  have sz : d.safeZones = old.safeZones := congrArg (fun c => c.safeZones) hw
  have fm : d.fieldMay = old.fieldMay := congrArg (fun c => c.fieldMay) hw
  have lf : d.link.field = old.link.field := congrArg (fun c => c.link.field) hw
  have mo : d.modeOf = old.modeOf := congrArg (fun c => c.modeOf) hw
  have md : d.sys.mode = old.sys.mode := congrArg (fun c => c.sys.mode) hw
  unfold Chip.settle
  have e1 : d.settleQuar = d := settleQuar_noted (by rw [qh, qc]; exact h2)
  have e2 : Chip.settleStop old d = d := by
    unfold Chip.settleStop
    simp [qc, rt]
  have e3 : Chip.settleAux old d = d := by
    unfold Chip.settleAux
    simp [ax]
  have e4 : Chip.settleSafe old d = d := by
    unfold Chip.settleSafe
    simp [ss, sz]
  have e5 : d.settleField = d := by
    unfold Chip.settleField
    cases hf : d.link.field
    · simp
    · rw [fm, h3 (by rw [← lf]; exact hf)]
      simp
  have e6 : d.setMode = d := by
    unfold Chip.setMode
    simp only [mo, md]
    rw [if_pos (show old.modeOf = old.sys.mode from h1.symm)]
  dsimp only
  rw [h.latchWins, h.chooseAll, e1, h.pulses, h.escPermits, e2, e3, e4, h.lampStart, h.tripCheck, e5,
    bayWatch_same h.pilot h.mon h.bayRun h.signal, e6, h.holdsOver]

/-- The state a command with the effect `f` answers. -/
theorem run_eq (f : Chip → Chip) (s : State) :
    run f s = .next { s with chip := Chip.settle s.chip (f s.chip) } := rfl

/-- The state such a command answers when nothing that settling follows has changed. -/
theorem run_quiet {f : Chip → Chip} {s : State} (hs : Settled s) (h : Quiet s.chip (f s.chip)) :
    run f s = .next { s with chip := f s.chip } := by
  rw [run_eq, settle_quiet (l := s.pending) hs h]

/-- Windows, landings, tickets, taps, tariff sets, the ledger and the display are nothing that settling
follows. -/
theorem quiet_far (c : Chip) (h : HostPort) (m : Tbl Master) (l : Tbl Landing) (k : Tickets) (t : Tbl Tap)
    (g : Tbl TapGroup) (f : Tariff) (r : Ledger) (v : Disp) :
    Quiet c { c with
      host := h, masters := m, lands := l, tix := k, taps := t, groups := g, tariff := f, ledger := r
      disp := v } :=
  ⟨rfl, rfl, rfl, rfl, rfl, rfl, rfl, fun _ => rfl, fun _ => rfl, fun _ => rfl, fun _ => rfl, rfl, fun _ => rfl, rfl⟩

end Sys2Proof.Machine
end

