-- ==== Sys2Proof/Laws/Bolgil.lean ====
section
/-! SUPPORT. What an instruction of a thread that executes can do, said once for each shape of
instruction. -/

namespace Sys2Proof.Machine

open Sys2Proof Sys2Proof.Claims

/-- A thread inside an instant skips no gap. -/
theorem skipGap_of_busy {k : Nat} {rep : Bool} {c : Chip} (h : ((c.eng k).thr rep).busy = true) :
    c.skipGap k rep = c := by
  unfold Chip.skipGap
  dsimp only
  split
  · rfl
  · simp [h]

/-- A head inside an instant reads no gap of the bridge memory. -/
theorem bridgeGap_of_busy {k : Nat} {c : Chip} (h : (c.eng k).head.busy = true) : c.bridgeGap k = c := by
  unfold Chip.bridgeGap
  dsimp only
  split
  · rfl
  · simp [h]

/-- A head inside an instant meters it to its end. -/
theorem metrologyEnd_of_busy {k : Nat} {c : Chip} (h : (c.eng k).head.busy = true) :
    c.metrologyEnd k = c := by
  unfold Chip.metrologyEnd
  dsimp only
  split
  · rfl
  · simp [h]

/-- A thread inside an instant needs nothing before its next instruction. -/
theorem ready_of_canRun {k : Nat} {rep : Bool} {c : Chip} (h : (c.eng k).canRun rep = true) :
    c.ready k rep = c := by
  have hb : ((c.eng k).thr rep).busy = true := by
    simp only [Engine.canRun, Bool.and_eq_true] at h
    exact h.1
  unfold Chip.ready
  cases rep
  · simp [metrologyEnd_of_busy (show (c.eng k).head.busy = true from hb),
      bridgeGap_of_busy (show (c.eng k).head.busy = true from hb), skipGap_of_busy hb, hb]
  · simp [skipGap_of_busy hb, hb]

theorem qPure_ok {k : Nat} {rep : Bool} {c : Chip} {f : Thread → Except W8 Thread} {t : Thread}
    (h : (c.eng k).canRun rep = true) (hf : f ((c.eng k).thr rep) = .ok t) :
    c.qPure k rep f = c.modEng k (Engine.setThr rep t) := by
  unfold Chip.qPure
  simp [ready_of_canRun h, h, hf]

theorem qInstr_ok {k : Nat} {rep : Bool} {c d : Chip} {f : Chip → Thread → Except W8 Chip}
    (h : (c.eng k).canRun rep = true) (hf : f c ((c.eng k).thr rep) = .ok d) :
    c.qInstr k rep f = d := by
  unfold Chip.qInstr
  simp [ready_of_canRun h, h, hf]

theorem bPure_ok {c : Chip} {f : Thread → Except W8 Thread} {t : Thread}
    (h : c.bayRuns false false = true) (hf : f c.bay.core = .ok t) : c.bPure f = c.setCore t := by
  unfold Chip.bPure
  simp [h, hf]

theorem bInstr_ok {c d : Chip} {f : Chip → Thread → Except W8 Chip}
    (h : c.bayRuns false false = true) (hf : f c c.bay.core = .ok d) : c.bInstr f = d := by
  unfold Chip.bInstr
  simp [h, hf]

/-- An engine with another thread in place of one of its own is in the same state otherwise. -/
theorem pendDone_modEng {k : Nat} {f : Engine → Engine} (c : Chip)
    (h : ∀ q : Engine, (f q).run = q.run ∧ (f q).logs = q.logs ∧ (f q).c = q.c) (p : PendCommit) :
    (c.modEng k f).pendDone p = c.pendDone p := by
  have e : ∀ j, ((c.modEng k f).eng j).run = (c.eng j).run ∧ ((c.modEng k f).eng j).logs = (c.eng j).logs ∧
      ((c.modEng k f).eng j).c = (c.eng j).c := by
    intro j
    simp only [Chip.modEng, Chip.eng, Tbl.get_put]
    split
    · rename_i hj
      subst hj
      exact h _
    · exact ⟨rfl, rfl, rfl⟩
  unfold Chip.pendDone
  simp only [(e _).1, (e _).2.1, (e _).2.2]

/-- Another thread in place of the one that executes is nothing that settling follows. -/
theorem quiet_withThread (e : Exec) (t : Thread) (c : Chip) : Quiet c (withThread e t c) := by
  cases e with
  | head k =>
    exact ⟨rfl, rfl, rfl, rfl, rfl, rfl, rfl, pendDone_modEng c (fun _ => ⟨rfl, rfl, rfl⟩), fun _ => rfl,
      fun _ => rfl, fun _ => rfl, rfl, fun _ => rfl, rfl⟩
  | replay k =>
    exact ⟨rfl, rfl, rfl, rfl, rfl, rfl, rfl, pendDone_modEng c (fun _ => ⟨rfl, rfl, rfl⟩), fun _ => rfl,
      fun _ => rfl, fun _ => rfl, rfl, fun _ => rfl, rfl⟩
  | bay =>
    exact ⟨rfl, rfl, rfl, rfl, rfl, rfl, rfl, fun _ => rfl, fun _ => rfl,
      fun _ => rfl, fun _ => rfl, rfl, fun _ => rfl, rfl⟩

/-- Another thread in place of the one that executes is all that happens. -/
theorem settle_withThread {s : State} (hs : Settled s) (e : Exec) (t : Thread) :
    Chip.settle s.chip (withThread e t s.chip) = withThread e t s.chip :=
  settle_quiet (l := s.pending) hs (quiet_withThread e t s.chip)

theorem pureI_ok {e : Exec} {c : Chip} {f : Bool → Thread → Except W8 Thread} {t : Thread}
    (h : runs e c) (hf : f (e == .bay) (threadOf e c) = .ok t) :
    Chip.pureI e f c = withThread e t c := by
  cases e with
  | head k => exact qPure_ok h hf
  | replay k => exact qPure_ok h hf
  | bay => exact bPure_ok h hf

/-- An instruction of both profiles that changes the thread alone. -/
theorem run_pureI {e : Exec} {s : State} {f : Bool → Thread → Except W8 Thread} {t : Thread}
    (hs : Settled s) (h : runs e s.chip) (hf : f (e == .bay) (threadOf e s.chip) = .ok t) :
    run (Chip.pureI e f) s = .next { s with chip := withThread e t s.chip } := by
  rw [run_eq, pureI_ok h hf, settle_withThread hs]

theorem pureQ_ok {e : Exec} {k : Nat} {rep : Bool} {c : Chip} {f : Thread → Except W8 Thread} {t : Thread}
    (h : runs e c) (ho : onEngine e k rep) (hf : f (threadOf e c) = .ok t) :
    Chip.pureQ e f c = withThread e t c := by
  cases e with
  | head k => exact qPure_ok h hf
  | replay k => exact qPure_ok h hf
  | bay => exact ho.elim

/-- An instruction of the Q-profile that changes the thread alone. -/
theorem run_pureQ {e : Exec} {k : Nat} {rep : Bool} {s : State} {f : Thread → Except W8 Thread}
    {t : Thread} (hs : Settled s) (h : runs e s.chip) (ho : onEngine e k rep)
    (hf : f (threadOf e s.chip) = .ok t) :
    run (Chip.pureQ e f) s = .next { s with chip := withThread e t s.chip } := by
  rw [run_eq, pureQ_ok h ho hf, settle_withThread hs]

end Sys2Proof.Machine
end

