-- ==== Sys2Proof/Tests/Slice0.lean ====
section
/-! SUPPORT. Tests: one ill-formed command for each check of `WellFormed`, and single steps from small
states, and for each statement states and operands that meet the hypotheses of its clauses. Expected values
come from the rules named in each comment. -/

namespace Sys2Proof.Tests

open Sys2Proof Sys2Proof.Machine Sys2Proof.Claims

-- One theorem at a time: each waits for the kernel, and a thread for each would exhaust the memory.
set_option Elab.async false

/-! ## The well-formedness checks refuse -/

theorem test_wf_connect_key_length :
    (Instr.yhpConnect (.clientKey (List.replicate 63 0))).wf = false ∧
    (Instr.yhpConnect (.clientKey (List.replicate 64 0))).wf = true := by decide
theorem test_wf_yhp_read_count :
    (Instr.yhpRead 0 { kind := 1, n := 256 }).wf = false ∧
    (Instr.yhpRead 0 { kind := 1, n := 255 }).wf = true := by decide
theorem test_wf_yhp_write_count : (Instr.yhpWrite 1 { kind := 2, n := 300 }).wf = false := by decide
theorem test_wf_yhp_command_count : (Instr.yhpCommand 2 { kind := 3, n := 256 }).wf = false := by decide
theorem test_wf_sample_edges :
    (Instr.afeSample 0 (Vector.replicate 16 { cEdges := 14 }) none).wf = false ∧
    (Instr.afeSample 0 (Vector.replicate 16 { pEdges := 13 }) none).wf = true := by decide +kernel
theorem test_wf_context_source : (Instr.contextEvent 0 { src := 4 }).wf = false := by decide
theorem test_wf_reference_deviation :
    (Instr.refRoundEnd 0 { zero := -2000001 }).wf = false ∧ (Instr.refRoundEnd 0 { plus := 2000001 }).wf = false ∧
    (Instr.refRoundEnd 0 { minus := 2000000 }).wf = true := by decide
theorem test_wf_v2g_message : (Instr.v2gRequest { msg := 13 }).wf = false := by decide
theorem test_wf_can_identifier_and_length :
    (Instr.canFrameRx 0 0x20000000 [1] 0).wf = false ∧
    (Instr.canFrameRx 0 0x1FFFFFFF (List.replicate 9 0) 0).wf = false ∧
    (Instr.canFrameRx 0 0x1FFFFFFF (List.replicate 12 0) 0).wf = true := by decide
theorem test_wf_modem_frame_length :
    (Instr.modemPoll none [{ len := 59, bytes := List.replicate 59 0 }] []).wf = false ∧
    (Instr.modemPoll none [{ len := 61, bytes := List.replicate 60 0 }] []).wf = false ∧
    (Instr.modemPoll none [{ len := 60, bytes := List.replicate 60 0 }, {}] []).wf = true := by decide +kernel
theorem test_wf_poll_replies_once :
    (Instr.linkPoll { replies := [{ index := 3 }, { index := 3 }] }).wf = false := by decide
theorem test_wf_crossing_code :
    ([Instr.crossingReq, .crossingSel, .crossingHalt, .crossingQuiet, .crossingStatus, .crossingRead,
      .crossingWrite, .crossingAuth1, .crossingAuth2, .crossingAuth3, .crossingSread,
      .crossingSwrite].map (fun f => ((f [0x7F]).wf, (f []).wf))).all (fun p => !p.1 && !p.2) = true ∧
    (Instr.crossingAuth2 [0x21, 0]).wf = true := by decide

/-- No row of the table gives bits to a command. -/
theorem test_no_word_spells_a_command (n w : Nat) : decodeTableWord n w = none := rfl

/-! ## Instruction words decode to the instructions they stand for -/

/-- The words of the worked example of 05, as its table lists them. -/
theorem test_decode_worked_example :
    [0x40800000, 0x40A00001, 0x20C4A002, 0x20E5A802, 0x21063802, 0x74164000, 0x50011700, 0x6002C000, 0x90000000,
     0xE0000000].map (decodeWord (.head 0)) =
    [some (.tap (.head 0) 4 0 0), some (.tap (.head 0) 5 0 1), some (.fmul (.head 0) 6 4 20),
     some (.fmul (.head 0) 7 5 21), some (.fmul (.head 0) 8 6 7), some (.mark (.head 0) 22 8),
     some (.macw (.head 0) 0 8 23 false), some (.bins (.head 0) 0 22 0 false), some (.gate (.head 0)),
     some (.yield (.head 0) 0)] := by decide +kernel

/-- One word of each format, its fields written out from the tables Instruction formats, Major opcodes and Function
codes. -/
theorem test_decode_formats :
    decodeWord .bay 0b000001_00011_00001_00010_00000_001010 = some (.div .bay 3 1 2) ∧
    decodeWord .bay 0b000010_00011_00001_00000_00010_111111 = some (.sra .bay 3 1 0 63) ∧
    decodeWord .bay 0b000100_00011_00001_1000000000000001 = some (.addi .bay 3 1 0x8001) ∧
    decodeWord .bay 0b001101_00011_00001_0000000000001000 = some (.st .bay 3 1 8) ∧
    decodeWord (.head 7) 0b001110_0011_0000_00001_00000_11111111 = some (.ldw (.head 7) 3 1 0xFF) ∧
    decodeWord (.head 7) 0b010101_0011_0010_00000_00000_00000000 = some (.addw (.head 7) 3 2 0 0) ∧
    decodeWord (.head 7) 0b100000_00011_00001_00010_00000_000000 = some (.if97h (.head 7) 3 1 2 0) ∧
    decodeWord .bay 0b110000_00011_00001_1111111111111100 = some (.beq .bay 3 1 0xFFFC) ∧
    decodeWord .bay 0b110100_11111111111111111111111111 = some (.jal .bay 0x3FFFFFF) ∧
    decodeWord .bay 0b110110_00000_00101_0011_000000001000 = some (.loop .bay 5 3 8) ∧
    decodeWord .bay 0b111010_00011_00001_00010_00000_000000 = some (.drvset .bay 3 1 2) ∧
    decodeWord .bay 0b111010_00011_00001_00000_00000_010011 = some (.tmsetCancel .bay 3 1) := by decide +kernel

/-- Words that R94 calls illegal: erased and cleared memory, a reserved opcode, an unassigned function code, an unused
field not zero, a register of the other profile's group. -/
theorem test_decode_illegal :
    [0x00000000, 0xFFFFFFFF, 0x0C000000, 0x04000005, 0x04000040, 0x90000001].map (decodeWord (.head 0)) =
      List.replicate 6 none ∧
    decodeWord .bay 0x40800000 = none ∧ decodeWord (.head 0) 0xE8610800 = none ∧
    (decodeWord .bay 0xE8610800).isSome = true := by decide +kernel

/-! ## States that meet the hypotheses of the statements

A clause whose hypotheses name an opaque function (a signature, a cipher, a digest) shows no state here: no
value of such a function can be computed. -/

/-- A block whose reported mode and QUARANTINE record agree with its conditions. -/
def settle (c : Chip) : Chip :=
  let c := if c.sys.qcause = 0 then c else c.modTrec 23 (fun r => { r with holders := [(0xFF, 8)] })
  { c with sys := { c.sys with mode := c.modeOf } }

/-- A state with an empty queue. -/
def atRest (c : Chip) : State := { chip := settle c }

/-- The block after its start in DEPLOYED, with the host a READER (1), and YHP sessions 0 to 3 an OPERATOR (2),
an ADMIN (3), a METROLOGIST (4) and a VENDOR (5). -/
def up : Chip :=
  { host := { enabled := true },
    sys := { ready := 0xFFFFF, starting := false, commission := false, dead := 0 },
    key := { lc := 2 }, net := { nxUp := true, links := 15 }, tamper := { lsw := true },
    power := { mainV := 2400, holdupChg := false, voutAOk := true, voutBOk := true },
    safe := { edgeUp := true, sfUp := true, adopted := some 0x11, testOk := true },
    time := { six := 100000, valid := true }, cfg := { loaded := true },
    masters := [(0, { role := 1 }), (1, { conn := true, role := 2 }), (2, { conn := true, role := 3 }),
      (3, { conn := true, role := 4 }), (4, { conn := true, role := 5 })] }

/-- The block with these live CMT words, by rising address. -/
def words (l : List (Nat × W32)) (c : Chip) : Chip := { c with cfg := { c.cfg with live := l } }

/-- One command of master m. -/
def cmd (m : Master5) (a0 a1 a2 a3 : W32) : CmdReq := { m := m, a0 := a0, a1 := a1, a2 := a2, a3 := a3 }

/-- Meter point 0 on tap 0 of engine 0, with a direction unit and slot 0. -/
def mpWords : List (Nat × W32) := [(0x52000, 0xC0000000), (0x52004, 0x80), (0x52080, 0x80000000)]

/-- Engine 0 in RUN inside an instant. -/
def inEng (t : Thread) (c : Chip) : Chip :=
  { c with engs := [(0, { run := 2, hpos := 64, head := { t with busy := true, six := 64 } })],
           groups := [(0, { newest := 64, buf := [{ six := 64, taps := [{ p := 5 }] }] })] }

/-- Engine 0 in a sidestep, its replay thread inside an instant. -/
def inRep (t : Thread) (c : Chip) : Chip :=
  { c with engs := [(0, { run := 3, hpos := 128, rpos := 64, rep := { t with busy := true, six := 64 } })],
           groups := [(0, { newest := 128, buf := [{ six := 64, taps := [{ p := 5 }] }] })] }

/-- The bay program runs. -/
def inBay (t : Thread) (c : Chip) : Chip :=
  { c with bay := { run := 2, core := { t with busy := true } } }

/-- Meets the hypotheses of `Obligations.StepTakesFront` and `Obligations.StepKeepsSettled`. -/
theorem met_StepKeepsSettled :
    let s : State := { chip := settle up, pending := [.memoryScrub] }
    Settled s ∧ s.pending = .memoryScrub :: [] ∧ ∃ t, step s = .next t := by
  refine ⟨?_, rfl, _, rfl⟩
  dsimp only [Settled, modeHonest, quarNoted, fieldRuled]; and_intros <;> decide +kernel

/-- Meets the hypotheses of `Obligations.RestartOnlyByAcknowledgement`. -/
theorem met_RestartOnlyByAcknowledgement :
    let s := atRest { up with safe := { up.safe with edge := { zones := [(3, { st := 4 })] } } }
    (∃ t, exec .memoryScrub s = .next t) ∧ (s.chip.safe.edge.zone 3).st ≠ 2 ∧ (s.chip.safe.edge.zone 3).st ≠ 3 :=
  ⟨⟨_, rfl⟩, by decide +kernel, by decide +kernel⟩

/-- Meets the hypotheses of `Obligations.MemoryCanonical`. -/
theorem met_MemoryCanonical :
    Memory.wf ([(3, 5), (7, 1)] : Mem) = true ∧ Memory.wf (Mem.wrN [(3, 5)] 7 [1]) = true := by decide +kernel

/-- Meets the hypotheses of `Obligations.LossyQueues`: a full FQ2 and FQ7. -/
theorem met_LossyQueues :
    let f : Ferry := { owner := some 0, fill := [List.replicate 1024 0], drain := [[1]] }
    let c : Chip := { up with ferry := [(2, f), (7, f)] }
    (c.fq 2).owner ≠ none ∧ (c.fq 7).owner ≠ none ∧ (c.fq 2).fits [1, 2] = false ∧
      (c.fq 7).fits [1, 2] = false := by decide +kernel

/-- Meets the hypotheses of `Obligations.ThreadRegistersAndLoops`. -/
theorem met_ThreadRegistersAndLoops :
    let l : LoopRec := { first := 5, last := 9, left := 2 }
    ({ pc := 9, loops := [l] } : Thread).loops = l :: [] ∧ 1 < l.left ∧
      (∀ x ∈ ({ pc := 8, loops := [l] } : Thread).loops, x.last ≠ 8) := by decide +kernel

/-- Meets the hypotheses of the clauses on the mapping's freeze of `Obligations.CivilAndPrecisionTime`, whatever
the crystal's error is measured to be. -/
theorem met_MappingFreeze :
    let err := max (-500000) (min 500000 (Config.free 0).toInt)
    (let s := atRest { up with time := { up.time with srcState := 1, tcxo := err } }
     Settled s ∧ s.chip.rdy rSV = true ∧ s.chip.time.srcState ≠ 0 ∧ s.chip.free = 0 ∧ s.chip.time.tcxo = err) ∧
    (let s := atRest { up with time := { up.time with srcState := 1, tcxo := err + 1 } }
     Settled s ∧ s.chip.rdy rSV = true ∧ s.chip.time.srcState ≠ 0 ∧ s.chip.free = 0 ∧ s.chip.time.slewRem = 0 ∧
       err ≠ s.chip.time.tcxo) := by
  have h : ∀ e : Int, Settled (atRest { up with time := { up.time with srcState := 1, tcxo := e } }) := by
    intro e
    exact (show Settled (atRest up) by
      dsimp only [Settled, modeHonest, quarNoted, fieldRuled]; and_intros <;> decide +kernel)
  exact ⟨⟨h _, rfl, by decide, rfl, rfl⟩, h _, rfl, by decide, rfl, rfl, fun x => by
    have y : (max (-500000) (min 500000 (Config.free 0).toInt)) =
      max (-500000) (min 500000 (Config.free 0).toInt) + 1 := x
    omega⟩

/-- Meets the hypotheses of the clauses of `Obligations.CommandRefusals`. -/
theorem met_CommandRefusals :
    let busy := { up with sys := { up.sys with changeover := true } }
    let dark := { up with sys := { up.sys with ready := 1 } }
    let lost := { up with masters := [(1, { conn := true, role := 2, ack := true })] }
    up.cmdClosed rowHoldupTest (cmd 1 0 0 0 0) = false ∧ up.cmdAllowed rowHoldupTest (cmd 1 0 0 0 0) = true ∧
      up.cmdAllowed rowBillZero (cmd 1 0 0 0 0) = false ∧ busy.hears 1 = true ∧
      (∃ i ∈ rowHoldupTest.bits, dark.rdy i = false) ∧ (lost.master 1).ack = true ∧ lost.hears 1 = true ∧
      ({ up with key := { up.key with lc := 4 } } : Chip).cmdClosed rowHoldupTest (cmd 1 0 0 0 0) = true := by
  decide +kernel

/-- Meets the hypotheses of the clauses of `Obligations.TapArbiter` on the outcomes of a reference round: a commanded
round and a routine one in NORMAL, the third failure and the third pass of IDENT, its return to NORMAL, its tenth
round, a failure that one chain alone shows, and a reading of the shared element. -/
theorem met_RoundOutcomes :
    let bad : RefReading := { zero := 2000000 }
    let at_ := fun (x : Tap) => atRest { words [(0x40020, 0x80000000), (0x40124, 1)] up with
      tix := { next := 8, out := [{ no := 7, master := 1, code := 0x0204 }] }, taps := [(9, x)] }
    let pass := fun (x : Tap) (r : RefReading) => roundPass ((at_ x).chip.tapMode 9 == mPULSE) r
    (let x : Tap := { arb := 1, refBusy := true, roundTicket := 7 }
     Settled (at_ x) ∧ ((at_ x).chip.tap 9).roundTicket ≠ 0 ∧ ((at_ x).chip.ticketOut 7).isSome = true ∧
       pass x {} = true ∧ pass x bad = false) ∧
    (let x : Tap := { arb := 1, refBusy := true, routine := true }
     Settled (at_ x) ∧ ((at_ x).chip.tap 9).routine = true ∧ pass x bad = false) ∧
    (let x : Tap := { arb := 2, refBusy := true, failRun := 2, rounds := 2 }
     Settled (at_ x) ∧ x.routine = false ∧ pass x bad = false ∧ 3 ≤ x.failRun + 1) ∧
    (let x : Tap := { arb := 2, refBusy := true, passRun := 2, rounds := 2, disagree := true }
     Settled (at_ x) ∧ pass x {} = true ∧ 3 ≤ x.passRun + 1) ∧
    (let x : Tap := { arb := 2, refBusy := true, clearRun := 3, rounds := 3 }
     Settled (at_ x) ∧ pass x {} = true ∧ 3 ≤ x.clearRun) ∧
    (let x : Tap := { arb := 2, refBusy := true, rounds := 9 }
     Settled (at_ x) ∧ 10 ≤ (satInc x.rounds).toNat ∧ x.clearRun < 3) ∧
    (let x : Tap := { arb := 5, refBusy := true, failRun := 2, critP := [{}, { on := true, since := 0 }] }
     let s := atRest { words [(0x40020, 0x80000000), (0x40124, 1)] up with
       groups := [(0, { newest := 32000 })], taps := [(9, x)] }
     Settled s ∧ pass x bad = false ∧
       (x.critP[1]?.any (fun u => u.on && decide (u.since + 32000 ≤ (s.chip.group 0).newest))) = true) := by
  dsimp only [Settled, modeHonest, quarNoted, fieldRuled]; and_intros <;> decide +kernel

/-- The pilot gate of R255 at the pilot states B, C, D and E, and a bay trip (R265): drive 39, commanded on and
mapped, is on in C and D alone. Meets the hypotheses of the clauses on both of `Obligations.DriveConditions`. -/
theorem met_PilotGate :
    let c := fun (state : BitVec 4) (trip : Bool) => settle
      { words [(0xC0000, 0xFC000001), (0xC0008, 0x80), (0xC0024, 0x80000009), (0xD019C, 0x80300000)] up with
        bay := { run := 2, pilotState := state, trip := trip }, drv := { d := [(39, { cmd := true, phase := 0 })] } }
    let x := c 3 false
    Settled { chip := x } ∧ Settled { chip := c 2 false } ∧ Settled { chip := c 3 true } ∧
      x.cb 0xC0008 7 = true ∧ x.cb 0xC0000 26 = true ∧ (x.drive 39).phase = 0 ∧
      x.dieHolds 39 = false ∧ x.modeHolds 39 = false ∧ x.standbyHolds 39 = false ∧ x.postHolds 39 = false ∧
      x.drvGranted 39 = true ∧
      [2, 3, 4, 5].map (fun i => (c i false).driveOn 39) = [false, true, true, false] ∧
      (c 3 true).driveOn 39 = false := by
  dsimp only [Settled, modeHonest, quarNoted, fieldRuled]; and_intros <;> decide +kernel

/-- Meets the hypotheses of the clauses of `Obligations.IntegerResults`. -/
theorem met_IntegerResults :
    (let e : Exec := .replay 0
     let s := atRest (inRep { x := [(1, 5), (2, 7)] } up)
     Settled s ∧ runs e s.chip) := by
  dsimp only [Settled, modeHonest, quarNoted, fieldRuled, runs]; and_intros <;> decide +kernel

/-- Meets the hypotheses of the clauses of `Obligations.IntegerResults`. -/
theorem met_ImmediateResults :
    (let e : Exec := .head 0
     let s := atRest (inEng { x := [(1, 5)] } up)
     Settled s ∧ runs e s.chip) := by
  dsimp only [Settled, modeHonest, quarNoted, fieldRuled, runs]; and_intros <;> decide +kernel

/-- Meets the hypotheses of the clauses of `Obligations.IntegerResults`. -/
theorem met_DivisionResults :
    (let e : Exec := .head 0
     let a : Reg := 1
     let b : Reg := 2
     let s := atRest (inEng { x := [(1, 0x8000000000000000), (2, 3)] } up)
     let x := (threadOf e s.chip).rx a
     let y := (threadOf e s.chip).rx b
     Settled s ∧ runs e s.chip ∧ y ≠ 0 ∧ ¬ (x.toInt = -2 ^ 63 ∧ y.toInt = -1)) := by
  dsimp only [Settled, modeHonest, quarNoted, fieldRuled, runs]; and_intros <;> decide +kernel

/-- Meets the hypotheses of the clauses of `Obligations.FloatAndPropertyResults`. -/
theorem met_FloatResults :
    (let e : Exec := .head 0
     let a : Reg := 1
     let b : Reg := 2
     let d : Reg := 3
     let v : W64 := 0x4000000000000000
     let s := atRest (inEng { x := [(1, 0x4010000000000000), (2, 0x4000000000000000), (3, 0xC018000000000000)] } up)
     let x := (threadOf e s.chip).rx a
     let y := (threadOf e s.chip).rx b
     let z := (threadOf e s.chip).rx d
     Settled s ∧ runs e s.chip ∧ (fsub x y) = .ok v ∧ (fdiv x y) = .ok v ∧ (fsqrt x) = .ok v ∧ (fma x y z) =
       .ok v) ∧
    (let e : Exec := .head 0
     let a : Reg := 1
     let v : W64 := 0x4000000000000000
     let s := atRest (inEng { x := [(1, 2)] } up)
     let x := (threadOf e s.chip).rx a
     Settled s ∧ runs e s.chip ∧ (Except.ok (f64OfInt x.toInt 0) : Except W8 W64) = .ok v) ∧
    (let e : Exec := .head 0
     let a : Reg := 1
     let rm : Rounding := .rup
     let v : W64 := 4
     let s := atRest (inEng { x := [(1, 0x400C000000000000), (2, 0x4000000000000000)] } up)
     let x := (threadOf e s.chip).rx a
     Settled s ∧ runs e s.chip ∧ (fcvtI rm x) = .ok v) ∧
    (let e : Exec := .head 0
     let a : Reg := 1
     let b : Reg := 2
     let q : FCond := .lt
     let v : W64 := 0
     let s := atRest (inEng { x := [(1, 0x400C000000000000), (2, 0x4000000000000000)] } up)
     let x := (threadOf e s.chip).rx a
     let y := (threadOf e s.chip).rx b
     Settled s ∧ runs e s.chip ∧ (fcmp q x y) = .ok v) ∧
    (let e : Exec := .head 0
     let a : Reg := 1
     let b : Reg := 2
     let v : W64 := 0x4018000000000000
     let s := atRest (inEng { x := [(1, 0x4010000000000000), (2, 0x4000000000000000), (3, 0xC018000000000000)] } up)
     let x := (threadOf e s.chip).rx a
     let y := (threadOf e s.chip).rx b
     Settled s ∧ runs e s.chip ∧ (fadd x y) = .ok v) ∧
    (let e : Exec := .head 0
     let a : Reg := 1
     let b : Reg := 2
     let v : W64 := 0x4020000000000000
     let s := atRest (inEng { x := [(1, 0x4010000000000000), (2, 0x4000000000000000), (3, 0xC018000000000000)] } up)
     let x := (threadOf e s.chip).rx a
     let y := (threadOf e s.chip).rx b
     Settled s ∧ runs e s.chip ∧ (fmul x y) = .ok v) := by
  dsimp only [Settled, modeHonest, quarNoted, fieldRuled, runs]; and_intros <;> decide +kernel

/-- Meets the hypotheses of the clauses of `Obligations.AccumulatorResults`. -/
theorem met_AccumulatorResults :
    (let e : Exec := .head 0
     let k : Nat := 0
     let rep : Bool := false
     let a : Reg := 0
     let b : Reg := 2
     let wa : WReg := 1
     let wb : WReg := 2
     let neg : Bool := false
     let p : Int := 0
     let s := atRest (inEng { x := [(1, 4)], w := [(1, 5), (2, 6)] } up)
     let t := threadOf e s.chip
     let fits := fun (n : Int) => -(2 ^ 127) ≤ n ∧ n < 2 ^ 127
     Settled s ∧ runs e s.chip ∧ onEngine e k rep ∧ mulAcc (t.rx a) (t.rx b) = some p ∧ fits ((t.rw wa).toInt
       + (if neg then -p else p)) ∧ a.val = 0 ∧ fits ((t.rw wa).toInt + (t.rw wb).toInt) ∧ fits ((t.rw
       wa).toInt + (-(t.rw wb).toInt))) ∧
    (let e : Exec := .replay 0
     let k : Nat := 0
     let rep : Bool := true
     let a : Reg := 1
     let wa : WReg := 1
     let wb : WReg := 0
     let p : Int := 0x40000000000000000
     let s := atRest (inRep { x := [(1, 0x4010000000000000)], w := [(1, 5), (2, 6)] } up)
     let t := threadOf e s.chip
     let fits := fun (n : Int) => -(2 ^ 127) ≤ n ∧ n < 2 ^ 127
     Settled s ∧ runs e s.chip ∧ onEngine e k rep ∧ wb.val = 0 ∧ fAcc (t.rx a) = some p ∧ fits ((t.rw
       wa).toInt + p) ∧ fits ((t.rw wa).toInt + ((t.rx a).toInt * 2 ^ 64))) := by
  dsimp only [Settled, modeHonest, quarNoted, fieldRuled, runs, onEngine]; and_intros <;> decide +kernel

/-- Meets the hypotheses of the clauses of `Obligations.FloatAndPropertyResults`. -/
theorem met_PropertyResults :
    (let e : Exec := .head 0
     let k : Nat := 0
     let rep : Bool := false
     let a : Reg := 1
     let b : Reg := 2
     let d : Reg := 3
     let pair : BitVec 5 := 0
     let v : W64 := 0x7FF8000000000000
     let s := atRest (inEng { x := [(1, 0x7FF8000000000000), (2, 0x4000000000000000), (3, 0x3FE0000000000000)] } up)
     let x := (threadOf e s.chip).rx a
     let y := (threadOf e s.chip).rx b
     let z := (threadOf e s.chip).rx d
     Settled s ∧ runs e s.chip ∧ onEngine e k rep ∧ (if97Op 0 pair x y) = .ok v ∧ (if97Op 1 pair x y) = .ok v
       ∧ (if97Op 2 pair x y) = .ok v ∧ (if97Op 3 pair x y) = .ok v ∧ (if97xOp pair (BitVec.ofNat 5 b.val) x y)
       = .ok v ∧ (airOp 0 x y z) = .ok v ∧ (airOp 1 x y z) = .ok v) := by
  dsimp only [Settled, modeHonest, quarNoted, fieldRuled, runs, onEngine]; and_intros <;> decide +kernel

/-- Meets the hypotheses of the clauses of `Obligations.ControlFlow`. -/
theorem met_ControlFlow :
    (let e : Exec := .head 0
     let a : Reg := 1
     let off : W16 := 0x7FFF
     let far : BitVec 26 := 5
     let k : BitVec 4 := 4
     let n : BitVec 12 := 3
     let l : List Nat := [9]
     let s := atRest (inEng { x := [(1, 7)], link := [7, 9], pc := 16383 } up)
     let t := threadOf e s.chip
     let x := t.rx a
     Settled s ∧ runs e s.chip ∧ (threadOf e s.chip).loops = [] ∧ (e = .bay ∨ 0 < off.toInt) ∧ (e = .bay ∨ (0
       < far.toInt ∧ t.link.length < 8)) ∧ e ≠ .bay ∧ t.link = x.toNat :: l ∧ n ≠ 0 ∧ x ≠ 0 ∧ x.toNat ≤ 2 ^
       k.toNat) ∧
    (let e : Exec := .head 0
     let a : Reg := 0
     let n : BitVec 12 := 0xFFF
     let s := atRest (inEng { x := [(1, 7)], link := [7, 9], pc := 1 } up)
     let t := threadOf e s.chip
     let x := t.rx a
     Settled s ∧ runs e s.chip ∧ (threadOf e s.chip).loops = [] ∧ n ≠ 0 ∧ x = 0) ∧
    (let e : Exec := .bay
     let s := atRest (inBay { x := [(1, 7)], link := [7, 9], pc := 32767 } up)
     Settled s ∧ runs e s.chip ∧ (threadOf e s.chip).loops = [] ∧ e = .bay) := by
  dsimp only [Settled, modeHonest, quarNoted, fieldRuled, runs]; and_intros <;> decide +kernel

/-- Meets the hypotheses of the clauses of `Obligations.LoadsAndStores`. -/
theorem met_LoadResults :
    (let e : Exec := .replay 0
     let a : Reg := 1
     let imm : W16 := 0xFFF8
     let imm8 : W8 := 0
     let k : Nat := 0
     let rep : Bool := true
     let s := atRest (inRep { x := [(1, 0x2000)] } up)
     let t := threadOf e s.chip
     let p := (t.rx a + imm.signExtend 64).toNat
     let w := (t.rx a + imm8.signExtend 64 * 16).toNat
     Settled s ∧ runs e s.chip ∧ onEngine e k rep ∧ p % 8 = 0 ∧ p < 0x2000 ∧ w % 16 = 0 ∧ 0x2000 ≤ w ∧ w <
       0x40000) ∧
    (let e : Exec := .bay
     let a : Reg := 1
     let imm : W16 := 0xFFF8
     let s := atRest (inBay { x := [(1, 0x80000)] } up)
     let t := threadOf e s.chip
     let p := (t.rx a + imm.signExtend 64).toNat
     Settled s ∧ runs e s.chip ∧ e = .bay ∧ p % 8 = 0 ∧ p + 8 ≤ 0x80000) ∧
    (let e : Exec := .head 0
     let a : Reg := 1
     let imm : W16 := 0xFFF8
     let k : Nat := 0
     let rep : Bool := false
     let s := atRest (inEng { x := [(1, 0x40000)] } up)
     let t := threadOf e s.chip
     let p := (t.rx a + imm.signExtend 64).toNat
     Settled s ∧ runs e s.chip ∧ onEngine e k rep ∧ p % 8 = 0 ∧ 0x2000 ≤ p ∧ p < 0x40000) := by
  dsimp only [Settled, modeHonest, quarNoted, fieldRuled, runs, onEngine]; and_intros <;> decide +kernel

/-- Meets the hypotheses of the clauses of `Obligations.LoadsAndStores`. -/
theorem met_StoreResults :
    (let e : Exec := .replay 0
     let a : Reg := 1
     let imm : W16 := 0
     let imm8 : W8 := 0
     let k : Nat := 0
     let rep : Bool := true
     let s := atRest (inRep { x := [(1, 0x2000), (3, 0x1122334455667788)], w := [(2, 99)] } up)
     let t := threadOf e s.chip
     let p := (t.rx a + imm.signExtend 64).toNat
     let w := (t.rx a + imm8.signExtend 64 * 16).toNat
     Settled s ∧ runs e s.chip ∧ p % 8 = 0 ∧ storable e p 8 ∧ room e 1 s.chip ∧ t.inInit = false ∧ onEngine e
       k rep ∧ w % 16 = 0 ∧ storable e w 16 ∧ room e 2 s.chip) ∧
    (let e : Exec := .head 0
     let a : Reg := 1
     let imm : W16 := 0
     let k : Fin 8 := 0
     let s := atRest (inEng { x := [(1, 0x2000), (3, 0x1122334455667788)], inInit := true } up)
     let t := threadOf e s.chip
     let p := (t.rx a + imm.signExtend 64).toNat
     Settled s ∧ runs e s.chip ∧ p % 8 = 0 ∧ storable e p 8 ∧ e = .head k ∧ t.inInit = true) := by
  dsimp only [Settled, modeHonest, quarNoted, fieldRuled, runs, onEngine, room, storable]; and_intros <;> decide +kernel

/-- Meets the hypotheses of the clauses of `Obligations.SampleAndContextReads`. -/
theorem met_SampleAndContextReads :
    (let e : Exec := .head 0
     let k : Nat := 0
     let rep : Bool := false
     let a : Reg := 1
     let imm : W16 := 0x0100
     let m : Nat := 0
     let s := atRest (inEng { x := [] } (words mpWords up))
     let t := threadOf e s.chip
     let n := (t.rx a + BitVec.ofNat 64 (imm.toNat % 16)).toNat
     let v := imm.toNat / 16 % 16
     let w := s.chip.viewAt t.six
     Settled s ∧ runs e s.chip ∧ onEngine e k rep ∧ (threadOf e s.chip).inInit = false ∧ v ≤ 2 ∧ n < 16 ∧ v =
       0 ∧ w.mpOf k (t.rx a).toNat = some m) ∧
    (let e : Exec := .head 0
     let k : Nat := 0
     let rep : Bool := false
     let a : Reg := 0
     let s := atRest (inEng { x := [] } (words mpWords up))
     Settled s ∧ runs e s.chip ∧ onEngine e k rep ∧ (threadOf e s.chip).inInit = false ∧ a.val = 0) := by
  dsimp only [Settled, modeHonest, quarNoted, fieldRuled, runs, onEngine]; and_intros <;> decide +kernel

/-- Meets the hypotheses of the clauses of `Obligations.Contributions`. -/
theorem met_Contributions :
    (let e : Exec := .replay 0
     let k : Nat := 0
     let rep : Bool := true
     let wa : WReg := 1
     let a : Reg := 1
     let slot : Fin 8 := 0
     let m : Nat := 0
     let s := atRest (inRep { x := [(2, 5)], w := [(1, 7)], marked := [0] } (words mpWords up))
     let t := threadOf e s.chip
     let seg := segOf e s.chip
     let w := s.chip.viewAt t.six
     let v := (t.rw wa).toInt
     Settled s ∧ runs e s.chip ∧ onEngine e k rep ∧ inInstant e s.chip ∧ w.binCheck k t a slot.val = .ok m ∧
       t.cutoff m = false ∧ (s.chip.eng k).binCount seg < 2048 ∧ v ≠ 0 ∧ w.slotNet m slot.val = false ∧ w.mpOf
       k (t.rx a).toNat = some m) := by
  dsimp only [Settled, modeHonest, quarNoted, fieldRuled, runs, onEngine, inInstant]; and_intros <;> decide +kernel

/-- Meets the hypotheses of the clauses of `Obligations.GatesAndInstantEnds`. -/
theorem met_GatePlaces :
    (let e : Exec := .head 0
     let k : Nat := 0
     let rep : Bool := false
     let s := atRest (inEng { x := [(2, 5)] } up)
     let q := s.chip.eng k
     Settled s ∧ runs e s.chip ∧ onEngine e k rep ∧ inInstant e s.chip ∧ q.forceDue = false ∧ q.gates.length
       < 8 ∧ q.late = []) := by
  dsimp only [Settled, modeHonest, quarNoted, fieldRuled, runs, onEngine, inInstant]; and_intros <;> decide +kernel

/-- Meets the hypotheses of the clauses of `Obligations.GatesAndInstantEnds`. -/
theorem met_InstantEnds :
    (let e : Exec := .head 0
     let k : Nat := 0
     let rep : Bool := false
     let s := atRest (inEng { x := [(2, 5)], gateDone := true } up)
     let t := threadOf e s.chip
     let q := s.chip.eng k
     Settled s ∧ runs e s.chip ∧ onEngine e k rep ∧ t.inInit = false ∧ t.loops = [] ∧ t.link = [] ∧
       t.gateDone = true ∧ q.prog = none) := by
  dsimp only [Settled, modeHonest, quarNoted, fieldRuled, runs, onEngine]; and_intros <;> decide +kernel

/-- Meets the hypotheses of the clauses of `Obligations.LiveItemsAndDirection`. -/
theorem met_LiveItems :
    (let e : Exec := .head 0
     let k : Nat := 0
     let rep : Bool := false
     let a : Reg := 1
     let m : Nat := 0
     let s := atRest (inEng { x := [(2, 5)] } (words mpWords up))
     let t := threadOf e s.chip
     let shows := rep = false ∧ ((s.chip.eng k).run = 2 ∨ (s.chip.eng k).run = 3)
     Settled s ∧ runs e s.chip ∧ onEngine e k rep ∧ (threadOf e s.chip).inInit = false ∧ (s.chip.viewAt
       t.six).mpOf k (t.rx a).toNat = some m ∧ shows) ∧
    (let e : Exec := .replay 0
     let k : Nat := 0
     let rep : Bool := true
     let a : Reg := 1
     let m : Nat := 0
     let s := atRest (inRep { x := [(2, 5)] } (words mpWords up))
     let t := threadOf e s.chip
     let shows := rep = false ∧ ((s.chip.eng k).run = 2 ∨ (s.chip.eng k).run = 3)
     Settled s ∧ runs e s.chip ∧ onEngine e k rep ∧ (threadOf e s.chip).inInit = false ∧ (s.chip.viewAt
       t.six).mpOf k (t.rx a).toNat = some m ∧ ¬ shows) := by
  dsimp only [Settled, modeHonest, quarNoted, fieldRuled, runs, onEngine]; and_intros <;> decide +kernel

/-- Meets the hypotheses of the clauses of `Obligations.LiveItemsAndDirection`. -/
theorem met_MarksDirection :
    (let e : Exec := .head 0
     let k : Nat := 0
     let rep : Bool := false
     let a : Reg := 1
     let b : Reg := 2
     let m : Nat := 0
     let s := atRest (inEng { x := [(2, 0x3FF0000000000000)] } (words ((0x52000, 0xC0000000) :: (0x52004, 0x80) :: (0x5200C, 1) :: []) up))
     let t := threadOf e s.chip
     let c := s.chip
     let w := c.viewAt t.six
     let two := fun o => two w.live (aMp m + o)
     let r := (Tbl.get ({} : DirUnit) t.dirs m).mark (w.live (aMp m + 0x0C)) (two 0x10) (two 0x18) t.six (t.rx b)
     Settled s ∧ runs e s.chip ∧ onEngine e k rep ∧ inInstant e s.chip ∧ w.mpOf k (t.rx a).toNat = some m ∧
       w.mpDir m = true ∧ t.marked.contains m = false ∧ fFinite (t.rx b) = true ∧ r.2 = none) ∧
    (let e : Exec := .head 0
     let k : Nat := 0
     let rep : Bool := false
     let a : Reg := 1
     let b : Reg := 2
     let m : Nat := 0
     let z : Nat := 64
     let s := atRest (inEng { x := [(2, 0xBFF0000000000000)] } (words ((0x52000, 0xC0000000) :: (0x52004, 0x80) :: (0x5200C, 1) :: []) up))
     let t := threadOf e s.chip
     let c := s.chip
     let w := c.viewAt t.six
     let two := fun o => two w.live (aMp m + o)
     let r := (Tbl.get ({} : DirUnit) t.dirs m).mark (w.live (aMp m + 0x0C)) (two 0x10) (two 0x18) t.six (t.rx b)
     Settled s ∧ runs e s.chip ∧ onEngine e k rep ∧ inInstant e s.chip ∧ w.mpOf k (t.rx a).toNat = some m ∧
       w.mpDir m = true ∧ t.marked.contains m = false ∧ fFinite (t.rx b) = true ∧ r.2 = some z) := by
  dsimp only [Settled, modeHonest, quarNoted, fieldRuled, runs, onEngine, inInstant]; and_intros <;> decide +kernel

/-- Meets the hypotheses of the clauses of `Obligations.HaltsAndFaults`. -/
theorem met_Halts :
    (let s := atRest (inBay { pc := 77 } up)
     Settled s ∧ runs .bay s.chip) ∧
    (let k : Fin 8 := 0
     let s := atRest (inEng { x := [(2, 5)], inInit := true } up)
     Settled s ∧ runs (.head k) s.chip ∧ (s.chip.eng k.val).head.inInit = true) := by
  dsimp only [Settled, modeHonest, quarNoted, fieldRuled, runs]; and_intros <;> decide +kernel

/-- Meets the hypotheses of the clauses of `Obligations.HaltsAndFaults`. -/
theorem met_FaultsStop :
    (let e : Exec := .head 0
     let k : Nat := 0
     let rep : Bool := false
     let w : W32 := 0xFFFFFFFF
     let b : Reg := 2
     let s := atRest (inEng { pc := 16383 } up)
     Settled s ∧ runs e s.chip ∧ onEngine e k rep ∧ legalWord false w = false ∧ (threadOf e s.chip).rx b = 0) ∧
    (let e : Exec := .bay
     let w : W32 := 0xFFFFFFFF
     let b : Reg := 2
     let s := atRest (inBay { pc := 32767 } up)
     Settled s ∧ runs e s.chip ∧ e = .bay ∧ legalWord true w = false ∧ (threadOf e s.chip).rx b = 0) := by
  dsimp only [Settled, modeHonest, quarNoted, fieldRuled, runs, onEngine]; and_intros <;> decide +kernel

/-- Meets the hypotheses of the clauses of `Obligations.BayDrives`. -/
theorem met_BayDrives :
    (let a : Reg := 1
     let b : Reg := 2
     let s := atRest (inBay { x := [(1, 5), (2, 3)] } up)
     let c := s.chip
     let n := (c.bay.core.rx a).toNat
     let on := (c.bay.core.rx b).getLsbD 0
     Settled s ∧ runs .bay s.chip ∧ n < 48 ∧ c.drvOwner n ≠ 1 ∧ on = true) ∧
    (let a : Reg := 1
     let s := atRest (inBay { x := [(1, 48), (2, 3)] } up)
     let c := s.chip
     let n := (c.bay.core.rx a).toNat
     Settled s ∧ runs .bay s.chip ∧ 48 ≤ n) ∧
    (let a : Reg := 1
     let b : Reg := 2
     let s := atRest (inBay { x := [(1, 5), (2, 0)] } (words [(0xD0114, 0x43300A00)] up))
     let c := s.chip
     let n := (c.bay.core.rx a).toNat
     let on := (c.bay.core.rx b).getLsbD 0
     Settled s ∧ runs .bay s.chip ∧ n < 48 ∧ (c.drive n).testing = 0 ∧ (on = true → c.drvOwner n = 1 ∧
       c.drvGranted n = true ∧ c.modeHolds n = false ∧ (c.drive n).phase = 0 ∧ (c.drive n).therm = false ∧
       c.uvHolds n = false)) ∧
    (let a : Reg := 1
     let b : Reg := 2
     let s := atRest (let c := inBay { x := [(1, 5), (2, 1)] } (words [(0xD0114, 0x40000000)] up); { c with
       drv := { d := [(5, { phase := 1, frozen := false })] } })
     let c := s.chip
     let n := (c.bay.core.rx a).toNat
     let on := (c.bay.core.rx b).getLsbD 0
     Settled s ∧ runs .bay s.chip ∧ n < 48 ∧ c.drvOwner n = 1 ∧ (c.drive n).testing = 0 ∧ on = true ∧
       c.drvGranted n = true ∧ c.modeHolds n = false ∧ ((c.drive n).phase ≠ 0 ∨ (c.drive n).therm = true ∨
       c.uvHolds n = true)) := by
  dsimp only [Settled, modeHonest, quarNoted, fieldRuled, runs]; and_intros <;> decide +kernel

/-- Meets the hypotheses of the clauses of `Obligations.BayInstructions`. -/
theorem met_BayEventsAndTimers :
    (let a : Reg := 1
     let b : Reg := 2
     let s := atRest (let c := inBay { x := [(1, 1), (2, 80)] } (words [(0xC0000, 0xC0000000)] up); c)
     let c := s.chip
     let x := c.bay.core.rx a
     let mask : W32 := x.truncate 32
     let hit := c.bay.events &&& mask
     let y := c.bay.core.rx b
     let q := c.fq 5
     Settled s ∧ runs .bay s.chip ∧ mask ≠ 0 ∧ hit = 0 ∧ x.getLsbD 32 = false ∧ x.toNat < 16 ∧ 0 < y.toNat ∧
       y.toNat < 2 ^ 32 ∧ q.owner = none ∧ c.pilotEn = true ∧ x = 1 ∧ (y = 50 ∨ (80 ≤ y.toNat ∧ y.toNat ≤ 970))) ∧
    (let a : Reg := 1
     let b : Reg := 2
     let s := atRest (let c := inBay { x := [(1, 0x100000000), (2, 1)] } up; { c with
       bay := { c.bay with events := 0x8000 } })
     let c := s.chip
     let x := c.bay.core.rx a
     let mask : W32 := x.truncate 32
     let hit := c.bay.events &&& mask
     let y := c.bay.core.rx b
     Settled s ∧ runs .bay s.chip ∧ hit = 0 ∧ x.getLsbD 32 = true ∧ (16 ≤ x.toNat ∨ y.toNat = 0 ∨ 2 ^ 32 ≤
       y.toNat)) ∧
    (let a : Reg := 1
     let s := atRest (let c := inBay { x := [(1, 2), (2, 0xFFFFFFFF)] } (words [(0xC0000, 0xC0000000)] up); c)
     let c := s.chip
     let x := c.bay.core.rx a
     Settled s ∧ runs .bay s.chip ∧ c.pilotEn = true ∧ x = 2) ∧
    (let a : Reg := 1
     let s := atRest (let c := inBay { x := [(1, 3), (2, 0xFFFFFFFF)] } (words [(0xC0000, 0xC0000000)] up); c)
     let c := s.chip
     let x := c.bay.core.rx a
     Settled s ∧ runs .bay s.chip ∧ c.pilotEn = true ∧ x = 3) ∧
    (let s := atRest (let c := inBay { x := [(1, 7), (2, 0xFFFFFFFF)] } up; { c with
       ferry := [(5, { owner := some 2 })] })
     let c := s.chip
     let q := c.fq 5
     Settled s ∧ runs .bay s.chip ∧ q.owner ≠ none ∧ pktWords q.fill + 4 ≤ 1024 ∧ q.holdBuf = [] ∧ q.testing
       = false ∧ q.fill = [] ∧ q.drain = [] ∧ q.cur = []) ∧
    (let a : Reg := 1
     let s := atRest (let c := inBay { x := [(1, 5), (2, 0xFFFFFFFF)] } up; { c with
       bay := { c.bay with events := 0x1000C } })
     let c := s.chip
     let x := c.bay.core.rx a
     let mask : W32 := x.truncate 32
     let hit := c.bay.events &&& mask
     Settled s ∧ runs .bay s.chip ∧ hit ≠ 0) ∧
    (let a : Reg := 1
     let s := atRest (let c := inBay { x := [(2, 50)] } (words [(0xC0000, 0xC0000000)] up); { c with
       bay := { c.bay with events := 0xF0 } })
     let c := s.chip
     let x := c.bay.core.rx a
     Settled s ∧ runs .bay s.chip ∧ c.pilotEn = true ∧ x = 0) ∧
    (let s := atRest (let c := inBay { x := [(1, 7), (2, 0xFFFFFFFF)] } up; { c with
       ferry := [(5, { owner := some 2, holdBuf := [[1, 2]] })] })
     let c := s.chip
     let q := c.fq 5
     Settled s ∧ runs .bay s.chip ∧ q.owner ≠ none ∧ (1024 < pktWords q.fill + 4 ∨ q.holdBuf ≠ [])) ∧
    (let s := atRest (let c := inBay { x := [(1, 7), (2, 0xFFFFFFFF)] } up; { c with
       ferry := [(5, { owner := some 2, fill := [[1, 2]], drain := [[3]] })] })
     let c := s.chip
     let q := c.fq 5
     Settled s ∧ runs .bay s.chip ∧ q.owner ≠ none ∧ pktWords q.fill + 4 ≤ 1024 ∧ q.holdBuf = [] ∧ q.testing
       = false ∧ (q.fill ≠ [] ∧ (q.drain ≠ [] ∨ q.cur ≠ []))) := by
  dsimp only [Settled, modeHonest, quarNoted, fieldRuled, runs]; and_intros <;> decide +kernel

/-- Meets the hypotheses of the clauses of `Obligations.BayInstructions`. -/
theorem met_BayPortsAndSessions :
    (let a : Reg := 0
     let b : Reg := 2
     let s := atRest (let c := inBay { x := [(2, 0x7FFC0)] } (words ((0x40, 5) :: mpWords) up); { c with
       engs := [(0, { run := 2 })] })
     let c := s.chip
     let x := c.bay.core.rx a
     let y := (c.bay.core.rx b).toNat
     let desc := Mem.rdN c.bay.mem y 64
     Settled s ∧ runs .bay s.chip ∧ (c.canPort (x.toNat % 2)).rx = [] ∧ y + 64 ≤ 0x80000 ∧ c.postNo ≠ 0 ∧
       c.sys.starting = false ∧ c.sys.qcause = 0 ∧ c.retired = false ∧ c.power.onAux = false ∧ x.toNat < 64 ∧
       c.mpEn x.toNat = true ∧ (desc.getD 0x21 0).toNat ≤ 16 ∧ (desc.getD 0x22 0).toNat < 128 ∧ ((∀ v ∈ slice
       desc 0x23 5, v = 0)) ∧ ((∀ v ∈ slice desc 0x30 16, v = 0)) ∧ (c.session x.toNat).no = 0 ∧ c.rdy rBILL =
       true ∧ c.mpRuns x.toNat = true ∧ c.mpLoads x.toNat = false ∧ ((∀ e ∈ c.cfg.pend, e.kind ≠ 3))) ∧
    (let a : Reg := 1
     let b : Reg := 2
     let fr : List W8 := [1,0,0,0,2,0,0,0,9,9,9]
     let rest : List (List W8) := [[7]]
     let s := atRest (let c := inBay { x := [(1, 1), (2, 0x7FFF5)] } up; { c with
       bay := { c.bay with can := [(1, { rx := [[1,0,0,0,2,0,0,0,9,9,9], [7]] })] } })
     let c := s.chip
     let x := c.bay.core.rx a
     let y := (c.bay.core.rx b).toNat
     Settled s ∧ runs .bay s.chip ∧ (c.canPort (x.toNat % 2)).rx = fr :: rest ∧ 8 ≤ fr.length ∧ y + fr.length
       ≤ 0x80000) ∧
    (let a : Reg := 1
     let b : Reg := 2
     let m : Nat := 0
     let s := atRest (let c := inBay { x := [(1, 9), (2, 0x0F)] } (words ((0x40, 5) :: mpWords) up); { c with
       engs := [(0, { run := 2 })],
       bill := { c.bill with sess := [(0, { no := 9 })] } })
     let c := s.chip
     let x := c.bay.core.rx a
     let y := (c.bay.core.rx b).toNat
     Settled s ∧ runs .bay s.chip ∧ 0 < y % 256 ∧ y % 256 < 16 ∧ c.sessMp (x.truncate 32) = some m ∧ x.toNat
       < 2 ^ 32 ∧ (c.session m).no ≠ 0 ∧ (c.session m).closeSix = none ∧ c.mpRuns m = true) ∧
    (let a : Reg := 1
     let b : Reg := 2
     let f : Reg := 3
     let s := atRest (let c := inBay { x := [(1, 0x5FFFFF12), (2, 0x7FFF8), (3, 8)] } (words [(0xC0020, 0x80000000), (0xC0024, 0x80000000)] up); { c with
       bay := { c.bay with can := [(0, { tx := [[1]] }), (1, { tx := [[1]] })] } })
     let c := s.chip
     let x := c.bay.core.rx a
     let y := (c.bay.core.rx b).toNat
     let n := (c.bay.core.rx f).toNat
     let p := x.toNat / 2 ^ 30 % 2
     let id : W32 := BitVec.ofNat 32 (x.toNat % 2 ^ 29)
     Settled s ∧ runs .bay s.chip ∧ canLen n = true ∧ 0 < n ∧ id.toNat / 2 ^ 18 % 256 ≠ 0x3F ∧ c.canEn p =
       true ∧ y + n ≤ 0x80000 ∧ c.pair.role ≠ 2 ∧ (c.canPort p).tx.length < 8) := by
  dsimp only [Settled, modeHonest, quarNoted, fieldRuled, runs]; and_intros <;> decide +kernel

/-- Meets the hypotheses of the clauses of `Obligations.HostPortFrames`. -/
theorem met_HostPortFrames :
    (let op : W8 := 0x77
     let crc : W8 := 0xFF
     let a : BitVec 24 := 0x20000
     let v : W32 := 7
     let s := atRest (up)
     let c := s.chip
     let good := frameCrc 0xC3 a v
     Settled s ∧ c.hears 0 = true ∧ a.toNat % 4 = 0 ∧ crc ≠ good ∧ writes 0 0x20000 v c ∧ a = 0x20000 ∧ op ≠
       0x3C ∧ op ≠ 0xC3 ∧ c.power.off = false) ∧
    (let a : BitVec 24 := 0x20001
     let s := atRest (up)
     let c := s.chip
     Settled s ∧ c.hears 0 = true ∧ a.toNat % 4 ≠ 0) := by
  dsimp only [Settled, modeHonest, quarNoted, fieldRuled, writes]; and_intros <;> decide +kernel

/-- Meets the hypotheses of the clauses of `Obligations.RegisterWrites`. -/
theorem met_RegisterWrites :
    (let m : Master5 := 1
     let a : W32 := 0x20004
     let v : W32 := 0xFFFFFFFF
     let s := atRest (up)
     let c := s.chip
     Settled s ∧ writes m 0x20004 v c ∧ a.toNat = 0x20004 ∧ writes m 0x60 v c) ∧
    (let m : Master5 := 0
     let a : W32 := 0x20000
     let v : W32 := 0xFFFFFFFF
     let s := atRest (up)
     let c := s.chip
     Settled s ∧ writes m 0x20000 v c ∧ a.toNat = 0x20000) ∧
    (let m : Master5 := 1
     let a : W32 := 0x20008
     let v : W32 := 0xFFFFFFFF
     let s := atRest (up)
     let c := s.chip
     Settled s ∧ writes m 0x20008 v c ∧ a.toNat = 0x20008) ∧
    (let m : Master5 := 1
     let a : W32 := 0x2000C
     let v : W32 := 0xFFFFFFFF
     let s := atRest (up)
     let c := s.chip
     Settled s ∧ writes m 0x2000C v c ∧ a.toNat = 0x2000C) ∧
    (let m : Master5 := 4
     let a : W32 := 0x20018
     let v : W32 := 0xFFFFFFFF
     let s := atRest (up)
     let c := s.chip
     Settled s ∧ writes m 0x20018 v c ∧ a.toNat = 0x20018) ∧
    (let m : Master5 := 0
     let a : W32 := 0x3000C
     let v : W32 := 0xFFFFFFFF
     let s := atRest (up)
     let c := s.chip
     Settled s ∧ writes m 0x3000C v c ∧ a.toNat = 0x3000C) ∧
    (let m : Master5 := 2
     let a : W32 := 0x64
     let v : W32 := 0x04000400
     let s := atRest (up)
     let c := s.chip
     Settled s ∧ writes m 0x64 v c ∧ a = 0x64) ∧
    (let m : Master5 := 0
     let a : W32 := 0x110
     let v : W32 := 0x04000400
     let s := atRest ({ up with sys := { up.sys with hintStatus := 0x7FF } })
     let c := s.chip
     Settled s ∧ c.hears m.val = true ∧ a.toNat % 4 = 0 ∧ c.sys.changeover = false ∧ c.deadAt a.toNat = none
       ∧ c.mayWrite m.val a.toNat v = false) := by
  dsimp only [Settled, modeHonest, quarNoted, fieldRuled, writes]; and_intros <;> decide +kernel

/-- Meets the hypotheses of the clauses of `Obligations.YhpMessages`. -/
theorem met_YhpMessages :
    (let i : Fin 4 := 0
     let v : W32 := 5
     let a0 : W32 := 1
     let a1 : W32 := 2
     let a2 : W32 := 3
     let a3 : W32 := 4
     let l : List W32 := [0x10, 0x20000]
     let s := atRest (up)
     let c := s.chip
     let m : Master5 := i.succ
     let x := c.master m.val
     Settled s ∧ x.conn = true ∧ l.length < 256 ∧ (((c.yhpReads m.val l).1).master m.val).conn = true ∧
       writes m 0x20000 v c ∧ ((∀ p ∈ [(0x20000, a0), (0x20004, a1), (0x20008, a2), (0x2000C, a3), (0x20010,
       (0x200 : W32))], writes m p.1 p.2 c)) ∧ c.deadAt 0x20014 = none ∧ c.retired = false ∧ 1 ≤ x.role.toNat ∧
       c.rdy rSV = true) ∧
    (let i : Fin 4 := 0
     let s := atRest ({ up with masters := [(4, { conn := true })] })
     let c := s.chip
     let m : Master5 := i.succ
     let x := c.master m.val
     Settled s ∧ c.rdy rNET = true ∧ c.net.nxUp = true ∧ c.sys.changeover = false ∧ c.retired = false ∧
       x.conn = false ∧ ((∀ j, j < m.val → 0 < j → (c.master j).conn = true))) := by
  dsimp only [Settled, modeHonest, quarNoted, fieldRuled, writes]; and_intros <;> decide +kernel

/-- Meets the hypotheses of the clauses of `Obligations.Landings`. -/
theorem met_Landings :
    (let m : Master5 := 0
     let n : Fin 16 := 7
     let a : W32 := 0x20000
     let v : W32 := 0x10000000
     let k : Nat := 3
     let s := atRest ({ up with lands := [(7, { req := 0x10000000, busy := true, valid := true })] })
     let c := s.chip
     let l := c.land n.val
     Settled s ∧ writes m (0x10000 + 0x20 * n.val) v c ∧ (landsOf m.val).contains n.val = true ∧ l.busy =
       true ∧ (billSpace (l.req.toNat / 2 ^ 28) = true → c.rdy rBILL = true) ∧ c.fillValue (l.req.toNat / 2 ^
       28) (l.req.toNat / 2 ^ 22 % 64) (l.req.toNat % 65536) = none ∧ reads m (0x1001C + 0x20 * n.val) c ∧
       c.hears m.val = true ∧ islandOf a.toNat = some k ∧ a.toNat < 2 ^ 24) ∧
    (let n : Fin 16 := 15
     let x : LandVal := { v := 0 }
     let s := atRest ({ up with lands := [(15, { req := 0x40000000, busy := true, valid := true })] })
     let c := s.chip
     let l := c.land n.val
     Settled s ∧ l.busy = true ∧ (billSpace (l.req.toNat / 2 ^ 28) = true → c.rdy rBILL = true) ∧ c.fillValue
       (l.req.toNat / 2 ^ 28) (l.req.toNat / 2 ^ 22 % 64) (l.req.toNat % 65536) = some x) := by
  dsimp only [Settled, modeHonest, quarNoted, fieldRuled, writes, reads]; and_intros <;> decide +kernel

/-- Meets the hypotheses of the clauses of `Obligations.ConfigurationAccess`. -/
theorem met_ConfigurationChanges :
    (let m : Master5 := 3
     let a : W32 := 0xD0000
     let v : W32 := 0xFFFFFFFF
     let g : BitVec 4 := 3
     let f : CmtFam := (cmtFind 0xD0000).getD { base := 0, group := 0, mask := 0 }
     let s := atRest ({ up with cfg := { up.cfg with owner := [(3, 4)], shadow := [(0x110, 0)] } })
     let c := s.chip
     let n := g.toNat
     let w11 := c.cand 11 0x130000
     let ready := [rSV] ++ (if n = 1 then [rAFE] else if n = 4 then [rBILL] else if n = 5 then [rDRV] else if
       n = 7 then [rLINK] else [])
     let may := c.sys.changeover = false ∧ c.sys.qcause = 0 ∧ c.retired = false ∧ (∀ i ∈ ready, c.rdy i =
       true) ∧ (c.cfgOwner n = none ∨ c.cfgOwner n = some m.val) ∧ (∀ p ∈ c.cfg.pend, p.kind = n → p.applied =
       true) ∧ c.cfg.mismatch.getLsbD n = false ∧ (n = 11 → c.sys.te = true ∨ w11.getLsbD 31 = false) ∧ (n ≠ 11
       → c.checkGroup n = []) ∧ (n = 11 → c.sys.te = true → (w11.getLsbD 31 = true → c.postNo ≠ 0 ∧ failsOn
       c.live = false) ∧ (w11.getLsbD 29 = true → c.cand 11 0x130004 ≠ 0) ∧ 1 ≤ w11.toNat % 128 ∧ w11.toNat %
       128 ≤ 100)
     let commits := writes m 0x30000 (BitVec.ofNat 32 (2 ^ 28 + n)) c ∧ n < 12 ∧ may
     Settled s ∧ writes m a.toNat v c ∧ cmtFind a.toNat = some f ∧ (c.cfgOwner f.group = none ∨ c.cfgOwner
       f.group = some m.val) ∧ writes m 0x30000 (BitVec.ofNat 32 (2 ^ 29 + n)) c ∧ n < 12 ∧ (c.cfgOwner n =
       none ∨ c.cfgOwner n = some m.val) ∧ commits ∧ legalGroup n = true ∧ (c.master m.val).role = 4 ∧
       c.onTrial = false ∧ c.tamper.lsw = true ∧ c.tixFull = false ∧ c.cfg.pend = []) ∧
    (let m : Master5 := 2
     let a : W32 := 0xD0000
     let v : W32 := 0xFFFFFFFF
     let g : BitVec 4 := 5
     let f : CmtFam := (cmtFind 0xD0000).getD { base := 0, group := 0, mask := 0 }
     let o : Nat := 1
     let s := atRest ({ up with
       cfg := { up.cfg with owner := [(5, 2)], shadow := [(0xD0010, 0x100), (0x110, 0)] } })
     let c := s.chip
     let n := g.toNat
     Settled s ∧ writes m a.toNat v c ∧ cmtFind a.toNat = some f ∧ c.cfgOwner f.group = some o ∧ o ≠ m.val ∧
       writes m 0x30000 (BitVec.ofNat 32 (2 ^ 29 + n)) c ∧ n < 12 ∧ c.cfgOwner n = some o) ∧
    (let m : Master5 := 2
     let g : BitVec 4 := 5
     let s := atRest ({ up with
       cfg := { up.cfg with owner := [(5, 3)], shadow := [(0xD0010, 0x100), (0x110, 0)] } })
     let c := s.chip
     let n := g.toNat
     let w11 := c.cand 11 0x130000
     let ready := [rSV] ++ (if n = 1 then [rAFE] else if n = 4 then [rBILL] else if n = 5 then [rDRV] else if
       n = 7 then [rLINK] else [])
     let may := c.sys.changeover = false ∧ c.sys.qcause = 0 ∧ c.retired = false ∧ (∀ i ∈ ready, c.rdy i =
       true) ∧ (c.cfgOwner n = none ∨ c.cfgOwner n = some m.val) ∧ (∀ p ∈ c.cfg.pend, p.kind = n → p.applied =
       true) ∧ c.cfg.mismatch.getLsbD n = false ∧ (n = 11 → c.sys.te = true ∨ w11.getLsbD 31 = false) ∧ (n ≠ 11
       → c.checkGroup n = []) ∧ (n = 11 → c.sys.te = true → (w11.getLsbD 31 = true → c.postNo ≠ 0 ∧ failsOn
       c.live = false) ∧ (w11.getLsbD 29 = true → c.cand 11 0x130004 ≠ 0) ∧ 1 ≤ w11.toNat % 128 ∧ w11.toNat %
       128 ≤ 100)
     let commits := writes m 0x30000 (BitVec.ofNat 32 (2 ^ 28 + n)) c ∧ n < 12 ∧ may
     Settled s ∧ commits ∧ legalGroup n = false ∧ ((c.master m.val).role = 3 ∨ (c.master m.val).role = 5) ∧
       (n = 5 → c.drv.badLatch = 0)) := by
  dsimp only [Settled, modeHonest, quarNoted, fieldRuled, writes]; and_intros <;> decide +kernel

/-- Meets the hypotheses of the clauses of `Obligations.ConfigurationAccess`. -/
theorem met_ConfigurationChecks :
    (let m : Master5 := 2
     let k : Fin 12 := 9
     let s := atRest ({ up with drv := { badLatch := 1 }, cfg := { up.cfg with ref := [(9, 5)] } })
     let c := s.chip
     Settled s ∧ writes m 0x30000 (BitVec.ofNat 32 (2 ^ 28 + 5)) c ∧ c.commitRefusal m.val 5 = none ∧
       c.checkGroup 5 = [] ∧ c.drv.badLatch ≠ 0 ∧ c.cfg.pend = [] ∧ (c.cfg.mismatch.getLsbD k.val = false ∨
       c.cfg.persist.getLsbD k.val = true)) ∧
    (let k : Fin 12 := 3
     let p : PendCommit := { kind := 1, arg := 3, ticket := 7, stamp := some 99, words := [(0x40000, 0x600)] }
     let z : Nat := 99
     let s := atRest ({ up with
       cfg := { up.cfg with owner := [(1, 4), (9, 2)], shadow := [(0x40000, 0x700)], pend := [{ kind := 1, arg := 3, ticket := 7, stamp := some 99, words := [(0x40000, 0x600)] }], mismatch := 8 } })
     let c := s.chip
     let due := c.cfg.pend = [p] ∧ p.stamp = some z ∧ z ≤ c.now ∧ p.applied = false
     Settled s ∧ due ∧ legalGroup p.kind = true ∧ (p.words.map Prod.fst).Nodup ∧ c.cfg.mismatch.getLsbD k.val
       = true ∧ c.cfg.persist.getLsbD k.val = false) ∧
    (let m : Master5 := 2
     let g : BitVec 4 := 9
     let st : W8 := 0x03
     let s := atRest ({ up with
       cfg := { up.cfg with owner := [(1, 4), (9, 2)], shadow := [(0x40000, 0x700)] } })
     let c := s.chip
     Settled s ∧ writes m 0x30000 (BitVec.ofNat 32 (2 ^ 28 + g.toNat)) c ∧ g.toNat < 12 ∧ c.commitRefusal
       m.val g.toNat = some st) ∧
    (let p : PendCommit := { kind := 0x100, arg := 5, stamp := some 99 }
     let z : Nat := 99
     let s := atRest ({ up with
       cfg := { up.cfg with pend := [{ kind := 0x100, arg := 5, stamp := some 99 }], mismatch := 8 },
       taps := [(5, { arb := 4, disagree := true })] })
     let c := s.chip
     let due := c.cfg.pend = [p] ∧ p.stamp = some z ∧ z ≤ c.now ∧ p.applied = false
     Settled s ∧ due ∧ p.kind = 0x100) ∧
    (let p : PendCommit := { kind := 0x102, arg := 1, ticket := 7, stamp := some 99 }
     let z : Nat := 99
     let s := atRest ({ up with
       tix := { next := 8, out := [{ no := 7, code := 1 }] },
       cfg := { up.cfg with pend := [{ kind := 0x102, arg := 1, ticket := 7, stamp := some 99 }], mismatch := 8, persist := 8 } })
     let c := s.chip
     let due := c.cfg.pend = [p] ∧ p.stamp = some z ∧ z ≤ c.now ∧ p.applied = false
     Settled s ∧ due ∧ p.kind = 0x102) := by
  dsimp only [Settled, modeHonest, quarNoted, fieldRuled, writes]; and_intros <;> decide +kernel

/-- Meets the hypotheses of the clauses of `Obligations.Tickets`. -/
theorem met_Tickets :
    (let t : W16 := 7
     let x : Ticket := { no := 7, master := 1, code := 0x0303 }
     let r : CmdReq := cmd 1 7 0 0 0
     let s := atRest ({ up with
       tix := { up.tix with out := [{ no := 6 }, { no := 7, master := 1, code := 0x0303 }] } })
     let c := s.chip
     let fixed := [0x0003, 0x0601, 0x0603, 0x0802, 0x1006, 0x100A, 0x1103]
     Settled s ∧ c.ticketOut t = some x ∧ x.code.toNat / 256 ≠ 0x10 ∧ takes rowTicketCancel r c ∧ r.a0.toNat
       % 65536 = t.toNat ∧ x.code.toNat ∉ fixed ∧ takes rowNop r c) ∧
    (let t : W16 := 7
     let r : CmdReq := cmd 1 7 0 0 0
     let s := atRest (up)
     let c := s.chip
     Settled s ∧ takes rowTicketCancel r c ∧ r.a0.toNat % 65536 = t.toNat ∧ c.ticketOut t = none) ∧
    (let t : W16 := 7
     let x : Ticket := { no := 7, master := 1, code := 0x0601 }
     let r : CmdReq := cmd 1 7 0 0 0
     let s := atRest ({ up with
       tix := { up.tix with out := [{ no := 6 }, { no := 7, master := 1, code := 0x0601 }] } })
     let c := s.chip
     let fixed := [0x0003, 0x0601, 0x0603, 0x0802, 0x1006, 0x100A, 0x1103]
     Settled s ∧ takes rowTicketCancel r c ∧ r.a0.toNat % 65536 = t.toNat ∧ c.ticketOut t = some x ∧
       x.code.toNat ∈ fixed) := by
  dsimp only [Settled, modeHonest, quarNoted, fieldRuled, takes]; and_intros <;> decide +kernel

/-- Meets the hypotheses of the clauses of `Obligations.KeyOperationsComplete`. -/
theorem met_KeyOperationsComplete :
    (let t : W16 := 7
     let x : Ticket := { no := 7, code := 0x1006 }
     let j : KeyJob := { ticket := 7, st := 5, res := 6 }
     let s := atRest ({ up with
       tix := { next := 8, out := [{ no := 7, code := 0x1006 }] },
       key := { up.key with pending := [{ ticket := 7, st := 5, res := 6 }] } })
     let c := s.chip
     Settled s ∧ c.ticketOut t = some x ∧ x.no = t ∧ c.key.pending.find? (fun y => y.ticket == t) = some j ∧
       c.rdy rKEYS = true ∧ (x.code = 0x1006 ∨ x.code = 0x100A)) ∧
    (let t : W16 := 7
     let x : Ticket := { no := 7, code := 0x1009, arg := 63, master := 0 }
     let j : KeyJob := { ticket := 7, a1 := 2, a2 := 64, a3 := 0x10000002, buf := List.replicate 64 0x44 }
     let s := atRest (let j : KeyJob := { ticket := 7, a1 := 2, a2 := 64, a3 := 0x10000002, buf := List.replicate 64 0x44 }; { up with
       tix := { next := 8, out := [{ no := 7, code := 0x1009, arg := 63, master := 0 }] },
       key := { up.key with kekSeed := 1, slots := [(2, { a := { gen := 1, cls := 4, typ := 1, mat := [1], dest := 31 }, empty := false, lastGen := 8 })], pending := [j] } })
     let c := s.chip
     let i := x.arg
     let p := j.a1.toNat % 64
     let ph := (c.kslot p).half
     let typ := j.a3.toNat / 2 ^ 28
     let dest := j.a3.toNat % 32
     Settled s ∧ c.ticketOut t = some x ∧ x.no = t ∧ c.key.pending.find? (fun y => y.ticket == t) = some j ∧
       c.rdy rKEYS = true ∧ x.code = 0x1009 ∧ 0 < j.a2.toNat ∧ j.a2.toNat ≤ 64 ∧ 2 ≤ i ∧ i < 64 ∧ 2 ≤ p ∧ p ≠
       0x3F ∧ i ≠ p ∧ c.slotState i ≠ 1 ∧ (c.kslot p).empty = false ∧ c.slotUsable p = true ∧ 1 ≤ ph.typ ∧
       ph.typ ≤ 3 ∧ 1 ≤ typ ∧ typ ≤ 3 ∧ keyFits ph.cls typ dest = true ∧ (dest &&& ph.dest.toNat) = dest) ∧
    (let t : W16 := 7
     let x : Ticket := { no := 7, code := 0x1004, arg := 15, master := 0 }
     let j : KeyJob := { ticket := 7, a1 := 12, buf := List.replicate 12 0x42 }
     let s := atRest (let salt : List W8 := List.replicate 16 1; let mat := salt ++ digBytes (Config.pbkdf2 salt (List.replicate 12 0x41)); { up with
       tix := { next := 8, out := [{ no := 7, code := 0x1004, arg := 15, master := 0 }] },
       key := { up.key with kekSeed := 1, slots := [(63, { a := { gen := 1, cls := 7, typ := 6, mat := mat }, empty := false, lastGen := 8 })], pending := [{ ticket := 7, a1 := 12, buf := List.replicate 12 0x42 }], accts := [(15, { en := true, role := 3, method := 0, slot := 63, fails := 15 })] } })
     let c := s.chip
     let i := x.arg
     let a := c.acct i
     let pw := j.buf.take j.a1.toNat
     Settled s ∧ c.ticketOut t = some x ∧ x.no = t ∧ c.key.pending.find? (fun y => y.ticket == t) = some j ∧
       c.rdy rKEYS = true ∧ x.code = 0x1004 ∧ a.en = true ∧ a.method = 0 ∧ 2 ≤ a.slot.toNat ∧ ((∀ b ∈ pw, 0x20
       ≤ b.toNat ∧ b.toNat ≤ 0x7E))) := by
  dsimp only [Settled, modeHonest, quarNoted, fieldRuled]; and_intros <;> decide +kernel

/-- Meets the hypotheses of the clauses of `Obligations.SystemCommands`. -/
theorem met_SystemCommands :
    (let r : CmdReq := cmd 2 7 0 0 0
     let x : Ticket := { no := 7, master := 2, code := 0x1301 }
     let s := atRest ({ up with
       tix := { up.tix with out := [{ no := 7, master := 2, code := 0x1301 }] },
       pair := { up.pair with switchT := 7 } })
     let c := s.chip
     Settled s ∧ takes rowNop r c ∧ takes rowTicketCancel r c ∧ c.ticketOut (BitVec.ofNat 16 r.a0.toNat) =
       some x ∧ x.master = r.m.val ∧ x.sess = (c.master r.m.val).sess ∧ x.code = 0x1301 ∧ c.pendOf x.no = none
       ∧ x.no = BitVec.ofNat 16 r.a0.toNat ∧ takes rowSysRestart r c ∧ c.tixFull = false ∧ c.sys.changeover =
       false ∧ c.onTrial = false ∧ takes rowHoldupTest r c ∧ c.power.onAux = false ∧ c.power.holdupChg = false
       ∧ c.power.testRun = false ∧ c.power.testTicket = 0 ∧ c.powered = true ∧ ((∀ t, c.power.chargedAt = some
       t → t + 160000 ≤ c.now))) ∧
    (let r : CmdReq := cmd 3 1 0 0 0
     let s := atRest (up)
     let c := s.chip
     Settled s ∧ takes rowSysModeSet r c ∧ c.tixFull = false ∧ c.tamper.lsw = true ∧ (r.a0.getLsbD 0 = true ∨
       c.key.lc = 2)) ∧
    (let r : CmdReq := cmd 3 1 0 0 0
     let s := atRest ({ up with sys := { up.sys with qcause := 3 } })
     let c := s.chip
     Settled s ∧ takes rowSysQuarClr r c ∧ ((∃ i, i < 4 ∧ r.a0.getLsbD i = true ∧ c.sys.qcause.getLsbD i =
       true)) ∧ ((∀ i, i < 4 → r.a0.getLsbD i = true → c.causePresent i = false))) := by
  dsimp only [Settled, modeHonest, quarNoted, fieldRuled, takes]; and_intros <;> decide +kernel

/-- Meets the hypotheses of the clauses of `Obligations.TapAndEngineCommands`. -/
theorem met_TapAndEngineCommands :
    (let r : CmdReq := cmd 3 127 0 0 0
     let s := atRest ({ words [(0x402FC, 0x00320001)] up with taps := [(127, { arb := 3, glitch := 5 })] })
     let c := s.chip
     let n := r.a0.toNat % 128
     Settled s ∧ takes rowTapRefNow r c ∧ c.tixFull = false ∧ (c.tap n).arb ≠ 4 ∧ (c.tap n).arb ≠ 6 ∧
       c.tapMode n ≠ mOFF ∧ (c.tap n).refBusy = false ∧ (c.tap n).roundTicket = 0 ∧ takes rowTapChainReset r c
       ∧ (c.master r.m.val).role = 4 ∧ c.tamper.lsw = true ∧ (c.tap n).arb ≠ 1 ∧ takes rowTapGlitchClr r c ∧
       takes rowQeCntClr r c) ∧
    (let r : CmdReq := cmd 2 7 1 600000 0
     let s := atRest ({ up with
       engs := [(7, { run := 6, restarts := [1], stallCnt := 5 })],
       ferry := [(7, { owner := some 2 })] })
     let c := s.chip
     let k := r.a0.toNat % 8
     Settled s ∧ takes rowQeRestart r c ∧ c.tixFull = false ∧ ((c.eng k).run = 6 ∨ (c.eng k).run = 7) ∧ takes
       rowQeTrace r c ∧ (c.fq 7).owner = some r.m.val) ∧
    (let r : CmdReq := cmd 3 31 0 0 0
     let s := atRest ({ up with lib := [(31, { installed := true })] })
     let c := s.chip
     let i := r.a0.toNat
     Settled s ∧ takes rowQeImgRemove r c ∧ c.imgGate r.m.val i = none ∧ (c.img i).installed = true) ∧
    (let r : CmdReq := cmd 2 7 0x8001 600000 0
     let s := atRest ({ up with
       engs := [(7, { run := 2, restarts := [1], stallCnt := 5 })],
       ferry := [(7, { owner := some 2 })] })
     let c := s.chip
     let k := r.a0.toNat % 8
     let bits := ((List.range 16).filter (fun j => r.a1.getLsbD j)).length
     Settled s ∧ takes rowQeTapRecord r c ∧ c.tixFull = false ∧ 1 ≤ bits ∧ bits ≤ 4 ∧ 0 < r.a2.toNat ∧
       r.a2.toNat ≤ 600000 ∧ (c.eng k).run = 2 ∧ (c.fq 7).owner = some r.m.val ∧ (c.eng k).recMask = 0) := by
  dsimp only [Settled, modeHonest, quarNoted, fieldRuled, takes]; and_intros <;> decide +kernel

/-- Meets the hypotheses of the clauses of `Obligations.BillingCommands`. -/
theorem met_BillingCommands :
    (let r : CmdReq := cmd 2 900 0x3B9AC9FF 0 0
     let s := atRest (up)
     let c := s.chip
     let d64 : Int := r.a0.toNat * 1000000000 + (r.a1.toNat % 2 ^ 30 : Nat) - c.civil c.now
     Settled s ∧ takes rowBillClose r c ∧ c.tixFull = false ∧ takes rowTariffSchedule r c ∧ c.tariff.sched =
       none ∧ tariffBad c.tariff.pas = none ∧ c.civil c.now + 2000000000 ≤ (r.a0.toNat : Int) * 1000000000 ∧
       ((r.a0.toNat : Int) + c.zoning.std) % max 1 ((c.demandCfg.toNat % 64 * 60 : Nat) : Int) = 0 ∧ takes
       rowTariffCopy r c ∧ takes rowTimeAdjust r c ∧ r.a0.toInt ≠ 0 ∧ -1000000 ≤ r.a0.toInt ∧ r.a0.toInt ≤
       1000000 ∧ c.time.srcState ≠ 3 ∧ takes rowTimeSet r c ∧ r.a1.toNat % 2 ^ 30 < 1000000000 ∧ c.roleNo
       r.m.val = 3 ∧ (c.time.srcState ≠ 3 ∨ c.time.valid = false) ∧ c.time.step = none ∧ 1000000000 < d64) ∧
    (let r : CmdReq := cmd 3 0 0 0 0
     let s := atRest ({ up with sys := { up.sys with commission := true } })
     let c := s.chip
     Settled s ∧ takes rowBillZero r c ∧ c.tixFull = false ∧ (c.master r.m.val).role = 4 ∧ c.tamper.lsw =
       true ∧ c.commCond = true) ∧
    (let r : CmdReq := cmd 2 900 0 0 0
     let u : Int := 900000000000
     let s := atRest ({ up with tariff := { up.tariff with sched := some 900 } })
     let c := s.chip
     Settled s ∧ takes rowTariffUnschedule r c ∧ c.actAt = some u ∧ c.civil c.now + 1000000000 ≤ u ∧
       c.tariff.stamp = none) ∧
    (let r : CmdReq := cmd 1 0xFF 0 9600 0
     let s := atRest ({ words [(0x607FC, 0x80000000)] up with ferry := [(1, { owner := some 1 })] })
     let c := s.chip
     Settled s ∧ takes rowBillLpRead r c ∧ c.tixFull = false ∧ c.cb (0x60400 + 4 * (r.a0.toNat % 256)) 31 =
       true ∧ 0 < r.a2.toNat ∧ r.a2.toNat ≤ 9600 ∧ (c.fq 1).owner = some r.m.val) ∧
    (let r : CmdReq := cmd 2 9 0 0 0
     let m : Nat := 0
     let s := atRest ({ words mpWords up with
       engs := [(0, { run := 2 })],
       bill := { up.bill with sess := [(0, { no := 9 })] } })
     let c := s.chip
     Settled s ∧ takes rowBillSessClose r c ∧ c.sessMp r.a0 = some m ∧ (c.session m).no ≠ 0 ∧ (c.session
       m).closeSix = none ∧ c.mpRuns m = true) := by
  dsimp only [Settled, modeHonest, quarNoted, fieldRuled, takes]; and_intros <;> decide +kernel

/-- Meets the hypotheses of the clauses of `Obligations.RecordCommands`. -/
theorem met_RecordCommands :
    (let r : CmdReq := cmd 2 4 0 4096 0
     let s := atRest ({ up with
       ferry := [(4, { owner := some 2, drop := 3 })],
       ledger := { up.ledger with seq := 5, acked := some 3 } })
     let c := s.chip
     let code := r.a0.toNat % 65536
     let start := r.a1.toNat * 2 ^ 32 + r.a0.toNat
     let q := r.a0.toNat % 8
     Settled s ∧ takes rowEvtCntClr r c ∧ evtCodes.contains code = true ∧ takes rowLedgerAck r c ∧ start <
       c.ledger.seq.toNat ∧ ((∀ a, c.ledger.acked = some a → a ≤ start)) ∧ takes rowFerryTest r c ∧ c.tixFull =
       false ∧ (c.fq q).held = 0 ∧ (c.fq q).testing = false ∧ takes rowDispTest r c) ∧
    (let r : CmdReq := cmd 1 0x301 0 4096 0
     let s := atRest ({ up with
       ferry := [(1, { owner := some 1 }), (3, { owner := some 1 })],
       ledger := { up.ledger with recs := [] } })
     let c := s.chip
     let start := r.a1.toNat * 2 ^ 32 + r.a0.toNat
     Settled s ∧ takes rowEvtRead r c ∧ c.tixFull = false ∧ 0 < r.a2.toNat ∧ r.a2.toNat < 65536 ∧ (c.fq
       3).owner = some r.m.val ∧ takes rowLedgerRead r c ∧ r.a2.toNat ≤ 4096 ∧ (c.fq 1).owner = some r.m.val ∧
       (c.ledger.seq.toNat ≤ start ∨ c.ledger.recs.any (fun x => x.seq.toNat == start) = true)) := by
  dsimp only [Settled, modeHonest, quarNoted, fieldRuled, takes]; and_intros <;> decide +kernel

/-- Meets the hypotheses of the clauses of `Obligations.BayAndDriveCommands`. -/
theorem met_BayAndDriveCommands :
    (let r : CmdReq := cmd 2 3 1 2 0
     let s := atRest (inBay {} (words [(0xC0000, 0x80000000)] up))
     let c := s.chip
     let i := r.a0.toNat
     let n := r.a0.toNat % 64
     Settled s ∧ takes rowBaySignal r c ∧ (c.bay.run = 2 ∨ c.bay.run = 3) ∧ takes rowBayRestart r c ∧
       c.tixFull = false ∧ c.bayEn = true ∧ takes rowBayTripClr r c ∧ c.tripPresent = false ∧ takes
       rowBayImgRemove r c ∧ i < 4 ∧ c.bayLocked i = false ∧ takes rowDrvClr r c ∧ n < 48 ∧ (c.drive n).tj <
       150 ∧ takes rowDrvReclaim r c ∧ c.cfg.mismatch.getLsbD 5 = false ∧ ((∃ n, n < 48 ∧ 2 ≤ (c.drive
       n).phase.toNat)) ∧ takes rowDrvTestNow r c ∧ n < 40) := by
  dsimp only [Settled, modeHonest, quarNoted, fieldRuled, takes]; and_intros <;> decide +kernel

/-- Meets the hypotheses of the clauses of `Obligations.LinkCommands`. -/
theorem met_LinkCommands :
    (let r : CmdReq := cmd 2 0x80 0 0 0
     let s := atRest (up)
     let c := s.chip
     let b := r.a0.toNat % 256
     let p := c.link.plate
     Settled s ∧ takes rowLinkPtRead r c ∧ c.retired = false ∧ p.hold ≠ some b ∧ takes rowLinkPtWrite r c ∧
       0x80 ≤ b ∧ p.locked b = false ∧ r.a0.getLsbD 31 = false ∧ takes rowLinkCntClr r c) ∧
    (let r : CmdReq := cmd 1 15 0x20501 0 0
     let s := atRest ({ up with ferry := [(4, { owner := some 1 })] })
     let c := s.chip
     let mine := (c.master r.m.val).role
     Settled s ∧ takes rowLinkXfer r c ∧ c.tixFull = false ∧ mine ≠ 0 ∧ (c.fq 4).owner = some r.m.val ∧
       c.fq4Holds = false) ∧
    (let r : CmdReq := cmd 2 0xFF 0 0 0
     let s := atRest ({ up with link := { up.link with plate := { up.link.plate with hold := some 0xFF } } })
     let c := s.chip
     let b := r.a0.toNat % 256
     let p := c.link.plate
     Settled s ∧ takes rowLinkPtWrite r c ∧ 0x80 ≤ b ∧ p.locked b = false ∧ r.a0.getLsbD 31 = false ∧ p.hold
       = some b ∧ c.tixFull = false) := by
  dsimp only [Settled, modeHonest, quarNoted, fieldRuled, takes]; and_intros <;> decide +kernel

/-- Meets the hypotheses of the clauses of `Obligations.SessionCommands`. -/
theorem met_SessionCommands :
    (let r : CmdReq := cmd 2 15 0xB7F00000 0 0
     let s := atRest ({ up with
       key := { up.key with slots := [(63, { a := { gen := 1, cls := 7, typ := 3, mat := [1] }, empty := false, lastGen := 1 })], kekSeed := 1 } })
     let c := s.chip
     let a := r.a0.toNat % 16
     let x := c.acct a
     let m := r.m.val
     let me := c.master m
     let i := r.a1.toNat / 2 ^ 20 % 64
     let role := r.a1.extractLsb' 28 3
     let meth := r.a1.extractLsb' 26 2
     Settled s ∧ takes rowKeyChallenge r c ∧ takes rowKeyLogin r c ∧ (c.acct 16).lockTo ≤ c.now ∧ x.en =
       false ∧ takes rowKeyLogout r c ∧ takes rowKeyAcctSet r c ∧ c.retired = false ∧ (me.role = 3 ∨ me.role =
       5) ∧ role ≠ 4 ∧ (x.en = false ∨ x.role ≠ 4) ∧ role.toNat ≤ 4 ∧ role ≠ 0 ∧ meth = 1 ∧ 2 ≤ i ∧
       c.slotUsable i = true ∧ c.slotCls i = 7 ∧ (c.kslot i).half.typ = 3) ∧
    (let r : CmdReq := cmd 2 15 12 0 0
     let s := atRest ({ up with
       masters := [(2, { conn := true, role := 3, account := 15, keyBuf := [(0, 0x20207E7E), (1, 0x41414141), (2, 0x41414141)] })],
       key := { up.key with accts := [(15, { en := true, role := 3, slot := 63 })] } })
     let c := s.chip
     let m := r.m.val
     let a := r.a0.toNat % 16
     let x := c.acct a
     let me := c.master m
     Settled s ∧ takes rowKeyLogin r c ∧ c.tixFull = false ∧ (c.acct (c.failIx a)).lockTo ≤ c.now ∧ x.en =
       true ∧ x.method = 0 ∧ m ≠ 0 ∧ 12 ≤ r.a1.toNat ∧ r.a1.toNat ≤ 64 ∧ c.slotState x.slot.toNat ≠ 2 ∧ takes
       rowKeyPasswd r c ∧ me.account.toNat = a ∧ 2 ≤ x.slot.toNat ∧ ((∀ b ∈ (c.keyBufBytes m).take r.a1.toNat,
       0x20 ≤ b.toNat ∧ b.toNat ≤ 0x7E))) := by
  dsimp only [Settled, modeHonest, quarNoted, fieldRuled, takes]; and_intros <;> decide +kernel

/-- Meets the hypotheses of the clauses of `Obligations.KeySlotCommands`. -/
theorem met_KeySlotCommands :
    (let r : CmdReq := cmd 4 2 0x1C 0 0
     let s := atRest ({ up with
       key := { up.key with slots := [(2, { a := { gen := 1, cls := 4, typ := 1, mat := [1], compat := true }, empty := false, lastGen := 1 })], kekSeed := 1 } })
     let c := s.chip
     let i := r.a0.toNat % 64
     let h := (c.kslot i).half
     let wrap := if h.typ = 1 then 24 else 40
     Settled s ∧ takes rowKeyReplace r c ∧ c.tixFull = false ∧ (c.kslot i).empty = false ∧ h.compat = true ∧
       (h.typ = 1 ∨ h.typ = 2) ∧ r.a1.toNat = wrap + 4 ∧ c.slotUsable i = true ∧ takes rowKeyInvalidate r c ∧ 2
       ≤ i) ∧
    (let r : CmdReq := cmd 2 1 0 0 0
     let t : BitVec 3 := 1
     let vendor : Bool := false
     let lsw : Bool := true
     let s := atRest (up)
     let c := s.chip
     Settled s ∧ takes rowKeyLcSet r c ∧ c.tixFull = false ∧ r.a0.toNat % 16 = t.toNat ∧ lcRow c.key.lc t =
       some (vendor, lsw) ∧ ((c.master r.m.val).role = 5 ∨ (vendor = false ∧ (c.master r.m.val).role = 3)) ∧
       r.a1.toNat = c.sys.deviceId.toNat % 2 ^ 32 ∧ (lsw = true → c.tamper.lsw = true) ∧ (t = 2 → c.mayDeploy =
       true)) ∧
    (let r : CmdReq := cmd 2 63 2 64 0x10000000
     let s := atRest ({ up with
       key := { up.key with kekSeed := 1, slots := [(2, { a := { gen := 1, cls := 3, typ := 1, mat := [1], dest := 31 }, empty := false, lastGen := 8 })] } })
     let c := s.chip
     let i := r.a0.toNat % 64
     let p := r.a1.toNat % 64
     let ph := (c.kslot p).half
     let typ := r.a3.toNat / 2 ^ 28
     let dest := r.a3.toNat % 32
     Settled s ∧ takes rowKeyDerive r c ∧ c.tixFull = false ∧ 0 < r.a2.toNat ∧ r.a2.toNat ≤ 64 ∧ 2 ≤ i ∧ 2 ≤
       p ∧ p ≠ 0x3F ∧ i ≠ p ∧ c.slotState i ≠ 1 ∧ (c.kslot p).empty = false ∧ c.slotUsable p = true ∧ 1 ≤
       ph.typ ∧ ph.typ ≤ 3 ∧ 1 ≤ typ ∧ typ ≤ 3 ∧ keyFits ph.cls typ dest = true ∧ (dest &&& ph.dest.toNat) =
       dest) := by
  dsimp only [Settled, modeHonest, quarNoted, fieldRuled, takes]; and_intros <;> decide +kernel

/-- Meets the hypotheses of the clauses of `Obligations.UpdateCommands`. -/
theorem met_UpdateCommands :
    (let r : CmdReq := cmd 2 0 0 0 0
     let s := atRest ({ up with upd := { up.upd with slotB := { st := 1 } } })
     let c := s.chip
     let o := c.otherSlot
     Settled s ∧ takes rowUpdActivate r c ∧ c.tixFull = false ∧ c.sys.changeover = false ∧ c.retired = false
       ∧ c.onTrial = false ∧ (c.upd.slot o).st = 1 ∧ (c.upd.slot o).legal = c.runImg.legal ∧ c.power.onAux =
       false ∧ c.power.holdupChg = false ∧ c.power.holdupWeak = false ∧ c.pair.formed = false ∧ 3 ≤ c.roleNo
       r.m.val ∧ takes rowUpdDiscard r c ∧ r.a0.toNat % 65536 = 0) ∧
    (let r : CmdReq := cmd 2 7 3 4 0
     let x : Staging := { ticket := 7, master := 2, kind := 2, len := 300, got := [1, 2, 3] }
     let t : W16 := 7
     let s := atRest ({ up with
       upd := { up.upd with stagings := [{ ticket := 7, master := 2, kind := 2, len := 300, got := [1, 2, 3] }] },
       tix := { up.tix with out := [{ no := 7, master := 2, code := 0x1101, arg := 7 }] } })
     let c := s.chip
     Settled s ∧ takes rowUpdChunk r c ∧ c.staging (r.a0.toNat % 65536) = some x ∧ x.master = r.m.val ∧ 0 <
       r.a2.toNat ∧ r.a2.toNat ≤ 1024 ∧ x.done = false ∧ r.a1.toNat = x.got.length ∧ r.a1.toNat + r.a2.toNat <
       x.len ∧ c.staging t.toNat = some x) ∧
    (let r : CmdReq := cmd 2 2 320208 0 0
     let s := atRest (up)
     let c := s.chip
     let kind := r.a0.toNat % 16
     Settled s ∧ takes rowUpdStage r c ∧ c.tixFull = false ∧ stageLimits kind r.a1.toNat = true ∧ kind ≠ 1 ∧
       c.dramUsed < 4) ∧
    (let r : CmdReq := cmd 2 1 25165824 0 0
     let s := atRest (up)
     let c := s.chip
     let kind := r.a0.toNat % 16
     Settled s ∧ takes rowUpdStage r c ∧ c.tixFull = false ∧ stageLimits kind r.a1.toNat = true ∧ kind = 1 ∧
       c.onTrial = false ∧ c.sys.changeover = false) ∧
    (let r : CmdReq := cmd 2 0 0 0 0
     let s := atRest ({ up with upd := { up.upd with slotA := { st := 2 } } })
     let c := s.chip
     Settled s ∧ takes rowUpdRevert r c ∧ c.tixFull = false ∧ c.sys.changeover = false ∧ c.onTrial = true) ∧
    (let r : CmdReq := cmd 2 0 0 0 0
     let s := atRest ({ up with
       pair := { up.pair with role := 1, pMode := 2, formed := true, j11Up := true } })
     let c := s.chip
     Settled s ∧ takes rowPairSwitch r c ∧ c.tixFull = false ∧ c.pair.role ≠ 2 ∧ c.sys.changeover = false ∧
       c.rdy rPAIR = true ∧ c.pair.pMode ≠ 0 ∧ c.pair.switching = false) ∧
    (let x : Staging := { ticket := 7, master := 2, kind := 2, len := 3, got := [1, 2, 3], done := true }
     let t : W16 := 7
     let s := atRest ({ up with
       upd := { up.upd with stagings := [{ ticket := 7, master := 2, kind := 2, len := 3, got := [1, 2, 3], done := true }] } })
     let c := s.chip
     Settled s ∧ c.staging t.toNat = some x ∧ x.done = true) := by
  dsimp only [Settled, modeHonest, quarNoted, fieldRuled, takes]; and_intros <;> decide +kernel

/-- Meets the hypotheses of the clauses of `Obligations.SamplesAndZeroCrossings`. -/
theorem met_SamplesAndZeroCrossings :
    (let k : Fin 8 := 7
     let t : TapNo := 127
     let s := atRest ({ words [(0x402FC, 0x23), (0x40100, 1), (0x40104, 1), (0x52000, 0xC0000000), (0x52004, 0x8180)] up with
       taps := [(0, { rms := 10 }), (1, { rms := 10 ^ 80 }), (127, { zcPos := 1 })],
       groups := [(7, { newest := 99992 })] })
     let c := s.chip
     Settled s ∧ c.power.off = false ∧ c.sys.stopAt = none ∧ (c.eng k.val).recMask = 0 ∧ c.cb (aTapMode
       t.val) 5 = true ∧ (c.tapMode t.val = mVOLT ∨ c.tapMode t.val = mCURR ∨ c.tapMode t.val = mROGO)) := by
  dsimp only [Settled, modeHonest, quarNoted, fieldRuled]; and_intros <;> decide +kernel

/-- Meets the hypotheses of the clauses of `Obligations.TapArbiter`. -/
theorem met_ComparisonsAndFaults :
    (let t : TapNo := 0
     let cls : BitVec 4 := 2
     let s := atRest ({ words [] up with taps := [(0, { arb := 0, fault := 5, held := 0x20 })] })
     let c := s.chip
     let n := t.val
     let x := c.tap n
     let mode := c.tapMode n
     let bit := fun (i : Nat) => (c.live (aTapMode n)).getLsbD i = true
     let fits := (cls = 1 ∧ c.oddOfPair n = false ∧ (mode = mLOOP ∨ mode = mRTD ∨ (bit 11 ∧ mode ∈ [mVOLT,
       mCURR, mROGO, mBRIDGE]))) ∨ (cls = 2 ∧ c.oddOfPair n = false ∧ (mode = mLOOP ∨ mode = mRTD)) ∨ (cls = 3
       ∧ mode ≠ mOFF) ∨ (cls = 4 ∧ mode = mLOOP) ∨ (cls = 5 ∧ ((mode = mLOOP ∧ bit 4) ∨ mode = mRTD ∨ mode =
       mBRIDGE))
     Settled s ∧ (mode = mOFF ∨ x.arb = 0) ∧ (x.arb = 0 ∨ ¬ fits)) ∧
    (let t : TapNo := 127
     let cls : BitVec 4 := 1
     let s := atRest ({ words [(0x402FC, 0x00000804)] up with
       taps := [(127, { arb := 3, refBusy := false })] })
     let c := s.chip
     let n := t.val
     let x := c.tap n
     let mode := c.tapMode n
     let bit := fun (i : Nat) => (c.live (aTapMode n)).getLsbD i = true
     let fits := (cls = 1 ∧ c.oddOfPair n = false ∧ (mode = mLOOP ∨ mode = mRTD ∨ (bit 11 ∧ mode ∈ [mVOLT,
       mCURR, mROGO, mBRIDGE]))) ∨ (cls = 2 ∧ c.oddOfPair n = false ∧ (mode = mLOOP ∨ mode = mRTD)) ∨ (cls = 3
       ∧ mode ≠ mOFF) ∨ (cls = 4 ∧ mode = mLOOP) ∨ (cls = 5 ∧ ((mode = mLOOP ∧ bit 4) ∨ mode = mRTD ∨ mode =
       mBRIDGE))
     Settled s ∧ mode ≠ mOFF ∧ x.arb ≠ 0 ∧ fits) := by
  dsimp only [Settled, modeHonest, quarNoted, fieldRuled]; and_intros <;> decide +kernel

/-- Meets the hypotheses of the clauses of `Obligations.TapArbiter`. -/
theorem met_ReferenceRounds :
    (let t : TapNo := 9
     let s := atRest ({ words [(0x40020, 0), (0x40124, 1)] up with taps := [(9, { arb := 1, winN := 0 })] })
     let c := s.chip
     let n := t.val
     let x := c.tap n
     Settled s ∧ x.arb ≠ 5 ∧ c.cb 0x40020 31 = false ∧ x.arb ≠ 2 ∧ x.refBusy = false) ∧
    (let t : TapNo := 9
     let s := atRest ({ words [(0x40020, 0x80000000), (0x40124, 1)] up with
       taps := [(9, { arb := 2, winN := 0, roundDue := true })] })
     let c := s.chip
     let n := t.val
     let x := c.tap n
     Settled s ∧ x.refBusy = false ∧ (x.arb = 1 ∨ x.arb = 2 ∨ x.arb = 3) ∧ c.cb 0x40020 31 = true ∧ x.arb = 2) ∧
    (let t : TapNo := 9
     let s := atRest ({ words [(0x40020, 0x80000000), (0x40124, 1)] up with
       taps := [(9, { arb := 5, winN := 1 })] })
     let c := s.chip
     let n := t.val
     let x := c.tap n
     Settled s ∧ x.refBusy = false ∧ x.arb = 5) ∧
    (let t : TapNo := 9
     let s := atRest ({ words [(0x40020, 0x80000000), (0x40124, 1)] up with
       taps := [(9, { arb := 1, refBusy := true })] })
     let c := s.chip
     let n := t.val
     let x := c.tap n
     Settled s ∧ x.refBusy = true) ∧
    (let t : TapNo := 9
     let s := atRest ({ words [(0x40020, 0x80000000), (0x40124, 1)] up with
       taps := [(9, { arb := 6, winN := 0, roundDue := true })] })
     let c := s.chip
     let n := t.val
     let x := c.tap n
     Settled s ∧ (x.arb = 0 ∨ x.arb = 4 ∨ x.arb = 6)) := by
  dsimp only [Settled, modeHonest, quarNoted, fieldRuled]; and_intros <;> decide +kernel

/-- Meets the hypotheses of the clauses of `Obligations.GatesAndHorizons`. -/
theorem met_GatesAndHorizons :
    (let k : Fin 8 := 7
     let g : Gate := { six := 64 }
     let rest : List Gate := []
     let s := atRest ({ words [(0x5001C, 0x80000000)] up with
       engs := [(7, { run := 3, c := 8, hpos := 128, gates := [{ six := 64 }], hz := [(0, 64), (1, 64), (2, 55), (3, 64)], stalled := true })],
       groups := [(7, { newest := 28680 })] })
     let c := s.chip
     let q := c.eng k.val
     Settled s ∧ (q.gates = [] ∨ (q.gates = g :: rest ∧ c.hznOk k.val g.six = false)) ∧ 2 ≤ q.run.toNat ∧
       q.run.toNat ≤ 4 ∧ 3584 ≤ c.commitLag k.val ∧ q.stalled = true ∧ q.head.busy = false ∧ q.c ≤ q.hpos ∧
       q.run ≠ 1 ∧ q.undoLen < 1024 ∧ q.binCount q.seg < 2048) ∧
    (let k : Fin 8 := 0
     let s := atRest ({ words [(0x5001C, 0x80000000)] up with
       engs := [(0, { run := 4, c := 8, hpos := 128 })],
       groups := [(0, { newest := 28680 })] })
     let c := s.chip
     let q := c.eng k.val
     Settled s ∧ 2 ≤ q.run.toNat ∧ q.run.toNat ≤ 4 ∧ 3584 ≤ c.commitLag k.val ∧ q.stalled = false) ∧
    (let k : Fin 8 := 7
     let g : Gate := { six := 64, ck := { x := [(1, 5)] } }
     let rest : List Gate := [{ six := 128 }]
     let s := atRest ({ words [(0x5001C, 0x80000000)] up with
       engs := [(7, { run := 2, c := 8, hpos := 128, gates := [{ six := 64, ck := { x := [(1, 5)] } }, { six := 128 }], hz := [(0, 64), (1, 64), (2, 64), (3, 64)], undo := [⟨8, 8, 3⟩, ⟨64, 8, 4⟩] })],
       groups := [(7, { newest := 128 })] })
     let c := s.chip
     let q := c.eng k.val
     Settled s ∧ q.gates = g :: rest ∧ c.hznOk k.val g.six = true ∧ c.stagingFull = false) := by
  dsimp only [Settled, modeHonest, quarNoted, fieldRuled]; and_intros <;> decide +kernel

/-- Meets the hypotheses of the clauses of `Obligations.SidestepsAndRecovery`. -/
theorem met_SidestepsAndRecovery :
    (let k : Fin 8 := 3
     let ev : CtxEv := { stamp := 63, src := 2 }
     let s := atRest ({ up with
       engs := [(3, { run := 4, c := 64, hpos := 128, mmRun := 1, mmAt := 120, head := { busy := false, six := 128 }, hz := [(2, 127)], ssEv := true })],
       groups := [(3, { newest := 127 })] })
     let c := s.chip
     let q := c.eng k.val
     Settled s ∧ q.run ≠ 0 ∧ ev.stamp ≤ Tbl.get 0 q.hz ev.src ∧ Tbl.get 0 q.hz ev.src ≠ 0 ∧ 2 ≤ q.run.toNat ∧
       q.run.toNat ≤ 4 ∧ ev.stamp < q.c ∧ (q.run = 2 ∨ q.run = 4) ∧ (q.mmAt ≠ q.hpos ∨ q.mmRun = 0) ∧
       q.head.inInit = false ∧ q.run = 4 ∧ (c.group k.val).newest < q.hpos ∧ q.head.busy = false) ∧
    (let k : Fin 8 := 3
     let ev : CtxEv := { stamp := 127, src := 2 }
     let s := atRest ({ up with
       engs := [(3, { run := 3, c := 64, hpos := 128, rpos := 128, ssG := 64, forceDue := true, head := { busy := false, six := 128 }, hz := [(2, 127)] })] })
     let c := s.chip
     let q := c.eng k.val
     let behind := if q.head.busy = true ∧ q.head.inInit = false then ev.stamp ≤ q.hpos else ev.stamp <
       q.hpos
     Settled s ∧ 2 ≤ q.run.toNat ∧ q.run.toNat ≤ 4 ∧ q.c ≤ ev.stamp ∧ behind ∧ q.forceDue = true ∧ q.run = 3
       ∧ q.hpos ≤ q.rpos ∧ q.rep.busy = false ∧ q.head.busy = false) ∧
    (let k : Fin 8 := 3
     let s := atRest ({ up with engs := [(3, { run := 0 })], groups := [(3, { newest := 127 })] })
     let c := s.chip
     let q := c.eng k.val
     Settled s ∧ q.run = 0) ∧
    (let k : Fin 8 := 3
     let ev : CtxEv := { stamp := 64, src := 2 }
     let s := atRest ({ up with engs := [(3, { run := 2, c := 64, hpos := 128, ck := { x := [(1, 5)] } })] })
     let c := s.chip
     let q := c.eng k.val
     let behind := if q.head.busy = true ∧ q.head.inInit = false then ev.stamp ≤ q.hpos else ev.stamp <
       q.hpos
     Settled s ∧ q.run = 2 ∧ q.c ≤ ev.stamp ∧ behind ∧ q.forceDue = false) ∧
    (let k : Fin 8 := 3
     let ev : CtxEv := { stamp := 128, src := 2 }
     let s := atRest ({ up with
       engs := [(3, { run := 2, c := 64, hpos := 128, gates := [{ six := 120, ck := { x := [(1, 5)], gatePos := some { pc := 5, six := 112 } } }], head := { busy := false, six := 128 }, hz := [(2, 127)] })] })
     let c := s.chip
     let q := c.eng k.val
     let behind := if q.head.busy = true ∧ q.head.inInit = false then ev.stamp ≤ q.hpos else ev.stamp <
       q.hpos
     Settled s ∧ 2 ≤ q.run.toNat ∧ q.run.toNat ≤ 4 ∧ q.c ≤ ev.stamp ∧ ¬ behind) := by
  dsimp only [Settled, modeHonest, quarNoted, fieldRuled]; and_intros <;> decide +kernel

/-- Meets the hypotheses of the clauses of `Obligations.EngineLoadsAndQuality`. -/
theorem met_EngineLoads :
    (let k : Fin 8 := 3
     let s := atRest ({ words [(0x5000C, 0x80050000)] up with
       engs := [(3, { run := 1, recMask := 5, recTicket := 9, recDrop := 7 })],
       lib := [(5, { installed := true, initAt := 7, bad1 := true })],
       tix := { next := 10, out := [{ no := 9 }] } })
     let c := s.chip
     let q := c.eng k.val
     let j := c.cf (aGate k.val) 16 8
     let sound := fun (x : TallyImg) => x.installed = true ∧ (x.bad1 = false ∨ x.bad2 = false)
     Settled s ∧ c.rdy rSV = true ∧ q.run = 1 ∧ q.reloaded = false ∧ q.head.inInit = false ∧ sound (c.img j)
       ∧ q.recMask ≠ 0) ∧
    (let k : Fin 8 := 3
     let s := atRest ({ words [(0x5000C, 0x80050000)] up with
       engs := [(3, { run := 1, reloaded := true, hpos := 64 })],
       groups := [(3, { newest := 63 })] })
     let c := s.chip
     let q := c.eng k.val
     Settled s ∧ q.run = 1 ∧ q.reloaded = true ∧ (c.group k.val).newest < q.hpos ∧ q.head.busy = false) ∧
    (let k : Fin 8 := 3
     let s := atRest ({ words [(0x5000C, 0x80050000)] up with
       engs := [(3, { run := 1 })],
       lib := [(5, { installed := true, initAt := 7, bad1 := true, bad2 := true })] })
     let c := s.chip
     let q := c.eng k.val
     let j := c.cf (aGate k.val) 16 8
     let sound := fun (x : TallyImg) => x.installed = true ∧ (x.bad1 = false ∨ x.bad2 = false)
     Settled s ∧ c.rdy rSV = true ∧ q.run = 1 ∧ q.reloaded = false ∧ q.head.inInit = false ∧ ¬ sound (c.img
       j)) ∧
    (let k : Fin 8 := 3
     let s := atRest ({ words [(0x5000C, 0x80050000)] up with
       engs := [(3, { run := 5, img := some 5, ckOk := false, c := 64 })],
       lib := [(5, { installed := true, initAt := 7, bad1 := true })] })
     let c := s.chip
     let q := c.eng k.val
     let i := q.img.getD 0
     let sound := fun (x : TallyImg) => x.installed = true ∧ (x.bad1 = false ∨ x.bad2 = false)
     Settled s ∧ c.rdy rSV = true ∧ c.sys.changeover = false ∧ q.run = 5 ∧ q.reloaded = false ∧ q.head.inInit
       = false ∧ sound (c.img i) ∧ q.ckOk = false) ∧
    (let k : Fin 8 := 3
     let s := atRest ({ words [(0x5000C, 0x80050000)] up with
       engs := [(3, { run := 5, reloaded := true, hpos := 64, restartTicket := 9 })],
       groups := [(3, { newest := 63 })],
       tix := { next := 10, out := [{ no := 9 }] } })
     let c := s.chip
     let q := c.eng k.val
     Settled s ∧ q.run = 5 ∧ q.reloaded = true ∧ (c.group k.val).newest < q.hpos ∧ q.head.busy = false) ∧
    (let k : Fin 8 := 3
     let s := atRest ({ words [(0x5000C, 0x80050000)] up with
       engs := [(3, { run := 5, img := some 5, ckOk := true, ck := { x := [(1, 5)], gatePos := some { pc := 5, six := 56 } }, c := 64 })],
       lib := [(5, { installed := true, initAt := 7 })] })
     let c := s.chip
     let q := c.eng k.val
     let i := q.img.getD 0
     let sound := fun (x : TallyImg) => x.installed = true ∧ (x.bad1 = false ∨ x.bad2 = false)
     Settled s ∧ c.rdy rSV = true ∧ c.sys.changeover = false ∧ q.run = 5 ∧ q.reloaded = false ∧ q.head.inInit
       = false ∧ sound (c.img i) ∧ q.ckOk = true) := by
  dsimp only [Settled, modeHonest, quarNoted, fieldRuled]; and_intros <;> decide +kernel

/-- Meets the hypotheses of the clauses of `Obligations.EngineLoadsAndQuality`. -/
theorem met_QualityRequests :
    (let m : MpNo := 0
     let raw : List W16 := [0x4010, 0]
     let z : Nat := 5
     let s := atRest (let c := { words ([(0x52000, 0xC0000000), (0x52004, 0x80), (0x52080, 0x80000000), (0x56000, 0x85000000), (0x56004, 0x02000800)]) up with
       groups := [(0, { newest := 64 })],
       engs := [(0, { run := 2 })] }; { c with bill := { c.bill with mps := [(0, { qreq := some 5, qfails := 1, qval := some (5, 3) })] } })
     let c := s.chip
     let x := c.bill.mp m.val
     let idle := ∀ j, j < 64 → c.qualPort j = c.qualPort m.val → (c.bill.mp j).qwait = false
     let value := c.qualValue m.val raw
     let lost := c.cf (0x56004 + 8 * m.val) 24 4
     Settled s ∧ x.qreq = some z ∧ idle ∧ isNaN value = false ∧ lost ≤ x.qfails + 1 ∧ x.qlost = false) ∧
    (let m : MpNo := 0
     let k : Nat := 0
     let s := atRest ({ words ([(0x52000, 0xC0000000), (0x52004, 0x80), (0x52080, 0x80000000), (0x56000, 0x80000000), (0x56004, 0x02000000)]) up with
       groups := [(0, { newest := 64 })] })
     let c := s.chip
     let x := c.bill.mp m.val
     let alone := ∀ j, j < 64 → c.qualPort j = c.qualPort m.val → (c.bill.mp j).qreq = none
     Settled s ∧ c.cb (0x56000 + 8 * m.val) 31 = true ∧ x.qreq = none ∧ c.mpEngine m.val = some k ∧ alone) ∧
    (let m : MpNo := 0
     let k : Nat := 0
     let s := atRest (let c := { words ([(0x52000, 0xC0000000), (0x52004, 0x80), (0x52080, 0x80000000), (0x56000, 0x80000000), (0x56004, 0x02000000)]) up with
       groups := [(0, { newest := 64 })] }; { c with bill := { c.bill with mps := [(63, { qreq := some 8 })] } })
     let c := s.chip
     let x := c.bill.mp m.val
     let alone := ∀ j, j < 64 → c.qualPort j = c.qualPort m.val → (c.bill.mp j).qreq = none
     Settled s ∧ c.cb (0x56000 + 8 * m.val) 31 = true ∧ x.qreq = none ∧ c.mpEngine m.val = some k ∧ ¬ alone) ∧
    (let m : MpNo := 0
     let z : Nat := 5
     let s := atRest (let c := { words ([(0x52000, 0xC0000000), (0x52004, 0x80), (0x52080, 0x80000000), (0x56000, 0x85000000), (0x56004, 0x02000800)]) up with
       groups := [(0, { newest := 64 })],
       engs := [(0, { run := 2 })] }; { c with bill := { c.bill with mps := [(0, { qreq := some 5, qfails := 0, qval := some (5, 3) })] } })
     let c := s.chip
     let x := c.bill.mp m.val
     let lost := c.cf (0x56004 + 8 * m.val) 24 4
     let idle := ∀ j, j < 64 → c.qualPort j = c.qualPort m.val → (c.bill.mp j).qwait = false
     Settled s ∧ x.qreq = some z ∧ idle ∧ (x.qfails + 1 < lost ∨ x.qlost = true)) := by
  dsimp only [Settled, modeHonest, quarNoted, fieldRuled]; and_intros <;> decide +kernel

/-- Meets the hypotheses of the clauses of `Obligations.ScheduledBoundaries`. -/
theorem met_ScheduledBoundaries :
    (let s := atRest ({ up with time := { up.time with valid := false } })
     let c := s.chip
     Settled s ∧ (c.time.valid = false ∨ c.rdy rSV = false)) ∧
    (let p : PendTime := { kind := 10, civil := 5, stamp := 64, tar := 9 }
     let rest : List PendTime := []
     let s := atRest ({ up with
       save := { up.save with pendTime := [{ kind := 10, civil := 5, stamp := 64, tar := 9 }] } })
     let c := s.chip
     Settled s ∧ c.save.pendTime = p :: rest ∧ p.stamp ≤ c.now ∧ (p.kind = 2 ∨ p.kind = 10)) ∧
    (let s := atRest ({ up with
       time := { up.time with pieces := [{ six := 100000, ns := 1799999999999000000 }] },
       bill := { up.bill with lastExec := [] } })
     let c := s.chip
     let u := c.nextBoundary c.demandCfg (c.execBase 0 (c.civil c.now))
     Settled s ∧ c.time.valid = true ∧ c.rdy rSV = true ∧ u ≤ c.civil c.now + 1000000000) ∧
    (let p : PendTime := { kind := 8, civil := 5, stamp := 64, no := 7 }
     let rest : List PendTime := []
     let s := atRest ({ up with
       save := { up.save with pendTime := [{ kind := 8, civil := 5, stamp := 64, no := 7 }] },
       engs := [(0, { run := 2, c := 63 })] })
     let c := s.chip
     Settled s ∧ c.save.pendTime = p :: rest ∧ p.stamp ≤ c.now ∧ (p.kind = 0 ∨ p.kind = 8) ∧ c.pendReached p
       = false) ∧
    (let p : PendTime := { kind := 3, civil := 5, stamp := 64, tar := 9 }
     let rest : List PendTime := []
     let s := atRest ({ up with
       save := { up.save with pendTime := [{ kind := 3, civil := 5, stamp := 64, tar := 9 }] },
       tariff := { up.tariff with act := [(0, 5)], pas := [(0, 7)], sched := some 5 } })
     let c := s.chip
     Settled s ∧ c.save.pendTime = p :: rest ∧ p.stamp ≤ c.now ∧ (p.kind = 3 ∨ p.kind = 11)) ∧
    (let p : PendTime := { kind := 0, civil := 5, stamp := 64, no := 7 }
     let rest : List PendTime := [{ kind := 2 }]
     let s := atRest ({ up with
       save := { up.save with pendTime := [{ kind := 0, civil := 5, stamp := 64, no := 7 }, { kind := 2 }] },
       bill := { up.bill with win := { up.bill.win with no := 3, qty := [(5, { v := 6 })], openSix := 32 } } })
     let c := s.chip
     let zero := ∃ e ∈ c.cfg.pend, e.kind = 0x101 ∧ e.applied = false ∧ e.stamp.getD 0 < p.stamp
     Settled s ∧ c.save.pendTime = p :: rest ∧ p.stamp ≤ c.now ∧ (p.kind = 0 ∨ p.kind = 8) ∧ c.pendReached p
       = true ∧ ¬ zero ∧ ((p.kind = 0 ∧ p.partl = false) ∨ c.bill.win.openSix ≠ p.done)) ∧
    (let p : PendTime := { kind := 9, civil := 5, stamp := 64, no := 7 }
     let rest : List PendTime := []
     let s := atRest ({ up with
       save := { up.save with pendTime := [{ kind := 9, civil := 5, stamp := 64, no := 7 }] },
       engs := [(0, { run := 2, c := 64 })],
       bill := { up.bill with qty := [(3, { v := 5 })], cost := [(4, { v := 1 })], maxd := [(3, {})] } })
     let c := s.chip
     let zero := ∃ e ∈ c.cfg.pend, e.kind = 0x101 ∧ e.applied = false ∧ e.stamp.getD 0 < p.stamp
     Settled s ∧ c.save.pendTime = p :: rest ∧ p.stamp ≤ c.now ∧ (p.kind = 1 ∨ p.kind = 4 ∨ p.kind = 9) ∧
       c.pendReached p = true ∧ ¬ zero ∧ c.bill.snaps = []) := by
  dsimp only [Settled, modeHonest, quarNoted, fieldRuled]; and_intros <;> decide +kernel

/-- Meets the hypotheses of the clauses of `Obligations.SessionsProfilesPulses`. -/
theorem met_SessionsProfilesPulses :
    (let m : MpNo := 63
     let ch : Fin 256 := 255
     let s := atRest ({ up with bill := { up.bill with sess := [(63, { no := 5, openSix := 64 })] } })
     let c := s.chip
     let x := c.session m.val
     let lw := c.live (0x60400 + 4 * ch.val)
     Settled s ∧ x.no ≠ 0 ∧ x.applied = false ∧ x.openSix ≤ c.now ∧ (lw.getLsbD 31 = false ∨ c.time.valid =
       false ∨ c.lpDue ch.val = none)) ∧
    (let m : MpNo := 63
     let slot : Fin 8 := 7
     let s := atRest ({ words [(0x55FF8, 0x80000000)] up with
       bill := { up.bill with spill := [(511, { phase := 1, backlog := 3 })] } })
     let c := s.chip
     let p := c.spill m.val slot.val
     let w := c.spillCfg m.val slot.val
     Settled s ∧ p.phase = 1 ∧ spillDrive w = none) ∧
    (let m : MpNo := 63
     let slot : Fin 8 := 7
     let s := atRest ({ words [(0x55FF8, 0x80000000)] up with
       bill := { up.bill with spill := [(511, { phase := 2, backlog := 3, acc := 9 })] } })
     let c := s.chip
     let p := c.spill m.val slot.val
     let w := c.spillCfg m.val slot.val
     Settled s ∧ p.phase = 2 ∧ p.backlog ≠ 0 ∧ w.getLsbD 31 = true ∧ c.spillFree w = true ∧ c.power.saving =
       false ∧ c.power.off = false ∧ c.sys.ready ≠ 1) ∧
    (let m : MpNo := 63
     let slot : Fin 8 := 7
     let s := atRest ({ words [(0x55FF8, 0x80000000)] up with
       bill := { up.bill with spill := [(511, { phase := 2, backlog := 0, acc := 9 })] } })
     let c := s.chip
     let p := c.spill m.val slot.val
     Settled s ∧ p.phase = 2 ∧ p.backlog = 0) ∧
    (let m : MpNo := 63
     let z : Nat := 64
     let s := atRest ({ up with
       bill := { up.bill with sess := [(63, { no := 5, openSix := 8, closeSix := some 64, applied := true, reason := 0x11 })] } })
     let c := s.chip
     let x := c.session m.val
     Settled s ∧ x.no ≠ 0 ∧ x.closeSix = some z ∧ z ≤ c.now ∧ c.mpLoads m.val = false ∧ ((∀ k ∈ c.mpEngine
       m.val, z ≤ (c.eng k).c))) ∧
    (let m : MpNo := 63
     let slot : Fin 8 := 7
     let n : Nat := 39
     let s := atRest ({ words [(0x55FF8, 0x800000A7)] up with
       bill := { up.bill with spill := [(511, { phase := 1, backlog := 3 })] },
       drv := { d := [(39, { cmd := true })] } })
     let c := s.chip
     let p := c.spill m.val slot.val
     let w := c.spillCfg m.val slot.val
     Settled s ∧ p.phase = 1 ∧ spillDrive w = some n) ∧
    (let ch : Fin 256 := 255
     let z : Nat := 100000
     let fwd : Bool := false
     let s := atRest ({ words [(0x607FC, 0x80000005)] up with
       bill := { up.bill with qty := [(5, { v := 2 ^ 70 })], lp := [(255, { last := 2 ^ 66, start := 64, at_ := 0 })] },
       time := { up.time with pieces := [{ six := 99999, ns := 1800000000000000000 }] } })
     let c := s.chip
     let lw := c.live (0x60400 + 4 * ch.val)
     let y := c.bill.lpc ch.val
     let through := ∀ k ∈ c.mpEngine (idMp (lw.toNat % 65536)), c.running.contains k = true → z ≤ (c.eng k).c
     Settled s ∧ lw.getLsbD 31 = true ∧ c.time.valid = true ∧ c.lpDue ch.val = some (z, fwd) ∧ z ≤ c.now ∧
       through ∧ ((∀ u ∈ y.cap, u.1 = z))) := by
  dsimp only [Settled, modeHonest, quarNoted, fieldRuled]; and_intros <;> decide +kernel

/-- Meets the hypotheses of the clauses of `Obligations.CivilAndPrecisionTime`. -/
theorem met_CivilTime :
    (let s := atRest ({ words [(0x80000, 0x80000000)] up with
       time := { up.time with slewRem := -7, ptp := { leap := -1 }, pieces := [{ six := 8, ns := 1800000000000000000 }] } })
     let c := s.chip
     let t := c.time
     Settled s ∧ ((∀ y' ∈ t.tz.head?, c.now < y'.stamp)) ∧ c.rdy rSV = true ∧ t.srcState = 0 ∧ c.power.off =
       false ∧ t.slewRem ≠ 0 ∧ t.ptp.leap ≠ 0 ∧ c.ptpOn = true ∧ t.valid = true) ∧
    (let x : PendStep := { stamp := 64, ofs := 5000000000 }
     let y : TzPend := { stamp := 64 }
     let rest : List TzPend := []
     let s := atRest ({ up with
       time := { up.time with step := some { stamp := 64, ofs := 5000000000 }, tz := [{ stamp := 64 }], slewRem := 7, pieces := [{ six := 8, ns := 1800000000000000000 }] },
       sys := { up.sys with te := false } })
     let c := s.chip
     let t := c.time
     Settled s ∧ t.step = some x ∧ x.stamp ≤ c.now ∧ x.ofs ≠ 0 ∧ t.tz = y :: rest ∧ y.stamp ≤ c.now) ∧
    (let s := atRest ({ up with sys := { up.sys with ready := 0xFFF7F } })
     let c := s.chip
     Settled s ∧ c.rdy rSV = false) := by
  dsimp only [Settled, modeHonest, quarNoted, fieldRuled]; and_intros <;> decide +kernel

/-- Meets the hypotheses of the clauses of `Obligations.CivilAndPrecisionTime`. -/
theorem met_PrecisionTime :
    (let src : W64 := 6
     let o : Int := -999
     let s := atRest ({ words [(0x80000, 0xC0050000)] up with
       time := { up.time with srcState := 3, offset := 1000000001, ptp := { parent := 5, syncs := 20, delay := 7, gmData := [3] } } })
     let c := s.chip
     let t := c.time
     Settled s ∧ c.ptpOn = true ∧ (t.srcState = 2 ∨ t.srcState = 3) ∧ src ≠ t.ptp.parent ∧ t.valid = true ∧
       -1000 < o ∧ o < 1000 ∧ t.srcState = 3 ∧ (1000000000 < t.offset ∨ t.offset < -1000000000) ∧ t.stepNeeded
       = false) ∧
    (let f : PtpFrame := { port := true, msg := .delay false 5 }
     let s := atRest ({ words [(0x80000, 0x80050000)] up with time := { up.time with srcState := 1 } })
     let c := s.chip
     let t := c.time
     Settled s ∧ (c.ptpOn = false ∨ f.port ≠ c.cb 0x80000 28 ∨ f.udp ≠ c.cb 0x80000 29 ∨ f.domain.toNat ≠
       c.cf 0x80000 16 8) ∧ c.ptpOn = true ∧ t.srcState.toNat < 2) ∧
    (let o : Int := 999
     let seq : W16 := 0xFFFF
     let s := atRest ({ words [(0x80000, 0xC0050000)] up with
       time := { up.time with srcState := 2, ptp := { parent := 5, syncs := 15, delay := 7, twoStep := true, seq := 0xFFFF, rx := 10 ^ 18 } } })
     let c := s.chip
     let t := c.time
     Settled s ∧ c.ptpOn = true ∧ (t.srcState = 2 ∨ t.srcState = 3) ∧ t.valid = true ∧ -1000 < o ∧ o < 1000 ∧
       t.ptp.twoStep = true ∧ t.ptp.seq = seq) := by
  dsimp only [Settled, modeHonest, quarNoted, fieldRuled]; and_intros <;> decide +kernel

/-- Meets the hypotheses of the clauses of `Obligations.SuppliesAndHousekeeping`. -/
theorem met_SuppliesAndHousekeeping :
    (let s := atRest ({ up with
       power := { up.power with auxOk := true, testRun := true, testTicket := 7 },
       tix := { next := 8, out := [{ no := 7 }] } })
     let c := s.chip
     let p := c.power
     Settled s ∧ c.powered = true ∧ p.auxOk = true ∧ p.onAux = false ∧ (c.powered = false ∨ p.testRun = true
       ∨ (c.testHour = false ∧ p.testDue = false ∧ p.testTicket = 0)) ∧ p.testRun = true ∧ p.off = false ∧
       p.hkSilent = false ∧ c.rdy rSV = true) ∧
    (let s := atRest ({ up with power := { up.power with testDue := true } })
     let c := s.chip
     let p := c.power
     Settled s ∧ c.powered = true ∧ p.testRun = false ∧ (c.testHour = true ∨ p.testDue = true) ∧ c.mayTest =
       true) ∧
    (let s := atRest ({ up with power := { up.power with testDue := true, holdupChg := true } })
     let c := s.chip
     let p := c.power
     Settled s ∧ c.powered = true ∧ p.testRun = false ∧ (c.testHour = true ∨ p.testDue = true) ∧ c.mayTest =
       false) := by
  dsimp only [Settled, modeHonest, quarNoted, fieldRuled]; and_intros <;> decide +kernel

/-- Meets the hypotheses of the clauses of `Obligations.PowerLossAndRestart`. -/
theorem met_PowerLossAndRestart :
    (let s := atRest ({ up with sys := { up.sys with starting := true, ready := 0xFFFEF } })
     let c := s.chip
     let p := c.power
     Settled s ∧ c.powered = true ∧ p.pAt = none ∧ c.sys.starting = true ∧ c.startMissing ≠ 0) ∧
    (let z : Nat := 99208
     let s := atRest ({ up with
       time := { up.time with six := 99200 },
       power := { up.power with saving := true, pAt := some 99208 } })
     let c := s.chip
     let p := c.power
     Settled s ∧ p.saving = true ∧ p.off = false ∧ p.pAt = some z) ∧
    (let s := atRest ({ up with sys := { up.sys with starting := true } })
     let c := s.chip
     Settled s ∧ c.sys.starting = true ∧ c.startMissing = 0) ∧
    (let s := atRest ({ up with
       time := { up.time with six := 99200 },
       save := { up.save with journal := [] } })
     let c := s.chip
     Settled s ∧ c.powered = true ∧ c.now % 3200 = 0) ∧
    (let s := atRest ({ up with
       time := { up.time with six := 99200 },
       power := { up.power with off := true } })
     let c := s.chip
     let p := c.power
     Settled s ∧ p.off = true) := by
  dsimp only [Settled, modeHonest, quarNoted, fieldRuled]; and_intros <;> decide +kernel

/-- Meets the hypotheses of the clauses of `Obligations.EventsAndLedger`. -/
theorem met_EventPersistence :
    (let x : EvtEntry := { code := 5, rsv := true, six := 64 }
     let s := atRest ({ up with
       evt := { up.evt with ring := [{ code := 5, rsv := true, six := 64 }], srcAt := some 68000, src := [(5, { cnt := 3, dirty := true })] } })
     let c := s.chip
     let open_ := fun (y : EvtEntry) => y ∈ c.evt.ring ∧ y.persisted = false
     Settled s ∧ c.evt.nextPersist = some x ∧ ((∀ y ∈ c.evt.ring, y.persisted = false → y.ovr = false)) ∧
       open_ x ∧ x.rsv = true ∧ c.rdy rSV = true ∧ ((∀ z, c.evt.srcAt = some z → z + 32000 ≤ c.now))) ∧
    (let s := atRest ({ up with
       evt := { up.evt with srcAt := some 68001 },
       sys := { up.sys with ready := 0xFFF7F } })
     let c := s.chip
     Settled s ∧ c.evt.nextPersist = none ∧ ((∃ z, c.evt.srcAt = some z ∧ c.now < z + 32000)) ∧ c.rdy rSV =
       false) := by
  dsimp only [Settled, modeHonest, quarNoted, fieldRuled]; and_intros <;> decide +kernel

/-- Meets the hypotheses of the clauses of `Obligations.TamperSamples`. -/
theorem met_TamperSamples :
    (let mesh : Bool := true
     let s := atRest ({ up with
       power := { up.power with off := true },
       key := { up.key with kekSeed := 1 } })
     let c := s.chip
     let t := c.tamper
     Settled s ∧ mesh = true ∧ t.mesh = false ∧ (c.power.off = true ∨ c.power.saving = true) ∧ c.key.lc ≠ 0 ∧
       c.key.lc ≠ 4) ∧
    (let mesh : Bool := false
     let s := atRest ({ up with
       tamper := { up.tamper with coverRun := 3, sealRun := 2, lswRun := 3, magOver := 2 } })
     let c := s.chip
     let t := c.tamper
     Settled s ∧ (mesh = false ∨ t.mesh = true)) ∧
    (let mesh : Bool := true
     let s := atRest ({ up with
       tamper := { up.tamper with coverRun := 3, sealRun := 2, lswRun := 3, magUnder := 2, recs := [(3, { holders := [(0xFF, 5)] })] } })
     let c := s.chip
     let t := c.tamper
     Settled s ∧ mesh = true ∧ t.mesh = false ∧ c.power.off = false ∧ c.power.saving = false ∧ c.key.lc ≠ 0 ∧
       c.key.lc ≠ 4) := by
  dsimp only [Settled, modeHonest, quarNoted, fieldRuled]; and_intros <;> decide +kernel

/-- Meets the hypotheses of the clauses of `Obligations.EventsAndLedger`. -/
theorem met_LedgerChain :
    (let s := atRest (up)
     let c := s.chip
     let g := c.ledger
     Settled s ∧ g.closed = false ∧ (c.rdy rSV = false ∨ g.staging = [])) ∧
    (let r : LedgerRec := { kind := 7, six := 64, payload := [1] }
     let l : List LedgerRec := [{ kind := 8 }]
     let s := atRest ({ up with
       ledger := { up.ledger with staging := [{ kind := 7, six := 64, payload := [1] }, { kind := 8 }] } })
     let c := s.chip
     let g := c.ledger
     Settled s ∧ c.rdy rSV = true ∧ g.staging = r :: l ∧ c.ledgerWaits = false ∧ g.used + r.len ≤ 6442450944) ∧
    (let r : LedgerRec := { kind := 7, six := 64, payload := [1] }
     let l : List LedgerRec := [{ kind := 8 }]
     let s := atRest ({ words mpWords up with
       engs := [(0, { run := 2, c := 63 })],
       ledger := { up.ledger with staging := [{ kind := 7, six := 64, payload := [1] }, { kind := 8 }] } })
     let c := s.chip
     let g := c.ledger
     Settled s ∧ g.staging = r :: l ∧ ((∃ k ∈ c.running, (c.eng k).c < r.six.toNat))) := by
  dsimp only [Settled, modeHonest, quarNoted, fieldRuled]; and_intros <;> decide +kernel

/-- Meets the hypotheses of the clauses of `Obligations.FerryQueues`. -/
theorem met_FerryQueues :
    (let m : Master5 := 0
     let q : Fin 8 := 6
     let s := atRest ({ up with ferry := [(6, { owner := some 0, parity := false })] })
     let c := s.chip
     let f := c.fq q.val
     let a := 0xA0010 + 0x20 * q.val
     Settled s ∧ writes m a 0x10000000 c ∧ f.owner ≠ none ∧ writes m a 0x20000000 c ∧ f.owner = some m.val ∧
       writes m a 0x30000000 c ∧ q ≠ 3 ∧ f.holdBuf = [] ∧ reads m (0xA0000 + 0x20 * q.val) c ∧ m = 0 ∧ f.owner
       = some 0 ∧ f.owed = 0 ∧ f.inParity = false ∧ f.cur = [] ∧ f.drain = [] ∧ f.fill = [] ∧ (f.leaving =
       false ∨ f.drain ≠ [] ∨ f.cur ≠ [] ∨ f.fill = [])) ∧
    (let q : Fin 8 := 6
     let p : List W32 := [4, 5]
     let s := atRest ({ up with ferry := [(6, { owner := some 1, parity := false, holdBuf := [[4, 5]] })] })
     let c := s.chip
     let f := c.fq q.val
     Settled s ∧ f.testing = false ∧ f.holdBuf = [p] ∧ f.fill = [] ∧ f.drain = [] ∧ f.cur = [] ∧ p.length ≤
       1024 ∧ f.owner ≠ none ∧ c.holds q.val = true ∧ q ≠ 2 ∧ q ≠ 7 ∧ f.stalled = false) ∧
    (let m : Master5 := 2
     let q : Fin 8 := 7
     let s := atRest (up)
     let c := s.chip
     let f := c.fq q.val
     let a := 0xA0010 + 0x20 * q.val
     Settled s ∧ writes m a 0x10000000 c ∧ f.owner = none ∧ claimRole q.val ≤ c.roleNo m.val ∧ c.rdy rSV =
       true) ∧
    (let m : Master5 := 1
     let q : Fin 8 := 6
     let p : List W32 := [4, 5]
     let g : Ferry := (Ferry.popPkt { owner := some 1, drain := [[4, 5], [6]] }).2.1
     let s := atRest ({ up with ferry := [(6, { owner := some 1, drain := [[4, 5], [6]] })] })
     let c := s.chip
     let f := c.fq q.val
     Settled s ∧ m ≠ 0 ∧ f.owner = some m.val ∧ (c.master m.val).conn = true ∧ f.popPkt = (some p, g, false)
       ∧ f.holdBuf = [] ∧ q ≠ 3) ∧
    (let q : Fin 8 := 6
     let s := atRest ({ up with ferry := [(6, { owner := some 1, leaving := true, fill := [[4, 5]] })] })
     let c := s.chip
     let f := c.fq q.val
     Settled s ∧ q ≠ 3 ∧ f.holdBuf = [] ∧ f.leaving = true ∧ f.drain = [] ∧ f.cur = [] ∧ f.fill ≠ []) ∧
    (let m : Master5 := 0
     let q : Fin 8 := 6
     let p : List W32 := []
     let l : List (List W32) := [[5, 6]]
     let w : W32 := 1
     let s := atRest ({ up with
       ferry := [(6, { owner := some 0, parity := false, drain := [[1], [5, 6]] })] })
     let c := s.chip
     let f := c.fq q.val
     Settled s ∧ reads m (0xA0000 + 0x20 * q.val) c ∧ m = 0 ∧ f.owner = some 0 ∧ q ≠ 3 ∧ f.holdBuf = [] ∧
       f.owed = 0 ∧ f.inParity = false ∧ f.cur = [] ∧ f.drain = (w :: p) :: l) ∧
    (let m : Master5 := 0
     let q : Fin 8 := 6
     let p : List W32 := [3]
     let w : W32 := 1
     let x : W32 := 2
     let s := atRest ({ up with
       ferry := [(6, { owner := some 0, parity := false, cur := [1, 2, 3], curPkt := [1, 2, 3] })] })
     let c := s.chip
     let f := c.fq q.val
     Settled s ∧ reads m (0xA0000 + 0x20 * q.val) c ∧ m = 0 ∧ f.owner = some 0 ∧ q ≠ 3 ∧ f.holdBuf = [] ∧
       f.owed = 0 ∧ f.inParity = false ∧ f.cur = w :: x :: p) := by
  dsimp only [Settled, modeHonest, quarNoted, fieldRuled, writes, reads]; and_intros <;> decide +kernel

/-- Meets the hypotheses of the clauses of `Obligations.DisplayButtons`. -/
theorem met_DisplayButtons :
    (let s := atRest (up)
     let c := s.chip
     let p := c.disp
     Settled s ∧ c.dispHeld = false ∧ p.alt = false ∧ c.altPages = 0 ∧ p.test = 0 ∧ p.hold = false) ∧
    (let s := atRest ({ words [(0xB0000, 0), (0xB01F8 + 0x100, 0xC0000000)] up with
       disp := { up.disp with hold := true, page := 3 } })
     let c := s.chip
     let p := c.disp
     Settled s ∧ c.dispHeld = false ∧ 0 < c.altPages ∧ p.test = 0 ∧ p.hold = true ∧ p.alt = false ∧ c.cb
       0xB0000 31 = false) ∧
    (let s := atRest ({ up with disp := { up.disp with test := 2 } })
     let c := s.chip
     let p := c.disp
     Settled s ∧ c.dispHeld = false ∧ p.test = 2) ∧
    (let s := atRest ({ up with sys := { up.sys with changeover := true } })
     let c := s.chip
     Settled s ∧ c.dispHeld = true) ∧
    (let s := atRest ({ up with disp := { up.disp with test := 1, alt := true } })
     let c := s.chip
     let p := c.disp
     Settled s ∧ c.dispHeld = false ∧ p.test = 1) ∧
    (let s := atRest ({ up with
       time := { up.time with six := 1920000 },
       disp := { up.disp with alt := true, page := 2 } })
     let c := s.chip
     let p := c.disp
     let old := decide (p.pressAt + 1920000 ≤ c.now)
     Settled s ∧ c.dispHeld = false ∧ p.test = 0 ∧ p.hold = false ∧ p.alt = true ∧ old = true) := by
  dsimp only [Settled, modeHonest, quarNoted, fieldRuled]; and_intros <;> decide +kernel

/-- Meets the hypotheses of the clauses of `Obligations.DriveConditions`. -/
theorem met_DriveConditions :
    (let b : Bool := false
     let n : DriveNo := 39
     let m : Master5 := 2
     let k : Fin 3 := 2
     let v : W32 := 0x00FF00FF
     let s := atRest ({ words [(0xD0000, 0x20000000), (0xD019C, 0x83300000)] up with
       drv := { d := [(39, { cmd := true, phase := 0 })] } })
     let c := s.chip
     let x := c.drive n.val
     let tests := n.val < 40 ∧ c.driveOn n.val = true ∧ c.driveLimit n.val = false ∧ c.inLamp n.val = false
     let routine := c.cb (aDcfg n.val) 24 = true ∧ x.testing = 0
     Settled s ∧ (if b then c.drv.uvB else c.drv.uvA) = false ∧ c.driveOn n.val = true ∧ c.inLamp n.val =
       false ∧ x.ocWait = false ∧ x.therm = false ∧ x.ticket = 0 ∧ x.testing = 0 ∧ tests ∧ c.cb (aDcfg n.val)
       25 = true ∧ x.testRetry = false ∧ routine ∧ c.cb 0xD0000 29 = true ∧ writes m (0xD0200 + 4 * k.val) v c
       ∧ ((∀ i, i < 16 → (c.drive (16 * k.val + i)).testing = 0)) ∧ c.drv.lost = true) ∧
    (let n : DriveNo := 39
     let s := atRest ({ words [(0xD019C, 0x80300000)] up with
       drv := { lost := false, holdEn := true, d := [(39, { cmd := true, phase := 0 })] } })
     let c := s.chip
     let x := c.drive n.val
     let tests := n.val < 40 ∧ c.driveOn n.val = true ∧ c.driveLimit n.val = false ∧ c.inLamp n.val = false
     Settled s ∧ x.ticket = 0 ∧ x.testing = 0 ∧ tests ∧ c.cb (aDcfg n.val) 25 = false ∧ c.drv.lost = false ∧
       c.drv.holdEn = true ∧ c.pair.formed = false) ∧
    (let s := atRest ({ words [(0xD019C, 0x80300000)] up with
       drv := { lost := false, holdEn := false, d := [(39, { cmd := true, phase := 0 })] } })
     let c := s.chip
     Settled s ∧ c.drv.lost = false ∧ (c.drv.holdEn = false ∨ c.pair.formed = true)) ∧
    (let n : DriveNo := 39
     let s := atRest ({ words [(0xD0000, 0x20000000), (0xD019C, 0x86300000)] up with
       drv := { d := [(39, { cmd := true, phase := 0, onAt := some 100000 })] } })
     let c := s.chip
     Settled s ∧ c.inLamp n.val = true) ∧
    (let n : DriveNo := 39
     let s := atRest ({ words [(0xD019C, 0x80300000)] up with
       drv := { d := [(39, { cmd := true, phase := 0, retryLeft := 0, incRun := 9, testRetry := true })], lost := true } })
     let c := s.chip
     let x := c.drive n.val
     let tests := n.val < 40 ∧ c.driveOn n.val = true ∧ c.driveLimit n.val = false ∧ c.inLamp n.val = false
     Settled s ∧ x.ticket = 0 ∧ x.testing = 0 ∧ tests ∧ x.testRetry = true ∧ c.drvOwner n.val ≠ 3) ∧
    (let n : DriveNo := 39
     let s := atRest ({ words [(0xD0000, 0x20000000), (0xD019C, 0x83300000)] up with
       drv := { d := [(39, { cmd := true, phase := 0, retryLeft := 0, incRun := 9, testRetry := true, ocWait := true })], holdEn := false } })
     let c := s.chip
     let x := c.drive n.val
     Settled s ∧ x.ocWait = true) := by
  dsimp only [Settled, modeHonest, quarNoted, fieldRuled, writes]; and_intros <;> decide +kernel

/-- Meets the hypotheses of the clauses of `Obligations.BayConditions`. -/
theorem met_BayConditions :
    (let q : V2gReq := { msg := 0 }
     let p : Fin 2 := 1
     let id : W32 := 0x1FFF08FF
     let y : ModemStatus := { status := 3, crc := crc16 [3] }
     let a : V2gAns := {}
     let tx : List V2gAns := [{ msg := 4 }]
     let s := atRest ({ words [(0xC0000, 0xF8000001), (0xC000C, 0x80000648), (0xC0024, 0x80000009)] up with
       pair := { role := 1 },
       bay := { run := 2, v2gConn := true, modemUp := some 0, modemTx := [{}, { msg := 4 }] } })
     let c := s.chip
     let g := c.bay
     let up := c.v2gEn = true ∧ g.modemUp.any (fun z => decide (z ≤ c.now)) = true
     Settled s ∧ g.run ≠ 1 ∧ g.run ≠ 4 ∧ c.pilotEn = true ∧ c.ppEn = true ∧ c.v2gEn = true ∧ c.pair.role ≠ 2
       ∧ c.sys.changeover = false ∧ g.run ≠ 3 ∧ v2gForeign q = true ∧ c.canAccepts p.val id = false ∧ c.canEn
       p.val = true ∧ c.imdEn = true ∧ (g.run = 2 ∨ g.run = 3) ∧ c.rdy rSV = true ∧ g.v2gHeld = [] ∧ c.bayStale
       = true ∧ up ∧ y.crc = crc16 [y.status] ∧ y.status.getLsbD 1 = true ∧ g.modemTx = a :: tx) ∧
    (let y : ModemStatus := { status := 3, crc := crc16 [3] }
     let s := atRest ({ words [(0xC0000, 0xF8000001), (0xC000C, 0x80000648), (0xC0024, 0x80000009)] up with
       sys := { up.sys with changeover := true },
       bay := { run := 1, lib := [(1, { installed := true, initAt := 5, bytes := [1] })] } })
     let c := s.chip
     let g := c.bay
     let x := c.bayImg (c.cf 0xC0000 0 2)
     let up := c.v2gEn = true ∧ g.modemUp.any (fun z => decide (z ≤ c.now)) = true
     Settled s ∧ c.rdy rSV = true ∧ (g.run = 1 ∨ g.run = 4) ∧ x.installed = true ∧ (x.bad1 && x.bad2) = false
       ∧ c.v2gEn = true ∧ c.pair.role ≠ 2 ∧ (c.sys.changeover = true ∨ g.run = 3) ∧ (c.sys.changeover = true ∨
       c.rdy rSV = false) ∧ (¬ up ∨ y.crc ≠ crc16 [y.status]) ∧ ¬ up) ∧
    (let n : Fin 16 := 15
     let q : V2gReq := { msg := 9 }
     let p : Fin 2 := 1
     let id : W32 := 0x00000900
     let s := atRest ({ words [(0xC0000, 0xF8000001), (0xC000C, 0x80000648), (0xC0024, 0x80000009)] up with
       bay := { run := 4, timers := [(15, 5)], lib := [(1, { installed := true, initAt := 5, bytes := [1] })], modemUp := some 5, modemTx := [{}, { msg := 4 }], v2gConn := true } })
     let c := s.chip
     let g := c.bay
     let port := c.canPort p.val
     Settled s ∧ Tbl.get 0 g.timers n.val ≠ 0 ∧ c.v2gEn = true ∧ c.pair.role ≠ 2 ∧ c.sys.changeover = false ∧
       g.run ≠ 3 ∧ q.msg ∈ [1, 2, 3, 4, 6, 8, 9] ∧ v2gForeign q = false ∧ c.canAccepts p.val id = true ∧
       id.toNat / 2 ^ 18 % 256 ≠ 0x3F ∧ port.rx.length < 64 ∧ c.rdy rSV = true ∧ g.v2gHeld = [] ∧ c.bayStale =
       false) ∧
    (let s := atRest (up)
     let c := s.chip
     Settled s ∧ c.pilotEn = false) ∧
    (let p : Fin 2 := 1
     let id : W32 := 0x00000900
     let s := atRest ({ words [(0xC0000, 0xF8000001), (0xC000C, 0x80000648), (0xC0024, 0x80000009)] up with
       bay := { run := 2, can := [(1, { rx := List.replicate 64 [] })] } })
     let c := s.chip
     let port := c.canPort p.val
     Settled s ∧ c.canAccepts p.val id = true ∧ id.toNat / 2 ^ 18 % 256 ≠ 0x3F ∧ 64 ≤ port.rx.length) ∧
    (let y : ModemStatus := { status := 1, crc := crc16 [1] }
     let s := atRest ({ words [(0xC0000, 0xF8000001), (0xC000C, 0x80000648), (0xC0024, 0x80000009)] up with
       bay := { run := 3, pilotState := 5, pp := 15, modemUp := some 100000, can := [(1, { rx := List.replicate 64 [] })], v2gHeld := [{ msg := 1 }] } })
     let c := s.chip
     let g := c.bay
     let up := c.v2gEn = true ∧ g.modemUp.any (fun z => decide (z ≤ c.now)) = true
     Settled s ∧ up ∧ y.crc = crc16 [y.status] ∧ y.status.getLsbD 1 = false) ∧
    (let s := atRest ({ words [(0xC0000, 0xF8000001), (0xC000C, 0x80000648), (0xC0024, 0x80000009)] up with
       sys := { up.sys with ready := 0xFFF7F },
       bay := { run := 1, timers := [(15, 1)], lib := [(1, { installed := true, initAt := 5, bytes := [1] })], modemUp := some 100001, modemTx := [{}] } })
     let c := s.chip
     Settled s ∧ c.rdy rSV = false) := by
  dsimp only [Settled, modeHonest, quarNoted, fieldRuled]; and_intros <;> decide +kernel

/-- Meets the hypotheses of the clauses of `Obligations.SafetyZones`. -/
theorem met_SafetyZones :
    (let t : Nat := 35999
     let s := atRest (up)
     let c := s.chip
     Settled s ∧ (c.safe.ackHigh = none ∨ (c.safe.ackHigh = some t ∧ (c.now < t + 6400 ∨ t + 64000 < c.now)))
       ∧ c.safe.ackHigh = none) ∧
    (let t : Nat := 93600
     let s := atRest ({ up with
       safe := { up.safe with ackHigh := some 93600, edge := { zones := [(0, { st := 4 })] } } })
     let c := s.chip
     Settled s ∧ c.safe.ackHigh = some t ∧ t + 6400 ≤ c.now ∧ c.now ≤ t + 64000 ∧ c.safe.ackStuck = false ∧
       c.safe.global = 0) := by
  dsimp only [Settled, modeHonest, quarNoted, fieldRuled]; and_intros <;> decide +kernel

/-- Meets the hypotheses of the clauses of `Obligations.SafetyChannels`. -/
theorem met_SafetyChannels :
    (let e : Bool := true
     let stuck : StuckSeen := { pulse := 0x80, cut := 0x80 }
     let s := atRest ({ up with safe := { up.safe with edgeUp := false, adopted := none } })
     let c := s.chip
     let g := c.safe
     let bits := (stuck.pulse &&& c.energised) ||| (stuck.cut &&& ~~~ c.energised)
     Settled s ∧ (c.sfRuns = false ∨ g.edgeUp = false) ∧ g.sfUp = true ∧ (g.global.getLsbD 7 = false ∨ g.sfUp
       = true ∨ c.rdy rSV = false) ∧ g.edgeUp = false ∧ (c.chanRuns e = false ∨ bits &&& ~~~ g.stuck = 0) ∧
       c.sfRuns = true) ∧
    (let s := atRest ({ up with
       safe := { up.safe with adopted := none, sfUp := false, global := 0x80, edge := { zones := [(0, { st := 2 })] } } })
     let c := s.chip
     let g := c.safe
     Settled s ∧ g.sfUp = false ∧ g.global.getLsbD 7 = true ∧ c.rdy rSV = true ∧ g.edgeUp = true ∧ c.sfRuns =
       false) ∧
    (let e : Bool := false
     let stuck : StuckSeen := { pulse := 0x80, cut := 0x80 }
     let s := atRest ({ up with
       safe := { up.safe with agreeing := 999, sf := { zones := [(0, { st := 2 })] }, edge := { zones := [(0, { st := 2 })] } } })
     let c := s.chip
     let g := c.safe
     let bits := (stuck.pulse &&& c.energised) ||| (stuck.cut &&& ~~~ c.energised)
     Settled s ∧ c.sfRuns = true ∧ g.edgeUp = true ∧ c.chanRuns e = true ∧ bits &&& ~~~ g.stuck ≠ 0) := by
  dsimp only [Settled, modeHonest, quarNoted, fieldRuled]; and_intros <;> decide +kernel

/-- Meets the hypotheses of the clauses of `Obligations.EombelanConnections`. -/
theorem met_EombelanConnections :
    (let i : Fin 16 := 15
     let f : List W8 := let b : List W8 := [0x82, 4, 4, 0, 100, 0, 9, 0, 3, 0]; b ++ wordBytes (crc32esc 7 b)
     let s := atRest ({ words [(0x40, 5)] up with
       safe := { up.safe with table := [(0x1280F0, 0x80000064), (0x1280F4, 7)], conns := [(15, { st := 2, lastAcc := 4, cntDup := 0xFF })] } })
     let c := s.chip
     let x := c.conn i.val
     let ty := (f.getD 0 0).toNat
     let seq := frU16 f 2
     let formed := c.sfRuns = true ∧ c.escEn i.val = true ∧ (x.st = 1 ∨ x.st = 2) ∧ f.getD 1 0 = 4 ∧ f.length
       = 14 ∧ (c.escA i.val).toNat / 2 ^ 28 % 4 ≠ 2 ∧ ty / 16 % 8 = 0 ∧ (ty % 16 = 1 ∨ ty % 16 = 2)
     let checks := crc32esc (c.escId i.val) (f.take 10) = BitVec.ofNat 32 (leAt f 10 4) ∧ (128 ≤ ty ↔
       c.escSide i.val = false) ∧ leAt f 4 2 = c.escWd i.val
     let free := c.sfRuns = true ∧ x.sentAt.all (fun z => decide (z + 32 ≤ c.now)) = true
     Settled s ∧ formed ∧ checks ∧ ty % 16 = 2 ∧ x.st = 2 ∧ seq = x.lastAcc ∧ free ∧ c.sfRuns = true ∧ (x.st
       = 1 ∨ x.st = 2)) ∧
    (let i : Fin 16 := 15
     let s := atRest ({ words [] up with
       safe := { up.safe with table := [(0x1280F0, 0x80000064), (0x1280F4, 7)], conns := [(15, { st := 3 })] } })
     let c := s.chip
     let x := c.conn i.val
     Settled s ∧ x.st ≠ 1 ∧ x.st ≠ 2 ∧ c.sfRuns = true ∧ x.st = 3 ∧ c.postNo = 0) ∧
    (let i : Fin 16 := 15
     let f : List W8 := let b : List W8 := [0x81, 4, 0, 0, 100, 0, 9, 0, 3, 0]; b ++ wordBytes (crc32esc 7 b)
     let s := atRest ({ words [(0x40, 5)] up with
       safe := { up.safe with table := [(0x1280F0, 0x80000064), (0x1280F4, 7)], conns := [(15, { st := 1, seq := 0xFFFF, lastAcc := 4, sent := [(9, 96800)] })] } })
     let c := s.chip
     let x := c.conn i.val
     let ty := (f.getD 0 0).toNat
     let formed := c.sfRuns = true ∧ c.escEn i.val = true ∧ (x.st = 1 ∨ x.st = 2) ∧ f.getD 1 0 = 4 ∧ f.length
       = 14 ∧ (c.escA i.val).toNat / 2 ^ 28 % 4 ≠ 2 ∧ ty / 16 % 8 = 0 ∧ (ty % 16 = 1 ∨ ty % 16 = 2)
     let checks := crc32esc (c.escId i.val) (f.take 10) = BitVec.ofNat 32 (leAt f 10 4) ∧ (128 ≤ ty ↔
       c.escSide i.val = false) ∧ leAt f 4 2 = c.escWd i.val
     let known := ∃ p ∈ x.sent, p.1 = frU16 f 6 ∧ c.now ≤ p.2 + 32 * c.escWd i.val
     let free := c.sfRuns = true ∧ x.sentAt.all (fun z => decide (z + 32 ≤ c.now)) = true
     Settled s ∧ formed ∧ checks ∧ known ∧ x.st = 1 ∧ c.postNo ≠ 0 ∧ free) ∧
    (let i : Fin 16 := 15
     let s := atRest ({ words [(0x40, 5)] up with
       safe := { up.safe with table := [(0x1280F0, 0x80000064), (0x1280F4, 7)], conns := [(15, { st := 0 })] } })
     let c := s.chip
     let x := c.conn i.val
     Settled s ∧ (c.escEn i.val = false ∨ x.st = 0)) ∧
    (let s := atRest ({ words [(0x40, 5)] up with
       safe := { up.safe with table := [(0x1280F0, 0x80000064), (0x1280F4, 7)], sfUp := false, conns := [(15, { st := 2 })] } })
     let c := s.chip
     Settled s ∧ c.sfRuns = false) ∧
    (let i : Fin 16 := 15
     let s := atRest ({ words [(0x40, 5)] up with
       safe := { up.safe with table := [(0x1280F0, 0x80000064), (0x1280F4, 7)], conns := [(15, { st := 2, sentAt := some 99990 })] } })
     let c := s.chip
     let x := c.conn i.val
     let free := c.sfRuns = true ∧ x.sentAt.all (fun z => decide (z + 32 ≤ c.now)) = true
     Settled s ∧ c.sfRuns = true ∧ ¬ free ∧ (x.st = 2 ∨ (x.st = 1 ∧ c.postNo ≠ 0))) ∧
    (let i : Fin 16 := 15
     let f : List W8 := let b : List W8 := [0x82, 4, 6, 0, 100, 0, 9, 0, 3, 0]; b ++ wordBytes (crc32esc 7 b)
     let s := atRest ({ words [(0x40, 5)] up with
       safe := { up.safe with table := [(0x1280F0, 0x80000064), (0x1280F4, 7)], conns := [(15, { st := 2, lastAcc := 4, cntDup := 0xFF })] } })
     let c := s.chip
     let x := c.conn i.val
     let ty := (f.getD 0 0).toNat
     let seq := frU16 f 2
     let formed := c.sfRuns = true ∧ c.escEn i.val = true ∧ (x.st = 1 ∨ x.st = 2) ∧ f.getD 1 0 = 4 ∧ f.length
       = 14 ∧ (c.escA i.val).toNat / 2 ^ 28 % 4 ≠ 2 ∧ ty / 16 % 8 = 0 ∧ (ty % 16 = 1 ∨ ty % 16 = 2)
     let checks := crc32esc (c.escId i.val) (f.take 10) = BitVec.ofNat 32 (leAt f 10 4) ∧ (128 ≤ ty ↔
       c.escSide i.val = false) ∧ leAt f 4 2 = c.escWd i.val
     Settled s ∧ formed ∧ checks ∧ ty % 16 = 2 ∧ x.st = 2 ∧ seq ≠ x.lastAcc ∧ seq ≠ x.lastAcc + 1) ∧
    (let i : Fin 16 := 15
     let s := atRest ({ words [(0x40, 5)] up with
       safe := { up.safe with table := [(0x1280F0, 0x80000064), (0x1280F4, 7)], conns := [(15, { st := 3, lastAcc := 4, cntDup := 0xFF })] } })
     let c := s.chip
     let x := c.conn i.val
     let free := c.sfRuns = true ∧ x.sentAt.all (fun z => decide (z + 32 ≤ c.now)) = true
     Settled s ∧ c.sfRuns = true ∧ x.st = 3 ∧ c.escEn i.val = true ∧ c.postNo ≠ 0 ∧ free) ∧
    (let i : Fin 16 := 15
     let s := atRest ({ words [(0x40, 0)] up with
       safe := { up.safe with table := [(0x1280F0, 0x80000064), (0x1280F4, 7)], conns := [(15, { st := 1, lastAcc := 4, cntDup := 0xFF })] } })
     let c := s.chip
     let x := c.conn i.val
     Settled s ∧ x.st = 1 ∧ c.postNo = 0) ∧
    (let i : Fin 16 := 15
     let f : List W8 := [0x82, 4, 0, 0, 0, 0, 0, 0, 0, 0, 0, 0, 0, 0]
     let s := atRest ({ up with
       safe := { up.safe with table := [(0x1280F0, 0x80000064), (0x1280F4, 7)], conns := [(15, { st := 2, lastAcc := 4 })] },
       time := { up.time with six := 9000 } })
     let c := s.chip
     let x := c.conn i.val
     let ty := (f.getD 0 0).toNat
     let formed := c.sfRuns = true ∧ c.escEn i.val = true ∧ (x.st = 1 ∨ x.st = 2) ∧ f.getD 1 0 = 4 ∧ f.length
       = 14 ∧ (c.escA i.val).toNat / 2 ^ 28 % 4 ≠ 2 ∧ ty / 16 % 8 = 0 ∧ (ty % 16 = 1 ∨ ty % 16 = 2)
     Settled s ∧ formed ∧ crc32esc (c.escId i.val) (f.take 10) ≠ BitVec.ofNat 32 (leAt f 10 4) ∧
       x.crcFails.length < 10) ∧
    (let i : Fin 16 := 15
     let f : List W8 := let b : List W8 := [0x82, 4, 5, 0, 100, 0, 9, 0, 3, 0]; b ++ wordBytes (crc32esc 7 b)
     let s := atRest ({ words [(0x40, 5)] up with
       safe := { up.safe with table := [(0x1280F0, 0x80000064), (0x1280F4, 7)], conns := [(15, { st := 2, lastAcc := 4, sent := [(9, 96800)] })] } })
     let c := s.chip
     let x := c.conn i.val
     let ty := (f.getD 0 0).toNat
     let seq := frU16 f 2
     let formed := c.sfRuns = true ∧ c.escEn i.val = true ∧ (x.st = 1 ∨ x.st = 2) ∧ f.getD 1 0 = 4 ∧ f.length
       = 14 ∧ (c.escA i.val).toNat / 2 ^ 28 % 4 ≠ 2 ∧ ty / 16 % 8 = 0 ∧ (ty % 16 = 1 ∨ ty % 16 = 2)
     let checks := crc32esc (c.escId i.val) (f.take 10) = BitVec.ofNat 32 (leAt f 10 4) ∧ (128 ≤ ty ↔
       c.escSide i.val = false) ∧ leAt f 4 2 = c.escWd i.val
     let known := ∃ p ∈ x.sent, p.1 = frU16 f 6 ∧ c.now ≤ p.2 + 32 * c.escWd i.val
     Settled s ∧ formed ∧ checks ∧ known ∧ ty % 16 = 2 ∧ x.st = 2 ∧ seq = x.lastAcc + 1) := by
  dsimp only [Settled, modeHonest, quarNoted, fieldRuled]; and_intros <;> decide +kernel

/-- Meets the hypotheses of the clauses of `Obligations.ReaderPolls`. -/
theorem met_ReaderPolls :
    (let s := atRest (up)
     let c := s.chip
     Settled s ∧ c.fieldMay = false ∧ (c.pair.formed = false ∨ c.pair.j11Up = false)) ∧
    (let r : PollResult := {}
     let s := atRest ({ words [(0xF0000, 0xA4000000), (0x130000, 0x80000000)] up with
       link := { up.link with sliceOwn := true },
       pair := { up.pair with formed := true, j11Up := true, markRun := 49 } })
     let c := s.chip
     let l := c.link
     let goes := c.fieldMay = true ∧ (r.antennaOk = true ∨ l.field = true)
     Settled s ∧ goes ∧ r.badges = [] ∧ r.tags = [] ∧ l.xfers = [] ∧ c.pair.formed = true ∧ c.pair.j11Up =
       true) ∧
    (let r : PollResult := { antennaOk := false }
     let s := atRest (words [(0xF0000, 0xF4000000)] up)
     let c := s.chip
     let l := c.link
     Settled s ∧ c.fieldMay = true ∧ l.field = false ∧ r.antennaOk = false) ∧
    (let r : PollResult := { badges := [{ uid := 0x1122334455667788, len := 8, supported := true }] }
     let b : BadgeSeen := { uid := 0x1122334455667788, len := 8, supported := true }
     let s := atRest ({ words [(0xF0000, 0xC4000000)] up with
       link := { up.link with badges := [{ uid := 3, missed := 2 }, { uid := 4 }, { uid := 5 }] } })
     let c := s.chip
     let l := c.link
     let goes := c.fieldMay = true ∧ (r.antennaOk = true ∨ l.field = true)
     Settled s ∧ goes ∧ r.badges = [b] ∧ r.tags = [] ∧ l.xfers = [] ∧ c.cb 0xF0000 30 = true ∧ c.cb 0xF0000
       28 = false ∧ b.supported = true ∧ (b.len = 4 → b.uid &&& 0xFF ≠ 8) ∧ l.badges.length < 4 ∧ ((∀ z ∈
       l.badges, z.uid ≠ b.uid ∨ z.len ≠ b.len))) ∧
    (let r : PollResult := { tags := [{ id := 99, cls := 3 }] }
     let t : TagSeen := { id := 99, cls := 3 }
     let i : Nat := 15
     let s := atRest ({ words [(0xF0000, 0xA4000000)] up with
       link := { up.link with tags := (List.range 15).map (fun j => (j, { present := true, id := BitVec.ofNat 64 (j + 1) })) } })
     let c := s.chip
     let l := c.link
     let goes := c.fieldMay = true ∧ (r.antennaOk = true ∨ l.field = true)
     let fresh := t.id ≠ 0 ∧ t.id ≠ BitVec.allOnes 64 ∧ t.id ≠ c.sys.deviceId
     let crosses := c.cb 0xF0000 29 = true ∧ c.fq4Holds = false ∧ r.badges = [] ∧ r.tags = [t] ∧ l.xfers = []
     Settled s ∧ goes ∧ crosses ∧ fresh ∧ i < 16 ∧ (l.tag i).present = false ∧ ((∀ j, j < i → (l.tag
       j).present = true)) ∧ ((∀ j, j < 16 → (l.tag j).present = true → (l.tag j).id ≠ t.id)) ∧ c.cb 0xF0000 27
       = false) ∧
    (let r : PollResult := { tags := [{ id := 99, cls := 3 }] }
     let t : TagSeen := { id := 99, cls := 3 }
     let s := atRest ({ words [(0xF0000, 0xA4000000)] up with
       link := { up.link with tags := (List.range 16).map (fun j => (j, { present := true, id := BitVec.ofNat 64 (j + 1) })) } })
     let c := s.chip
     let l := c.link
     let goes := c.fieldMay = true ∧ (r.antennaOk = true ∨ l.field = true)
     let fresh := t.id ≠ 0 ∧ t.id ≠ BitVec.allOnes 64 ∧ t.id ≠ c.sys.deviceId
     let crosses := c.cb 0xF0000 29 = true ∧ c.fq4Holds = false ∧ r.badges = [] ∧ r.tags = [t] ∧ l.xfers = []
     Settled s ∧ goes ∧ crosses ∧ fresh ∧ ((∀ j, j < 16 → (l.tag j).present = true ∧ (l.tag j).id ≠ t.id))) ∧
    (let r : PollResult := { tags := [{ id := 99, cls := 3 }] }
     let t : TagSeen := { id := 99, cls := 3 }
     let i : Nat := 15
     let s := atRest ({ words [(0xF0000, 0xA4000000)] up with
       link := { up.link with tags := (List.range 15).map (fun j => (j, { present := true, id := BitVec.ofNat 64 (j + 1) })) ++ [(15, { present := true, id := 99 })] } })
     let c := s.chip
     let l := c.link
     let goes := c.fieldMay = true ∧ (r.antennaOk = true ∨ l.field = true)
     let fresh := t.id ≠ 0 ∧ t.id ≠ BitVec.allOnes 64 ∧ t.id ≠ c.sys.deviceId
     let crosses := c.cb 0xF0000 29 = true ∧ c.fq4Holds = false ∧ r.badges = [] ∧ r.tags = [t] ∧ l.xfers = []
     Settled s ∧ goes ∧ crosses ∧ fresh ∧ i < 16 ∧ (l.tag i).present = true ∧ (l.tag i).id = t.id ∧ ((∀ j, j
       < i → (l.tag j).id ≠ t.id))) ∧
    (let r : PollResult := { replies := [{ index := 15, status := 7 }] }
     let x : Xfer := { ticket := 7, index := 15, op := 2, polls := 2 }
     let y : XferReply := { index := 15, status := 7 }
     let s := atRest ({ words [(0xF0000, 0xA4000000)] up with
       tix := { next := 8, out := [{ no := 7 }] },
       link := { up.link with tags := [(15, { present := true, id := 9 })], xfers := [{ ticket := 7, index := 15, op := 2, polls := 2 }] } })
     let c := s.chip
     let l := c.link
     let goes := c.fieldMay = true ∧ (r.antennaOk = true ∨ l.field = true)
     let one := c.cb 0xF0000 29 = true ∧ r.badges = [] ∧ r.tags = [] ∧ l.xfers = [x] ∧ (l.tag
       x.index).present = true ∧ x.op.getLsbD 0 = false ∧ c.fq4Holds = false
     let answer := r.replies.find? (fun z => z.index == x.index && z.answered)
     Settled s ∧ goes ∧ one ∧ answer = some y) ∧
    (let r : PollResult := {}
     let x : Xfer := { ticket := 7, index := 15, op := 2, polls := 2 }
     let s := atRest ({ words [(0xF0000, 0xA4000000)] up with
       tix := { next := 8, out := [{ no := 7 }] },
       link := { up.link with tags := [(15, { present := true, id := 9 })], xfers := [{ ticket := 7, index := 15, op := 2, polls := 2 }] } })
     let c := s.chip
     let l := c.link
     let goes := c.fieldMay = true ∧ (r.antennaOk = true ∨ l.field = true)
     let one := c.cb 0xF0000 29 = true ∧ r.badges = [] ∧ r.tags = [] ∧ l.xfers = [x] ∧ (l.tag
       x.index).present = true ∧ x.op.getLsbD 0 = false ∧ c.fq4Holds = false
     let answer := r.replies.find? (fun z => z.index == x.index && z.answered)
     Settled s ∧ goes ∧ one ∧ answer = none ∧ 2 ≤ x.polls) ∧
    (let r : PollResult := {}
     let x : Xfer := { ticket := 7, index := 15, op := 0, polls := 1 }
     let s := atRest ({ words [(0xF0000, 0xA4000000)] up with
       tix := { next := 8, out := [{ no := 7 }] },
       link := { up.link with tags := [(15, { present := true, id := 9 })], xfers := [{ ticket := 7, index := 15, op := 0, polls := 1 }] } })
     let c := s.chip
     let l := c.link
     let goes := c.fieldMay = true ∧ (r.antennaOk = true ∨ l.field = true)
     let one := c.cb 0xF0000 29 = true ∧ r.badges = [] ∧ r.tags = [] ∧ l.xfers = [x] ∧ (l.tag
       x.index).present = true ∧ x.op.getLsbD 0 = false ∧ c.fq4Holds = false
     let answer := r.replies.find? (fun z => z.index == x.index && z.answered)
     Settled s ∧ goes ∧ one ∧ answer = none ∧ x.polls < 2) := by
  dsimp only [Settled, modeHonest, quarNoted, fieldRuled]; and_intros <;> decide +kernel

/-- Meets the hypotheses of the clauses of `Obligations.PlateTag`. -/
theorem met_PlateTag :
    (let f : List W8 := [1, 2, 3]
     let rest : List W8 := List.replicate 35 1
     let q : W8 := 7
     let k : W8 := 1
     let blk : W8 := 0x3F
     let key : BitVec 128 := 5
     let ms : Nat := 7
     let z : (List W8 → Instr) × W8 := (.crossingReq, 1)
     let s := atRest ({ up with link := { up.link with plate := { st := 2, key1 := some 5 } } })
     let fr := fun (l : List W8) => l ++ crcBytes l
     let c := s.chip
     let p := c.link.plate
     let quiet := p.hold = none ∧ p.queue = []
     Settled s ∧ z.2 ≠ 0xFF ∧ f ≠ fr f.dropLast.dropLast ∧ quiet ∧ p.st ≠ 3 ∧ p.st = 2 ∧ q ≠ 0 ∧ blk.toNat <
       0x40 ∧ rest.length = 35 ∧ k.toNat ≤ 3 ∧ p.key k.toNat = some key ∧ (ms < 8 ∨ p.st = 3) ∧ p.queue = []) ∧
    (let blk : W8 := 0x40
     let s := atRest ({ up with
       link := { up.link with plate := { st := 2, key1 := some 5, auth := 3, authKey := 1, rndB := 5 } } })
     let c := s.chip
     let p := c.link.plate
     let quiet := p.hold = none ∧ p.queue = []
     Settled s ∧ quiet ∧ p.st = 2 ∧ 0x40 ≤ blk.toNat ∧ p.auth = 3 ∧ p.mayRead blk.toNat = true) ∧
    (let ms : Nat := 8
     let a : PlateAcc := { block := 3, write := true, data := [1], ticket := 7 }
     let s := atRest ({ up with
       tix := { next := 8, out := [{ no := 7 }] },
       link := { up.link with plate := { st := 2, key1 := some 5, queue := [{ block := 3, write := true, data := [1], ticket := 7 }], hold := some 3 } } })
     let c := s.chip
     let p := c.link.plate
     Settled s ∧ 8 ≤ ms ∧ p.st ≠ 3 ∧ p.queue = [a] ∧ a.write = true ∧ p.locked a.block = false ∧ a.vchk =
       false) ∧
    (let s := atRest ({ up with link := { up.link with plate := { st := 1, key1 := some 5 } } })
     let c := s.chip
     let p := c.link.plate
     let quiet := p.hold = none ∧ p.queue = []
     Settled s ∧ quiet ∧ p.st = 1) ∧
    (let f : List W8 := [0x7F]
     let y : (List W8 → Instr) × W8 := (.crossingReq, 1)
     let s := atRest ({ up with link := { up.link with plate := { st := 2, key1 := some 5 } } })
     let c := s.chip
     let p := c.link.plate
     let rows : List ((List W8 → Instr) × W8) := [(.crossingReq, 1), (.crossingSel, 2), (.crossingHalt, 3),
       (.crossingQuiet, 4), (.crossingStatus, 5), (.crossingRead, 0x10), (.crossingWrite, 0x11),
       (.crossingAuth1, 0x20), (.crossingAuth2, 0x21), (.crossingAuth3, 0x22), (.crossingSread, 0x30),
       (.crossingSwrite, 0x31)]
     let fr := fun (l : List W8) => l ++ crcBytes l
     let quiet := p.hold = none ∧ p.queue = []
     Settled s ∧ y.2 ≠ 0xFF ∧ quiet ∧ p.st = 2 ∧ rows.all (fun z => decide ((fr f).head? ≠ some z.2)) = true) ∧
    (let a : PlateAcc := { block := 3, write := true, data := [1], ticket := 7 }
     let s := atRest ({ up with
       tix := { next := 8, out := [{ no := 7 }] },
       link := { up.link with plate := { st := 2, auth := 3, lockFirst := 3, lockCount := 1, queue := [{ block := 3, write := true, data := [1], ticket := 7 }], hold := some 3 } } })
     let c := s.chip
     let p := c.link.plate
     Settled s ∧ p.queue = [a] ∧ a.write = true ∧ p.locked a.block = true) := by
  dsimp only [Settled, modeHonest, quarNoted, fieldRuled]; and_intros <;> decide +kernel

/-- Meets the hypotheses of the clauses of `Obligations.SecurityEngine`. -/
theorem met_SecurityEngine :
    (let e : Fin 5 := 4
     let i : Fin 64 := 63
     let m : Master5 := 1
     let a : Fin 16 := 15
     let s := atRest ({ up with masters := [] })
     let c := s.chip
     let k := c.key.kwr
     let x := c.master m.val
     Settled s ∧ c.rdy rKEYS = true ∧ c.kwrCheck e.val i.val ≠ 0 ∧ k.eng ≠ some e.val ∧ k.eng = none ∧
       k.grace = false ∧ c.power.saving = false ∧ c.power.off = false ∧ (c.key.zeroPend = false ∨ c.power.off =
       true) ∧ x.role = 0 ∧ (c.acct a.val).lockTo ≤ c.now) ∧
    (let m : Master5 := 2
     let s := atRest ({ up with
       sys := { up.sys with ready := 0xFFFDF },
       key := { up.key with zeroPend := true } })
     let c := s.chip
     let x := c.master m.val
     Settled s ∧ c.rdy rKEYS = false ∧ c.key.zeroPend = true ∧ c.power.off = false ∧ x.role ≠ 0) ∧
    (let a : Fin 16 := 15
     let s := atRest ({ up with
       key := { up.key with accts := [(15, { lockTo := 100001 })] },
       power := { up.power with saving := true } })
     let c := s.chip
     Settled s ∧ c.now < (c.acct a.val).lockTo ∧ (c.power.saving = true ∨ c.power.off = true)) ∧
    (let e : Fin 5 := 4
     let s := atRest ({ up with key := { up.key with kekSeed := 1, kwr := { eng := some 4, slot := 2 } } })
     let c := s.chip
     let k := c.key.kwr
     Settled s ∧ k.eng = some e.val ∧ k.grace = false ∧ k.queue = [] ∧ k.plate = false) ∧
    (let e : Fin 5 := 4
     let s := atRest ({ up with
       key := { up.key with kekSeed := 1, kwr := { eng := some 4, slot := 2, plate := true } } })
     let c := s.chip
     let k := c.key.kwr
     Settled s ∧ k.eng = some e.val ∧ k.grace = false ∧ k.queue = [] ∧ k.plate = true) ∧
    (let e : Fin 5 := 4
     let i : Fin 64 := 63
     let s := atRest ({ up with
       key := { up.key with kekSeed := 1, slots := [(63, { a := { gen := 1, cls := 3, typ := 1, mat := [1], dest := 31 }, empty := false })] } })
     let c := s.chip
     let k := c.key.kwr
     Settled s ∧ c.rdy rKEYS = true ∧ c.kwrCheck e.val i.val = 0 ∧ k.eng = none) ∧
    (let e : Fin 5 := 4
     let e' : Fin 5 := 0
     let i : Fin 64 := 63
     let s := atRest ({ up with
       key := { up.key with kekSeed := 1, kwr := { eng := some 0, slot := 2 }, slots := [(63, { a := { gen := 1, cls := 3, typ := 1, mat := [1], dest := 31 }, empty := false })] } })
     let c := s.chip
     let k := c.key.kwr
     Settled s ∧ c.rdy rKEYS = true ∧ c.kwrCheck e.val i.val = 0 ∧ k.eng = some e'.val) ∧
    (let e : Fin 5 := 4
     let e' : Fin 5 := 0
     let i' : Fin 64 := 2
     let s := atRest ({ up with
       key := { up.key with kekSeed := 1, kwr := { eng := some 4, slot := 3, queue := [(0, 2)] }, slots := [(2, { a := { gen := 1, cls := 3, typ := 1, mat := [1], dest := 31 }, empty := false })] } })
     let c := s.chip
     let k := c.key.kwr
     Settled s ∧ k.eng = some e.val ∧ k.grace = false ∧ k.queue = [(e'.val, i'.val)] ∧ c.kwrCheck e'.val
       i'.val = 0) ∧
    (let s := atRest ({ up with
       key := { up.key with kekSeed := 1, kwr := { eng := some 4, slot := 63, grace := true }, slots := [(63, { a := { gen := 1, cls := 3, typ := 1, mat := [1], dest := 31 }, empty := false, condemned := true })] } })
     let c := s.chip
     let k := c.key.kwr
     Settled s ∧ k.grace = true ∧ k.queue = []) := by
  dsimp only [Settled, modeHonest, quarNoted, fieldRuled]; and_intros <;> decide +kernel

/-- Meets the hypotheses of the clauses of `Obligations.FirmwareChanges`. -/
theorem met_FirmwareChanges :
    (let k : Fin 8 := 7
     let s := atRest ({ up with sys := { up.sys with ready := 0xFFF7F } })
     let c := s.chip
     let u := c.upd
     let g := c.group k.val
     let b := u.bootSlot
     let x := u.slot b
     let loads := c.cfg.gens = [] ∨ ∃ g ∈ c.cfg.gens, x.reads g.fmt = true
     Settled s ∧ (c.sys.changeover = false ∨ c.rdy rSV = true ∨ c.power.saving = true) ∧ (c.sys.changeover =
       false ∨ c.rdy rSV = false) ∧ (c.sys.changeover = false ∨ u.coRevert = true) ∧ (c.sys.changeover = true ∨
       c.onTrial = false ∨ c.rdy rSV = false) ∧ (g.bridgeOn = false ∨ g.bridge < 98304) ∧ (c.onTrial = false ∨
       c.sys.changeover = true ∨ c.rdy rSV = false ∨ c.health ≠ 15) ∧ c.power.saving = false ∧ c.rdy rSV =
       false ∧ c.sys.changeover = false ∧ x.st = 3 ∧ x.bad = false ∧ loads) ∧
    (let k : Fin 8 := 7
     let s := atRest ({ up with
       groups := [(7, { bridgeOn := true, bridge := 98304 })],
       upd := { up.upd with bootSlot := true, runSlot := 1, slotB := { st := 2 } },
       cfg := { up.cfg with loaded := true } })
     let c := s.chip
     let g := c.group k.val
     Settled s ∧ c.sys.changeover = false ∧ c.onTrial = true ∧ c.rdy rSV = true ∧ g.bridgeOn = true ∧
       g.bridgeLost = none ∧ 98304 ≤ g.bridge ∧ c.health = 15 ∧ (c.rdy rSV = true ∨ c.power.saving = true)) ∧
    (let k : Fin 8 := 7
     let s := atRest ({ up with
       sys := { up.sys with changeover := true, cause := 5, ready := 0xFFF7F },
       upd := { up.upd with bootSlot := true, slotB := { st := 2 } } })
     let c := s.chip
     let u := c.upd
     let b := u.bootSlot
     let x := u.slot b
     let g := c.group k.val
     let loads := c.cfg.gens = [] ∨ ∃ g ∈ c.cfg.gens, x.reads g.fmt = true
     Settled s ∧ c.sys.changeover = true ∧ c.rdy rSV = false ∧ c.power.saving = false ∧ c.sys.cause = 5 ∧
       x.st = 2 ∧ x.bad = false ∧ loads ∧ u.coRevert = false) ∧
    (let s := atRest ({ up with power := { up.power with saving := true } })
     let c := s.chip
     Settled s ∧ c.power.saving = true) ∧
    (let s := atRest ({ up with
       sys := { up.sys with changeover := true, cause := 5 },
       tix := { next := 8, out := [{ no := 7 }] },
       upd := { up.upd with bootSlot := true, slotB := { st := 2 }, coTicket := 7 } })
     let c := s.chip
     let u := c.upd
     Settled s ∧ c.sys.changeover = true ∧ c.rdy rSV = true ∧ u.handover = []) ∧
    (let s := atRest ({ up with
       sys := { up.sys with changeover := true, cause := 5 },
       engs := [(3, { run := 5 })],
       upd := { up.upd with bootSlot := true, slotB := { st := 2 }, coTicket := 7, coStep := 5, handover := [(3, {})] } })
     let c := s.chip
     let u := c.upd
     Settled s ∧ c.sys.changeover = true ∧ c.rdy rSV = true ∧ u.coStep = 5 ∧ ((∃ h ∈ u.handover, (c.eng
       h.1).run = ruRESTART))) := by
  dsimp only [Settled, modeHonest, quarNoted, fieldRuled]; and_intros <;> decide +kernel

/-- Meets the hypotheses of the clauses of `Obligations.PairAndIslands`. -/
theorem met_PairAndIslands :
    (let h : Heartbeat := { id := 5, role := 1 }
     let lane : Fin 2 := 1
     let s := atRest (words [(0x40, 0), (0x130000, 0x80000000)] up)
     let c := s.chip
     let p := c.pair
     let path := c.heartPath h.udp = true ∧ h.macOk = true
     Settled s ∧ path ∧ p.formed = false ∧ h.post.toNat = c.postNo ∧ (p.j11Up = true ∨ h.udp = false) ∧
       c.pairEn = true ∧ c.rdy rSV = true ∧ p.role = 0 ∧ p.j11Up = false ∧ c.udpUp = false ∧ p.lane.getLsbD
       lane.val = true) ∧
    (let h : Heartbeat := { id := 5, role := 1, post := 9, ready := 3, handOver := true }
     let s := atRest (let c := words [(0x40, 9), (0x130000, 0x80000000)] up; { c with
       pair := { c.pair with j11Up := true, formed := true, role := 2 } })
     let c := s.chip
     let p := c.pair
     let path := c.heartPath h.udp = true ∧ h.macOk = true
     Settled s ∧ path ∧ p.formed = true ∧ p.role = 2 ∧ h.handOver = true ∧ h.check = none ∧ (p.formed = true
       ∨ p.role ≠ 0) ∧ c.rdy rSV = true ∧ p.switchT = 0 ∧ p.switchUpd = false) ∧
    (let h : Heartbeat := { id := 5, role := 1, post := 9, ready := 3, failover := true }
     let lane : Fin 2 := 0
     let s := atRest (let c := words [(0x40, 9), (0x130000, 0x80000000)] up; { c with
       pair := { c.pair with j11Up := true, formed := true, role := 1, lane := 2 } })
     let c := s.chip
     let p := c.pair
     let active := h.role = 1 ∨ h.role = 3
     let path := c.heartPath h.udp = true ∧ h.macOk = true
     Settled s ∧ path ∧ p.formed = true ∧ (p.role = 1 ∨ p.role = 3) ∧ active ∧ p.switchT = 0 ∧ p.switchUpd =
       false ∧ h.check = none ∧ p.lane.getLsbD lane.val = false) ∧
    (let h : Heartbeat := { id := 5, role := 1, macOk := false }
     let s := atRest (words [(0x40, 0), (0x130000, 0x80000000)] up)
     let c := s.chip
     Settled s ∧ (c.heartPath h.udp = false ∨ h.macOk = false)) ∧
    (let h : Heartbeat := { id := 5, role := 0, post := 9, ready := 3 }
     let s := atRest (let c := words [(0x40, 0), (0x130000, 0x80000000)] up; { c with
       drv := { d := [(39, { cmd := true, phase := 0 })] } })
     let c := s.chip
     let p := c.pair
     let path := c.heartPath h.udp = true ∧ h.macOk = true
     Settled s ∧ path ∧ p.formed = false ∧ h.post.toNat ≠ c.postNo) := by
  dsimp only [Settled, modeHonest, quarNoted, fieldRuled]; and_intros <;> decide +kernel

end Sys2Proof.Tests
end

section
/-! The integer instructions (R100): a rule for each of their two shapes, what each operation of the model computes on
signed and unsigned values, and the statement on their results. -/

namespace Sys2Proof.Machine

open Sys2Proof Sys2Proof.Claims

/-! ### The two shapes of an integer instruction -/

section
variable {e : Exec} {rd a b : Reg} {i : Instr} {s : State} {v : W64} (hs : Settled s) (hr : runs e s.chip)
include hs hr

/-- The rule of an instruction over two registers whose operation does not trap: R100's result in rd, the
next PC, nothing else. -/
theorem answers_of_alu {op : W64 → W64 → Except W8 W64}
    (hi : exec i s = run (Chip.pureI e (Thread.alu op · rd a b)) s)
    (hv : op ((threadOf e s.chip).rx a) ((threadOf e s.chip).rx b) = .ok v) :
    answers i s (wrote e rd v s.chip) := by
  refine hi.trans (run_pureI hs hr ?_)
  simp only [Thread.alu, hv]
  rfl

/-- The same for an operation that never traps. -/
theorem answers_of_total {op : W64 → W64 → W64}
    (hi : exec i s = run (Chip.pureI e (Thread.alu (fun x y => .ok (op x y)) · rd a b)) s)
    (hv : op ((threadOf e s.chip).rx a) ((threadOf e s.chip).rx b) = v) :
    answers i s (wrote e rd v s.chip) :=
  answers_of_alu hs hr hi (congrArg Except.ok hv)

/-- The rule of an instruction that puts a value of the thread's own into rd. -/
theorem answers_of_put {g : Thread → W64}
    (hi : exec i s = run (Chip.pureI e (fun bay t => .ok (t.put bay rd (g t)))) s)
    (hv : g (threadOf e s.chip) = v) : answers i s (wrote e rd v s.chip) := by
  subst hv
  exact hi.trans (run_pureI hs hr rfl)

end

/-! ### What the operations compute -/

/-- The low half of the product is the signed product, wrapped. -/
theorem mul_eq_ofInt (x y : W64) : x * y = BitVec.ofInt 64 (x.toInt * y.toInt) := by
  rw [BitVec.ofInt_mul, BitVec.ofInt_toInt, BitVec.ofInt_toInt]

theorem b2x_slt (x y : W64) : b2x (x.slt y) = if x.toInt < y.toInt then 1 else 0 := by
  by_cases h : x.toInt < y.toInt <;> simp [b2x, b2n, BitVec.slt, h]

theorem b2x_ult (x y : W64) : b2x (x.ult y) = if x.toNat < y.toNat then 1 else 0 := by
  by_cases h : x.toNat < y.toNat <;> simp [b2x, b2n, BitVec.ult, h]

theorem ite_slt {α : Type} (x y : W64) (p q : α) :
    (if x.slt y then p else q) = if x.toInt < y.toInt then p else q := by
  simp [BitVec.slt]

/-- A shift left multiplies by a power of two and wraps. -/
theorem shiftLeft_eq_ofNat (x : W64) (n : Nat) : x <<< n = BitVec.ofNat 64 (x.toNat * 2 ^ n) := by
  apply BitVec.eq_of_toNat_eq
  rw [BitVec.toNat_shiftLeft, BitVec.toNat_ofNat, Nat.shiftLeft_eq]

/-- A shift right that fills with zeros divides the unsigned value. -/
theorem ushiftRight_eq_ofNat (x : W64) (n : Nat) : x >>> n = BitVec.ofNat 64 (x.toNat / 2 ^ n) := by
  rw [← Nat.shiftRight_eq_div_pow, ← BitVec.toNat_ushiftRight, BitVec.ofNat_toNat, BitVec.setWidth_eq]

/-- A shift right that fills with the sign bit divides the signed value, rounding down. -/
theorem sshiftRight_eq_ofInt (x : W64) (n : Nat) :
    x.sshiftRight n = BitVec.ofInt 64 (x.toInt / 2 ^ n) := by
  rw [BitVec.sshiftRight, Int.shiftRight_eq_div_pow]
  norm_cast

theorem add_sext16 (x : W64) (imm : W16) : x + sext16 imm = BitVec.ofInt 64 (x.toInt + imm.toInt) := by
  rw [BitVec.ofInt_add, BitVec.ofInt_toInt]
  rfl

theorem zext16_eq_ofNat (imm : W16) : zext16 imm = BitVec.ofNat 64 imm.toNat := by
  rw [zext16, BitVec.ofNat_toNat]

/-- LUI's value is the signed immediate times 2^16. -/
theorem luiOp_eq_ofInt (imm : W16) : luiOp imm = BitVec.ofInt 64 (imm.toInt * 65536) := by
  have h : (imm ++ (0 : W16) : W32).toInt = 2 ^ 16 * imm.toInt := BitVec.toInt_append_zero
  rw [luiOp, BitVec.signExtend, h, Int.mul_comm]
  rfl

/-- The one dividend and divisor whose quotient does not fit. -/
theorem intMin_allOnes_iff (x y : W64) :
    x = BitVec.intMin 64 ∧ y = BitVec.allOnes 64 ↔ x.toInt = -2 ^ 63 ∧ y.toInt = -1 := by
  rw [← BitVec.toInt_inj, ← BitVec.toInt_inj]
  norm_num [BitVec.toInt_intMin, BitVec.toInt_allOnes]

/-- DIV's result, where it does not trap (R116). -/
theorem divOp_ok {x y : W64} (hy : y ≠ 0) (h : ¬ (x.toInt = -2 ^ 63 ∧ y.toInt = -1)) :
    divOp x y = .ok (BitVec.ofInt 64 (x.toInt.tdiv y.toInt)) := by
  rw [divOp, if_neg hy, if_neg (mt (intMin_allOnes_iff x y).mp h)]

/-- REM's result, where it does not trap (R116). -/
theorem remOp_ok {x y : W64} (hy : y ≠ 0) (h : ¬ (x.toInt = -2 ^ 63 ∧ y.toInt = -1)) :
    remOp x y = .ok (BitVec.ofInt 64 (x.toInt.tmod y.toInt)) := by
  rw [remOp, if_neg hy, if_neg (mt (intMin_allOnes_iff x y).mp h)]

/-! ### The statement -/

/-- Settles O8: each instruction has one of the two shapes, and its operation computes R100's value. -/
theorem integerResults : Obligations.IntegerResults := by
  unfold Obligations.IntegerResults
  and_intros
  · intro e rd a b sh s hs hr x y n r
    exact ⟨answers_of_total hs hr rfl rfl, answers_of_total hs hr rfl rfl,
      answers_of_total hs hr rfl rfl, answers_of_total hs hr rfl rfl,
      answers_of_total hs hr rfl rfl, answers_of_total hs hr rfl (mul_eq_ofInt x y),
      answers_of_total hs hr rfl rfl, answers_of_total hs hr rfl (b2x_slt x y),
      answers_of_total hs hr rfl (b2x_ult x y), answers_of_total hs hr rfl (ite_slt x y x y),
      answers_of_total hs hr rfl (ite_slt x y y x), answers_of_total hs hr rfl (shiftLeft_eq_ofNat x n),
      answers_of_total hs hr rfl (ushiftRight_eq_ofNat x n),
      answers_of_total hs hr rfl (sshiftRight_eq_ofInt x n)⟩
  · intro e rd a imm s hs hr x r
    exact ⟨answers_of_put hs hr rfl (add_sext16 x imm),
      answers_of_put hs hr rfl (congrArg (x &&& ·) (zext16_eq_ofNat imm)),
      answers_of_put hs hr rfl (congrArg (x ||| ·) (zext16_eq_ofNat imm)),
      answers_of_put hs hr rfl (luiOp_eq_ofInt imm)⟩
  · intro e rd a b s hs hr x y hy hfit
    exact ⟨answers_of_alu hs hr rfl (divOp_ok hy hfit), answers_of_alu hs hr rfl (remOp_ok hy hfit)⟩

end Sys2Proof.Machine
end

section
/-! The lossy ferry queues (R240): what a lossy queue does with an offered packet, and what writing one to it leaves
in each queue. -/

namespace Sys2Proof.Machine

open Sys2Proof Sys2Proof.Claims

/-! ### The banks and the producer's buffer -/

/-- The hint bits are no part of a queue. -/
@[simp] theorem hint_fq (i j : Nat) (c : Chip) : (c.hint i).fq j = c.fq j := rfl

/-- Swapping the banks leaves the producer's buffer. -/
@[simp] theorem Ferry.swap_holdBuf (f : Ferry) : f.swap.holdBuf = f.holdBuf := by
  unfold Ferry.swap
  split <;> rfl

@[simp] theorem Ferry.push_holdBuf (p : List W32) (f : Ferry) : (f.push p).holdBuf = f.holdBuf :=
  Ferry.swap_holdBuf _

@[simp] theorem Ferry.dropped_holdBuf (n : Nat) (f : Ferry) : (f.dropped n).holdBuf = f.holdBuf := rfl

theorem lossy_iff (q : Nat) : lossy q = true ↔ q = 2 ∨ q = 7 := by
  simp [lossy]

/-- No queue takes at once a packet that does not fit. -/
theorem fqTakes_of_not_fits {c : Chip} {q : Nat} {p : List W32} (h : (c.fq q).fits p = false) :
    c.fqTakes q p = false := by
  simp [Chip.fqTakes, h]

/-! ### A packet offered to a lossy queue -/

section
variable {c : Chip} {q : Nat} {p : List W32} (hq : lossy q = true)
include hq

/-- A lossy queue in a claim takes the packet or discards it; its producer is never held. -/
theorem fqOffer_lossy (ho : (c.fq q).owner ≠ none) :
    c.fqOffer q p =
      (if c.fqTakes q p then (c.modFq q (Ferry.push p)).hint q else c.modFq q (Ferry.dropped 1), false) := by
  have hs : (c.fq q).owner.isSome = true := Option.isSome_iff_ne_none.mpr ho
  have hn : (c.fq q).owner.isNone = false := Option.isNone_eq_false_iff.mpr hs
  simp only [Chip.fqOffer, Chip.fqTakes, hs, hn, hq, Bool.true_and, Bool.false_eq_true, if_true, if_false]
  split <;> rfl

/-- What writing a packet with a payload to a lossy queue in a claim leaves in each queue. -/
theorem fqPut_lossy_fq (hp : 2 ≤ p.length) (ho : (c.fq q).owner ≠ none) (j : Nat) :
    (c.fqPut q p).fq j =
      if j = q then (if c.fqTakes q p then (c.fq q).push p else (c.fq q).dropped 1) else c.fq j := by
  have hput : c.fqPut q p =
      if c.fqTakes q p then (c.modFq q (Ferry.push p)).hint q else c.modFq q (Ferry.dropped 1) := by
    simp [Chip.fqPut, Nat.not_le.mpr hp, fqOffer_lossy hq ho]
  rw [hput]
  cases c.fqTakes q p <;> simp

end

/-! ### The statement -/

/-- Settles O6: a lossy queue's only two answers are to take the packet and to count it in DROP, and neither
touches the producer's buffer or another queue. -/
theorem lossyQueues : Obligations.LossyQueues := by
  unfold Obligations.LossyQueues
  intro q p c hq hp ho f
  have hput := fqPut_lossy_fq ((lossy_iff q).mpr hq) hp ho
  refine ⟨fun hfit => ?_, ?_, fun j hj => ?_⟩
  · rw [hput, if_pos rfl, fqTakes_of_not_fits hfit]
    rfl
  · rw [hput, if_pos rfl]
    cases c.fqTakes q p
    · exact Ferry.dropped_holdBuf 1 f
    · exact Ferry.push_holdBuf p f
  · rw [hput, if_neg hj]

end Sys2Proof.Machine
end

section
/-! What follows a command (R19, R222, R325): what settling can change and what it leaves, said once for each of its
parts, and the agreement of the mode, the QUARANTINE record and the field with their conditions. -/

namespace Sys2Proof.Machine

open Sys2Proof Sys2Proof.Claims

/-! ### What the parts of settling leave -/

/-- `d` differs from `c` at most in what closing sessions, the drives, the bay's notices, pulses, permits and chosen
instants touch. The conditions, the waiting changes, the tamper
records and the field are as they were. -/
def Follows (c d : Chip) : Prop :=
  ∃ h ma o dn en se ls aw sp ev le fe ba dr cn, (∀ m, ∃ x, Tbl.get ({} : Master) ma m = { c.master m with outbox := x }) ∧
    d = { c with
      sys := { c.sys with hintStatus := h }, masters := ma, tix := { c.tix with out := o, done := dn }
      engs := en
      bill := { c.bill with sess := se, lastSess := ls, aheadW := aw, spill := sp }
      evt := ev
      ledger := { (le : Ledger) with closed := c.ledger.closed }
      ferry := fe, bay := ba, drv := { c.drv with d := dr }
      safe := { c.safe with conns := cn } }

/-- The tables of a block that hold masters alone are as they were. -/
theorem masters_same (c : Chip) : ∀ m, ∃ x, Tbl.get ({} : Master) c.masters m = { c.master m with outbox := x } :=
  fun m => ⟨(c.master m).outbox, rfl⟩

theorem Follows.refl (c : Chip) : Follows c c :=
  ⟨_, _, _, _, _, _, _, _, _, _, c.ledger, _, _, _, _, masters_same c, rfl⟩

theorem Follows.trans {a b c : Chip} : Follows a b → Follows b c → Follows a c := by
  rintro ⟨h, ma, o, dn, en, se, ls, aw, sp, ev, le, fe, ba, dr, cn, hm, rfl⟩
    ⟨h', ma', o', dn', en', se', ls', aw', sp', ev', le', fe', ba', dr', cn', hm', rfl⟩
  refine ⟨_, _, _, _, _, _, _, _, _, _, le', _, _, _, _, fun m => ?_, rfl⟩
  obtain ⟨x, hx⟩ := hm m
  obtain ⟨y, hy⟩ := hm' m
  exact ⟨y, hy.trans (by rw [show Chip.master _ m = Tbl.get ({} : Master) ma m from rfl, hx])⟩

theorem Noted.follows {c d : Chip} : Noted c d → Follows c d := by
  rintro ⟨e, f, h, rfl⟩
  exact ⟨_, _, _, _, _, _, _, _, _, _, c.ledger, _, _, _, _, masters_same c, rfl⟩

section
variable {c d : Chip} (h : Follows c d)
include h
theorem Follows.host : d.host = c.host := by obtain ⟨_, _, _, _, _, _, _, _, _, _, _, _, _, _, _, _, rfl⟩ := h; rfl
theorem Follows.lands : d.lands = c.lands := by obtain ⟨_, _, _, _, _, _, _, _, _, _, _, _, _, _, _, _, rfl⟩ := h; rfl
theorem Follows.groups : d.groups = c.groups := by obtain ⟨_, _, _, _, _, _, _, _, _, _, _, _, _, _, _, _, rfl⟩ := h; rfl
theorem Follows.taps : d.taps = c.taps := by obtain ⟨_, _, _, _, _, _, _, _, _, _, _, _, _, _, _, _, rfl⟩ := h; rfl
theorem Follows.lib : d.lib = c.lib := by obtain ⟨_, _, _, _, _, _, _, _, _, _, _, _, _, _, _, _, rfl⟩ := h; rfl
theorem Follows.tariff : d.tariff = c.tariff := by obtain ⟨_, _, _, _, _, _, _, _, _, _, _, _, _, _, _, _, rfl⟩ := h; rfl
theorem Follows.time : d.time = c.time := by obtain ⟨_, _, _, _, _, _, _, _, _, _, _, _, _, _, _, _, rfl⟩ := h; rfl
theorem Follows.power : d.power = c.power := by obtain ⟨_, _, _, _, _, _, _, _, _, _, _, _, _, _, _, _, rfl⟩ := h; rfl
theorem Follows.save : d.save = c.save := by obtain ⟨_, _, _, _, _, _, _, _, _, _, _, _, _, _, _, _, rfl⟩ := h; rfl
theorem Follows.tamper : d.tamper = c.tamper := by obtain ⟨_, _, _, _, _, _, _, _, _, _, _, _, _, _, _, _, rfl⟩ := h; rfl
theorem Follows.disp : d.disp = c.disp := by obtain ⟨_, _, _, _, _, _, _, _, _, _, _, _, _, _, _, _, rfl⟩ := h; rfl
theorem Follows.link : d.link = c.link := by obtain ⟨_, _, _, _, _, _, _, _, _, _, _, _, _, _, _, _, rfl⟩ := h; rfl
theorem Follows.key : d.key = c.key := by obtain ⟨_, _, _, _, _, _, _, _, _, _, _, _, _, _, _, _, rfl⟩ := h; rfl
theorem Follows.upd : d.upd = c.upd := by obtain ⟨_, _, _, _, _, _, _, _, _, _, _, _, _, _, _, _, rfl⟩ := h; rfl
theorem Follows.net : d.net = c.net := by obtain ⟨_, _, _, _, _, _, _, _, _, _, _, _, _, _, _, _, rfl⟩ := h; rfl
theorem Follows.pair : d.pair = c.pair := by obtain ⟨_, _, _, _, _, _, _, _, _, _, _, _, _, _, _, _, rfl⟩ := h; rfl
theorem Follows.free : d.free = c.free := by obtain ⟨_, _, _, _, _, _, _, _, _, _, _, _, _, _, _, _, rfl⟩ := h; rfl
theorem Follows.sys : ∃ x, d.sys = { c.sys with hintStatus := x } := by
  obtain ⟨_, _, _, _, _, _, _, _, _, _, _, _, _, _, _, _, rfl⟩ := h; exact ⟨_, rfl⟩
theorem Follows.cfg : d.cfg = c.cfg := by
  obtain ⟨_, _, _, _, _, _, _, _, _, _, _, _, _, _, _, _, rfl⟩ := h; rfl
theorem Follows.safe : d.safe = { c.safe with conns := d.safe.conns } := by
  obtain ⟨_, _, _, _, _, _, _, _, _, _, _, _, _, _, _, _, rfl⟩ := h; rfl
theorem Follows.qcause : d.sys.qcause = c.sys.qcause := by
  obtain ⟨_, _, _, _, _, _, _, _, _, _, _, _, _, _, _, _, rfl⟩ := h; rfl
/-- The mode's conditions are as they were. -/
theorem Follows.modeOf : d.modeOf = c.modeOf := by obtain ⟨_, _, _, _, _, _, _, _, _, _, _, _, _, _, _, _, rfl⟩ := h; rfl
/-- The field's conditions are as they were. -/
theorem Follows.fieldMay : d.fieldMay = c.fieldMay := by
  obtain ⟨_, _, _, _, _, _, _, _, _, _, _, _, _, _, _, _, rfl⟩ := h; rfl
theorem Follows.quarHeld : quarHeld d = quarHeld c := by
  obtain ⟨_, _, _, _, _, _, _, _, _, _, _, _, _, _, _, _, rfl⟩ := h; rfl
end

theorem follows_modBay (g : Bay → Bay) (c : Chip) : Follows c (c.modBay g) :=
  ⟨_, _, _, _, _, _, _, _, _, _, c.ledger, _, _, _, _, masters_same c, rfl⟩

theorem follows_modDrive (n : Nat) (g : Drive → Drive) (c : Chip) : Follows c (c.modDrive n g) :=
  ⟨_, _, _, _, _, _, _, _, _, _, c.ledger, _, _, _, _, masters_same c, rfl⟩

theorem follows_modEng (k : Nat) (g : Engine → Engine) (c : Chip) : Follows c (c.modEng k g) :=
  ⟨_, _, _, _, _, _, _, _, _, _, c.ledger, _, _, _, _, masters_same c, rfl⟩

theorem follows_modSpill (m n : Nat) (g : Spill → Spill) (c : Chip) : Follows c (c.modSpill m n g) :=
  ⟨_, _, _, _, _, _, _, _, _, _, c.ledger, _, _, _, _, masters_same c, rfl⟩

theorem follows_modConn (i : Nat) (g : Conn → Conn) (c : Chip) : Follows c (c.modConn i g) :=
  ⟨_, _, _, _, _, _, _, _, _, _, c.ledger, _, _, _, _, masters_same c, rfl⟩

theorem follows_putSess (m : Nat) (x : Session) (c : Chip) : Follows c (c.modBill (Bill.putSess m x)) :=
  ⟨_, _, _, _, _, _, _, _, _, _, c.ledger, _, _, _, _, masters_same c, rfl⟩

theorem follows_bayEvent (i : Nat) (c : Chip) : Follows c (c.bayEvent i) := follows_modBay _ c

theorem follows_bayField (a : Nat) (v : W64) (c : Chip) : Follows c (c.bayField a v) := follows_modBay _ c

theorem follows_raise (code : W16) (unit : Nat) (a0 a1 : W32) (c : Chip) : Follows c (c.raise code unit a0 a1) :=
  (noted_raise code unit a0 a1 c).follows

theorem follows_fqPut (q : Nat) (p : List W32) (c : Chip) : Follows c (c.fqPut q p) := (noted_fqPut q p c).follows

theorem follows_when {b : Bool} {f : Chip → Chip} {c : Chip} (h : Follows c (f c)) : Follows c (c.when b f) := by
  cases b
  · exact Follows.refl c
  · exact h

theorem follows_each {α : Type} {f : α → Chip → Chip} (h : ∀ a c, Follows c (f a c)) :
    ∀ (l : List α) (c : Chip), Follows c (each l f c)
  | [], c => Follows.refl c
  | a :: t, c => (h a c).trans (follows_each h t (f a c))

theorem follows_ite {p : Prop} [Decidable p] {c d e : Chip} (hd : Follows c d) (he : Follows c e) :
    Follows c (if p then d else e) := by
  split
  · exact hd
  · exact he

/-! ### Tickets and drives -/

theorem follows_send (m : Nat) (msg : YhpMsg) (c : Chip) : Follows c (c.send m msg) := by
  refine ⟨_, _, _, _, _, _, _, _, _, _, c.ledger, _, _, _, _, fun j => ?_, rfl⟩
  rw [Tbl.get_put]
  split
  · subst j
    exact ⟨_, rfl⟩
  · exact ⟨_, rfl⟩

theorem follows_modOut (f : Tickets → List Ticket) (g : Tickets → List (W16 × W8)) (c : Chip) :
    Follows c (c.modTix (fun y => { y with out := f y, done := g y })) :=
  ⟨_, _, _, _, _, _, _, _, _, _, c.ledger, _, _, _, _, masters_same c, rfl⟩

theorem follows_complete (t : W16) (st : W8) (res : W32) (c : Chip) : Follows c (c.complete t st res) := by
  unfold Chip.complete
  split
  · exact Follows.refl c
  · exact (follows_modOut _ _ c).trans
      (follows_ite ((follows_fqPut _ _ _).trans (follows_send _ _ _)) (follows_fqPut _ _ _))

theorem follows_drvEvt (code : W16) (n : Nat) (c : Chip) : Follows c (c.drvEvt code n) :=
  (follows_raise _ _ _ _ c).trans (follows_when (follows_bayEvent _ _))

theorem follows_drvTestDone (n : Nat) (st : W8) (c : Chip) : Follows c (c.drvTestDone n st) :=
  follows_ite (follows_modDrive _ _ c) ((follows_modDrive _ _ c).trans (follows_complete _ _ _ _))

theorem follows_drvInconclusive (n : Nat) (c : Chip) : Follows c (c.drvInconclusive n) :=
  ((follows_modDrive _ _ c).trans (follows_drvTestDone _ _ _)).trans (follows_when (follows_drvEvt _ _ _))

theorem follows_drvAbortTest (n : Nat) (c : Chip) : Follows c (c.drvAbortTest n) :=
  follows_ite (Follows.refl c) (follows_drvInconclusive n c)

theorem follows_drvCommand (n : Nat) (on : Bool) (c : Chip) : Follows c (c.drvCommand n on) :=
  (follows_drvAbortTest n c).trans (follows_modDrive _ _ _)

theorem follows_bayStep2 (c : Chip) : Follows c c.bayStep2 :=
  (follows_each (fun n c => follows_drvCommand n false c) _ c).trans (follows_modBay _ _)

/-! ### Context events, sessions and chosen instants -/

/-- `d` differs from `c` at most in what closing sessions, latching demand windows and bringing context events to the
engines touch. The drives, the pulses, the tickets and the waiting changes are as they were. -/
def Carried (c d : Chip) : Prop :=
  ∃ h en se ls aw ev le fe ba, d = { c with
      sys := { c.sys with hintStatus := h }, engs := en
      bill := { c.bill with sess := se, lastSess := ls, aheadW := aw }
      evt := ev
      ledger := { (le : Ledger) with closed := c.ledger.closed }
      ferry := fe, bay := ba }

theorem Carried.refl (c : Chip) : Carried c c := ⟨_, _, _, _, _, _, c.ledger, _, _, rfl⟩

theorem Carried.trans {a b c : Chip} : Carried a b → Carried b c → Carried a c := by
  rintro ⟨h, en, se, ls, aw, ev, le, fe, ba, rfl⟩ ⟨h', en', se', ls', aw', ev', le', fe', ba', rfl⟩
  exact ⟨h', en', se', ls', aw', ev', le', fe', ba', rfl⟩

theorem Carried.follows {c d : Chip} : Carried c d → Follows c d := by
  rintro ⟨h, en, se, ls, aw, ev, le, fe, ba, rfl⟩
  exact ⟨_, _, _, _, _, _, _, _, _, _, le, _, _, _, _, masters_same c, rfl⟩

theorem Noted.carried {c d : Chip} : Noted c d → Carried c d := by
  rintro ⟨e, f, h, rfl⟩
  exact ⟨_, _, _, _, _, _, c.ledger, _, _, rfl⟩

theorem carried_when {b : Bool} {f : Chip → Chip} {c : Chip} (h : Carried c (f c)) : Carried c (c.when b f) := by
  cases b
  · exact Carried.refl c
  · exact h

theorem carried_ite {p : Prop} [Decidable p] {c d e : Chip} (hd : Carried c d) (he : Carried c e) :
    Carried c (if p then d else e) := by
  split
  · exact hd
  · exact he

theorem carried_each {α : Type} {f : α → Chip → Chip} (h : ∀ a c, Carried c (f a c)) :
    ∀ (l : List α) (c : Chip), Carried c (each l f c)
  | [], c => Carried.refl c
  | a :: t, c => (h a c).trans (carried_each h t (f a c))

theorem carried_modBay (g : Bay → Bay) (c : Chip) : Carried c (c.modBay g) := ⟨_, _, _, _, _, _, c.ledger, _, _, rfl⟩

theorem carried_modEng (k : Nat) (g : Engine → Engine) (c : Chip) : Carried c (c.modEng k g) :=
  ⟨_, _, _, _, _, _, c.ledger, _, _, rfl⟩

theorem carried_modLedger {g : Ledger → Ledger} {c : Chip} (hg : (g c.ledger).closed = c.ledger.closed) :
    Carried c (c.modLedger g) := by
  have h : c.modLedger g = { c with ledger := { g c.ledger with closed := c.ledger.closed } } := by
    rw [← hg]
    rfl
  rw [h]
  exact ⟨_, _, _, _, _, _, g c.ledger, _, _, rfl⟩

theorem carried_putSess (m : Nat) (x : Session) (c : Chip) : Carried c (c.modBill (Bill.putSess m x)) :=
  ⟨_, _, _, _, _, _, c.ledger, _, _, rfl⟩

theorem carried_bayEvent (i : Nat) (c : Chip) : Carried c (c.bayEvent i) := carried_modBay _ c

theorem carried_bayField (a : Nat) (v : W64) (c : Chip) : Carried c (c.bayField a v) := carried_modBay _ c

theorem carried_raise (code : W16) (unit : Nat) (a0 a1 : W32) (c : Chip) : Carried c (c.raise code unit a0 a1) :=
  (noted_raise code unit a0 a1 c).carried

theorem carried_toEngine (k : Nat) (ev : CtxEv) (c : Chip) : Carried c (c.toEngine k ev) :=
  carried_ite (carried_modEng _ _ c)
    ((carried_ite (carried_raise _ _ _ _ c) (Carried.refl c)).trans (carried_modEng _ _ _))

theorem carried_toEngines (ev : CtxEv) (c : Chip) : Carried c (c.toEngines ev) :=
  carried_each (fun k c => carried_toEngine k ev c) _ c

theorem carried_stageAt (place ord : Nat) (kind : W16) (flags six : Nat) (p : List W8) (c : Chip) :
    Carried c (c.stageAt place ord kind flags six p) :=
  carried_ite (Carried.refl c) (carried_modLedger (by rfl))

theorem carried_signBehind (kind : W16) (six : Nat) (c : Chip) : Carried c (c.signBehind kind six) :=
  carried_ite (Carried.refl c) (carried_modLedger (by rfl))

theorem carried_modLastSess (f g : Bill → Tbl Session) (c : Chip) :
    Carried c (c.modBill (fun b => { b with sess := f b, lastSess := g b })) :=
  ⟨_, _, _, _, _, _, c.ledger, _, _, rfl⟩

theorem carried_sessionEnd (m : Nat) (c : Chip) : Carried c (c.sessionEnd m) :=
  carried_ite (Carried.refl c) ((((carried_modLastSess _ _ c).trans (carried_stageAt _ _ _ _ _ _ _)).trans
    (carried_signBehind _ _ _)).trans (carried_bayEvent _ _))

theorem carried_sessionAsk (m : Nat) (reason : W8) (stamp : Nat) (c : Chip) :
    Carried c (c.sessionAsk m reason stamp) :=
  carried_ite (Carried.refl c) (((carried_putSess _ _ c).trans (carried_toEngines _ _)).trans
    (carried_ite (Carried.refl _) (carried_sessionEnd _ _)))

theorem carried_closeSessions (reason : W8) (c : Chip) : Carried c (c.closeSessions reason) :=
  carried_each (fun m c => carried_sessionAsk m reason _ c) _ c



theorem carried_latchWins (old c : Chip) : Carried c (Chip.latchWins old c) :=
  carried_each (fun _ c => carried_ite (Carried.refl c)
    ⟨_, _, _, _, _, _, c.ledger, _, _, rfl⟩) _ c

theorem carried_legalTo (g : Nat) (ws : List (Nat × W32)) (s k : Nat) (c : Chip) : Carried c (c.legalTo g ws s k) :=
  ((carried_modEng k _ c).trans (carried_ite (carried_modEng k _ _) (Carried.refl _))).trans (carried_toEngine k _ _)

/-- `d` differs from `c` at most in what choosing the instants of waiting changes touches: the changes that wait, and
what sessions and engines hear of them. -/
def Chosen (c d : Chip) : Prop := ∃ p, Carried { c with cfg := { c.cfg with pend := p } } d

theorem Carried.chosen {c d : Chip} (h : Carried c d) : Chosen c d := ⟨c.cfg.pend, h⟩

theorem Chosen.trans {a b c : Chip} : Chosen a b → Chosen b c → Chosen a c := by
  rintro ⟨p, h, en, se, ls, aw, ev, le, fe, ba, rfl⟩ ⟨p', h', en', se', ls', aw', ev', le', fe', ba', rfl⟩
  exact ⟨p', h', en', se', ls', aw', ev', le', fe', ba', rfl⟩

theorem chosen_each {α : Type} {f : α → Chip → Chip} (h : ∀ a c, Chosen c (f a c)) :
    ∀ (l : List α) (c : Chip), Chosen c (each l f c)
  | [], c => (Carried.refl c).chosen
  | a :: t, c => (h a c).trans (chosen_each h t (f a c))

theorem chosen_modPend (g : Cfg → List PendCommit) (c : Chip) : Chosen c (c.modCfg (fun x => { x with pend := g x })) :=
  ⟨g c.cfg, Carried.refl _⟩

theorem chosen_choose (p : PendCommit) (c : Chip) : Chosen c (c.choose p) :=
  (chosen_modPend _ c).trans ((carried_ite (Carried.refl _)
    (carried_each (fun m c => carried_sessionAsk m _ _ c) _ _)).trans
    (carried_each (fun k c => carried_legalTo _ _ _ k c) _ _)).chosen

theorem chosen_chooseAll (old c : Chip) : Chosen c (Chip.chooseAll old c) := by
  unfold Chip.chooseAll
  split
  · exact (Carried.refl c).chosen
  · exact (chosen_modPend _ c).trans (chosen_each (fun _ c => chosen_choose _ c) _ _)

/-! ### The parts of settling that tell the bay -/

theorem carried_settleAux (old c : Chip) : Carried c (Chip.settleAux old c) := carried_when (carried_modBay _ c)

theorem carried_settleSafe (old c : Chip) : Carried c (Chip.settleSafe old c) :=
  carried_ite (Carried.refl c)
    (((carried_bayField _ _ c).trans (carried_bayEvent _ _)).trans (noted_fqPut _ _ _).carried)

theorem carried_tripCheck (old c : Chip) : Carried c (Chip.tripCheck old c) :=
  carried_ite (Carried.refl c) (carried_ite (Carried.refl c)
    (((carried_modBay _ c).trans (carried_raise _ _ _ _ _)).trans (carried_bayEvent _ _)))

theorem carried_signalLost (old c : Chip) : Carried c (Chip.signalLost old c) := by
  unfold Chip.signalLost
  split
  · exact carried_ite ((carried_modBay _ c).trans (noted_fqPut _ _ _).carried) (Carried.refl c)
  · exact Carried.refl c

theorem carried_bayWatch (old c : Chip) : Carried c (Chip.bayWatch old c) := by
  unfold Chip.bayWatch
  dsimp only
  refine carried_ite (carried_signalLost old c) (Carried.trans ?_ (noted_fqPut _ _ _).carried)
  exact ((carried_signalLost old c).trans (carried_when (carried_bayField _ _ _))).trans (carried_when ((carried_bayField _ _ _).trans (carried_bayEvent _ _)))

theorem carried_holdsOver (old c : Chip) : Carried c (Chip.holdsOver old c) :=
  carried_each (fun q c => (noted_modFq q _ c).carried) _ c

/-! ### The parts of settling -/

theorem follows_pulseStart (m s : Nat) (c : Chip) : Follows c (c.pulseStart m s) := by
  unfold Chip.pulseStart
  dsimp only
  split
  · split
    · exact (follows_modSpill m s _ c).trans (follows_drvCommand _ _ _)
    · exact follows_modSpill m s _ c
  · exact Follows.refl c

theorem follows_pulses (old c : Chip) : Follows c (Chip.pulses old c) :=
  follows_each (fun _ c => follows_pulseStart _ _ c) _ c

theorem follows_escSend (i : Nat) (start : Bool) (seq : W16) (c : Chip) : Follows c (c.escSend i start seq) :=
  follows_ite (Follows.refl c) (follows_ite (follows_modConn _ _ c) (follows_modConn _ _ c))

theorem follows_escNext (i : Nat) (c : Chip) : Follows c (c.escNext i) :=
  follows_ite (follows_ite (Follows.refl c) (follows_escSend _ _ _ c))
    (follows_ite (follows_escSend _ _ _ c) (Follows.refl c))

theorem follows_escPermits (old c : Chip) : Follows c (Chip.escPermits old c) := follows_each follows_escNext _ c

theorem follows_settleStop (old c : Chip) : Follows c (Chip.settleStop old c) :=
  follows_ite ((follows_bayStep2 c).trans (carried_closeSessions _ _).follows) (Follows.refl c)

theorem follows_lampStart (old c : Chip) : Follows c (Chip.lampStart old c) :=
  follows_each (fun _ c => follows_ite (follows_modDrive _ _ c) (Follows.refl c)) _ c

end Sys2Proof.Machine
end


section
/-! Every step leaves the mode, the QUARANTINE record and the field in agreement with their conditions (R19, R222,
R310, R325): each is set right at its place in settling, and what settling does after that leaves it alone. -/

namespace Sys2Proof.Machine

open Sys2Proof

/-! ### The QUARANTINE record -/

/-- A tamper record as a note of it in the event log and the ledger leaves it. -/
theorem tamperNote_trec (ty unit six : Nat) (start : Bool) (x : List W8) (c : Chip) (j : Nat) :
    (c.tamperNote ty unit six start x).trec j = c.trec j := by
  unfold Chip.trec
  rw [show (c.tamperNote ty unit six start x).tamper = c.tamper from
    ((noted_raiseAt _ _ _ _ _ c).follows.trans (carried_stageAt _ _ _ _ _ _ _).follows).tamper]

@[simp] theorem modTrec_trec (ty : Nat) (g : TampRec → TampRec) (c : Chip) (j : Nat) :
    (c.modTrec ty g).trec j = if j = ty then g (c.trec ty) else c.trec j := by
  simp [Chip.modTrec, Chip.trec]

/-- A tamper condition that starts for a unit is held by it. -/
theorem tamperStart_holds (ty unit six : Nat) (c : Chip) :
    ((c.tamperStart ty unit six).trec ty).holders.any (fun h => h.1 == unit) = true := by
  unfold Chip.tamperStart
  split
  · assumption
  · rw [tamperNote_trec]
    simp [TampRec.start]

/-- A tamper condition that ends for a unit is no longer held by it. -/
theorem tamperEnd_frees (ty unit six : Nat) (c : Chip) :
    ((c.tamperEnd ty unit six).trec ty).holders.any (fun h => h.1 == unit) = false := by
  unfold Chip.tamperEnd
  split
  · next h => simpa [List.find?_eq_none] using h
  · rw [tamperNote_trec]
    simp

/-- Settling the QUARANTINE record makes it agree with the causes (R222). -/
theorem settleQuar_agrees (c : Chip) : quarHeld c.settleQuar = (c.settleQuar.sys.qcause != 0) := by
  unfold Chip.settleQuar quarHeld
  split
  · next h => rw [tamperStart_holds, tamperStart_sys_qcause, h]
  · next h => rw [tamperEnd_frees, tamperEnd_sys_qcause, Bool.eq_false_iff.mpr h]

/-! ### The field and the mode -/

/-- Settling the field changes the field alone. -/
theorem settleField_eq (c : Chip) :
    c.settleField = { c with link := { c.link with field := c.link.field && c.fieldMay } } := by
  unfold Chip.settleField
  cases hf : c.link.field with
  | false => rw [Bool.false_and, Bool.false_and, when_false, ← hf]
  | true =>
    cases c.fieldMay with
    | false => rfl
    | true => rw [Bool.not_true, Bool.and_false, Bool.and_true, when_false, ← hf]

/-- A settled field is on only where it may be (R310, R325). -/
theorem settleField_ruled (c : Chip) : c.settleField.link.field = true → c.settleField.fieldMay = true := by
  rw [settleField_eq]
  intro h
  exact (Bool.and_eq_true_iff.mp h).2

/-- The reported mode apart, setting it touches hint bits and the bay's events alone. -/
theorem setMode_eq (c : Chip) : ∃ h b, c.setMode =
    { c with sys := { c.sys with mode := c.modeOf, hintStatus := h }, bay := b } := by
  unfold Chip.setMode
  dsimp only
  split
  · next h => exact ⟨c.sys.hintStatus, c.bay, by rw [h]⟩
  · exact ⟨_, _, rfl⟩

/-! ### The whole of settling -/

/-- Settling sets the QUARANTINE record, the field and the mode right in this order, and what comes between and
behind follows them. -/
theorem settle_stages (old c : Chip) : ∃ y z, Follows (Chip.chooseAll old (Chip.latchWins old c)).settleQuar y ∧
    Follows y.settleField z ∧ Follows z.setMode (Chip.settle old c) := by
  refine ⟨_, Chip.bayWatch old _, ?_, (carried_bayWatch old _).follows, (carried_holdsOver old _).follows⟩
  exact ((((((follows_pulses old _).trans (follows_escPermits old _)).trans (follows_settleStop old _)).trans
    (carried_settleAux old _).follows).trans (carried_settleSafe old _).follows).trans (follows_lampStart old _)).trans
    (carried_tripCheck old _).follows

/-- A block in which each of the three was set right in turn agrees with its conditions. -/
theorem settled_of_stages {x y z d : Chip} (l : List Instr) (hq : Follows x.settleQuar y)
    (hf : Follows y.settleField z) (hm : Follows z.setMode d) : Settled ⟨d, l⟩ := by
  obtain ⟨h, b, hz⟩ := setMode_eq z
  rw [hz] at hm
  have hy := settleField_eq y
  refine ⟨?_, ?_, ?_⟩
  · obtain ⟨h', hs⟩ := hm.sys
    exact (congrArg Sys.mode hs).trans hm.modeOf.symm
  · have hqz : quarHeld z = quarHeld x.settleQuar := by
      rw [hf.quarHeld, hy, ← hq.quarHeld]
      rfl
    have hcz : z.sys.qcause = x.settleQuar.sys.qcause := by
      rw [hf.qcause, hy, ← hq.qcause]
    exact (hm.quarHeld.trans hqz).trans ((settleQuar_agrees x).trans (by rw [hm.qcause, ← hcz]))
  · have hlz : z.link.field = true → z.fieldMay = true := by
      rw [hf.link, hf.fieldMay]
      exact settleField_ruled y
    show d.link.field = true → d.fieldMay = true
    rw [hm.link, hm.fieldMay]
    exact hlz

/-- A settled block agrees with its conditions, whatever the command has left. -/
theorem settled_settle (old c : Chip) (l : List Instr) : Settled ⟨Chip.settle old c, l⟩ := by
  obtain ⟨y, z, hq, hf, hm⟩ := settle_stages old c
  exact settled_of_stages l hq hf hm

/-! ### The statement -/

/-- Every command leaves a block to settle, and settling is all that follows. -/
theorem exec_settles (i : Instr) (s : State) : ∃ d, exec i s = .next ⟨Chip.settle s.chip d, s.pending⟩ := by
  cases i <;> exact ⟨_, rfl⟩

/-- Settles O2: an idle step changes nothing, and every other step ends in settling. -/
theorem stepKeepsSettled : Obligations.StepKeepsSettled := by
  unfold Obligations.StepKeepsSettled
  intro s t hs ht
  unfold step at ht
  split at ht
  · rw [← Host.Outcome.next.inj ht]
    exact hs
  · next i rest _ =>
    obtain ⟨d, hd⟩ := exec_settles i { s with pending := rest }
    rw [← Host.Outcome.next.inj (hd.symm.trans ht)]
    exact settled_settle s.chip d rest

end Sys2Proof.Machine
end

section
/-! What settling leaves of any block, whatever the command (R19, R44). -/

namespace Sys2Proof.Machine

open Sys2Proof Sys2Proof.Claims

/-- `d` differs from `c` at most in what `Follows` allows, the mode, the tamper records and the field. -/
def After (c d : Chip) : Prop :=
  ∃ h mo ma o dn p en se ls aw sp ev tm le fe ba dr cn fi,
    (∀ m, ∃ x, Tbl.get ({} : Master) ma m = { c.master m with outbox := x }) ∧
    d = { c with
      sys := { c.sys with hintStatus := h, mode := mo }, masters := ma, tix := { c.tix with out := o, done := dn }
      cfg := { c.cfg with pend := p }, engs := en
      bill := { c.bill with sess := se, lastSess := ls, aheadW := aw, spill := sp }
      evt := ev, tamper := tm
      ledger := { (le : Ledger) with closed := c.ledger.closed }
      ferry := fe, bay := ba, drv := { c.drv with d := dr }
      safe := { c.safe with conns := cn }, link := { c.link with field := fi } }

theorem After.trans {a b c : Chip} : After a b → After b c → After a c := by
  rintro ⟨h, mo, ma, o, dn, p, en, se, ls, aw, sp, ev, tm, le, fe, ba, dr, cn, fi, hm, rfl⟩
    ⟨h', mo', ma', o', dn', p', en', se', ls', aw', sp', ev', tm', le', fe', ba', dr', cn', fi', hm', rfl⟩
  refine ⟨_, _, _, _, _, _, _, _, _, _, _, _, _, le', _, _, _, _, _, fun m => ?_, rfl⟩
  obtain ⟨x, hx⟩ := hm m
  obtain ⟨y, hy⟩ := hm' m
  exact ⟨y, hy.trans (by rw [show Chip.master _ m = Tbl.get ({} : Master) ma m from rfl, hx])⟩

theorem Follows.after {c d : Chip} : Follows c d → After c d := by
  rintro ⟨h, ma, o, dn, en, se, ls, aw, sp, ev, le, fe, ba, dr, cn, hm, rfl⟩
  exact ⟨_, _, _, _, _, _, _, _, _, _, _, _, _, le, _, _, _, _, _, hm, rfl⟩

theorem Chosen.after {c d : Chip} : Chosen c d → After c d := by
  rintro ⟨p, h, en, se, ls, aw, ev, le, fe, ba, rfl⟩
  exact ⟨_, _, _, _, _, _, _, _, _, _, _, _, _, le, _, _, _, _, _, masters_same c, rfl⟩

/-- Notes and records leave what settling may change, where the ledger is as open as it was. -/
theorem Recorded.after {c d : Chip} (hl : d.ledger.closed = c.ledger.closed) : Recorded c d → After c d := by
  rintro ⟨e, f, h, t, l, rfl⟩
  have hc : ({ l with closed := c.ledger.closed } : Ledger) = l := by
    rw [← hl]
  exact ⟨_, _, _, _, _, _, _, _, _, _, _, _, _, l, _, _, _, _, _, masters_same c, by rw [hc]⟩

theorem stage_closed (kind : W16) (flags six : Nat) (p : List W8) (c : Chip) :
    (c.stage kind flags six p).ledger.closed = c.ledger.closed := by
  unfold Chip.stage Chip.stageAt
  split <;> rfl

theorem tamperNote_closed (ty unit six : Nat) (start : Bool) (x : List W8) (c : Chip) :
    (c.tamperNote ty unit six start x).ledger.closed = c.ledger.closed := by
  unfold Chip.tamperNote
  rw [stage_closed, raiseAt_ledger]

theorem settleQuar_closed (c : Chip) : c.settleQuar.ledger.closed = c.ledger.closed := by
  unfold Chip.settleQuar Chip.tamperStart Chip.tamperEnd
  split
  · split
    · rfl
    · exact tamperNote_closed ..
  · split
    · rfl
    · exact tamperNote_closed ..

theorem recorded_settleQuar (c : Chip) : Recorded c c.settleQuar := by
  unfold Chip.settleQuar
  split
  · exact recorded_tamperStart _ _ _ c
  · exact recorded_tamperEnd _ _ _ c

/-- What settling leaves of any block. -/
theorem after_settle (old d : Chip) : After d (Chip.settle old d) := by
  obtain ⟨y, z, hq, hf, hm⟩ := settle_stages old d
  have hx : After d (Chip.chooseAll old (Chip.latchWins old d)) :=
    ((carried_latchWins old d).chosen.trans (chosen_chooseAll old _)).after
  have hfield : After y y.settleField := by
    rw [settleField_eq]
    exact ⟨_, _, _, _, _, _, _, _, _, _, _, _, _, y.ledger, _, _, _, _, _, masters_same y, rfl⟩
  have hmode : After z z.setMode := by
    obtain ⟨h, b, hz⟩ := setMode_eq z
    rw [hz]
    exact ⟨_, _, _, _, _, _, _, _, _, _, _, _, _, z.ledger, _, _, _, _, _, masters_same z, rfl⟩
  exact (((((hx.trans (Recorded.after (settleQuar_closed _) (recorded_settleQuar _))).trans hq.after).trans hfield).trans hf.after).trans hmode).trans hm.after

/-- The waiting changes are what choosing their instants has left. -/
theorem settle_pend (old d : Chip) :
    (Chip.settle old d).cfg.pend = (Chip.chooseAll old (Chip.latchWins old d)).cfg.pend := by
  obtain ⟨y, z, hq, hf, hm⟩ := settle_stages old d
  obtain ⟨h, b, hz⟩ := setMode_eq z
  obtain ⟨e, f, h, t, l, hx⟩ := recorded_settleQuar (Chip.chooseAll old (Chip.latchWins old d))
  rw [hm.cfg, hz, hf.cfg, settleField_eq, hq.cfg, hx]

section
variable (old d : Chip)

theorem settle_host : (Chip.settle old d).host = d.host := by
  obtain ⟨_, _, _, _, _, _, _, _, _, _, _, _, _, _, _, _, _, _, _, _, h⟩ := after_settle old d
  rw [h]

theorem settle_lands : (Chip.settle old d).lands = d.lands := by
  obtain ⟨_, _, _, _, _, _, _, _, _, _, _, _, _, _, _, _, _, _, _, _, h⟩ := after_settle old d
  rw [h]

theorem settle_groups : (Chip.settle old d).groups = d.groups := by
  obtain ⟨_, _, _, _, _, _, _, _, _, _, _, _, _, _, _, _, _, _, _, _, h⟩ := after_settle old d
  rw [h]

theorem settle_taps : (Chip.settle old d).taps = d.taps := by
  obtain ⟨_, _, _, _, _, _, _, _, _, _, _, _, _, _, _, _, _, _, _, _, h⟩ := after_settle old d
  rw [h]

theorem settle_lib : (Chip.settle old d).lib = d.lib := by
  obtain ⟨_, _, _, _, _, _, _, _, _, _, _, _, _, _, _, _, _, _, _, _, h⟩ := after_settle old d
  rw [h]

theorem settle_tariff : (Chip.settle old d).tariff = d.tariff := by
  obtain ⟨_, _, _, _, _, _, _, _, _, _, _, _, _, _, _, _, _, _, _, _, h⟩ := after_settle old d
  rw [h]

theorem settle_time : (Chip.settle old d).time = d.time := by
  obtain ⟨_, _, _, _, _, _, _, _, _, _, _, _, _, _, _, _, _, _, _, _, h⟩ := after_settle old d
  rw [h]

theorem settle_power : (Chip.settle old d).power = d.power := by
  obtain ⟨_, _, _, _, _, _, _, _, _, _, _, _, _, _, _, _, _, _, _, _, h⟩ := after_settle old d
  rw [h]

theorem settle_save : (Chip.settle old d).save = d.save := by
  obtain ⟨_, _, _, _, _, _, _, _, _, _, _, _, _, _, _, _, _, _, _, _, h⟩ := after_settle old d
  rw [h]

theorem settle_disp : (Chip.settle old d).disp = d.disp := by
  obtain ⟨_, _, _, _, _, _, _, _, _, _, _, _, _, _, _, _, _, _, _, _, h⟩ := after_settle old d
  rw [h]

theorem settle_key : (Chip.settle old d).key = d.key := by
  obtain ⟨_, _, _, _, _, _, _, _, _, _, _, _, _, _, _, _, _, _, _, _, h⟩ := after_settle old d
  rw [h]

theorem settle_upd : (Chip.settle old d).upd = d.upd := by
  obtain ⟨_, _, _, _, _, _, _, _, _, _, _, _, _, _, _, _, _, _, _, _, h⟩ := after_settle old d
  rw [h]

theorem settle_net : (Chip.settle old d).net = d.net := by
  obtain ⟨_, _, _, _, _, _, _, _, _, _, _, _, _, _, _, _, _, _, _, _, h⟩ := after_settle old d
  rw [h]

theorem settle_pair : (Chip.settle old d).pair = d.pair := by
  obtain ⟨_, _, _, _, _, _, _, _, _, _, _, _, _, _, _, _, _, _, _, _, h⟩ := after_settle old d
  rw [h]

theorem settle_closed : (Chip.settle old d).ledger.closed = d.ledger.closed := by
  obtain ⟨_, _, _, _, _, _, _, _, _, _, _, _, _, _, _, _, _, _, _, _, h⟩ := after_settle old d
  rw [h]

theorem settle_nextTicket : (Chip.settle old d).tix.next = d.tix.next := by
  obtain ⟨_, _, _, _, _, _, _, _, _, _, _, _, _, _, _, _, _, _, _, _, h⟩ := after_settle old d
  rw [h]

/-- Settling reports the mode and sets hint bits. -/
theorem settle_sys : ∃ h m, (Chip.settle old d).sys = { d.sys with hintStatus := h, mode := m } := by
  obtain ⟨h, m, _, _, _, _, _, _, _, _, _, _, _, _, _, _, _, _, _, _, he⟩ := after_settle old d
  rw [he]
  exact ⟨h, m, rfl⟩

/-- Of the configuration, settling touches the waiting changes alone. -/
theorem settle_cfg : ∃ p, (Chip.settle old d).cfg = { d.cfg with pend := p } := by
  obtain ⟨_, _, _, _, _, p, _, _, _, _, _, _, _, _, _, _, _, _, _, _, he⟩ := after_settle old d
  rw [he]
  exact ⟨p, rfl⟩

theorem settle_live (b : Nat) : (Chip.settle old d).live b = d.live b := by
  obtain ⟨p, hp⟩ := settle_cfg old d
  unfold Chip.live
  rw [hp]

/-- Of a master, settling fills the outbox alone. -/
theorem settle_master (m : Nat) : ∃ x, (Chip.settle old d).master m = { d.master m with outbox := x } := by
  obtain ⟨_, _, ma, _, _, _, _, _, _, _, _, _, _, _, _, _, _, _, _, hm, he⟩ := after_settle old d
  rw [he]
  exact hm m

/-- Settling keeps an acknowledgement. -/
theorem settle_acked {r : CmdReq} {st : W8} {t : W16} (h : acked r st t d) : acked r st t (Chip.settle old d) := by
  obtain ⟨x, hx⟩ := settle_master old d r.m.val
  unfold acked
  rw [hx]
  exact h

end

end Sys2Proof.Machine
end

section
/-! The queue, the state after reset, byte memories (log 105), and the registers and loop ends of a thread (R93,
R99). -/

namespace Sys2Proof.Machine

open Sys2Proof

/-! ### The queue and reset -/

/-- Settles O1: both halves are the two branches of a step. -/
theorem stepTakesFront : Obligations.StepTakesFront := by
  unfold Obligations.StepTakesFront
  refine ⟨fun i l s h => ?_, fun s h => ?_⟩ <;> simp only [step, h]

/-- After reset the AO island alone is ready. -/
theorem reset_rdy (i : Nat) (hi : 1 ≤ i) : State.reset.chip.rdy i = false := by
  show (1#20).getLsbD i = false
  rw [BitVec.getLsbD_one]
  simp only [Bool.and_eq_false_iff, decide_eq_false_iff_not]
  omega

/-- Settles O4: every table is empty after reset, so each entry has its default. -/
theorem resetState : Obligations.ResetState := by
  unfold Obligations.ResetState
  refine ⟨⟨rfl, rfl, nofun⟩, rfl, rfl, reset_rdy, rfl, rfl, rfl, fun _ => ⟨rfl, rfl⟩,
    fun _ => ⟨rfl, rfl, rfl, rfl⟩, fun _ => rfl, fun _ => ⟨rfl, rfl⟩, fun e k => ?_, rfl, rfl, rfl⟩
  cases e <;> rfl

/-! ### Byte memories -/

/-- A write of bytes reads back. -/
theorem Mem.rdN_wrN_same : ∀ (l : List W8) (m : Mem) (a : Nat), Mem.rdN (Mem.wrN m a l) a l.length = l
  | [], _, _ => rfl
  | v :: t, m, a => by
    have head : Mem.rd (Mem.wrN (Mem.wr m a v) (a + 1) t) a = v := by
      rw [Mem.rd_wrN_other t _ _ _ (Or.inl (Nat.lt_succ_self a)), Mem.rd_wr, if_pos rfl]
    exact congrArg₂ List.cons head (Mem.rdN_wrN_same t _ _)

section
variable {α : Type} [DecidableEq α] {d : α}

/-- Below the bound of a canonical table every entry has the default. -/
theorem Tbl.get_of_wfFrom_lt : ∀ {t : Tbl α} {lo i : Nat}, Tbl.wfFrom d lo t = true → i < lo → Tbl.get d t i = d
  | [], _, _, _, _ => rfl
  | (j, a) :: t, lo, i, h, hi => by
    simp only [Tbl.wfFrom, Bool.and_eq_true, decide_eq_true_eq] at h
    obtain ⟨⟨hj, -⟩, ht⟩ := h
    rw [Tbl.get, if_neg (by omega), Tbl.get_of_wfFrom_lt ht (by omega)]

/-- A canonical table with an entry holds a value that is not the default. -/
theorem Tbl.get_head_ne {t : Tbl α} {lo j : Nat} {a : α} (h : Tbl.wfFrom d lo ((j, a) :: t) = true) :
    Tbl.get d ((j, a) :: t) j ≠ d := by
  simp only [Tbl.wfFrom, Bool.and_eq_true, decide_eq_true_eq] at h
  rw [Tbl.get, if_pos rfl]
  exact h.1.2

/-- Canonical tables with the same contents are the same. -/
theorem Tbl.ext_of_wfFrom : ∀ {t u : Tbl α} {lo lo' : Nat}, Tbl.wfFrom d lo t = true → Tbl.wfFrom d lo' u = true →
    (∀ i, Tbl.get d t i = Tbl.get d u i) → t = u
  | [], [], _, _, _, _, _ => rfl
  | [], (j, _) :: _, _, _, _, hu, h => absurd (h j).symm (Tbl.get_head_ne hu)
  | (j, _) :: _, [], _, _, ht, _, h => absurd (h j) (Tbl.get_head_ne ht)
  | (j, a) :: t, (k, b) :: u, _, _, ht, hu, h => by
    have hj := Tbl.get_head_ne ht
    have hk := Tbl.get_head_ne hu
    have hjk : j = k := by
      have wt := ht
      have wu := hu
      simp only [Tbl.wfFrom, Bool.and_eq_true, decide_eq_true_eq] at wt wu
      by_contra hne
      rcases Nat.lt_or_gt_of_ne hne with hlt | hlt
      · rw [h j, Tbl.get, if_neg (by omega), Tbl.get_of_wfFrom_lt wu.2 (by omega)] at hj
        exact hj rfl
      · rw [← h k, Tbl.get, if_neg (by omega), Tbl.get_of_wfFrom_lt wt.2 (by omega)] at hk
        exact hk rfl
    subst hjk
    have hab : a = b := by simpa [Tbl.get] using h j
    subst hab
    simp only [Tbl.wfFrom, Bool.and_eq_true, decide_eq_true_eq] at ht hu
    refine congrArg _ (Tbl.ext_of_wfFrom ht.2 hu.2 (fun i => ?_))
    have hi := h i
    by_cases hij : j = i
    · rw [Tbl.get_of_wfFrom_lt ht.2 (by omega), Tbl.get_of_wfFrom_lt hu.2 (by omega)]
    · rwa [Tbl.get, Tbl.get, if_neg hij, if_neg hij] at hi

end

/-- Settles O5: the canonical form of a table has one entry for each address with another value than zero, in
ascending order. -/
theorem memoryCanonical : Obligations.MemoryCanonical := by
  unfold Obligations.MemoryCanonical
  exact fun m m' a j l => ⟨Mem.rdN_wrN_same l m a, Mem.rd_wrN_other l m a j, Mem.wf_wrN l m a, Tbl.ext_of_wfFrom⟩

/-! ### Registers and loop ends -/

/-- No loop ends at the instruction: the next one follows. -/
theorem loopEnd_outside {pc : Nat} : ∀ {ls : List LoopRec}, (∀ l ∈ ls, l.last ≠ pc) → loopEnd pc ls = (pc + 1, ls)
  | [], _ => rfl
  | l :: ls, h => by
    obtain ⟨hl, hls⟩ := List.forall_mem_cons.mp h
    rw [loopEnd, if_neg hl, loopEnd_outside hls]

theorem Thread.rx_wx (t : Thread) (r q : Reg) (v : W64) :
    (t.wx r v).rx q = if q = 0 then 0 else if q = r then v else t.rx q := by
  by_cases hq : q = 0
  · simp [Thread.rx, hq]
  · by_cases hr : r = 0
    · simp [Thread.wx, hq, hr]
    · simp [Thread.wx, Thread.rx, hq, hr, Fin.ext_iff]

theorem Thread.rw_ww (t : Thread) (a b : WReg) (v : W128) : (t.ww a v).rw b = if b = a then v else t.rw b := by
  simp [Thread.ww, Thread.rw, Fin.ext_iff]

/-- Settles O7: registers are tables, and the end of an instruction follows the innermost loop. -/
theorem threadRegistersAndLoops : Obligations.ThreadRegistersAndLoops := by
  unfold Obligations.ThreadRegistersAndLoops
  refine ⟨⟨fun t r q v => ⟨t.rx_wx r q v, rfl, ?_, ?_⟩, fun t a b v => ⟨t.rw_ww a b v, rfl, rfl⟩, fun _ _ => rfl⟩,
    fun t bay => ⟨fun h => ?_, fun l ls hl hlast hleft => ?_, fun l hl hlast hleft => ?_⟩⟩
  · unfold Thread.wx; split <;> rfl
  · unfold Thread.wx; split <;> rfl
  · simp only [Thread.advance, loopEnd_outside h]
  · simp [Thread.advance, hl, loopEnd, hlast, hleft]
  · simp [Thread.advance, hl, loopEnd, hlast, Nat.not_lt.mpr hleft]

end Sys2Proof.Machine
end

section
/-! Instructions that change their thread alone (R98-R102, R107, R112): the rule of each of their shapes, and the
statements on floating-point and property results, accumulators and control flow. -/

namespace Sys2Proof.Machine

open Sys2Proof Sys2Proof.Claims

/-! ### The shapes -/

/-- An engine's thread is of the Q-profile. -/
theorem onEngine_bay {e : Exec} {k : Nat} {rep : Bool} (ho : onEngine e k rep) : (e == .bay) = false := by
  cases e with
  | bay => exact ho.elim
  | head | replay => rfl

section
variable {e : Exec} {rd : Reg} {i : Instr} {s : State} (hs : Settled s) (hr : runs e s.chip)
include hs hr

/-- An instruction of both profiles that puts into rd what a function of the thread gives, where it does not trap. -/
theorem answers_of_putE {g : Thread → Except W8 W64} {v : W64}
    (hi : exec i s = run (Chip.pureI e (fun bay t => t.putE bay rd (g t))) s) (hv : g (threadOf e s.chip) = .ok v) :
    answers i s (wrote e rd v s.chip) := by
  refine hi.trans (run_pureI hs hr ?_)
  rw [hv]
  rfl

/-- An instruction of both profiles whose effect on its thread is known. -/
theorem answers_of_thread {f : Bool → Thread → Except W8 Thread} {t : Thread}
    (hi : exec i s = run (Chip.pureI e f) s) (hf : f (e == .bay) (threadOf e s.chip) = .ok t) :
    answers i s (withThread e t s.chip) :=
  hi.trans (run_pureI hs hr hf)

variable {k : Nat} {rep : Bool} (ho : onEngine e k rep)
include ho

/-- An instruction of the Q-profile that puts into rd what a function of the thread gives, where it does not trap. -/
theorem answers_of_putQ {g : Thread → Except W8 W64} {v : W64}
    (hi : exec i s = run (Chip.pureQ e (fun t => t.putE false rd (g t))) s) (hv : g (threadOf e s.chip) = .ok v) :
    answers i s (wrote e rd v s.chip) := by
  refine hi.trans (run_pureQ hs hr ho ?_)
  rw [hv, onEngine_bay ho]
  rfl

/-- An instruction of the Q-profile that leaves a value in an accumulator. -/
theorem answers_of_acc {f : Thread → Except W8 Thread} {wa : WReg} {v : W128}
    (hi : exec i s = run (Chip.pureQ e f) s)
    (hf : f (threadOf e s.chip) = .ok (((threadOf e s.chip).ww wa v).advance false)) :
    answers i s (wroteW e wa v s.chip) := by
  refine hi.trans (run_pureQ hs hr ho ?_)
  rw [hf, onEngine_bay ho]

end

/-! ### Floating-point and property results -/

/-- Settles O9: each instruction puts into rd what its operation gives. -/
theorem floatAndPropertyResults : Obligations.FloatAndPropertyResults := by
  unfold Obligations.FloatAndPropertyResults
  refine ⟨fun e rd a b d rm q s v hs hr => ?_, fun e k rep rd a b d pair s v hs hr ho => ?_⟩
  · exact ⟨answers_of_alu hs hr rfl, answers_of_alu hs hr rfl, answers_of_alu hs hr rfl, answers_of_alu hs hr rfl,
      answers_of_putE (g := fun t => fsqrt (t.rx a)) hs hr rfl,
      answers_of_putE (g := fun t => fma (t.rx a) (t.rx b) (t.rx d)) hs hr rfl,
      answers_of_putE (g := fun t => fcvtI rm (t.rx a)) hs hr rfl,
      fun h => answers_of_put hs hr rfl (Except.ok.inj h), answers_of_alu hs hr rfl⟩
  · have h97 (n : Nat) {i : Instr}
        (hi : exec i s = run (Chip.pureQ e (fun t => t.putE false rd (if97Op n pair (t.rx a) (t.rx b)))) s) :=
      answers_of_putQ (v := v) hs hr ho hi
    have hair (n : Nat) {i : Instr}
        (hi : exec i s = run (Chip.pureQ e (fun t => t.putE false rd (airOp n (t.rx a) (t.rx b) (t.rx d)))) s) :=
      answers_of_putQ (v := v) hs hr ho hi
    exact ⟨h97 0 rfl, h97 1 rfl, h97 2 rfl, h97 3 rfl,
      answers_of_putQ (g := fun t => if97xOp pair (BitVec.ofNat 5 b.val) (t.rx a) (t.rx b)) hs hr ho rfl,
      hair 0 rfl, hair 1 rfl⟩

/-! ### Accumulators -/

/-- A sum that stays within Q64.64 is kept. -/
theorem accAdd_ok {a : W128} {d : Int} (h : -(2 ^ 127) ≤ a.toInt + d ∧ a.toInt + d < 2 ^ 127) :
    accAdd a d = .ok (BitVec.ofInt 128 (a.toInt + d)) := by
  have hok : accOk (a.toInt + d) = true := by simp only [accOk, h.1, h.2, decide_true, Bool.and_self]
  simp only [accAdd, hok, if_true]

theorem macw_ok {wa : WReg} {a b : Reg} {neg : Bool} {t : Thread} {p : Int}
    (hp : mulAcc (t.rx a) (t.rx b) = some p)
    (h : -(2 ^ 127) ≤ (t.rw wa).toInt + (if neg then -p else p) ∧
      (t.rw wa).toInt + (if neg then -p else p) < 2 ^ 127) :
    t.macw wa a b neg = .ok ((t.ww wa (BitVec.ofInt 128 ((t.rw wa).toInt + if neg then -p else p))).advance false) := by
  simp only [Thread.macw, hp, accAdd_ok h]

/-- ADDW whose unused field is 0 adds its source. -/
theorem addw_ok {wa wb : WReg} {a : Reg} {sel : BitVec 2} {t : Thread} {d : Int}
    (hz : (if sel = 0 ∨ sel = 3 then a.val else wb.val) = 0)
    (hd : (if sel = 0 then some (t.rw wb).toInt else if sel = 1 then fAcc (t.rx a)
      else if sel = 2 then some ((t.rx a).toInt * 2 ^ 64) else some (-(t.rw wb).toInt)) = some d)
    (h : -(2 ^ 127) ≤ (t.rw wa).toInt + d ∧ (t.rw wa).toInt + d < 2 ^ 127) :
    t.addw wa wb a sel = .ok ((t.ww wa (BitVec.ofInt 128 ((t.rw wa).toInt + d))).advance false) := by
  simp only [Thread.addw, hz, hd, accAdd_ok h, ne_eq, not_true_eq_false, if_false]

/-- Settles O10: every source of a sum leaves it in the accumulator while it fits. -/
theorem accumulatorResults : Obligations.AccumulatorResults := by
  unfold Obligations.AccumulatorResults
  intro e k rep rd a b wa wb neg s hs hr ho t fits add
  refine ⟨fun p hp hf => answers_of_acc hs hr ho rfl (macw_ok hp hf),
    fun ha hf => answers_of_acc hs hr ho rfl (addw_ok (by simpa using ha) (by simp [t]) hf),
    fun p hw hp hf => answers_of_acc hs hr ho rfl (addw_ok (by simpa using hw) (by simpa using hp) hf),
    fun hw hf => answers_of_acc hs hr ho rfl (addw_ok (by simpa using hw) (by simp [t]) hf),
    fun ha hf => answers_of_acc hs hr ho rfl (addw_ok (by simpa using ha) (by simp [t]) hf),
    answers_of_acc hs hr ho rfl rfl,
    answers_of_putQ (g := fun t => .ok (accToF (t.rw wa))) hs hr ho rfl rfl⟩

/-! ### Control flow -/

theorem pcMod_eq_pcs (e : Exec) : pcMod (e == .bay) = pcs e := by
  cases e <;> rfl

section
variable {e : Exec} {t : Thread} (hl : t.loops = [])
include hl

/-- Outside every loop a thread goes on at the next word. -/
theorem advance_outside : t.advance (e == .bay) = { t with pc := nextPc e t } := by
  simp [Thread.advance, hl, loopEnd, pcMod_eq_pcs, nextPc]

/-- A taken branch outside every loop. -/
theorem jump_outside (d : Int) : t.jump (e == .bay) (t.target (e == .bay) d) =
    { t with pc := (((t.pc : Int) + d) % (pcs e : Int)).toNat } := by
  have hlt : (((t.pc : Int) + d) % (pcs e : Int)).toNat % pcs e = (((t.pc : Int) + d) % (pcs e : Int)).toNat := by
    refine Nat.mod_eq_of_lt ?_
    have hp : (0 : Int) < pcs e := by unfold pcs; split <;> decide
    have := Int.emod_lt_of_pos ((t.pc : Int) + d) hp
    have := Int.emod_nonneg ((t.pc : Int) + d) (ne_of_gt hp)
    omega
  simp only [Thread.jump, Thread.target, hl, pcMod_eq_pcs, leaveLoops, List.reverse_nil, List.takeWhile_nil, hlt]

theorem branch_outside {cnd : Bool} {off : W16} (h : e = .bay ∨ 0 < off.toInt) :
    t.branch (e == .bay) cnd off = .ok { t with pc := if cnd = true then
      (((t.pc : Int) + off.toInt) % (pcs e : Int)).toNat else nextPc e t } := by
  have hill : (!(e == .bay) && decide (off.toInt ≤ 0)) = false := by
    rcases h with rfl | h
    · rfl
    · rw [decide_eq_false (not_le.mpr h), Bool.and_false]
  simp only [Thread.branch, hill, Bool.false_eq_true, if_false, jump_outside hl, advance_outside hl]
  split <;> rfl

theorem returnTo_outside (bay : Bool) (r : Nat) (l : List Nat) : t.returnTo bay r l = { t with link := l, pc := r } := by
  simp [Thread.returnTo, hl]

theorem jr_tally {a : Reg} {l : List Nat} (hlink : t.link = (t.rx a).toNat :: l) :
    t.jr false a = .ok { t with link := l, pc := (t.rx a).toNat } := by
  simp [Thread.jr, hlink, returnTo_outside hl]

theorem loopI_skips {a : Reg} {k : BitVec 4} {n : BitVec 12} (hn : n ≠ 0) (hx : t.rx a = 0) :
    t.loopI (e == .bay) a k n = .ok { t with pc := (t.pc + n.toNat + 1) % pcs e } := by
  simp [Thread.loopI, hl, show ¬ n = 0#12 from hn, hx, loopEnd, Thread.enclosing, pcMod_eq_pcs]

theorem loopI_enters {a : Reg} {k : BitVec 4} {n : BitVec 12} (hn : n ≠ 0) (hx : t.rx a ≠ 0)
    (hk : (t.rx a).toNat ≤ 2 ^ k.toNat) :
    t.loopI (e == .bay) a k n = .ok { t with
      pc := nextPc e t, loops := [{ first := t.pc + 1, last := t.pc + n.toNat, left := (t.rx a).toNat }] } := by
  have hx' : (t.rx a).toNat ≠ 0 := fun h => hx (BitVec.eq_of_toNat_eq h)
  simp [Thread.loopI, hl, show ¬ n = 0#12 from hn, hx', Nat.not_lt.mpr hk, Thread.enclosing, pcMod_eq_pcs, nextPc]

end

/-- A write to a register leaves the loops and the link stack. -/
@[simp] theorem Thread.wx_loops (t : Thread) (r : Reg) (v : W64) : (t.wx r v).loops = t.loops := by
  unfold Thread.wx; split <;> rfl

theorem jal_outside {e : Exec} {t : Thread} (hl : t.loops = []) {off : BitVec 26}
    (h : e = .bay ∨ (0 < off.toInt ∧ t.link.length < 8)) :
    t.jal (e == .bay) off = .ok { t.wx 31 (BitVec.ofNat 64 (nextPc e t)) with
      link := if e = .bay then t.link else nextPc e t :: t.link
      pc := (((t.pc : Int) + off.toInt) % (pcs e : Int)).toNat } := by
  have hill : (!(e == .bay) && (decide (off.toInt ≤ 0) || decide (8 ≤ t.link.length))) = false := by
    rcases h with rfl | ⟨h, h'⟩
    · rfl
    · rw [decide_eq_false (not_le.mpr h), decide_eq_false (not_le.mpr h'), Bool.or_false, Bool.and_false]
  have hw := Thread.wx_loops t 31 (BitVec.ofNat 64 (nextPc e t))
  rw [hl] at hw
  simp only [Thread.jal, hill, Bool.false_eq_true, if_false, pcMod_eq_pcs, Thread.target, hl, mapIf, List.map_nil]
  rw [show (t.pc + 1) % pcs e = nextPc e t from rfl, ← hw]
  simp only [beq_iff_eq]

/-- Settles O11: each instruction of a thread outside every loop goes where its rule says. -/
theorem controlFlow : Obligations.ControlFlow := by
  unfold Obligations.ControlFlow
  intro e a b off far k n s hs hr hl t x y at_ dest
  have branch {i : Instr} {cnd : Thread → Bool} {p : Nat} (hoff : e = .bay ∨ 0 < off.toInt)
      (hi : exec i s = run (Chip.pureI e (fun bay t => t.branch bay (cnd t) off)) s)
      (hc : (if cnd t = true then dest off.toInt else nextPc e t) = p) : at_ i p :=
    hc ▸ answers_of_thread hs hr hi (branch_outside hl hoff)
  refine ⟨fun hoff => ⟨branch hoff rfl ?_, branch hoff rfl ?_, branch hoff rfl ?_, branch hoff rfl ?_⟩,
    fun h => answers_of_thread hs hr rfl (jal_outside hl h), fun he => answers_of_thread hs hr rfl ?_,
    fun he l hlink => answers_of_thread hs hr rfl ?_, fun hn hx => answers_of_thread hs hr rfl (loopI_skips hl hn hx),
    fun hn hx hk => answers_of_thread hs hr rfl (loopI_enters hl hn hx hk)⟩
  · simp [t, x, y]
  · simp [t, x, y]
  · simp [t, x, y, BitVec.slt]
  · rw [← ite_not]
    simp [t, x, y, BitVec.slt]
  · subst he
    exact congrArg Except.ok (returnTo_outside hl _ _ _)
  · have he' : (e == .bay) = false := by simpa using he
    rw [he']
    exact jr_tally hl hlink

end Sys2Proof.Machine
end

section
/-! Frames: the rules of `keepsBut`, the frame of each update of the block, and what an effect on the block leaves of a
command whose follow-up is quiet. -/

namespace Sys2Proof.Machine

open Sys2Proof Sys2Proof.Claims

/-! ### The rules of frames -/

theorem Block.same_refl (b : Block) (c : Chip) : b.same c c := by
  cases b <;> rfl

theorem Block.same_trans {b : Block} {x y z : Chip} (h : b.same x y) (h' : b.same y z) : b.same x z := by
  cases b <;> exact Eq.trans h' h

theorem keepsBut_refl (bs : List Block) (c : Chip) : keepsBut bs c c := fun b _ => Block.same_refl b c

theorem keepsBut_trans {bs : List Block} {x y z : Chip} (h : keepsBut bs x y) (h' : keepsBut bs y z) :
    keepsBut bs x z := fun b hb => Block.same_trans (h b hb) (h' b hb)

/-- A frame that keeps more is a frame. -/
theorem keepsBut_mono {bs bs' : List Block} {c d : Chip} (h : keepsBut bs c d) (hs : ∀ b ∈ bs, b ∈ bs') :
    keepsBut bs' c d := fun b hb => h b (fun hb' => hb (hs b hb'))

theorem keepsBut_when {bs : List Block} {b : Bool} {f : Chip → Chip} {c : Chip} (h : keepsBut bs c (f c)) :
    keepsBut bs c (c.when b f) := by
  cases b
  · exact keepsBut_refl bs c
  · exact h

theorem keepsBut_each {α : Type} {bs : List Block} {f : α → Chip → Chip} (h : ∀ a c, keepsBut bs c (f a c)) :
    ∀ (l : List α) (c : Chip), keepsBut bs c (each l f c)
  | [], c => keepsBut_refl bs c
  | a :: t, c => keepsBut_trans (h a c) (keepsBut_each h t (f a c))

theorem keepsBut_ite {bs : List Block} {p : Prop} [Decidable p] {c d e : Chip} (hd : keepsBut bs c d)
    (he : keepsBut bs c e) : keepsBut bs c (if p then d else e) := by
  split
  · exact hd
  · exact he

/-! ### The frame of each update -/

section
variable {bs : List Block} {c : Chip}

theorem keepsBut_host (h : Block.host ∈ bs) (x : HostPort) : keepsBut bs c { c with host := x } := fun b hb => by
  cases b with
  | host => exact absurd h hb
  | _ => rfl

theorem keepsBut_masters (h : Block.masters ∈ bs) (x : Tbl Master) : keepsBut bs c { c with masters := x } := fun b hb => by
  cases b with
  | masters => exact absurd h hb
  | _ => rfl

theorem keepsBut_lands (h : Block.lands ∈ bs) (x : Tbl Landing) : keepsBut bs c { c with lands := x } := fun b hb => by
  cases b with
  | lands => exact absurd h hb
  | _ => rfl

theorem keepsBut_tix (h : Block.tix ∈ bs) (x : Tickets) : keepsBut bs c { c with tix := x } := fun b hb => by
  cases b with
  | tix => exact absurd h hb
  | _ => rfl

theorem keepsBut_cfg (h : Block.cfg ∈ bs) (x : Cfg) : keepsBut bs c { c with cfg := x } := fun b hb => by
  cases b with
  | cfg => exact absurd h hb
  | _ => rfl

theorem keepsBut_groups (h : Block.groups ∈ bs) (x : Tbl TapGroup) : keepsBut bs c { c with groups := x } := fun b hb => by
  cases b with
  | groups => exact absurd h hb
  | _ => rfl

theorem keepsBut_taps (h : Block.taps ∈ bs) (x : Tbl Tap) : keepsBut bs c { c with taps := x } := fun b hb => by
  cases b with
  | taps => exact absurd h hb
  | _ => rfl

theorem keepsBut_engs (h : Block.engs ∈ bs) (x : Tbl Engine) : keepsBut bs c { c with engs := x } := fun b hb => by
  cases b with
  | engs => exact absurd h hb
  | _ => rfl

theorem keepsBut_lib (h : Block.lib ∈ bs) (x : Tbl TallyImg) : keepsBut bs c { c with lib := x } := fun b hb => by
  cases b with
  | lib => exact absurd h hb
  | _ => rfl

theorem keepsBut_bill (h : Block.bill ∈ bs) (x : Bill) : keepsBut bs c { c with bill := x } := fun b hb => by
  cases b with
  | bill => exact absurd h hb
  | _ => rfl

theorem keepsBut_tariff (h : Block.tariff ∈ bs) (x : Tariff) : keepsBut bs c { c with tariff := x } := fun b hb => by
  cases b with
  | tariff => exact absurd h hb
  | _ => rfl

theorem keepsBut_time (h : Block.time ∈ bs) (x : Time) : keepsBut bs c { c with time := x } := fun b hb => by
  cases b with
  | time => exact absurd h hb
  | _ => rfl

theorem keepsBut_power (h : Block.power ∈ bs) (x : Power) : keepsBut bs c { c with power := x } := fun b hb => by
  cases b with
  | power => exact absurd h hb
  | _ => rfl

theorem keepsBut_save (h : Block.save ∈ bs) (x : Save) : keepsBut bs c { c with save := x } := fun b hb => by
  cases b with
  | save => exact absurd h hb
  | _ => rfl

theorem keepsBut_evt (h : Block.evt ∈ bs) (x : Evt) : keepsBut bs c { c with evt := x } := fun b hb => by
  cases b with
  | evt => exact absurd h hb
  | _ => rfl

theorem keepsBut_tamper (h : Block.tamper ∈ bs) (x : Tamper) : keepsBut bs c { c with tamper := x } := fun b hb => by
  cases b with
  | tamper => exact absurd h hb
  | _ => rfl

theorem keepsBut_ledger (h : Block.ledger ∈ bs) (x : Ledger) : keepsBut bs c { c with ledger := x } := fun b hb => by
  cases b with
  | ledger => exact absurd h hb
  | _ => rfl

theorem keepsBut_disp (h : Block.disp ∈ bs) (x : Disp) : keepsBut bs c { c with disp := x } := fun b hb => by
  cases b with
  | disp => exact absurd h hb
  | _ => rfl

theorem keepsBut_ferry (h : Block.ferry ∈ bs) (x : Tbl Ferry) : keepsBut bs c { c with ferry := x } := fun b hb => by
  cases b with
  | ferry => exact absurd h hb
  | _ => rfl

theorem keepsBut_bay (h : Block.bay ∈ bs) (x : Bay) : keepsBut bs c { c with bay := x } := fun b hb => by
  cases b with
  | bay => exact absurd h hb
  | _ => rfl

theorem keepsBut_drv (h : Block.drv ∈ bs) (x : Drives) : keepsBut bs c { c with drv := x } := fun b hb => by
  cases b with
  | drv => exact absurd h hb
  | _ => rfl

theorem keepsBut_safe (h : Block.safe ∈ bs) (x : Safe) : keepsBut bs c { c with safe := x } := fun b hb => by
  cases b with
  | safe => exact absurd h hb
  | _ => rfl

theorem keepsBut_link (h : Block.link ∈ bs) (x : Link) : keepsBut bs c { c with link := x } := fun b hb => by
  cases b with
  | link => exact absurd h hb
  | _ => rfl

theorem keepsBut_key (h : Block.key ∈ bs) (x : Key) : keepsBut bs c { c with key := x } := fun b hb => by
  cases b with
  | key => exact absurd h hb
  | _ => rfl

theorem keepsBut_upd (h : Block.upd ∈ bs) (x : Upd) : keepsBut bs c { c with upd := x } := fun b hb => by
  cases b with
  | upd => exact absurd h hb
  | _ => rfl

theorem keepsBut_net (h : Block.net ∈ bs) (x : Net) : keepsBut bs c { c with net := x } := fun b hb => by
  cases b with
  | net => exact absurd h hb
  | _ => rfl

theorem keepsBut_pair (h : Block.pair ∈ bs) (x : Pair) : keepsBut bs c { c with pair := x } := fun b hb => by
  cases b with
  | pair => exact absurd h hb
  | _ => rfl

theorem keepsBut_free (h : Block.free ∈ bs) (x : Nat) : keepsBut bs c { c with free := x } := fun b hb => by
  cases b with
  | free => exact absurd h hb
  | _ => rfl

theorem keepsBut_sys (h : Block.sys ∈ bs) (x : Sys) (hx : x.hintStatus = c.sys.hintStatus) :
    keepsBut bs c { c with sys := x } := fun b hb => by
  cases b with
  | sys => exact absurd h hb
  | hint => exact hx
  | _ => rfl

theorem keepsBut_hint (h : Block.hint ∈ bs) (x : BitVec 11) :
    keepsBut bs c { c with sys := { c.sys with hintStatus := x } } := fun b hb => by
  cases b with
  | hint => exact absurd h hb
  | _ => rfl

end

/-- What an event may reach lies within these blocks. -/
theorem Noted.keepsBut {bs : List Block} {c d : Chip} (h : Noted c d) (hs : ∀ b ∈ noteBlocks, b ∈ bs) :
    keepsBut bs c d := by
  obtain ⟨e, f, x, rfl⟩ := h
  exact keepsBut_trans (keepsBut_trans (keepsBut_evt (hs _ (by decide)) e) (keepsBut_ferry (hs _ (by decide)) f))
    (keepsBut_hint (c := { c with evt := e, ferry := f }) (hs _ (by decide)) x)

theorem Recorded.keepsBut {bs : List Block} {c d : Chip} (h : Recorded c d)
    (hs : ∀ b ∈ [Block.evt, .ferry, .hint, .tamper, .ledger], b ∈ bs) : keepsBut bs c d := by
  obtain ⟨e, f, x, t, l, rfl⟩ := h
  exact keepsBut_trans (keepsBut_trans (Noted.keepsBut ⟨e, f, x, rfl⟩ (fun b hb => hs b (by
    simp only [noteBlocks, List.mem_cons] at hb ⊢
    tauto))) (keepsBut_tamper (hs _ (by decide)) t)) (keepsBut_ledger (hs _ (by decide)) l)

/-! ### Commands -/

/-- A command that answers the block `x` with the queue as it was completes with what holds of `x`. -/
theorem completes_of_next {i : Instr} {s : State} {P : Chip → Prop} {x : Chip}
    (h : exec i s = .next ⟨x, s.pending⟩) (hP : P x) : completes i s P := ⟨⟨x, s.pending⟩, h, rfl, hP⟩

section
variable {i : Instr} {s : State} {f : Chip → Chip} {d : Chip} {P : Chip → Prop} (hi : exec i s = run f s)
  (hf : f s.chip = d)
include hi hf

/-- A command with a known effect completes with what settling leaves of it. -/
theorem completes_settle (hP : P (Chip.settle s.chip d)) : completes i s P :=
  completes_of_next (by rw [hi, run_eq, hf]) hP

variable (hs : Settled s) (hq : Quiet s.chip d)
include hs hq

/-- A command whose effect is nothing that settling follows answers its effect. -/
theorem answers_quiet : answers i s d := by
  show exec i s = _
  rw [hi, run_eq, hf, settle_quiet (l := s.pending) hs hq]

theorem completes_quiet (hP : P d) : completes i s P :=
  completes_settle hi hf (by rwa [settle_quiet (l := s.pending) hs hq])

end

end Sys2Proof.Machine
end

section
/-! Instructions of the profiles with an effect of their own (R103-R111): what a step of one engine's thread leaves. -/

namespace Sys2Proof.Machine

open Sys2Proof Sys2Proof.Claims

/-! ### The executing thread of an engine -/

/-- A thread of an engine is its head or its replay thread. -/
theorem onEngine_cases {e : Exec} {k : Nat} {rep : Bool} (ho : onEngine e k rep) :
    ∃ j : Fin 8, k = j.val ∧ ((e = .head j ∧ rep = false) ∨ (e = .replay j ∧ rep = true)) := by
  cases e with
  | bay => exact ho.elim
  | head j => exact ⟨j, ho.1, .inl ⟨rfl, ho.2⟩⟩
  | replay j => exact ⟨j, ho.1, .inr ⟨rfl, ho.2⟩⟩

section
variable {e : Exec} {k : Nat} {rep : Bool} (ho : onEngine e k rep) (c d : Chip)
include ho

theorem onEngine_threadOf : threadOf e c = (c.eng k).thr rep := by
  obtain ⟨j, rfl, ⟨rfl, rfl⟩ | ⟨rfl, rfl⟩⟩ := onEngine_cases ho <;> rfl

theorem onEngine_canRun (h : runs e c) : (c.eng k).canRun rep = true := by
  obtain ⟨j, rfl, ⟨rfl, rfl⟩ | ⟨rfl, rfl⟩⟩ := onEngine_cases ho <;> exact h

theorem onEngine_withThread (t : Thread) : withThread e t c = c.modEng k (Engine.setThr rep t) := by
  obtain ⟨j, rfl, ⟨rfl, rfl⟩ | ⟨rfl, rfl⟩⟩ := onEngine_cases ho <;> rfl

theorem onEngine_memOf : memOf e c = if rep then (c.eng k).rmem else (c.eng k).mem := by
  obtain ⟨j, rfl, ⟨rfl, rfl⟩ | ⟨rfl, rfl⟩⟩ := onEngine_cases ho <;> rfl

theorem onEngine_segOf : segOf e c = (c.eng k).segOf rep := by
  obtain ⟨j, rfl, ⟨rfl, rfl⟩ | ⟨rfl, rfl⟩⟩ := onEngine_cases ho <;> rfl

theorem onEngine_otherEngines : otherEngines e c d ↔ ∀ j, j ≠ k → d.eng j = c.eng j := by
  obtain ⟨j, rfl, ⟨rfl, rfl⟩ | ⟨rfl, rfl⟩⟩ := onEngine_cases ho <;> rfl

theorem onEngine_bothI (q : Nat → Bool → Chip → Chip) (b : Chip → Chip) : Chip.bothI e q b c = q k rep c := by
  obtain ⟨j, rfl, ⟨rfl, rfl⟩ | ⟨rfl, rfl⟩⟩ := onEngine_cases ho <;> rfl

end

/-! ### A step of one engine -/

/-- `d` differs from `c` in engine `k` alone, and not in what settling follows of it. -/
structure EngStep (k : Nat) (c d : Chip) : Prop where
  rest : d = { c with engs := d.engs }
  others : ∀ j, j ≠ k → d.eng j = c.eng j
  run : (d.eng k).run = (c.eng k).run
  logs : (d.eng k).logs = (c.eng k).logs
  committed : (d.eng k).c = (c.eng k).c

theorem EngStep.refl (k : Nat) (c : Chip) : EngStep k c c := ⟨rfl, fun _ _ => rfl, rfl, rfl, rfl⟩

theorem EngStep.trans {k : Nat} {a b c : Chip} (h : EngStep k a b) (h' : EngStep k b c) : EngStep k a c :=
  ⟨by rw [h'.rest, h.rest], fun j hj => (h'.others j hj).trans (h.others j hj), h'.run.trans h.run,
    h'.logs.trans h.logs, h'.committed.trans h.committed⟩

theorem engStep_modEng {k : Nat} {c : Chip} {f : Engine → Engine} (h : (f (c.eng k)).run = (c.eng k).run)
    (hl : (f (c.eng k)).logs = (c.eng k).logs) (hc : (f (c.eng k)).c = (c.eng k).c) :
    EngStep k c (c.modEng k f) :=
  ⟨rfl, fun j hj => by rw [modEng_eng, if_neg hj], by rw [modEng_eng, if_pos rfl, h],
    by rw [modEng_eng, if_pos rfl, hl], by rw [modEng_eng, if_pos rfl, hc]⟩

/-- Another thread in an engine. -/
theorem engStep_setThr (k : Nat) (rep : Bool) (t : Thread) (c : Chip) :
    EngStep k c (c.modEng k (Engine.setThr rep t)) := by
  cases rep <;> exact engStep_modEng rfl rfl rfl

/-- Another open segment in an engine. -/
theorem engStep_setSeg (k : Nat) (rep : Bool) (s : Seg) (c : Chip) :
    EngStep k c (c.modEng k (Engine.setSeg rep s)) := by
  cases rep <;> exact engStep_modEng rfl rfl rfl

section
variable {k : Nat} {c d : Chip} (h : EngStep k c d)
include h

theorem EngStep.keepsBut {bs : List Block} (hb : Block.engs ∈ bs) : keepsBut bs c d := by
  rw [h.rest]
  exact keepsBut_engs hb _

/-- Nothing that settling follows has changed. -/
theorem EngStep.quiet : Quiet c d := by
  have hpend : ∀ p, d.pendDone p = c.pendDone p := by
    intro p
    have e : ∀ j, (d.eng j).run = (c.eng j).run ∧ (d.eng j).logs = (c.eng j).logs ∧ (d.eng j).c = (c.eng j).c := by
      intro j
      by_cases hj : j = k
      · subst hj
        exact ⟨h.run, h.logs, h.committed⟩
      · rw [h.others j hj]
        exact ⟨rfl, rfl, rfl⟩
    unfold Chip.pendDone
    simp only [(e _).1, (e _).2.1, (e _).2.2]
  rw [h.rest] at hpend ⊢
  exact ⟨rfl, rfl, rfl, rfl, rfl, rfl, rfl, hpend, fun _ => rfl, fun _ => rfl, fun _ => rfl, rfl, fun _ => rfl, rfl⟩

end

@[simp] theorem setThr_thr (rep : Bool) (t : Thread) (q : Engine) : (q.setThr rep t).thr rep = t := by
  cases rep <;> rfl

@[simp] theorem setThr_segOf (rep : Bool) (t : Thread) (q : Engine) : (q.setThr rep t).segOf rep = q.segOf rep := by
  cases rep <;> rfl

@[simp] theorem setSeg_segOf (rep : Bool) (s : Seg) (q : Engine) : (q.setSeg rep s).segOf rep = s := by
  cases rep <;> rfl

/-! ### Instructions of the Q-profile -/

section
variable {e : Exec} {k : Nat} {rep : Bool} {i : Instr} {s : State} {f : Nat → Bool → Chip → Thread → Except W8 Chip}
  {b : Chip → Chip} {d : Chip} (hs : Settled s) (hr : runs e s.chip) (ho : onEngine e k rep)
  (hi : exec i s = run (Chip.bothI e (fun k rep c => c.qInstr k rep (f k rep)) b) s)
  (hf : f k rep s.chip (threadOf e s.chip) = .ok d) (hd : EngStep k s.chip d)
include hs hr ho hi hf hd

/-- An instruction that touches its own engine alone answers what it leaves there. -/
theorem answers_qInstr : answers i s d := by
  refine answers_quiet hi ?_ hs hd.quiet
  rw [onEngine_bothI ho]
  exact qInstr_ok (onEngine_canRun ho _ hr) (by rw [← onEngine_threadOf ho, hf])

theorem completes_qInstr {P : Chip → Prop} (hP : P d) : completes i s P :=
  completes_of_next (answers_qInstr hs hr ho hi hf hd) hP

end

/-- An instruction that puts a value into rd and reads the block. -/
theorem answers_qPut {e : Exec} {k : Nat} {rep : Bool} {i : Instr} {s : State} {rd : Reg} {v : W64}
    {f : Nat → Bool → Chip → Thread → Except W8 Chip} {b : Chip → Chip} (hs : Settled s) (hr : runs e s.chip)
    (ho : onEngine e k rep) (hi : exec i s = run (Chip.bothI e (fun k rep c => c.qInstr k rep (f k rep)) b) s)
    (hf : f k rep s.chip (threadOf e s.chip) = .ok (s.chip.qNext k rep ((threadOf e s.chip).wx rd v))) :
    answers i s (wrote e rd v s.chip) := by
  rw [wrote, onEngine_withThread ho, onEngine_bay ho]
  exact answers_qInstr hs hr ho hi hf (engStep_setThr k rep _ _)

/-! ### Instructions of the bay program -/

section
variable {i : Instr} {s : State} {f : Chip → Thread → Except W8 Chip} {q : Nat → Bool → Chip → Chip} {d : Chip}
  (hs : Settled s) (hr : runs .bay s.chip) (hi : exec i s = run (Chip.bothI .bay q (fun c => c.bInstr f)) s)
  (hf : f s.chip s.chip.bay.core = .ok d)
include hs hr hi hf

/-- An instruction of the bay program whose effect is nothing that settling follows. -/
theorem answers_bInstr (hd : Quiet s.chip d) : answers i s d := answers_quiet hi (bInstr_ok hr hf) hs hd

theorem completes_bInstr (hd : Quiet s.chip d) {P : Chip → Prop} (hP : P d) : completes i s P :=
  completes_of_next (answers_bInstr hs hr hi hf hd) hP

end

end Sys2Proof.Machine
end

section
/-! Loads and stores of a thread (R103, R79). -/

namespace Sys2Proof.Machine

open Sys2Proof Sys2Proof.Claims

/-! ### Words in byte memory -/

theorem length_leBytes : ∀ (k n : Nat), (leBytes k n).length = k
  | 0, _ => rfl
  | k + 1, n => congrArg (· + 1) (length_leBytes k (n / 256))

/-- The bytes of a number, low byte first, spell it. -/
theorem ofLe_leBytes : ∀ (k n : Nat), ofLe (leBytes k n) = n % 256 ^ k
  | 0, n => by rw [leBytes, ofLe, pow_zero, Nat.mod_one]
  | k + 1, n => by
    rw [leBytes, ofLe, ofLe_leBytes k, BitVec.toNat_ofNat, pow_succ' 256 k, Nat.mod_mul (a := 256)]

theorem Mem.rdN_congr {m m' : Mem} : ∀ {n a : Nat}, (∀ j, a ≤ j → j < a + n → Mem.rd m j = Mem.rd m' j) →
    Mem.rdN m a n = Mem.rdN m' a n
  | 0, _, _ => rfl
  | n + 1, a, h => congrArg₂ List.cons (h a le_rfl (by omega))
      (Mem.rdN_congr (fun j hj hj' => h j (by omega) (by omega)))

/-- A word reads the same where its bytes do. -/
theorem Mem.rd64_congr {m m' : Mem} {a : Nat} (h : ∀ j, a ≤ j → j < a + 8 → Mem.rd m j = Mem.rd m' j) :
    Mem.rd64 m a = Mem.rd64 m' a := by
  rw [Mem.rd64, Mem.rd64, Mem.rdN_congr h]

@[simp] theorem Mem.rd64_wr64_same (m : Mem) (a : Nat) (v : W64) : Mem.rd64 (Mem.wr64 m a v) a = v := by
  have h := Mem.rdN_wrN_same (leBytes 8 v.toNat) m a
  rw [length_leBytes] at h
  rw [Mem.rd64, Mem.wr64, h, ofLe_leBytes, Nat.mod_eq_of_lt (show v.toNat < 256 ^ 8 from v.isLt),
    BitVec.ofNat_toNat, BitVec.setWidth_eq]

/-- A write of a word leaves every other byte. -/
theorem Mem.rd_wr64_other (m : Mem) {a j : Nat} (v : W64) (h : j < a ∨ a + 8 ≤ j) :
    Mem.rd (Mem.wr64 m a v) j = Mem.rd m j :=
  Mem.rd_wrN_other _ _ _ _ (by rwa [length_leBytes])

/-- A write of a word leaves every word beside it. -/
theorem Mem.rd64_wr64_other (m : Mem) {a b : Nat} (v : W64) (h : b + 8 ≤ a ∨ a + 8 ≤ b) :
    Mem.rd64 (Mem.wr64 m a v) b = Mem.rd64 m b :=
  Mem.rd64_congr (fun j hj hj' => Mem.rd_wr64_other m v (by omega))

/-! ### Stores of an engine -/

/-- The data memory that a thread of an engine sees. -/
def Engine.dmem (rep : Bool) (q : Engine) : Mem := if rep then q.rmem else q.mem

/-- The words of one store in turn. -/
def wrWords (l : List (Nat × W64)) (m : Mem) : Mem := l.foldl (fun m p => Mem.wr64 m p.1 p.2) m

theorem wrWords_one (p : Nat × W64) (m : Mem) : wrWords [p] m = Mem.wr64 m p.1 p.2 := rfl

theorem wrWords_two (p q : Nat × W64) (m : Mem) : wrWords [p, q] m = Mem.wr64 (Mem.wr64 m p.1 p.2) q.1 q.2 := rfl

theorem onEngine_dmem {e : Exec} {k : Nat} {rep : Bool} (ho : onEngine e k rep) (c : Chip) :
    memOf e c = (c.eng k).dmem rep := onEngine_memOf ho c

/-- One store changes the memory, the log and the overlay of its thread alone. -/
theorem store_eq (d : Nat) (rep : Bool) (a : Nat) (v : W64) (q : Engine) :
    (q.store d rep a v).dmem rep = Mem.wr64 (q.dmem rep) a v ∧ (q.store d rep a v).run = q.run ∧
      (q.store d rep a v).logs = q.logs ∧ (q.store d rep a v).c = q.c := by
  cases rep <;> exact ⟨rfl, rfl, rfl, rfl⟩

/-- The stores of one instruction. -/
def Engine.stores (d : Nat) (rep : Bool) (l : List (Nat × W64)) (q : Engine) : Engine :=
  l.foldl (fun q p => q.store d rep p.1 p.2) q

theorem stores_eq (d : Nat) (rep : Bool) : ∀ (l : List (Nat × W64)) (q : Engine),
    (q.stores d rep l).dmem rep = wrWords l (q.dmem rep) ∧ (q.stores d rep l).run = q.run ∧
      (q.stores d rep l).logs = q.logs ∧ (q.stores d rep l).c = q.c
  | [], _ => ⟨rfl, rfl, rfl, rfl⟩
  | p :: l, q => by
    obtain ⟨hm, hr, hl, hc⟩ := store_eq d rep p.1 p.2 q
    obtain ⟨hm', hr', hl', hc'⟩ := stores_eq d rep l (q.store d rep p.1 p.2)
    exact ⟨hm'.trans (by rw [hm]; rfl), hr'.trans hr, hl'.trans hl, hc'.trans hc⟩

/-- Entries of one segment merge in the count of the log, never the reverse. -/
theorem undoLen_le (q : Engine) : q.undoLen ≤ q.undo.length := by
  rw [Engine.undoLen, tidyUndo, List.length_map]
  exact List.length_filter_le _ _

@[simp] theorem setThr_dmem (rep : Bool) (t : Thread) (q : Engine) : (q.setThr rep t).dmem rep = q.dmem rep := by
  cases rep <;> rfl

/-- A store with room in its log leaves its words in the memory and the thread at the next instruction. -/
theorem qStore_ok {e : Exec} {k : Nat} {rep : Bool} {c : Chip} {l : List (Nat × W64)} (ho : onEngine e k rep)
    (hroom : room e l.length c ∨ (rep = false ∧ (threadOf e c).inInit = true)) :
    ∃ d, c.qStore k rep (threadOf e c) l = .ok d ∧ EngStep k c d ∧
      (d.eng k).dmem rep = wrWords l ((c.eng k).dmem rep) ∧ (d.eng k).thr rep = (threadOf e c).advance false := by
  have step {f : Engine → Engine} (hf : ∀ q : Engine, (f q).dmem rep = wrWords l (q.dmem rep) ∧ (f q).run = q.run ∧
      (f q).logs = q.logs ∧ (f q).c = q.c) : EngStep k c ((c.modEng k f).qNext k rep (threadOf e c)) ∧
      (((c.modEng k f).qNext k rep (threadOf e c)).eng k).dmem rep = wrWords l ((c.eng k).dmem rep) ∧
      (((c.modEng k f).qNext k rep (threadOf e c)).eng k).thr rep = (threadOf e c).advance false := by
    obtain ⟨hm, hr, hl, hc⟩ := hf (c.eng k)
    exact ⟨(engStep_modEng hr hl hc).trans (engStep_setThr k rep _ _), by simp [Chip.qNext, hm],
      by simp [Chip.qNext]⟩
  unfold Chip.qStore
  dsimp only
  by_cases hini : (threadOf e c).inInit = true
  · have hrep : rep = false := by
      rcases hroom with h | h
      · obtain ⟨j, rfl, ⟨rfl, rfl⟩ | ⟨rfl, rfl⟩⟩ := onEngine_cases ho
        · rfl
        · exact absurd hini (by simpa using h.1)
      · exact h.1
    subst hrep
    rw [if_pos hini]
    exact ⟨_, rfl, step (fun q => ⟨rfl, rfl, rfl, rfl⟩)⟩
  · rw [if_neg hini]
    have hfilter (p : Nat × W64 → Bool) : (l.filter p).length ≤ l.length := List.length_filter_le _ _
    have hr : room e l.length c := hroom.resolve_right (fun h => hini h.2)
    obtain ⟨j, rfl, ⟨rfl, rfl⟩ | ⟨rfl, rfl⟩⟩ := onEngine_cases ho
    · have hlen := hr.resolve_left hini
      rw [if_neg (by simp), if_neg (Nat.not_lt.mpr (le_trans (Nat.add_le_add (undoLen_le _) (hfilter _)) hlen))]
      exact ⟨_, rfl, step (stores_eq _ _ l)⟩
    · rw [if_pos rfl, if_neg (Nat.not_lt.mpr (le_trans (Nat.add_le_add_left (hfilter _) _) hr.2))]
      exact ⟨_, rfl, step (stores_eq _ _ l)⟩

/-! ### The statement -/

theorem qRead_mem {c : Chip} {e : Exec} {k : Nat} {rep : Bool} (ho : onEngine e k rep) {t : Thread} {a : Nat}
    (h : 0x2000 ≤ a) : c.qRead k rep t a = Mem.rd64 (memOf e c) a := by
  rw [Chip.qRead, if_neg (by omega), onEngine_memOf ho]

theorem bayIn_of {a n : Nat} (h : a + n ≤ 0x80000) : bayIn a n = true := decide_eq_true h

theorem storable_bay {a n : Nat} : storable .bay a n ↔ a + n ≤ 0x80000 := by
  rw [storable, if_pos rfl]

/-- An engine's thread may store at an aligned address that it may store at. -/
theorem qStoreOk_of {e : Exec} {k : Nat} {rep : Bool} (ho : onEngine e k rep) {a n : Nat} (h : a % n = 0)
    (hst : storable e a n) : (qAddrOk a n && decide (0x2000 ≤ a)) = true := by
  have hb : e ≠ .bay := by simpa using onEngine_bay ho
  rw [storable, if_neg hb] at hst
  simp [qAddrOk, h, hst.1, hst.2]

theorem qAddrOk_of {a n : Nat} (h : a % n = 0) (h' : a < 0x40000) : qAddrOk a n = true := by
  simp [qAddrOk, h, h']

/-- A store of the bay program leaves the word in its memory and the thread at the next instruction. -/
theorem completes_baySt {b a : Reg} {imm : W16} {s : State} {P : Chip → Prop} (hs : Settled s)
    (hr : runs .bay s.chip) (ha : (s.chip.bay.core.addr a (sext16 imm)) % 8 = 0)
    (hin : s.chip.bay.core.addr a (sext16 imm) + 8 ≤ 0x80000)
    (hP : P ((s.chip.bayField (s.chip.bay.core.addr a (sext16 imm)) (s.chip.bay.core.rx b)).setCore
      (s.chip.bay.core.advance true))) : completes (.st .bay b a imm) s P := by
  refine completes_bInstr hs hr rfl (if_pos ⟨ha, bayIn_of hin⟩) ?_ hP
  exact ⟨rfl, rfl, rfl, rfl, rfl, rfl, rfl, fun _ => rfl, fun _ => rfl, fun _ => rfl, fun _ => rfl, rfl,
    fun _ => rfl, rfl⟩

/-- A store of an engine's thread leaves its words in memory, the thread at the next instruction and everything else
as it was. -/
theorem completes_qStore {e : Exec} {k : Nat} {rep : Bool} {i : Instr} {s : State} {l : List (Nat × W64)}
    {f : Nat → Bool → Chip → Thread → Except W8 Chip} {b : Chip → Chip} {P : Chip → Prop} (hs : Settled s)
    (hr : runs e s.chip) (ho : onEngine e k rep)
    (hroom : room e l.length s.chip ∨ (rep = false ∧ (threadOf e s.chip).inInit = true))
    (hi : exec i s = run (Chip.bothI e (fun k rep c => c.qInstr k rep (f k rep)) b) s)
    (hf : f k rep s.chip (threadOf e s.chip) = s.chip.qStore k rep (threadOf e s.chip) l)
    (hP : ∀ d, memOf e d = wrWords l (memOf e s.chip) → threadOf e d = (threadOf e s.chip).advance (e == .bay) →
      otherEngines e s.chip d → keepsBut [if e = .bay then .bay else .engs] s.chip d → P d) :
    completes i s P := by
  obtain ⟨d, hd, hstep, hm, ht⟩ := qStore_ok (l := l) ho hroom
  refine completes_qInstr hs hr ho hi (hf.trans hd) hstep (hP d ?_ ?_ ?_ ?_)
  · rw [onEngine_dmem ho, onEngine_dmem ho, hm]
  · rw [onEngine_threadOf ho, ht, onEngine_bay ho]
  · exact (onEngine_otherEngines ho _ _).mpr hstep.others
  · have hb : e ≠ .bay := by simpa using onEngine_bay ho
    rw [if_neg hb]
    exact hstep.keepsBut (List.mem_singleton.mpr rfl)

/-- Every thread is the bay's or one of an engine. -/
theorem bay_or_onEngine (e : Exec) : e = .bay ∨ ∃ k rep, onEngine e k rep := by
  cases e with
  | bay => exact .inl rfl
  | head j => exact .inr ⟨j.val, false, rfl, rfl⟩
  | replay j => exact .inr ⟨j.val, true, rfl, rfl⟩

/-- Settles O12: loads read the thread's memory or the information block, and a store writes its words there and
nothing else. -/
theorem loadsAndStores : Obligations.LoadsAndStores := by
  unfold Obligations.LoadsAndStores
  refine ⟨fun e rd a wa imm imm8 s hs hr => ?_, fun e b a wa imm imm8 s hs hr => ?_⟩
  · intro t p w
    refine ⟨fun he hp hin => ?_, fun k rep ho hp hlo hhi => ?_, fun k rep ho hp hlo => ?_,
      fun k rep ho hw hlo hhi => ?_⟩
    · subst he
      exact answers_bInstr hs hr rfl (if_pos ⟨hp, bayIn_of hin⟩) (quiet_withThread .bay _ _)
    · exact answers_qPut hs hr ho rfl ((if_pos (qAddrOk_of hp hhi)).trans
        (congrArg (fun v => Except.ok (s.chip.qNext k rep (t.wx rd v))) (qRead_mem ho hlo)))
    · exact answers_qPut hs hr ho rfl ((if_pos (qAddrOk_of hp (by omega))).trans
        (congrArg (fun v => Except.ok (s.chip.qNext k rep (t.wx rd v))) (if_pos hlo)))
    · rw [wroteW, onEngine_withThread ho, onEngine_bay ho]
      exact answers_qInstr hs hr ho rfl ((if_pos (qAddrOk_of hw hhi)).trans
        (congrArg₂ (fun v v' => Except.ok (s.chip.qNext k rep (t.ww wa (v ++ v')))) (qRead_mem ho (show 0x2000 ≤ w + 8 by omega))
          (qRead_mem ho hlo))) (engStep_setThr k rep _ _)
  · intro t p w rest
    have store {k : Nat} {rep : Bool} (ho : onEngine e k rep) (hp : p % 8 = 0) (hst : storable e p 8)
        (hroom : room e 1 s.chip ∨ (rep = false ∧ t.inInit = true)) :
        completes (.st e b a imm) s (fun d => Mem.rd64 (memOf e d) p = t.rx b ∧ rest p 8 d) := by
      refine completes_qStore (l := [(p, t.rx b)]) hs hr ho hroom rfl (if_pos (qStoreOk_of ho hp hst)) ?_
      intro d hm ht hot hk
      refine ⟨?_, fun j hj => ?_, ht, hot, hk⟩
      · rw [hm, wrWords_one, Mem.rd64_wr64_same]
      · rw [hm, wrWords_one, Mem.rd_wr64_other _ _ hj]
    refine ⟨fun hp hst hroom _ => ?_, fun hp hst k he hini => ?_, fun k rep ho hw hst hroom => ?_⟩
    · obtain rfl | ⟨k, rep, ho⟩ := bay_or_onEngine e
      · refine completes_baySt hs hr hp (storable_bay.mp hst) ?_
        exact ⟨Mem.rd64_wr64_same _ _ _, fun j hj => Mem.rd_wr64_other _ _ hj, rfl, rfl,
          keepsBut_bay (by decide) _⟩
      · exact store ho hp hst (.inl hroom)
    · subst he
      exact store ⟨rfl, rfl⟩ hp hst (.inr ⟨rfl, hini⟩)
    · refine completes_qStore (l := [(w, (t.rw wa).extractLsb' 0 64), (w + 8, (t.rw wa).extractLsb' 64 64)]) hs hr ho
        (.inl hroom) rfl (if_pos (qStoreOk_of ho hw hst)) ?_
      intro d hm ht hot hk
      refine ⟨?_, ?_, fun j hj => ?_, ht, hot, hk⟩
      · rw [hm, wrWords_two, Mem.rd64_wr64_other _ _ (by omega), Mem.rd64_wr64_same]
      · rw [hm, wrWords_two, Mem.rd64_wr64_same]
      · rw [hm, wrWords_two, Mem.rd_wr64_other _ _ (by omega), Mem.rd_wr64_other _ _ (by omega)]

end Sys2Proof.Machine
end

section
/-! Samples and context of an instant (R105, R106, R110) and contributions to the open segment (R108, R109, R111). -/

namespace Sys2Proof.Machine

open Sys2Proof Sys2Proof.Claims

/-! ### Samples and context -/

/-- Settles O13: each read puts its value into rd. -/
theorem sampleAndContextReads : Obligations.SampleAndContextReads := by
  unfold Obligations.SampleAndContextReads
  intro e k rep rd a imm s hs hr ho hini t n v x r w
  have hini' : (threadOf e s.chip).inInit = false := hini
  have hn : n = ((threadOf e s.chip).rx a + BitVec.ofNat 64 (fld imm 0 4)).toNat := rfl
  have hv : v = fld imm 4 4 := by simp only [v, fld, Nat.shiftRight_eq_div_pow]; rfl
  have hx : x = s.chip.lookBack k n t.six (fld imm 8 8) := by
    have h : fld imm 8 8 = imm.toNat / 256 := by
      rw [fld, Nat.shiftRight_eq_div_pow, Nat.mod_eq_of_lt]
      have := imm.isLt
      omega
    rw [h]
  have hm' {m : Nat} (hm : w.mpOf k (t.rx a).toNat = some m) :
      (s.chip.viewAt (threadOf e s.chip).six).mpOf k ((threadOf e s.chip).rx a).toNat = some m := hm
  rw [hv, hx]
  have tap {i : Instr} {chk st : Bool} (hi : exec i s =
      run (Chip.onlyQ e (fun k rep => Chip.qTap k rep chk st rd a imm)) s) (hsel : fld imm 4 4 ≤ if st then 0 else 2)
      (hidx : n < 16) : r i (if st then ((s.chip.lookBack k n t.six (fld imm 8 8)).1.st |||
        (if (s.chip.lookBack k n t.six (fld imm 8 8)).2 then 0x40 else 0)).zeroExtend 64
        else tapRead chk (fld imm 4 4) (s.chip.lookBack k n t.six (fld imm 8 8)).1) := by
    refine answers_qPut hs hr ho hi ?_
    simp only [hini', decide_eq_false (Nat.not_lt.mpr hsel), Bool.or_false, Bool.false_eq_true, if_false, ← hn,
      if_neg (Nat.not_le.mpr hidx)]
    rfl
  refine ⟨fun hsel hidx => ⟨tap (st := false) rfl hsel hidx, tap (st := false) rfl hsel hidx⟩, fun hsel hidx => ?_,
    fun ha => ⟨?_, ?_⟩, fun m hm => ⟨?_, ?_⟩⟩
  · have h := tap (i := .tapst e rd a imm) (st := true) (chk := false) rfl (le_of_eq hsel) hidx
    have hst (st : W32) (b : Bool) : BitVec.ofNat 64 (st.toNat ||| (if b then 0x40 else 0)) =
        (st ||| (if b then 0x40 else 0)).zeroExtend 64 := by
      cases b <;> simp [BitVec.zeroExtend, ← BitVec.ofNat_toNat]
    rw [hst]
    exact h
  · refine answers_qPut hs hr ho rfl ?_
    simp [hini', ha]
    rfl
  · refine answers_qPut hs hr ho rfl ?_
    simp [hini', ha]
    rfl
  · refine answers_qPut hs hr ho rfl ?_
    simp [hini', hm' hm]
    rfl
  · refine answers_qPut hs hr ho rfl ?_
    simp [hini', hm' hm]
    rfl

end Sys2Proof.Machine
end

section
/-! Commands after which settling does nothing but end a hold of a queue: what they raise and send reaches the events,
the queues and the hints alone. -/

namespace Sys2Proof.Machine

open Sys2Proof Sys2Proof.Claims

/-! ### What settling follows, but for the holds of the queues -/

/-- What settling follows is the same before and after, but for the drives and the holds of the queues. -/
structure Still (old d : Chip) : Prop where
  watched : d.watched = old.watched
  pilot : d.pilotWord = old.pilotWord
  mon : d.monWord = old.monWord
  bayRun : d.bay.run = old.bay.run
  time : d.now = old.now
  pendTime : d.save.pendTime = old.save.pendTime
  pend : d.cfg.pend = old.cfg.pend
  pendDone : ∀ p, d.pendDone p = old.pendDone p
  pulse : ∀ i, d.pulseDue i = old.pulseDue i
  permit : ∀ i, d.permitDue i = old.permitDue i
  trip : d.tripDue = old.tripDue
  signal : d.signalDue = old.signalDue

/-- What settling follows is the same before and after, but for the holds of the queues. -/
structure Calm (old d : Chip) : Prop where
  watched : d.watched = old.watched
  pilot : d.pilotWord = old.pilotWord
  mon : d.monWord = old.monWord
  bayRun : d.bay.run = old.bay.run
  time : d.now = old.now
  pendTime : d.save.pendTime = old.save.pendTime
  pend : d.cfg.pend = old.cfg.pend
  pendDone : ∀ p, d.pendDone p = old.pendDone p
  pulse : ∀ i, d.pulseDue i = old.pulseDue i
  permit : ∀ i, d.permitDue i = old.permitDue i
  drive : ∀ n, d.driveOn n = old.driveOn n
  trip : d.tripDue = old.tripDue
  signal : d.signalDue = old.signalDue

/-- What settling follows is the same before and after, but for the words of the pilot and the monitor, the drives, the
packet of the bay program and the holds of the queues. -/
structure Firm (old d : Chip) : Prop where
  watched : d.watched = old.watched
  time : d.now = old.now
  pendTime : d.save.pendTime = old.save.pendTime
  pend : d.cfg.pend = old.cfg.pend
  pendDone : ∀ p, d.pendDone p = true → old.pendDone p = true
  pulse : ∀ i, d.pulseDue i = true → old.pulseDue i = true
  permit : ∀ i, d.permitDue i = true → old.permitDue i = true
  trip : d.tripDue = true → old.tripDue = true

/-- What settling follows is the same before and after, but for the words of the pilot and the monitor, the drives and
the holds of the queues. -/
structure Steady (old d : Chip) : Prop extends Firm old d where
  signal : d.signalDue = old.signalDue

/-- What settling follows is the same before and after, or no more is due than was, but for the holds of the queues. -/
structure Eased (old d : Chip) : Prop extends Steady old d where
  pilot : d.pilotWord = old.pilotWord
  mon : d.monWord = old.monWord
  bayRun : d.bay.run = old.bay.run
  drive : ∀ n, d.driveOn n = true → old.driveOn n = true

theorem Still.steady {old d : Chip} (h : Still old d) : Steady old d :=
  ⟨⟨h.watched, h.time, h.pendTime, h.pend, fun p => (h.pendDone p).symm.trans, fun i => (h.pulse i).symm.trans,
    fun i => (h.permit i).symm.trans, h.trip.symm.trans⟩, h.signal⟩

theorem Calm.still {old d : Chip} (h : Calm old d) : Still old d :=
  ⟨h.watched, h.pilot, h.mon, h.bayRun, h.time, h.pendTime, h.pend, h.pendDone, h.pulse, h.permit, h.trip, h.signal⟩

theorem Calm.eased {old d : Chip} (h : Calm old d) : Eased old d :=
  ⟨h.still.steady, h.pilot, h.mon, h.bayRun, fun n => (h.drive n).symm.trans⟩

theorem Eased.trans {a b c : Chip} (h : Eased a b) (h' : Eased b c) : Eased a c :=
  ⟨⟨⟨h'.watched.trans h.watched, h'.time.trans h.time, h'.pendTime.trans h.pendTime, h'.pend.trans h.pend,
    fun p => h.pendDone p ∘ h'.pendDone p, fun i => h.pulse i ∘ h'.pulse i, fun i => h.permit i ∘ h'.permit i,
    h.trip ∘ h'.trip⟩, h'.signal.trans h.signal⟩, h'.pilot.trans h.pilot, h'.mon.trans h.mon, h'.bayRun.trans h.bayRun,
    fun n => h.drive n ∘ h'.drive n⟩

theorem Still.calm {old d : Chip} (h : Still old d) (hd : ∀ n, d.driveOn n = old.driveOn n) : Calm old d :=
  ⟨h.watched, h.pilot, h.mon, h.bayRun, h.time, h.pendTime, h.pend, h.pendDone, h.pulse, h.permit, hd, h.trip, h.signal⟩

theorem Quiet.calm {old d : Chip} (h : Quiet old d) : Calm old d :=
  ⟨h.watched, h.pilot, h.mon, h.bayRun, h.time, h.pendTime, h.pend, h.pendDone, h.pulse, h.permit, h.drive, h.trip,
    h.signal⟩

theorem Calm.quiet {old d : Chip} (h : Calm old d) (hh : ∀ q, d.holdOver q = old.holdOver q) : Quiet old d :=
  ⟨h.watched, h.pilot, h.mon, h.bayRun, h.time, h.pendTime, h.pend, h.pendDone, h.pulse, h.permit, h.drive, h.trip,
    hh, h.signal⟩

theorem Calm.refl (c : Chip) : Calm c c :=
  ⟨rfl, rfl, rfl, rfl, rfl, rfl, rfl, fun _ => rfl, fun _ => rfl, fun _ => rfl, fun _ => rfl, rfl, rfl⟩

theorem Calm.trans {a b c : Chip} (h : Calm a b) (h' : Calm b c) : Calm a c :=
  ⟨h'.watched.trans h.watched, h'.pilot.trans h.pilot, h'.mon.trans h.mon, h'.bayRun.trans h.bayRun,
    h'.time.trans h.time, h'.pendTime.trans h.pendTime, h'.pend.trans h.pend,
    fun p => (h'.pendDone p).trans (h.pendDone p), fun p => (h'.pulse p).trans (h.pulse p),
    fun p => (h'.permit p).trans (h.permit p), fun p => (h'.drive p).trans (h.drive p), h'.trip.trans h.trip,
    h'.signal.trans h.signal⟩

theorem Still.trans {a b c : Chip} (h : Still a b) (h' : Still b c) : Still a c :=
  ⟨h'.watched.trans h.watched, h'.pilot.trans h.pilot, h'.mon.trans h.mon, h'.bayRun.trans h.bayRun,
    h'.time.trans h.time, h'.pendTime.trans h.pendTime, h'.pend.trans h.pend,
    fun p => (h'.pendDone p).trans (h.pendDone p), fun p => (h'.pulse p).trans (h.pulse p),
    fun p => (h'.permit p).trans (h.permit p), h'.trip.trans h.trip, h'.signal.trans h.signal⟩

/-- Another core of the bay. -/
theorem calm_setCore (t : Thread) (c : Chip) : Calm c (c.setCore t) :=
  ⟨rfl, rfl, rfl, rfl, rfl, rfl, rfl, fun _ => rfl, fun _ => rfl, fun _ => rfl, fun _ => rfl, rfl, rfl⟩

theorem calm_when {b : Bool} {f : Chip → Chip} {c : Chip} (h : Calm c (f c)) : Calm c (c.when b f) := by
  cases b
  · exact Calm.refl c
  · exact h

theorem calm_ite {p : Prop} [Decidable p] {c d e : Chip} (hd : Calm c d) (he : Calm c e) :
    Calm c (if p then d else e) := by
  split
  · exact hd
  · exact he

theorem calm_each {α : Type} {f : α → Chip → Chip} (h : ∀ a c, Calm c (f a c)) :
    ∀ (l : List α) (c : Chip), Calm c (each l f c)
  | [], c => Calm.refl c
  | a :: t, c => (h a c).trans (calm_each h t (f a c))

theorem noted_each {α : Type} {f : α → Chip → Chip} (h : ∀ a c, Noted c (f a c)) :
    ∀ (l : List α) (c : Chip), Noted c (each l f c)
  | [], c => Noted.refl c
  | a :: t, c => (h a c).trans (noted_each h t (f a c))

/-- Windows, landings, tickets, taps, the library, tariff sets, the ledger, the display, updates and the network are
nothing that settling follows. -/
theorem calm_far (c : Chip) (h : HostPort) (m : Tbl Master) (l : Tbl Landing) (k : Tickets) (t : Tbl Tap)
    (g : Tbl TapGroup) (f : Tariff) (r : Ledger) (v : Disp) (b : Tbl TallyImg) (u : Upd) (n : Net) (x : Nat) :
    Calm c { c with
      host := h, masters := m, lands := l, tix := k, taps := t, groups := g, tariff := f, ledger := r
      disp := v, lib := b, upd := u, net := n, free := x } :=
  ⟨rfl, rfl, rfl, rfl, rfl, rfl, rfl, fun _ => rfl, fun _ => rfl, fun _ => rfl, fun _ => rfl, rfl, rfl⟩

/-- Events, packets and hints are nothing that settling follows, while the owner of FQ5 is the same. -/
theorem Noted.calm {c d : Chip} (h : Noted c d) (h5 : (d.fq 5).owner = (c.fq 5).owner) : Calm c d := by
  have hs : d.signalDue = c.signalDue := by rw [Chip.signalDue, Chip.signalDue, h5, h.bay]
  obtain ⟨e, f, x, rfl⟩ := h
  exact ⟨rfl, rfl, rfl, rfl, rfl, rfl, rfl, fun _ => rfl, fun _ => rfl, fun _ => rfl, fun _ => rfl, rfl, hs⟩

/-! ### The queues behind an event -/

section
variable {j : Nat} (h3 : j ≠ 3) (c : Chip)
include h3

theorem deliverOnce_fq : c.deliverOnce.fq j = c.fq j := by
  unfold Chip.deliverOnce
  dsimp only
  have h : Tbl.get ({} : Ferry) (c.modFq 3 (fun _ => (deliverRing c.evt.ring (c.fq 3)).2.1)).ferry j = c.fq j := by
    rw [← Chip.fq, modFq_fq, if_neg h3]
  split
  · exact h
  · exact h

omit h3 in
theorem endOverrun_fq : c.endOverrun.fq j = c.fq j := by
  unfold Chip.endOverrun Chip.closeOverrun
  dsimp only
  split
  · rfl
  · split
    · rfl
    · rfl

theorem deliver_fq : c.deliver.fq j = c.fq j := by
  unfold Chip.deliver
  dsimp only
  split
  · rw [deliverOnce_fq h3]
    exact (endOverrun_fq _).trans (deliverOnce_fq h3 c)
  · exact deliverOnce_fq h3 c

/-- An event reaches FQ3 alone. -/
theorem raiseAt_fq (six : Nat) (code : W16) (unit : Nat) (a0 a1 : W32) :
    (c.raiseAt six code unit a0 a1).fq j = c.fq j := by
  unfold Chip.raiseAt
  dsimp only
  split
  · rw [deliver_fq h3]
    rfl
  · split
    · rfl
    · rfl

theorem raise_fq (code : W16) (unit : Nat) (a0 a1 : W32) : (c.raise code unit a0 a1).fq j = c.fq j :=
  raiseAt_fq h3 c _ _ _ _ _

omit h3 in
theorem fqOffer_fq (q : Nat) (p : List W32) (hq : j ≠ q) : (c.fqOffer q p).1.fq j = c.fq j := by
  unfold Chip.fqOffer
  dsimp only
  split
  · rw [modFq_fq, if_neg hq]
  · split
    · rw [hint_fq, modFq_fq, if_neg hq]
    · split
      · rw [modFq_fq, if_neg hq]
      · split
        · rw [modFq_fq, if_neg hq]
        · rw [modFq_fq, if_neg hq]

/-- A packet reaches its own queue, and an event of it FQ3. -/
theorem fqPut_fq (q : Nat) (p : List W32) (hq : j ≠ q) : (c.fqPut q p).fq j = c.fq j := by
  unfold Chip.fqPut
  dsimp only
  split
  · rw [raise_fq h3, modFq_fq, if_neg hq]
  · split
    · rw [raise_fq h3, fqOffer_fq c q p hq]
    · exact fqOffer_fq c q p hq

end

theorem calm_raise (code : W16) (unit : Nat) (a0 a1 : W32) (c : Chip) : Calm c (c.raise code unit a0 a1) :=
  (noted_raise code unit a0 a1 c).calm (by rw [raise_fq (by decide)])

theorem calm_raiseAt (six : Nat) (code : W16) (unit : Nat) (a0 a1 : W32) (c : Chip) :
    Calm c (c.raiseAt six code unit a0 a1) :=
  (noted_raiseAt six code unit a0 a1 c).calm (by rw [raiseAt_fq (by decide)])

theorem calm_fqPut {q : Nat} (hq : q ≠ 5) (p : List W32) (c : Chip) : Calm c (c.fqPut q p) :=
  (noted_fqPut q p c).calm (by rw [fqPut_fq (by decide) c q p hq.symm])

/-! ### A packet that a queue takes or discards -/

/-- A packet to a queue that nobody owns is discarded. -/
theorem fqPut_unowned {q : Nat} {p : List W32} {c : Chip} (hp : 2 ≤ p.length) (ho : (c.fq q).owner = none) :
    c.fqPut q p = c.modFq q (Ferry.dropped 1) := by
  simp [Chip.fqPut, Chip.fqOffer, ho, Nat.not_le.mpr hp]

/-- A queue that takes a packet has it behind the others. -/
theorem fqPut_taken {q : Nat} {p : List W32} {c : Chip} (hp : 2 ≤ p.length) (h : c.fqTakes q p = true) :
    c.fqPut q p = (c.modFq q (Ferry.push p)).hint q := by
  simp only [Chip.fqTakes, Bool.and_eq_true, Option.isSome_iff_ne_none, Bool.not_eq_true'] at h
  obtain ⟨⟨⟨ho, hf⟩, hh⟩, ht⟩ := h
  simp [Chip.fqPut, Chip.fqOffer, ho, hf, hh, ht, Nat.not_le.mpr hp]

@[simp] theorem push_owner (p : List W32) (f : Ferry) : (f.push p).owner = f.owner := by
  unfold Ferry.push Ferry.swap
  split <;> rfl

@[simp] theorem push_stalled (p : List W32) (f : Ferry) : (f.push p).stalled = f.stalled := by
  unfold Ferry.push Ferry.swap
  split <;> rfl

/-- A queue that keeps its owner and its hold is nothing that settling follows. -/
theorem quiet_modFq {q : Nat} {g : Ferry → Ferry} {c : Chip} (ho : (g (c.fq q)).owner = (c.fq q).owner)
    (hs : (g (c.fq q)).stalled = (c.fq q).stalled) (hh : (g (c.fq q)).holdBuf = (c.fq q).holdBuf) :
    Quiet c (c.modFq q g) := by
  have h : ∀ j, ((c.modFq q g).fq j).owner = (c.fq j).owner ∧ ((c.modFq q g).fq j).stalled = (c.fq j).stalled ∧
      ((c.modFq q g).fq j).holdBuf = (c.fq j).holdBuf := by
    intro j
    rw [modFq_fq]
    split
    · subst j
      exact ⟨ho, hs, hh⟩
    · exact ⟨rfl, rfl, rfl⟩
  refine ((noted_modFq q g c).calm (h 5).1).quiet (fun j => ?_)
  have hr : (c.modFq q g).ringHolds = c.ringHolds := by
    unfold Chip.ringHolds
    rw [(h 3).1]
    rfl
  unfold Chip.holdOver Chip.holds
  rw [(h j).2.1, (h j).2.2, hr]
  rfl

theorem quiet_hint (i : Nat) (c : Chip) : Quiet c (c.hint i) :=
  ((noted_hint i c).calm rfl).quiet (fun _ => rfl)

theorem Quiet.refl (c : Chip) : Quiet c c := (Calm.refl c).quiet (fun _ => rfl)

theorem Quiet.trans {a b c : Chip} (h : Quiet a b) (h' : Quiet b c) : Quiet a c :=
  (h.calm.trans h'.calm).quiet (fun q => (h'.hold q).trans (h.hold q))

/-! ### The end of a hold -/

/-- A queue table as settling leaves the one of `c`: nothing but the mark of a long hold differs, and none where no
hold has ended since `old`. -/
structure SameQueues (old c : Chip) (f : Tbl Ferry) : Prop where
  queue : ∀ q, ∃ b, Tbl.get {} f q = { c.fq q with stalled := b }
  same : (∀ q, c.holdOver q = true → old.holdOver q = true) → f = c.ferry

theorem each_endHold_queues (l : List Nat) (d : Chip) :
    ∃ f, (∀ q, ∃ b, Tbl.get {} f q = { d.fq q with stalled := b }) ∧ 
    each l (fun q c => c.modFq q (fun f => { f with stalled := false })) d = { d with ferry := f } := by
  induction l generalizing d with
  | nil => exact ⟨d.ferry, fun q => ⟨(d.fq q).stalled, rfl⟩, rfl⟩
  | cons q l ih =>
    obtain ⟨f, hf, he⟩ := ih (d.modFq q (fun f => { f with stalled := false }))
    refine ⟨f, fun j => ?_, he⟩
    obtain ⟨b, hb⟩ := hf j
    refine ⟨b, hb.trans ?_⟩
    rw [modFq_fq]
    split
    · subst j
      rfl
    · rfl

/-- Ending holds leaves everything but their marks. -/
theorem holdsOver_queues (old d : Chip) : ∃ f, SameQueues old d f ∧ Chip.holdsOver old d = { d with ferry := f } := by
  obtain ⟨f, hf, he⟩ := each_endHold_queues ((List.range 8).filter (fun q => d.holdOver q && !old.holdOver q)) d
  refine ⟨f, ⟨hf, fun h => ?_⟩, he⟩
  rw [List.filter_eq_nil_iff.mpr (fun q _ => by simpa using h q)] at he
  exact (congrArg Chip.ferry he).symm

/-- A table of drives as settling leaves the one of `c`: nothing but the instant of the last turn-on differs, in the
drives `on` alone, and nothing at all where there are none. -/
structure SameDrives (on : Nat → Prop) (c : Chip) (x : Tbl Drive) : Prop where
  drive : ∀ n, ∃ t, Tbl.get {} x n = { c.drive n with onAt := t } ∧ (¬ on n → t = (c.drive n).onAt)
  same : (∀ n, ¬ on n) → x = c.drv.d

/-- A block with another table of drives. -/
def withDrives (c : Chip) (x : Tbl Drive) : Chip := { c with drv := { c.drv with d := x } }

/-- A drive is on as before where nothing but its turn-on instant differs. -/
theorem withDrives_driveOn {on : Nat → Prop} {c : Chip} {x : Tbl Drive} (hx : SameDrives on c x) (n : Nat) :
    (withDrives c x).driveOn n = c.driveOn n := by
  obtain ⟨t, ht, -⟩ := hx.drive n
  have hd : (withDrives c x).drive n = { c.drive n with onAt := t } := ht
  have hdie : (withDrives c x).dieHolds n = c.dieHolds n := by
    unfold Chip.dieHolds
    rw [hd]
    rfl
  have hcause : (withDrives c x).causeHolds n = c.causeHolds n := by
    unfold Chip.causeHolds
    rw [hdie]
    rfl
  unfold Chip.driveOn
  rw [hd]
  dsimp only
  rw [hdie, hcause]
  rfl

/-- The turn-on of a drive with a lamp is noted in that drive alone. -/
theorem lampStart_drives (old d : Chip) :
    ∃ x, SameDrives (fun n => d.driveOn n = true ∧ old.driveOn n = false) d x ∧
      Chip.lampStart old d = withDrives d x := by
  unfold Chip.lampStart
  generalize d.drv.d.filter _ = l
  suffices h : ∀ (l : List (Nat × Drive)) (x : Tbl Drive),
      SameDrives (fun n => d.driveOn n = true ∧ old.driveOn n = false) d x →
      ∃ y, SameDrives (fun n => d.driveOn n = true ∧ old.driveOn n = false) d y ∧
        each l (fun p c => if c.driveOn p.1 && !old.driveOn p.1 then c.modDrive p.1 (fun d => { d with onAt := some c.now })
          else c) (withDrives d x) = withDrives d y from
    h l d.drv.d ⟨fun n => ⟨(d.drive n).onAt, rfl, fun _ => rfl⟩, fun _ => rfl⟩
  intro l
  induction l with
  | nil => exact fun x hx => ⟨x, hx, rfl⟩
  | cons p l ih =>
    intro x hx
    by_cases h : (d.driveOn p.1 && !old.driveOn p.1) = true
    · have hp : d.driveOn p.1 = true ∧ old.driveOn p.1 = false := by simpa using h
      obtain ⟨y, hy, he⟩ := ih (Tbl.put {} x p.1 { Tbl.get {} x p.1 with onAt := some d.now }) (by
        refine ⟨fun n => ?_, fun hno => absurd hp (hno p.1)⟩
        obtain ⟨t, ht, hn⟩ := hx.drive n
        rw [Tbl.get_put]
        split
        · subst n
          exact ⟨some d.now, by rw [ht], fun hnot => absurd hp hnot⟩
        · exact ⟨t, ht, hn⟩)
      refine ⟨y, hy, ?_⟩
      rw [← he]
      show each l _ (if _ then _ else _) = _
      rw [withDrives_driveOn hx, if_pos h]
      rfl
    · obtain ⟨y, hy, he⟩ := ih x hx
      refine ⟨y, hy, ?_⟩
      rw [← he]
      show each l _ (if _ then _ else _) = _
      rw [withDrives_driveOn hx, if_neg h]

/-! ### Settling -/

/-- Nothing that the first parts of settling do: no window to latch, no change that is done, no cause of quarantine, no
pulse, no permit and no end of the sessions is new. -/
structure Core (old d : Chip) : Prop where
  quar : quarHeld d = (d.sys.qcause != 0)
  cause : d.sys.qcause = old.sys.qcause
  retired : d.retired = old.retired
  aux : d.power.onAux = old.power.onAux
  time : d.now = old.now
  pendTime : d.save.pendTime = old.save.pendTime
  pend : d.cfg.pend = old.cfg.pend
  pendDone : ∀ p, d.pendDone p = true → old.pendDone p = true
  pulse : ∀ i, d.pulseDue i = true → old.pulseDue i = true
  permit : ∀ i, d.permitDue i = true → old.permitDue i = true

/-- What is not newly due is not among what is new. -/
theorem filter_stale {α : Type} (l : List α) {p q : α → Bool} (h : ∀ a, p a = true → q a = true) :
    l.filter (fun a => p a && !q a) = [] := by
  refine List.filter_eq_nil_iff.mpr (fun a _ ha => ?_)
  obtain ⟨hp, hq⟩ := Bool.and_eq_true_iff.mp ha
  rw [h a hp] at hq
  cases hq

/-- The parts of settling from the safety zones on are all that is left. -/
theorem Core.settle {old d : Chip} (h : Core old d) : Chip.settle old d = Chip.holdsOver old (Chip.setMode
    (Chip.bayWatch old (Chip.settleField (Chip.tripCheck old (Chip.lampStart old (Chip.settleSafe old d)))))) := by
  have e0 : Chip.latchWins old d = d := each_nil (List.filter_eq_nil_iff.mpr (fun p hp => by
    have hm : old.save.pendTime.contains p = true := by
      rw [← h.pendTime]
      exact List.contains_iff_mem.mpr hp
    simp only [hm, h.time, Bool.and_true]
    simp))
  have e1 : Chip.chooseAll old d = d := if_pos ⟨h.pend, by
    rw [Bool.not_eq_true', List.any_eq_false]
    intro p _ hp
    obtain ⟨hd, ho⟩ := Bool.and_eq_true_iff.mp hp
    rw [h.pendDone p hd] at ho
    cases ho⟩
  have e2 : d.settleQuar = d := settleQuar_noted h.quar
  have e3 : Chip.pulses old d = d := each_nil (filter_stale _ (fun p => h.pulse p.1))
  have e4 : Chip.escPermits old d = d := each_nil (filter_stale _ h.permit)
  have e5 : Chip.settleStop old d = d := by simp [Chip.settleStop, h.cause, h.retired]
  have e6 : Chip.settleAux old d = d := by simp [Chip.settleAux, h.aux]
  unfold Chip.settle
  dsimp only
  rw [e0, e1, e2, e3, e4, e5, e6]

theorem Firm.core {old d : Chip} {l : List Instr} (h : Firm old d) (hs : Settled ⟨old, l⟩) : Core old d := by
  have hw := h.watched
  have qc : d.sys.qcause = old.sys.qcause := congrArg (fun c => c.sys.qcause) hw
  refine ⟨?_, qc, congrArg (fun c => c.retired) hw, congrArg (fun c => c.power.onAux) hw, h.time, h.pendTime, h.pend,
    h.pendDone, h.pulse, h.permit⟩
  rw [← watched_quarHeld d, hw, watched_quarHeld, qc]
  exact hs.2.1

/-- All that settling does is to note the turn-on of drives with a lamp, to tell the bay program of the pilot and the
monitor, and to end holds of the queues. -/
theorem Firm.settle {old d : Chip} {l : List Instr} (h : Firm old d) (hs : Settled ⟨old, l⟩) :
    Chip.settle old d = Chip.holdsOver old (Chip.bayWatch old (Chip.lampStart old d)) := by
  have hw := h.watched
  have e7 : Chip.settleSafe old d = d := if_pos ⟨congrArg (fun c => c.safeState) hw, congrArg (fun c => c.safeZones) hw⟩
  have hl : (d.link.field && d.fieldMay) = d.link.field := by
    rw [show d.link.field = old.link.field from congrArg (fun c => c.link.field) hw,
      show d.fieldMay = old.fieldMay from congrArg (fun c => c.fieldMay) hw]
    cases hf : old.link.field with
    | false => rfl
    | true => exact hs.2.2 hf
  have hm : d.modeOf = d.sys.mode := by
    rw [show d.modeOf = old.modeOf from congrArg (fun c => c.modeOf) hw,
      show d.sys.mode = old.sys.mode from congrArg (fun c => c.sys.mode) hw]
    exact hs.1.symm
  obtain ⟨x, -, hx⟩ := lampStart_drives old d
  have e9 : Chip.tripCheck old (withDrives d x) = withDrives d x := by
    refine if_pos ?_
    cases ht : d.tripDue with
    | false => rw [show (withDrives d x).tripDue = d.tripDue from rfl, ht]; rfl
    | true => rw [h.trip ht, Bool.or_true]
  have e10 : (withDrives d x).settleField = withDrives d x := by
    rw [settleField_eq]
    exact congrArg (fun b => { withDrives d x with link := { d.link with field := b } }) hl
  have e11 : (Chip.bayWatch old (withDrives d x)).setMode = Chip.bayWatch old (withDrives d x) := by
    have hf := (carried_bayWatch old (withDrives d x)).follows
    obtain ⟨y, hy⟩ := hf.sys
    refine if_pos ?_
    rw [hf.modeOf, hy]
    exact hm
  rw [(h.core hs).settle, e7, hx, e9, e10, e11]

/-- All that settling does is to note the turn-on of drives with a lamp and to end holds of the queues. -/
theorem Still.settle {old d : Chip} {l : List Instr} (h : Still old d) (hs : Settled ⟨old, l⟩) :
    Chip.settle old d = Chip.holdsOver old (Chip.lampStart old d) := by
  obtain ⟨x, -, hx⟩ := lampStart_drives old d
  have e : Chip.bayWatch old (withDrives d x) = withDrives d x := bayWatch_same h.pilot h.mon h.bayRun h.signal
  rw [h.steady.toFirm.settle hs, hx, e]

/-- Where no word of the pilot and the monitor has changed, the bay program is told of the end of its packet alone. -/
theorem bayWatch_signal {old d : Chip} (hp : d.pilotWord = old.pilotWord) (hm : d.monWord = old.monWord)
    (hr : d.bay.run = old.bay.run) : Chip.bayWatch old d = Chip.signalLost old d := by
  have hrun : (Chip.signalLost old d).bay.run = d.bay.run := by
    unfold Chip.signalLost
    split
    · split
      · rw [fqPut_bay]
        rfl
      · rfl
    · rfl
  unfold Chip.bayWatch
  simp [hp, hm, hrun, hr]

/-- All that settling does is to end the packet of the bay program, where it has lost its queue, and holds of the
queues. -/
theorem Firm.settle_signal {old d : Chip} {l : List Instr} (h : Firm old d) (hp : d.pilotWord = old.pilotWord)
    (hm : d.monWord = old.monWord) (hr : d.bay.run = old.bay.run) (hd : ∀ n, d.driveOn n = true → old.driveOn n = true)
    (hs : Settled ⟨old, l⟩) : Chip.settle old d = Chip.holdsOver old (Chip.signalLost old d) := by
  have e8 : Chip.lampStart old d = d := each_same _ _ _ (fun p => if_neg (by
    intro hp
    obtain ⟨hon, ho⟩ := Bool.and_eq_true_iff.mp hp
    rw [hd _ hon] at ho
    cases ho))
  rw [h.settle hs, e8, bayWatch_signal hp hm hr]

/-- All that settling does is to end holds of the queues. -/
theorem Eased.settle {old d : Chip} {l : List Instr} (h : Eased old d) (hs : Settled ⟨old, l⟩) :
    Chip.settle old d = Chip.holdsOver old d := by
  have e8 : Chip.lampStart old d = d := each_same _ _ _ (fun p => if_neg (by
    intro hp
    obtain ⟨hd, ho⟩ := Bool.and_eq_true_iff.mp hp
    rw [h.drive _ hd] at ho
    cases ho))
  have e9 : Chip.bayWatch old d = d := bayWatch_same h.pilot h.mon h.bayRun h.signal
  rw [h.toFirm.settle hs, e8, e9]

section
variable {i : Instr} {s : State} {f : Chip → Chip} {d : Chip} {P : Chip → Prop} (hi : exec i s = run f s)
  (hf : f s.chip = d) (hs : Settled s)
include hi hf hs

/-- A command whose effect leaves what settling follows completes with its effect, but for the marks of long holds. -/
theorem completes_eased (hc : Eased s.chip d) (hP : ∀ f, SameQueues s.chip d f → P { d with ferry := f }) :
    completes i s P := by
  refine completes_settle hi hf ?_
  rw [hc.settle (l := s.pending) hs]
  obtain ⟨f, hf, he⟩ := holdsOver_queues s.chip d
  rw [he]
  exact hP f hf

theorem completes_calm (hc : Calm s.chip d) (hP : ∀ f, SameQueues s.chip d f → P { d with ferry := f }) :
    completes i s P :=
  completes_eased hi hf hs hc.eased hP

end

/-- A command that leaves what settling follows, but for the drives, completes with its effect, but for the marks of
long holds and of the instants at which drives turned on. -/
theorem completes_still {i : Instr} {s : State} {f : Chip → Chip} {d : Chip} {P : Chip → Prop} (hi : exec i s = run f s)
    (hf : f s.chip = d) (hs : Settled s) (hc : Still s.chip d)
    (hP : ∀ x f, SameDrives (fun n => d.driveOn n = true ∧ s.chip.driveOn n = false) d x →
      SameQueues s.chip d f → P { withDrives d x with ferry := f }) : completes i s P := by
  refine completes_settle hi hf ?_
  rw [hc.settle (l := s.pending) hs]
  obtain ⟨x, hx, hl⟩ := lampStart_drives s.chip d
  obtain ⟨f, hf, he⟩ := holdsOver_queues s.chip (Chip.lampStart s.chip d)
  rw [he, hl]
  rw [hl] at hf
  exact hP x f hx ⟨hf.queue, hf.same⟩

/-- Telling the bay program of the pilot and the monitor changes its memory and events, and what a packet reaches. -/
theorem bayWatch_noted {old d : Chip} (h : d.signalDue = old.signalDue) :
    ∃ m e, Noted { d with bay := { d.bay with mem := m, events := e } } (Chip.bayWatch old d) := by
  unfold Chip.bayWatch
  dsimp only
  rw [signalLost_same h]
  split
  · exact ⟨d.bay.mem, d.bay.events, Noted.refl d⟩
  · have step : ∀ (b b' : Bool) (v v' : W64), ∃ m e, (((d.when b (Chip.bayField 0x7C080 v)).when b' (fun c =>
        (c.bayField 0x7C088 v').bayEvent 22))) = { d with bay := { d.bay with mem := m, events := e } } := by
      intro b b' v v'
      cases b <;> cases b' <;> exact ⟨_, _, rfl⟩
    obtain ⟨m, e, he⟩ := step (d.pilotWord != old.pilotWord) (d.monWord != old.monWord) _ _
    rw [he]
    exact ⟨m, e, noted_fqPut _ _ _⟩

/-- A command that leaves what settling follows, but for the words of the pilot and the monitor and the drives,
completes with its effect, but for what the bay program is told and the instants at which drives turned on. -/
theorem completes_steady {i : Instr} {s : State} {f : Chip → Chip} {d : Chip} {P : Chip → Prop} (hi : exec i s = run f s)
    (hf : f s.chip = d) (hs : Settled s) (hc : Steady s.chip d)
    (hP : ∀ x m e d', SameDrives (fun n => d.driveOn n = true ∧ s.chip.driveOn n = false) d x →
      Noted { withDrives d x with bay := { d.bay with mem := m, events := e } } d' → P d') : completes i s P := by
  refine completes_settle hi hf ?_
  rw [hc.toFirm.settle (l := s.pending) hs]
  obtain ⟨x, hx, hl⟩ := lampStart_drives s.chip d
  rw [hl]
  obtain ⟨m, e, hn⟩ := bayWatch_noted (old := s.chip) (d := withDrives d x) hc.signal
  obtain ⟨f, hf, he⟩ := holdsOver_queues s.chip (Chip.bayWatch s.chip (withDrives d x))
  refine hP x m e _ hx (hn.trans ?_)
  rw [he]
  exact ⟨_, f, _, rfl⟩

/-- The same, where no drive turns on. -/
theorem completes_told {i : Instr} {s : State} {f : Chip → Chip} {d : Chip} {P : Chip → Prop} (hi : exec i s = run f s)
    (hf : f s.chip = d) (hs : Settled s) (hc : Steady s.chip d) (hd : ∀ n, d.driveOn n = true → s.chip.driveOn n = true)
    (hP : ∀ m e d', Noted { d with bay := { d.bay with mem := m, events := e } } d' → P d') : completes i s P := by
  refine completes_steady hi hf hs hc (fun x m e d' hx hn => hP m e d' ?_)
  have hx' : x = d.drv.d := hx.same (fun n hon => by
    have h := hd n hon.1
    simp [hon.2] at h)
  rw [hx'] at hn
  exact hn

/-- What a command that completes with a property has left has it. -/
theorem of_completes {i : Instr} {s : State} {P : Chip → Prop} {f : Chip → Chip} (h : completes i s P)
    (hi : exec i s = run f s) : P (Chip.settle s.chip (f s.chip)) := by
  have hd : exec i s = .next { s with chip := Chip.settle s.chip (f s.chip) } := hi.trans (run_eq f s)
  generalize Chip.settle s.chip (f s.chip) = d at hd ⊢
  obtain ⟨t, ht, -, hP⟩ := h
  rw [Host.Outcome.next.inj (ht.symm.trans hd)] at hP
  exact hP

end Sys2Proof.Machine
end

section
/-! What an event leaves of the event block (R216-R220): its own counter goes up, and but for the overrun's record no
other counter, no entry of the log and no count of legal changes moves. -/

namespace Sys2Proof.Machine

open Sys2Proof Sys2Proof.Claims

/-! ### The ring -/

/-- The log, the archive, the sources and the count of legal changes are as they were. -/
def SameBooks (e f : Evt) : Prop :=
  ∃ r o w h t, f = { e with ring := r, overrun := o, waiting := w, heldQ := h, ovrTotal := t }

theorem SameBooks.refl (e : Evt) : SameBooks e e := ⟨_, _, _, _, _, rfl⟩

theorem SameBooks.trans {a b c : Evt} : SameBooks a b → SameBooks b c → SameBooks a c := by
  rintro ⟨r, o, w, h, t, rfl⟩ ⟨r', o', w', h', t', rfl⟩
  exact ⟨r', o', w', h', t', rfl⟩

theorem sameBooks_enter (x : EvtEntry) (e : Evt) : SameBooks e (Evt.enter x e) := by
  unfold Evt.enter
  split
  · split
    · exact ⟨_, _, _, _, _, rfl⟩
    · split
      · exact ⟨_, _, _, _, _, rfl⟩
      · split
        · exact ⟨_, _, _, _, _, rfl⟩
        · exact ⟨_, _, _, _, _, rfl⟩
  · split
    · exact ⟨_, _, _, _, _, rfl⟩
    · exact ⟨_, _, _, _, _, rfl⟩

theorem sameBooks_foldHeld (x : EvtEntry) (e : Evt) : SameBooks e (Evt.foldHeld x e) := by
  unfold Evt.foldHeld
  split
  · exact ⟨_, _, _, _, _, rfl⟩
  · exact ⟨_, _, _, _, _, rfl⟩

theorem sameBooks_enterWaiting (e : Evt) : SameBooks e (Evt.enterWaiting e) := by
  have enters : ∀ (l : List EvtEntry) (e : Evt), SameBooks e (l.foldl (fun e x => Evt.enter x e) e) := by
    intro l
    induction l with
    | nil => exact SameBooks.refl
    | cons x l ih => exact fun e => (sameBooks_enter x e).trans (ih _)
  exact SameBooks.trans (b := { e with waiting := [] }) ⟨_, _, _, _, _, rfl⟩ (enters e.waiting _)

/-! ### What an event counts -/

/-- No counter outside `l` has moved, no entry has come to the log or left it, and no legal change was counted. -/
structure Rung (l : List Nat) (c d : Chip) : Prop where
  cnt : ∀ j, j ∉ l → (Tbl.get ({} : EvtSrc) d.evt.src j).cnt = (Tbl.get ({} : EvtSrc) c.evt.src j).cnt
  log : d.evt.log = c.evt.log
  unarch : d.evt.unarch = c.evt.unarch
  legal : d.evt.legalCnt = c.evt.legalCnt

theorem rung_evt {l : List Nat} {c d : Chip} (h : d.evt = c.evt) : Rung l c d :=
  ⟨fun _ _ => by rw [h], by rw [h], by rw [h], by rw [h]⟩

theorem Rung.refl (l : List Nat) (c : Chip) : Rung l c c := rung_evt rfl

theorem Rung.trans {l : List Nat} {a b c : Chip} (h : Rung l a b) (h' : Rung l b c) : Rung l a c :=
  ⟨fun j hj => (h'.cnt j hj).trans (h.cnt j hj), h'.log.trans h.log, h'.unarch.trans h.unarch, h'.legal.trans h.legal⟩

theorem Rung.mono {l l' : List Nat} {c d : Chip} (h : Rung l c d) (hl : ∀ j ∈ l, j ∈ l') : Rung l' c d :=
  ⟨fun j hj => h.cnt j (fun hm => hj (hl j hm)), h.log, h.unarch, h.legal⟩

theorem rung_ite {l : List Nat} {p : Prop} [Decidable p] {c d e : Chip} (hd : Rung l c d) (he : Rung l c e) :
    Rung l c (if p then d else e) := by
  split
  · exact hd
  · exact he

theorem rung_when {l : List Nat} {b : Bool} {f : Chip → Chip} {c : Chip} (h : Rung l c (f c)) : Rung l c (c.when b f) := by
  cases b
  · exact Rung.refl l c
  · exact h

theorem rung_each {α : Type} {l : List Nat} {f : α → Chip → Chip} (h : ∀ a c, Rung l c (f a c)) :
    ∀ (t : List α) (c : Chip), Rung l c (each t f c)
  | [], c => Rung.refl l c
  | a :: t, c => (h a c).trans (rung_each h t (f a c))

theorem rung_books {l : List Nat} {c d : Chip} (h : SameBooks c.evt d.evt) : Rung l c d := by
  obtain ⟨r, o, w, q, t, he⟩ := h
  exact ⟨fun _ _ => by rw [he], by rw [he], by rw [he], by rw [he]⟩

theorem rung_hint (l : List Nat) (i : Nat) (c : Chip) : Rung l c (c.hint i) := rung_evt rfl

theorem rung_modFq (l : List Nat) (q : Nat) (g : Ferry → Ferry) (c : Chip) : Rung l c (c.modFq q g) := rung_evt rfl

theorem rung_modEvt {l : List Nat} {g : Evt → Evt} (hg : ∀ e, SameBooks e (g e)) (c : Chip) : Rung l c (c.modEvt g) :=
  rung_books (hg c.evt)

theorem rung_deliverOnce (l : List Nat) (c : Chip) : Rung l c c.deliverOnce := by
  have h : SameBooks c.evt c.deliverOnce.evt := by
    unfold Chip.deliverOnce
    dsimp only
    split
    · exact ⟨_, _, _, _, _, rfl⟩
    · exact ⟨_, _, _, _, _, rfl⟩
  exact rung_books h

theorem rung_countSrc {l : List Nat} {code : W16} (h : code.toNat ∈ l) (utc : W32) (c : Chip) :
    Rung l c (c.countSrc code utc) := by
  refine ⟨fun j hj => ?_, rfl, rfl, rfl⟩
  show (Tbl.get ({} : EvtSrc) (Tbl.put {} c.evt.src code.toNat _) j).cnt = _
  have hne : j ≠ code.toNat := fun e => hj (by rw [e]; exact h)
  rw [Tbl.get_put, if_neg hne]

theorem rung_endOverrun {l : List Nat} (h : 0x0901 ∈ l) (c : Chip) : Rung l c c.endOverrun :=
  rung_ite (Rung.refl l c) (rung_ite (Rung.refl l c)
    ((rung_countSrc (code := 0x0901) h _ c).trans (rung_books ⟨_, _, _, _, _, rfl⟩)))

theorem rung_deliver {l : List Nat} (h : 0x0901 ∈ l) (c : Chip) : Rung l c c.deliver :=
  (rung_deliverOnce l c).trans (rung_ite
    (((rung_endOverrun h _).trans (rung_modEvt sameBooks_enterWaiting _)).trans (rung_deliverOnce l _)) (Rung.refl l _))

/-- Behind its count, an event moves no counter but the overrun's. -/
theorem rung_behind (l : List Nat) (h : 0x0901 ∈ l) (six : Nat) (code : W16) (unit : Nat) (a0 a1 : W32) (c : Chip) :
    Rung l (c.countSrc code (c.utc six)) (c.raiseAt six code unit a0 a1) := by
  unfold Chip.raiseAt
  dsimp only
  generalize c.countSrc code (c.utc six) = e
  split
  · exact (rung_modEvt (sameBooks_enter _) e).trans (rung_deliver h _)
  · split
    · refine ⟨fun j _ => ?_, rfl, rfl, rfl⟩
      show (Tbl.get ({} : EvtSrc) (Tbl.put {} e.evt.src code.toNat _) j).cnt = _
      rw [Tbl.get_put]
      split
      · subst j
        rfl
      · rfl
    · exact rung_modEvt (sameBooks_foldHeld _) e

/-- An event moves no counter but its own and the overrun's. -/
theorem rung_raiseAt {l : List Nat} {code : W16} (h : 0x0901 ∈ l) (hc : code.toNat ∈ l) (six unit : Nat) (a0 a1 : W32)
    (c : Chip) : Rung l c (c.raiseAt six code unit a0 a1) :=
  (rung_countSrc hc _ c).trans (rung_behind l h six code unit a0 a1 c)

theorem rung_raise {l : List Nat} {code : W16} (h : 0x0901 ∈ l) (hc : code.toNat ∈ l) (unit : Nat) (a0 a1 : W32)
    (c : Chip) : Rung l c (c.raise code unit a0 a1) := rung_raiseAt h hc _ unit a0 a1 c

/-- An event moves its own counter. -/
theorem raiseAt_cnt {code : W16} (h : code.toNat ≠ 0x0901) (six unit : Nat) (a0 a1 : W32) (c : Chip) :
    (Tbl.get ({} : EvtSrc) (c.raiseAt six code unit a0 a1).evt.src code.toNat).cnt =
      satInc (Tbl.get ({} : EvtSrc) c.evt.src code.toNat).cnt := by
  rw [(rung_behind [0x0901] (by simp) six code unit a0 a1 c).cnt _ (by simpa using h)]
  show (Tbl.get ({} : EvtSrc) (Tbl.put {} c.evt.src code.toNat _) code.toNat).cnt = _
  rw [Tbl.get_put, if_pos rfl]
  rfl

theorem raise_cnt {code : W16} (h : code.toNat ≠ 0x0901) (unit : Nat) (a0 a1 : W32) (c : Chip) :
    (Tbl.get ({} : EvtSrc) (c.raise code unit a0 a1).evt.src code.toNat).cnt =
      satInc (Tbl.get ({} : EvtSrc) c.evt.src code.toNat).cnt := raiseAt_cnt h _ unit a0 a1 c

/-- A packet may be an event of its queue. -/
theorem rung_fqPut {l : List Nat} (h : ∀ j ∈ [0x0901, 0x0A01, 0x0A02], j ∈ l) (q : Nat) (p : List W32) (c : Chip) :
    Rung l c (c.fqPut q p) := by
  unfold Chip.fqPut
  split
  · exact (rung_modFq l q _ c).trans (rung_raise (code := 0x0A02) (h _ (by simp)) (h 0x0A02 (by simp)) _ _ _ _)
  · have ho : Rung l c (c.fqOffer q p).1 := by
      unfold Chip.fqOffer
      dsimp only
      split
      · exact rung_modFq l q _ c
      · split
        · exact (rung_modFq l q _ c).trans (rung_hint l q _)
        · split
          · exact rung_modFq l q _ c
          · split
            · exact rung_evt rfl
            · exact rung_evt rfl
    exact rung_ite (ho.trans (rung_raise (code := 0x0A01) (h _ (by simp)) (h 0x0A01 (by simp)) _ _ _ _)) ho

theorem rung_stageAt (l : List Nat) (place ord : Nat) (kind : W16) (flags six : Nat) (p : List W8) (c : Chip) :
    Rung l c (c.stageAt place ord kind flags six p) := rung_ite (Rung.refl l c) (rung_evt rfl)

/-- A tamper record's note is the event of code 0x0902. -/
theorem rung_tamperNote {l : List Nat} (h : ∀ j ∈ [0x0901, 0x0902], j ∈ l) (ty unit six : Nat) (start : Bool) (x : List W8)
    (c : Chip) : Rung l c (c.tamperNote ty unit six start x) :=
  (rung_raiseAt (code := 0x0902) (h _ (by simp)) (h 0x0902 (by simp)) _ _ _ _ c).trans (rung_stageAt l _ _ _ _ _ _ _)

theorem rung_tamperInst {l : List Nat} (h : ∀ j ∈ [0x0901, 0x0902], j ∈ l) (ty unit six : Nat) (dur : W32) (x : List W8)
    (c : Chip) : Rung l c (c.tamperInst ty unit six dur x) :=
  Rung.trans (b := c.modTrec ty _) (rung_evt rfl) (rung_tamperNote h _ _ _ _ _ _)

/-- A ticket's completion may be an event of FQ0. -/
theorem rung_complete {l : List Nat} (h : ∀ j ∈ [0x0901, 0x0A01, 0x0A02], j ∈ l) (t : W16) (st : W8) (res : W32) (c : Chip) :
    Rung l c (c.complete t st res) := by
  unfold Chip.complete
  split
  · exact Rung.refl l c
  · exact Rung.trans (b := c.modTix _) (rung_evt rfl) (rung_ite
      ((rung_fqPut h _ _ _).trans (rung_evt rfl)) (rung_fqPut h _ _ _))

/-- A legal change is counted. -/
theorem recordLegal_legalCnt (source arg : Nat) (ref : W32) (six : Nat) (c : Chip) :
    (c.recordLegal source arg ref six).evt.legalCnt = satInc c.evt.legalCnt := by
  unfold Chip.recordLegal Chip.stage
  dsimp only
  rw [(rung_stageAt [] _ _ _ _ _ _ _).legal, (rung_tamperInst (l := [0x0901, 0x0902]) (fun _ h => h) _ _ _ _ _ _).legal]
  rfl

/-! ### Tamper records and legal changes in settling -/

/-- Settling follows the QUARANTINE record alone. -/
theorem calm_modTrec {ty : Nat} (h : ty ≠ 23) (g : TampRec → TampRec) (c : Chip) : Calm c (c.modTrec ty g) := by
  refine ⟨?_, rfl, rfl, rfl, rfl, rfl, rfl, fun _ => rfl, fun _ => rfl, fun _ => rfl, fun _ => rfl, rfl, rfl⟩
  unfold Chip.watched
  rw [modTrec_trec, if_neg h.symm]
  rfl

theorem calm_stageAt (place ord : Nat) (kind : W16) (flags six : Nat) (p : List W8) (c : Chip) :
    Calm c (c.stageAt place ord kind flags six p) := calm_ite (Calm.refl c) (quiet_far _ _ _ _ _ _ _ _ _ _).calm

theorem calm_tamperInst {ty : Nat} (h : ty ≠ 23) (unit six : Nat) (dur : W32) (x : List W8) (c : Chip) :
    Calm c (c.tamperInst ty unit six dur x) :=
  (calm_modTrec h _ c).trans ((calm_raiseAt _ _ _ _ _ _).trans (calm_stageAt _ _ _ _ _ _ _))

theorem calm_recordLegal (source arg : Nat) (ref : W32) (six : Nat) (c : Chip) : Calm c (c.recordLegal source arg ref six) :=
  Calm.trans (b := c.modEvt _) ⟨rfl, rfl, rfl, rfl, rfl, rfl, rfl, fun _ => rfl, fun _ => rfl, fun _ => rfl, fun _ => rfl, rfl, rfl⟩
    ((calm_tamperInst (by decide) _ _ _ _ _).trans (calm_stageAt _ _ _ _ _ _ _))

end Sys2Proof.Machine
end

section
/-! Contributions to the open segment (R108, R109, R111), gates and the end of an instant (R114, R115, R95). -/

namespace Sys2Proof.Machine

open Sys2Proof Sys2Proof.Claims

/-! ### The thread and the open segment of an engine -/

section
variable {e : Exec} {k : Nat} {rep : Bool} (ho : onEngine e k rep) (c : Chip) (sg : Seg) (t : Thread)
include ho

/-- An engine with another open segment whose thread goes on. -/
theorem segStep_facts : let d := (c.modEng k (Engine.setSeg rep sg)).qNext k rep t
    EngStep k c d ∧ threadOf e d = t.advance false ∧ segOf e d = sg := by
  refine ⟨(engStep_setSeg k rep sg c).trans (engStep_setThr k rep _ _), ?_, ?_⟩
  · rw [onEngine_threadOf ho, Chip.qNext, modEng_eng, if_pos rfl, setThr_thr]
  · rw [onEngine_segOf ho, Chip.qNext, modEng_eng, if_pos rfl, setThr_segOf, modEng_eng, if_pos rfl, setSeg_segOf]

/-- An instruction that changes the open segment and goes on. -/
theorem completes_segment {i : Instr} {s : State} {f : Nat → Bool → Chip → Thread → Except W8 Chip} {b : Chip → Chip}
    {P : Chip → Prop} (hs : Settled s) (hr : runs e s.chip)
    (hi : exec i s = run (Chip.bothI e (fun k rep c => c.qInstr k rep (f k rep)) b) s)
    (hf : f k rep s.chip (threadOf e s.chip) = .ok ((s.chip.modEng k (Engine.setSeg rep sg)).qNext k rep t))
    (hP : ∀ d, segOf e d = sg → (threadOf e d = t.advance false ∧ otherEngines e s.chip d ∧
      keepsBut [.engs] s.chip d) → P d) : completes i s P := by
  obtain ⟨hd, ht, hsg⟩ := segStep_facts ho s.chip sg t
  exact completes_qInstr hs hr ho hi hf hd
    (hP _ hsg ⟨ht, (onEngine_otherEngines ho _ _).mpr hd.others, hd.keepsBut (by decide)⟩)

end

/-! ### Contributions -/

theorem length_mergeBin_le (b : Bin) : ∀ l : List Bin, (mergeBin b l).length ≤ l.length + 1
  | [] => le_rfl
  | x :: l => by
    unfold mergeBin
    split
    · exact Nat.le_succ _
    · exact Nat.succ_le_succ (length_mergeBin_le b l)

/-- One contribution adds at most one bin to what the engine holds. -/
theorem binCount_append_le (q : Engine) (sg : Seg) (b : Bin) :
    q.binCount { sg with bins := sg.bins ++ [b] } ≤ q.binCount sg + 1 := by
  have h : ({ sg with bins := sg.bins ++ [b] } : Seg).merged.bins = mergeBin b sg.merged.bins := by
    simp [Seg.merged]
  unfold Engine.binCount
  rw [h]
  have := length_mergeBin_le b sg.merged.bins
  omega

/-- Settles O14: each contribution is one entry of the open segment, and the thread goes on. -/
theorem contributions : Obligations.Contributions := by
  unfold Obligations.Contributions
  intro e k rep wa a b slot keep tag m s hs hr ho ⟨hini, hdone⟩ t v seg w next only
  have hseg : seg = (s.chip.eng k).segOf rep := onEngine_segOf ho s.chip
  refine ⟨fun hchk hcut hroom => ?_, fun hm => ?_⟩
  · have hfit (x : Bin) : ¬ 2048 < (s.chip.eng k).binCount { seg with bins := seg.bins ++ [x] } :=
      Nat.not_lt.mpr ((binCount_append_le _ seg x).trans hroom)
    have hchk' : (s.chip.viewAt (threadOf e s.chip).six).binCheck k (threadOf e s.chip) a slot.val = .ok m := hchk
    have hcut' : (threadOf e s.chip).cutoff m = false := hcut
    refine ⟨?_, fun hv hnet => ?_, ?_⟩
    · apply completes_segment ho { seg with bins := seg.bins ++ [_] } (t.keepW wa keep) hs hr rfl
      · simp only [hchk', hcut', Bool.false_or, Bool.false_and, Bool.false_eq_true, if_false, ← hseg]
        exact if_neg (hfit _)
      · exact fun d hsg hd => ⟨hd, _, hsg, rfl, rfl, rfl, rfl, rfl, rfl, rfl⟩
    · have hv' : ¬ ((threadOf e s.chip).rw wa).toInt = 0 := hv
      have hnet' : (s.chip.viewAt (threadOf e s.chip).six).slotNet m slot.val = false := hnet
      apply completes_segment ho { seg with bins := seg.bins ++ [_] } (t.keepW wa keep) hs hr rfl
      · simp only [hchk', hcut', beq_eq_false_iff_ne.mpr hv', Bool.and_false, Bool.or_false, Bool.false_eq_true,
          if_false, ← hseg]
        exact if_neg (hfit _)
      · refine fun d hsg hd => ⟨hd, _, hsg, rfl, rfl, rfl, ?_, ?_⟩
        · simp [hnet', v, t]
        · simp [hnet', v, t]
    · refine completes_segment ho _ (t.keepW wa keep) hs hr rfl ?_ (fun d hsg hd => ⟨hd, hsg⟩)
      simp only [hchk', hcut', Bool.false_eq_true, if_false, ← hseg]
      rfl
  · have hm' : (s.chip.viewAt (threadOf e s.chip).six).mpOf k ((threadOf e s.chip).rx a).toNat = some m := hm
    refine completes_segment ho _ t hs hr rfl ?_ (fun d hsg hd => ⟨hd, hsg⟩)
    simp only [hini, hdone, hm', Bool.or_self, Bool.false_eq_true, if_false, ← hseg]
    rfl

end Sys2Proof.Machine
end

section
/-! Gates, fences and the end of an instant (R114, R77, R95, R115, R76). -/

namespace Sys2Proof.Machine

open Sys2Proof Sys2Proof.Claims

/-! ### GATE -/

/-- With no forced gate due and room among the gates, a GATE places one where the grid or a boundary asks for it. -/
theorem gateAt_eq {k : Nat} {rep : Bool} {z : Nat} {c : Chip} (hf : (c.eng k).forceDue = false)
    (hl : (c.eng k).gates.length < 8) : c.gateAt k rep z =
      if (c.eng k).hasGate z = false ∧ (rep = true ∨ (c.eng k).run ≠ 3) ∧
        ((c.eng k).boundaryDue z = true ∨ z % c.gatePeriod k z = 0)
      then c.placeGate k rep z else c := by
  unfold Chip.gateAt
  cases hg : (c.eng k).hasGate z with
  | true => simp [hf, hg]
  | false =>
    by_cases hr : rep = true ∨ (c.eng k).run ≠ 3
    · have hr' : (!rep && (c.eng k).run == ruSIDESTEP) = false := by
        rcases hr with rfl | hr
        · rfl
        · simp [ruSIDESTEP, show ¬ (c.eng k).run = 3#4 from hr]
      simp only [hf, hg, hr, hr', Bool.and_false, Bool.false_eq_true, if_false, if_neg (Nat.not_le.mpr hl),
        true_and]
      cases hb : (c.eng k).boundaryDue z <;> simp
    · obtain ⟨hrep, hrun⟩ := not_or.mp hr
      have hrun' : (c.eng k).run = 3#4 := not_ne_iff.mp hrun
      simp [hf, hg, hrep, hrun', ruSIDESTEP]

/-- The engine as a placed gate leaves it, where no late event waits. -/
def Engine.placed (rep : Bool) (s : Nat) (q : Engine) : Engine :=
  { q with
    gates := q.gates ++ [{ six := s, boundary := q.boundaryDue s, ck := (q.thr rep).gateCk, seg := q.segOf rep }]
    seg := if rep then q.seg else { start := s }
    rseg := if rep then { start := s } else q.rseg }

theorem modEng_congr {k : Nat} {c : Chip} {f g : Engine → Engine} (h : f (c.eng k) = g (c.eng k)) :
    c.modEng k f = c.modEng k g := by
  unfold Chip.modEng
  rw [show f (Tbl.get {} c.engs k) = g (Tbl.get {} c.engs k) from h]

theorem placeGate_eq {k : Nat} {rep : Bool} {s : Nat} {c : Chip} (h : (c.eng k).late = []) :
    c.placeGate k rep s = c.modEng k (Engine.placed rep s) := by
  have hlate : (if rep = true then [] else (c.eng k).late) = [] := by rw [h, ite_self]
  unfold Chip.placeGate
  dsimp only
  rw [hlate, each_nil rfl]
  refine modEng_congr ?_
  cases rep
  · simp [Engine.placed, Engine.thr, Engine.segOf, h]
  · simp [Engine.placed, Engine.thr, Engine.segOf]

theorem engStep_placed (k : Nat) (rep : Bool) (z : Nat) (c : Chip) : EngStep k c (c.modEng k (Engine.placed rep z)) :=
  engStep_modEng rfl rfl rfl

section
variable (rep : Bool) (t : Thread) (q : Engine)
@[simp] theorem setThr_run : (q.setThr rep t).run = q.run := by cases rep <;> rfl
@[simp] theorem setThr_gates : (q.setThr rep t).gates = q.gates := by cases rep <;> rfl
@[simp] theorem setThr_late : (q.setThr rep t).late = q.late := by cases rep <;> rfl
@[simp] theorem setThr_forceDue : (q.setThr rep t).forceDue = q.forceDue := by cases rep <;> rfl
@[simp] theorem setThr_hasGate (z : Nat) : (q.setThr rep t).hasGate z = q.hasGate z := by cases rep <;> rfl
@[simp] theorem setThr_boundaryDue (z : Nat) : (q.setThr rep t).boundaryDue z = q.boundaryDue z := by cases rep <;> rfl
@[simp] theorem placed_thr (z : Nat) : (q.placed rep z).thr rep = q.thr rep := by cases rep <;> rfl
@[simp] theorem placed_segOf (z : Nat) : (q.placed rep z).segOf rep = { start := z } := by cases rep <;> rfl
end

/-! ### FENCE and YIELD -/

/-- The engine as a flush of its live items leaves it. -/
def Engine.flushed (rep : Bool) (q : Engine) : Engine := q.setThr rep { q.thr rep with live := [] }

/-- Sending the live items changes the display, the events and the queues, and nothing that settling follows. -/
theorem flushLive_facts (k : Nat) (rep : Bool) (c : Chip) : let d := c.flushLive k rep
    Calm c d ∧ keepsBut [.engs, .disp, .ferry, .evt, .hint] c d ∧
      ∀ j, d.eng j = if j = k then (c.eng k).flushed rep else c.eng j := by
  unfold Chip.flushLive
  dsimp only
  generalize hx : each _ _ c = x
  have hn : Noted c x := hx ▸ noted_each (fun _ _ => noted_fqPut _ _ _) _ c
  have hc : Calm c x := hx ▸ calm_each (fun _ _ => calm_fqPut (by decide) _ _) _ c
  have hs := fun g => engStep_setThr k rep { (c.eng k).thr rep with live := [] } (x.modDisp g)
  refine ⟨(hc.trans (calm_far x _ _ _ _ _ _ _ _ _ _ _ _ _)).trans (hs _).quiet.calm, ?_, fun j => ?_⟩
  · exact keepsBut_trans ((hn.keepsBut (by decide)))
      (keepsBut_trans (keepsBut_disp (by decide) _) ((hs _).keepsBut (by decide)))
  · have he : ∀ g j, (x.modDisp g).eng j = c.eng j := fun g j => by rw [Chip.eng, modDisp_engs, hn.engs, Chip.eng]
    rw [modEng_eng, he, he]
    rfl

/-- An instruction of an engine after which settling has nothing to follow. -/
theorem completes_qCalm {e : Exec} {k : Nat} {rep : Bool} {i : Instr} {s : State}
    {f : Nat → Bool → Chip → Thread → Except W8 Chip} {b : Chip → Chip} {d : Chip} (hs : Settled s)
    (hr : runs e s.chip) (ho : onEngine e k rep)
    (hi : exec i s = run (Chip.bothI e (fun k rep c => c.qInstr k rep (f k rep)) b) s)
    (hf : f k rep s.chip (threadOf e s.chip) = .ok d) (hd : Calm s.chip d) {P : Chip → Prop}
    (hP : ∀ f, SameQueues s.chip d f → P { d with ferry := f }) : completes i s P := by
  refine completes_calm hi ?_ hs hd hP
  rw [onEngine_bothI ho]
  exact qInstr_ok (onEngine_canRun ho _ hr) (by rw [← onEngine_threadOf ho, hf])

/-! ### The statement -/

/-- GATE. -/
theorem completes_gate (e : Exec) (k : Nat) (rep : Bool) (s : State) (hs : Settled s) (hr : runs e s.chip)
    (ho : onEngine e k rep) (hin : inInstant e s.chip) :
    let t := threadOf e s.chip
    let q := s.chip.eng k
    let z := t.six + s.chip.gridDAt k t.six
    let t' := ({ t with gateDone := true } : Thread).advance false
    let due := q.hasGate z = false ∧ (rep = true ∨ q.run ≠ 3) ∧
      (q.boundaryDue z = true ∨ z % s.chip.gatePeriod k z = 0)
    q.forceDue = false → q.gates.length < 8 → q.late = [] →
    completes (.gate e) s (fun d =>
      threadOf e d = { t' with atGate := some t'.capture } ∧
      (due → segOf e d = { start := z } ∧ ∃ g, (d.eng k).gates = q.gates ++ [g] ∧ g.six = z ∧
        g.ck.x = t.x ∧ g.ck.w = t.w) ∧
      (¬ due → (d.eng k).gates = q.gates ∧ segOf e d = segOf e s.chip) ∧
      otherEngines e s.chip d ∧ keepsBut [.engs] s.chip d) := by
  intro t q z t' due hforce hlen hlate
  obtain ⟨hini, hdone⟩ := hin
  let T : Thread := { t' with atGate := some t'.capture }
  let c' := s.chip.modEng k (Engine.setThr rep T)
  have hq : c'.eng k = q.setThr rep T := by rw [modEng_eng, if_pos rfl]
  have hstep : EngStep k s.chip c' := engStep_setThr k rep T s.chip
  have hgate : c'.gateAt k rep z = if due then c'.placeGate k rep z else c' := by
    rw [gateAt_eq (by rw [hq, setThr_forceDue, hforce]) (by rw [hq, setThr_gates]; exact hlen)]
    simp only [hq, setThr_hasGate, setThr_run, setThr_boundaryDue]
    rfl
  have hin : ¬ (t.inInit || t.gateDone) = true := by simp [t, hini, hdone]
  by_cases hdue : due
  · rw [if_pos hdue, placeGate_eq (by rw [hq, setThr_late, hlate])] at hgate
    have hs' := hstep.trans (engStep_placed k rep z c')
    have he : (c'.modEng k (Engine.placed rep z)).eng k = (q.setThr rep T).placed rep z := by
      rw [modEng_eng, if_pos rfl, hq]
    refine completes_qInstr hs hr ho rfl ((if_neg hin).trans (congrArg Except.ok hgate)) hs' ⟨?_, fun _ => ⟨?_, ?_⟩, fun h => absurd hdue h,
      (onEngine_otherEngines ho _ _).mpr hs'.others, hs'.keepsBut (by decide)⟩
    · rw [onEngine_threadOf ho, he, placed_thr, setThr_thr]
    · rw [onEngine_segOf ho, he, placed_segOf]
    · rw [he]
      refine ⟨_, congrArg (· ++ _) (setThr_gates rep T q), rfl, ?_, ?_⟩
      · simp [T, Thread.gateCk]; rfl
      · simp [T, Thread.gateCk]; rfl
  · rw [if_neg hdue] at hgate
    refine completes_qInstr hs hr ho rfl ((if_neg hin).trans (congrArg Except.ok hgate)) hstep ⟨?_, fun h => absurd h hdue, fun _ => ⟨?_, ?_⟩,
      (onEngine_otherEngines ho _ _).mpr hstep.others, hstep.keepsBut (by decide)⟩
    · rw [onEngine_threadOf ho, hq, setThr_thr]
    · rw [hq, setThr_gates]
    · rw [onEngine_segOf ho, onEngine_segOf ho, hq, setThr_segOf]

theorem threadOf_ferry (e : Exec) (c : Chip) (f : Tbl Ferry) : threadOf e { c with ferry := f } = threadOf e c := by
  cases e <;> rfl

/-- FENCE. -/
theorem completes_fence {e : Exec} {k : Nat} {rep : Bool} {s : State} (hs : Settled s) (hr : runs e s.chip)
    (ho : onEngine e k rep) : completes (.fence e) s (fun d =>
      threadOf e d = { (threadOf e s.chip).advance false with live := [] } ∧ otherEngines e s.chip d ∧
        keepsBut [.engs, .disp, .ferry, .evt, .hint] s.chip d) := by
  let c' := s.chip.qNext k rep (threadOf e s.chip)
  have hstep : EngStep k s.chip c' := engStep_setThr k rep _ _
  obtain ⟨hc, hk, he⟩ := flushLive_facts k rep c'
  refine completes_qCalm hs hr ho rfl rfl (hstep.quiet.calm.trans hc) (fun f _ => ⟨?_, ?_, ?_⟩)
  · rw [onEngine_threadOf ho]
    show ((c'.flushLive k rep).eng k).thr rep = _
    rw [he, if_pos rfl, Engine.flushed, setThr_thr, show c'.eng k = Engine.setThr rep _ _ from
      (modEng_eng ..).trans (if_pos rfl), setThr_thr]
  · refine (onEngine_otherEngines ho _ _).mpr (fun j hj => ?_)
    show (c'.flushLive k rep).eng j = _
    rw [he, if_neg hj, hstep.others j hj]
  · exact keepsBut_trans (keepsBut_trans (hstep.keepsBut (by decide)) hk) (keepsBut_ferry (by decide) _)

/-- An engine with the trace word `w` of the instant `six` in the segment that holds it. -/
def Engine.traced (rep : Bool) (seg : Seg) (six : Nat) (w : W32) (q : Engine) : Engine :=
  let mk := fun (s : Seg) => if s.trace.any (fun x => x.1 == six) then s
    else { s with trace := s.trace ++ [(six, w)] }
  let inGate := fun (g : Gate) => decide (g.seg.start ≤ six) && decide (six < g.six)
  if !q.traceOn then q
  else if seg.start ≤ six then q.setSeg rep (mk seg)
  else { q with gates := mapIf inGate (fun g => { g with seg := mk g.seg }) q.gates }

theorem traced_keeps (rep : Bool) (sg : Seg) (six : Nat) (w : W32) (q : Engine) :
    ∃ gs s r, q.traced rep sg six w = { q with gates := gs, seg := s, rseg := r } := by
  unfold Engine.traced
  dsimp only
  split
  · exact ⟨q.gates, q.seg, q.rseg, rfl⟩
  · split
    · cases rep <;> exact ⟨_, _, _, rfl⟩
    · exact ⟨_, q.seg, q.rseg, rfl⟩

/-- The engine as the end of an instant leaves it, with the trace word `w` of the instant in its segment. -/
def Engine.yielded (rep : Bool) (cycles d six : Nat) (w : W32) (q : Engine) : Engine :=
  let x := q.setThr rep { q.thr rep with busy := false }
  let y := { x with cycMax := BitVec.ofNat 16 (max x.cycMax.toNat (min cycles 0xFFFF)) }.traced rep (q.segOf rep) six w
  if rep then { y with rpos := y.rpos + d } else { y with hpos := y.hpos + d }

/-- What the end of an instant leaves of its engine. -/
structure Yielded (rep : Bool) (cycles d : Nat) (q r : Engine) : Prop where
  run : r.run = q.run
  logs : r.logs = q.logs
  committed : r.c = q.c
  prog : r.prog = q.prog
  thr : r.thr rep = { q.thr rep with busy := false }
  hpos : r.hpos = q.hpos + (if rep then 0 else d)
  rpos : r.rpos = q.rpos + (if rep then d else 0)
  cycMax : r.cycMax = BitVec.ofNat 16 (max q.cycMax.toNat (min cycles 0xFFFF))

theorem yielded_facts (rep : Bool) (cycles d six : Nat) (w : W32) (q : Engine) :
    Yielded rep cycles d q (q.yielded rep cycles d six w) := by
  unfold Engine.yielded
  dsimp only
  generalize hx : ({ q.setThr rep { q.thr rep with busy := false } with cycMax := _ } : Engine) = x
  obtain ⟨gs, s, r, h⟩ := traced_keeps rep (q.segOf rep) six w x
  rw [h, ← hx]
  cases rep <;> exact ⟨rfl, rfl, rfl, rfl, rfl, rfl, rfl, rfl⟩

/-- YIELD sends what the instant has pushed and ends it, while no program change waits. -/
theorem qYield_eq {k : Nat} {rep : Bool} {cycles : Nat} {c : Chip} (hr : (c.eng k).canRun rep = true)
    (hini : ((c.eng k).thr rep).inInit = false) (hloops : ((c.eng k).thr rep).loops = [])
    (hlink : ((c.eng k).thr rep).link = []) (hdone : ((c.eng k).thr rep).gateDone = true)
    (hprog : (c.eng k).prog = none) : ∃ w, c.qYield k rep cycles = (c.flushLive k rep).modEng k
      (Engine.yielded rep cycles (c.gridDAt k ((c.eng k).thr rep).six) ((c.eng k).thr rep).six w) := by
  have hflush : ((c.flushLive k rep).eng k).prog = none := by
    rw [(flushLive_facts k rep c).2.2 k, if_pos rfl]
    cases rep <;> exact hprog
  refine ⟨w32 (cycles % 2 ^ 18 * 16384 + ((c.eng k).thr rep).pc % 16384), qInstr_ok hr ?_⟩
  have hbad : ¬ (((c.eng k).thr rep).inInit || !((c.eng k).thr rep).loops.isEmpty ||
      !((c.eng k).thr rep).link.isEmpty) = true := by simp [hini, hloops, hlink]
  have hgate : ¬ (!((c.eng k).thr rep).gateDone) = true := by simp [hdone]
  refine (if_neg hbad).trans ((if_neg hgate).trans ?_)
  dsimp only
  generalize hg : (fun q : Engine => ite (rep = true) _ _) = g
  have hg' : g = Engine.yielded rep cycles (c.gridDAt k ((c.eng k).thr rep).six) ((c.eng k).thr rep).six
      (w32 (cycles % 2 ^ 18 * 16384 + ((c.eng k).thr rep).pc % 16384)) := by
    rw [← hg]
    rfl
  rw [hg', if_neg]
  rw [modEng_eng, if_pos rfl, Engine.progAt, (yielded_facts ..).prog, hflush]
  simp

/-- YIELD. -/
theorem completes_yield {e : Exec} {k : Nat} {rep : Bool} {cycles : Nat} {s : State} (hs : Settled s)
    (hr : runs e s.chip) (ho : onEngine e k rep) :
    let t := threadOf e s.chip
    let q := s.chip.eng k
    t.inInit = false → t.loops = [] → t.link = [] → t.gateDone = true → q.prog = none →
      completes (.yield e cycles) s (fun d =>
        (threadOf e d).busy = false ∧ (threadOf e d).x = t.x ∧ (threadOf e d).w = t.w ∧
        (d.eng k).hpos = q.hpos + (if rep then 0 else s.chip.gridDAt k t.six) ∧
        (d.eng k).rpos = q.rpos + (if rep then s.chip.gridDAt k t.six else 0) ∧
        (d.eng k).cycMax = BitVec.ofNat 16 (max q.cycMax.toNat (min cycles 0xFFFF)) ∧ otherEngines e s.chip d ∧
        keepsBut [.engs, .disp, .ferry, .evt, .hint] s.chip d) := by
  intro t q hini hloops hlink hdone hprog
  have ht : t = q.thr rep := onEngine_threadOf ho _
  clear_value t
  subst ht
  obtain ⟨w, hy⟩ := qYield_eq (cycles := cycles) (onEngine_canRun ho _ hr) hini hloops hlink hdone hprog
  obtain ⟨hc, hk, he⟩ := flushLive_facts k rep s.chip
  generalize hg : Engine.yielded rep cycles (s.chip.gridDAt k (q.thr rep).six) (q.thr rep).six w = g at hy
  have hy' : ∀ r, Yielded rep cycles (s.chip.gridDAt k (q.thr rep).six) r (g r) := fun r => hg ▸ yielded_facts ..
  have hstep : EngStep k (s.chip.flushLive k rep) ((s.chip.flushLive k rep).modEng k g) :=
    engStep_modEng (hy' _).run (hy' _).logs (hy' _).committed
  have hq : ((s.chip.flushLive k rep).modEng k g).eng k = g (q.flushed rep) := by
    rw [modEng_eng, if_pos rfl, he, if_pos rfl]
  have hthr : threadOf e ((s.chip.flushLive k rep).modEng k g) = { q.thr rep with live := [], busy := false } := by
    rw [onEngine_threadOf ho, hq, (hy' _).thr, Engine.flushed, setThr_thr]
  refine completes_calm (d := (s.chip.flushLive k rep).modEng k g)
    (f := Chip.bothI e (fun k rep => Chip.qYield k rep cycles) Chip.bIllegal) rfl ?_ hs (hc.trans hstep.quiet.calm)
    (fun f _ => ⟨?_, ?_, ?_, ?_, ?_, ?_, ?_, ?_⟩)
  · rw [onEngine_bothI ho, hy]
  · rw [threadOf_ferry, hthr]
  · rw [threadOf_ferry, hthr]
  · rw [threadOf_ferry, hthr]
  · refine (congrArg Engine.hpos hq).trans ((hy' _).hpos.trans ?_)
    cases rep <;> rfl
  · refine (congrArg Engine.rpos hq).trans ((hy' _).rpos.trans ?_)
    cases rep <;> rfl
  · refine (congrArg Engine.cycMax hq).trans ((hy' _).cycMax.trans ?_)
    cases rep <;> rfl
  · refine (onEngine_otherEngines ho _ _).mpr (fun j hj => (hstep.others j hj).trans ?_)
    rw [he, if_neg hj]
  · exact keepsBut_trans (keepsBut_trans hk (hstep.keepsBut (by decide))) (keepsBut_ferry (by decide) _)

/-- Settles O15: GATE, then FENCE and YIELD. -/
theorem gatesAndInstantEnds : Obligations.GatesAndInstantEnds := by
  unfold Obligations.GatesAndInstantEnds
  exact ⟨fun e k rep s hs hr ho hin => completes_gate e k rep s hs hr ho hin,
    fun e k rep cycles s hs hr ho => ⟨completes_fence hs hr ho, completes_yield hs hr ho⟩⟩

end Sys2Proof.Machine
end

section
/-! PUSHL and MARK (R111, R109, R150). -/

namespace Sys2Proof.Machine

open Sys2Proof Sys2Proof.Claims

/-- A running head of engine 0 whose direction unit of meter point 0 has a reversal to confirm that began at 5, an
instant between two of its grid, and whose log holds a direction event of that very instant. -/
def offGrid : State where
  chip :=
    { ({} : Chip) with
      cfg := { ({} : Chip).cfg with live := [(0x52000, 0xC0000000), (0x52004, 0x80)] }
      engs := [(0, { run := 2
                     head := { busy := true, dirs := [(0, { openCand := true, candAt := 5, band := true, sum := -1 })] }
                     log := [{ stamp := 5, src := 1, change := .direction 0 true }] })] }

theorem offGrid_settled : Settled offGrid := ⟨rfl, rfl, nofun⟩

/-- The event is known under the instant itself, so MARK adds none under the grid's. -/
theorem offGrid_mark : ((offGrid.chip.qMark 0 false 1 2).eng 0).knows 0 0 true = false := by decide

theorem engStep_offGrid : EngStep 0 offGrid.chip (offGrid.chip.qMark 0 false 1 2) := by
  have h : ∃ t, offGrid.chip.qMark 0 false 1 2 = offGrid.chip.modEng 0 (Engine.setThr false t) := ⟨_, rfl⟩
  obtain ⟨t, ht⟩ := h
  rw [ht]
  exact engStep_setThr 0 false t _

/-- Refutes O16: MARK asks whether the reversal is known at the instant it began, but stamps its event with the grid
instant below; where that instant lies between two of the grid and its log holds an event of it, there is no event
of the grid instant. -/
theorem not_liveItemsAndDirection : ¬ Obligations.LiveItemsAndDirection := by
  unfold Obligations.LiveItemsAndDirection
  rintro ⟨-, h⟩
  obtain ⟨t, ht, -, hknows, -⟩ := (h (.head 0) 0 false 1 2 0 offGrid offGrid_settled rfl ⟨rfl, rfl⟩ ⟨rfl, rfl⟩
    rfl rfl rfl rfl).2 5 (by decide)
  have hans := answers_quiet (i := .mark (.head 0) 1 2) (s := offGrid) rfl rfl offGrid_settled engStep_offGrid.quiet
  have hchip : t.chip = offGrid.chip.qMark 0 false 1 2 := congrArg State.chip (Host.Outcome.next.inj (ht.symm.trans hans))
  have hfalse := offGrid_mark
  rw [hchip] at hknows
  exact Bool.false_ne_true (hfalse.symm.trans hknows)

end Sys2Proof.Machine
end

section
/-! HALT, TRAP and faults (R96, R130, R250, R88). -/

namespace Sys2Proof.Machine

open Sys2Proof Sys2Proof.Claims

/-- The head of engine 0 at the end of its initialisation, with a legal change of engines 0 and 1 that engine 0 alone
has yet to commit, and a second one that waits for the first. -/
def haltPending : State where
  chip :=
    { ({} : Chip) with
      engs := [(0, { run := 1, atHalt := true, head := { busy := true, inInit := true } }), (1, { run := 2, c := 1 })]
      cfg := { ({} : Chip).cfg with
        pend := [{ stamp := some 1, applied := true, engines := 3 }, { stamp := none, engines := 3 }] } }

theorem haltPending_settled : Settled haltPending := ⟨rfl, rfl, nofun⟩

set_option Elab.async false in
/-- The end of the initialisation commits the first change, so the second is given its instant and its event enters
the log of engine 1. -/
theorem haltPending_log :
    ((Chip.settle haltPending.chip (haltPending.chip.qHalt 0 false)).eng 1).log.length = 1 := by decide +kernel

/-- Refutes O17: HALT can let a waiting legal change be given its instant, which reaches the other engines. -/
theorem not_haltsAndFaults : ¬ Obligations.HaltsAndFaults := by
  unfold Obligations.HaltsAndFaults
  rintro ⟨h, -⟩
  obtain ⟨-, -, -, -, -, -, hothers, -⟩ :=
    of_completes ((h 0 haltPending haltPending_settled).1 rfl rfl) (f := Chip.qHalt 0 false) rfl
  have hlog := haltPending_log
  rw [hothers 1 (by decide)] at hlog
  exact absurd hlog (by decide)

end Sys2Proof.Machine
end

section
/-! DRVSET and DRVGET (R119, R284). -/

namespace Sys2Proof.Machine

open Sys2Proof Sys2Proof.Claims

/-! ### One drive of the block -/

@[simp] theorem modDrive_drive (n : Nat) (g : Drive → Drive) (c : Chip) (j : Nat) :
    (c.modDrive n g).drive j = if j = n then g (c.drive n) else c.drive j := by
  show Tbl.get ({} : Drive) (Tbl.put {} _ _ _) _ = _
  rw [Tbl.get_put]
  rfl

/-- Another drive is on as before. -/
theorem modDrive_driveOn_other {n j : Nat} (g : Drive → Drive) (c : Chip) (hj : j ≠ n) :
    (c.modDrive n g).driveOn j = c.driveOn j := by
  have hd : (c.modDrive n g).drive j = c.drive j := by rw [modDrive_drive, if_neg hj]
  have hdie : (c.modDrive n g).dieHolds j = c.dieHolds j := by
    unfold Chip.dieHolds
    rw [hd]
    rfl
  have hcause : (c.modDrive n g).causeHolds j = c.causeHolds j := by
    unfold Chip.causeHolds
    rw [hdie]
    rfl
  unfold Chip.driveOn
  rw [hd, hdie, hcause]
  rfl

/-- A drive whose phase stays is nothing that settling follows, but for whether it is on. -/
theorem still_modDrive {n : Nat} {g : Drive → Drive} {c : Chip} (h : (g (c.drive n)).phase = (c.drive n).phase) :
    Still c (c.modDrive n g) := by
  have hphase : ∀ j, ((c.modDrive n g).drive j).phase = (c.drive j).phase := by
    intro j
    rw [modDrive_drive]
    split
    · subst j
      exact h
    · rfl
  refine ⟨rfl, rfl, rfl, rfl, rfl, rfl, rfl, fun _ => rfl, fun i => ?_, fun _ => rfl, rfl, rfl⟩
  have hfree : ∀ w, (c.modDrive n g).spillFree w = c.spillFree w := by
    intro w
    unfold Chip.spillFree
    split
    · rfl
    · next j _ =>
      rw [hphase]
      rfl
  unfold Chip.pulseDue
  dsimp only
  rw [hfree]
  rfl

/-- A drive that no test runs on takes a command at once. -/
theorem drvCommand_untested {n : Nat} {on : Bool} {c : Chip} (h : (c.drive n).testing = 0) :
    c.drvCommand n on = c.modDrive n (fun d => { d with cmd := on, frozen := d.frozen && on }) := by
  unfold Chip.drvCommand Chip.drvAbortTest
  rw [if_pos h]

/-- A drive number is one of the drives. -/
theorem drvSet_range {n : Nat} {on : Bool} {c : Chip} (h : 48 ≤ n) : c.drvSet n on = (c, stRANGE) := if_pos h

theorem drvSet_off {n : Nat} {c : Chip} (h : n < 48) : c.drvSet n false = (c.drvCommand n false, stOK) := by
  simp [Chip.drvSet, Nat.not_le.mpr h]

section
variable {n : Nat} {c : Chip} (h : n < 48)
include h

theorem drvSet_denied (ho : c.drvOwner n ≠ 1) : c.drvSet n true = (c, stDENIED) := by
  simp [Chip.drvSet, Nat.not_le.mpr h, ho]

variable (ho : c.drvOwner n = 1) (hg : c.drvGranted n = true) (hm : c.modeHolds n = false)
include ho hg hm

theorem drvSet_locked (hl : (c.drive n).phase ≠ 0 ∨ (c.drive n).therm = true ∨ c.uvHolds n = true) :
    c.drvSet n true = (c.drvCommand n true, stLOCKED) := by
  simp only [Chip.drvSet, if_neg (Nat.not_le.mpr h), ho, hg, hm, if_pos hl]
  simp

theorem drvSet_on (hp : (c.drive n).phase = 0) (ht : (c.drive n).therm = false) (hu : c.uvHolds n = false) :
    c.drvSet n true = (c.drvCommand n true, stOK) := by
  simp [Chip.drvSet, Nat.not_le.mpr h, ho, hg, hm, hp, ht, hu]

end

/-! ### The instructions -/

/-- DRVSET of a drive that no test runs on commands that drive alone. -/
theorem completes_drvset {rd a b : Reg} {s : State} {n : Nat} {on : Bool} {st : W8} (hs : Settled s)
    (hr : runs .bay s.chip) (hn : (s.chip.bay.core.rx a).toNat = n) (hon : (s.chip.bay.core.rx b).getLsbD 0 = on)
    (hset : s.chip.drvSet n on = (s.chip.drvCommand n on, st)) (htest : (s.chip.drive n).testing = 0) :
    completes (.drvset .bay rd a b) s (fun d => bayGoes rd (status st.toNat 0) s.chip d ∧ (d.drive n).cmd = on ∧
      (∀ j, j ≠ n → d.drive j = s.chip.drive j) ∧ keepsBut [.bay, .drv] s.chip d) := by
  let g : Drive → Drive := fun d => { d with cmd := on, frozen := d.frozen && on }
  let d := (s.chip.modDrive n g).bPut rd (bayRes st 0)
  have hd : d.drv = (s.chip.modDrive n g).drv := rfl
  have hdrive : ∀ j, d.drive j = if j = n then g (s.chip.drive n) else s.chip.drive j :=
    fun j => modDrive_drive n g s.chip j
  have hstill : Still s.chip d := (still_modDrive (g := g) rfl).trans (calm_setCore _ _).still
  have hf : s.chip.bDrvset rd a b = d := bInstr_ok hr (by
    rw [hn, hon, hset, drvCommand_untested htest]
    rfl)
  refine completes_still (f := Chip.onlyS .bay (Chip.bDrvset rd a b)) rfl hf hs hstill
    (fun x f hx hq => ⟨rfl, ?_, fun j hj => ?_, ?_⟩)
  · obtain ⟨t, ht, -⟩ := hx.drive n
    show (Tbl.get {} x n).cmd = on
    rw [ht, hdrive, if_pos rfl]
  · obtain ⟨t, ht, hoff⟩ := hx.drive j
    show Tbl.get {} x j = _
    have hsame : d.driveOn j = s.chip.driveOn j := modDrive_driveOn_other g s.chip hj
    rw [ht, hoff (by simp [hsame]), hdrive, if_neg hj]
  · rw [hq.same (fun _ => id)]
    exact keepsBut_trans (keepsBut_trans (keepsBut_drv (by decide) _) (keepsBut_bay (by decide) _))
      (keepsBut_drv (by decide) _)

/-- Settles O18: the answer of DRVSET by the drive's state, and the word of DRVGET. -/
theorem bayDrives : Obligations.BayDrives := by
  unfold Obligations.BayDrives
  intro rd a b s hs hr c n on
  have denied {st : W8} (h : c.drvSet n on = (c, st)) :
      answers (.drvset .bay rd a b) s (wrote .bay rd (status st.toNat 0) c) :=
    answers_bInstr hs hr rfl (congrArg (fun r => Except.ok (Chip.bRet rd r)) h) (quiet_withThread .bay _ _)
  have read {v : W64} (h : (if 48 ≤ n then bayRes stRANGE 0 else bayRes stOK (c.drvWord n).toNat) = v) :
      answers (.drvget .bay rd a) s (wrote .bay rd v c) :=
    answers_bInstr hs hr rfl (congrArg (fun v => Except.ok (c.bPut rd v)) h) (quiet_withThread .bay _ _)
  refine ⟨fun hn htest hmay => ?_, fun hn ho htest hon hg hm hl => ?_, fun hn ho hon => ?_, fun hn => ?_, fun hn => ?_,
    fun hn => ?_⟩
  · refine completes_drvset (st := stOK) hs hr rfl rfl ?_ htest
    cases h : on with
    | false =>
      rw [drvSet_off hn]
    | true =>
      obtain ⟨ho, hg, hm, hp, ht, hu⟩ := hmay h
      rw [drvSet_on hn ho hg hm hp ht hu]
  · have h := completes_drvset (rd := rd) (st := stLOCKED) hs hr rfl rfl (show c.drvSet n on = (c.drvCommand n on, _) by
      rw [hon, drvSet_locked hn ho hg hm hl]) htest
    rwa [show (s.chip.bay.core.rx b).getLsbD 0 = true from hon] at h
  · exact denied (by rw [hon, drvSet_denied hn ho])
  · exact denied (drvSet_range hn)
  · exact read (if_neg (Nat.not_le.mpr hn))
  · exact read (if_pos hn)

end Sys2Proof.Machine
end

section
/-! Context events (R74, R75): what one that reaches the engines leaves of the block. -/

namespace Sys2Proof.Machine

open Sys2Proof Sys2Proof.Claims

/-- What a legal change that waits asks of an engine is the same: whether it is loaded, whether it keeps events alone,
and its last committed instant. -/
structure SameStand (q r : Engine) : Prop where
  unloaded : (r.run = ruUNLOADED) = (q.run = ruUNLOADED)
  logs : r.logs = q.logs
  committed : r.c = q.c

theorem SameStand.refl (q : Engine) : SameStand q q := ⟨rfl, rfl, rfl⟩

theorem sameStand_logOnly (ev : CtxEv) (q : Engine) : SameStand q (q.logOnly ev) := by
  unfold Engine.logOnly
  dsimp only
  split
  · exact ⟨rfl, rfl, rfl⟩
  · split
    · split <;> exact ⟨rfl, rfl, rfl⟩
    · exact ⟨rfl, rfl, rfl⟩

/-- An event behind the head starts or widens a sidestep, or sends a recovering engine back. -/
theorem sameStand_acceptBehind (ev : CtxEv) {q : Engine} (hu : q.run ≠ ruUNLOADED) (hl : q.logs = false) :
    SameStand q (q.acceptBehind ev) := by
  unfold Engine.acceptBehind
  dsimp only
  split
  · exact ⟨rfl, rfl, rfl⟩
  · have hu' : (q.run = ruUNLOADED) = False := eq_false hu
    split
    · refine ⟨?_, ?_, rfl⟩
      · rw [hu']
        exact eq_false (show ¬ ruSIDESTEP = ruUNLOADED by decide)
      · rw [hl]
        rfl
    · split
      · next h =>
        refine ⟨?_, ?_, ?_⟩
        · rw [hu']
          refine eq_false (fun h' => ?_)
          dsimp only at h'
          split at h'
          · exact absurd h' (show ¬ ruSIDESTEP = ruUNLOADED by decide)
          · exact hu h'
        · rw [hl]
          split
          · rfl
          · exact hl
        · split <;> rfl
      · refine ⟨?_, ?_, rfl⟩
        · rw [hu']
          refine eq_false (fun h' => ?_)
          dsimp only [Engine.goBack] at h'
          split at h'
          · exact hu h'
          · exact absurd h' (show ¬ ruRECOVER = ruUNLOADED by decide)
        · show Engine.logs { q.goBack _ with log := _, ssEv := _, ssFrom := _, ssCtx := _ } = _
          rw [hl]
          unfold Engine.logs Engine.goBack
          dsimp only
          split
          · exact hl
          · rfl

theorem sameStand_accept (ev : CtxEv) {q : Engine} (hu : q.run ≠ ruUNLOADED) (hl : q.logs = false ∨ ev.stamp < q.c) :
    SameStand q (q.accept ev) := by
  unfold Engine.accept
  split
  · exact ⟨rfl, rfl, rfl⟩
  · next hc =>
    have hl' : q.logs = false := hl.resolve_right hc
    dsimp only
    have h : SameStand q (if (q.run ≠ ruLOADING ∧ q.run ≠ ruRESTART ∨ q.reloaded = true) ∧
        q.head.behind q.hpos ev.stamp = true then q.acceptBehind ev else { q with log := insEv ev q.log }) := by
      split
      · exact sameStand_acceptBehind ev hu hl'
      · exact ⟨rfl, rfl, rfl⟩
    exact ⟨h.unloaded, h.logs, h.committed⟩

/-- Legal changes that wait for engines that stand the same wait as before. -/
theorem pendDone_of_sameStand {c d : Chip} (h : ∀ k, SameStand (c.eng k) (d.eng k)) (p : PendCommit) :
    d.pendDone p = c.pendDone p := by
  have hr : ∀ k, ((d.eng k).run != ruUNLOADED) = ((c.eng k).run != ruUNLOADED) := fun k => by
    rw [bne, bne, Bool.beq_eq_decide_eq, Bool.beq_eq_decide_eq]
    simp only [(h k).unloaded]
  unfold Chip.pendDone
  simp only [hr, (h _).logs, (h _).committed]

theorem calm_modEng {k : Nat} {g : Engine → Engine} {c : Chip} (h : SameStand (c.eng k) (g (c.eng k))) :
    Calm c (c.modEng k g) := by
  refine ⟨rfl, rfl, rfl, rfl, rfl, rfl, rfl, pendDone_of_sameStand (fun j => ?_), fun _ => rfl, fun _ => rfl,
    fun _ => rfl, rfl, rfl⟩
  rw [modEng_eng]
  split
  · subst j
    exact h
  · exact SameStand.refl _

/-- An event at or before its source's published horizon is reported (R74). -/
def noteBreach (k : Nat) (ev : CtxEv) (c : Chip) : Chip :=
  if ev.stamp ≤ Tbl.get 0 (c.eng k).hz ev.src ∧ Tbl.get 0 (c.eng k).hz ev.src ≠ 0 then
    c.raise 0x0501 k (w32 ev.src) (w32 ev.stamp)
  else c

theorem toEngine_eq (k : Nat) (ev : CtxEv) (c : Chip) : c.toEngine k ev =
    if (c.eng k).run = ruUNLOADED then c.modEng k (Engine.logOnly ev) else
      (noteBreach k ev c).modEng k
        (if (c.eng k).logs && decide ((c.eng k).c ≤ ev.stamp) then Engine.logOnly ev else Engine.accept ev) := rfl

theorem noted_noteBreach (k : Nat) (ev : CtxEv) (c : Chip) : Noted c (noteBreach k ev c) := by
  unfold noteBreach
  split
  · exact noted_raise _ _ _ _ _
  · exact Noted.refl c

theorem calm_noteBreach (k : Nat) (ev : CtxEv) (c : Chip) : Calm c (noteBreach k ev c) :=
  calm_ite (calm_raise _ _ _ _ _) (Calm.refl c)

/-- An engine takes a context event. -/
theorem calm_toEngine (k : Nat) (ev : CtxEv) (c : Chip) : Calm c (c.toEngine k ev) := by
  rw [toEngine_eq]
  split
  · exact calm_modEng (sameStand_logOnly ev _)
  · next hu =>
    refine (calm_noteBreach k ev c).trans (calm_modEng ?_)
    rw [Chip.eng, (noted_noteBreach k ev c).engs, ← Chip.eng]
    split
    · exact sameStand_logOnly ev _
    · next hl =>
      refine sameStand_accept ev hu ?_
      cases h : (c.eng k).logs with
      | false => exact .inl rfl
      | true => exact .inr (by simpa [h] using hl)

theorem calm_toEngines (ev : CtxEv) (c : Chip) : Calm c (c.toEngines ev) :=
  calm_each (fun k c => calm_toEngine k ev c) _ c

/-- `d` differs from `c` in the engines and in what an event reaches. -/
def EngNoted (c d : Chip) : Prop := ∃ e, Noted { c with engs := e } d

theorem EngNoted.trans {a b c : Chip} : EngNoted a b → EngNoted b c → EngNoted a c := by
  rintro ⟨g, v, f, x, rfl⟩ ⟨g', v', f', x', rfl⟩
  exact ⟨g', v', f', x', rfl⟩

theorem engNoted_each {α : Type} {f : α → Chip → Chip} (h : ∀ a c, EngNoted c (f a c)) :
    ∀ (l : List α) (c : Chip), EngNoted c (each l f c)
  | [], c => ⟨c.engs, Noted.refl c⟩
  | a :: t, c => (h a c).trans (engNoted_each h t (f a c))

theorem engNoted_modEng (k : Nat) (g : Engine → Engine) (c : Chip) : EngNoted c (c.modEng k g) := ⟨_, Noted.refl _⟩

theorem Noted.engNoted {c d : Chip} (h : Noted c d) : EngNoted c d := ⟨c.engs, h⟩

theorem engNoted_toEngine (k : Nat) (ev : CtxEv) (c : Chip) : EngNoted c (c.toEngine k ev) := by
  rw [toEngine_eq]
  split
  · exact engNoted_modEng _ _ c
  · exact (noted_noteBreach k ev c).engNoted.trans (engNoted_modEng _ _ _)

theorem engNoted_toEngines (ev : CtxEv) (c : Chip) : EngNoted c (c.toEngines ev) :=
  engNoted_each (fun k c => engNoted_toEngine k ev c) _ c

end Sys2Proof.Machine
end

section
/-! The other instructions of the bay (R119-R123, R179-R182, R241). -/

namespace Sys2Proof.Machine

open Sys2Proof Sys2Proof.Claims

/-! ### What the bay program changes of the bay -/

/-- The core, the events and the wait for them, the timers, the CAN ports and the memory of the bay are nothing that
settling follows. -/
theorem quiet_bay (c : Chip) (t : Thread) (e : W32) (w : Option W32) (x : Tbl W32) (p : Tbl CanPort) (m : Mem) :
    Quiet c { c with bay := { c.bay with core := t, events := e, waitMask := w, timers := x, can := p, mem := m } } :=
  ⟨rfl, rfl, rfl, rfl, rfl, rfl, rfl, fun _ => rfl, fun _ => rfl, fun _ => rfl, fun _ => rfl, rfl, fun _ => rfl, rfl⟩

/-- A bay program that executes may wait for an event and have no SIGNAL that waits. -/
theorem bayRuns_of_runs {c : Chip} (hr : runs .bay c) (wait signal : Bool) : c.bayRuns wait signal = true := by
  simp only [runs, Chip.bayRuns, Bool.and_eq_true, Bool.or_eq_true] at hr ⊢
  tauto

theorem signal_of_runs {c : Chip} (hr : runs .bay c) : c.bay.signal = none := by
  simp only [runs, Chip.bayRuns, Bool.and_eq_true, Bool.or_eq_true, Option.isNone_iff_eq_none] at hr
  simpa using hr.2

/-! ### Events and timers -/

section
variable {rd a b : Reg} {c : Chip} (hr : runs .bay c)
include hr

/-- EVWAIT takes what is latched of its mask, where something is or its poll bit is set. -/
theorem bEvwait_hit {x : W64} (hx : c.bay.core.rx a = x) (h : (c.bay.events &&& x.truncate 32) ≠ 0 ∨ x.getLsbD 32 = true) :
    c.bEvwait rd a = (c.modBay (fun y => { y with
      events := y.events &&& ~~~ (c.bay.events &&& x.truncate 32), waitMask := none })).bPut rd
        (bayRes stOK (c.bay.events &&& x.truncate 32).toNat) := by
  have hmask : ¬ (x.truncate 32 = (0 : W32) ∧ ¬ x.getLsbD 32 = true) := by
    rintro ⟨h0, hp⟩
    rw [h0] at h
    exact h.elim (fun h => h (BitVec.and_zero)) hp
  have hhit : ¬ ((c.bay.events &&& x.truncate 32) = 0 ∧ ¬ x.getLsbD 32 = true) :=
    fun h' => h.elim (fun y => y h'.1) (fun y => h'.2 y)
  unfold Chip.bEvwait
  dsimp only
  rw [hx, if_neg (by simp [bayRuns_of_runs hr]), if_neg hmask, if_neg hhit]

/-- EVWAIT without its poll bit waits where nothing of its mask is latched. -/
theorem bEvwait_wait {x : W64} (hx : c.bay.core.rx a = x) (hm : (x.truncate 32 : W32) ≠ 0)
    (h : (c.bay.events &&& x.truncate 32) = 0) (hp : x.getLsbD 32 = false) :
    c.bEvwait rd a = c.modBay (fun y => { y with waitMask := some (x.truncate 32) }) := by
  unfold Chip.bEvwait
  dsimp only
  rw [hx, if_neg (by simp [bayRuns_of_runs hr]), if_neg (fun h' => hm h'.1), if_pos ⟨h, by rw [hp]; simp⟩]

end

/-- A number below 2^32 is its own low word. -/
theorem w32_toNat (y : W64) : w32 y.toNat = y.truncate 32 := by
  apply BitVec.eq_of_toNat_eq
  simp [w32]

theorem one_shift_getLsbD (n : Nat) (e : W32) (j : Nat) :
    (e &&& ~~~ BitVec.ofNat 32 (2 ^ n)).getLsbD j = (e.getLsbD j && !decide (j = n)) := by
  rw [BitVec.getLsbD_and, BitVec.getLsbD_not, BitVec.getLsbD_ofNat, Nat.testBit_two_pow]
  by_cases hj : j < 32
  · simp [hj, eq_comm]
  · simp [hj, BitVec.getLsbD_of_ge e j (Nat.not_lt.mp hj)]

/-! ### SIGNAL -/

/-- The packet of a SIGNAL (11, FQ5). -/
def signalPkt (x y : W64) : List W32 :=
  mkPkt 0x50 0x0C [BitVec.ofNat 32 (x.toNat % 65536), y.truncate 32, BitVec.ofNat 32 (y.toNat / 2 ^ 32)]

theorem signalPkt_eq (x y : W64) : mkPkt 0x50 0x0C [w32 (fld x 0 16), w32 y.toNat, hi32 y.toNat] = signalPkt x y := by
  rw [w32_toNat]
  rfl

section
variable {rd a b : Reg} {c : Chip} (hr : runs .bay c)
include hr

/-- A SIGNAL waits while an owned FQ5 cannot take its packet. -/
theorem bSignal_waits (ho : (c.fq 5).owner ≠ none)
    (h : 1024 < pktWords (c.fq 5).fill + 4 ∨ (c.fq 5).holdBuf ≠ []) :
    c.bSignal rd a b = c.modBay (fun y => { y with signal := some (rd, signalPkt (c.bay.core.rx a) (c.bay.core.rx b)) }) := by
  unfold Chip.bSignal
  dsimp only
  rw [signalPkt_eq, if_neg (by simp [bayRuns_of_runs hr]), if_pos]
  have hs : (c.fq 5).owner.isSome = true := Option.isSome_iff_ne_none.mpr ho
  rw [hs]
  rcases h with h | h
  · simp [Ferry.fits, signalPkt, mkPkt, Nat.not_le.mpr h]
  · simp [h]

/-- A SIGNAL goes on with its packet where FQ5 takes it or nobody owns it. -/
theorem bSignal_sends (h : (c.fq 5).owner = none ∨ c.fqTakes 5 (signalPkt (c.bay.core.rx a) (c.bay.core.rx b)) = true) :
    c.bSignal rd a b = ((c.modBay (fun y => { y with signal := none })).fqPut 5
      (signalPkt (c.bay.core.rx a) (c.bay.core.rx b))).bPut rd 0 := by
  unfold Chip.bSignal
  dsimp only
  rw [signalPkt_eq, if_neg (by simp [bayRuns_of_runs hr]), if_neg]
  rcases h with h | h
  · simp [h]
  · simp only [Chip.fqTakes, Bool.and_assoc, Bool.and_eq_true] at h
    simp [h]

end

/-- The clauses of O19 about events, timers, SIGNAL and PILOT. -/
theorem bayEventInstructions (rd a b : Reg) (s : State) (hs : Settled s) (hr : runs .bay s.chip) :
    let c := s.chip
    let x := c.bay.core.rx a
    let y := c.bay.core.rx b
    let mask : W32 := x.truncate 32
    let hit := c.bay.events &&& mask
    (hit ≠ 0 → completes (.evwait .bay rd a) s (fun d =>
      bayGoes rd (status 0 hit.toNat) c d ∧ d.bay.events = c.bay.events &&& ~~~ hit ∧
      keepsBut [.bay] c d)) ∧
    (mask ≠ 0 → hit = 0 → x.getLsbD 32 = false → completes (.evwait .bay rd a) s (fun d =>
      d.bay = { c.bay with waitMask := some mask } ∧ keepsBut [.bay] c d)) ∧
    (hit = 0 → x.getLsbD 32 = true → completes (.evwait .bay rd a) s (fun d =>
      bayGoes rd 0 c d ∧ d.bay.events = c.bay.events ∧ keepsBut [.bay] c d)) ∧
    (x.toNat < 16 → 0 < y.toNat → y.toNat < 2 ^ 32 → completes (.tmset .bay rd a b) s (fun d =>
      bayGoes rd 0 c d ∧ Tbl.get 0 d.bay.timers x.toNat = y.truncate 32 ∧ d.bay.events = c.bay.events ∧
      (∀ j, j ≠ x.toNat → Tbl.get 0 d.bay.timers j = Tbl.get 0 c.bay.timers j) ∧ keepsBut [.bay] c d)) ∧
    ((16 ≤ x.toNat ∨ y.toNat = 0 ∨ 2 ^ 32 ≤ y.toNat) →
      answers (.tmset .bay rd a b) s (wrote .bay rd (status 6 0) c)) ∧
    (x.toNat < 16 → completes (.tmsetCancel .bay rd a) s (fun d =>
      bayGoes rd 0 c d ∧ Tbl.get 0 d.bay.timers x.toNat = 0 ∧ d.bay.events.getLsbD x.toNat = false ∧
      (∀ j, j ≠ x.toNat → Tbl.get 0 d.bay.timers j = Tbl.get 0 c.bay.timers j) ∧
      (∀ j, j ≠ x.toNat → d.bay.events.getLsbD j = c.bay.events.getLsbD j) ∧ keepsBut [.bay] c d)) := by
  intro c x y mask hit
  have hkeep := fun b => keepsBut_bay (bs := [.bay]) (c := c) (by decide) b
  refine ⟨fun h => ?_, fun hm h0 hp => ?_, fun h0 hp => ?_, fun hn hy hy' => ?_, fun h => ?_, fun hn => ?_⟩
  · exact completes_quiet rfl (bEvwait_hit hr rfl (.inl h)) hs (quiet_bay c _ _ _ _ _ _) ⟨rfl, rfl, hkeep _⟩
  · exact completes_quiet rfl (bEvwait_wait hr rfl hm h0 hp) hs (quiet_bay c _ _ _ _ _ _) ⟨rfl, hkeep _⟩
  · have h := bEvwait_hit (rd := rd) hr (x := x) rfl (.inr hp)
    rw [show (s.chip.bay.events &&& x.truncate 32) = 0 from h0] at h
    refine completes_quiet rfl h hs (quiet_bay c _ _ _ _ _ _) ⟨rfl, ?_, hkeep _⟩
    exact (congrArg (c.bay.events &&& ·) BitVec.not_zero).trans BitVec.and_allOnes
  · have hok : ¬ (16 ≤ x.toNat ∨ y.toNat = 0 ∨ 0xFFFFFFFF < y.toNat) := by omega
    refine completes_bInstr hs hr rfl (if_neg hok) (quiet_bay c _ _ _ _ _ _)
      ⟨rfl, ?_, rfl, fun j hj => ?_, hkeep _⟩
    · exact (Tbl.get_put (0 : W32) ..).trans ((if_pos rfl).trans (w32_toNat _))
    · exact (Tbl.get_put (0 : W32) ..).trans (if_neg hj)
  · have hbad : 16 ≤ x.toNat ∨ y.toNat = 0 ∨ 0xFFFFFFFF < y.toNat := by omega
    exact answers_bInstr hs hr rfl (if_pos hbad) (quiet_withThread .bay _ _)
  · have hok : ¬ 16 ≤ x.toNat := Nat.not_le.mpr hn
    refine completes_bInstr hs hr rfl (if_neg hok) (quiet_bay c _ _ _ _ _ _)
      ⟨rfl, ?_, ?_, fun j hj => ?_, fun j hj => ?_, hkeep _⟩
    · show Tbl.get (0 : W32) (Tbl.put 0 c.bay.timers x.toNat 0) x.toNat = 0
      rw [Tbl.get_put, if_pos rfl]
    · exact (one_shift_getLsbD _ _ _).trans (by simp [x, c])
    · show Tbl.get (0 : W32) (Tbl.put 0 c.bay.timers x.toNat 0) j = _
      rw [Tbl.get_put, if_neg hj]
    · refine (one_shift_getLsbD _ _ _).trans ?_
      rw [decide_eq_false hj, Bool.not_false, Bool.and_true]

/-! ### The statement's clauses about SIGNAL and PILOT -/

/-- SIGNAL to FQ5: discarded, taken behind the others, or held by the instruction. -/
theorem baySignal (rd a b : Reg) (s : State) (hs : Settled s) (hr : runs .bay s.chip) :
    let c := s.chip
    let q := c.fq 5
    let pkt := signalPkt (c.bay.core.rx a) (c.bay.core.rx b)
    (q.owner = none → completes (.signal .bay rd a b) s (fun d =>
      bayGoes rd 0 c d ∧ d.bay.signal = none ∧ (d.fq 5).fill = q.fill ∧ (d.fq 5).drain = q.drain ∧
      (d.fq 5).holdBuf = q.holdBuf ∧ keepsBut [.bay, .ferry] c d)) ∧
    (q.owner ≠ none → pktWords q.fill + 4 ≤ 1024 → q.holdBuf = [] → q.testing = false →
      completes (.signal .bay rd a b) s (fun d =>
        bayGoes rd 0 c d ∧ d.bay.signal = none ∧ d.fq 5 = q.push pkt ∧
        (∀ j, j ≠ 5 → d.fq j = c.fq j) ∧ keepsBut [.bay, .ferry, .hint] c d)) ∧
    (q.owner ≠ none → (1024 < pktWords q.fill + 4 ∨ q.holdBuf ≠ []) → completes (.signal .bay rd a b) s (fun d =>
      d.bay = { c.bay with signal := some (rd, pkt) } ∧ keepsBut [.bay] c d)) := by
  intro c q pkt
  let x := c.modBay (fun y => { y with signal := none })
  have hx : x = c := by
    show { c with bay := { c.bay with signal := none } } = c
    rw [← signal_of_runs hr]
  have hlen : 2 ≤ pkt.length := by simp [pkt, signalPkt, mkPkt]
  have goes {d : Chip} (h : c.bSignal rd a b = ((x.fqPut 5 pkt).bPut rd 0)) (hp : c.fqPut 5 pkt = d) (hq : Quiet c d)
      {P : Chip → Prop} (hP : P (d.bPut rd 0)) : completes (.signal .bay rd a b) s P := by
    rw [hx, hp] at h
    exact completes_quiet (f := Chip.onlyS .bay (Chip.bSignal rd a b)) rfl h hs
      (hq.trans ((calm_setCore _ d).quiet (fun _ => rfl))) hP
  have hsig : c.bay.signal = none := signal_of_runs hr
  refine ⟨fun ho => ?_, fun ho hf hh ht => ?_, fun ho h => ?_⟩
  · have h5 : ((c.modFq 5 (Ferry.dropped 1)).bPut rd 0).fq 5 = q.dropped 1 := (modFq_fq ..).trans (if_pos rfl)
    exact goes (bSignal_sends hr (.inl ho)) (fqPut_unowned hlen ho) (quiet_modFq rfl rfl rfl)
      ⟨rfl, hsig, by rw [h5]; rfl, by rw [h5]; rfl, by rw [h5]; rfl,
        keepsBut_trans (keepsBut_ferry (by decide) _) (keepsBut_bay (by decide) _)⟩
  · have htakes : c.fqTakes 5 pkt = true := by
      simp [Chip.fqTakes, Ferry.fits, Option.isSome_iff_ne_none, show (c.fq 5).owner ≠ none from ho,
        show (c.fq 5).holdBuf = [] from hh, show (c.fq 5).testing = false from ht,
        show pktWords (c.fq 5).fill + 4 ≤ 1024 from hf, pkt, signalPkt, mkPkt]
    have hq : Quiet c ((c.modFq 5 (Ferry.push pkt)).hint 5) :=
      (quiet_modFq (push_owner _ _) (push_stalled _ _) (Ferry.push_holdBuf _ _)).trans (quiet_hint _ _)
    refine goes (bSignal_sends hr (.inr htakes)) (fqPut_taken hlen htakes) hq
      ⟨rfl, hsig, ?_, fun j hj => ?_, ?_⟩
    · exact (modFq_fq ..).trans (if_pos rfl)
    · exact (modFq_fq ..).trans (if_neg hj)
    · exact keepsBut_trans (keepsBut_trans (keepsBut_ferry (by decide) _) (keepsBut_hint (by decide) _))
        (keepsBut_bay (by decide) _)
  · refine completes_calm (f := Chip.onlyS .bay (Chip.bSignal rd a b)) rfl (bSignal_waits hr ho h) hs
      ⟨rfl, rfl, rfl, rfl, rfl, rfl, rfl, fun _ => rfl, fun _ => rfl, fun _ => rfl, fun _ => rfl, rfl, ?_⟩
      (fun f hf => ⟨rfl, ?_⟩)
    · have hn : (c.fq 5).owner.isNone = false := by
        rw [Option.isNone_eq_false_iff]
        exact Option.isSome_iff_ne_none.mpr ho
      show (_ && (c.fq 5).owner.isNone) = (_ && (c.fq 5).owner.isNone)
      rw [hn, Bool.and_false, Bool.and_false]
    · rw [hf.same ?_]
      · exact keepsBut_bay (by decide) _
      · intro j h
        simp only [Chip.holdOver, Chip.holds, Bool.and_eq_true, Bool.not_eq_true', Bool.or_eq_false_iff] at h ⊢
        obtain ⟨h1, ⟨h2, h3⟩, h4⟩ := h
        refine ⟨h1, ⟨h2, h3⟩, ?_⟩
        show (_ && c.bay.signal.isSome) = false
        rw [hsig]
        simp

/-- PILOT reads or sets the pilot generator where it is enabled. -/
theorem bayPilot (rd a b : Reg) (s : State) (hs : Settled s) (hr : runs .bay s.chip) (hen : s.chip.pilotEn = true) :
    let c := s.chip
    let x := c.bay.core.rx a
    let y := c.bay.core.rx b
    let sets := fun (v : W16) => completes (.pilot .bay rd a b) s (fun d => bayGoes rd 0 c d ∧ d.bay.pilotReq = v ∧
      d.bay.timers = c.bay.timers ∧ keepsBut [.bay, .evt, .ferry, .hint] c d)
    (x = 0 → answers (.pilot .bay rd a b) s (wrote .bay rd (status 0 c.pilotWord.toNat) c)) ∧
    (x = 1 → (y = 50 ∨ (80 ≤ y.toNat ∧ y.toNat ≤ 970)) → sets (y.truncate 16)) ∧ (x = 2 → sets 0) ∧
    (x = 3 → sets 0xFFFF) := by
  intro c x y sets
  have hen' : ¬ (!s.chip.pilotEn) = true := by rw [hen]; decide
  have set {v : W16} (h : c.bPilot rd a b = (c.modBay (fun b => { b with pilotReq := v })).bPut rd 0) : sets v := by
    refine completes_told (f := Chip.onlyS .bay (Chip.bPilot rd a b)) rfl h hs
      ⟨⟨rfl, rfl, rfl, rfl, fun _ => id, fun _ => id, fun _ => id, id⟩, rfl⟩ (fun _ => id) (fun m e d' hn => ?_)
    refine ⟨?_, ?_, ?_, ?_⟩
    · rw [bayGoes, hn.bay]
      rfl
    · rw [hn.bay]
      rfl
    · rw [hn.bay]
      rfl
    · exact keepsBut_trans (keepsBut_bay (c := c) (by decide) _) (hn.keepsBut (by decide))
  have op {n : Nat} (h : x = BitVec.ofNat 64 n) : (c.bay.core.rx a).toNat = n % 2 ^ 64 := by
    rw [show c.bay.core.rx a = BitVec.ofNat 64 n from h, BitVec.toNat_ofNat]
  refine ⟨fun h => ?_, fun h hy => set ?_, fun h => set ?_, fun h => set ?_⟩
  · exact answers_bInstr hs hr rfl ((if_neg hen').trans (if_pos (op h))) (quiet_withThread .bay _ _)
  · have h1 : (c.bay.core.rx a).toNat = 1 := op h
    have hy' : (c.bay.core.rx b).toNat = 50 ∨ 80 ≤ (c.bay.core.rx b).toNat ∧ (c.bay.core.rx b).toNat ≤ 970 :=
      hy.imp (fun h => congrArg BitVec.toNat h) id
    exact bInstr_ok hr ((if_neg hen').trans ((if_neg (by omega)).trans (if_pos ⟨h1, hy'⟩)))
  · have h2 : (c.bay.core.rx a).toNat = 2 := op h
    exact bInstr_ok hr ((if_neg hen').trans ((if_neg (by omega)).trans ((if_neg (by omega)).trans (if_pos h2))))
  · have h3 : (c.bay.core.rx a).toNat = 3 := op h
    exact bInstr_ok hr ((if_neg hen').trans ((if_neg (by omega)).trans ((if_neg (by omega)).trans
      ((if_neg (by omega)).trans (if_pos h3)))))

/-! ### CAN frames -/

theorem modCan_canPort (p : Nat) (g : CanPort → CanPort) (c : Chip) (i : Nat) :
    (c.modCan p g).canPort i = if i = p then g (c.canPort p) else c.canPort i := by
  show Tbl.get ({} : CanPort) (Tbl.put {} _ _ _) _ = _
  rw [Tbl.get_put]
  rfl

/-- SLIPTX puts its frame behind the others of its port. -/
theorem completes_sliptx {rd a b f : Reg} {s : State} (hs : Settled s) (hr : runs .bay s.chip) :
    let c := s.chip
    let x := c.bay.core.rx a
    let y := (c.bay.core.rx b).toNat
    let n := (c.bay.core.rx f).toNat
    let p := x.toNat / 2 ^ 30 % 2
    let id : W32 := BitVec.ofNat 32 (x.toNat % 2 ^ 29)
    canLen n = true → 0 < n → id.toNat / 2 ^ 18 % 256 ≠ 0x3F → c.canEn p = true → y + n ≤ 0x80000 →
      c.pair.role ≠ 2 → (c.canPort p).tx.length < 8 →
      completes (.sliptx .bay rd a b f) s (fun d => bayGoes rd 0 c d ∧
        (d.canPort p).tx = (c.canPort p).tx ++ [wordBytes id ++ Mem.rdN c.bay.mem y n] ∧
        (d.canPort p).rx = (c.canPort p).rx ∧ (∀ i, i ≠ p → d.canPort i = c.canPort i) ∧
        d.bay.mem = c.bay.mem ∧ keepsBut [.bay] c d) := by
  intro c x y n p id hlen hn hid hen hin hrole htx
  have hp : fld (c.bay.core.rx a) 30 1 = p := by
    rw [fld, Nat.shiftRight_eq_div_pow]
    rfl
  have hid' : ¬ fld id 18 8 = 0x3F := by
    rw [fld, Nat.shiftRight_eq_div_pow]
    exact hid
  have e1 : ¬ n = 0 := Nat.pos_iff_ne_zero.mp hn
  have e2 : ¬ (!canLen n) = true := by simp [hlen]
  have e4 : ¬ (!c.canEn p) = true := by simp [hen]
  have e5 : ¬ (!bayIn y n) = true := by simp [bayIn, hin]
  have e6 : ¬ c.isStandby = true := by
    have : ¬ c.pair.role = 2#2 := hrole
    simpa [Chip.isStandby] using this
  have e7 : ¬ 8 ≤ (c.canPort p).tx.length := Nat.not_le.mpr htx
  rw [← hp] at e4 e7
  have hport := fun i => modCan_canPort p (fun z => { z with tx := z.tx ++ [wordBytes id ++ Mem.rdN c.bay.mem y n] }) c i
  refine completes_bInstr hs hr rfl ((if_neg e1).trans ((if_neg e2).trans ((if_neg hid').trans ((if_neg e4).trans
    ((if_neg e5).trans ((if_neg e6).trans (if_neg e7)))))))  (quiet_bay c _ _ _ _ _ _)
      ⟨rfl, ?_, ?_, fun i hi => ?_, rfl, keepsBut_bay (by decide) _⟩
  · rw [hp]
    refine (congrArg CanPort.tx (hport p)).trans ?_
    rw [if_pos rfl]
  · rw [hp]
    refine (congrArg CanPort.rx (hport p)).trans ?_
    rw [if_pos rfl]
  · rw [hp]
    exact (hport i).trans (if_neg hi)

/-- A write of bytes in two parts. -/
theorem Mem.wrN_append : ∀ (l l' : List W8) (m : Mem) (a : Nat),
    Mem.wrN m a (l ++ l') = Mem.wrN (Mem.wrN m a l) (a + l.length) l'
  | [], _, _, _ => rfl
  | v :: t, l', m, a => by
    rw [List.cons_append, Mem.wrN, Mem.wrN_append t, Mem.wrN, List.length_cons, Nat.add_right_comm, Nat.add_assoc]

/-- SLIPRX takes the oldest frame of its port into memory. -/
theorem completes_sliprx {rd a b : Reg} {s : State} (hs : Settled s) (hr : runs .bay s.chip) :
    let c := s.chip
    let x := c.bay.core.rx a
    let y := (c.bay.core.rx b).toNat
    ∀ fr rest, (c.canPort (x.toNat % 2)).rx = fr :: rest → 8 ≤ fr.length → y + fr.length ≤ 0x80000 →
      completes (.sliprx .bay rd a b) s (fun d => bayGoes rd (status 0 (fr.length - 8)) c d ∧
        (d.canPort (x.toNat % 2)).rx = rest ∧ Mem.rdN d.bay.mem (y + 8) (fr.length - 8) = fr.drop 8 ∧
        (∀ j, j < y ∨ y + fr.length ≤ j → Mem.rd d.bay.mem j = Mem.rd c.bay.mem j) ∧
        keepsBut [.bay] c d) := by
  intro c x y fr rest hrx h8 hin
  have hrx' : (c.canPort (fld (c.bay.core.rx a) 0 1)).rx = fr :: rest := hrx
  let hd := Config.slipHeader (w32 (leAt fr 0 4)) (fr.length - 8) (w32 (leAt fr 4 4))
  let m := Mem.wrN c.bay.mem y (leBytes 8 hd.toNat ++ fr.drop 8)
  have hf : c.bSliprx rd a b = ((c.modCan (x.toNat % 2) (fun z => { z with rx := rest })).modBay (fun b =>
      { b with mem := m })).bPut rd (bayRes stOK (fr.length - 8)) := by
    refine bInstr_ok hr ?_
    have e : ¬ (!bayIn y (8 + (fr.length - 8))) = true := by
      simp only [bayIn, Nat.add_sub_cancel' h8, decide_eq_true hin]
      decide
    simp only [hrx']
    exact if_neg e
  have hport := modCan_canPort (x.toNat % 2) (fun z => { z with rx := rest }) c (x.toNat % 2)
  refine completes_quiet (f := Chip.onlyS .bay (Chip.bSliprx rd a b)) rfl hf hs (quiet_bay c _ _ _ _ _ _)
    ⟨rfl, ?_, ?_, fun j hj => ?_, keepsBut_bay (by decide) _⟩
  · refine (congrArg CanPort.rx hport).trans ?_
    rw [if_pos rfl]
  · show Mem.rdN (Mem.wrN c.bay.mem y _) _ _ = _
    rw [Mem.wrN_append, length_leBytes, ← List.length_drop]
    exact Mem.rdN_wrN_same _ _ _
  · have hlen : (leBytes 8 hd.toNat ++ fr.drop 8).length = fr.length := by
      rw [List.length_append, length_leBytes, List.length_drop]
      omega
    refine Mem.rd_wrN_other _ _ _ _ ?_
    rw [hlen]
    exact hj

/-! ### Sessions -/

theorem putSess_session (m : Nat) (x : Session) (c : Chip) (i : Nat) :
    (c.modBill (Bill.putSess m x)).session i = if i = m then x else c.session i := by
  show Tbl.get ({} : Session) (Tbl.put {} _ _ _) _ = _
  rw [Tbl.get_put]
  rfl

/-- Sessions are nothing that settling follows. -/
theorem calm_sessions (m : Nat) (x : Session) (n : Bill → W32) (c : Chip) :
    Calm c (c.modBill (fun b => { b.putSess m x with sessNext := n b })) :=
  ⟨rfl, rfl, rfl, rfl, rfl, rfl, rfl, fun _ => rfl, fun _ => rfl, fun _ => rfl, fun _ => rfl, rfl, rfl⟩

/-- The billing block is as it was where the engines and what an event reaches differ. -/
theorem EngNoted.bill {c d : Chip} (h : EngNoted c d) : d.bill = c.bill := by
  obtain ⟨e, h⟩ := h
  exact h.bill

theorem EngNoted.bay {c d : Chip} (h : EngNoted c d) : d.bay = c.bay := by
  obtain ⟨e, h⟩ := h
  exact h.bay

theorem bPut_core (rd : Reg) (v : W64) (c : Chip) :
    (c.bPut rd v).bay.core = (c.bay.core.wx rd v).advance true := rfl

theorem bPut_bill (rd : Reg) (v : W64) (c : Chip) : (c.bPut rd v).bill = c.bill := rfl

/-- SESSCLOSE asks for the close of an open session at the next stamp. -/
theorem completes_sessclose {rd a b : Reg} {s : State} (hs : Settled s) (hr : runs .bay s.chip) :
    let c := s.chip
    let x := c.bay.core.rx a
    let y := (c.bay.core.rx b).toNat
    ∀ m, 0 < y % 256 → y % 256 < 16 → c.sessMp (x.truncate 32) = some m → x.toNat < 2 ^ 32 →
      (c.session m).no ≠ 0 → (c.session m).closeSix = none → c.mpRuns m = true →
      completes (.sessclose .bay rd a b) s (fun d => bayGoes rd 0 c d ∧
        d.session m =
          { c.session m with closeSix := some (c.stampAfter 1), reason := BitVec.ofNat 8 y, eng := c.mpEngine m } ∧
        (∀ i, i ≠ m → d.session i = c.session i) ∧ d.bill.qty = c.bill.qty) := by
  intro c x y m hy0 hy hmp hx hno hclose hrun
  let reason : W8 := (c.bay.core.rx b).truncate 8
  have hreason : reason.toNat = y % 256 := by
    show ((c.bay.core.rx b).truncate 8).toNat = _
    rw [BitVec.truncate_eq_setWidth, BitVec.toNat_setWidth]
  let z : Session := { c.session m with closeSix := some (c.stampAfter 1), reason := reason, eng := c.mpEngine m }
  let c' := c.modBill (Bill.putSess m z)
  have hask : ∃ ev, c.sessionAsk m reason (c.stampAfter 1) = c'.toEngines ev := by
    have hmet : (c.engRuns (c.mpEngine m) || c.engLoads (c.mpEngine m)) = true := by
      rw [show c.engRuns (c.mpEngine m) = true from hrun, Bool.true_or]
    unfold Chip.sessionAsk
    dsimp only
    rw [if_neg (by simp [show ¬ (c.session m).no = 0#32 from hno, hclose]), hmet]
    exact ⟨_, if_pos rfl⟩
  obtain ⟨ev, hask⟩ := hask
  have hset : c.sessClose (x.truncate 32) reason = (c'.toEngines ev, stOK) := by
    have hok : ¬ (reason = 0 ∨ 0x10 ≤ reason.toNat) := by
      rw [hreason]
      rintro (h | h)
      · rw [h] at hreason
        simp at hreason
        omega
      · omega
    unfold Chip.sessClose
    rw [if_neg hok, hmp]
    exact congrArg (fun d => (d, stOK)) hask
  have hf : c.bSessclose rd a b = (c'.toEngines ev).bPut rd (bayRes stOK 0) := by
    refine bInstr_ok hr ?_
    have hno' : (if x.toNat < 2 ^ 32 then w32 x.toNat else 0) = x.truncate 32 := by
      rw [if_pos hx, w32_toNat]
    show Except.ok (Chip.bRet rd (c.sessClose (if x.toNat < 2 ^ 32 then w32 x.toNat else 0) reason)) = _
    rw [hno', hset, Chip.bRet]
  have he : EngNoted c' (c'.toEngines ev) := engNoted_toEngines ev c'
  have hcalm : Calm c' (c'.toEngines ev) := calm_toEngines ev c'
  clear hset hask
  generalize c'.toEngines ev = d at hf he hcalm
  have hsess : ∀ i, (d.bPut rd (bayRes stOK 0)).session i = if i = m then z else c.session i := by
    intro i
    show Tbl.get ({} : Session) d.bill.sess i = _
    rw [he.bill]
    exact putSess_session m z c i
  refine completes_calm (f := Chip.onlyS .bay (Chip.bSessclose rd a b)) rfl hf hs
    (((calm_sessions m z Bill.sessNext c).trans hcalm).trans (calm_setCore _ _)) (fun f _ => ⟨?_, ?_, fun i hi => ?_, ?_⟩)
  · exact (bPut_core rd (bayRes stOK 0) d).trans (by rw [he.bay]; rfl)
  · refine (hsess m).trans ((if_pos rfl).trans ?_)
    have hr8 : reason = BitVec.ofNat 8 y := by
      apply BitVec.eq_of_toNat_eq
      rw [hreason, BitVec.toNat_ofNat]
    rw [← hr8]
  · exact (hsess i).trans (if_neg hi)
  · exact (congrArg Bill.qty ((bPut_bill rd (bayRes stOK 0) d).trans he.bill)).trans rfl

/-- SESSOPEN opens a session of a well-formed descriptor with the next number. -/
theorem completes_sessopen {rd a b : Reg} {s : State} (hs : Settled s) (hr : runs .bay s.chip) :
    let c := s.chip
    let x := c.bay.core.rx a
    let y := (c.bay.core.rx b).toNat
    let desc := Mem.rdN c.bay.mem y 64
    y + 64 ≤ 0x80000 → c.postNo ≠ 0 → c.sys.starting = false → c.sys.qcause = 0 → c.retired = false →
      c.power.onAux = false → x.toNat < 64 → c.mpEn x.toNat = true → (desc.getD 0x21 0).toNat ≤ 16 →
      (desc.getD 0x22 0).toNat < 128 → (∀ v ∈ slice desc 0x23 5, v = 0) → (∀ v ∈ slice desc 0x30 16, v = 0) →
      (c.session x.toNat).no = 0 → c.rdy rBILL = true → c.mpRuns x.toNat = true → c.mpLoads x.toNat = false →
      (∀ e ∈ c.cfg.pend, e.kind ≠ 3) → completes (.sessopen .bay rd a b) s (fun d =>
        bayGoes rd (status 0 c.bill.sessNext.toNat) c d ∧
        d.session x.toNat = { no := c.bill.sessNext, desc := desc, openSix := c.stampAfter 1 } ∧
        (∀ i, i ≠ x.toNat → d.session i = c.session i) ∧ d.bill.sessNext = nextSess c.bill.sessNext ∧
        d.bill.qty = c.bill.qty) := by
  intro c x y desc hin hpost hstart hq hret haux hm hmp h21 h22 h23 h30 hno hrdy hruns hloads hkind
  let z : Session := { no := c.bill.sessNext, desc := desc, openSix := c.stampAfter 1 }
  let c' := c.modBill (fun b => { b.putSess x.toNat z with sessNext := nextSess c.bill.sessNext })
  let ev : CtxEv := { stamp := c.stampAfter 1, src := 3, change := .sessOpen x.toNat c.bill.sessNext z.fixed }
  have hbad : c.descBad x.toNat desc = false := by
    have e1 : (slice desc 0x23 5).any (· != 0) = false := by simpa using h23
    have e2 : (slice desc 0x30 16).any (· != 0) = false := by simpa using h30
    simp only [Chip.descBad, e1, e2, decide_eq_false (Nat.not_lt.mpr h21), decide_eq_false (Nat.not_le.mpr h22)]
    rfl
  have hcalm : Calm c' (c'.toEngines ev) := calm_toEngines ev c'
  have he : EngNoted c' (c'.toEngines ev) := engNoted_toEngines ev c'
  have hcfg : (c'.toEngines ev).cfg.pend = c.cfg.pend := hcalm.pend
  have hset : c.sessOpen x.toNat desc = (c'.toEngines ev, stOK, c.bill.sessNext) := by
    have hredef : (c'.toEngines ev).redefined x.toNat = none := by
      have : (c'.toEngines ev).cfg.pend.find? (fun p => p.kind == 3 && p.stamp.isSome && !p.applied
          && p.words.any (fun w => decide (aMp x.toNat ≤ w.1) && decide (w.1 < aMp x.toNat + 0x100))) = none := by
        rw [List.find?_eq_none, hcfg]
        intro p hp
        simp [hkind p hp]
      unfold Chip.redefined
      rw [this]
      rfl
    have e1 : ¬ (c.sys.starting || c.sys.qcause != 0 || c.retired || c.power.onAux) = true := by
      simp [hstart, hq, hret, haux]
    have e2 : ¬ (64 ≤ x.toNat ∨ ¬ c.mpEn x.toNat = true ∨ c.descBad x.toNat desc = true) := by
      simp [hbad, hmp, hm]
    have e3 : ¬ (!c.rdy rBILL || c.mpLoads x.toNat) = true := by simp [hrdy, hloads]
    have e4 : ¬ (!c.mpRuns x.toNat) = true := by simp [hruns]
    unfold Chip.sessOpen
    dsimp only
    rw [if_neg hpost, if_neg e1, if_neg e2, if_neg (not_not.mpr hno), if_neg e3, if_neg e4]
    dsimp only
    rw [hredef]
  have hf : c.bSessopen rd a b = (c'.toEngines ev).bPut rd (bayRes stOK c.bill.sessNext.toNat) := by
    refine bInstr_ok hr ?_
    have e : ¬ (!bayIn y 64) = true := by simp [bayIn, hin]
    refine (if_neg e).trans ?_
    show Except.ok (Chip.bPut rd (bayRes (c.sessOpen x.toNat desc).2.1 (if (c.sessOpen x.toNat desc).2.1 = stOK then
      (c.sessOpen x.toNat desc).2.2.toNat else 0)) (c.sessOpen x.toNat desc).1) = _
    rw [hset, if_pos rfl]
  clear hset hcfg
  generalize c'.toEngines ev = d at hf he hcalm
  have hsess : ∀ i, (d.bPut rd (bayRes stOK c.bill.sessNext.toNat)).session i =
      if i = x.toNat then z else c.session i := by
    intro i
    show Tbl.get ({} : Session) d.bill.sess i = _
    rw [he.bill]
    exact putSess_session _ z c i
  have hbill := (bPut_bill rd (bayRes stOK c.bill.sessNext.toNat) d).trans he.bill
  refine completes_calm (f := Chip.onlyS .bay (Chip.bSessopen rd a b)) rfl hf hs
    (((calm_sessions x.toNat z (fun _ => nextSess c.bill.sessNext) c).trans hcalm).trans (calm_setCore _ _))
    (fun f _ => ⟨?_, ?_, fun i hi => ?_, ?_, ?_⟩)
  · exact (bPut_core rd (bayRes stOK c.bill.sessNext.toNat) d).trans (by rw [he.bay]; rfl)
  · exact (hsess _).trans (if_pos rfl)
  · exact (hsess i).trans (if_neg hi)
  · exact (congrArg Bill.sessNext hbill).trans rfl
  · exact (congrArg Bill.qty hbill).trans rfl

/-- Settles O19: each instruction of the bay by its own rule. -/
theorem bayInstructions : Obligations.BayInstructions := by
  unfold Obligations.BayInstructions
  refine ⟨fun rd a b s hs hr => ?_, fun rd a b f s hs hr => ⟨completes_sliptx hs hr, completes_sliprx hs hr, ?_,
    completes_sessopen hs hr, completes_sessclose hs hr⟩⟩
  · intro c x y mask hit q pkt sets
    obtain ⟨h1, h2, h3, h4, h5, h6⟩ := bayEventInstructions rd a b s hs hr
    obtain ⟨hunowned, htaken, hwaits⟩ := baySignal rd a b s hs hr
    refine ⟨h1, h2, h3, h4, h5, h6, hunowned, fun ho hf hh ht hfill hdrain hcur => ?_, fun ho hf hh ht hbusy => ?_, hwaits,
      bayPilot rd a b s hs hr⟩
    · obtain ⟨t, ht, hp, hgo, hsig, h5, hrest⟩ := htaken ho hf hh ht
      have hpush : q.push pkt = { q with drain := [pkt], fill := [], parity := q.parity && !q.leaving, leaving := false } := by
        simp [Ferry.push, Ferry.swap, hfill, hdrain, hcur]
      refine ⟨t, ht, hp, hgo, hsig, ?_, ?_, hrest⟩
      · exact (congrArg Ferry.drain (h5.trans hpush)).trans rfl
      · exact (congrArg Ferry.fill (h5.trans hpush)).trans rfl
    · obtain ⟨t, ht, hp, hgo, hsig, h5, hrest⟩ := htaken ho hf hh ht
      have hpush : q.push pkt = { q with fill := q.fill ++ [pkt] } := by
        have : (q.drain.isEmpty && q.cur.isEmpty) = false := by
          rcases hbusy.2 with h | h <;> simp [h]
        simp [Ferry.push, Ferry.swap, this]
      refine ⟨t, ht, hp, hgo, hsig, ?_, ?_, hrest⟩
      · exact (congrArg Ferry.fill (h5.trans hpush)).trans rfl
      · exact (congrArg Ferry.drain (h5.trans hpush)).trans rfl
  · intro hrx
    refine answers_bInstr hs hr rfl ?_ (quiet_withThread .bay _ _)
    have hrx' : (s.chip.canPort (fld (s.chip.bay.core.rx a) 0 1)).rx = [] := hrx
    simp only [hrx']
    rfl

end Sys2Proof.Machine
end

section
/-! The register window (R5, R6, R26-R29, R33, R43): frames on J6 and writes of registers. -/

namespace Sys2Proof.Machine

open Sys2Proof Sys2Proof.Claims

/-! ### Writes that reach their register -/

section
variable {m : Master5} {a : Nat} {v : W32} {c : Chip} (h : writes m a v c)
include h

/-- A write that reaches its register does what the register's write does. -/
theorem writeWord_writes : c.writeWord m a v = c.regWrite m a v := by
  obtain ⟨-, ha, hch, hdead, hmay⟩ := h
  simp [Chip.writeWord, ha, hch, hdead, hmay]

theorem put1_writes : c.put1 m a v = (c.regWrite m a v).1 := by
  rw [Chip.put1, if_pos h.1, writeWord_writes h]

end

/-- The registers outside the configuration tables, the landings, the queues, the host's drives and the tariff. -/
def plainRegisters : List Nat :=
  [0x60, 0x64, 0x20000, 0x20004, 0x20008, 0x2000C, 0x20010, 0x20014, 0x20018, 0x30000, 0x3000C]

set_option Elab.async false in
/-- Such a register takes its word by itself. -/
theorem regWrite_plain {a : Nat} (ha : a ∈ plainRegisters) (m : Master5) (v : W32) (c : Chip) :
    c.regWrite m a v = (c.plainWrite m a v, stOK) := by
  have h : ∀ a ∈ plainRegisters, cmtFind a = none ∧ (∀ n, foreignLand n a = false) ∧ ixOf a 0x10000 0x20 16 = none ∧
      ixOf a 0xA0010 0x20 8 = none ∧ ixOf a 0xD0200 4 3 = none ∧ ¬ a = 0xD0020 ∧ ¬ (0x78000 ≤ a ∧ a < 0x7B000) := by
    have hf : ∀ a ∈ plainRegisters, cmtFind a = none ∧ (decide (0x10000 ≤ a) && decide (a < 0x10200)) = false ∧
        ixOf a 0x10000 0x20 16 = none ∧ ixOf a 0xA0010 0x20 8 = none ∧ ixOf a 0xD0200 4 3 = none ∧ ¬ a = 0xD0020 ∧
        ¬ (0x78000 ≤ a ∧ a < 0x7B000) := by decide +kernel
    intro a ha
    obtain ⟨h1, h2, h3⟩ := hf a ha
    exact ⟨h1, fun n => by rw [foreignLand, h2, Bool.false_and], h3⟩
  obtain ⟨h1, h2, h3, h4, h5, h6, h7⟩ := h a ha
  unfold Chip.regWrite
  simp only [h1, h2, h3, h4, h5, Bool.false_eq_true, if_false, if_neg h6, if_neg h7]

/-- The masters are nothing that settling follows. -/
theorem quiet_masters (x : Tbl Master) (c : Chip) : Quiet c { c with masters := x } := quiet_far c _ x _ _ _ _ _ _ _

/-! ### Frames on J6 -/

/-- The bytes of an address on J6, most significant first. -/
theorem addrBytes_eq (a : BitVec 24) :
    addrBytes a = [a.extractLsb' 16 8, a.extractLsb' 8 8, a.extractLsb' 0 8] := by
  have h (i : Nat) : BitVec.ofNat 8 (a.toNat / 2 ^ i) = a.extractLsb' i 8 := by
    apply BitVec.eq_of_toNat_eq
    rw [BitVec.toNat_ofNat, BitVec.extractLsb'_toNat, Nat.shiftRight_eq_div_pow]
  have h0 : BitVec.ofNat 8 a.toNat = a.extractLsb' 0 8 := by simpa using h 0
  have h16 : a.toNat / 256 / 256 = a.toNat / 2 ^ 16 := Nat.div_div_eq_div_mul _ _ _
  show [BitVec.ofNat 8 (a.toNat / 256 / 256), BitVec.ofNat 8 (a.toNat / 256), BitVec.ofNat 8 a.toNat] = _
  rw [h16, h 16, show a.toNat / 256 = a.toNat / 2 ^ 8 from rfl, h 8, h0]

theorem readReply_eq (a : BitVec 24) (d : W32) (st : W8) : readReply a d st =
    { kind := .answered, data := d, status := st, crc := crc8 (checked a [d] st) } := by
  simp [readReply, checked, addrBytes_eq]

theorem writeReply_eq (a : BitVec 24) (st : W8) : writeReply a st =
    { kind := .answered, status := st, crc := crc8 (checked a [] st) } := by
  simp [writeReply, checked, addrBytes_eq]

/-- Settles O20: what each frame is answered and what it changes. -/
theorem hostPortFrames : Obligations.HostPortFrames := by
  unfold Obligations.HostPortFrames
  intro op crc a v ok s hs c r good
  have host {f : Chip → Chip} {i : Instr} {P : Chip → Prop} {x : HostPort} (hi : exec i s = run f s)
      (hf : f c = { c with host := x }) (hP : P { c with host := x }) : completes i s P :=
    completes_quiet hi hf hs (quiet_far c x _ _ _ _ _ _ _ _) hP
  have hkeep := fun x => keepsBut_host (bs := [.host]) (c := c) (by decide) x
  refine ⟨fun hh => ?_, fun hoff => ?_, ?_⟩
  · have hh' : ¬ (!c.hears 0) = true := by simp [hh]
    refine ⟨?_, fun ha => ?_, fun ha hcrc => ?_, fun hw ha => ?_, fun h1 h2 => ?_, ?_⟩
    · have hf : c.frame 0x3C a v crc = r.1.answer (readReply a r.2.1 r.2.2) := (if_neg hh').trans (if_pos rfl)
      refine completes_settle rfl hf ?_
      rw [settle_host]
      exact readReply_eq a r.2.1 r.2.2
    · have hf : c.frame 0xC3 a v crc = c.answer (writeReply a stRANGE) :=
        (if_neg hh').trans ((if_neg (by decide)).trans ((if_pos rfl).trans (if_pos ha)))
      exact host rfl hf ⟨rfl, hkeep _⟩
    · have hf : c.frame 0xC3 a v crc = c.answer (writeReply a stCRC) :=
        (if_neg hh').trans ((if_neg (by decide)).trans ((if_pos rfl).trans ((if_neg (not_not.mpr ha)).trans (if_pos hcrc))))
      exact host rfl hf ⟨writeReply_eq a stCRC, hkeep _⟩
    · subst ha
      have hword : c.writeWord 0 0x20000 v = (c.modMaster 0 (fun x => { x with arg0 := v }), stOK) := by
        rw [writeWord_writes hw, regWrite_plain (by decide)]
        rfl
      have hf : c.frame 0xC3 0x20000 v good =
          (c.modMaster 0 (fun x => { x with arg0 := v })).answer (writeReply 0x20000 stOK) := by
        refine (if_neg hh').trans ((if_neg (by decide)).trans ((if_pos rfl).trans ((if_neg (by decide)).trans
          ((if_neg (not_not.mpr rfl)).trans ?_))))
        exact congrArg (fun r : Chip × W8 => r.1.answer (writeReply 0x20000 r.2)) hword
      refine completes_quiet rfl hf hs (quiet_far c _ _ _ _ _ _ _ _ _) ⟨?_, ?_, ?_⟩
      · exact writeReply_eq 0x20000 stOK
      · exact (modMaster_master c 0 (fun x => { x with arg0 := v }) 0).trans (if_pos rfl)
      · exact keepsBut_trans (keepsBut_masters (by decide) _) (keepsBut_host (by decide) _)
    · have hf : c.frame op a v crc = c.answer { kind := .released } :=
        (if_neg hh').trans ((if_neg h1).trans (if_neg h2))
      exact host rfl hf ⟨rfl, hkeep _⟩
    · exact host (f := fun c => if c.hears 0 then c.answer {} else c) rfl (if_pos hh) ⟨rfl, hkeep _⟩
  · exact host (f := fun c => if c.power.off then c else c.modHost (fun h => { h with enabled := true })) rfl
      (if_neg (by simp [hoff])) ⟨rfl, hkeep _⟩
  · exact host (f := Chip.modHost (fun h => { h with vioOk := ok })) rfl rfl ⟨rfl, rfl, hkeep _⟩

/-! ### Writes of registers -/

/-- A bit of the mask half of a word. -/
theorem maskHalf_getLsbD (v : W32) {i : Nat} (hi : i < 11) :
    (BitVec.ofNat 11 (fld v 16 11)).getLsbD i = v.getLsbD (16 + i) := by
  rw [BitVec.getLsbD_ofNat, fld, Nat.testBit_mod_two_pow, Nat.testBit_shiftRight, decide_eq_true hi, Bool.true_and,
    Bool.true_and]
  rfl

/-- The hint bits, their enables and the refusals are nothing that settling follows. -/
theorem quiet_window (h e : BitVec 11) (n : W32) (a : W32) (c : Chip) :
    Quiet c { c with sys := { c.sys with hintStatus := h, hintEn := e, deniedCnt := n, deniedAddr := a } } :=
  ⟨rfl, rfl, rfl, rfl, rfl, rfl, rfl, fun _ => rfl, fun _ => rfl, fun _ => rfl, fun _ => rfl, rfl, fun _ => rfl, rfl⟩

/-- Settles O21: each register takes its word, and a refused write is counted and reported. -/
theorem registerWrites : Obligations.RegisterWrites := by
  unfold Obligations.RegisterWrites
  intro m a v s hs c x sets
  have set {n : Nat} {y : Master} (hn : n ∈ plainRegisters)
      (hg : ∃ g, c.plainWrite m n v = c.modMaster m.val g ∧ g x = y) : sets n y := by
    obtain ⟨g, hg, rfl⟩ := hg
    rintro hw rfl
    refine completes_quiet (f := Chip.put1 m a.toNat v) rfl ((put1_writes hw).trans
      ((congrArg Prod.fst (regWrite_plain hn m v c)).trans hg)) hs (quiet_masters _ c)
      ⟨?_, fun j hj => ?_, keepsBut_masters (by decide) _⟩
    · exact (modMaster_master c m.val g m.val).trans (if_pos rfl)
    · exact (modMaster_master c m.val g j).trans (if_neg hj)
  refine ⟨set (n := 0x20000) (by decide)
      ⟨fun x => { x with arg0 := v }, rfl, rfl⟩, set (n := 0x20004) (by decide)
    ⟨fun x => { x with arg1 := v }, rfl, rfl⟩, set (n := 0x20008) (by decide)
    ⟨fun x => { x with arg2 := v }, rfl, rfl⟩, set (n := 0x2000C) (by decide)
    ⟨fun x => { x with arg3 := v }, rfl, rfl⟩, set (n := 0x20018) (by decide)
    ⟨fun x => { x with ticketSel := v.truncate 16 }, rfl, rfl⟩,
    set (n := 0x3000C) (by decide)
    ⟨fun x => { x with cfgView := v.getLsbD 0 }, rfl, rfl⟩, fun hw ha => ?_, fun hw => ?_, fun hh ha hch hdead hmay => ?_⟩
  · subst ha
    refine completes_quiet (f := Chip.put1 m 0x64 v) rfl ((put1_writes hw).trans
      (congrArg Prod.fst (regWrite_plain (by decide) m v c))) hs (quiet_window _ _ _ _ c)
      ⟨fun i hi => ?_, keepsBut_sys (by decide) _ rfl⟩
    show ((c.sys.hintEn &&& ~~~ BitVec.ofNat 11 (fld v 16 11)) ||| (v.truncate 11 &&& BitVec.ofNat 11 (fld v 16 11))).getLsbD i
      = _
    rw [BitVec.getLsbD_or, BitVec.getLsbD_and, BitVec.getLsbD_and, BitVec.getLsbD_not, maskHalf_getLsbD v hi,
      BitVec.truncate_eq_setWidth, BitVec.getLsbD_setWidth]
    cases v.getLsbD (16 + i) <;> simp [hi]
  · refine completes_quiet (f := Chip.put1 m 0x60 v) rfl ((put1_writes hw).trans
      (congrArg Prod.fst (regWrite_plain (by decide) m v c))) hs (quiet_window _ _ _ _ c)
      ⟨fun i hi => ?_, keepsBut_hint (by decide) _⟩
    show (c.sys.hintStatus &&& ~~~ v.truncate 11).getLsbD i = _
    rw [BitVec.getLsbD_and, BitVec.getLsbD_not, BitVec.truncate_eq_setWidth, BitVec.getLsbD_setWidth]
    simp [hi]
  · have hf : c.put1 m a.toNat v = c.denied m.val a.toNat := by
      simp [Chip.put1, Chip.writeWord, hh, ha, hch, hdead, hmay]
    let c' := c.modSys (fun s => { s with
      deniedCnt := satInc s.deniedCnt, deniedAddr := w32 (m.val * 2 ^ 24 + a.toNat % 2 ^ 24) })
    have hn : Noted c' (c.denied m.val a.toNat) := noted_raise _ _ _ _ c'
    refine completes_calm (f := Chip.put1 m a.toNat v) rfl hf hs
      ((quiet_window _ _ _ _ c).calm.trans (calm_raise _ _ _ _ c')) (fun f _ => ?_)
    have hkeep := keepsBut_trans (keepsBut_trans (keepsBut_sys (bs := [.sys, .evt, .ferry, .hint]) (c := c) (by decide) c'.sys rfl)
      (hn.keepsBut (by decide))) (keepsBut_ferry (by decide) f)
    obtain ⟨e, f', h, hd⟩ := hn
    rw [hd] at hkeep ⊢
    exact ⟨rfl, rfl, hkeep⟩

end Sys2Proof.Machine
end

section
/-! Commands (R43, R44, R418): the write of a code, what every command checks first, and its acknowledgement. -/

namespace Sys2Proof.Machine

open Sys2Proof Sys2Proof.Claims

/-! ### The arguments of a command -/

/-- The block with the arguments of a command in its master's registers. -/
def argued (r : CmdReq) (c : Chip) : Chip :=
  c.modMaster r.m.val (fun y => { y with arg0 := r.a0, arg1 := r.a1, arg2 := r.a2, arg3 := r.a3 })

section
variable (r : CmdReq) (c : Chip) (j : Nat)

@[simp] theorem argued_host : (argued r c).host = c.host := rfl
@[simp] theorem argued_sys : (argued r c).sys = c.sys := rfl
@[simp] theorem argued_lands : (argued r c).lands = c.lands := rfl
@[simp] theorem argued_tix : (argued r c).tix = c.tix := rfl
@[simp] theorem argued_cfg : (argued r c).cfg = c.cfg := rfl
@[simp] theorem argued_groups : (argued r c).groups = c.groups := rfl
@[simp] theorem argued_taps : (argued r c).taps = c.taps := rfl
@[simp] theorem argued_engs : (argued r c).engs = c.engs := rfl
@[simp] theorem argued_lib : (argued r c).lib = c.lib := rfl
@[simp] theorem argued_bill : (argued r c).bill = c.bill := rfl
@[simp] theorem argued_tariff : (argued r c).tariff = c.tariff := rfl
@[simp] theorem argued_time : (argued r c).time = c.time := rfl
@[simp] theorem argued_power : (argued r c).power = c.power := rfl
@[simp] theorem argued_save : (argued r c).save = c.save := rfl
@[simp] theorem argued_evt : (argued r c).evt = c.evt := rfl
@[simp] theorem argued_tamper : (argued r c).tamper = c.tamper := rfl
@[simp] theorem argued_ledger : (argued r c).ledger = c.ledger := rfl
@[simp] theorem argued_disp : (argued r c).disp = c.disp := rfl
@[simp] theorem argued_ferry : (argued r c).ferry = c.ferry := rfl
@[simp] theorem argued_bay : (argued r c).bay = c.bay := rfl
@[simp] theorem argued_drv : (argued r c).drv = c.drv := rfl
@[simp] theorem argued_safe : (argued r c).safe = c.safe := rfl
@[simp] theorem argued_link : (argued r c).link = c.link := rfl
@[simp] theorem argued_key : (argued r c).key = c.key := rfl
@[simp] theorem argued_upd : (argued r c).upd = c.upd := rfl
@[simp] theorem argued_net : (argued r c).net = c.net := rfl
@[simp] theorem argued_pair : (argued r c).pair = c.pair := rfl
@[simp] theorem argued_free : (argued r c).free = c.free := rfl

theorem argued_master : ∃ a b d e, (argued r c).master j =
    { c.master j with arg0 := a, arg1 := b, arg2 := d, arg3 := e } := by
  unfold argued
  rw [modMaster_master]
  split
  · subst j
    exact ⟨_, _, _, _, rfl⟩
  · exact ⟨_, _, _, _, rfl⟩

@[simp] theorem argued_role : ((argued r c).master j).role = (c.master j).role := by
  obtain ⟨_, _, _, _, h⟩ := argued_master r c j
  rw [h]

@[simp] theorem argued_sess : ((argued r c).master j).sess = (c.master j).sess := by
  obtain ⟨_, _, _, _, h⟩ := argued_master r c j
  rw [h]

@[simp] theorem argued_account : ((argued r c).master j).account = (c.master j).account := by
  obtain ⟨_, _, _, _, h⟩ := argued_master r c j
  rw [h]

@[simp] theorem argued_ack : ((argued r c).master j).ack = (c.master j).ack := by
  obtain ⟨_, _, _, _, h⟩ := argued_master r c j
  rw [h]

@[simp] theorem argued_conn : ((argued r c).master j).conn = (c.master j).conn := by
  obtain ⟨_, _, _, _, h⟩ := argued_master r c j
  rw [h]

@[simp] theorem argued_roleNo : (argued r c).roleNo j = c.roleNo j := by
  show (if c.retired && j == 0 then roleREADER else ((argued r c).master j).role.toNat) = _
  rw [argued_role]
  rfl

end

theorem quiet_argued (r : CmdReq) (c : Chip) : Quiet c (argued r c) := quiet_masters _ c

theorem keepsBut_argued {bs : List Block} (h : Block.masters ∈ bs) (r : CmdReq) (c : Chip) :
    keepsBut bs c (argued r c) := keepsBut_masters h _

/-! ### The rows of the commands -/

/-- What a row checks of the mode and the session does not look at the arguments' registers. -/
structure RowBlind (x : CmdRow) : Prop where
  quar : ∀ c r, x.quar (argued r c) r = x.quar c r
  own : ∀ c r, x.own (argued r c) r = x.own c r

theorem mayCancel_argued (r : CmdReq) (c : Chip) : (argued r c).mayCancel r = c.mayCancel r := by
  unfold Chip.mayCancel
  rw [argued_sess, argued_roleNo]
  rfl

theorem mayTimeSet_argued (r : CmdReq) (c : Chip) : (argued r c).mayTimeSet r = c.mayTimeSet r := by
  unfold Chip.mayTimeSet
  rw [argued_roleNo]
  rfl

theorem notReader_argued (r : CmdReq) (c : Chip) : notReader (argued r c) r = notReader c r := by
  unfold notReader
  rw [argued_roleNo]

theorem mayPasswd_argued (r : CmdReq) (c : Chip) : (argued r c).mayPasswd r = c.mayPasswd r := by
  unfold Chip.mayPasswd
  dsimp only
  rw [argued_account, argued_role]
  rfl

theorem mayAcctSet_argued (r : CmdReq) (c : Chip) : (argued r c).mayAcctSet r = c.mayAcctSet r := by
  unfold Chip.mayAcctSet
  dsimp only
  rw [argued_role]
  rfl

theorem mayLcSet_argued (r : CmdReq) (c : Chip) : (argued r c).mayLcSet r = c.mayLcSet r := by
  unfold Chip.mayLcSet
  dsimp only
  rw [argued_role]
  rfl

theorem commandRows_blind : ∀ p ∈ commandRows, RowBlind p.2 := by
  simp only [commandRows, List.cons_append, List.nil_append, List.forall_mem_cons, List.not_mem_nil, false_imp_iff,
    implies_true, and_true]
  and_intros
  any_goals exact ⟨fun _ _ => rfl, fun _ _ => rfl⟩
  · exact ⟨fun _ _ => rfl, fun c r => mayCancel_argued r c⟩
  · exact ⟨fun _ _ => rfl, fun c r => mayTimeSet_argued r c⟩
  · exact ⟨fun _ _ => rfl, fun c r => notReader_argued r c⟩
  · exact ⟨fun _ _ => rfl, fun c r => notReader_argued r c⟩
  · exact ⟨fun _ _ => rfl, fun c r => mayPasswd_argued r c⟩
  · exact ⟨fun _ _ => rfl, fun c r => mayAcctSet_argued r c⟩
  · exact ⟨fun _ _ => rfl, fun c r => mayLcSet_argued r c⟩
  · exact ⟨fun c r => by simp [rowUpdActivate], fun _ _ => rfl⟩

/-- Every command of the table is written by its code. -/
theorem commandRows_exec : ∀ p ∈ commandRows, ∀ r s, exec (p.1 r) s = run (Chip.writeCode p.2 r) s := by
  simp only [commandRows, List.cons_append, List.nil_append, List.forall_mem_cons, List.not_mem_nil, false_imp_iff,
    implies_true, and_true]
  and_intros
  all_goals exact fun _ _ => rfl

/-! ### The write of the code -/

section
variable {x : CmdRow} {r : CmdReq} {c : Chip}

theorem writeCode_changeover (h : c.sys.changeover = true) : c.writeCode x r = c := if_pos (by simp [h])

variable (hh : c.hears r.m.val = true) (hc : c.sys.changeover = false) (hd : c.sys.dead.getLsbD 3 = false)
include hh hc hd

theorem writeCode_cmdCode : c.writeCode x r = (argued r c).cmdCode (some x) x.code r := by
  unfold Chip.writeCode
  dsimp only
  rw [if_neg (by simp [hh, hc]), if_neg (by rw [hd]; decide)]
  rfl

/-- A code written before the acknowledgement of the previous command is lost. -/
theorem writeCode_lost (he : (r.early && (c.master r.m.val).ack) = true) :
    c.writeCode x r = (argued r c).modMaster r.m.val (fun y => { y with lost := true }) := by
  rw [writeCode_cmdCode hh hc hd]
  exact if_pos (by rw [argued_ack]; exact he)

/-- Any other code is answered. -/
theorem writeCode_answers (he : (r.early && (c.master r.m.val).ack) = false) : c.writeCode x r =
    ((((argued r c).command x r).1).keyBufClear r.m.val x.code).acknowledge r.m.val ((argued r c).command x r).2 := by
  rw [writeCode_cmdCode hh hc hd]
  exact if_neg (by rw [argued_ack, he]; decide)

end

/-! ### The checks of every command -/

section
variable {x : CmdRow} {r : CmdReq} {c : Chip} (hx : RowBlind x)
include hx

theorem cmdClosed_argued : (argued r c).cmdClosed x r = c.cmdClosed x r := by
  unfold Chip.cmdClosed
  rw [hx.quar]
  rfl

theorem cmdAllowed_argued : (argued r c).cmdAllowed x r = c.cmdAllowed x r := by
  unfold Chip.cmdAllowed
  rw [hx.own, argued_roleNo]
  rfl

theorem command_closed (h : c.cmdClosed x r = true) : (argued r c).command x r = (argued r c, { st := stMODE }) :=
  if_pos (by rw [cmdClosed_argued hx]; exact h)

theorem command_denied (h : c.cmdClosed x r = false) (ha : c.cmdAllowed x r = false) :
    (argued r c).command x r = (argued r c, { st := stDENIED }) :=
  (if_neg (by rw [cmdClosed_argued hx, h]; decide)).trans (if_pos (by rw [cmdAllowed_argued hx, ha]; rfl))

theorem command_busy (h : c.cmdClosed x r = false) (ha : c.cmdAllowed x r = true) (hb : ∃ i ∈ x.bits, c.rdy i = false) :
    (argued r c).command x r = (argued r c, { st := stBUSY }) := by
  refine (if_neg (by rw [cmdClosed_argued hx, h]; decide)).trans ((if_neg (by rw [cmdAllowed_argued hx, ha]; decide)).trans
    (if_pos ?_))
  obtain ⟨i, hi, hrdy⟩ := hb
  exact List.any_eq_true.mpr ⟨i, hi, by rw [show (argued r c).rdy i = c.rdy i from rfl, hrdy]; rfl⟩

theorem command_takes (h : takes x r c) : (argued r c).command x r = x.fn r (argued r c) := by
  obtain ⟨-, -, -, hcl, hal, hrdy⟩ := h
  refine (if_neg (by rw [cmdClosed_argued hx, hcl]; decide)).trans
    ((if_neg (by rw [cmdAllowed_argued hx, hal]; decide)).trans (if_neg ?_))
  rw [Bool.not_eq_true, List.any_eq_false]
  intro i hi
  rw [show (argued r c).rdy i = c.rdy i from rfl, hrdy i hi]
  decide

end

/-! ### The acknowledgement -/

/-- What a command's acknowledgement and the end of holds leave of the block `d` behind it. -/
structure Answered (r : CmdReq) (a : Ans) (d d' : Chip) : Prop where
  acked : acked r a.st a.ticket d'
  rest : ∃ h, d' = { d with masters := d'.masters, sys := { d.sys with hintStatus := h }, ferry := d'.ferry }
  others : ∀ j, j ≠ r.m.val → d'.master j = d.master j
  mine : ∃ b, d'.master r.m.val =
    { d.master r.m.val with ticket := a.ticket, ack := true, lost := false, status := a.st, keyBuf := b }
  queue : ∀ q, ∃ b, d'.fq q = { d.fq q with stalled := b }

/-- Clearing the buffer of a key command changes its master's buffer alone. -/
theorem keyBufClear_facts (m code : Nat) (d : Chip) : ∃ t, d.keyBufClear m code = { d with masters := t } ∧
    (∃ b, Tbl.get ({} : Master) t m = { d.master m with keyBuf := b }) ∧
    ∀ j, j ≠ m → Tbl.get ({} : Master) t j = d.master j := by
  unfold Chip.keyBufClear
  split
  · have h := modMaster_master d m (fun y => { y with keyBuf := [] })
    exact ⟨_, rfl, ⟨[], (h m).trans (if_pos rfl)⟩, fun j hj => (h j).trans (if_neg hj)⟩
  · exact ⟨d.masters, rfl, ⟨_, rfl⟩, fun _ _ => rfl⟩

/-- An acknowledgement changes its master and a hint. -/
theorem acknowledge_facts (m : Nat) (a : Ans) (d : Chip) : ∃ h, d.acknowledge m a =
    { d.modMaster m (fun y => { y with ticket := a.ticket, ack := true, lost := false, status := a.st }) with
      sys := { d.sys with hintStatus := h } } := by
  unfold Chip.acknowledge
  cases m == 0
  · exact ⟨d.sys.hintStatus, rfl⟩
  · exact ⟨_, rfl⟩

/-- What is left of the block behind the acknowledgement of a command, and behind the end of holds. -/
theorem answered_acknowledge (r : CmdReq) (code : Nat) (a : Ans) (d : Chip) :
    let e := (d.keyBufClear r.m.val code).acknowledge r.m.val a
    Quiet d e ∧ e.ferry = d.ferry ∧ ∀ f, (∀ q, ∃ b, Tbl.get {} f q = { d.fq q with stalled := b }) →
      Answered r a d { e with ferry := f } := by
  obtain ⟨t, ht, ⟨b, hb⟩, ho⟩ := keyBufClear_facts r.m.val code d
  obtain ⟨h, hh⟩ := acknowledge_facts r.m.val a { d with masters := t }
  rw [ht, hh]
  have hm : ∀ j, (({ d with masters := t } : Chip).modMaster r.m.val
      (fun y => { y with ticket := a.ticket, ack := true, lost := false, status := a.st })).master j =
      if j = r.m.val then
        { d.master j with ticket := a.ticket, ack := true, lost := false, status := a.st, keyBuf := b }
      else d.master j := by
    intro j
    rw [modMaster_master]
    split
    · subst j
      show ({ Tbl.get ({} : Master) t r.m.val with ticket := a.ticket, ack := true, lost := false, status := a.st } : Master) = _
      rw [hb]
    · next hj => exact ho j hj
  have hmine := (hm r.m.val).trans (if_pos rfl)
  refine ⟨(quiet_masters _ d).trans (quiet_window h _ _ _ _), rfl, fun f hf => ⟨?_, ⟨h, rfl⟩, fun j hj => ?_, ⟨b, hmine⟩, hf⟩⟩
  · refine ⟨?_, ?_, ?_, ?_⟩
    · exact congrArg Master.status hmine
    · exact congrArg Master.ticket hmine
    · exact congrArg Master.ack hmine
    · exact congrArg Master.lost hmine
  · exact (hm j).trans (if_neg hj)

/-- The frame of an answered command. -/
theorem Answered.keepsBut {r : CmdReq} {a : Ans} {d d' : Chip} (h : Answered r a d d') {bs : List Block}
    (hm : Block.masters ∈ bs) (hh : Block.hint ∈ bs) (hf : Block.ferry ∈ bs ∨ d'.ferry = d.ferry) : keepsBut bs d d' := by
  obtain ⟨x, hx⟩ := h.rest
  intro b hb
  have : b ≠ .masters := fun e => hb (e ▸ hm)
  have : b ≠ .hint := fun e => hb (e ▸ hh)
  rw [hx]
  cases b with
  | masters => contradiction
  | hint => contradiction
  | ferry => exact hf.resolve_left hb
  | _ => rfl

/-- What is read from none of the masters, the hint bits and the queues is as the command has left it. -/
theorem Answered.same {r : CmdReq} {a : Ans} {d d' : Chip} (h : Answered r a d d') {α : Sort*} (g : Chip → α)
    (hg : ∀ m x f, g { d with masters := m, sys := { d.sys with hintStatus := x }, ferry := f } = g d := by
      exact fun _ _ _ => rfl) : g d' = g d := by
  obtain ⟨x, hx⟩ := h.rest
  exact (congrArg g hx).trans (hg _ _ _)

/-! ### Commands that complete -/

/-- A command that comes to its own description is acknowledged with its answer. -/
theorem writeCode_takes {x : CmdRow} {r : CmdReq} {c d : Chip} {a : Ans} (hx : RowBlind x) (ht : takes x r c)
    (hfn : x.fn r (argued r c) = (d, a)) : c.writeCode x r = (d.keyBufClear r.m.val x.code).acknowledge r.m.val a := by
  have hch : c.sys.changeover = false := by
    have h := ht.2.2.2.1
    simp only [Chip.cmdClosed, Bool.or_eq_false_iff] at h
    exact h.1.1.1
  rw [writeCode_answers ht.1 hch ht.2.1 ht.2.2.1, command_takes hx ht, hfn]

section
variable {x : CmdRow} {r : CmdReq} {i : Instr} {s : State} (hi : exec i s = run (Chip.writeCode x r) s) (hs : Settled s)
include hi hs

/-- A command that comes to its own description completes with what that leaves, acknowledged. -/
theorem completes_command (hx : RowBlind x) (ht : takes x r s.chip) {d : Chip} {a : Ans} {P : Chip → Prop}
    (hfn : x.fn r (argued r s.chip) = (d, a)) (hd : Eased (argued r s.chip) d)
    (hP : ∀ d', Answered r a d d' → ((∀ q, d.holdOver q = true → s.chip.holdOver q = true) → d'.ferry = d.ferry) → P d') :
    completes i s P := by
  obtain ⟨hq, hferry, hans⟩ := answered_acknowledge r x.code a d
  have hf := writeCode_takes hx ht hfn
  refine completes_eased hi hf hs (((quiet_argued r s.chip).calm.eased.trans hd).trans hq.calm.eased) (fun f hf => ?_)
  have hqueue : ∀ q, ∃ b, Tbl.get {} f q = { d.fq q with stalled := b } := by
    intro q
    obtain ⟨b, hb⟩ := hf.queue q
    refine ⟨b, hb.trans ?_⟩
    show ({ Tbl.get ({} : Ferry) _ q with stalled := b } : Ferry) = _
    rw [hferry]
    rfl
  refine hP _ (hans f hqueue) (fun h => (hf.same (fun q hov => h q ?_)).trans hferry)
  rwa [hq.hold] at hov

omit hs in
/-- What settling leaves behind the acknowledgement of a command that comes to its own description. -/
theorem completes_acknowledged (hx : RowBlind x) (ht : takes x r s.chip) {d : Chip} {a : Ans} {P : Chip → Prop}
    (hfn : x.fn r (argued r s.chip) = (d, a))
    (hP : ∀ e, Answered r a d e → e.ferry = d.ferry → P (Chip.settle s.chip e)) : completes i s P := by
  obtain ⟨-, hferry, hans⟩ := answered_acknowledge r x.code a d
  have h := hans d.ferry (fun q => ⟨(d.fq q).stalled, rfl⟩)
  rw [← hferry] at h
  exact completes_settle hi (writeCode_takes hx ht hfn) (hP _ h hferry)

/-- A refused command changes the command bank alone. -/
theorem completes_refused {a : Ans} (hh : s.chip.hears r.m.val = true) (hc : s.chip.sys.changeover = false)
    (hd : s.chip.sys.dead.getLsbD 3 = false) (he : (r.early && (s.chip.master r.m.val).ack) = false)
    (hcmd : (argued r s.chip).command x r = (argued r s.chip, a)) :
    completes i s (fun d => acked r a.st a.ticket d ∧ keepsBut [.masters, .hint] s.chip d) := by
  obtain ⟨hq, hferry, hans⟩ := answered_acknowledge r x.code a (argued r s.chip)
  have hf : s.chip.writeCode x r = ((argued r s.chip).keyBufClear r.m.val x.code).acknowledge r.m.val a := by
    rw [writeCode_answers hh hc hd he, hcmd]
  have h := hans ((argued r s.chip).ferry) (fun q => ⟨((argued r s.chip).fq q).stalled, rfl⟩)
  refine completes_quiet hi hf hs ((quiet_argued r s.chip).trans hq) ?_
  rw [← hferry] at h
  exact ⟨h.acked, keepsBut_trans (keepsBut_argued (by decide) r s.chip) (h.keepsBut (by decide) (by decide) (.inr hferry))⟩

/-- A command that leaves the block changes the command bank alone. -/
theorem completes_unchanged (hx : RowBlind x) (ht : takes x r s.chip) {a : Ans}
    (hfn : x.fn r (argued r s.chip) = (argued r s.chip, a)) :
    completes i s (fun d => acked r a.st a.ticket d ∧ keepsBut [.masters, .hint] s.chip d) := by
  refine completes_command hi hs hx ht hfn (Calm.refl _).eased (fun d' hans hf => ?_)
  exact ⟨hans.acked, keepsBut_trans (keepsBut_argued (by decide) r s.chip)
    (hans.keepsBut (by decide) (by decide) (.inr (hf (fun _ => id))))⟩

end

/-- Settles O27: the checks of every command, in their order. -/
theorem commandRefusals : Obligations.CommandRefusals := by
  unfold Obligations.CommandRefusals
  intro p hp r s hs c x refused
  have hi := commandRows_exec p hp r s
  have hx := commandRows_blind p hp
  refine ⟨fun _ hch => answers_quiet hi (writeCode_changeover hch) hs (Quiet.refl _), fun hh hc hd => ⟨fun he => ?_,
    fun he => ⟨fun hcl => ?_, fun hcl hal => ?_, fun hcl hal hb => ?_⟩⟩⟩
  · refine completes_quiet hi (writeCode_lost hh hc hd he) hs ((quiet_argued r c).trans (quiet_masters _ _)) ⟨?_, ?_, ?_⟩
    · rw [modMaster_master, if_pos rfl]
    · rw [modMaster_master, if_pos rfl]
      exact (argued_ack r c r.m.val).trans (Bool.and_eq_true_iff.mp he).2
    · exact keepsBut_trans (keepsBut_argued (by decide) r c) (keepsBut_masters (by decide) _)
  · exact completes_refused hi hs hh hc hd he (command_closed hx hcl)
  · exact completes_refused hi hs hh hc hd he (command_denied hx hcl hal)
  · exact completes_refused hi hs hh hc hd he (command_busy hx hcl hal hb)

end Sys2Proof.Machine
end

section
/-! Tickets (R44-R46): what settling leaves of the masters and the outstanding operations, completion and cancellation. -/

namespace Sys2Proof.Machine

open Sys2Proof Sys2Proof.Claims

/-! ### What settling leaves of the tickets -/

/-- The masters and the tickets are as they were. -/
def SameTickets (c d : Chip) : Prop := d.masters = c.masters ∧ d.tix = c.tix

theorem SameTickets.trans {a b c : Chip} (h : SameTickets a b) (h' : SameTickets b c) : SameTickets a c :=
  ⟨h'.1.trans h.1, h'.2.trans h.2⟩

theorem SameTickets.refl (c : Chip) : SameTickets c c := ⟨rfl, rfl⟩

theorem Chosen.tickets {c d : Chip} : Chosen c d → SameTickets c d := by
  rintro ⟨p, h, en, se, ls, aw, ev, le, fe, ba, rfl⟩
  exact ⟨rfl, rfl⟩

theorem Carried.tickets {c d : Chip} (h : Carried c d) : SameTickets c d := h.chosen.tickets

theorem sameTickets_each {α : Type} {f : α → Chip → Chip} (h : ∀ a c, SameTickets c (f a c)) :
    ∀ (l : List α) (c : Chip), SameTickets c (each l f c)
  | [], c => SameTickets.refl c
  | a :: t, c => (h a c).trans (sameTickets_each h t (f a c))

theorem sameTickets_ite {p : Prop} [Decidable p] {c d e : Chip} (hd : SameTickets c d) (he : SameTickets c e) :
    SameTickets c (if p then d else e) := by
  split
  · exact hd
  · exact he

theorem sameTickets_escNext (i : Nat) (c : Chip) : SameTickets c (c.escNext i) := by
  have send (start : Bool) (seq : W16) : SameTickets c (c.escSend i start seq) :=
    sameTickets_ite (SameTickets.refl c) (sameTickets_ite ⟨rfl, rfl⟩ ⟨rfl, rfl⟩)
  exact sameTickets_ite (sameTickets_ite (SameTickets.refl c) (send _ _))
    (sameTickets_ite (send _ _) (SameTickets.refl c))

/-- Choosing instants changes no condition of a pulse. -/
theorem Chosen.pulseDue {c d : Chip} (i : Nat) : Chosen c d → d.pulseDue i = c.pulseDue i := by
  rintro ⟨p, h, en, se, ls, aw, ev, le, fe, ba, rfl⟩
  rfl

theorem Recorded.pulseDue {c d : Chip} (i : Nat) : Recorded c d → d.pulseDue i = c.pulseDue i := by
  rintro ⟨e, f, h, t, l, rfl⟩
  rfl

/-- Settling leaves the masters and the tickets unless the sessions close or a pulse starts. -/
theorem settle_tickets {old d : Chip} (hq : (d.sys.qcause != 0 && old.sys.qcause == 0) = false)
    (hr : (d.retired && !old.retired) = false) (hp : ∀ i, d.pulseDue i = true → old.pulseDue i = true) :
    SameTickets d (Chip.settle old d) := by
  have hx : Chosen d (Chip.chooseAll old (Chip.latchWins old d)) := (carried_latchWins old d).chosen.trans (chosen_chooseAll old _)
  have hy := recorded_settleQuar (Chip.chooseAll old (Chip.latchWins old d))
  unfold Chip.settle
  dsimp only
  generalize Chip.chooseAll old (Chip.latchWins old d) = x at hx hy ⊢
  have e3 : Chip.pulses old x.settleQuar = x.settleQuar :=
    each_nil (filter_stale _ (fun p h => hp p.1 (by rw [← hx.pulseDue, ← hy.pulseDue]; exact h)))
  have h4 := follows_escPermits old x.settleQuar
  have t4 : SameTickets x.settleQuar (Chip.escPermits old x.settleQuar) := sameTickets_each sameTickets_escNext _ _
  rw [e3]
  have ty : SameTickets d x.settleQuar := hx.tickets.trans (by obtain ⟨e, f, h, t, l, he⟩ := hy; rw [he]; exact ⟨rfl, rfl⟩)
  have hz : (Chip.escPermits old x.settleQuar).sys.qcause = d.sys.qcause ∧
      (Chip.escPermits old x.settleQuar).retired = d.retired := by
    obtain ⟨e, f, h, t, l, he⟩ := hy
    obtain ⟨p, h, en, se, ls, aw, ev, le, fe, ba, rfl⟩ := hx
    unfold Chip.retired
    rw [h4.qcause, h4.key, he]
    exact ⟨rfl, rfl⟩
  replace ty := ty.trans t4
  generalize Chip.escPermits old x.settleQuar = z at hz ty ⊢
  have e5 : Chip.settleStop old z = z := by
    refine if_neg ?_
    rw [hz.1, hz.2, hq, hr]
    decide
  rw [e5]
  have t6 := ((carried_settleAux old z).trans (carried_settleSafe old _)).tickets
  generalize Chip.settleSafe old (Chip.settleAux old z) = y at t6 ⊢
  have t7 : SameTickets y (Chip.lampStart old y) := by
    obtain ⟨x, -, hx⟩ := lampStart_drives old y
    rw [hx]
    exact ⟨rfl, rfl⟩
  have t8 := (carried_tripCheck old (Chip.lampStart old y)).tickets
  generalize Chip.tripCheck old (Chip.lampStart old y) = w at t8 ⊢
  have t9 : SameTickets w w.settleField := by rw [settleField_eq]; exact ⟨rfl, rfl⟩
  have t10 := (carried_bayWatch old w.settleField).tickets
  generalize Chip.bayWatch old w.settleField = v at t10 ⊢
  have t11 : SameTickets v v.setMode := by
    obtain ⟨h, b, he⟩ := setMode_eq v
    rw [he]
    exact ⟨rfl, rfl⟩
  exact ((((((ty.trans t6).trans t7).trans t8).trans t9).trans t10).trans t11).trans (carried_holdsOver old _).tickets

/-! ### Effects that settling answers with no ticket -/

/-- The tickets are as they were, and neither the end of the sessions nor a pulse is newly due. -/
structure Tame (c d : Chip) : Prop where
  tix : d.tix = c.tix
  cause : d.sys.qcause = c.sys.qcause
  retired : d.retired = c.retired
  pulse : ∀ i, d.pulseDue i = true → c.pulseDue i = true

theorem Tame.refl (c : Chip) : Tame c c := ⟨rfl, rfl, rfl, fun _ => id⟩

theorem Tame.trans {a b c : Chip} (h : Tame a b) (h' : Tame b c) : Tame a c :=
  ⟨h'.tix.trans h.tix, h'.cause.trans h.cause, h'.retired.trans h.retired, fun i => h.pulse i ∘ h'.pulse i⟩

theorem tame_ite {p : Prop} [Decidable p] {c d e : Chip} (hd : Tame c d) (he : Tame c e) : Tame c (if p then d else e) := by
  split
  · exact hd
  · exact he

theorem tame_each {α : Type} {f : α → Chip → Chip} (h : ∀ a c, Tame c (f a c)) :
    ∀ (l : List α) (c : Chip), Tame c (each l f c)
  | [], c => Tame.refl c
  | a :: t, c => (h a c).trans (tame_each h t (f a c))

theorem Chosen.tame {c d : Chip} : Chosen c d → Tame c d := by
  rintro ⟨p, h, en, se, ls, aw, ev, le, fe, ba, rfl⟩
  exact ⟨rfl, rfl, rfl, fun _ => id⟩

theorem Carried.tame {c d : Chip} (h : Carried c d) : Tame c d := h.chosen.tame

/-- Clearing a readiness bit but AO's makes no pulse due. -/
theorem tame_setRdy {i : Nat} (hi : i ≠ 0) (c : Chip) : Tame c (c.setRdy i false) := by
  refine ⟨rfl, rfl, rfl, fun j => ?_⟩
  have h : c.sys.ready = 1 → c.sys.ready &&& ~~~ BitVec.ofNat 20 (2 ^ i) = 1 := by
    intro h1
    rw [h1]
    refine BitVec.eq_of_getLsbD_eq (fun b hb => ?_)
    have h2 : (1 : BitVec 20).getLsbD b = decide (b = 0) := by
      simp [hb]
    rw [BitVec.getLsbD_and, BitVec.getLsbD_not, h2, BitVec.getLsbD_ofNat, Nat.testBit_two_pow]
    rcases Nat.eq_zero_or_pos b with rfl | hpos
    · simp [hi]
    · simp [Nat.pos_iff_ne_zero.mp hpos]
  simp only [Chip.pulseDue, Bool.and_eq_true, bne_iff_ne, ne_eq]
  exact fun ⟨⟨⟨⟨⟨hp, hr⟩, hq⟩, hb⟩, hw⟩, hf⟩ => ⟨⟨⟨⟨⟨hp, fun h1 => hr (h h1)⟩, hq⟩, hb⟩, hw⟩, hf⟩

/-- A change of a drive's test leaves what its pulses wait for. -/
theorem tame_modDrive (n : Nat) (g : Drive → Drive) (hg : ∀ x, (g x).phase = x.phase) (c : Chip) :
    Tame c (c.modDrive n g) := by
  refine ⟨rfl, rfl, rfl, fun i h => ?_⟩
  have hp : ∀ j, ((c.modDrive n g).drive j).phase = (c.drive j).phase := by
    intro j
    rw [modDrive_drive]
    split
    · subst j
      exact hg _
    · rfl
  have hf : ∀ w, (c.modDrive n g).spillFree w = c.spillFree w := by
    intro w
    unfold Chip.spillFree
    split
    · rfl
    · rw [hp]
      rfl
  unfold Chip.pulseDue at h ⊢
  dsimp only at h ⊢
  rw [hf] at h
  exact h

/-- Settling leaves the tickets that a tame effect leaves. -/
theorem Tame.settle {old d : Chip} (h : Tame old d) : SameTickets d (Chip.settle old d) := by
  refine settle_tickets ?_ ?_ h.pulse
  · rw [h.cause, bne, Bool.not_and_self]
  · rw [h.retired, Bool.and_not_self]

/-! ### Completion -/

/-- A ticket's completion takes it off the outstanding ones, and its packet goes to FQ0 and to its session. -/
theorem complete_facts {t : W16} {x : Ticket} {c : Chip} (hx : c.ticketOut t = some x) (st : W8) (res : W32) :
    ∃ ma e f h, (∀ m, ∃ o, Tbl.get ({} : Master) ma m = { c.master m with outbox := o }) ∧ c.complete t st res =
      { c with
        masters := ma, evt := e, ferry := f, sys := { c.sys with hintStatus := h }
        tix := { c.tix with out := c.tix.out.filter (fun z => z.no != t), done := ((t, st) :: c.tix.done).take 256 } } := by
  unfold Chip.complete
  rw [hx]
  dsimp only
  obtain ⟨e, f, h, hn⟩ := noted_fqPut 0 (mkPkt 0x01 x.master [w32 (t.toNat * 65536 + st.toNat), res])
    (c.modTix (fun y => { y with
      out := y.out.filter (fun z => z.no != t), done := ((t, st) :: y.done).take 256 }))
  rw [hn]
  split
  · refine ⟨_, e, f, h, fun j => ?_, rfl⟩
    rw [Tbl.get_put]
    split
    · subst j
      exact ⟨_, rfl⟩
    · exact ⟨_, rfl⟩
  · exact ⟨_, e, f, h, masters_same c, rfl⟩

/-- A completion reaches the tickets, the outbox of its session and FQ0. -/
theorem keepsBut_complete {bs : List Block} (h : ∀ b ∈ [Block.masters, .tix, .evt, .ferry, .hint], b ∈ bs) (t : W16)
    (st : W8) (res : W32) (c : Chip) : keepsBut bs c (c.complete t st res) := by
  refine keepsBut_mono ?_ h
  unfold Chip.complete
  split
  · exact keepsBut_refl _ c
  · refine keepsBut_trans (keepsBut_tix (by decide) _) (keepsBut_ite
      (keepsBut_trans ((noted_fqPut _ _ _).keepsBut (by decide)) (keepsBut_masters (by decide) _))
      ((noted_fqPut _ _ _).keepsBut (by decide)))

theorem calm_complete (t : W16) (st : W8) (res : W32) (c : Chip) : Calm c (c.complete t st res) := by
  unfold Chip.complete
  split
  · exact Calm.refl c
  · refine Calm.trans (b := c.modTix _) (quiet_far _ _ _ _ _ _ _ _ _ _).calm (calm_ite
      ((calm_fqPut (by decide) _ _).trans (quiet_masters _ _).calm) (calm_fqPut (by decide) _ _))

/-- The ticket has gone from the outstanding ones, and its state shows its status. -/
def Completed (t : W16) (st : W8) (c d : Chip) : Prop :=
  d.tix.out = c.tix.out.filter (fun y => y.no != t) ∧ d.tix.done.head? = some (t, st) ∧ d.tix.next = c.tix.next

/-- A ticket that completes behind an effect that settling answers with no ticket has completed. -/
theorem completed_settle {old c d : Chip} {t : W16} {x : Ticket} {st : W8} {res : W32} (hx : old.ticketOut t = some x)
    (h : Tame old c) (hd : Tame (c.complete t st res) d) : Completed t st old (Chip.settle old d) := by
  have hxc : c.ticketOut t = some x := by
    unfold Chip.ticketOut at hx ⊢
    rw [h.tix]
    exact hx
  obtain ⟨ma, e, f, g, -, he⟩ := complete_facts hxc st res
  have hcause : d.sys.qcause = old.sys.qcause := by
    rw [hd.cause, he]
    exact h.cause
  have hret : d.retired = old.retired := by
    rw [hd.retired, he]
    exact h.retired
  have hpulse : ∀ i, d.pulseDue i = true → old.pulseDue i = true := by
    intro i hi
    have := hd.pulse i hi
    rw [he] at this
    exact h.pulse i this
  have hs : SameTickets d (Chip.settle old d) := by
    refine settle_tickets ?_ ?_ hpulse
    · rw [hcause, bne, Bool.not_and_self]
    · rw [hret, Bool.and_not_self]
  unfold Completed
  rw [hs.2, hd.tix, he, ← h.tix]
  exact ⟨rfl, rfl, rfl⟩

/-! ### Cancellation -/

theorem tame_sessionKeep (stamp m : Nat) (c : Chip) : Tame c (c.sessionKeep stamp m) :=
  ((carried_putSess _ _ c).trans (carried_each (fun k c => carried_modEng k _ c) _ _)).tame

theorem tame_writeGen (words : Tbl W32) (c : Chip) : Tame c (c.writeGen words) :=
  tame_ite (Tame.refl c) ⟨rfl, rfl, rfl, fun _ => id⟩

theorem tame_cancelChange (p : PendCommit) (c : Chip) : Tame c (c.cancelChange p) := by
  have h := (chosen_modPend (fun x => x.pend.filter (fun y => y != p)) c).trans
    (carried_each (fun k c => carried_modEng k (fun q =>
      { q with log := q.log.filter (fun e => !pendEvent p e),
               prog := if p.kind == 2 && q.prog == p.stamp then none else q.prog }) c) engs8 _).chosen
  refine h.tame.trans (tame_ite (Tame.refl _) (Tame.trans ?_ (tame_writeGen _ _)))
  split
  · exact tame_each (fun m c => tame_sessionKeep _ m c) _ _
  · exact Tame.refl _

theorem tame_cancelPend (p : PendCommit) (c : Chip) : Tame c (c.cancelPend p) :=
  tame_ite (chosen_modPend _ c).tame (tame_cancelChange p c)

theorem tame_stopEngine (k : Nat) (run : BitVec 4) (c : Chip) : Tame c (c.stopEngine k run) :=
  (carried_modEng k _ c).tame.trans (tame_setRdy (by unfold rQE; omega) _)

theorem tame_restartCancel (k : Nat) (c : Chip) : Tame c (c.restartCancel k) :=
  tame_ite (carried_modEng k _ c).tame ((tame_stopEngine k _ c).trans (carried_modEng k _ _).tame)

theorem tame_bayCancel (t : W16) (c : Chip) : Tame c (c.bayCancel t) :=
  (carried_modBay _ c).tame.trans (tame_ite (carried_modBay _ _).tame (Tame.refl _))

/-- What a cancelled operation leaves makes nothing due and completes nothing. -/
theorem tame_cancelEffect (x : Ticket) (c : Chip) : Tame c (c.cancelEffect x) := by
  unfold Chip.cancelEffect
  split
  · exact tame_cancelPend _ c
  · split
    case h_3 => exact tame_restartCancel _ c
    case h_6 => exact tame_bayCancel _ c
    case h_7 => exact tame_modDrive _ (fun d => { d with ticket := 0, testing := 0 }) (fun _ => rfl) c
    all_goals exact ⟨rfl, rfl, rfl, fun _ => id⟩

/-- An acknowledgement makes nothing due and completes nothing. -/
theorem Answered.tame {r : CmdReq} {a : Ans} {d d' : Chip} (h : Answered r a d d') : Tame d d' := by
  obtain ⟨x, hx⟩ := h.rest
  rw [hx]
  exact ⟨rfl, rfl, rfl, fun _ => id⟩

theorem tame_argued (r : CmdReq) (c : Chip) : Tame c (argued r c) := ⟨rfl, rfl, rfl, fun _ => id⟩

section
variable {t : W16} {x : Ticket} {r : CmdReq} {s : State}

theorem ticketNo_of_arg {a : W32} (h : a.toNat % 65536 = t.toNat) : BitVec.ofNat 16 (fld a 0 16) = t := by
  refine BitVec.eq_of_toNat_eq ?_
  simp [fld, h]

variable (ht : takes rowTicketCancel r s.chip) (ha : r.a0.toNat % 65536 = t.toNat)

theorem rowTicketCancel_blind : RowBlind rowTicketCancel := ⟨fun _ _ => rfl, fun c r => mayCancel_argued r c⟩

theorem rowNop_blind : RowBlind rowNop := ⟨fun _ _ => rfl, fun _ _ => rfl⟩

include ha

theorem cmdTicketCancel_stale (h : s.chip.ticketOut t = none) :
    cmdTicketCancel r (argued r s.chip) = (argued r s.chip, { st := stSTALE }) := by
  unfold cmdTicketCancel
  rw [ticketNo_of_arg ha, show (argued r s.chip).ticketOut t = none from h]

theorem cmdTicketCancel_fixed (h : s.chip.ticketOut t = some x) (hx : noCancel.contains x.code.toNat = true) :
    cmdTicketCancel r (argued r s.chip) = (argued r s.chip, { st := stDENIED }) := by
  unfold cmdTicketCancel
  rw [ticketNo_of_arg ha, show (argued r s.chip).ticketOut t = some x from h]
  exact if_pos hx

theorem cmdTicketCancel_aborts (h : s.chip.ticketOut t = some x) (hx : noCancel.contains x.code.toNat = false) :
    cmdTicketCancel r (argued r s.chip) = (((argued r s.chip).cancelEffect x).complete x.no stABORTED 0, {}) := by
  unfold cmdTicketCancel
  rw [ticketNo_of_arg ha, show (argued r s.chip).ticketOut t = some x from h]
  exact if_neg (by rw [hx]; decide)

include ht

/-- A cancelled ticket completes ABORTED, and what is left of its operation is settled. -/
theorem completes_ticketCancel (h : s.chip.ticketOut t = some x) (hx : noCancel.contains x.code.toNat = false)
    {P : Chip → Prop} (hP : ∀ e, Answered r {} (((argued r s.chip).cancelEffect x).complete t stABORTED 0) e →
      acked r 0 0 (Chip.settle s.chip e) → Completed t stABORTED s.chip (Chip.settle s.chip e) →
      P (Chip.settle s.chip e)) : completes (.ticketCancel r) s P := by
  have hno : x.no = t := by simpa using List.find?_some h
  have hfn := cmdTicketCancel_aborts ha h hx
  rw [hno] at hfn
  refine completes_acknowledged (x := rowTicketCancel) rfl rowTicketCancel_blind ht hfn (fun e hans _ => ?_)
  exact hP e hans (settle_acked _ _ hans.acked)
    (completed_settle h ((tame_argued r s.chip).trans (tame_cancelEffect x _)) hans.tame)

end

/-- A ticket whose operation is none of the key store's completes with the status that its row carries. -/
theorem completes_ticketCompletion {t : W16} {st : W8} {res : W32} {x : Ticket} {s : State}
    (h : s.chip.ticketOut t = some x) (hx : x.code.toNat / 256 ≠ 0x10) :
    completes (.ticketCompletion t st res) s (Completed t st s.chip) := by
  have hf : s.chip.opDone t st res =
      (s.chip.when (x.code == 0x0A01) (Chip.ferryTestEnd x.arg)).complete t st res := by
    unfold Chip.opDone
    rw [h]
    exact if_neg hx
  have ht : Tame s.chip (s.chip.when (x.code == 0x0A01) (Chip.ferryTestEnd x.arg)) := by
    cases x.code == 0x0A01
    · exact Tame.refl _
    · exact ⟨rfl, rfl, rfl, fun _ => id⟩
  exact completes_settle rfl hf (completed_settle h ht (Tame.refl _))

/-- Settles O25: completion, cancellation and NOP. -/
theorem tickets : Obligations.Tickets := by
  unfold Obligations.Tickets
  intro t st res x r s hs
  refine ⟨completes_ticketCompletion, fun ht ha => ⟨fun h hx => ?_, fun h hx => ?_, fun h => ?_⟩, fun ht => ?_⟩
  · refine completes_ticketCancel ht ha h ?_ (fun e _ hack hdone => ⟨hack, hdone⟩)
    exact Bool.eq_false_iff.mpr (fun hc => hx (List.contains_iff_mem.mp hc))
  · exact completes_unchanged (x := rowTicketCancel) rfl hs rowTicketCancel_blind ht
      (cmdTicketCancel_fixed ha h (List.contains_iff_mem.mpr hx))
  · exact completes_unchanged (x := rowTicketCancel) rfl hs rowTicketCancel_blind ht (cmdTicketCancel_stale ha h)
  · exact completes_unchanged (x := rowNop) rfl hs rowNop_blind ht rfl

end Sys2Proof.Machine
end

section
/-! The commands of the system, the taps and the engines (R46, R212, R377, R378, R381). -/

namespace Sys2Proof.Machine

open Sys2Proof Sys2Proof.Claims

/-! ### Long operations -/

/-- The block in which a command has taken its ticket. -/
def issued (r : CmdReq) (code arg : Nat) (c : Chip) : Chip := ((argued r c).issue r.m.val code arg).1

section
variable (r : CmdReq) (code arg : Nat) (c : Chip)

theorem calm_issued : Calm (argued r c) (issued r code arg c) :=
  (quiet_far (argued r c) c.host (argued r c).masters c.lands (issued r code arg c).tix c.taps c.groups c.tariff c.ledger
    c.disp).calm

theorem issued_tix : (issued r code arg c).tix =
    { c.tix with next := nextTicket c.tix.next, out := c.tix.out ++ [ticketOf r code arg c] } := by
  unfold ticketOf
  rw [← argued_sess r c r.m.val]
  rfl

theorem keepsBut_issued {bs : List Block} (hm : Block.masters ∈ bs) (ht : Block.tix ∈ bs) :
    keepsBut bs c (issued r code arg c) := by
  intro b hb
  have : b ≠ .masters := fun e => hb (e ▸ hm)
  have : b ≠ .tix := fun e => hb (e ▸ ht)
  cases b with
  | masters => contradiction
  | tix => contradiction
  | _ => rfl

/-- A long operation with a free ticket starts, and answers PENDING with the ticket. -/
theorem long_issued (h : c.tixFull = false) (k : W16 → Chip → Chip) : (argued r c).long r.m.val code arg k =
    (k c.tix.next (issued r code arg c), { st := stPENDING, ticket := c.tix.next }) :=
  if_neg (by rw [show (argued r c).tixFull = c.tixFull from rfl, h]; decide)

end

/-- A started operation is pending behind its acknowledgement. -/
theorem Answered.pends {r : CmdReq} {code arg : Nat} {c d e : Chip}
    (h : Answered r { st := stPENDING, ticket := c.tix.next } d e) (ht : d.tix = (issued r code arg c).tix) :
    pends r code arg c e := by
  obtain ⟨x, hx⟩ := h.rest
  refine ⟨h.acked, ?_⟩
  rw [show e.tix = d.tix by rw [hx], ht, issued_tix]
  exact ⟨rfl, rfl⟩

/-- A started operation that makes nothing else due is pending behind its command. -/
theorem pends_settle {r : CmdReq} {code arg : Nat} {c d e : Chip} (hd : Tame (issued r code arg c) d)
    (h : Answered r { st := stPENDING, ticket := c.tix.next } d e) : pends r code arg c (Chip.settle c e) := by
  have he : pends r code arg c e := h.pends hd.tix
  have ht := hd.trans h.tame
  have hs : SameTickets e (Chip.settle c e) := by
    refine settle_tickets ?_ ?_ (fun i hi => ht.pulse i hi)
    · rw [show e.sys.qcause = c.sys.qcause from ht.cause, bne, Bool.not_and_self]
    · rw [show e.retired = c.retired from ht.retired, Bool.and_not_self]
  exact ⟨settle_acked _ _ he.1, by rw [hs.2]; exact he.2⟩

/-! ### Waiting changes -/

/-- A change that has its instant and has not taken effect goes on waiting while another's instant is chosen. -/
theorem pend_choose {c : Chip} {p q : PendCommit} (hp : p ∈ c.cfg.pend) (hq : q.stamp = none) (hs : p.stamp ≠ none) :
    p ∈ (c.choose q).cfg.pend := by
  have hne : (p == q) = false := by
    rw [beq_eq_false_iff_ne]
    rintro rfl
    exact hs hq
  have hkeep : Carried (c.modCfg (fun x => { x with
      pend := mapIf (fun y => y == q) (fun y => { y with stamp := some (c.stampAfter 10) }) x.pend })) (c.choose q) :=
    (carried_ite (Carried.refl _) (carried_each (fun m c => carried_sessionAsk m _ _ c) _ _)).trans
      (carried_each (fun k c => carried_legalTo _ _ _ k c) _ _)
  rw [hkeep.follows.cfg]
  exact List.mem_map.mpr ⟨p, hp, if_neg (Bool.eq_false_iff.mp hne)⟩

theorem pend_chooses {p : PendCommit} (hs : p.stamp ≠ none) : ∀ (l : List (PendCommit × Nat)) (c : Chip),
    (∀ q ∈ l, q.1.stamp = none) → p ∈ c.cfg.pend → p ∈ (each l (fun q => Chip.choose q.1) c).cfg.pend
  | [], _, _, hp => hp
  | q :: l, _, hl, hp => pend_chooses hs l _ (fun x hx => hl x (List.mem_cons_of_mem _ hx))
      (pend_choose hp (hl q List.mem_cons_self) hs)

/-- A change that has its instant and has not taken effect goes on waiting behind a command. -/
theorem settle_waits {old d : Chip} {p : PendCommit} (hp : p ∈ d.cfg.pend) (ha : p.applied = false)
    (hs : p.stamp ≠ none) : p ∈ (Chip.settle old d).cfg.pend := by
  have hl : p ∈ (Chip.latchWins old d).cfg.pend := by
    rw [(carried_latchWins old d).follows.cfg]
    exact hp
  rw [settle_pend]
  unfold Chip.chooseAll
  split
  · exact hl
  · refine pend_chooses hs _ _ (fun q hq => ?_) (List.mem_filter.mpr ⟨hl, ?_⟩)
    · have h := (List.mem_filter.mp hq).2
      simp only [Bool.and_eq_true, Option.isNone_iff_eq_none] at h
      exact h.1
    · simp [Chip.pendDone, ha]

/-! ### The commands -/

section
variable {r : CmdReq} {s : State} (hs : Settled s)

/-- What SYS_MODE_SET tells the engines. -/
def modeChange (r : CmdReq) (c : Chip) : CtxEv :=
  { stamp := c.stampAfter 1, src := 3, change := .modeSet (r.a0.getLsbD 0) }

theorem completes_sysModeSet (ht : takes rowSysModeSet r s.chip) (hfull : s.chip.tixFull = false)
    (hlsw : s.chip.tamper.lsw = true) (hon : r.a0.getLsbD 0 = true ∨ s.chip.key.lc = 2) :
    completes (.sysModeSet r) s (fun d => pends r 0x0001 (r.a0.toNat % 2) s.chip d ∧
      { kind := 0x102, arg := r.a0.toNat % 2, ticket := s.chip.tix.next, stamp := some (s.chip.stampAfter 1)
        engines := BitVec.ofNat 8 s.chip.runMask : PendCommit } ∈ d.cfg.pend ∧
      d.sys.commission = s.chip.sys.commission) := by
  have hb : b2n (r.a0.getLsbD 0) = r.a0.toNat % 2 := by
    rcases Nat.mod_two_eq_zero_or_one r.a0.toNat with h | h <;> simp [b2n, BitVec.getLsbD, Nat.testBit_zero, h]
  have hon' : (!r.a0.getLsbD 0 && s.chip.key.lc != 2) = false := by
    rcases hon with h | h <;> simp [h]
  have hc := carried_toEngines (modeChange r s.chip) (issued r 0x0001 (r.a0.toNat % 2) s.chip)
  have hfn : cmdSysModeSet r (argued r s.chip) = ((Chip.toEngines (modeChange r s.chip) (issued r 0x0001 (r.a0.toNat % 2) s.chip)).legalQueue 0x102 (r.a0.toNat % 2)
      (s.chip.stampAfter 1) s.chip.runMask s.chip.tix.next, { st := stPENDING, ticket := s.chip.tix.next }) := by
    rw [← hb]
    exact (if_neg (by simp [hlsw])).trans ((if_neg (Bool.eq_false_iff.mp hon')).trans (long_issued _ _ _ _ hfull _))
  generalize Chip.toEngines _ _ = z at hc hfn
  refine completes_acknowledged (x := rowSysModeSet) rfl ⟨fun _ _ => rfl, fun _ _ => rfl⟩ ht hfn (fun e hans _ => ?_)
  obtain ⟨h, he⟩ := hans.rest
  refine ⟨pends_settle (hc.chosen.trans (chosen_modPend _ _)).tame hans, settle_waits ?_ rfl (by simp), ?_⟩
  · rw [he]
    exact List.mem_append_right _ (List.mem_singleton.mpr rfl)
  · obtain ⟨h', m, hsys⟩ := settle_sys s.chip e
    obtain ⟨_, hs'⟩ := hc.follows.sys
    rw [hsys, he]
    show z.sys.commission = _
    rw [hs']
    rfl

set_option Elab.async false in
/-- The bits named by their numbers are cleared. -/
theorem cleared_bit (q : BitVec 4) (a : W32) {i : Nat} (hi : i < 4) : (q &&& ~~~ BitVec.ofNat 4
    ((((List.range 4).filter (fun i => a.getLsbD i && q.getLsbD i)).map (fun i => 2 ^ i)).sum)).getLsbD i =
    (q.getLsbD i && !a.getLsbD i) := by
  have key : ∀ (q : BitVec 4) (b : BitVec 4) (i : Fin 4), (q &&& ~~~ BitVec.ofNat 4
      ((((List.range 4).filter (fun i => b.getLsbD i && q.getLsbD i)).map (fun i => 2 ^ i)).sum)).getLsbD i =
      (q.getLsbD i && !b.getLsbD i) := by decide +kernel
  have hb : ∀ j, j < 4 → (a.setWidth 4).getLsbD j = a.getLsbD j := fun j hj => by simp [hj]
  have h := key q (a.setWidth 4) ⟨i, hi⟩
  rw [List.filter_congr (fun j hj => by rw [hb j (List.mem_range.mp hj)]), hb i hi] at h
  exact h

theorem completes_sysQuarClr (ht : takes rowSysQuarClr r s.chip)
    (hsome : ∃ i, i < 4 ∧ r.a0.getLsbD i = true ∧ s.chip.sys.qcause.getLsbD i = true)
    (hgone : ∀ i, i < 4 → r.a0.getLsbD i = true → s.chip.causePresent i = false) :
    completes (.sysQuarClr r) s (fun d => acked r 0 0 d ∧
      ∀ i, i < 4 → d.sys.qcause.getLsbD i = (s.chip.sys.qcause.getLsbD i && !r.a0.getLsbD i)) := by
  let named := (List.range 4).filter (fun i => r.a0.getLsbD i && s.chip.sys.qcause.getLsbD i)
  have hn : named.isEmpty = false := by
    obtain ⟨i, hi, ha, hq⟩ := hsome
    exact List.isEmpty_eq_false_iff_exists_mem.mpr ⟨i, List.mem_filter.mpr ⟨List.mem_range.mpr hi, by rw [ha, hq]; rfl⟩⟩
  have hall : named.filter (fun i => !(argued r s.chip).causePresent i) = named := by
    refine List.filter_eq_self.mpr (fun i hi => ?_)
    obtain ⟨hr, hb⟩ := List.mem_filter.mp hi
    rw [show (argued r s.chip).causePresent i = false from
      hgone i (List.mem_range.mp hr) (Bool.and_eq_true_iff.mp hb).1]
    rfl
  have hfn : cmdSysQuarClr r (argued r s.chip) = ((argued r s.chip).modSys (fun y => { y with
      qcause := y.qcause &&& ~~~ BitVec.ofNat 4 ((named.map (fun i => 2 ^ i)).sum) }), { st := stOK }) := by
    unfold cmdSysQuarClr
    dsimp only [argued_sys]
    rw [hall, hn, if_neg (by decide), if_pos rfl]
  refine completes_acknowledged (x := rowSysQuarClr) rfl ⟨fun _ _ => rfl, fun _ _ => rfl⟩ ht hfn (fun e hans _ => ?_)
  refine ⟨settle_acked _ _ hans.acked, fun i hi => ?_⟩
  obtain ⟨h, he⟩ := hans.rest
  obtain ⟨h', m, hsys⟩ := settle_sys s.chip e
  rw [hsys, he]
  exact cleared_bit _ _ hi

include hs

theorem completes_sysRestart (ht : takes rowSysRestart r s.chip) (hfull : s.chip.tixFull = false)
    (hch : s.chip.sys.changeover = false) (htr : s.chip.onTrial = false) :
    completes (.sysRestart r) s (fun d => pends r 0x0003 0 s.chip d ∧
      d.power = { s.chip.power with pAt := some ((s.chip.power.pAt).getD (s.chip.stampAfter 1)) } ∧
      keepsBut [.masters, .hint, .tix, .power] s.chip d) := by
  have hfn : cmdSysRestart r (argued r s.chip) = _ := (if_neg (by
    rw [argued_sys, hch, show (argued r s.chip).onTrial = false from htr]
    decide)).trans (long_issued r 0x0003 0 s.chip hfull _)
  refine completes_command (x := rowSysRestart) rfl hs ⟨fun _ _ => rfl, fun _ _ => rfl⟩ ht hfn
    (Calm.eased ((calm_issued r 0x0003 0 s.chip).trans
      ⟨rfl, rfl, rfl, rfl, rfl, rfl, rfl, fun _ => rfl, fun _ => rfl, fun _ => rfl, fun _ => rfl, rfl, rfl⟩))
    (fun d' hans hf => ⟨hans.pends rfl, ?_, ?_⟩)
  · obtain ⟨h, he⟩ := hans.rest
    rw [he]
    rfl
  · exact keepsBut_trans (keepsBut_trans (keepsBut_issued r 0x0003 0 s.chip (by decide) (by decide))
      (keepsBut_power (by decide) _)) (hans.keepsBut (by decide) (by decide) (.inr (hf fun _ => id)))

theorem completes_holdupTest (ht : takes rowHoldupTest r s.chip) (hfull : s.chip.tixFull = false)
    (hch : s.chip.sys.changeover = false) (hbusy : (s.chip.power.onAux || s.chip.power.holdupChg || s.chip.power.testRun ||
      s.chip.power.testTicket != 0) = false) (hpow : s.chip.powered = true)
    (hat : ∀ t, s.chip.power.chargedAt = some t → t + 160000 ≤ s.chip.now) :
    completes (.holdupTest r) s (fun d => pends r 0x0010 0 s.chip d ∧
      d.power =
        { s.chip.power with charger := false, testRun := true, testDue := false, testTicket := s.chip.tix.next } ∧
      keepsBut [.masters, .hint, .tix, .power] s.chip d) := by
  have hmay : ∀ t, (Chip.mayTest ((issued r 0x0010 0 s.chip).modPower (fun p => { p with testTicket := t }))) = true := by
    intro t
    simp only [Bool.or_eq_false_iff] at hbusy
    obtain ⟨⟨⟨haux, hchg⟩, hrun⟩, -⟩ := hbusy
    show (s.chip.powered && !s.chip.power.onAux && !s.chip.sys.changeover && !s.chip.power.holdupChg &&
      !s.chip.power.testRun && s.chip.power.chargedAt.all (fun t => decide (t + 160000 ≤ s.chip.now))) = true
    rw [hpow, haux, hch, hchg, hrun]
    cases hc : s.chip.power.chargedAt with
    | none => rfl
    | some t => simpa using hat t hc
  have hfn : cmdHoldupTest r (argued r s.chip) = _ := (if_neg (by
    rw [argued_sys, hch]
    decide)).trans ((if_neg (by rw [argued_power]; exact Bool.eq_false_iff.mp hbusy)).trans
      (long_issued r 0x0010 0 s.chip hfull _))
  rw [show Chip.testStart _ = _ from if_pos (hmay _)] at hfn
  refine completes_command (x := rowHoldupTest) rfl hs ⟨fun _ _ => rfl, fun _ _ => rfl⟩ ht hfn
    (Calm.eased ((calm_issued r 0x0010 0 s.chip).trans
      ⟨rfl, rfl, rfl, rfl, rfl, rfl, rfl, fun _ => rfl, fun _ => rfl, fun _ => rfl, fun _ => rfl, rfl, rfl⟩))
    (fun d' hans hf => ⟨hans.pends rfl, ?_, ?_⟩)
  · obtain ⟨h, he⟩ := hans.rest
    rw [he]
    rfl
  · exact keepsBut_trans (keepsBut_trans (keepsBut_issued r 0x0010 0 s.chip (by decide) (by decide))
      (keepsBut_power (by decide) _)) (hans.keepsBut (by decide) (by decide) (.inr (hf fun _ => id)))

end

/-- Settles O28: the commands of the system. -/
theorem systemCommands : Obligations.SystemCommands := by
  unfold Obligations.SystemCommands
  intro r s hs
  refine ⟨fun ht => ?_, fun x ht hx hm hses hcode hpend hno => ?_, completes_sysModeSet, completes_sysQuarClr,
    completes_sysRestart hs, fun ht hfull hch haux hchg hrun htk =>
      completes_holdupTest hs ht hfull hch (by simp [haux, hchg, hrun, htk])⟩
  · exact completes_unchanged (x := rowNop) rfl hs rowNop_blind ht rfl
  · refine completes_ticketCancel ht (t := x.no) ?_ (hno ▸ hx) (by rw [hcode]; decide) (fun e hans hack hdone => ?_)
    · rw [hno]
      simp
    · refine ⟨hack, hdone.1, hdone.2.1, ?_⟩
      obtain ⟨h, he⟩ := hans.rest
      rw [settle_pair, he, (follows_complete _ _ _ _).pair]
      unfold Chip.cancelEffect
      rw [show (argued r s.chip).pendOf x.no = none from hpend, hcode]
      rfl

end Sys2Proof.Machine
end

section
/-! The commands of the metering taps and the quantity engines (R59, R63, R88, R128, R130, R134). -/

namespace Sys2Proof.Machine

open Sys2Proof Sys2Proof.Claims

theorem fld_low {w : Nat} (v : BitVec w) (n : Nat) : fld v 0 n = v.toNat % 2 ^ n := by
  simp [fld]

theorem fld_low16 {w : Nat} (v : BitVec w) : fld v 0 16 = v.toNat % 65536 := by
  rw [fld_low]
  norm_num

section
variable {f : CmdReq → Instr} {x : CmdRow} {r : CmdReq} {s : State} {d : Chip} {a : Ans} {P : Chip → Prop}
  (hmem : (f, x) ∈ commandRows) (hs : Settled s) (ht : takes x r s.chip) (hfn : x.fn r (argued r s.chip) = (d, a))
include hmem hs ht hfn

/-- A command that leaves what settling follows completes with what it leaves of each block. -/
theorem completes_plain {bs : List Block} (hd : Eased (argued r s.chip) d) (hb : Block.masters ∈ bs ∧ Block.hint ∈ bs)
    (hh : Block.ferry ∈ bs ∨ ∀ q, d.holdOver q = true → s.chip.holdOver q = true) (hk : keepsBut bs (argued r s.chip) d)
    (hP : ∀ d', Answered r a d d' → keepsBut bs s.chip d' → P d') : completes (f r) s P :=
  completes_command (commandRows_exec _ hmem r s) hs (commandRows_blind _ hmem) ht hfn hd (fun d' hans hf =>
    hP d' hans (keepsBut_trans (keepsBut_trans (keepsBut_argued hb.1 r s.chip) hk)
      (hans.keepsBut hb.1 hb.2 (hh.imp_right hf))))

end

section
variable {r : CmdReq} {s : State} (hs : Settled s)
include hs

theorem completes_tapRefNow (ht : takes rowTapRefNow r s.chip) (hfull : s.chip.tixFull = false)
    (h4 : (s.chip.tap (r.a0.toNat % 128)).arb ≠ 4) (h6 : (s.chip.tap (r.a0.toNat % 128)).arb ≠ 6)
    (hoff : s.chip.tapMode (r.a0.toNat % 128) ≠ mOFF) (hb : (s.chip.tap (r.a0.toNat % 128)).refBusy = false)
    (h0 : (s.chip.tap (r.a0.toNat % 128)).roundTicket = 0) :
    completes (.tapRefNow r) s (fun d => pends r 0x0401 (r.a0.toNat % 128) s.chip d ∧
      d.tap (r.a0.toNat % 128) = { s.chip.tap (r.a0.toNat % 128) with
        roundTicket := s.chip.tix.next, roundDue := true, routine := false } ∧
      (∀ j, j ≠ r.a0.toNat % 128 → d.tap j = s.chip.tap j) ∧ keepsBut [.masters, .hint, .tix, .taps] s.chip d) := by
  have hn : fld r.a0 0 7 = r.a0.toNat % 128 := fld_low _ _
  rw [← hn] at h4 h6 hoff hb h0 ⊢
  have hfn : cmdTapRefNow r (argued r s.chip) = _ := (if_neg (not_or.mpr ⟨h4, h6⟩)).trans ((if_neg hoff).trans
    ((if_neg (not_or.mpr ⟨by rw [show ((argued r s.chip).tap _).refBusy = false from hb]; decide, not_not.mpr h0⟩)).trans
      (long_issued r 0x0401 (fld r.a0 0 7) s.chip hfull _)))
  refine completes_plain (f := .tapRefNow) (x := rowTapRefNow) (bs := [.masters, .hint, .tix, .taps]) (by simp [commandRows])
    hs ht hfn ((calm_issued _ _ _ _).trans (quiet_far _ _ _ _ _ _ _ _ _ _).calm).eased (by decide) (.inr fun _ => id) ?_
    (fun d' hans hk => ⟨hans.pends rfl, ?_, fun j hj => ?_, hk⟩)
  · exact keepsBut_trans (keepsBut_tix (by decide) _) (keepsBut_taps (by decide) _)
  · exact (hans.same (fun d => d.tap _)).trans ((modTap_tap ..).trans (if_pos rfl))
  · exact (hans.same (fun d => d.tap j)).trans ((modTap_tap ..).trans (if_neg hj))

theorem completes_tapGlitchClr (ht : takes rowTapGlitchClr r s.chip) :
    completes (.tapGlitchClr r) s (fun d => acked r 0 0 d ∧
      d.tap (r.a0.toNat % 128) = { s.chip.tap (r.a0.toNat % 128) with glitch := 0 } ∧
      (∀ j, j ≠ r.a0.toNat % 128 → d.tap j = s.chip.tap j) ∧ keepsBut [.masters, .hint, .taps] s.chip d) := by
  rw [← show fld r.a0 0 7 = r.a0.toNat % 128 from fld_low _ _]
  refine completes_plain (f := .tapGlitchClr) (x := rowTapGlitchClr) (bs := [.masters, .hint, .taps])
    (by simp [commandRows]) hs ht rfl (quiet_far _ _ _ _ _ _ _ _ _ _).calm.eased (by decide) (.inr fun _ => id)
    (keepsBut_taps (by decide) _) (fun d' hans hk => ⟨hans.acked, ?_, fun j hj => ?_, hk⟩)
  · exact (hans.same (fun d => d.tap _)).trans ((modTap_tap ..).trans (if_pos rfl))
  · exact (hans.same (fun d => d.tap j)).trans ((modTap_tap ..).trans (if_neg hj))

/-- What TAP_CHAIN_RESET tells the tap's engine. -/
def chainReset (r : CmdReq) (c : Chip) : CtxEv :=
  { stamp := c.nextSample (fld r.a0 0 7 / 16), src := 3, change := .chainReset (fld r.a0 0 7) }

/-- The change that TAP_CHAIN_RESET leaves to its instant. -/
def chainPend (r : CmdReq) (c : Chip) : PendCommit :=
  { kind := 0x100, arg := fld r.a0 0 7, stamp := some (c.nextSample (fld r.a0 0 7 / 16))
    engines := BitVec.ofNat 8 (2 ^ (fld r.a0 0 7 / 16)) }

omit hs in
theorem completes_tapChainReset (ht : takes rowTapChainReset r s.chip) (hrole : (s.chip.master r.m.val).role = 4)
    (hlsw : s.chip.tamper.lsw = true) (hoff : s.chip.tapMode (r.a0.toNat % 128) ≠ mOFF)
    (h1 : (s.chip.tap (r.a0.toNat % 128)).arb ≠ 1) :
    completes (.tapChainReset r) s (fun d => acked r 0 0 d ∧ d.taps = s.chip.taps ∧
      { kind := 0x100, arg := r.a0.toNat % 128, stamp := some (s.chip.nextSample (r.a0.toNat % 128 / 16))
        engines := BitVec.ofNat 8 (2 ^ (r.a0.toNat % 128 / 16)) : PendCommit } ∈ d.cfg.pend) := by
  rw [← show fld r.a0 0 7 = r.a0.toNat % 128 from fld_low _ _] at hoff h1 ⊢
  have hfn : cmdTapChainReset r (argued r s.chip) = _ := (if_neg (by rw [argued_role, hrole]; decide)).trans
    ((if_neg (by rw [argued_tamper, hlsw]; decide)).trans ((if_neg hoff).trans (if_neg h1)))
  have hc := carried_toEngine (fld r.a0 0 7 / 16) (chainReset r s.chip) (argued r s.chip)
  have ht' : (Chip.toEngine (fld r.a0 0 7 / 16) (chainReset r s.chip) (argued r s.chip)).taps = s.chip.taps := hc.follows.taps
  change cmdTapChainReset r (argued r s.chip) = ((Chip.toEngine (fld r.a0 0 7 / 16) (chainReset r s.chip)
    (argued r s.chip)).modCfg (fun g => { g with pend := g.pend ++ [chainPend r s.chip] }), {}) at hfn
  generalize Chip.toEngine _ _ _ = z at hc hfn ht'
  refine completes_acknowledged (x := rowTapChainReset) rfl ⟨fun _ _ => rfl, fun _ _ => rfl⟩ ht hfn (fun e hans _ => ?_)
  refine ⟨settle_acked _ _ hans.acked, ?_, settle_waits ?_ rfl (Option.some_ne_none _)⟩
  · exact (settle_taps _ _).trans ((hans.same Chip.taps).trans ht')
  · rw [hans.same (fun d => d.cfg.pend)]
    exact List.mem_append_right _ (List.mem_singleton.mpr rfl)

/-- An engine's counters set to zero. -/
def Engine.uncounted (q : Engine) : Engine :=
  { q with
    stallCnt := 0, stallMax := 0, ssCtx := 0, ssLock := 0, forced := 0, lateCnt := 0, gateSkip := 0, inPlace := 0, cycMax := 0 }

theorem completes_qeCntClr (ht : takes rowQeCntClr r s.chip) :
    completes (.qeCntClr r) s (fun d => acked r 0 0 d ∧
      d.eng (r.a0.toNat % 8) = (s.chip.eng (r.a0.toNat % 8)).uncounted ∧
      (∀ j, j ≠ r.a0.toNat % 8 → d.eng j = s.chip.eng j) ∧ keepsBut [.masters, .hint, .engs] s.chip d) := by
  rw [← show fld r.a0 0 3 = r.a0.toNat % 8 from fld_low _ _]
  refine completes_plain (f := .qeCntClr) (x := rowQeCntClr) (bs := [.masters, .hint, .engs])
    (by simp [commandRows]) hs ht rfl (calm_modEng ⟨rfl, rfl, rfl⟩).eased (by decide) (.inr fun _ => id)
    (keepsBut_engs (by decide) _) (fun d' hans hk => ⟨hans.acked, ?_, fun j hj => ?_, hk⟩)
  · exact (hans.same (fun d => d.eng _)).trans ((modEng_eng ..).trans (if_pos rfl))
  · exact (hans.same (fun d => d.eng j)).trans ((modEng_eng ..).trans (if_neg hj))

/-- An engine taken into RESTART by its ticket. -/
def Engine.restarting (t : W16) (q : Engine) : Engine :=
  { q with run := 5, reloaded := false, restarts := [], resume := true, stoppedRun := q.run, restartTicket := t }

theorem completes_qeRestart (ht : takes rowQeRestart r s.chip) (hfull : s.chip.tixFull = false)
    (hrun : (s.chip.eng (r.a0.toNat % 8)).run = 6 ∨ (s.chip.eng (r.a0.toNat % 8)).run = 7) :
    completes (.qeRestart r) s (fun d => pends r 0x0501 (r.a0.toNat % 8) s.chip d ∧
      d.eng (r.a0.toNat % 8) = (s.chip.eng (r.a0.toNat % 8)).restarting s.chip.tix.next ∧
      (∀ j, j ≠ r.a0.toNat % 8 → d.eng j = s.chip.eng j) ∧ keepsBut [.masters, .hint, .tix, .engs] s.chip d) := by
  rw [← show fld r.a0 0 3 = r.a0.toNat % 8 from fld_low _ _] at hrun ⊢
  have hstand : SameStand (s.chip.eng (fld r.a0 0 3)) ((s.chip.eng (fld r.a0 0 3)).restarting s.chip.tix.next) := by
    refine ⟨?_, ?_, rfl⟩
    · rcases hrun with h | h <;> rw [h] <;> simp [Engine.restarting, ruUNLOADED]
    · rcases hrun with h | h <;> simp [Engine.logs, Engine.restarting, h, ruHALTED, ruFAILED, ruRESTART]
  have hfn : cmdQeRestart r (argued r s.chip) = _ := (if_neg (by
    rintro ⟨h6, h7⟩
    exact hrun.elim h6 h7)).trans (long_issued r 0x0501 (fld r.a0 0 3) s.chip hfull _)
  refine completes_plain (f := .qeRestart) (x := rowQeRestart) (bs := [.masters, .hint, .tix, .engs])
    (by simp [commandRows]) hs ht hfn ((calm_issued _ _ _ _).trans (calm_modEng hstand)).eased (by decide) (.inr fun _ => id)
    (keepsBut_trans (keepsBut_tix (by decide) _) (keepsBut_engs (by decide) _))
    (fun d' hans hk => ⟨hans.pends rfl, ?_, fun j hj => ?_, hk⟩)
  · exact (hans.same (fun d => d.eng _)).trans ((modEng_eng ..).trans (if_pos rfl))
  · exact (hans.same (fun d => d.eng j)).trans ((modEng_eng ..).trans (if_neg hj))

theorem completes_qeTrace (ht : takes rowQeTrace r s.chip) (ho : (s.chip.fq 7).owner = some r.m.val) :
    completes (.qeTrace r) s (fun d => acked r 0 0 d ∧
      d.eng (r.a0.toNat % 8) = { s.chip.eng (r.a0.toNat % 8) with traceOn := r.a1.getLsbD 0 } ∧
      keepsBut [.masters, .hint, .engs] s.chip d) := by
  rw [← show fld r.a0 0 3 = r.a0.toNat % 8 from fld_low _ _]
  have hfn : cmdQeTrace r (argued r s.chip) = _ := if_neg (not_not.mpr ho)
  refine completes_plain (f := .qeTrace) (x := rowQeTrace) (bs := [.masters, .hint, .engs])
    (by simp [commandRows]) hs ht hfn (calm_modEng ⟨rfl, rfl, rfl⟩).eased (by decide) (.inr fun _ => id)
    (keepsBut_engs (by decide) _) (fun d' hans hk => ⟨hans.acked, ?_, hk⟩)
  exact (hans.same (fun d => d.eng _)).trans ((modEng_eng ..).trans (if_pos rfl))

theorem completes_qeTapRecord (ht : takes rowQeTapRecord r s.chip) (hfull : s.chip.tixFull = false)
    (h1 : 1 ≤ ((List.range 16).filter (fun j => r.a1.getLsbD j)).length)
    (h4 : ((List.range 16).filter (fun j => r.a1.getLsbD j)).length ≤ 4) (h0 : 0 < r.a2.toNat) (h6 : r.a2.toNat ≤ 600000)
    (hrun : (s.chip.eng (r.a0.toNat % 8)).run = 2) (ho : (s.chip.fq 7).owner = some r.m.val)
    (hm : (s.chip.eng (r.a0.toNat % 8)).recMask = 0) :
    completes (.qeTapRecord r) s (fun d => pends r 0x0506 (r.a0.toNat % 8) s.chip d ∧
      d.eng (r.a0.toNat % 8) = { s.chip.eng (r.a0.toNat % 8) with
        recMask := BitVec.ofNat 16 r.a1.toNat, recTicket := s.chip.tix.next, recDrop := 0 } ∧
      keepsBut [.masters, .hint, .tix, .engs] s.chip d) := by
  rw [← show fld r.a0 0 3 = r.a0.toNat % 8 from fld_low _ _] at hrun hm ⊢
  have hbits : (List.range 16).filter (fun i => (BitVec.ofNat 16 r.a1.toNat).getLsbD i) =
      (List.range 16).filter (fun j => r.a1.getLsbD j) := List.filter_congr (fun j hj => by
    rw [BitVec.getLsbD_ofNat, BitVec.getLsbD]
    simp [List.mem_range.mp hj])
  have hfn : cmdQeTapRecord r (argued r s.chip) = _ := (if_neg (by
    rw [hbits]
    rintro (h | h | h | h | h)
    · omega
    · omega
    · rw [h] at h0
      exact absurd h0 (by decide)
    · omega
    · exact h hrun)).trans ((if_neg (not_not.mpr ho)).trans ((if_neg (not_not.mpr hm)).trans
      (long_issued r 0x0506 (fld r.a0 0 3) s.chip hfull _)))
  refine completes_plain (f := .qeTapRecord) (x := rowQeTapRecord) (bs := [.masters, .hint, .tix, .engs])
    (by simp [commandRows]) hs ht hfn ((calm_issued _ _ _ _).trans (calm_modEng ⟨rfl, rfl, rfl⟩)).eased (by decide) (.inr fun _ => id)
    (keepsBut_trans (keepsBut_tix (by decide) _) (keepsBut_engs (by decide) _))
    (fun d' hans hk => ⟨hans.pends rfl, ?_, hk⟩)
  exact (hans.same (fun d => d.eng _)).trans ((modEng_eng ..).trans (if_pos rfl))

/-! ### Tally images -/

omit hs in
theorem calm_imgRecord (i : Nat) (x : TallyImg) (c : Chip) : Calm c (c.imgRecord i x) :=
  (calm_recordLegal _ _ _ _ c).trans (calm_stageAt _ _ _ _ _ _ _)

omit hs in
theorem img_of_lib {c d : Chip} (h : d.lib = c.lib) (j : Nat) : d.img j = c.img j := by
  unfold Chip.img
  rw [h]

omit hs in
/-- Putting an image that no engine names restarts none. -/
theorem imgPut_unnamed {i : Nat} {b : List W8} {c : Chip} (h : engs8.any (c.namesImg i) = false) :
    c.imgPut i b = ((c.modImg i (fun _ => imgOf b)).imgRecord i (imgOf b), stOK) := by
  have hrec : engs8.filter (fun k => c.namesImg i k && c.stoppedBad k) = [] :=
    List.filter_eq_nil_iff.mpr (fun k hk hb => by
      rw [List.any_eq_false] at h
      exact h k hk (Bool.and_eq_true_iff.mp hb).1)
  unfold Chip.imgPut
  rw [hrec]
  rfl

omit hs in
/-- A gate that is open has found no engine that names the image and runs. -/
theorem unnamed_of_gate {m i : Nat} {c : Chip} (h : c.imgGate m i = none) (hr : c.imgRecovery i = false) :
    engs8.any (c.namesImg i) = false := by
  unfold Chip.imgGate at h
  split at h
  · cases h
  · split at h
    · cases h
    · split at h
      · cases h
      · split at h
        · cases h
        · next hl =>
          unfold Chip.imgLocked at hl
          rw [hr] at hl
          simp only [Bool.not_false, Bool.true_and, Bool.or_eq_true, not_or, Bool.not_eq_true] at hl
          exact hl.1

omit hs in
theorem imgGate_argued (m i : Nat) : (argued r s.chip).imgGate m i = s.chip.imgGate m i := by
  unfold Chip.imgGate
  rw [argued_role]
  rfl

omit hs in
theorem recorded_imgRecord (i : Nat) (x : TallyImg) (c : Chip) : Recorded c (c.imgRecord i x) :=
  (recorded_recordLegal _ _ _ _ c).trans (recorded_stage _ _ _ _ _)

omit hs in
theorem imgRecord_legalCnt (i : Nat) (x : TallyImg) (c : Chip) :
    (c.imgRecord i x).evt.legalCnt = satInc c.evt.legalCnt := by
  unfold Chip.imgRecord Chip.stage
  rw [(rung_stageAt [] _ _ _ _ _ _ _).legal, recordLegal_legalCnt]

theorem completes_qeImgRemove (ht : takes rowQeImgRemove r s.chip) (hg : s.chip.imgGate r.m.val r.a0.toNat = none)
    (hi : (s.chip.img r.a0.toNat).installed = true) :
    completes (.qeImgRemove r) s (fun d => acked r 0 0 d ∧ d.img r.a0.toNat = {} ∧
      (∀ j, j ≠ r.a0.toNat → d.img j = s.chip.img j) ∧ d.evt.legalCnt = satInc s.chip.evt.legalCnt ∧
      keepsBut [.masters, .hint, .lib, .evt, .ferry, .tamper, .ledger] s.chip d) := by
  have hfn : cmdQeImgRemove r (argued r s.chip) = (((argued r s.chip).modImg r.a0.toNat (fun _ => {})).imgRecord
      r.a0.toNat (s.chip.img r.a0.toNat), {}) := by
    unfold cmdQeImgRemove
    dsimp only
    rw [imgGate_argued, hg]
    exact if_neg (by rw [show (argued r s.chip).img r.a0.toNat = s.chip.img r.a0.toNat from rfl, hi]; decide)
  have hrec := recorded_imgRecord r.a0.toNat (s.chip.img r.a0.toNat) ((argued r s.chip).modImg r.a0.toNat (fun _ => {}))
  refine completes_plain (f := .qeImgRemove) (x := rowQeImgRemove)
    (bs := [.masters, .hint, .lib, .evt, .ferry, .tamper, .ledger]) (by simp [commandRows]) hs ht hfn
    (Calm.eased ((calm_far _ _ _ _ _ _ _ _ _ _ _ _ _ _).trans (calm_imgRecord _ _ _))) (by decide) (.inl (by decide))
    (keepsBut_trans (keepsBut_lib (by decide) _) (hrec.keepsBut (by decide)))
    (fun d' hans hk => ⟨hans.acked, ?_, fun j hj => ?_, ?_, hk⟩)
  · refine (hans.same (fun d => d.img _)).trans ?_
    exact (img_of_lib hrec.lib _).trans ((modImg_img ..).trans (if_pos rfl))
  · refine (hans.same (fun d => d.img j)).trans ?_
    exact (img_of_lib hrec.lib j).trans ((modImg_img ..).trans (if_neg hj))
  · exact (hans.same (fun d => d.evt.legalCnt)).trans (imgRecord_legalCnt _ _ _)

theorem completes_qeImgInstall {st : Staging} (ht : takes rowQeImgInstall r s.chip) (hfull : s.chip.tixFull = false)
    (hg : s.chip.imgGate r.m.val r.a0.toNat = none) (hst : s.chip.stagedImg 2 (r.a1.toNat % 65536) = some st)
    (hok : imgRefusal tallyOk st.plain = none) (hr : s.chip.imgRecovery r.a0.toNat = false) :
    completes (.qeImgInstall r) s (fun d => acked r 0x01 s.chip.tix.next d ∧ d.img r.a0.toNat = imgOf st.plain ∧
      (∀ j, j ≠ r.a0.toNat → d.img j = s.chip.img j) ∧ d.evt.legalCnt = satInc s.chip.evt.legalCnt ∧
      d.engs = s.chip.engs) := by
  let e := (issued r 0x0504 r.a0.toNat s.chip).dropStaging st.ticket
  have hput : e.imgPut r.a0.toNat st.plain = ((e.modImg r.a0.toNat (fun _ => imgOf st.plain)).imgRecord r.a0.toNat
      (imgOf st.plain), stOK) := imgPut_unnamed (show engs8.any (s.chip.namesImg r.a0.toNat) = false from unnamed_of_gate hg hr)
  have hfn : cmdQeImgInstall r (argued r s.chip) = (((e.modImg r.a0.toNat (fun _ => imgOf st.plain)).imgRecord r.a0.toNat
      (imgOf st.plain)).complete s.chip.tix.next stOK 0, { st := stPENDING, ticket := s.chip.tix.next }) := by
    unfold cmdQeImgInstall
    dsimp only
    rw [imgGate_argued, hg, fld_low, show (argued r s.chip).stagedImg 2 (r.a1.toNat % 2 ^ 16) = some st from hst]
    dsimp only
    rw [hok]
    dsimp only
    rw [long_issued _ _ _ _ hfull, hput]
  have hrec := recorded_imgRecord r.a0.toNat (imgOf st.plain) (e.modImg r.a0.toNat (fun _ => imgOf st.plain))
  have hcal : Calm (argued r s.chip) (e.modImg r.a0.toNat (fun _ => imgOf st.plain)) :=
    (calm_issued r 0x0504 r.a0.toNat s.chip).trans (calm_far _ _ _ _ _ _ _ _ _ _ _ _ _ _)
  have hcmp := keepsBut_complete (bs := [.masters, .tix, .evt, .ferry, .hint]) (fun _ h => h) s.chip.tix.next stOK 0
    ((e.modImg r.a0.toNat (fun _ => imgOf st.plain)).imgRecord r.a0.toNat (imgOf st.plain))
  have hleg := (rung_complete (l := [0x0901, 0x0A01, 0x0A02]) (fun _ h => h) s.chip.tix.next stOK 0
    ((e.modImg r.a0.toNat (fun _ => imgOf st.plain)).imgRecord r.a0.toNat (imgOf st.plain))).legal
  refine completes_command (x := rowQeImgInstall) rfl hs ⟨fun _ _ => rfl, fun _ _ => rfl⟩ ht hfn
    (Calm.eased (hcal.trans ((calm_imgRecord _ _ _).trans (calm_complete _ _ _ _))))
    (fun d' hans _ => ⟨hans.acked, ?_, fun j hj => ?_, ?_, ?_⟩)
  · refine (hans.same (fun d => d.img _)).trans ?_
    exact (img_of_lib ((hcmp .lib (by decide)).trans hrec.lib) _).trans ((modImg_img ..).trans (if_pos rfl))
  · refine (hans.same (fun d => d.img j)).trans ?_
    exact (img_of_lib ((hcmp .lib (by decide)).trans hrec.lib) j).trans ((modImg_img ..).trans (if_neg hj))
  · exact (hans.same (fun d => d.evt.legalCnt)).trans (hleg.trans (imgRecord_legalCnt _ _ _))
  · refine (hans.same Chip.engs).trans ?_
    exact Eq.trans (hcmp .engs (by decide)) hrec.engs

end

/-- Settles O29: the commands of the metering taps and the quantity engines. -/
theorem tapAndEngineCommands : Obligations.TapAndEngineCommands := by
  unfold Obligations.TapAndEngineCommands
  intro r st s hs
  exact ⟨completes_tapRefNow hs, completes_tapChainReset, completes_tapGlitchClr hs, completes_qeRestart hs,
    completes_qeCntClr hs, completes_qeTrace hs, completes_qeTapRecord hs, completes_qeImgInstall hs,
    completes_qeImgRemove hs⟩

end Sys2Proof.Machine
end

section
/-! The commands of the event log, the ledger, the ferry queues and the display (R216, R220, R227, R233, R243). -/

namespace Sys2Proof.Machine

open Sys2Proof Sys2Proof.Claims

/-! ### Packets sent in a row -/

theorem noted_sends {α : Type} (q : Nat) (g : α → List W32) (l : List α) (c : Chip) :
    Noted c (each l (fun x c => c.fqPut q (g x)) c) := by
  induction l generalizing c with
  | nil => exact Noted.refl c
  | cons x l ih => exact (noted_fqPut q (g x) c).trans (ih _)

theorem calm_sends {α : Type} {q : Nat} (hq : q ≠ 5) (g : α → List W32) (l : List α) (c : Chip) :
    Calm c (each l (fun x c => c.fqPut q (g x)) c) := calm_each (fun _ c => calm_fqPut hq _ c) l c

/-- The ticket that a long operation has taken is outstanding. -/
theorem issued_ticketOut {r : CmdReq} {code arg : Nat} {c d : Chip} (h : d.tix = (issued r code arg c).tix) :
    ∃ x, d.ticketOut c.tix.next = some x := by
  rw [← Option.isSome_iff_exists]
  unfold Chip.ticketOut
  rw [h, issued_tix, List.find?_isSome]
  exact ⟨ticketOf r code arg c, List.mem_append_right _ List.mem_cons_self, beq_self_eq_true c.tix.next⟩

/-- An operation that ends in its command's own step shows its status. -/
theorem complete_done {r : CmdReq} {code arg : Nat} {c d : Chip} (h : d.tix = (issued r code arg c).tix) (st : W8) (res : W32) :
    (d.complete c.tix.next st res).tix.done.head? = some (c.tix.next, st) := by
  obtain ⟨x, hx⟩ := issued_ticketOut h
  obtain ⟨ma, e, f, g, -, he⟩ := complete_facts hx st res
  rw [he]
  rfl

/-! ### The commands -/

section
variable {r : CmdReq} {s : State} (hs : Settled s)
include hs

/-- A command that sends packets and completes in its own step. -/
theorem completes_sends {α : Type} {f : CmdReq → Instr} {x : CmdRow} {code arg : Nat} {q : Nat} (hq : q ≠ 5)
    {g : α → List W32} {l : List α} {res : W32} (hmem : (f, x) ∈ commandRows) (ht : takes x r s.chip)
    (hfn : x.fn r (argued r s.chip) = ((each l (fun y c => c.fqPut q (g y)) (issued r code arg s.chip)).complete
      s.chip.tix.next stOK res, { st := stPENDING, ticket := s.chip.tix.next })) :
    completes (f r) s (fun d => acked r 0x01 s.chip.tix.next d ∧ d.tix.done.head? = some (s.chip.tix.next, 0) ∧
      keepsBut [.masters, .tix, .hint, .evt, .ferry] s.chip d) := by
  have hn := noted_sends q g l (issued r code arg s.chip)
  refine completes_plain (bs := [.masters, .tix, .hint, .evt, .ferry]) hmem hs ht hfn
    (Calm.eased ((calm_issued r code arg s.chip).trans ((calm_sends hq g l _).trans (calm_complete _ _ _ _))))
    (by decide) (.inl (by decide))
    (keepsBut_trans (keepsBut_trans (keepsBut_tix (by decide) _) (hn.keepsBut (by decide)))
      (keepsBut_complete (by decide) _ _ _ _)) (fun d' hans hk => ⟨hans.acked, ?_, hk⟩)
  exact (hans.same (fun d => d.tix.done.head?)).trans (complete_done hn.tix _ _)

theorem completes_evtRead (ht : takes rowEvtRead r s.chip) (hfull : s.chip.tixFull = false) (h0 : 0 < r.a2.toNat)
    (h1 : r.a2.toNat < 65536) (ho : (s.chip.fq 3).owner = some r.m.val) :
    completes (.evtRead r) s (fun d => acked r 0x01 s.chip.tix.next d ∧ d.tix.done.head? = some (s.chip.tix.next, 0) ∧
      keepsBut [.masters, .tix, .hint, .evt, .ferry] s.chip d) := by
  have hz : r.a2 ≠ 0 := by
    rintro h
    simp [h] at h0
  obtain ⟨n, hn⟩ : ∃ n, r.a1.toNat * 2 ^ 32 + r.a0.toNat = n := ⟨_, rfl⟩
  let l := ((s.chip.evt.archive.reverse ++ (s.chip.evt.log.take s.chip.evt.unarch).reverse).filter
    (fun x => decide (n ≤ x.six))).take r.a2.toNat
  refine completes_sends (f := .evtRead) (x := rowEvtRead) (code := 0x0901) (arg := 0) (q := 3) (g := EvtEntry.pkt) (l := l)
    (res := w32 l.length) hs (by decide) (by simp [commandRows]) ht ?_
  show cmdEvtRead r _ = _
  unfold cmdEvtRead
  rw [hn]
  exact (if_neg (by omega)).trans ((if_neg (not_not.mpr ho)).trans ((if_neg hz).trans (long_issued _ _ _ _ hfull _)))

theorem completes_ledgerRead {n : Nat} (hn : r.a1.toNat * 2 ^ 32 + r.a0.toNat = n) (ht : takes rowLedgerRead r s.chip)
    (hfull : s.chip.tixFull = false) (h0 : 0 < r.a2.toNat) (h1 : r.a2.toNat ≤ 4096) (ho : (s.chip.fq 1).owner = some r.m.val)
    (hstart : s.chip.ledger.seq.toNat ≤ n ∨ s.chip.ledger.recs.any (fun x => x.seq.toNat == n) = true) :
    completes (.ledgerRead r) s (fun d => acked r 0x01 s.chip.tix.next d ∧ d.tix.done.head? = some (s.chip.tix.next, 0) ∧
      keepsBut [.masters, .tix, .hint, .evt, .ferry] s.chip d) := by
  have hz : r.a2 ≠ 0 := by
    rintro h
    simp [h] at h0
  have hst : ¬ (n < s.chip.ledger.seq.toNat ∧ ¬ s.chip.ledger.recs.any (fun x => x.seq.toNat == n) = true) :=
    fun h => hstart.elim (fun hl => absurd h.1 (Nat.not_lt.mpr hl)) h.2
  let l := (s.chip.ledger.recs.reverse.filter (fun x => decide (n ≤ x.seq.toNat))).take r.a2.toNat
  refine completes_sends (f := .ledgerRead) (x := rowLedgerRead) (code := 0x0903) (arg := 0) (q := 1) (g := fun p => p)
    (l := l.flatMap s.chip.ledgerPkts) (res := w32 l.length) hs (by decide) (by simp [commandRows]) ht ?_
  show cmdLedgerRead r _ = _
  unfold cmdLedgerRead
  rw [hn]
  exact (if_neg (Nat.not_lt.mpr h1)).trans ((if_neg (not_not.mpr ho)).trans ((if_neg hz).trans ((if_neg hst).trans
    (long_issued _ _ _ _ hfull _))))

omit hs in
/-- No event has the code that names them all. -/
theorem evtCodes_lt : ∀ x ∈ evtCodes, x < 0xFFFF := by decide

theorem completes_evtCntClr (ht : takes rowEvtCntClr r s.chip) (hcode : evtCodes.contains (r.a0.toNat % 65536) = true) :
    completes (.evtCntClr r) s (fun d =>
      acked r 0 0 d ∧ (∀ j, Tbl.get ({} : EvtSrc) d.evt.src j = if j = r.a0.toNat % 65536 then
        { held := (Tbl.get ({} : EvtSrc) s.chip.evt.src j).held } else Tbl.get {} s.chip.evt.src j) ∧
      d.evt.log = s.chip.evt.log ∧ keepsBut [.masters, .hint, .evt] s.chip d) := by
  have hne : r.a0.toNat % 65536 ≠ 0xFFFF :=
    fun h => absurd (evtCodes_lt _ (List.contains_iff_mem.mp hcode)) (by rw [h]; exact Nat.lt_irrefl _)
  rw [← fld_low16 r.a0] at hne hcode ⊢
  have hfn : cmdEvtCntClr r (argued r s.chip) = _ := (if_neg hne).trans (if_pos hcode)
  refine completes_plain (f := .evtCntClr) (x := rowEvtCntClr) (bs := [.masters, .hint, .evt]) (by simp [commandRows]) hs ht
    hfn (Calm.eased ⟨rfl, rfl, rfl, rfl, rfl, rfl, rfl, fun _ => rfl, fun _ => rfl, fun _ => rfl, fun _ => rfl, rfl, rfl⟩)
    (by decide) (.inr fun _ => id) (keepsBut_evt (by decide) _)
    (fun d' hans hk => ⟨hans.acked, fun j => ?_, hans.same (fun d => d.evt.log), hk⟩)
  rw [hans.same (fun d => Tbl.get ({} : EvtSrc) d.evt.src j)]
  refine (Tbl.get_put ..).trans ?_
  split
  · subst j
    rfl
  · rfl

theorem completes_ledgerAck {n : Nat} (hn : r.a1.toNat * 2 ^ 32 + r.a0.toNat = n) (ht : takes rowLedgerAck r s.chip)
    (h1 : n < s.chip.ledger.seq.toNat) (h2 : ∀ a, s.chip.ledger.acked = some a → a ≤ n) :
    completes (.ledgerAck r) s (fun d => acked r 0 0 d ∧
      d.ledger = { s.chip.ledger with acked := some n, wrapRaised := false } ∧
      keepsBut [.masters, .hint, .ledger] s.chip d) := by
  have hack : ¬ s.chip.ledger.acked.any (fun a => decide (n < a)) = true := by
    cases h : s.chip.ledger.acked with
    | none => simp
    | some a => simpa using h2 a h
  have hfn : cmdLedgerAck r (argued r s.chip) =
      ((argued r s.chip).modLedger (fun l => { l with acked := some n, wrapRaised := false }), {}) := by
    unfold cmdLedgerAck
    rw [hn]
    exact (if_neg (Nat.not_le.mpr h1)).trans (if_neg hack)
  exact completes_plain (f := .ledgerAck) (x := rowLedgerAck) (bs := [.masters, .hint, .ledger]) (by simp [commandRows]) hs
    ht hfn (Calm.eased (calm_far _ _ _ _ _ _ _ _ _ _ _ _ _ _)) (by decide) (.inr fun _ => id) (keepsBut_ledger (by decide) _)
    (fun d' hans hk => ⟨hans.acked, hans.same Chip.ledger, hk⟩)

omit hs in
/-- A hold is over by the mark, the buffer and the owner of its queue, the ring and the bay's packet. -/
theorem holdOver_same {c d : Chip} (hf : ∀ j, (d.fq j).stalled = (c.fq j).stalled ∧ (d.fq j).holdBuf = (c.fq j).holdBuf ∧
    (d.fq j).owner = (c.fq j).owner) (hr : d.evt.ring = c.evt.ring) (hb : d.bay.signal = c.bay.signal) (q : Nat) :
    d.holdOver q = c.holdOver q := by
  unfold Chip.holdOver Chip.holds Chip.ringHolds
  rw [(hf q).1, (hf q).2.1, (hf 3).2.2, hr, hb]

theorem completes_ferryTest (ht : takes rowFerryTest r s.chip) (hfull : s.chip.tixFull = false)
    (hheld : (s.chip.fq (r.a0.toNat % 8)).held = 0) (htest : (s.chip.fq (r.a0.toNat % 8)).testing = false) :
    completes (.ferryTest r) s (fun d => pends r 0x0A01 (r.a0.toNat % 8) s.chip d ∧
      d.fq (r.a0.toNat % 8) = { s.chip.fq (r.a0.toNat % 8) with testing := true } ∧
      (∀ j, j ≠ r.a0.toNat % 8 → d.fq j = s.chip.fq j) ∧ keepsBut [.masters, .hint, .tix, .ferry] s.chip d) := by
  rw [← show fld r.a0 0 3 = r.a0.toNat % 8 from fld_low _ _] at hheld htest ⊢
  have ho : (s.chip.fq (fld r.a0 0 3)).owner = some r.m.val := by
    have h := ht.2.2.2.2.1
    simp only [Chip.cmdAllowed, rowFerryTest, Bool.and_eq_true, beq_iff_eq] at h
    exact h.2
  have hfn : cmdFerryTest r (argued r s.chip) = _ := (if_neg (not_not.mpr ho)).trans
    ((if_neg (not_or.mpr ⟨not_not.mpr hheld, by rw [show ((argued r s.chip).fq _).testing = false from htest]; decide⟩)).trans
      (long_issued r 0x0A01 (fld r.a0 0 3) s.chip hfull _))
  have hcal : Calm (issued r 0x0A01 (fld r.a0 0 3) s.chip)
      ((issued r 0x0A01 (fld r.a0 0 3) s.chip).modFq (fld r.a0 0 3) (fun f => { f with testing := true })) :=
    (noted_modFq _ _ _).calm (by
      rw [modFq_fq]
      split
      · next h => rw [← h]
      · rfl)
  have hq : ∀ j, ((issued r 0x0A01 (fld r.a0 0 3) s.chip).modFq (fld r.a0 0 3) (fun f => { f with testing := true })).fq j =
      if j = fld r.a0 0 3 then { s.chip.fq (fld r.a0 0 3) with testing := true } else s.chip.fq j := fun j => modFq_fq ..
  refine completes_command (x := rowFerryTest) rfl hs ⟨fun _ _ => rfl, fun _ _ => rfl⟩ ht hfn
    ((calm_issued _ _ _ _).trans hcal).eased (fun d' hans hf => ?_)
  have hsame := hf (fun q h => by
    refine Eq.trans (Eq.symm ?_) h
    refine holdOver_same (fun j => ?_) (by rfl) (by rfl) q
    rw [hq]
    split
    · next hj =>
      rw [hj]
      exact ⟨rfl, rfl, rfl⟩
    · exact ⟨rfl, rfl, rfl⟩)
  have hdq : ∀ j, d'.fq j = _ := fun j => (show d'.fq j = Tbl.get ({} : Ferry) _ j by unfold Chip.fq; rw [hsame]).trans (hq j)
  refine ⟨hans.pends rfl, (hdq _).trans (if_pos rfl), fun j hj => (hdq j).trans (if_neg hj), ?_⟩
  exact keepsBut_trans (keepsBut_trans (keepsBut_issued _ _ _ _ (by decide) (by decide)) (keepsBut_ferry (by decide) _))
    (hans.keepsBut (by decide) (by decide) (.inl (by decide)))

theorem completes_dispTest (ht : takes rowDispTest r s.chip) : completes (.dispTest r) s (fun d => acked r 0 0 d ∧
    d.disp = { s.chip.disp with test := 1 } ∧ keepsBut [.masters, .hint, .disp] s.chip d) :=
  completes_plain (f := .dispTest) (x := rowDispTest) (bs := [.masters, .hint, .disp]) (by simp [commandRows]) hs
    ht rfl (Calm.eased (calm_far _ _ _ _ _ _ _ _ _ _ _ _ _ _)) (by decide) (.inr fun _ => id) (keepsBut_disp (by decide) _)
    (fun d' hans hk => ⟨hans.acked, hans.same Chip.disp, hk⟩)

end

/-- Settles O31: the commands of the event log, the ledger, the ferry queues and the display. -/
theorem recordCommands : Obligations.RecordCommands := by
  unfold Obligations.RecordCommands
  intro r s hs c start code q
  refine ⟨completes_evtRead hs, fun ht hcode => ?_, fun ht hfull h0 h1 ho hst => ?_, fun ht => completes_ledgerAck hs rfl ht,
    fun ht hfull hheld htest => ?_, completes_dispTest hs⟩
  · obtain ⟨t, ht, hp, hack, hsrc, hlog, hk⟩ := completes_evtCntClr hs ht hcode
    have hcl : Tbl.get ({} : EvtSrc) t.chip.evt.src code = { held := (Tbl.get ({} : EvtSrc) c.evt.src code).held } :=
      (hsrc code).trans (if_pos rfl)
    exact ⟨t, ht, hp, hack, by rw [hcl], by rw [hcl], by rw [hcl], by rw [hcl], fun j hj => (hsrc j).trans (if_neg hj), hlog, hk⟩
  · obtain ⟨t, ht, hp, hack, hdone, hk⟩ := completes_ledgerRead hs rfl ht hfull h0 h1 ho hst
    exact ⟨t, ht, hp, hack, hk .ledger (by decide), hdone⟩
  · obtain ⟨t, ht, hp, hpend, hq, ho, hk⟩ := completes_ferryTest hs ht hfull hheld htest
    exact ⟨t, ht, hp, hpend, hq, by rw [hq]; exact Bool.or_true _, ho, hk⟩

end Sys2Proof.Machine
end

section
/-! DRV_RECLAIM (R271, R279) and a spill pulse that waits for its drive (R155). -/

namespace Sys2Proof.Machine

open Sys2Proof Sys2Proof.Claims

/-- A module whose controller is lost, with one spill pulse that waits for drive 0. -/
def reclaimPulse : State where
  chip :=
    { ({} : Chip) with
      host := { ({} : Chip).host with enabled := true, vioOk := true }
      sys := { ({} : Chip).sys with ready := 0xFFFFF, dead := 0 }
      masters := [(0, { role := 3 })]
      cfg := { ({} : Chip).cfg with live := [(0x520C0, 0x80000080)] }
      bill := { ({} : Chip).bill with spill := [(0, { backlog := 1 })] }
      drv := { ({} : Chip).drv with d := [(0, { phase := 2 })] } }

theorem reclaimPulse_settled : Settled reclaimPulse := ⟨rfl, rfl, nofun⟩

theorem reclaimPulse_takes : takes rowDrvReclaim {} reclaimPulse.chip :=
  ⟨rfl, rfl, rfl, rfl, rfl, by decide⟩

set_option Elab.async false in
/-- Drive 0 is off, and on again behind the command, for the pulse. -/
theorem reclaimPulse_drive : reclaimPulse.chip.driveOn 0 = false ∧
    ((Chip.settle reclaimPulse.chip (reclaimPulse.chip.writeCode rowDrvReclaim {})).drive 0).cmd = true := by decide +kernel

/-- Refutes O32: DRV_RECLAIM frees a drive that was off for a spill pulse that waits, which turns it on in the same
step. -/
theorem not_bayAndDriveCommands : ¬ Obligations.BayAndDriveCommands := by
  unfold Obligations.BayAndDriveCommands
  intro h
  obtain ⟨-, -, -, -, -, -, hreclaim, -⟩ := h {} {} reclaimPulse reclaimPulse_settled
  obtain ⟨-, -, -, hdrives, -⟩ := of_completes (hreclaim reclaimPulse_takes rfl ⟨0, by decide⟩)
    (f := Chip.writeCode rowDrvReclaim {}) rfl
  obtain ⟨hoff, hon⟩ := reclaimPulse_drive
  rw [(hdrives 0 (by decide)).2, hoff] at hon
  exact Bool.false_ne_true hon

end Sys2Proof.Machine
end

section
/-! Legal changes that take effect (R39, R40) and a spill pulse that a change configures (R155). -/

namespace Sys2Proof.Machine

open Sys2Proof Sys2Proof.Claims

/-- A change of the meter points that is due and configures a pulse output on drive 0. -/
def pulseChange : PendCommit := { kind := 3, ticket := 7, stamp := some 0, words := [(0x520C0, 0x80000080)] }

/-- The change waits, a pulse of its output is owed, and drive 0 is under the commanded test of ticket 5. -/
def changePulse : State where
  chip :=
    { ({} : Chip) with
      sys := { ({} : Chip).sys with ready := 0xFFFFF, dead := 0 }
      tix := { ({} : Chip).tix with out := [{ no := 5 }, { no := 7 }] }
      cfg := { ({} : Chip).cfg with pend := [pulseChange] }
      bill := { ({} : Chip).bill with spill := [(0, { backlog := 1 })] }
      drv := { ({} : Chip).drv with d := [(0, { phase := 0, testing := 1, ticket := 5 })] } }

theorem changePulse_settled : Settled changePulse := ⟨rfl, rfl, nofun⟩

set_option Elab.async false in
/-- The pulse takes the drive in the same step, which aborts the test behind the change's own ticket. -/
theorem changePulse_done : (Chip.settle changePulse.chip changePulse.chip.legalApply).tix.done =
    [(5, stABORTED), (7, stOK)] := by decide +kernel

/-- Refutes O24: the ticket of a legal change that takes effect need not be the last to complete, for the change may
start a spill pulse, which aborts the test of its drive. -/
theorem not_configurationAccess : ¬ Obligations.ConfigurationAccess := by
  unfold Obligations.ConfigurationAccess
  rintro ⟨-, h⟩
  obtain ⟨-, -, heffect, -⟩ := h 0 0 0 0 pulseChange 0 [] changePulse changePulse_settled
  obtain ⟨-, -, -, -, -, hended⟩ := of_completes (heffect ⟨rfl, rfl, by decide, rfl⟩ rfl (by decide))
    (f := Chip.legalApply) rfl
  have hdone := hended rfl (by decide)
  rw [changePulse_done] at hdone
  exact absurd hdone (by decide)

end Sys2Proof.Machine
end

section
/-! The arbiter of a tap (R58, R59, R60-R65, R68): what each of its steps leaves of the tap itself, and that nothing
else follows from them. -/

namespace Sys2Proof.Machine

open Sys2Proof Sys2Proof.Claims

/-! ### Steps of one tap -/

/-- A step of tap `n`: no other tap changes, no block but `bs`, and nothing that settling follows. -/
structure TapStep (bs : List Block) (n : Nat) (c d : Chip) : Prop where
  calm : Calm c d
  other : ∀ j, j ≠ n → d.tap j = c.tap j
  frame : keepsBut bs c d

section
variable {bs : List Block} {n : Nat} {c : Chip}

theorem TapStep.refl (bs : List Block) (n : Nat) (c : Chip) : TapStep bs n c c :=
  ⟨Calm.refl c, fun _ _ => rfl, keepsBut_refl bs c⟩

theorem TapStep.trans {a b d : Chip} (h : TapStep bs n a b) (h' : TapStep bs n b d) : TapStep bs n a d :=
  ⟨h.calm.trans h'.calm, fun j hj => (h'.other j hj).trans (h.other j hj), keepsBut_trans h.frame h'.frame⟩

theorem TapStep.mono {bs' : List Block} {d : Chip} (h : TapStep bs n c d) (hs : ∀ b ∈ bs, b ∈ bs') : TapStep bs' n c d :=
  ⟨h.calm, h.other, keepsBut_mono h.frame hs⟩

theorem TapStep.queues {d : Chip} (h : TapStep bs n c d) (hf : Block.ferry ∈ bs) (f : Tbl Ferry) :
    keepsBut bs c { d with ferry := f } := keepsBut_trans h.frame (keepsBut_ferry hf f)

/-- Events and packets are of no tap. -/
theorem Noted.tap {d : Chip} (h : Noted c d) (j : Nat) : d.tap j = c.tap j := by
  obtain ⟨e, f, x, rfl⟩ := h
  rfl

theorem tap_of_taps {d : Chip} (h : d.taps = c.taps) (j : Nat) : d.tap j = c.tap j := by
  unfold Chip.tap
  rw [h]

theorem tapStep_modTap (hb : Block.taps ∈ bs) (g : Tap → Tap) : TapStep bs n c (c.modTap n g) :=
  ⟨calm_far _ _ _ _ _ _ _ _ _ _ _ _ _ _, fun j hj => by rw [modTap_tap, if_neg hj], keepsBut_taps hb _⟩

/-! Events of a tap -/

@[simp] theorem tapEvt_tap (code : W16) (m a0 a1 j : Nat) (c : Chip) : (c.tapEvt code m a0 a1).tap j = c.tap j :=
  (noted_raise _ _ _ _ _).tap j

theorem tapStep_tapEvt (hs : ∀ b ∈ noteBlocks, b ∈ bs) (code : W16) (m a0 a1 : Nat) :
    TapStep bs n c (c.tapEvt code m a0 a1) :=
  ⟨calm_raise _ _ _ _ _, fun j _ => tapEvt_tap code m a0 a1 j c, (noted_raise _ _ _ _ _).keepsBut hs⟩

/-! Rounds asked for -/

/-- A tap of which a round has been asked for (R60). -/
def Tap.asked (routine : Bool) (t : Tap) : Tap :=
  if t.refBusy then t
  else
    let t := { t with roundDue := true, routine := routine && (!t.roundDue || t.routine) }
    if t.winN = 0 then t.startRound else t

@[simp] theorem askRound_tap (routine : Bool) (c : Chip) : (c.askRound n routine).tap n = (c.tap n).asked routine := by
  unfold Chip.askRound Tap.asked
  dsimp only
  split
  · rfl
  · rw [modTap_tap, if_pos rfl]

theorem tapStep_askRound (hb : Block.taps ∈ bs) (routine : Bool) : TapStep bs n c (c.askRound n routine) := by
  unfold Chip.askRound
  dsimp only
  split
  · exact TapStep.refl bs n c
  · exact tapStep_modTap hb _

/-! Rounds that end -/

theorem complete_tap (t : W16) (st : W8) (res : W32) (c : Chip) (j : Nat) : (c.complete t st res).tap j = c.tap j :=
  tap_of_taps (keepsBut_complete (bs := [.masters, .tix, .evt, .ferry, .hint]) (fun _ h => h) t st res c .taps
    (by decide)) j

theorem tapStep_complete (hs : ∀ b ∈ [Block.masters, .tix, .evt, .ferry, .hint], b ∈ bs) (t : W16) (st : W8) (res : W32) :
    TapStep bs n c (c.complete t st res) :=
  ⟨calm_complete t st res c, fun j _ => complete_tap t st res c j, keepsBut_complete hs t st res c⟩

/-- The blocks that an arbiter's step may reach. -/
def arbBlocks : List Block := [.taps, .tix, .masters, .evt, .ferry, .hint]

/-- The blocks that an arbiter's step may reach where no round has a ticket. -/
def looseBlocks : List Block := [.taps, .evt, .ferry, .hint]

@[simp] theorem endRound_tap (st : W8) (c : Chip) : (c.endRound n st).tap n = { c.tap n with roundTicket := 0 } := by
  unfold Chip.endRound
  dsimp only
  split
  · next h => exact congrArg (fun t => { c.tap n with roundTicket := t }) h
  · rw [complete_tap, modTap_tap, if_pos rfl]

theorem endRound_idle (h : (c.tap n).roundTicket = 0) (st : W8) : c.endRound n st = c := if_pos h

theorem tapStep_endRound (st : W8) : TapStep arbBlocks n c (c.endRound n st) := by
  unfold Chip.endRound
  dsimp only
  split
  · exact TapStep.refl _ n c
  · exact (tapStep_modTap (by decide) _).trans (tapStep_complete (by decide) _ _ _)

/-- A tap whose arbiter enters a mode. -/
def Tap.entered (arb : BitVec 4) (t : Tap) : Tap :=
  if arb == 4 || arb == 6 then { t with arb := arb, refBusy := false, roundDue := false, roundTicket := 0 }
  else { t with arb := arb }

@[simp] theorem enterArb_tap (arb : BitVec 4) (c : Chip) : (c.enterArb n arb).tap n = (c.tap n).entered arb := by
  unfold Chip.enterArb Tap.entered
  dsimp only
  split
  · simp
  · simp

theorem tapStep_enterArb (arb : BitVec 4) : TapStep arbBlocks n c (c.enterArb n arb) := by
  unfold Chip.enterArb
  dsimp only
  split
  · exact (tapStep_modTap (by decide) _).trans ((tapStep_modTap (by decide) _).trans (tapStep_endRound _))
  · exact tapStep_modTap (by decide) _

/-- With no ticket of a round the arbiter completes none. -/
theorem tapStep_enterArb_loose (h : (c.tap n).roundTicket = 0) (arb : BitVec 4) :
    TapStep looseBlocks n c (c.enterArb n arb) := by
  unfold Chip.enterArb
  dsimp only
  split
  · rw [endRound_idle (by simpa using h)]
    exact (tapStep_modTap (by decide) _).trans (tapStep_modTap (by decide) _)
  · exact tapStep_modTap (by decide) _

@[simp] theorem tapFail_tap (c : Chip) : (c.tapFail n).tap n = (c.tap n).entered 6 := by simp [Chip.tapFail]

theorem tapStep_tapFail : TapStep arbBlocks n c (c.tapFail n) :=
  (tapStep_enterArb 6).trans (tapStep_tapEvt (by decide) _ _ _ _)

theorem tapStep_tapFail_loose (h : (c.tap n).roundTicket = 0) : TapStep looseBlocks n c (c.tapFail n) :=
  (tapStep_enterArb_loose h 6).trans (tapStep_tapEvt (by decide) _ _ _ _)

/-! Tamper records of a tap -/

theorem calm_tamperNote (ty unit six : Nat) (start : Bool) (x : List W8) (c : Chip) :
    Calm c (c.tamperNote ty unit six start x) :=
  (calm_raiseAt _ _ _ _ _ _).trans (calm_stageAt _ _ _ _ _ _ _)

theorem calm_tamperStart {ty : Nat} (h : ty ≠ 23) (unit six : Nat) (c : Chip) : Calm c (c.tamperStart ty unit six) :=
  calm_ite (Calm.refl c) ((calm_modTrec h _ c).trans (calm_tamperNote _ _ _ _ _ _))

theorem calm_tamperEnd {ty : Nat} (h : ty ≠ 23) (unit six : Nat) (c : Chip) : Calm c (c.tamperEnd ty unit six) := by
  unfold Chip.tamperEnd
  split
  · exact Calm.refl c
  · exact (calm_modTrec h _ c).trans (calm_tamperNote _ _ _ _ _ _)

/-- The blocks that a tamper record of a tap may reach. -/
def faultBlocks : List Block := [.taps, .tamper, .ledger, .evt, .ferry, .hint]

theorem tapStep_recorded {d : Chip} (h : Recorded c d) (hc : Calm c d) : TapStep faultBlocks n c d :=
  ⟨hc, fun j _ => tap_of_taps h.taps j, h.keepsBut (by decide)⟩

/-- A tap with a class of fault held as well, or no longer. -/
def Tap.holding (h : BitVec 6) (t : Tap) : Tap := { t with held := h, fault := Tap.shown { t with held := h } }

theorem faultTamper_ne {cls : BitVec 4} {ty : Nat} (h : faultTamper cls = some ty) : ty ≠ 23 := by
  unfold faultTamper at h
  split at h
  · cases h
    decide
  · split at h
    · cases h
      decide
    · cases h

theorem faultSet_step (cls : BitVec 4) (c : Chip) :
    (c.faultSet n cls).tap n = (c.tap n).holding ((c.tap n).held ||| BitVec.ofNat 6 (2 ^ cls.toNat)) ∧
    TapStep faultBlocks n c (c.faultSet n cls) := by
  unfold Chip.faultSet
  dsimp only
  have h0 := tapStep_modTap (bs := faultBlocks) (n := n) (c := c) (by decide)
    (fun _ => (c.tap n).holding ((c.tap n).held ||| BitVec.ofNat 6 (2 ^ cls.toNat)))
  have e0 : ((c.modTap n fun _ => (c.tap n).holding ((c.tap n).held ||| BitVec.ofNat 6 (2 ^ cls.toNat))).tap n) =
      (c.tap n).holding ((c.tap n).held ||| BitVec.ofNat 6 (2 ^ cls.toNat)) := by rw [modTap_tap, if_pos rfl]
  split
  · exact ⟨e0, h0⟩
  · have h1 := fun d => tapStep_tapEvt (bs := faultBlocks) (n := n) (c := d) (by decide) 0x0406 n cls.toNat 0
    split
    · next ty hty =>
      split
      · exact ⟨(tapEvt_tap _ _ _ _ _ _).trans e0, h0.trans (h1 _)⟩
      · refine ⟨(tap_of_taps (recorded_tamperStart _ _ _ _).taps n).trans ((tapEvt_tap _ _ _ _ _ _).trans e0),
          (h0.trans (h1 _)).trans (tapStep_recorded (recorded_tamperStart _ _ _ _) (calm_tamperStart (faultTamper_ne hty) _ _ _))⟩
    · exact ⟨(tapEvt_tap _ _ _ _ _ _).trans e0, h0.trans (h1 _)⟩

/-- A tap without a class of fault. -/
def Tap.dropping (cls : Nat) (t : Tap) : Tap :=
  if t.held.getLsbD cls then t.holding (t.held &&& ~~~ BitVec.ofNat 6 (2 ^ cls)) else t

theorem faultDrop_step (cls : Nat) (c : Chip) :
    (c.faultDrop n cls).tap n = (c.tap n).dropping cls ∧ TapStep faultBlocks n c (c.faultDrop n cls) := by
  unfold Chip.faultDrop Tap.dropping
  dsimp only
  cases hh : (c.tap n).held.getLsbD cls with
  | false => exact ⟨rfl, TapStep.refl _ n c⟩
  | true =>
    have h0 := tapStep_modTap (bs := faultBlocks) (n := n) (c := c) (by decide)
      (fun _ => (c.tap n).holding ((c.tap n).held &&& ~~~ BitVec.ofNat 6 (2 ^ cls)))
    have e0 : ((c.modTap n fun _ => (c.tap n).holding ((c.tap n).held &&& ~~~ BitVec.ofNat 6 (2 ^ cls))).tap n) =
        (c.tap n).holding ((c.tap n).held &&& ~~~ BitVec.ofNat 6 (2 ^ cls)) := by rw [modTap_tap, if_pos rfl]
    rw [if_neg (by decide), if_pos rfl]
    split
    · next ty hty =>
      exact ⟨(tap_of_taps (recorded_tamperEnd _ _ _ _).taps n).trans e0,
        h0.trans (tapStep_recorded (recorded_tamperEnd _ _ _ _) (calm_tamperEnd (faultTamper_ne hty) _ _ _))⟩
    · exact ⟨e0, h0⟩


/-! ### Comparison windows -/

/-- A tap whose comparison window closes, before it is judged. -/
def Tap.closed (t : Tap) : Tap :=
  { t with
    winN := 0, winSq := 0, winP := 0, winC := 0, winPsq := 0, winOvr := 0, winOvrC := 0,
    winExcl := t.refBusy, rms := if t.winN = 0 then 0 else t.winPsq / t.winN,
    ovrLatch := decide (0 < t.winOvr),
    winRun := if t.winN < t.winOvr * 50 then max t.winRun 0 + 1 else min t.winRun 0 - 1 }

/-- A tap whose comparison window closes and counts, unless it is excluded (R58, R59). -/
def Tap.judged (exceed : Bool) (t : Tap) : Tap :=
  if t.winExcl then t.closed
  else if exceed then { t.closed with cmpExceed := true, exceedRun := t.exceedRun + 1, clearRun := 0 }
  else { t.closed with cmpExceed := false, exceedRun := 0, clearRun := t.clearRun + 1 }

/-- The window that closes declares a disagreement. -/
def Tap.declares (exceed : Bool) (t : Tap) : Bool :=
  decide (3 ≤ (t.judged exceed).exceedRun) && !(t.judged exceed).disagree && !t.winExcl

/-- A tap behind the window that closed. -/
def Tap.windowed (exceed : Bool) (t : Tap) : Tap :=
  { t.judged exceed with disagree := (t.judged exceed).disagree || t.declares exceed }

/-- A tap that enters IDENT (R63). -/
def Tap.identified (t : Tap) : Tap := Tap.asked false { t with arb := 2, rounds := 0, passRun := 0, failRun := 0 }

/-- A tap at the start of a window, where the round that waits starts (R60). -/
def Tap.opened (t : Tap) : Tap := if t.roundDue && !t.refBusy then t.startRound else t

/-- The window that closes exceeds its limit (R58). -/
def Chip.windowExceeds (n : Nat) (c : Chip) : Bool :=
  let t := c.tap n
  let tol := c.cf (0x40000 + 4 * (n / 16)) 8 8
  if c.tapMode n = mPULSE then decide (2 < (t.winP - t.winC).natAbs)
  else decide (t.winN * (tol * tol * (calU * calU).toNat) < t.winSq * 100000000)

/-- The tap as the end of its window leaves it. -/
def Chip.windowedTap (n : Nat) (c : Chip) : Tap :=
  let x := c.tap n
  let y := x.windowed (c.windowExceeds n)
  let y := if x.declares (c.windowExceeds n) && x.arb == 1 then y.identified else y
  Tap.opened (if c.checkUnexplained n then y.entered 6 else y)

theorem windowEnd_eq (n : Nat) (c : Chip) : c.windowEnd n =
    if c.tapMode n = mOFF || (c.tap n).arb == 0 then c else
    let e := c.windowExceeds n
    let d := c.modTap n (fun _ => (c.tap n).windowed e)
    let d := if (c.tap n).declares e && (c.tap n).arb == 1 then d.identStart n else d
    let d := if c.checkUnexplained n then d.tapFail n else d
    d.modTap n Tap.opened := rfl

@[simp] theorem identStart_tap (c : Chip) : (c.identStart n).tap n = (c.tap n).identified := by
  simp [Chip.identStart, Tap.identified]

theorem tapStep_identStart : TapStep arbBlocks n c (c.identStart n) :=
  ((tapStep_modTap (by decide) _).trans (tapStep_askRound (by decide) _)).trans (tapStep_tapEvt (by decide) _ _ _ _)

theorem windowEnd_tap (hm : c.tapMode n ≠ mOFF) (ha : (c.tap n).arb ≠ 0) : (c.windowEnd n).tap n = c.windowedTap n := by
  rw [windowEnd_eq, if_neg (by simpa [hm] using ha)]
  dsimp only
  rw [modTap_tap, if_pos rfl]
  unfold Chip.windowedTap
  dsimp only
  congr 1
  split <;> split <;> simp

theorem tapStep_windowEnd (n : Nat) (c : Chip) : TapStep arbBlocks n c (c.windowEnd n) := by
  have h1 : ∀ d : Chip, TapStep arbBlocks n d (if (c.tap n).declares (c.windowExceeds n) && (c.tap n).arb == 1 then
      d.identStart n else d) := by
    intro d
    split
    · exact tapStep_identStart
    · exact TapStep.refl _ n d
  have h2 : ∀ d : Chip, TapStep arbBlocks n d (if c.checkUnexplained n then d.tapFail n else d) := by
    intro d
    split
    · exact tapStep_tapFail
    · exact TapStep.refl _ n d
  rw [windowEnd_eq]
  split
  · exact TapStep.refl _ n c
  · exact (((tapStep_modTap (by decide) _).trans (h1 _)).trans (h2 _)).trans (tapStep_modTap (by decide) _)


/-! What the end of a window leaves of the tap -/

theorem judged_fresh (ex : Bool) (x : Tap) : (x.judged ex).winN = 0 ∧ (x.judged ex).winSq = 0 ∧ (x.judged ex).winP = 0 ∧
    (x.judged ex).winC = 0 ∧ (x.judged ex).winExcl = x.refBusy ∧ (x.judged ex).refBusy = x.refBusy ∧
    (x.judged ex).roundDue = x.roundDue ∧ (x.judged ex).arb = x.arb ∧ (x.judged ex).disagree = x.disagree := by
  unfold Tap.judged
  split
  · exact ⟨rfl, rfl, rfl, rfl, rfl, rfl, rfl, rfl, rfl⟩
  · split <;> exact ⟨rfl, rfl, rfl, rfl, rfl, rfl, rfl, rfl, rfl⟩

/-- What a step of the arbiter leaves of the window and its counts. -/
structure Tap.SameWindow (x y : Tap) : Prop where
  n : y.winN = x.winN
  sq : y.winSq = x.winSq
  p : y.winP = x.winP
  c : y.winC = x.winC
  exceed : y.cmpExceed = x.cmpExceed
  run : y.exceedRun = x.exceedRun
  clear : y.clearRun = x.clearRun
  disagree : y.disagree = x.disagree

theorem Tap.SameWindow.trans {x y z : Tap} (h : x.SameWindow y) (h' : y.SameWindow z) : x.SameWindow z :=
  ⟨h'.n.trans h.n, h'.sq.trans h.sq, h'.p.trans h.p, h'.c.trans h.c, h'.exceed.trans h.exceed, h'.run.trans h.run,
    h'.clear.trans h.clear, h'.disagree.trans h.disagree⟩

theorem Tap.SameWindow.refl (x : Tap) : x.SameWindow x := ⟨rfl, rfl, rfl, rfl, rfl, rfl, rfl, rfl⟩

theorem sameWindow_asked (routine : Bool) (x : Tap) : x.SameWindow (x.asked routine) := by
  unfold Tap.asked
  dsimp only
  split
  · exact .refl x
  · split <;> exact ⟨rfl, rfl, rfl, rfl, rfl, rfl, rfl, rfl⟩

theorem sameWindow_identified (x : Tap) : x.SameWindow x.identified :=
  (show x.SameWindow { x with arb := 2, rounds := 0, passRun := 0, failRun := 0 } from
    ⟨rfl, rfl, rfl, rfl, rfl, rfl, rfl, rfl⟩).trans (sameWindow_asked _ _)

theorem sameWindow_entered (arb : BitVec 4) (x : Tap) : x.SameWindow (x.entered arb) := by
  unfold Tap.entered
  split <;> exact ⟨rfl, rfl, rfl, rfl, rfl, rfl, rfl, rfl⟩

theorem sameWindow_opened (x : Tap) : x.SameWindow x.opened := by
  unfold Tap.opened
  split
  · exact ⟨rfl, rfl, rfl, rfl, rfl, rfl, rfl, rfl⟩
  · exact .refl x

theorem sameWindow_windowedTap (n : Nat) (c : Chip) :
    ((c.tap n).windowed (c.windowExceeds n)).SameWindow (c.windowedTap n) := by
  unfold Chip.windowedTap
  dsimp only
  refine Tap.SameWindow.trans ?_ (sameWindow_opened _)
  have h1 : ∀ (b : Bool) (y : Tap), y.SameWindow (if b then y.identified else y) := by
    intro b y
    cases b
    · exact .refl y
    · exact sameWindow_identified y
  have h2 : ∀ (b : Bool) (y : Tap), y.SameWindow (if b then y.entered 6 else y) := by
    intro b y
    cases b
    · exact .refl y
    · exact sameWindow_entered 6 y
  exact (h1 _ _).trans (h2 _ _)

theorem declares_iff (ex : Bool) (x : Tap) :
    x.declares ex = true ↔ x.winExcl = false ∧ ex = true ∧ 2 ≤ x.exceedRun ∧ x.disagree = false := by
  have hd : (x.judged ex).disagree = x.disagree := (judged_fresh ex x).2.2.2.2.2.2.2.2
  unfold Tap.declares
  rw [hd]
  unfold Tap.judged
  cases x.winExcl <;> cases ex <;> simp

theorem opened_arb (x : Tap) : x.opened.arb = x.arb := by
  unfold Tap.opened
  split <;> rfl

/-- Where the window opens a round that waits starts, and the window is excluded. -/
theorem opened_busy {x : Tap} (h : x.winExcl = x.refBusy) :
    x.opened.refBusy = (x.refBusy || x.roundDue) ∧ x.opened.winExcl = x.opened.refBusy := by
  unfold Tap.opened
  cases hb : x.refBusy <;> cases hd : x.roundDue <;> simp_all [Tap.startRound]

/-- Where the window opens the round of a tap that enters IDENT starts. -/
theorem identified_busy {x : Tap} (h : x.winExcl = x.refBusy) (hn : x.winN = 0) :
    x.identified.refBusy = true ∧ x.identified.winExcl = true ∧ x.identified.arb = 2 := by
  unfold Tap.identified Tap.asked
  cases hb : x.refBusy <;> simp_all [Tap.startRound]

/-- The window that closes excluded leaves the counts; another one counts (R58, R59). -/
theorem windowed_counts (ex : Bool) (x : Tap) :
    let y := x.windowed ex
    (x.winExcl = true → y.cmpExceed = x.cmpExceed ∧ y.exceedRun = x.exceedRun ∧ y.clearRun = x.clearRun ∧
      y.disagree = x.disagree) ∧
    (x.winExcl = false → ¬ ex = true → y.cmpExceed = false ∧ y.exceedRun = 0 ∧ y.clearRun = x.clearRun + 1 ∧
      y.disagree = x.disagree) ∧
    (x.winExcl = false → ex = true → y.cmpExceed = true ∧ y.exceedRun = x.exceedRun + 1 ∧ y.clearRun = 0 ∧
      (y.disagree = true ↔ x.disagree = true ∨ 2 ≤ x.exceedRun)) := by
  refine ⟨fun h => ?_, fun h he => ?_, fun h he => ?_⟩
  · simp [Tap.windowed, Tap.declares, Tap.judged, Tap.closed, h]
  · simp [Tap.windowed, Tap.declares, Tap.judged, Tap.closed, h, he]
  · simp only [Tap.windowed, Tap.declares, Tap.judged, Tap.closed, h, he]
    cases hd : x.disagree <;> simp

/-- What the arbiter makes of the window: the check chain has failed, a disagreement is declared, or neither. -/
theorem windowedTap_arb (n : Nat) (c : Chip) :
    let x := c.tap n
    let y := c.windowedTap n
    let declared := x.declares (c.windowExceeds n) = true ∧ x.arb = 1
    (c.checkUnexplained n = true → y.arb = 6 ∧ y.refBusy = false) ∧
    (c.checkUnexplained n = false → (declared → y.arb = 2) ∧ (¬ declared → y.arb = x.arb) ∧
      (y.refBusy = true ↔ x.refBusy = true ∨ x.roundDue = true ∨ declared) ∧ y.winExcl = y.refBusy) := by
  intro x y declared
  obtain ⟨hn, -, -, -, hx, hb, hr, ha, -⟩ := judged_fresh (c.windowExceeds n) x
  let w := x.windowed (c.windowExceeds n)
  have hw : w.winExcl = w.refBusy := hx.trans hb.symm
  have hd_iff : (x.declares (c.windowExceeds n) && x.arb == 1) = true ↔ declared := by
    rw [Bool.and_eq_true, beq_iff_eq]
  refine ⟨fun bad => ?_, fun bad => ?_⟩
  · have hy : y = Tap.opened (Tap.entered 6 (if x.declares (c.windowExceeds n) && x.arb == 1 then w.identified else w)) :=
      congrArg Tap.opened (if_pos bad)
    rw [hy]
    exact ⟨rfl, rfl⟩
  · have hy : y = Tap.opened (if x.declares (c.windowExceeds n) && x.arb == 1 then w.identified else w) :=
      congrArg Tap.opened (if_neg (by simp [bad]))
    by_cases hd : declared
    · rw [if_pos (hd_iff.mpr hd)] at hy
      obtain ⟨h1, h2, h3⟩ := identified_busy hw hn
      obtain ⟨g1, g2⟩ := opened_busy (x := w.identified) (h2.trans h1.symm)
      rw [hy]
      refine ⟨fun _ => (opened_arb _).trans h3, fun h => absurd hd h, ?_, g2⟩
      simp [g1, h1, hd]
    · rw [if_neg (mt hd_iff.mp hd)] at hy
      obtain ⟨g1, g2⟩ := opened_busy hw
      have e1 : w.refBusy = x.refBusy := hb
      have e2 : w.roundDue = x.roundDue := hr
      rw [hy]
      refine ⟨fun h => absurd h hd, fun _ => (opened_arb _).trans ha, ?_, g2⟩
      simp [g1, e1, e2, hd]

end

end Sys2Proof.Machine
end

section
/-! The fault classes of a tap (R68) and what the chains show alone (R65). -/

namespace Sys2Proof.Machine

open Sys2Proof Sys2Proof.Claims

/-! ### The criteria -/

theorem critHeld_eq (l : List CritRun) (i now d : Nat) :
    critHeld l i now d = l[i]?.any (fun u => u.on && decide (u.since + d ≤ now)) := by
  unfold critHeld
  cases l[i]? <;> rfl

theorem critGone_eq (l : List CritRun) (i now : Nat) :
    critGone l i now = l[i]?.any (fun u => !u.on && decide (u.since + 32000 ≤ now)) := by
  unfold critGone
  cases l[i]? <;> rfl

section
variable {n : Nat} {c d : Chip}

/-- What one chain shows alone follows the criteria of the tap alone. -/
theorem classAlone_same (hg : d.groups = c.groups) (hp : (d.tap n).critP = (c.tap n).critP)
    (hc : (d.tap n).critC = (c.tap n).critC) (hep : (d.tap n).excP = (c.tap n).excP)
    (hec : (d.tap n).excC = (c.tap n).excC) (cls : Nat) : d.classAlone n cls = c.classAlone n cls := by
  have hn : d.critNow n = c.critNow n := by
    unfold Chip.critNow Chip.group
    rw [hg]
  unfold Chip.classAlone
  dsimp only
  rw [hp, hc, hep, hec, hn]

/-- What settling or events leave of a tap's step in a frame that keeps the groups. -/
theorem TapStep.groups {bs : List Block} (h : TapStep bs n c d) (hb : Block.groups ∉ bs) : d.groups = c.groups :=
  h.frame .groups hb

/-! ### Classes held -/

/-- The lowest class held is the one shown (R68). -/
def Tap.Lowest (y : Tap) : Prop := ∀ j, 1 ≤ j → j ≤ 5 →
  (y.fault.toNat = j ↔ y.held.getLsbD j = true ∧ ∀ i, 1 ≤ i → i < j → y.held.getLsbD i = false)

theorem find_lowest {p : Nat → Bool} {j : Nat} (h1 : 1 ≤ j) (h5 : j ≤ 5) :
    ((([1, 2, 3, 4, 5].find? p).map (BitVec.ofNat 4)).getD 0).toNat = j ↔
      p j = true ∧ ∀ i, 1 ≤ i → i < j → p i = false := by
  have hall : (∀ i, 1 ≤ i → i < j → p i = false) ↔ (1 < j → p 1 = false) ∧ (2 < j → p 2 = false) ∧
      (3 < j → p 3 = false) ∧ (4 < j → p 4 = false) := by
    refine ⟨fun h => ⟨h 1 (by omega), h 2 (by omega), h 3 (by omega), h 4 (by omega)⟩, fun h i hi hij => ?_⟩
    obtain ⟨a, b, e, f⟩ := h
    have : i = 1 ∨ i = 2 ∨ i = 3 ∨ i = 4 := by omega
    rcases this with rfl | rfl | rfl | rfl
    · exact a hij
    · exact b hij
    · exact e hij
    · exact f hij
  rw [hall]
  have : j = 1 ∨ j = 2 ∨ j = 3 ∨ j = 4 ∨ j = 5 := by omega
  cases q1 : p 1 <;> cases q2 : p 2 <;> cases q3 : p 3 <;> cases q4 : p 4 <;> cases q5 : p 5 <;>
    rcases this with rfl | rfl | rfl | rfl | rfl <;> simp [List.find?, q1, q2, q3, q4, q5]

theorem lowest_holding (h : BitVec 6) (t : Tap) : (t.holding h).Lowest := fun _ h1 h5 =>
  find_lowest (p := fun i => h.getLsbD i) h1 h5

theorem classBit (k : Nat) {j : Nat} (hj : j ≤ 5) : (BitVec.ofNat 6 (2 ^ k)).getLsbD j = decide (j = k) := by
  rw [BitVec.getLsbD_ofNat, Nat.testBit_two_pow, decide_eq_true (Nat.lt_succ_of_le hj), Bool.true_and]
  exact decide_eq_decide.mpr eq_comm

theorem held_set (h : BitVec 6) {k j : Nat} (hj : j ≤ 5) :
    (h ||| BitVec.ofNat 6 (2 ^ k)).getLsbD j = true ↔ h.getLsbD j = true ∨ j = k := by
  rw [BitVec.getLsbD_or, classBit k hj, Bool.or_eq_true, decide_eq_true_eq]

theorem held_drop (h : BitVec 6) {k j : Nat} (hj : j ≤ 5) :
    (h &&& ~~~ BitVec.ofNat 6 (2 ^ k)).getLsbD j = true ↔ h.getLsbD j = true ∧ j ≠ k := by
  rw [BitVec.getLsbD_and, BitVec.getLsbD_not, classBit k hj, decide_eq_true (Nat.lt_succ_of_le hj), Bool.true_and,
    Bool.and_eq_true, Bool.not_eq_true', decide_eq_false_iff_not]

/-! ### Classes declared -/

/-- The tap behind a class declared (R68), before the chains are compared. -/
def Chip.declaredTap (n : Nat) (cls : BitVec 4) (lost : Bool) (c : Chip) : Tap :=
  if c.critDue n cls.toNat lost then (c.tap n).holding ((c.tap n).held ||| BitVec.ofNat 6 (2 ^ cls.toNat)) else c.tap n

theorem declaredTap_arb (cls : BitVec 4) (lost : Bool) : (c.declaredTap n cls lost).arb = (c.tap n).arb := by
  unfold Chip.declaredTap
  split <;> rfl

/-- The blocks that a declared class may reach. -/
def declareBlocks : List Block := [.taps, .tamper, .ledger, .tix, .masters, .evt, .ferry, .hint]

theorem primaryCheck_tap (l : List Nat) : (c.primaryCheck n l).tap n =
    if (c.tap n).arb = 3 ∧ l.any (c.classAlone n) = true then (c.tap n).entered 6 else c.tap n := by
  unfold Chip.primaryCheck
  split
  · exact tapFail_tap c
  · rfl

theorem tapStep_primaryCheck (l : List Nat) : TapStep arbBlocks n c (c.primaryCheck n l) := by
  unfold Chip.primaryCheck
  split
  · exact tapStep_tapFail
  · exact TapStep.refl _ n c

theorem faultDeclare_step {cls : BitVec 4} (lost : Bool) (ha : (c.tap n).arb ≠ 0) (hf : c.faultFits n cls.toNat = true) :
    TapStep declareBlocks n c (c.faultDeclare n cls lost) ∧ (c.faultDeclare n cls lost).tap n =
      if (c.tap n).arb = 3 ∧ c.classAlone n cls.toNat = true then (c.declaredTap n cls lost).entered 6
      else c.declaredTap n cls lost := by
  have hset : ∃ d, c.faultDeclare n cls lost = d.primaryCheck n [cls.toNat] ∧ TapStep faultBlocks n c d ∧
      d.tap n = c.declaredTap n cls lost := by
    unfold Chip.faultDeclare Chip.declaredTap
    rw [if_neg (by simpa [hf] using ha)]
    dsimp only
    split
    · exact ⟨_, rfl, (faultSet_step cls c).2, (faultSet_step cls c).1⟩
    · exact ⟨_, rfl, TapStep.refl _ n c, rfl⟩
  obtain ⟨d, he, hd, ht⟩ := hset
  have hal : d.classAlone n cls.toNat = c.classAlone n cls.toNat := by
    refine classAlone_same (hd.groups (by decide)) ?_ ?_ ?_ ?_ _ <;>
      · rw [ht]
        unfold Chip.declaredTap
        split <;> rfl
  refine ⟨?_, ?_⟩
  · rw [he]
    exact (hd.mono (by decide)).trans ((tapStep_primaryCheck _).mono (by decide))
  · rw [he, primaryCheck_tap, ht, declaredTap_arb]
    simp [hal]

/-! ### Classes that clear -/

theorem dropping_held {k : Nat} (x : Tap) {j : Nat} (hj : j ≤ 5) :
    (x.dropping k).held.getLsbD j = true ↔ x.held.getLsbD j = true ∧ j ≠ k := by
  unfold Tap.dropping
  split
  · exact held_drop x.held hj
  · next h =>
    refine ⟨fun hx => ⟨hx, ?_⟩, And.left⟩
    rintro rfl
    exact h hx

/-- A tap that some classes have left: it shows the lowest that is left, and is as it was where none has gone. -/
structure Tap.Cleared (l : List Nat) (x y : Tap) : Prop where
  held : ∀ j, j ≤ 5 → (y.held.getLsbD j = true ↔ x.held.getLsbD j = true ∧ j ∉ l)
  arb : y.arb = x.arb
  shown : y = x ∨ (y.held ≠ x.held ∧ y.Lowest)

theorem cleared_cons {k : Nat} {l : List Nat} {x y : Tap} (hk : k ≤ 5) (h : Tap.Cleared l (x.dropping k) y) :
    Tap.Cleared (k :: l) x y := by
  refine ⟨fun j hj => ?_, ?_, ?_⟩
  · rw [h.held j hj, dropping_held x hj, List.mem_cons, not_or, and_assoc]
  · rw [h.arb]
    unfold Tap.dropping
    split <;> rfl
  · cases hb : x.held.getLsbD k with
    | false =>
      have hd : x.dropping k = x := if_neg (by simp [hb])
      rw [hd] at h
      exact h.shown
    | true =>
      have hd : x.dropping k = x.holding (x.held &&& ~~~ BitVec.ofNat 6 (2 ^ k)) := if_pos hb
      refine Or.inr ⟨fun he => ?_, ?_⟩
      · have := (h.held k hk).mp (he ▸ hb)
        exact ((dropping_held x hk).mp this.1).2 rfl
      · rcases h.shown with rfl | ⟨-, hl⟩
        · rw [hd]
          exact lowest_holding _ _
        · exact hl

theorem faultDrops_step {l : List Nat} (hl : ∀ k ∈ l, k ≤ 5) (c : Chip) :
    TapStep faultBlocks n c (each l (Chip.faultDrop n) c) ∧
      Tap.Cleared l (c.tap n) ((each l (Chip.faultDrop n) c).tap n) := by
  induction l generalizing c with
  | nil => exact ⟨TapStep.refl _ n c, fun _ _ => ⟨fun h => ⟨h, nofun⟩, And.left⟩, rfl, .inl rfl⟩
  | cons k l ih =>
    obtain ⟨hk, hl⟩ := List.forall_mem_cons.mp hl
    obtain ⟨ht, hs⟩ := faultDrop_step (n := n) k c
    obtain ⟨hs', hc⟩ := ih hl (c.faultDrop n k)
    rw [ht] at hc
    exact ⟨hs.trans hs', cleared_cons hk hc⟩

theorem faultClear_step (lost : Bool) (c : Chip) : TapStep faultBlocks n c (c.faultClear n lost) ∧
    Tap.Cleared ([1, 2, 3, 4, 5].filter (fun i => c.critOver n i lost)) (c.tap n) ((c.faultClear n lost).tap n) :=
  faultDrops_step (fun k hk => by
    have := (List.mem_filter.mp hk).1
    simp only [List.mem_cons, List.not_mem_nil, or_false] at this
    omega) c

end

end Sys2Proof.Machine
end

section
/-! Reference rounds (R60, R61, R63-R65), and the arbiter of a tap as a whole. -/

namespace Sys2Proof.Machine

open Sys2Proof Sys2Proof.Claims

section
variable {n : Nat} {c d : Chip}

/-! ### Rounds asked for -/

/-- A round that is asked for changes the tap alone, and nothing follows from it. -/
theorem quiet_askRound (routine : Bool) (c : Chip) : Quiet c (c.askRound n routine) := by
  refine (tapStep_askRound (bs := [.taps]) (by decide) routine).calm.quiet (fun q => ?_)
  unfold Chip.askRound
  dsimp only
  split <;> rfl

theorem answers_same {i : Instr} {s : State} {f : Chip → Chip} (hi : exec i s = run f s) (hs : Settled s)
    (hf : f s.chip = s.chip) : answers i s s.chip := answers_quiet hi hf hs (Quiet.refl s.chip)

theorem completes_askRound {i : Instr} {s : State} {f : Chip → Chip} {routine : Bool} (hi : exec i s = run f s)
    (hs : Settled s) (hf : f s.chip = s.chip.askRound n routine) : completes i s (fun d =>
      d.tap n = (s.chip.tap n).asked routine ∧ (∀ j, j ≠ n → d.tap j = s.chip.tap j) ∧ keepsBut [.taps] s.chip d) :=
  have h := tapStep_askRound (bs := [.taps]) (n := n) (c := s.chip) (by decide) routine
  completes_quiet hi hf hs (quiet_askRound routine s.chip) ⟨askRound_tap routine s.chip, h.other, h.frame⟩

/-! ### The end of a round -/

/-- The tap whose round ends, with its outcome and, in an identification, its counts. -/
def Tap.roundOver (ok counted : Bool) (t : Tap) : Tap :=
  let t := { t with refBusy := false, lastRound := if ok then 1 else 2, routine := false }
  if counted then t.countRound ok else t

/-- What the monitor of the excitation brings with a routine round (R61, R65). -/
def Chip.roundMonitored (n : Nat) (r : RefReading) (c : Chip) : Chip :=
  match r.exc with
  | some x => if (c.tap n).routine && c.shares n then c.monitored n x else c
  | none => c

/-- The round counts for an identification (R63). -/
def Tap.counts (t : Tap) : Bool := t.arb == 5 || (t.arb == 2 && !t.routine)

/-- A tap with another outcome of its excitation monitor alone. -/
def Tap.excited (b p q : Bool) (t : Tap) : Tap := { t with excBad := b, excP := p, excC := q }

/-- The tap whose round has ended, before the arbiter decides on it. -/
def Tap.ended (x : Tap) (ok b p q : Bool) : Tap := { (x.excited b p q).roundOver ok x.counts with roundTicket := 0 }

/-- A round that ends, before the arbiter decides on it. -/
def Chip.roundClosed (n : Nat) (r : RefReading) (c : Chip) : Chip :=
  let ok := roundPass (c.tapMode n == mPULSE) r
  ((c.roundMonitored n r).modTap n (Tap.roundOver ok (c.tap n).counts)).endRound n (if ok then stOK else stINTEGRITY)

/-- What the arbiter decides on a round that was `ok` or not, of a tap that was `t` (R63). -/
def Chip.roundDecided (n : Nat) (t : Tap) (ok : Bool) (c : Chip) : Chip :=
  let u := c.tap n
  if t.arb == 1 then
    if ok then c
    else (c.modTap n (fun t => { t with arb := 2, rounds := 1, failRun := 1, passRun := 0 })).tapEvt 0x0401 n 0 0
  else if t.counts then
    if 3 ≤ u.failRun then c.verdict n 3 1
    else if 3 ≤ u.passRun then c.verdict n 4 2
    else if t.arb == 2 && decide (3 ≤ u.clearRun) && ok then
      (c.modTap n (fun t => { t with arb := 1, disagree := false, exceedRun := 0, rounds := 0 })).tapEvt 0x0402 n 0 0
    else if t.arb == 2 && decide (10 ≤ u.rounds.toNat) then
      (c.modTap n (fun t => { t with arb := 5, rounds := 0, passRun := 0, failRun := 0 })).tapEvt 0x0403 n 0 0
    else c
  else c

theorem roundEnd_eq (n : Nat) (r : RefReading) (c : Chip) : c.roundEnd n r =
    if !(c.tap n).refBusy then c
    else (c.roundClosed n r).roundDecided n (c.tap n) (roundPass (c.tapMode n == mPULSE) r) := by
  unfold Chip.roundEnd Chip.roundDecided Chip.roundClosed Chip.roundMonitored Tap.counts Tap.roundOver
  dsimp only
  cases r.exc with
  | none => dsimp only
  | some x =>
    have hm : (if ((c.tap n).routine && c.shares n) = true then c.monitored n x else c).tapMode n = c.tapMode n := by
      split <;> rfl
    simp only [hm]

theorem roundMonitored_tap (r : RefReading) : ∃ b p q, (c.roundMonitored n r).tap n = (c.tap n).excited b p q ∧
    ∀ e, r.exc = some e → (c.tap n).routine = true → c.shares n = true → b = decide (1000 < e.dev.natAbs) := by
  unfold Chip.roundMonitored
  cases hr : r.exc with
  | none => exact ⟨(c.tap n).excBad, (c.tap n).excP, (c.tap n).excC, rfl, nofun⟩
  | some x =>
    cases hb : (c.tap n).routine && c.shares n with
    | false =>
      refine ⟨(c.tap n).excBad, (c.tap n).excP, (c.tap n).excC, rfl, fun e _ h1 h2 => ?_⟩
      rw [h1, h2] at hb
      cases hb
    | true =>
      dsimp only
      rw [if_pos rfl]
      unfold Chip.monitored
      dsimp only
      refine ⟨_, _, _, (modTap_tap _ n _ n).trans (if_pos rfl), fun e he _ _ => ?_⟩
      cases he
      rfl

theorem tapStep_roundMonitored (r : RefReading) : TapStep looseBlocks n c (c.roundMonitored n r) := by
  unfold Chip.roundMonitored
  split
  · split
    · unfold Chip.monitored
      exact tapStep_modTap (bs := looseBlocks) (by decide) _
    · exact TapStep.refl _ n c
  · exact TapStep.refl _ n c

/-- The ticket of a round shows its status behind the round. -/
theorem endRound_done {st : W8} (h0 : (c.tap n).roundTicket ≠ 0)
    (h : (c.ticketOut (c.tap n).roundTicket).isSome = true) :
    (c.endRound n st).tix.done.head? = some ((c.tap n).roundTicket, st) := by
  obtain ⟨x, hx⟩ := Option.isSome_iff_exists.mp h
  unfold Chip.endRound
  dsimp only
  rw [if_neg h0]
  obtain ⟨ma, e, f, g, -, he⟩ :=
    complete_facts (c := c.modTap n (fun x => { x with roundTicket := 0 })) (x := x) hx st 0
  rw [he]
  rfl

theorem roundClosed_facts (r : RefReading) (c : Chip) : TapStep arbBlocks n c (c.roundClosed n r) ∧
    (∃ b p q, (c.roundClosed n r).tap n =
        (c.tap n).ended (roundPass (c.tapMode n == mPULSE) r) b p q ∧
      ∀ e, r.exc = some e → (c.tap n).routine = true → c.shares n = true → b = decide (1000 < e.dev.natAbs)) ∧
    ((c.tap n).roundTicket ≠ 0 → (c.ticketOut (c.tap n).roundTicket).isSome = true →
      (c.roundClosed n r).tix.done.head? = some ((c.tap n).roundTicket,
        if roundPass (c.tapMode n == mPULSE) r then stOK else stINTEGRITY)) := by
  obtain ⟨b, p, q, ht, hb⟩ := roundMonitored_tap (c := c) (n := n) r
  have hm := tapStep_roundMonitored (c := c) (n := n) r
  have hx : (c.tap n).roundTicket = (((c.roundMonitored n r).modTap n (Tap.roundOver
      (roundPass (c.tapMode n == mPULSE) r) (c.tap n).counts)).tap n).roundTicket := by
    rw [modTap_tap, if_pos rfl, ht]
    unfold Tap.roundOver
    dsimp only
    split <;> rfl
  refine ⟨((hm.mono (by decide)).trans (tapStep_modTap (by decide) _)).trans (tapStep_endRound _), ⟨b, p, q, ?_, hb⟩,
    fun h0 hs => ?_⟩
  · unfold Chip.roundClosed
    dsimp only
    rw [endRound_tap, modTap_tap, if_pos rfl, ht]
    rfl
  · unfold Chip.roundClosed
    dsimp only
    rw [hx] at h0 ⊢
    refine endRound_done h0 ?_
    rw [← hx]
    unfold Chip.ticketOut at hs ⊢
    rw [modTap_tix, show (c.roundMonitored n r).tix = c.tix from hm.frame .tix (by decide)]
    exact hs

/-! ### Verdicts -/

theorem verdict_tap (a : BitVec 4) (v : Nat) : (c.verdict n a v).tap n =
    if ((c.tap n).entered a).arb = 3 ∧ [1, 2, 5].any (c.classAlone n) = true then ((c.tap n).entered a).entered 6
    else (c.tap n).entered a := by
  have hs := (tapStep_enterArb (n := n) (c := c) a).trans (tapStep_tapEvt (by decide) 0x0404 n a.toNat v)
  have ht : ((c.enterArb n a).tapEvt 0x0404 n a.toNat v).tap n = (c.tap n).entered a := by simp
  have hal : ((c.enterArb n a).tapEvt 0x0404 n a.toNat v).classAlone n = c.classAlone n := by
    funext cls
    refine classAlone_same (hs.groups (by decide)) ?_ ?_ ?_ ?_ _ <;>
      · rw [ht]
        unfold Tap.entered
        split <;> rfl
  unfold Chip.verdict
  rw [primaryCheck_tap, ht, hal]

theorem entered_ticket {a : BitVec 4} {x : Tap} (h : x.roundTicket = 0) : (x.entered a).roundTicket = 0 := by
  unfold Tap.entered
  split
  · rfl
  · exact h

theorem tapStep_verdict_loose (h : (c.tap n).roundTicket = 0) (a : BitVec 4) (v : Nat) :
    TapStep looseBlocks n c (c.verdict n a v) := by
  refine ((tapStep_enterArb_loose h a).trans (tapStep_tapEvt (by decide) 0x0404 n a.toNat v)).trans ?_
  unfold Chip.verdict Chip.primaryCheck
  split
  · exact tapStep_tapFail_loose (by simpa using entered_ticket h)
  · exact TapStep.refl _ n _

theorem tapStep_roundDecided (h : (c.tap n).roundTicket = 0) (t : Tap) (ok : Bool) :
    TapStep looseBlocks n c (c.roundDecided n t ok) := by
  have ev : ∀ (g : Tap → Tap) (code : W16), TapStep looseBlocks n c ((c.modTap n g).tapEvt code n 0 0) :=
    fun g code => (tapStep_modTap (by decide) g).trans (tapStep_tapEvt (by decide) _ _ _ _)
  unfold Chip.roundDecided
  dsimp only
  split
  · split
    · exact .refl _ n c
    · exact ev _ _
  · split
    · split
      · exact tapStep_verdict_loose h 3 1
      · split
        · exact tapStep_verdict_loose h 4 2
        · split
          · exact ev _ _
          · split
            · exact ev _ _
            · exact .refl _ n c
    · exact .refl _ n c

/-- The tap as the arbiter's decision leaves it. -/
def Tap.decided (t : Tap) (ok alone : Bool) (u : Tap) : Tap :=
  if t.arb == 1 then
    if ok then u else { u with arb := 2, rounds := 1, failRun := 1, passRun := 0 }
  else if t.counts then
    if 3 ≤ u.failRun then if alone then (u.entered 3).entered 6 else u.entered 3
    else if 3 ≤ u.passRun then u.entered 4
    else if t.arb == 2 && decide (3 ≤ u.clearRun) && ok then
      { u with arb := 1, disagree := false, exceedRun := 0, rounds := 0 }
    else if t.arb == 2 && decide (10 ≤ u.rounds.toNat) then { u with arb := 5, rounds := 0, passRun := 0, failRun := 0 }
    else u
  else u

theorem roundDecided_tap (t : Tap) (ok : Bool) : (c.roundDecided n t ok).tap n =
    t.decided ok ([1, 2, 5].any (c.classAlone n)) (c.tap n) := by
  have h3 : ((c.tap n).entered 3).arb = 3 := rfl
  have h4 : ((c.tap n).entered 4).arb ≠ 3 := by
    show (4 : BitVec 4) ≠ 3
    decide
  unfold Chip.roundDecided Tap.decided
  dsimp only
  simp only [apply_ite (fun d : Chip => d.tap n), verdict_tap, tapEvt_tap, modTap_tap, if_true, h3, h4, true_and,
    false_and, if_false]

/-! ### Decisions on a round -/

section
variable {x : Tap} {ok al b p q : Bool}

theorem counts_iff : x.counts = true ↔ x.arb = 5 ∨ (x.arb = 2 ∧ x.routine = false) := by simp [Tap.counts]

/-- What a round and the decision on it leave of a tap in every case. -/
structure Tap.Over (x : Tap) (ok b p q : Bool) (y : Tap) : Prop where
  busy : y.refBusy = false
  last : y.lastRound = if ok then 1 else 2
  routine : y.routine = false
  ticket : y.roundTicket = 0
  bad : y.excBad = b
  critP : y.critP = x.critP
  critC : y.critC = x.critC
  excP : y.excP = p
  excC : y.excC = q

theorem over_ended : x.Over ok b p q (x.ended ok b p q) := by
  unfold Tap.ended Tap.roundOver
  dsimp only
  split <;> exact ⟨rfl, rfl, rfl, rfl, rfl, rfl, rfl, rfl, rfl⟩

theorem Tap.Over.entered {y : Tap} (h : x.Over ok b p q y) (a : BitVec 4) : x.Over ok b p q (y.entered a) := by
  unfold Tap.entered
  split
  · exact ⟨rfl, h.last, h.routine, rfl, h.bad, h.critP, h.critC, h.excP, h.excC⟩
  · exact ⟨h.busy, h.last, h.routine, h.ticket, h.bad, h.critP, h.critC, h.excP, h.excC⟩

theorem over_decided : x.Over ok b p q (x.decided ok al (x.ended ok b p q)) := by
  have h := over_ended (x := x) (ok := ok) (b := b) (p := p) (q := q)
  have ⟨h1, h2, h3, h4, h5, h6, h7, h8, h9⟩ := h
  unfold Tap.decided
  split
  · split
    · exact h
    · exact ⟨h1, h2, h3, h4, h5, h6, h7, h8, h9⟩
  · split
    · split
      · split
        · exact (h.entered 3).entered 6
        · exact h.entered 3
      · split
        · exact h.entered 4
        · split
          · exact ⟨h1, h2, h3, h4, h5, h6, h7, h8, h9⟩
          · split
            · exact ⟨h1, h2, h3, h4, h5, h6, h7, h8, h9⟩
            · exact h
    · exact h

/-- The counts of a round of an identification. -/
theorem ended_counted (h : x.counts = true) : (x.ended ok b p q).rounds = satInc x.rounds ∧
    (x.ended ok b p q).failRun = (if ok then 0 else x.failRun + 1) ∧
    (x.ended ok b p q).passRun = (if ok && x.disagree then x.passRun + 1 else 0) ∧
    (x.ended ok b p q).clearRun = x.clearRun ∧ (x.ended ok b p q).arb = x.arb := by
  unfold Tap.ended Tap.roundOver
  dsimp only
  rw [if_pos h]
  exact ⟨rfl, rfl, rfl, rfl, rfl⟩

/-- A round outside an identification leaves the counts. -/
theorem ended_uncounted (h : x.counts = false) : (x.ended ok b p q).rounds = x.rounds ∧
    (x.ended ok b p q).failRun = x.failRun ∧ (x.ended ok b p q).passRun = x.passRun ∧
    (x.ended ok b p q).arb = x.arb := by
  unfold Tap.ended Tap.roundOver
  dsimp only
  rw [if_neg (by simp [h])]
  exact ⟨rfl, rfl, rfl, rfl⟩

/-- A round in NORMAL decides alone (R63). -/
theorem decided_normal (h : x.arb = 1) (u : Tap) : x.decided ok al u =
    if ok then u else { u with arb := 2, rounds := 1, failRun := 1, passRun := 0 } := if_pos (beq_iff_eq.mpr h)

/-- A round that does not count decides nothing. -/
theorem decided_uncounted (h : x.arb ≠ 1) (hc : x.counts = false) (u : Tap) : x.decided ok al u = u :=
  (if_neg (by simpa using h)).trans (if_neg (by simp [hc]))

/-- The order of the decisions on a round that counts (R63). -/
theorem decided_counted (hc : x.counts = true) (u : Tap) : x.decided ok al u =
    if 3 ≤ u.failRun then if al then (u.entered 3).entered 6 else u.entered 3
    else if 3 ≤ u.passRun then u.entered 4
    else if x.arb == 2 && decide (3 ≤ u.clearRun) && ok then
      { u with arb := 1, disagree := false, exceedRun := 0, rounds := 0 }
    else if x.arb == 2 && decide (10 ≤ u.rounds.toNat) then { u with arb := 5, rounds := 0, passRun := 0, failRun := 0 }
    else u := by
  have h1 : ¬ (x.arb == 1) = true := by
    rcases counts_iff.mp hc with h | ⟨h, -⟩ <;> simp [h]
  exact (if_neg h1).trans (if_pos hc)

end

/-! ### The arbiter of a tap as a whole -/

theorem windowExceeds_iff : c.windowExceeds n = true ↔
    if c.tapMode n = mPULSE then 2 < ((c.tap n).winP - (c.tap n).winC).natAbs
    else (c.tap n).winN * (c.cf (0x40000 + 4 * (n / 16)) 8 8 * c.cf (0x40000 + 4 * (n / 16)) 8 8 *
      (calU * calU).toNat) < (c.tap n).winSq * 100000000 := by
  unfold Chip.windowExceeds
  dsimp only
  split <;> exact decide_eq_true_iff

end

theorem completes_cmpWindowEnd (t : TapNo) {s : State} (hs : Settled s) (hm : s.chip.tapMode t.val ≠ mOFF)
    (ha : (s.chip.tap t.val).arb ≠ 0) : completes (.cmpWindowEnd t) s (fun d =>
      d.tap t.val = s.chip.windowedTap t.val ∧ (∀ j, j ≠ t.val → d.tap j = s.chip.tap j) ∧ keepsBut arbBlocks s.chip d) :=
  have h := tapStep_windowEnd t.val s.chip
  completes_calm rfl rfl hs h.calm (fun f _ => ⟨windowEnd_tap hm ha, h.other, h.queues (by decide) f⟩)

theorem completes_tapFaultDeclare (t : TapNo) {cls : BitVec 4} (lost : Bool) {s : State} (hs : Settled s)
    (ha : (s.chip.tap t.val).arb ≠ 0) (hf : s.chip.faultFits t.val cls.toNat = true) :
    completes (.tapFaultDeclare t cls lost) s (fun d =>
      d.tap t.val = (if (s.chip.tap t.val).arb = 3 ∧ s.chip.classAlone t.val cls.toNat = true then
        (s.chip.declaredTap t.val cls lost).entered 6 else s.chip.declaredTap t.val cls lost) ∧
      (∀ j, j ≠ t.val → d.tap j = s.chip.tap j) ∧ keepsBut declareBlocks s.chip d) := by
  obtain ⟨h, ht⟩ := faultDeclare_step lost ha hf
  exact completes_calm rfl rfl hs h.calm (fun f _ => ⟨ht, h.other, h.queues (by decide) f⟩)

theorem completes_tapFaultClear (t : TapNo) (lost : Bool) {s : State} (hs : Settled s) :
    completes (.tapFaultClear ⟨t, lost⟩) s (fun d =>
      Tap.Cleared ([1, 2, 3, 4, 5].filter (fun i => s.chip.critOver t.val i lost)) (s.chip.tap t.val) (d.tap t.val) ∧
      (∀ j, j ≠ t.val → d.tap j = s.chip.tap j) ∧ keepsBut faultBlocks s.chip d) := by
  obtain ⟨h, ht⟩ := faultClear_step (n := t.val) lost s.chip
  exact completes_calm rfl rfl hs h.calm (fun f _ => ⟨ht, h.other, h.queues (by decide) f⟩)

theorem completes_refRoundEnd (t : TapNo) (r : RefReading) {s : State} (hs : Settled s)
    (hb : (s.chip.tap t.val).refBusy = true) : completes (.refRoundEnd t r) s (fun d =>
      let c := s.chip
      let x := c.tap t.val
      let pass := roundPass (c.tapMode t.val == mPULSE) r
      (∃ b p q, d.tap t.val = x.decided pass ([1, 2, 5].any (d.classAlone t.val)) (x.ended pass b p q) ∧
        ∀ e, r.exc = some e → x.routine = true → c.shares t.val = true → b = decide (1000 < e.dev.natAbs)) ∧
      (∀ j, j ≠ t.val → d.tap j = c.tap j) ∧
      (x.roundTicket ≠ 0 → (c.ticketOut x.roundTicket).isSome = true →
        d.tix.done.head? = some (x.roundTicket, if pass then stOK else stINTEGRITY)) ∧
      keepsBut arbBlocks c d) := by
  obtain ⟨h, ⟨b, p, q, ht, he⟩, hd⟩ := roundClosed_facts (n := t.val) r s.chip
  have h0 : ((s.chip.roundClosed t.val r).tap t.val).roundTicket = 0 := by
    rw [ht]
    exact over_ended.ticket
  have h' := tapStep_roundDecided h0 (s.chip.tap t.val) (roundPass (s.chip.tapMode t.val == mPULSE) r)
  have ha := h.trans (h'.mono (by decide))
  have hy := roundDecided_tap (n := t.val) (c := s.chip.roundClosed t.val r) (s.chip.tap t.val)
    (roundPass (s.chip.tapMode t.val == mPULSE) r)
  have hal : (s.chip.roundClosed t.val r).classAlone t.val = ((s.chip.roundClosed t.val r).roundDecided t.val
      (s.chip.tap t.val) (roundPass (s.chip.tapMode t.val == mPULSE) r)).classAlone t.val := by
    funext cls
    rw [ht] at hy
    have O := over_decided (x := s.chip.tap t.val) (ok := roundPass (s.chip.tapMode t.val == mPULSE) r)
      (al := [1, 2, 5].any ((s.chip.roundClosed t.val r).classAlone t.val)) (b := b) (p := p) (q := q)
    have E := over_ended (x := s.chip.tap t.val) (ok := roundPass (s.chip.tapMode t.val == mPULSE) r) (b := b) (p := p) (q := q)
    refine (classAlone_same (h'.groups (by decide)) ?_ ?_ ?_ ?_ cls).symm
    · rw [hy, ht, O.critP, E.critP]
    · rw [hy, ht, O.critC, E.critC]
    · rw [hy, ht, O.excP, E.excP]
    · rw [hy, ht, O.excC, E.excC]
  rw [ht, hal] at hy
  refine completes_calm rfl ((roundEnd_eq t.val r s.chip).trans (if_neg (by simp [hb]))) hs ha.calm (fun f _ =>
    ⟨⟨b, p, q, hy, he⟩, ha.other, fun h1 h2 => ?_, ha.queues (by decide) f⟩)
  exact (congrArg (fun x => x.done.head?) (h'.frame .tix (by decide))).trans (hd h1 h2)

end Sys2Proof.Machine
end

section
/-! The arbiter of a tap as the spec states it (R58-R65, R68). -/

namespace Sys2Proof.Machine

open Sys2Proof Sys2Proof.Claims

section
variable {n : Nat} {c : Chip}

theorem class_iff (cls : BitVec 4) : (cls = 1 ↔ cls.toNat = 1) ∧ (cls = 2 ↔ cls.toNat = 2) ∧ (cls = 3 ↔ cls.toNat = 3) ∧
    (cls = 4 ↔ cls.toNat = 4) ∧ (cls = 5 ↔ cls.toNat = 5) := by
  refine ⟨?_, ?_, ?_, ?_, ?_⟩ <;> exact BitVec.toNat_inj.symm

/-- The classes of fault that a tap's mode can show (R68). -/
theorem faultFits_iff (cls : BitVec 4) : c.faultFits n cls.toNat = true ↔
    (cls = 1 ∧ c.oddOfPair n = false ∧ (c.tapMode n = mLOOP ∨ c.tapMode n = mRTD ∨
        ((c.live (aTapMode n)).getLsbD 11 = true ∧ c.tapMode n ∈ [mVOLT, mCURR, mROGO, mBRIDGE]))) ∨
      (cls = 2 ∧ c.oddOfPair n = false ∧ (c.tapMode n = mLOOP ∨ c.tapMode n = mRTD)) ∨
      (cls = 3 ∧ c.tapMode n ≠ mOFF) ∨ (cls = 4 ∧ c.tapMode n = mLOOP) ∨
      (cls = 5 ∧ ((c.tapMode n = mLOOP ∧ (c.live (aTapMode n)).getLsbD 4 = true) ∨ c.tapMode n = mRTD ∨
        c.tapMode n = mBRIDGE)) := by
  obtain ⟨e1, e2, e3, e4, e5⟩ := class_iff cls
  rw [e1, e2, e3, e4, e5]
  generalize cls.toNat = k
  unfold Chip.faultFits Chip.shares
  dsimp only
  split
  · simp [or_assoc]
  · simp
  · simp
  · simp
  · simp [or_assoc]
  · next h1 h2 h3 h4 h5 =>
    simp [show k ≠ 1 from h1, show k ≠ 2 from h2, show k ≠ 3 from h3, show k ≠ 4 from h4, show k ≠ 5 from h5]

/-- The criterion of a class has held for its time (R68). -/
theorem critDue_iff (cls : BitVec 4) (lost : Bool) : c.critDue n cls.toNat lost = true ↔
    let x := c.tap n
    let held := fun (l : List CritRun) (i d : Nat) =>
      l[i]?.any (fun u => u.on && decide (u.since + d ≤ (c.group (n / 16)).newest)) = true
    (cls = 3 ∧ (5 ≤ x.winRun ∨ held x.crit 0 32000 ∨ held x.crit 3 0)) ∨
      (cls = 1 ∧ (held x.crit 1 32000 ∨ (lost = true ∧ c.tapMode n = mRTD))) ∨
      (cls ≠ 1 ∧ cls ≠ 3 ∧ held x.crit cls.toNat 32000) := by
  obtain ⟨e1, e2, e3, e4, e5⟩ := class_iff cls
  rw [ne_eq, ne_eq, e1, e3]
  generalize cls.toNat = k
  unfold Chip.critDue Chip.critNow
  simp only [critHeld_eq]
  split
  · simp [or_assoc]
  · simp
  · next h3 h1 => simp [show k ≠ 1 from h1, show k ≠ 3 from h3]

theorem critOver_iff (j : Nat) (lost : Bool) : c.critOver n j lost = true ↔
    let x := c.tap n
    let gone := fun (i : Nat) =>
      x.crit[i]?.any (fun u => !u.on && decide (u.since + 32000 ≤ (c.group (n / 16)).newest)) = true
    (j = 3 ∧ x.winRun ≤ -5 ∧ gone 0 ∧ gone 3) ∨ (j = 1 ∧ gone 1 ∧ ¬ (lost = true ∧ c.tapMode n = mRTD)) ∨
      (j ≠ 1 ∧ j ≠ 3 ∧ gone j) := by
  unfold Chip.critOver Chip.critNow
  simp only [critGone_eq]
  split
  · simp [and_assoc]
  · cases lost <;> simp
  · next h3 h1 => simp [show j ≠ 1 from h1, show j ≠ 3 from h3]

theorem classAlone_iff (cls : BitVec 4) : c.classAlone n cls.toNat = true ↔
    let x := c.tap n
    let held := fun (l : List CritRun) (i d : Nat) =>
      l[i]?.any (fun u => u.on && decide (u.since + d ≤ (c.group (n / 16)).newest)) = true
    ((cls = 1 ∨ cls = 2) ∧ held x.critP cls.toNat 32000 ∧ ¬ held x.critC cls.toNat 0) ∨
      (cls = 5 ∧ x.excP = true ∧ x.excC = false) := by
  obtain ⟨e1, e2, e3, e4, e5⟩ := class_iff cls
  rw [e1, e2, e5]
  generalize cls.toNat = k
  unfold Chip.classAlone Chip.critNow
  simp only [critHeld_eq]
  split
  · simp
  · simp
  · simp
  · next h1 h2 h5 => simp [show k ≠ 1 from h1, show k ≠ 2 from h2, show k ≠ 5 from h5]

end

section
variable {n : Nat} {c : Chip} {cls : BitVec 4} {lost : Bool}

/-- A class that is due is held and the lowest held is shown; one that is not changes neither (R68). -/
theorem declaredTap_facts : let y := c.declaredTap n cls lost
    (∀ j, j ≤ 5 → (y.held.getLsbD j = true ↔
      (c.tap n).held.getLsbD j = true ∨ (c.critDue n cls.toNat lost = true ∧ j = cls.toNat))) ∧
    (c.critDue n cls.toNat lost = true → y.Lowest) ∧
    (¬ c.critDue n cls.toNat lost = true → y.fault = (c.tap n).fault) := by
  unfold Chip.declaredTap
  cases hd : c.critDue n cls.toNat lost with
  | false => exact ⟨fun j _ => by simp, nofun, fun _ => rfl⟩
  | true =>
    refine ⟨fun j hj => ?_, fun _ => lowest_holding _ _, fun h => absurd rfl h⟩
    exact (held_set (c.tap n).held (k := cls.toNat) hj).trans (or_congr_right (Iff.symm (by simp)))

/-- A tap that enters another mode shows the faults that it showed. -/
theorem entered_fault (a : BitVec 4) (x : Tap) : (x.entered a).held = x.held ∧ (x.entered a).fault = x.fault ∧
    (x.entered a).arb = a := by
  unfold Tap.entered
  split <;> exact ⟨rfl, rfl, rfl⟩

/-- The tap behind a class declared and the comparison of the chains. -/
theorem declared_facts {p : Prop} [Decidable p] {y : Tap}
    (hy : y = if p then (c.declaredTap n cls lost).entered 6 else c.declaredTap n cls lost) :
    (∀ j, j ≤ 5 → (y.held.getLsbD j = true ↔
      (c.tap n).held.getLsbD j = true ∨ (c.critDue n cls.toNat lost = true ∧ j = cls.toNat))) ∧
    (c.critDue n cls.toNat lost = true → y.Lowest) ∧
    (¬ c.critDue n cls.toNat lost = true → y.fault = (c.tap n).fault) ∧ (p → y.arb = 6) ∧
    (¬ p → y.arb = (c.tap n).arb) := by
  have h := declaredTap_facts (n := n) (c := c) (cls := cls) (lost := lost)
  obtain ⟨e1, e2, e3⟩ := entered_fault 6 (c.declaredTap n cls lost)
  have hh : y.held = (c.declaredTap n cls lost).held ∧ y.fault = (c.declaredTap n cls lost).fault := by
    rw [hy]
    split
    · exact ⟨e1, e2⟩
    · exact ⟨rfl, rfl⟩
  unfold Tap.Lowest at h ⊢
  rw [hh.1, hh.2]
  refine ⟨h.1, h.2.1, h.2.2, fun hp => ?_, fun hp => ?_⟩
  · rw [hy, if_pos hp, e3]
  · rw [hy, if_neg hp, declaredTap_arb]

/-- What the chains show alone, over the classes that R65 judges. -/
theorem anyAlone_iff : [1, 2, 5].any (c.classAlone n) = true ↔
    let y := c.tap n
    let held := fun (l : List CritRun) (i d : Nat) =>
      l[i]?.any (fun u => u.on && decide (u.since + d ≤ (c.group (n / 16)).newest)) = true
    (held y.critP 1 32000 ∧ ¬ held y.critC 1 0) ∨ (held y.critP 2 32000 ∧ ¬ held y.critC 2 0) ∨
      (y.excP = true ∧ y.excC = false) := by
  simp [Chip.classAlone, critHeld_eq, Chip.critNow]

theorem group_of_groups {d : Chip} (h : d.groups = c.groups) (g : Nat) : d.group g = c.group g := by
  unfold Chip.group
  rw [h]

end

theorem completes_imp {i : Instr} {s : State} {P Q : Chip → Prop} (h : completes i s P) (hPQ : ∀ d, P d → Q d) :
    completes i s Q := by
  obtain ⟨t, ht, hp, hP⟩ := h
  exact ⟨t, ht, hp, hPQ _ hP⟩

/-- Settles O38. -/
theorem tapArbiter : Obligations.TapArbiter := by
  unfold Obligations.TapArbiter
  refine ⟨fun t cls lost s hs => ⟨fun hm ha => ?_, fun h => ?_, fun ha hf => ?_, fun h => ?_, ?_⟩,
    fun t r s hs => ⟨fun hb ha hr => ?_, fun hb ha => ?_, fun hb ha => ?_, fun ha => ?_, fun ha hr => ?_, fun ha => ?_,
      fun hb => ⟨?_, ?_⟩, fun hb => ?_, fun hb => ?_⟩⟩
  · refine completes_imp (completes_cmpWindowEnd t hs hm ha) (fun d hd => ?_)
    obtain ⟨hy, ho, hk⟩ := hd
    have hw := sameWindow_windowedTap t.val s.chip
    obtain ⟨f1, f2, f3, f4, -⟩ := judged_fresh (s.chip.windowExceeds t.val) (s.chip.tap t.val)
    obtain ⟨g1, g2, g3⟩ := windowed_counts (s.chip.windowExceeds t.val) (s.chip.tap t.val)
    obtain ⟨b1, b2⟩ := windowedTap_arb t.val s.chip
    simp only [declares_iff, windowExceeds_iff, ← hw.exceed, ← hw.run, ← hw.clear, ← hw.disagree, and_assoc] at g1 g2 g3 b1 b2
    rw [hy]
    exact ⟨hw.n.trans f1, hw.sq.trans f2, hw.p.trans f3, hw.c.trans f4, ho, g1, g2, g3, b1, b2, hk⟩
  · refine answers_same rfl hs ?_
    rw [windowEnd_eq, if_pos]
    simpa using h
  · refine completes_imp (completes_tapFaultDeclare t lost hs ha ((faultFits_iff cls).mpr hf)) (fun d hd => ?_)
    obtain ⟨hy, ho, hk⟩ := hd
    obtain ⟨h1, h2, h3, h4, h5⟩ := declared_facts hy
    simp only [critDue_iff, classAlone_iff] at h1 h2 h3 h4 h5
    exact ⟨ho, h1, h2, h3, h4, h5, hk⟩
  · refine answers_same rfl hs (if_pos (h.imp_right fun hn => ?_))
    exact Bool.eq_false_iff.mpr (mt (faultFits_iff cls).mp hn)
  · refine completes_imp (completes_tapFaultClear t lost hs) (fun d hd => ?_)
    obtain ⟨⟨hh, ha, hl⟩, ho, hk⟩ := hd
    refine ⟨ho, ha, fun j h1 h5 => ?_, fun he => ?_, fun hne => ?_, hk⟩
    · have hm : j ∈ [1, 2, 3, 4, 5] := by simp; omega
      refine (hh j h5).trans (and_congr_right fun _ => not_congr ?_)
      rw [List.mem_filter]
      exact (and_iff_right hm).trans (critOver_iff j lost)
    · exact hl.resolve_right (fun h => h.1 he)
    · rcases hl with he | ⟨-, hl⟩
      · exact absurd (congrArg Tap.held he) hne
      · exact hl
  · have h : s.chip.routineSlot t.val = s.chip.askRound t.val true := by
      unfold Chip.routineSlot
      rcases ha with ha | ha | ha <;> simp [ha, hr]
    refine completes_imp (completes_askRound rfl hs h) (fun d hd => ?_)
    exact ⟨hd.1.trans (if_neg (by simp [hb])), hd.2⟩
  · have h : s.chip.routineSlot t.val = s.chip.askRound t.val false := by simp [Chip.routineSlot, ha]
    refine completes_imp (completes_askRound rfl hs h) (fun d hd => ?_)
    exact ⟨hd.1.trans (if_neg (by simp [hb])), hd.2⟩
  · refine completes_imp (completes_askRound rfl hs (if_pos ha)) (fun d hd => ?_)
    exact ⟨hd.1.trans (if_neg (by simp [hb])), hd.2⟩
  · refine answers_same rfl hs ?_
    unfold Chip.routineSlot
    rcases ha with ha | ha | ha <;> simp [ha]
  · refine answers_same rfl hs ?_
    unfold Chip.routineSlot
    simpa [hr] using fun h => absurd h ha
  · exact answers_same rfl hs (if_neg ha)
  · refine answers_same rfl hs ?_
    unfold Chip.routineSlot Chip.askRound
    simp [hb]
  · refine answers_same rfl hs ?_
    unfold Chip.askRound
    simp [hb]
  · exact answers_same rfl hs ((roundEnd_eq t.val r s.chip).trans (if_pos (by simp [hb])))
  · refine completes_imp (completes_refRoundEnd t r hs hb) (fun d hd => ?_)
    obtain ⟨⟨b, p, q, hy, he⟩, ho, ht, hk⟩ := hd
    have O := over_decided (x := s.chip.tap t.val) (ok := roundPass (s.chip.tapMode t.val == mPULSE) r)
      (al := [1, 2, 5].any (d.classAlone t.val)) (b := b) (p := p) (q := q)
    rw [← hy] at O
    refine ⟨O.busy, O.last, O.routine, ho, fun h0 h1 => ⟨O.ticket, ht h0 h1⟩, fun e h1 h2 h3 => O.bad.trans (he e h1 h2 h3),
      fun h1 h2 => ?_, fun h1 h2 => ?_, fun h1 h2 => ?_, fun hc hf => ?_, fun hc hf hp => ?_, fun hc hf hp => ⟨?_, ?_, ?_⟩, hk⟩
    · obtain ⟨e1, e2, e3, e4⟩ := ended_uncounted (x := s.chip.tap t.val) (b := b) (p := p) (q := q)
        (ok := roundPass (s.chip.tapMode t.val == mPULSE) r) (by simp [Tap.counts, h1])
      rw [hy, decided_normal h1, if_pos h2]
      exact ⟨e4.trans h1, e1, e3, e2⟩
    · rw [hy, decided_normal h1, if_neg (by simp [h2])]
      exact ⟨rfl, rfl, rfl, rfl⟩
    · have hc := Bool.eq_false_iff.mpr (mt counts_iff.mp h2)
      obtain ⟨e1, e2, e3, e4⟩ := ended_uncounted (x := s.chip.tap t.val) (b := b) (p := p) (q := q)
        (ok := roundPass (s.chip.tapMode t.val == mPULSE) r) hc
      rw [hy, decided_uncounted h1 hc]
      exact ⟨e4, e1, e3, e2⟩
    all_goals
      have hct := counts_iff.mpr hc
      obtain ⟨e1, e2, e3, e4, e5⟩ := ended_counted (b := b) (p := p) (q := q)
        (ok := roundPass (s.chip.tapMode t.val == mPULSE) r) hct
      rw [decided_counted hct, e2, e3, e4] at hy
    · rw [if_pos hf] at hy
      have hal := (anyAlone_iff (n := t.val) (c := d)).trans (by rw [group_of_groups (hk .groups (by decide))])
      by_cases ha : [1, 2, 5].any (d.classAlone t.val) = true
      · rw [if_pos ha] at hy
        exact ⟨fun _ => (congrArg Tap.arb hy).trans rfl, fun h => absurd (hal.mp ha) h⟩
      · rw [if_neg ha] at hy
        exact ⟨fun h => absurd (hal.mpr h) ha, fun _ => (congrArg Tap.arb hy).trans rfl⟩
    · rw [if_neg (Nat.not_le.mpr hf), if_pos hp] at hy
      rw [hy]
      rfl
    all_goals rw [if_neg (Nat.not_le.mpr hf), if_neg (Nat.not_le.mpr hp)] at hy
    · intro h2 h3 h4
      rw [if_pos (by simp [h2, h3, h4])] at hy
      rw [hy]
      exact ⟨rfl, rfl⟩
    · intro h2 h3 h4
      rw [if_neg (by rcases h3 with h3 | h3 <;> simp [h3]), e1, if_pos (by simp [h2, h4])] at hy
      rw [hy]
      exact ⟨rfl, rfl, rfl, rfl⟩
    · intro h
      have h1 : ¬ ((s.chip.tap t.val).arb == 2 && decide (3 ≤ (s.chip.tap t.val).clearRun) &&
          roundPass (s.chip.tapMode t.val == mPULSE) r) = true := by
        rcases h with h | ⟨h | h, -⟩ <;> simp [h]
      have h2 : ¬ ((s.chip.tap t.val).arb == 2 && decide (10 ≤ (satInc (s.chip.tap t.val).rounds).toNat)) = true := by
        rcases h with h | ⟨-, h⟩ <;> simp [h]
      rw [if_neg h1, e1, if_neg h2] at hy
      rw [hy]
      exact ⟨e5, e1, e3, e2⟩

end Sys2Proof.Machine
end

section
/-! The commit of a gate (R78) that ends a legal change, and the change that waits behind it (R40, R420). -/

namespace Sys2Proof.Machine

open Sys2Proof Sys2Proof.Claims

/-- A change of engine 0 that has its effect and waits for the engine's commits. -/
def doneChange : PendCommit := { kind := 2, stamp := some 50, applied := true, engines := 1 }

/-- A change of engine 1 that has no instant yet. -/
def nextChange : PendCommit := { kind := 2, engines := 2 }

/-- The oldest gate of engine 0 lies past the first change, and every horizon allows it. -/
def commitEndsChange : State where
  chip :=
    { ({} : Chip) with
      sys := { ({} : Chip).sys with ready := 0xFFFFF, dead := 0 }
      cfg := { ({} : Chip).cfg with pend := [doneChange, nextChange] }
      engs := [(0, { run := 2, gates := [{ six := 100 }], hz := [(0, 100), (1, 100), (2, 100), (3, 100)] })] }

theorem commitEndsChange_settled : Settled commitEndsChange := ⟨rfl, rfl, nofun⟩

set_option Elab.async false in
/-- The commit of engine 0 gives the change that waits its instant, which enters the context log of engine 1. -/
theorem commitEndsChange_log : ((Chip.settle commitEndsChange.chip (commitEndsChange.chip.gateCommit 0)).eng 1).log ≠
    (commitEndsChange.chip.eng 1).log := by decide +kernel

set_option Elab.async false in
/-- Refutes O39: a commit of one engine can end a legal change, and the next change, which then gets its instant, enters
the context log of another engine. -/
theorem not_gatesAndHorizons : ¬ Obligations.GatesAndHorizons := by
  unfold Obligations.GatesAndHorizons
  intro h
  obtain ⟨-, hcommit, -⟩ := h 0 0 { six := 100 } [] commitEndsChange commitEndsChange_settled
  obtain ⟨-, -, -, -, -, -, -, hother⟩ :=
    of_completes (hcommit rfl (by decide +kernel) (by decide +kernel)) (f := Chip.gateCommit 0) rfl
  exact commitEndsChange_log (congrArg Engine.log (hother 1 (by decide)))

end Sys2Proof.Machine
end

section
/-! The switchover of a sidestep (R83, R84) and the live values that the display holds (R228). -/

namespace Sys2Proof.Machine

open Sys2Proof Sys2Proof.Claims

/-- Engine 0 ends a sidestep while the display holds a live value of meter point 0, which is its own. -/
def liveSwitchover : State where
  chip :=
    { ({} : Chip) with
      sys := { ({} : Chip).sys with ready := 0xFFFFF, dead := 0 }
      cfg := { ({} : Chip).cfg with live := [(aMp 0, 0x80000000), (aMp 0 + 4, 0x80)] }
      disp := { ({} : Chip).disp with live := [(0, 0)] }
      engs := [(0, { run := 3 })] }

theorem liveSwitchover_settled : Settled liveSwitchover := ⟨rfl, rfl, nofun⟩

set_option Elab.async false in
/-- The new epoch takes the live value back. -/
theorem liveSwitchover_disp : (Chip.settle liveSwitchover.chip (liveSwitchover.chip.switchover 0)).disp.live = [] := by
  decide +kernel

/-- Refutes O40: the epoch that a switchover opens also takes back the live values of the engine's meter points from the
display, which the frame leaves out. -/
theorem not_sidestepsAndRecovery : ¬ Obligations.SidestepsAndRecovery := by
  unfold Obligations.SidestepsAndRecovery
  intro h
  obtain ⟨-, -, -, -, hswitch, -⟩ := h 0 {} liveSwitchover liveSwitchover_settled
  obtain ⟨-, -, -, -, -, -, hframe⟩ :=
    of_completes (hswitch rfl (by decide) rfl rfl) (f := Chip.switchover 0) rfl
  have hdisp : (Chip.settle liveSwitchover.chip (liveSwitchover.chip.switchover 0)).disp = liveSwitchover.chip.disp :=
    hframe .disp (by decide)
  have hlive := liveSwitchover_disp
  rw [hdisp] at hlive
  cases hlive

end Sys2Proof.Machine
end

section
/-! The reload of an engine (R87, R128) whose mark of lost data and whose mark of a resumption disagree. -/

namespace Sys2Proof.Machine

open Sys2Proof Sys2Proof.Claims

/-- Engine 0 restarts from its checkpoint at instant 0: it has lost data and no resumption is marked, and the newest
sample is that of instant 8. -/
def plainReload : State where
  chip :=
    { ({} : Chip) with
      sys := { ({} : Chip).sys with ready := 0xFFFFF, dead := 0 }
      groups := [(0, { newest := 8 })]
      lib := [(0, { installed := true })]
      engs := [(0, { run := 5, lostFrom := some 0, ckOk := true })] }

theorem plainReload_settled : Settled plainReload := ⟨rfl, rfl, nofun⟩

set_option Elab.async false in
/-- The engine goes on at its checkpoint. -/
theorem plainReload_hpos : ((Chip.settle plainReload.chip (plainReload.chip.reloadDone 0)).eng 0).hpos = 0 := by
  decide +kernel

/-- Refutes O41: where a reloaded engine goes on follows the mark of a resumption, which an engine that has lost data
need not have; this one goes on at its checkpoint instead of the newest sample. -/
theorem not_engineLoadsAndQuality : ¬ Obligations.EngineLoadsAndQuality := by
  unfold Obligations.EngineLoadsAndQuality
  intro h
  obtain ⟨hreload, -⟩ := h.1 0 plainReload plainReload_settled
  obtain ⟨hgood, -⟩ := hreload rfl rfl rfl rfl rfl ⟨rfl, .inl rfl⟩
  obtain ⟨-, -, -, -, hpos, -⟩ := of_completes (hgood rfl) (f := Chip.reloadDone 0) rfl
  exact absurd (plainReload_hpos.symm.trans hpos) (by decide)

end Sys2Proof.Machine
end

section
/-! The close of a session (R182) whose meter point has left its engine. -/

namespace Sys2Proof.Machine

open Sys2Proof Sys2Proof.Claims

/-- A session whose close was asked for while engine 1 had its meter point: the engine has not committed up to the close,
and the meter point is in no engine any more. -/
def movedSession : State where
  chip :=
    { ({} : Chip) with
      sys := { ({} : Chip).sys with ready := 0xFFFFF, dead := 0 }
      time := { ({} : Chip).time with six := 8 }
      bill := { ({} : Chip).bill with sess := [(0, { no := 1, closeSix := some 8, eng := some 1 })] }
      engs := [(1, { run := 2 })] }

theorem movedSession_settled : Settled movedSession := ⟨rfl, rfl, nofun⟩

set_option Elab.async false in
/-- The session stays open. -/
theorem movedSession_stays : ((Chip.settle movedSession.chip (movedSession.chip.when
    (movedSession.chip.sessDue 0 8) (Chip.sessionEnd 0))).session 0).no = 1 := by decide +kernel

/-- Refutes O43: a close waits for the engine that had the meter point when it was asked for, not for the one that has
it now. -/
theorem not_sessionsProfilesPulses : ¬ Obligations.SessionsProfilesPulses := by
  unfold Obligations.SessionsProfilesPulses
  intro h
  obtain ⟨-, hclose, -⟩ := h 0 0 0 8 0 true movedSession movedSession_settled
  obtain ⟨hgone, -⟩ := of_completes (hclose (by decide) rfl (by decide) rfl (by decide))
    (f := fun c => match (c.session 0).closeSix with
      | none => c
      | some z => c.when (c.sessDue 0 z) (Chip.sessionEnd 0)) rfl
  exact absurd (movedSession_stays.symm.trans (congrArg Session.no hgone)) (by decide)

end Sys2Proof.Machine
end

section
/-! The takeover of the supply by MAIN (R203) and a spill pulse that the supply by AUX held back (R155). -/

namespace Sys2Proof.Machine

open Sys2Proof Sys2Proof.Claims

/-- AUX feeds the module, and a pulse is owed on drive 0, which may not turn on from AUX. -/
def owedOnAux : State where
  chip :=
    { ({} : Chip) with
      sys := { ({} : Chip).sys with ready := 0xFFFFF, dead := 0 }
      power := { ({} : Chip).power with mainOk := false, auxOk := true, onAux := true }
      cfg := { ({} : Chip).cfg with live := [(0x520C0, 0x80000080)] }
      bill := { ({} : Chip).bill with spill := [(0, { backlog := 1 })] }
      drv := { ({} : Chip).drv with d := [(0, { phase := 0 })] } }

theorem owedOnAux_settled : Settled owedOnAux := ⟨rfl, rfl, nofun⟩

set_option Elab.async false in
/-- The pulse starts in the same step. -/
theorem owedOnAux_pulse : ((Chip.settle owedOnAux.chip owedOnAux.chip.mainTakeover).spill 0 0).phase = 1 := by
  decide +kernel

/-- Refutes O45: when MAIN takes over, a spill pulse that the supply by AUX held back starts, which changes the billing
block. -/
theorem not_suppliesAndHousekeeping : ¬ Obligations.SuppliesAndHousekeeping := by
  unfold Obligations.SuppliesAndHousekeeping
  intro h
  obtain ⟨hfed, -⟩ := h 0 0 0 {} owedOnAux owedOnAux_settled
  obtain ⟨-, htake, -⟩ := hfed rfl
  obtain ⟨-, -, hbill, -⟩ := of_completes htake (f := Chip.mainTakeover) rfl
  have hspill : ((Chip.settle owedOnAux.chip owedOnAux.chip.mainTakeover).spill 0 0).phase = 0 :=
    congrArg (fun b : Bill => (Tbl.get ({} : Spill) b.spill 0).phase) hbill
  exact absurd (owedOnAux_pulse.symm.trans hspill) (by decide)

end Sys2Proof.Machine
end

section
/-! The restart (R209) and an event counter that MRAM does not hold yet (R216). -/

namespace Sys2Proof.Machine

open Sys2Proof Sys2Proof.Claims

/-- The module is off; the counter of the switch word's event has counted 5 since the last copy to MRAM. -/
def uncopiedCounter : State where
  chip :=
    { ({} : Chip) with
      power := { ({} : Chip).power with off := true }
      evt := { ({} : Chip).evt with src := [(0x0E08, { cnt := 5, dirty := true })] } }

theorem uncopiedCounter_settled : Settled uncopiedCounter := ⟨rfl, rfl, nofun⟩

set_option Elab.async false in
/-- The restart counts from the copy. -/
theorem uncopiedCounter_counts :
    (Tbl.get ({} : EvtSrc) (Chip.settle uncopiedCounter.chip (uncopiedCounter.chip.powerUp {})).evt.src 0x0E08).cnt = 1 := by
  decide +kernel

set_option Elab.async false in
/-- Refutes O46: at a restart the counter of an event goes on from its copy in MRAM, not from its count before. -/
theorem not_powerLossAndRestart : ¬ Obligations.PowerLossAndRestart := by
  unfold Obligations.PowerLossAndRestart
  intro h
  obtain ⟨-, -, -, hup, -⟩ := h {} 0 uncopiedCounter uncopiedCounter_settled
  obtain ⟨-, -, -, -, -, -, -, -, -, -, -, -, -, hsw⟩ := of_completes (hup rfl) (f := Chip.powerUp {}) rfl
  obtain ⟨-, hcounts⟩ := hsw rfl (by decide)
  exact absurd (uncopiedCounter_counts.symm.trans (hcounts (by decide +kernel))) (by decide)

end Sys2Proof.Machine
end

section
/-! The release of FQ5 (R235) while a packet of the bay program waits for it (R241). -/

namespace Sys2Proof.Machine

open Sys2Proof Sys2Proof.Claims

/-- The host owns FQ5, and the bay's SIGNAL waits for room in it. -/
def waitingSignal : State where
  chip :=
    { ({} : Chip) with
      host := { ({} : Chip).host with enabled := true, vioOk := true }
      sys := { ({} : Chip).sys with ready := 0xFFFFF, dead := 0 }
      masters := [(0, { role := 3 })]
      ferry := [(5, { owner := some 0 })]
      bay := { ({} : Chip).bay with signal := some (0, []) } }

theorem waitingSignal_settled : Settled waitingSignal := ⟨rfl, rfl, nofun⟩

set_option Elab.async false in
/-- The release ends the wait of the bay program. -/
theorem waitingSignal_ends :
    (Chip.settle waitingSignal.chip (waitingSignal.chip.put1 0 0xA00B0 0x20000000)).bay.signal = none := by
  decide +kernel

/-- Refutes O49: the release of FQ5 ends the wait of a SIGNAL, which is a change of the bay. -/
theorem not_ferryQueues : ¬ Obligations.FerryQueues := by
  unfold Obligations.FerryQueues
  intro h
  obtain ⟨-, -, hrelease, -⟩ := h 0 5 [] [] {} 0 0 waitingSignal waitingSignal_settled
  obtain ⟨-, -, -, -, -, hframe⟩ := of_completes (hrelease ⟨rfl, rfl, rfl, rfl, by decide⟩ rfl)
    (f := Chip.put1 0 0xA00B0 0x20000000) rfl
  exact absurd (waitingSignal_ends.symm.trans (congrArg Bay.signal (hframe .bay (by decide)))) (by decide)

end Sys2Proof.Machine
end

section
/-! The buttons and the page timer of the display (R227-R229). -/

namespace Sys2Proof.Machine

open Sys2Proof Sys2Proof.Claims

/-- A command that changes the display alone. -/
theorem completes_disp {i : Instr} {s : State} {f : Chip → Chip} {y : Disp} (hi : exec i s = run f s) (hs : Settled s)
    (hf : f s.chip = { s.chip with disp := y }) :
    completes i s (fun d => d.disp = y ∧ keepsBut [.disp] s.chip d) :=
  completes_quiet hi hf hs ((calm_far _ _ _ _ _ _ _ _ _ _ _ _ _ _).quiet (fun _ => rfl))
    ⟨rfl, keepsBut_disp (by decide) y⟩

section
variable {c : Chip}

theorem nextPage_normal (ha : c.disp.alt = false) : c.nextPage = { c with disp :=
    { c.disp with page := if c.disp.page + 1 < c.normalPages then c.disp.page + 1 else 0 } } := by
  simp [Chip.nextPage, Chip.modDisp, ha]

theorem btnShort_shows (hh : c.dispHeld = false) (ha : c.disp.alt = false) : c.btnShort = { c with disp :=
    { c.disp with page := if c.disp.page + 1 < c.normalPages then c.disp.page + 1 else 0
                  hold := true, backlight := true, pressAt := c.now } } := by
  rw [Chip.btnShort, if_neg (by simp [hh]), nextPage_normal ha]
  rfl

/-- The display with its light out once nobody has pressed a button for 60 s. -/
def Chip.dimmed (c : Chip) : Chip :=
  { c with disp := { c.disp with backlight := c.disp.backlight && !(c.cb 0xB0000 31 && c.pressOld) } }

/-- The timer outside a test, where no hold ends. -/
theorem pageTimer_free (hh : c.dispHeld = false) (ht : c.disp.test = 0) (ho : c.disp.hold = false) : c.pageTimer =
    if c.disp.alt && c.pressOld then c.dimmed.modDisp (fun d => { d with alt := false, page := 0 })
    else c.dimmed.nextPage := by
  unfold Chip.pageTimer
  rw [if_neg (by simp [hh]), if_neg (by simp [ht]), if_neg (by simp [ht])]
  simp only [ho, Bool.false_or]
  exact if_neg (by simp [Chip.modDisp, ho])

end

/-- Settles O50. -/
theorem displayButtons : Obligations.DisplayButtons := by
  unfold Obligations.DisplayButtons
  refine fun s hs => ⟨fun hh => ⟨?_, ?_, ?_⟩, fun hh ha => ?_, fun hh ha => ?_, fun hh ha => ?_, fun hh ht => ?_, fun hh ht => ?_,
    fun hh ht ho ha hb => ?_, fun hh ht ho ha => ?_, fun hh ht ho ha hold => ?_⟩
  · exact answers_same rfl hs (if_pos hh)
  · exact answers_same rfl hs (if_pos hh)
  · exact answers_same rfl hs (if_pos hh)
  · exact completes_disp rfl hs (btnShort_shows hh ha)
  · refine completes_disp rfl hs ?_
    simp [Chip.btnLong, Chip.modDisp, hh, ha]
  · refine completes_disp rfl hs ?_
    simp [Chip.btnLong, Chip.modDisp, hh, Nat.ne_of_gt ha]
  · refine completes_disp rfl hs ?_
    simp [Chip.pageTimer, Chip.modDisp, hh, ht]
  · refine completes_disp rfl hs ?_
    simp [Chip.pageTimer, Chip.modDisp, hh, ht]
  · refine completes_disp rfl hs ?_
    simp [Chip.pageTimer, Chip.modDisp, hh, ht, ho, ha, hb]
  · refine completes_disp rfl hs ((pageTimer_free hh ht ho).trans ((if_neg (by simp [ha])).trans ?_))
    exact nextPage_normal (c := s.chip.dimmed) ha
  · refine completes_disp rfl hs ?_
    have hp : s.chip.pressOld = true := hold
    refine (pageTimer_free hh ht ho).trans ((if_pos (by simp [ha, hp])).trans ?_)
    simp [Chip.dimmed, Chip.modDisp, hp]

end Sys2Proof.Machine
end

section
/-! The claim of the drives (R282) and a spill pulse that waits for its drive (R155). -/

namespace Sys2Proof.Machine

open Sys2Proof Sys2Proof.Claims

/-- The claim of the drives of die 0. -/
def claimFirstDie (c : Chip) : Chip := each ((List.range 6).filter (fun d => (1 : BitVec 12).getLsbD d)) Chip.claimDie c

set_option Elab.async false in
/-- Drive 0 is off, and on again behind the claim, for the pulse. -/
theorem claimFirstDie_drive : reclaimPulse.chip.driveOn 0 = false ∧
    ((Chip.settle reclaimPulse.chip (claimFirstDie reclaimPulse.chip)).drive 0).cmd = true := by decide +kernel

/-- Refutes O51: the claim frees a drive that was off for a spill pulse that waits, which turns it on in the same step. -/
theorem not_driveConditions : ¬ Obligations.DriveConditions := by
  unfold Obligations.DriveConditions
  intro h
  obtain ⟨-, -, -, -, -, -, -, -, -, -, -, -, -, -, -, -, -, -, -, -, -, hclaim, -⟩ :=
    h false false false 0 0 0 0 1 0 reclaimPulse reclaimPulse_settled
  have hdrive := of_completes hclaim (f := claimFirstDie) rfl 0 (by decide)
  rw [if_pos (by decide)] at hdrive
  obtain ⟨hoff, hon⟩ := claimFirstDie_drive
  exact absurd (hon.symm.trans ((congrArg Drive.cmd hdrive).trans hoff)) (by decide)

end Sys2Proof.Machine
end

section
/-! A pilot state that turns a drive of the trip map on (R255), and the lamp start of that drive (R272). -/

namespace Sys2Proof.Machine

open Sys2Proof Sys2Proof.Claims

/-- Drive 0 is commanded on, has a lamp and is in the trip map; the pilot gate holds it off, and the pilot generator is
at +12 V. -/
def gatedLamp : State where
  chip :=
    { ({} : Chip) with
      sys := { ({} : Chip).sys with ready := 0xFFFFF, dead := 0 }
      cfg := { ({} : Chip).cfg with live := [(0xC0000, 0x44000000), (0xC0004, 1), (0xD0100, 0x04000000)] }
      bay := { ({} : Chip).bay with pilotReq := 0 }
      drv := { ({} : Chip).drv with d := [(0, { phase := 0, cmd := true })] } }

theorem gatedLamp_settled : Settled gatedLamp := ⟨rfl, rfl, nofun⟩

set_option Elab.async false in
/-- Three samples of +6 V confirm state C, which turns the drive on: its instant of turn-on is kept. -/
theorem gatedLamp_onAt :
    ((Chip.settle gatedLamp.chip (gatedLamp.chip.pilotSamples ⟨6000, 6000, 6000⟩ 0)).drive 0).onAt = some 0 := by
  decide +kernel

/-- Refutes O52: a pilot state can turn a drive with a lamp on, and the instant of its turn-on is a change of the
drives. -/
theorem not_bayConditions : ¬ Obligations.BayConditions := by
  unfold Obligations.BayConditions
  intro h
  obtain ⟨-, -, -, -, hpilot, -⟩ :=
    h 0 6000 0 0 {} 0 0 0 [] 0 false 0 [] {} 0 {} [] gatedLamp gatedLamp_settled
  obtain ⟨-, -, -, hframe⟩ := of_completes (hpilot rfl) (f := Chip.pilotSamples ⟨6000, 6000, 6000⟩ 0) rfl
  have hdrv : (Chip.settle gatedLamp.chip (gatedLamp.chip.pilotSamples ⟨6000, 6000, 6000⟩ 0)).drv = gatedLamp.chip.drv :=
    hframe .drv (by decide)
  have honAt := congrArg (fun x : Drives => (Tbl.get ({} : Drive) x.d 0).onAt) hdrv
  exact absurd (gatedLamp_onAt.symm.trans honAt) (by decide)

end Sys2Proof.Machine
end

section
/-! A zone that an acknowledgement restarts (R296) and the lamp start of a drive of its pair (R272). -/

namespace Sys2Proof.Machine

open Sys2Proof Sys2Proof.Claims

/-- A channel whose inputs are all closed and whose zones are in START. -/
def closedChannel : SafeChan := { inp := 0xFFFF }

/-- Zone 0 waits in START for its acknowledgement, with both channels agreed; drive 40, which it grants, is commanded on
and has a lamp. -/
def ackedLamp : State where
  chip :=
    { ({} : Chip) with
      sys := { ({} : Chip).sys with ready := 0xFFFFF, dead := 0 }
      time := { ({} : Chip).time with six := 6400 }
      cfg := { ({} : Chip).cfg with live := [(aDcfg 40, 0x04000000)] }
      drv := { ({} : Chip).drv with d := [(40, { phase := 0, cmd := true })] }
      safe :=
        { ({} : Chip).safe with
          sfUp := true, edgeUp := true, adopted := some 1, ackHigh := some 0, agreeing := 1000
          sf := closedChannel, edge := closedChannel } }

theorem ackedLamp_settled : Settled ackedLamp := ⟨rfl, rfl, nofun⟩

/-- The falling edge of SAFE_ACK that is valid for this state. -/
def ackFalls (c : Chip) : Chip := (c.modSafe (fun x => { x with ackHigh := none, ackStuck := false })).ack

theorem ackedLamp_exec : exec (.safeAckEdge false) ackedLamp =
    .next { ackedLamp with chip := Chip.settle ackedLamp.chip (ackFalls ackedLamp.chip) } := rfl

set_option Elab.async false in
/-- The acknowledgement grants the zone, which turns the drive on: its instant of turn-on is kept. -/
theorem ackedLamp_onAt : ((Chip.settle ackedLamp.chip (ackFalls ackedLamp.chip)).drive 40).onAt = some 6400 := by
  decide +kernel

/-- Refutes O53: an acknowledgement can turn a drive with a lamp on, and the instant of its turn-on is a change of the
drives. -/
theorem not_safetyZones : ¬ Obligations.SafetyZones := by
  unfold Obligations.SafetyZones
  intro h
  obtain ⟨-, -, -, -, -, hack, -⟩ := h false false false 0 0 0 0 {} false false 0 0 ackedLamp ackedLamp_settled
  obtain ⟨t, hexec, -, -, hframe, -⟩ := hack rfl (by decide) (by decide) rfl rfl
  obtain rfl := Host.Outcome.next.inj (ackedLamp_exec.symm.trans hexec)
  have hdrv : (Chip.settle ackedLamp.chip (ackFalls ackedLamp.chip)).drv = ackedLamp.chip.drv := hframe .drv (by decide)
  have honAt := congrArg (fun x : Drives => (Tbl.get ({} : Drive) x.d 40).onAt) hdrv
  exact absurd (ackedLamp_onAt.symm.trans honAt) (by decide)

end Sys2Proof.Machine
end

section
/-! Zones that the channels come to grant (R287, R304) and the lamp start of a drive of their pair (R272). -/

namespace Sys2Proof.Machine

open Sys2Proof Sys2Proof.Claims

/-- A channel whose inputs are all closed, with one zone in state `st`. -/
def zoneChannel (st : BitVec 3) : SafeChan := { inp := 0xFFFF, zones := [(0, { st := st })] }

/-- Both channels run with zone 0 in state `st`, after `n` exchanges that agreed; drive 40, which the zone grants, is
commanded on and has a lamp. -/
def zoneLamp (st : BitVec 3) (n : Nat) : Chip :=
  { ({} : Chip) with
    sys := { ({} : Chip).sys with ready := 0xFFFFF, dead := 0 }
    cfg := { ({} : Chip).cfg with live := [(aDcfg 40, 0x04000000)] }
    drv := { ({} : Chip).drv with d := [(40, { phase := 0, cmd := true })] }
    safe :=
      { ({} : Chip).safe with
        sfUp := true, edgeUp := true, adopted := some 1, agreeing := n, conns := [(0, { st := 1 })]
        sf := zoneChannel st, edge := zoneChannel st } }

/-- No drive of such a block has turned on yet. -/
theorem zoneLamp_onAt (st : BitVec 3) (n : Nat) : ((zoneLamp st n).drive 40).onAt = none := rfl

/-- The exchange from which on SF's grants count. -/
def lastExchange : State := { chip := zoneLamp 2 999 }

theorem lastExchange_settled : Settled lastExchange := ⟨rfl, rfl, nofun⟩

set_option Elab.async false in
theorem lastExchange_onAt : (match exec .crossLinkExchange lastExchange with
    | .next t => (t.chip.drive 40).onAt
    | _ => none) = some 0 := by decide +kernel

/-- A connection is lost while zone 0 stands in DEMAND with its demand gone. -/
def lostBesideDemand : State := { chip := zoneLamp 3 1000 }

theorem lostBesideDemand_settled : Settled lostBesideDemand := ⟨rfl, rfl, nofun⟩

set_option Elab.async false in
theorem lostBesideDemand_onAt : (match exec (.escWatchdog 0) lostBesideDemand with
    | .next t => (t.chip.drive 40).onAt
    | _ => none) = some 0 := by decide +kernel

/-- Where the drives are in the frame, no drive turns on with a lamp. -/
theorem onAt_of_frame {bs : List Block} (hb : Block.drv ∉ bs) {c d : Chip} (h : keepsBut bs c d) (n : Nat) :
    (d.drive n).onAt = (c.drive n).onAt :=
  congrArg (fun x : Drives => (Tbl.get ({} : Drive) x.d n).onAt) (h .drv hb)

/-- Refutes O54: the thousandth exchange that agrees can grant a zone and so turn a drive with a lamp on, and the
instant of its turn-on is a change of the drives. -/
theorem not_safetyChannels : ¬ Obligations.SafetyChannels := by
  unfold Obligations.SafetyChannels
  intro h
  obtain ⟨hlink, -⟩ := h false 0 0 0 0 0 0 {} lastExchange lastExchange_settled
  obtain ⟨t, hexec, -, hframe, -⟩ := hlink rfl rfl
  have honAt := lastExchange_onAt
  rw [hexec] at honAt
  exact absurd (honAt.symm.trans (onAt_of_frame (by decide) hframe 40)) (by decide)

/-- Refutes O55: the end of a connection evaluates every zone, and one whose demand is gone comes back to GRANT and turns
a drive with a lamp on, which is a change of the drives. -/
theorem not_eombelanConnections : ¬ Obligations.EombelanConnections := by
  unfold Obligations.EombelanConnections
  intro h
  obtain ⟨-, -, -, -, -, -, -, -, -, -, -, -, hwatch, -⟩ := h 0 [] lostBesideDemand lostBesideDemand_settled
  obtain ⟨t, hexec, -, ⟨-, -, -, -, hframe⟩, -⟩ := hwatch rfl (.inl rfl)
  have honAt := lostBesideDemand_onAt
  rw [hexec] at honAt
  exact absurd (honAt.symm.trans (onAt_of_frame (by decide) hframe 40)) (by decide)

end Sys2Proof.Machine
end

section
/-! A poll whose answers are garbled (R323). -/

namespace Sys2Proof.Machine

open Sys2Proof Sys2Proof.Claims

/-- The reader runs with the crossing link enabled and knows no tag. -/
def emptyReader : State where
  chip :=
    { ({} : Chip) with
      sys := { ({} : Chip).sys with ready := 0xFFFFF, dead := 0 }
      cfg := { ({} : Chip).cfg with live := [(0xF0000, 0xA0000000)] } }

theorem emptyReader_settled : Settled emptyReader := ⟨rfl, rfl, nofun⟩

/-- One tag answers, and each of its answers is garbled. -/
def garbledPoll : PollResult := { tags := [{ id := 1 }], bad := List.range 200 }

set_option Elab.async false in
/-- The reader does not find the tag. -/
theorem emptyReader_misses :
    ((Chip.settle emptyReader.chip (emptyReader.chip.linkPoll garbledPoll)).link.tag 0).present = false := by
  decide +kernel

/-- Refutes O56: a new tag is shown where the reader hears it; one whose answers are garbled is not found. -/
theorem not_readerPolls : ¬ Obligations.ReaderPolls := by
  unfold Obligations.ReaderPolls
  intro h
  obtain ⟨-, -, -, -, hnew, -⟩ := h garbledPoll {} { id := 1 } {} {} 0 emptyReader emptyReader_settled
  obtain ⟨htag, -⟩ := of_completes (hnew ⟨rfl, .inl rfl⟩ ⟨rfl, rfl, rfl, rfl, rfl⟩ ⟨by decide, by decide, by decide⟩
    (by decide) rfl (fun j hj => absurd hj (Nat.not_lt_zero j)) (fun j _ hp => absurd hp Bool.false_ne_true) rfl)
    (f := Chip.linkPoll garbledPoll) rfl
  exact absurd (emptyReader_misses.symm.trans (congrArg TagRec.present htag)) (by decide)

end Sys2Proof.Machine
end

section
/-! The working key register (R338) that passes to the next engine while the plate tag's keys wait
for it (R326). -/

namespace Sys2Proof.Machine

open Sys2Proof Sys2Proof.Claims

/-- A slot with a key of class 3 for every engine. -/
def grantedSlot : Slot := { a := { gen := 1, cls := 3, dest := 31 }, empty := false }

/-- The bay holds the working key register, LK's request waits, and so does the derivation of the
plate tag's keys, the first of which came from another slot. -/
def waitingDerivation : State where
  chip :=
    { ({} : Chip) with
      sys := { ({} : Chip).sys with ready := 0xFFFFF, dead := 0 }
      key := { ({} : Chip).key with
        slots := [(1, grantedSlot)], kwr := { eng := some 2, plate := true, queue := [(1, 1)] } }
      link := { ({} : Chip).link with plate := { src1 := 77 } } }

theorem waitingDerivation_settled : Settled waitingDerivation := ⟨rfl, rfl, nofun⟩

set_option Elab.async false in
theorem waitingDerivation_grantable : waitingDerivation.chip.kwrCheck 1 1 = 0 := by decide +kernel

set_option Elab.async false in
/-- The release makes the derivation, which notes the slot of the tag's first key. -/
theorem waitingDerivation_derived :
    (Chip.settle waitingDerivation.chip (waitingDerivation.chip.kwrFree 2)).link.plate.src1 = 0 := by
  decide +kernel

/-- Refutes O58: a release that grants the register to the next engine first makes the derivation of
the plate tag's keys that waits for it, which is a change outside the keys. -/
theorem not_securityEngine : ¬ Obligations.SecurityEngine := by
  unfold Obligations.SecurityEngine
  intro h
  obtain ⟨-, -, -, -, -, -, hnext, -⟩ :=
    h 2 1 0 1 0 0 0 false waitingDerivation waitingDerivation_settled
  obtain ⟨-, -, -, hframe⟩ := of_completes (hnext rfl rfl rfl waitingDerivation_grantable)
    (f := Chip.kwrFree 2) rfl
  have hlink := congrArg (·.plate.src1) (hframe .link (by decide))
  exact absurd (waitingDerivation_derived.symm.trans hlink) (by decide)

end Sys2Proof.Machine
end

section
/-! NET that becomes ready while AO alone runs (R372), and a spill pulse that waits for it (R155). -/

namespace Sys2Proof.Machine

open Sys2Proof Sys2Proof.Claims

/-- AO alone is ready, NX runs without a link, and a spill pulse waits. -/
def unlinkedPulse : State where
  chip :=
    { ({} : Chip) with
      sys := { ({} : Chip).sys with ready := 1, dead := 0 }
      net := { ({} : Chip).net with nxUp := true, links := 0 }
      cfg := { ({} : Chip).cfg with live := [(0x520C0, 0x80000000)] }
      bill := { ({} : Chip).bill with spill := [(0, { backlog := 1 })] } }

theorem unlinkedPulse_settled : Settled unlinkedPulse := ⟨rfl, rfl, nofun⟩

set_option Elab.async false in
/-- The pulse starts in the step of the link. -/
theorem unlinkedPulse_starts :
    (Chip.settle unlinkedPulse.chip (unlinkedPulse.chip.linkChange 0 true)).bill.spill =
      [(0, { phase := 1 })] := by
  decide +kernel

/-- Refutes O60: a link that comes up makes NET ready, and with it the first readiness bit beside AO's starts a
spill pulse that waits, which is a change of billing. -/
theorem not_pairAndIslands : ¬ Obligations.PairAndIslands := by
  unfold Obligations.PairAndIslands
  intro h
  obtain ⟨-, -, -, -, -, -, -, -, -, -, -, -, hlink, -⟩ := h {} 0 0 true unlinkedPulse unlinkedPulse_settled
  obtain ⟨-, -, -, -, hframe⟩ := of_completes hlink (f := Chip.linkChange 0 true) rfl
  exact absurd (unlinkedPulse_starts.symm.trans (congrArg Bill.spill (hframe .bill (by decide)))) (by decide)

end Sys2Proof.Machine
end

section
/-! The start of SV (R379) when the one settings generation that its image reads is a dead one (R369). -/

namespace Sys2Proof.Machine

open Sys2Proof Sys2Proof.Claims

/-- SV is in reset. Its confirmed image reads the settings of format 5 and up; the one generation of that
format was written in a trial that was given up, and the one that is in force is older. -/
def deadSettings : State where
  chip :=
    { ({} : Chip) with
      sys := { ({} : Chip).sys with ready := 1, dead := 0 }
      cfg := { ({} : Chip).cfg with gens := [{ no := 2, dead := true, fmt := 5 }, { no := 1 }] }
      upd := { ({} : Chip).upd with slotA := { st := 3, fmtMin := 5 } } }

theorem deadSettings_settled : Settled deadSettings := ⟨rfl, rfl, nofun⟩

set_option Elab.async false in
/-- The settings are not loaded. -/
theorem deadSettings_unloaded : (Chip.settle deadSettings.chip deadSettings.chip.svExit).cfg.loaded = false := by
  decide +kernel

/-- Refutes O59: a generation of a format that the image reads does not start SV where it is dead. -/
theorem not_firmwareChanges : ¬ Obligations.FirmwareChanges := by
  unfold Obligations.FirmwareChanges
  intro h
  obtain ⟨-, -, -, -, -, -, -, -, -, -, -, -, -, -, hexit, -⟩ := h 0 0 deadSettings deadSettings_settled
  obtain ⟨⟨-, -, -, hloaded, -⟩, -⟩ := of_completes
    (hexit rfl rfl rfl rfl rfl (.inr ⟨{ no := 2, dead := true, fmt := 5 }, .head _, rfl⟩)) (f := Chip.svExit) rfl
  exact absurd (deadSettings_unloaded.symm.trans hloaded) (by decide)

end Sys2Proof.Machine
end

section
/-! The commands of the plate tag and the reader (R312, R328, R329, R331). -/

namespace Sys2Proof.Machine

open Sys2Proof Sys2Proof.Claims

/-! ### Words put in a row -/

theorem putAll_other {i : Nat} : ∀ (l : List (Nat × W32)) (t : Tbl W32), (∀ q ∈ l, q.1 ≠ i) →
    Tbl.get 0 (putAll 0 t l) i = Tbl.get 0 t i
  | [], _, _ => rfl
  | q :: l, _, h => (putAll_other l _ (fun x hx => h x (List.mem_cons_of_mem _ hx))).trans
      ((Tbl.get_put ..).trans (if_neg (h q List.mem_cons_self).symm))

theorem putAll_mem : ∀ (l : List (Nat × W32)) (t : Tbl W32), (l.map Prod.fst).Nodup →
    ∀ q ∈ l, Tbl.get 0 (putAll 0 t l) q.1 = q.2
  | [], _, _, _, h => absurd h List.not_mem_nil
  | p :: l, t, hd, q, hq => by
    obtain ⟨hp, hl⟩ := List.nodup_cons.mp hd
    rcases List.mem_cons.mp hq with rfl | hq
    · refine (putAll_other l _ (fun x hx hxq => hp (List.mem_map.mpr ⟨x, hx, hxq⟩))).trans ?_
      exact (Tbl.get_put ..).trans (if_pos rfl)
    · exact putAll_mem l _ hl q hq

/-- A list stands in the table under its positions. -/
theorem putAll_zipIdx (l : List W32) (t : Tbl W32) :
    ∀ q ∈ l.zipIdx, Tbl.get 0 (putAll 0 t (l.zipIdx.map (fun q => (q.2, q.1)))) q.2 = q.1 := fun q hq => by
  have hnd : ((l.zipIdx.map (fun q => (q.2, q.1))).map Prod.fst).Nodup := by
    rw [List.map_map, show (Prod.fst ∘ fun q : W32 × Nat => (q.2, q.1)) = Prod.snd from rfl, List.zipIdx_map_snd]
    exact List.nodup_range'
  exact putAll_mem _ t hnd (q.2, q.1) (List.mem_map.mpr ⟨q, hq, rfl⟩)

/-! ### The plate tag -/

/-- A field of a register is its bits. -/
theorem fld_extract {w : Nat} (v : BitVec w) (a n : Nat) : BitVec.ofNat n (fld v a n) = v.extractLsb' a n := by
  apply BitVec.eq_of_toNat_eq
  simp [fld, BitVec.extractLsb'_toNat, Nat.shiftRight_eq_div_pow]

/-- The words of a block in a master's buffer, with the block's version. -/
def Chip.plateShown (m b : Nat) (c : Chip) : Chip :=
  c.modMaster m (fun x => { x with
    linkBuf := putAll 0 x.linkBuf ((toWords (c.link.plate.block b)).zipIdx.map (fun q => (q.2, q.1)))
    ptVer := c.link.plate.ver b })

theorem plateDo_read (m b j : Nat) (c : Chip) :
    (c.plateDo { master := m, block := b }).1.master j = (c.plateShown m b).master j := by
  show ((Chip.modMaster m _ (Chip.modMaster m _ c))).master j = _
  simp only [Chip.plateShown, modMaster_master]
  split
  · rfl
  · rfl

/-- The contents of the plate tag are nothing that settling follows. -/
theorem calm_modPlate (g : Plate → Plate) (c : Chip) : Calm c (c.modPlate g) :=
  ⟨rfl, rfl, rfl, rfl, rfl, rfl, rfl, fun _ => rfl, fun _ => rfl, fun _ => rfl, fun _ => rfl, rfl, rfl⟩

@[simp] theorem argued_linkBufBytes (r : CmdReq) (c : Chip) (m : Nat) :
    (argued r c).linkBufBytes m = c.linkBufBytes m := by
  obtain ⟨_, _, _, _, h⟩ := argued_master r c m
  unfold Chip.linkBufBytes
  rw [h]

/-- Transfers that wait for the reader are nothing that settling follows. -/
theorem calm_xfers (x : List Xfer) (c : Chip) : Calm c { c with link := { c.link with xfers := x } } :=
  ⟨rfl, rfl, rfl, rfl, rfl, rfl, rfl, fun _ => rfl, fun _ => rfl, fun _ => rfl, fun _ => rfl, rfl, rfl⟩

/-- A block that a master has written, with its new version shown to it. -/
def Chip.plateWritten (m b : Nat) (data : List W8) (c : Chip) : Chip :=
  (c.modPlate (Plate.write b data)).modMaster m (fun x => { x with ptVer := (Plate.write b data c.link.plate).ver b })

theorem plateDo_write {m b : Nat} {v : W16} {t : W16} {data : List W8} {c : Chip} (h : ¬ c.link.plate.locked b = true) :
    c.plateDo { master := m, block := b, write := true, vchk := false, ver := v, data := data, ticket := t } =
      (c.plateWritten m b data, stOK) := by
  unfold Chip.plateDo
  rw [if_pos rfl, if_neg h, if_neg (by simp)]
  rfl

section
variable {r : CmdReq} {s : State} (hs : Settled s)
include hs

omit hs in
/-- A reader of a block has the role of its area. -/
theorem ptRead_role (ht : takes rowLinkPtRead r s.chip) (hr : s.chip.retired = false) :
    roleHolds (s.chip.roleNo r.m.val) (ptRole r) = true := by
  have h := ht.2.2.2.2.1
  simp only [Chip.cmdAllowed, Bool.and_eq_true, Bool.or_eq_true, hr, Bool.false_eq_true, false_or] at h
  exact h.1

theorem completes_linkPtRead {b : Nat} (hb : r.a0.toNat % 256 = b) (ht : takes rowLinkPtRead r s.chip)
    (hr : s.chip.retired = false) (hold : s.chip.link.plate.hold ≠ some b) : completes (.linkPtRead r) s (fun d =>
      acked r 0 0 d ∧ (d.master r.m.val).ptVer = s.chip.link.plate.ver b ∧
      (∀ q ∈ (toWords (s.chip.link.plate.block b)).zipIdx, Tbl.get 0 (d.master r.m.val).linkBuf q.2 = q.1) ∧
      keepsBut [.masters, .hint] s.chip d) := by
  rw [← show fld r.a0 0 8 = r.a0.toNat % 256 from fld_low _ _] at hb
  subst hb
  have hrole := ptRead_role ht hr
  have hok : (!(if fld r.a0 0 8 < 0x40 then decide (1 ≤ (argued r s.chip).roleNo r.m.val)
      else if fld r.a0 0 8 < 0x80 then decide (3 ≤ (argued r s.chip).roleNo r.m.val)
      else decide (2 ≤ (argued r s.chip).roleNo r.m.val))) = false := by
    rw [show (argued r s.chip).roleNo r.m.val = s.chip.roleNo r.m.val by simp [Chip.roleNo, Chip.retired]]
    unfold ptRole at hrole
    split at hrole
    · next h => simpa [h, roleHolds] using hrole
    · split at hrole
      · next h h' => simpa [h, h', roleHolds] using hrole
      · next h h' => simpa [h, h', roleHolds] using hrole
  have hfn : cmdLinkPtRead r (argued r s.chip) =
      (((argued r s.chip).plateDo { master := r.m.val, block := fld r.a0 0 8 }).1, {}) :=
    (if_neg (by rw [hok]; decide)).trans (if_neg hold)
  refine completes_plain (f := .linkPtRead) (x := rowLinkPtRead) (bs := [.masters, .hint]) (by simp [commandRows]) hs ht hfn
    ((quiet_masters _ _).trans (quiet_masters _ _)).calm.eased (by decide) (.inr fun _ => id)
    (keepsBut_masters (by decide) _) (fun d' hans hk => ?_)
  obtain ⟨k, hmine⟩ := hans.mine
  rw [plateDo_read, Chip.plateShown, modMaster_master, if_pos rfl] at hmine
  exact ⟨hans.acked, by rw [hmine]; rfl, fun q hq => by rw [hmine]; exact putAll_zipIdx _ _ q hq, hk⟩

theorem completes_linkPtWrite {b : Nat} (hb : r.a0.toNat % 256 = b) (ht : takes rowLinkPtWrite r s.chip) (hlow : 0x80 ≤ b)
    (hlock : s.chip.link.plate.locked b = false) (hchk : r.a0.getLsbD 31 = false)
    (hold : s.chip.link.plate.hold ≠ some b) : completes (.linkPtWrite r) s (fun d => acked r 0 0 d ∧
      d.link.plate = Plate.write b (s.chip.linkBufBytes r.m.val) s.chip.link.plate ∧
      (d.master r.m.val).ptVer = d.link.plate.ver b ∧ keepsBut [.masters, .hint, .link] s.chip d) := by
  rw [← show fld r.a0 0 8 = r.a0.toNat % 256 from fld_low _ _] at hb
  subst hb
  have hl : ¬ ((argued r s.chip).link.plate.locked (fld r.a0 0 8) = true) := by
    rw [argued_link, hlock]
    decide
  have hfn : cmdLinkPtWrite r (argued r s.chip) =
      ((argued r s.chip).plateWritten r.m.val (fld r.a0 0 8) (s.chip.linkBufBytes r.m.val), {}) := by
    refine (if_neg (Nat.not_lt.mpr hlow)).trans ((if_neg hl).trans ((if_neg hold).trans ?_))
    rw [argued_linkBufBytes, hchk]
    exact congrArg (fun p : Chip × W8 => (p.1, ({ st := p.2 } : Ans))) (plateDo_write hl)
  refine completes_plain (f := .linkPtWrite) (x := rowLinkPtWrite) (bs := [.masters, .hint, .link]) (by simp [commandRows]) hs
    ht hfn ((calm_modPlate _ _).trans (quiet_masters _ _).calm).eased (by decide) (.inr fun _ => id)
    (keepsBut_trans (keepsBut_link (by decide) _) (keepsBut_masters (by decide) _))
    (fun d' hans hk => ⟨hans.acked, hans.same (fun d => d.link.plate), ?_, hk⟩)
  obtain ⟨k, hmine⟩ := hans.mine
  rw [hmine, Chip.plateWritten, modMaster_master, if_pos rfl, hans.same (fun d => d.link.plate)]
  rfl

theorem completes_linkPtWrite_held {b : Nat} (hb : r.a0.toNat % 256 = b) (ht : takes rowLinkPtWrite r s.chip) (hlow : 0x80 ≤ b)
    (hlock : s.chip.link.plate.locked b = false) (hold : s.chip.link.plate.hold = some b) (hfull : s.chip.tixFull = false) :
    completes (.linkPtWrite r) s (fun d => acked r 0x02 s.chip.tix.next d ∧
      d.link.plate.queue.length = s.chip.link.plate.queue.length + 1 ∧ d.link.plate.ver b = s.chip.link.plate.ver b ∧
      keepsBut [.masters, .hint, .tix, .link] s.chip d) := by
  rw [← show fld r.a0 0 8 = r.a0.toNat % 256 from fld_low _ _] at hb
  subst hb
  have hfn : cmdLinkPtWrite r (argued r s.chip) = _ := (if_neg (Nat.not_lt.mpr hlow)).trans ((if_neg (by
    rw [argued_link, hlock]; decide)).trans ((if_pos hold).trans (if_neg (by
      rw [show (argued r s.chip).tixFull = s.chip.tixFull from rfl, hfull]; decide))))
  refine completes_plain (f := .linkPtWrite) (x := rowLinkPtWrite) (bs := [.masters, .hint, .tix, .link])
    (by simp [commandRows]) hs ht hfn ((calm_issued r 0x0F02 0 s.chip).trans (calm_modPlate _ _)).eased (by decide)
    (.inr fun _ => id) (keepsBut_trans (keepsBut_tix (by decide) _) (keepsBut_link (by decide) _))
    (fun d' hans hk => ⟨hans.acked, ?_, ?_, hk⟩)
  · rw [hans.same (fun d => d.link.plate)]
    exact List.length_append
  · rw [hans.same (fun d => d.link.plate)]
    rfl

theorem completes_linkXfer (ht : takes rowLinkXfer r s.chip) (hfull : s.chip.tixFull = false)
    (ho : (s.chip.fq 4).owner = some r.m.val) (hh : s.chip.fq4Holds = false) :
    completes (.linkXfer r) s (fun d => pends r 0x0F03 0 s.chip d ∧
      (∃ x, d.link.xfers = s.chip.link.xfers ++ [x] ∧ x.ticket = s.chip.tix.next ∧ x.master = r.m.val ∧
        x.index = r.a0.toNat % 16 ∧ x.op = r.a1.extractLsb' 0 2 ∧ x.block = r.a1.extractLsb' 8 8 ∧
        x.key = r.a1.extractLsb' 16 2 ∧ x.data = s.chip.linkBufBytes r.m.val) ∧
      keepsBut [.masters, .hint, .tix, .link] s.chip d) := by
  have hfn : cmdLinkXfer r (argued r s.chip) = _ := (if_neg (not_not.mpr ho)).trans
    ((if_neg (by rw [show (argued r s.chip).fq4Holds = s.chip.fq4Holds from rfl, hh]; decide)).trans
      (long_issued r 0x0F03 0 s.chip hfull _))
  refine completes_plain (f := .linkXfer) (x := rowLinkXfer) (bs := [.masters, .hint, .tix, .link])
    (by simp [commandRows]) hs ht hfn ((calm_issued r 0x0F03 0 s.chip).trans (calm_xfers _ _)).eased
    (by decide) (.inr fun _ => id) (keepsBut_trans (keepsBut_tix (by decide) _) (keepsBut_link (by decide) _))
    (fun d' hans hk => ⟨hans.pends rfl, ⟨_, hans.same (fun d => d.link.xfers), rfl, rfl, fld_low _ 4, ?_, ?_, ?_, ?_⟩, hk⟩)
  · exact fld_extract r.a1 0 2
  · exact fld_extract r.a1 8 8
  · exact fld_extract r.a1 16 2
  · exact argued_linkBufBytes r s.chip r.m.val

theorem completes_linkCntClr (ht : takes rowLinkCntClr r s.chip) : completes (.linkCntClr r) s (fun d => acked r 0 0 d ∧
    d.link = { s.chip.link with cntCrc := 0, cntAuth := 0, cntOver := 0, cntUnsup := 0 } ∧
    keepsBut [.masters, .hint, .link] s.chip d) :=
  completes_plain (f := .linkCntClr) (x := rowLinkCntClr) (bs := [.masters, .hint, .link]) (by simp [commandRows]) hs ht rfl
    (Calm.eased ⟨rfl, rfl, rfl, rfl, rfl, rfl, rfl, fun _ => rfl, fun _ => rfl, fun _ => rfl, fun _ => rfl, rfl, rfl⟩)
    (by decide) (.inr fun _ => id) (keepsBut_link (by decide) _) (fun d' hans hk => ⟨hans.acked, hans.same Chip.link, hk⟩)

end

/-- Settles O33: the commands of the plate tag and the reader. -/
theorem linkCommands : Obligations.LinkCommands := by
  unfold Obligations.LinkCommands
  intro r s hs c b p mine
  exact ⟨completes_linkPtRead hs rfl, fun ht hlow hlock hchk => ⟨completes_linkPtWrite hs rfl ht hlow hlock hchk,
      completes_linkPtWrite_held hs rfl ht hlow hlock⟩, fun ht hfull _ ho hh => completes_linkXfer hs ht hfull ho hh,
    completes_linkCntClr hs⟩

end Sys2Proof.Machine
end

section
/-! The boundaries that civil time schedules (R75, R168), which settling follows no further than to fix the window
of one that begins. -/

namespace Sys2Proof.Machine

open Sys2Proof Sys2Proof.Claims

/-! ### Blocks that differ in what is scheduled -/

/-- The block with other boundaries scheduled. -/
def Chip.scheduled (l : List PendTime) (c : Chip) : Chip := { c with save := { c.save with pendTime := l } }

/-- Whatever is scheduled, what settling follows is the same before and after, but for the holds of the queues. -/
structure Timed (c d : Chip) : Prop where
  calm : ∀ l, Calm (c.scheduled l) (d.scheduled l)

theorem Calm.timed {c d : Chip} (h : Calm c d) : Timed c d := ⟨fun _ =>
  ⟨h.watched, h.pilot, h.mon, h.bayRun, h.time, rfl, h.pend, h.pendDone, h.pulse, h.permit, h.drive, h.trip, h.signal⟩⟩

theorem Timed.refl (c : Chip) : Timed c c := (Calm.refl c).timed

theorem Timed.trans {a b c : Chip} (h : Timed a b) (h' : Timed b c) : Timed a c :=
  ⟨fun l => (h.calm l).trans (h'.calm l)⟩

theorem timed_ite {p : Prop} [Decidable p] {c d e : Chip} (hd : Timed c d) (he : Timed c e) :
    Timed c (if p then d else e) := by
  split
  · exact hd
  · exact he

theorem timed_when {b : Bool} {f : Chip → Chip} {c : Chip} (h : Timed c (f c)) : Timed c (c.when b f) := by
  cases b
  · exact Timed.refl c
  · exact h

theorem timed_each {α : Type} {f : α → Chip → Chip} (h : ∀ a c, Timed c (f a c)) :
    ∀ (l : List α) (c : Chip), Timed c (each l f c)
  | [], c => Timed.refl c
  | a :: t, c => (h a c).trans (timed_each h t (f a c))

/-- The scheduled boundaries are nothing else that settling follows. -/
theorem timed_scheduled (l : List PendTime) (c : Chip) : Timed c (c.scheduled l) := ⟨fun _ => Calm.refl _⟩

theorem timed_addPend (x : PendTime) (c : Chip) : Timed c (c.addPend x) := timed_scheduled _ c

/-- No demand boundary of `d` has begun that had not in `old`. -/
def NoneBegins (old d : Chip) : Prop :=
  ∀ p ∈ d.save.pendTime, p.kind % 8 = 0 → p.stamp ≤ d.now → p ∈ old.save.pendTime ∧ p.stamp ≤ old.now

theorem latchWins_none {old d : Chip} (h : NoneBegins old d) : Chip.latchWins old d = d := by
  unfold Chip.latchWins
  dsimp only
  rw [List.filter_eq_nil_iff.mpr (fun p hp hdue => ?_)]
  · rfl
  · simp only [Bool.and_eq_true, beq_iff_eq, decide_eq_true_eq, Bool.not_eq_true', Bool.and_eq_false_iff] at hdue
    obtain ⟨⟨hk, hst⟩, hold⟩ := hdue
    obtain ⟨hm, ho⟩ := h p hp hk hst
    simp [hk, ho] at hold
    exact hold hm

section
variable (l : List PendTime) (old y : Chip)

theorem chooseAll_scheduled : Chip.chooseAll (old.scheduled l) y = Chip.chooseAll old y := rfl
theorem pulses_scheduled : Chip.pulses (old.scheduled l) y = Chip.pulses old y := rfl
theorem escPermits_scheduled : Chip.escPermits (old.scheduled l) y = Chip.escPermits old y := rfl
theorem settleStop_scheduled : Chip.settleStop (old.scheduled l) y = Chip.settleStop old y := rfl
theorem settleAux_scheduled : Chip.settleAux (old.scheduled l) y = Chip.settleAux old y := rfl
theorem settleSafe_scheduled : Chip.settleSafe (old.scheduled l) y = Chip.settleSafe old y := rfl
theorem lampStart_scheduled : Chip.lampStart (old.scheduled l) y = Chip.lampStart old y := rfl
theorem tripCheck_scheduled : Chip.tripCheck (old.scheduled l) y = Chip.tripCheck old y := rfl
theorem bayWatch_scheduled : Chip.bayWatch (old.scheduled l) y = Chip.bayWatch old y := rfl
theorem holdsOver_scheduled : Chip.holdsOver (old.scheduled l) y = Chip.holdsOver old y := rfl

end

/-- While no demand boundary begins, settling is the same whatever was scheduled. -/
theorem settle_scheduled {old d : Chip} (h : NoneBegins old d) :
    Chip.settle (old.scheduled d.save.pendTime) d = Chip.settle old d := by
  have hl : Chip.latchWins (old.scheduled d.save.pendTime) d = Chip.latchWins old d := by
    rw [latchWins_none h, latchWins_none (old := old.scheduled d.save.pendTime) (d := d) (fun p hp hk hst => ⟨hp, (h p hp hk hst).2⟩)]
  unfold Chip.settle
  dsimp only
  rw [hl, chooseAll_scheduled, pulses_scheduled, escPermits_scheduled, settleStop_scheduled, settleAux_scheduled,
    settleSafe_scheduled, lampStart_scheduled, tripCheck_scheduled, bayWatch_scheduled, holdsOver_scheduled]

theorem settled_scheduled {c : Chip} {l : List Instr} (hs : Settled ⟨c, l⟩) (t : List PendTime) :
    Settled ⟨c.scheduled t, l⟩ := hs

/-- All that settling does is to end holds of the queues. -/
theorem Timed.settle {old d : Chip} {l : List Instr} (ht : Timed old d) (hn : NoneBegins old d) (hs : Settled ⟨old, l⟩) :
    ∃ f, (∀ q, ∃ b, Tbl.get {} f q = { d.fq q with stalled := b }) ∧
      ((∀ q, d.holdOver q = true → old.holdOver q = true) → f = d.ferry) ∧ Chip.settle old d = { d with ferry := f } := by
  have h : Eased (old.scheduled d.save.pendTime) d := (ht.calm d.save.pendTime).eased
  rw [← settle_scheduled hn, h.settle (settled_scheduled hs _)]
  obtain ⟨f, hf, he⟩ := holdsOver_queues (old.scheduled d.save.pendTime) d
  exact ⟨f, hf.queue, hf.same, he⟩

/-- A command in whose step no demand boundary begins completes with what it leaves, acknowledged. -/
theorem completes_timed {f : CmdReq → Instr} {x : CmdRow} {r : CmdReq} {s : State} (hmem : (f, x) ∈ commandRows)
    (hs : Settled s) (ht : takes x r s.chip) {d : Chip} {a : Ans} {P : Chip → Prop} (hfn : x.fn r (argued r s.chip) = (d, a))
    (hd : Timed (argued r s.chip) d) (hn : NoneBegins s.chip d) (hP : ∀ d', Answered r a d d' → P d') :
    completes (f r) s P := by
  obtain ⟨hq, hferry, hans⟩ := answered_acknowledge r x.code a d
  have hf := writeCode_takes (commandRows_blind _ hmem) ht hfn
  have he : ((d.keyBufClear r.m.val x.code).acknowledge r.m.val a).save = d.save :=
    Answered.same (hans d.ferry (fun q => ⟨(d.fq q).stalled, rfl⟩)) Chip.save
  refine completes_settle (commandRows_exec _ hmem r s) hf ?_
  have htimed := ((quiet_argued r s.chip).calm.timed.trans hd).trans hq.calm.timed
  obtain ⟨f, hqueue, -, hset⟩ := htimed.settle (l := s.pending) (fun p hp hk hst => hn p (by rwa [he] at hp) hk
    (by rwa [hq.time] at hst)) hs
  rw [hset]
  refine hP _ (hans f (fun q => ?_))
  obtain ⟨b, hb⟩ := hqueue q
  refine ⟨b, hb.trans ?_⟩
  rw [Chip.fq, hferry]
  rfl

theorem mem_insPend {x y : PendTime} : ∀ {l : List PendTime}, y ∈ insPend x l ↔ y = x ∨ y ∈ l
  | [] => List.mem_singleton.trans (by simp)
  | z :: t => by
    unfold insPend
    split
    · exact List.mem_cons
    · rw [List.mem_cons, mem_insPend, List.mem_cons]
      tauto

/-! ### What handing over, withdrawing and placing boundaries anew leave -/

/-- The block with other engines, other boundaries scheduled and another stamp of the scheduled activation. -/
def Chip.rescheduled (c : Chip) (e : Tbl Engine) (p : List PendTime) (t : Option Nat) : Chip :=
  { c.scheduled p with engs := e, tariff := { c.tariff with stamp := t } }

/-- `d` differs from `c` in the engines, in what is scheduled, in the stamp of the scheduled activation and in what an
event reaches. -/
def Handed (c d : Chip) : Prop := ∃ e p t, Noted (c.rescheduled e p t) d

theorem EngNoted.save {c d : Chip} (h : EngNoted c d) : d.save = c.save := by
  obtain ⟨e, h⟩ := h
  exact h.save

theorem addPend_pendTime (x : PendTime) (c : Chip) : (c.addPend x).save.pendTime = insPend x c.save.pendTime := rfl

theorem EngNoted.handed {c d : Chip} (h : EngNoted c d) : Handed c d := by
  obtain ⟨e, h⟩ := h
  exact ⟨e, c.save.pendTime, c.tariff.stamp, h⟩

theorem Handed.refl (c : Chip) : Handed c c := ⟨c.engs, c.save.pendTime, c.tariff.stamp, Noted.refl c⟩

theorem Handed.trans {a b c : Chip} : Handed a b → Handed b c → Handed a c := by
  rintro ⟨e, p, t, v, f, x, rfl⟩ ⟨e', p', t', v', f', x', rfl⟩
  exact ⟨e', p', t', v', f', x', rfl⟩

theorem handed_ite {p : Prop} [Decidable p] {c d e : Chip} (hd : Handed c d) (he : Handed c e) :
    Handed c (if p then d else e) := by
  split
  · exact hd
  · exact he

theorem handed_when {b : Bool} {f : Chip → Chip} {c : Chip} (h : Handed c (f c)) : Handed c (c.when b f) := by
  cases b
  · exact Handed.refl c
  · exact h

theorem handed_each {α : Type} {f : α → Chip → Chip} (h : ∀ a c, Handed c (f a c)) :
    ∀ (l : List α) (c : Chip), Handed c (each l f c)
  | [], c => Handed.refl c
  | a :: t, c => (h a c).trans (handed_each h t (f a c))

theorem handed_scheduled (l : List PendTime) (c : Chip) : Handed c (c.scheduled l) :=
  ⟨c.engs, l, c.tariff.stamp, Noted.refl _⟩

theorem handed_stamp (t : Option Nat) (c : Chip) : Handed c (c.modTariff (fun x => { x with stamp := t })) :=
  ⟨c.engs, c.save.pendTime, t, Noted.refl _⟩

section
variable {c d : Chip} (h : Handed c d)
include h

theorem Handed.time : d.time = c.time := by
  obtain ⟨e, p, t, h⟩ := h
  exact h.time

theorem Handed.bill : d.bill = c.bill := by
  obtain ⟨e, p, t, h⟩ := h
  exact h.bill

theorem Handed.cfg : d.cfg = c.cfg := by
  obtain ⟨e, p, t, h⟩ := h
  exact h.cfg

theorem Handed.rdy (i : Nat) : d.rdy i = c.rdy i := by
  obtain ⟨e, p, t, v, f, x, rfl⟩ := h
  rfl

theorem Handed.tariff : ∃ t, d.tariff = { c.tariff with stamp := t } := by
  obtain ⟨e, p, t, h⟩ := h
  exact ⟨t, h.tariff⟩

theorem Handed.save : ∃ l, d.save = { c.save with pendTime := l } := by
  obtain ⟨e, p, t, h⟩ := h
  exact ⟨p, h.save⟩

theorem Handed.keepsBut {bs : List Block} (hb : ∀ b ∈ [Block.engs, .save, .tariff, .evt, .ferry, .hint], b ∈ bs) :
    keepsBut bs c d := by
  obtain ⟨e, p, t, h⟩ := h
  have h1 : Sys2Proof.keepsBut bs c (c.scheduled p) := keepsBut_save (hb _ (by decide)) _
  have h2 : Sys2Proof.keepsBut bs (c.scheduled p) { c.scheduled p with engs := e } := keepsBut_engs (hb _ (by decide)) e
  have h3 : Sys2Proof.keepsBut bs { c.scheduled p with engs := e } (c.rescheduled e p t) :=
    keepsBut_tariff (hb _ (by decide)) _
  have hr := keepsBut_trans (keepsBut_trans h1 h2) h3
  refine keepsBut_trans hr (h.keepsBut (fun b hb' => hb b ?_))
  simp only [noteBlocks, List.mem_cons] at hb' ⊢
  tauto

end

section
variable (src k ord stamp tar : Nat) (u : Int) (c : Chip)

theorem handed_handBoundary : Handed c (c.handBoundary src k ord u stamp tar) :=
  (engNoted_toEngines _ c).handed.trans (handed_scheduled _ _)

theorem timed_handBoundary : Timed c (c.handBoundary src k ord u stamp tar) :=
  (calm_toEngines _ c).timed.trans (timed_addPend _ _)

/-- What was scheduled stays, and the boundary is scheduled with it. -/
theorem handBoundary_pendTime : (c.handBoundary src k ord u stamp tar).save.pendTime =
    insPend { c.boundary k u stamp tar with ord := ord } c.save.pendTime := by
  unfold Chip.handBoundary
  dsimp only
  rw [addPend_pendTime, (engNoted_toEngines _ c).save]

theorem handed_handTariff (fwd : Nat) (p : Nat × Int × Nat) : Handed c (c.handTariff src fwd ord stamp p) :=
  (handed_handBoundary ..).trans (handed_when (handed_stamp _ _))

theorem timed_modTariff (g : Tariff → Tariff) : Timed c (c.modTariff g) :=
  (calm_far _ _ _ _ _ _ _ _ _ _ _ _ _ _).timed

theorem timed_handTariff (fwd : Nat) (p : Nat × Int × Nat) : Timed c (c.handTariff src fwd ord stamp p) :=
  (timed_handBoundary ..).trans (timed_when (timed_modTariff _ _))

theorem handTariff_pendTime (fwd : Nat) (p : Nat × Int × Nat) : (c.handTariff src fwd ord stamp p).save.pendTime =
    insPend { c.boundary (p.1 + fwd) p.2.1 stamp p.2.2 with ord := ord } c.save.pendTime := by
  rw [← handBoundary_pendTime src]
  unfold Chip.handTariff Chip.when
  split <;> rfl

end

section
variable (c : Chip)

theorem handed_handoff : Handed c c.handoff := by
  unfold Chip.handoff
  dsimp only
  exact handed_ite (Handed.refl c) (((handed_ite (handed_handBoundary ..) (Handed.refl c)).trans
    (handed_each (fun u c => handed_handBoundary ..) _ _)).trans (handed_each (fun p c => handed_handTariff ..) _ _))

theorem timed_handoff : Timed c c.handoff := by
  unfold Chip.handoff
  dsimp only
  exact timed_ite (Timed.refl c) (((timed_ite (timed_handBoundary ..) (Timed.refl c)).trans
    (timed_each (fun u c => timed_handBoundary ..) _ _)).trans (timed_each (fun p c => timed_handTariff ..) _ _))

theorem handed_withdraw (z : Nat) : Handed c (c.withdraw z) := by
  unfold Chip.withdraw
  dsimp only
  exact ((handed_scheduled _ c).trans (handed_when (handed_stamp _ _))).trans
    (EngNoted.handed (engNoted_each (fun k c => engNoted_modEng k _ c) _ _))

theorem handed_replace : Handed c c.replace :=
  handed_ite ((handed_withdraw c _).trans (handed_handoff _)) (Handed.refl c)

end

end Sys2Proof.Machine
end

section
/-! The commands of the billing block, the tariffs and the clock (R166-R168, R176, R178, R182, R184, R197, R198). -/

namespace Sys2Proof.Machine

open Sys2Proof Sys2Proof.Claims

/-- Of billing, settling touches sessions, windows ahead and spill pulses alone. -/
theorem settle_bill (old d : Chip) : ∃ se ls aw sp,
    (Chip.settle old d).bill = { d.bill with sess := se, lastSess := ls, aheadW := aw, spill := sp } := by
  obtain ⟨_, _, _, _, _, _, _, se, ls, aw, sp, _, _, _, _, _, _, _, _, _, he⟩ := after_settle old d
  rw [he]
  exact ⟨se, ls, aw, sp, rfl⟩

theorem EngNoted.tix {c d : Chip} (h : EngNoted c d) : d.tix = c.tix := by
  obtain ⟨e, h⟩ := h
  exact h.tix

theorem EngNoted.time {c d : Chip} (h : EngNoted c d) : d.time = c.time := by
  obtain ⟨e, h⟩ := h
  exact h.time

theorem EngNoted.cfg {c d : Chip} (h : EngNoted c d) : d.cfg = c.cfg := by
  obtain ⟨e, h⟩ := h
  exact h.cfg

/-- A staged record is a change of the ledger. -/
theorem keepsBut_stageAt {bs : List Block} (h : Block.ledger ∈ bs) (place ord : Nat) (kind : W16) (flags six : Nat)
    (p : List W8) (c : Chip) : keepsBut bs c (c.stageAt place ord kind flags six p) := by
  unfold Chip.stageAt
  split
  · exact keepsBut_refl bs c
  · exact keepsBut_ledger h _

/-- A staged record holds no queue. -/
theorem stageAt_holdOver (place ord : Nat) (kind : W16) (flags six : Nat) (p : List W8) (c : Chip) (q : Nat) :
    (c.stageAt place ord kind flags six p).holdOver q = c.holdOver q := by
  unfold Chip.stageAt
  split <;> rfl

/-! ### Billing -/

/-- What BILL_CLOSE tells the engines. -/
def closeEvent (c : Chip) : CtxEv := { stamp := c.stampAfter 1, src := 3, change := .billingClose }

/-- The boundary that BILL_CLOSE schedules. -/
def closePend (c : Chip) : PendTime := { kind := 4, civil := c.civil (c.stampAfter 1), stamp := c.stampAfter 1 }

/-- Billing with one more ticket that waits for a close. -/
def Bill.closing (t : W16) (z : Nat) (b : Bill) : Bill := { b with closeT := b.closeT ++ [(t, z)] }

theorem timed_closing (t : W16) (z : Nat) (c : Chip) : Timed c (c.modBill (Bill.closing t z)) :=
  Calm.timed ⟨rfl, rfl, rfl, rfl, rfl, rfl, rfl, fun _ => rfl, fun _ => rfl, fun _ => rfl, fun _ => rfl, rfl, rfl⟩

section
variable {r : CmdReq} {s : State} (hs : Settled s)
include hs

theorem completes_billClose (ht : takes rowBillClose r s.chip) (hfull : s.chip.tixFull = false) :
    completes (.billClose r) s (fun d => pends r 0x0601 0 s.chip d ∧
      d.bill = { s.chip.bill with closeT := s.chip.bill.closeT ++ [(s.chip.tix.next, s.chip.stampAfter 1)] } ∧
      (∃ p ∈ d.save.pendTime, p.kind = 4 ∧ p.stamp = s.chip.stampAfter 1)) := by
  have he := engNoted_toEngines (closeEvent s.chip) (issued r 0x0601 0 s.chip)
  have hc := calm_toEngines (closeEvent s.chip) (issued r 0x0601 0 s.chip)
  have hfn : cmdBillClose r (argued r s.chip) =
      (((Chip.toEngines (closeEvent s.chip) (issued r 0x0601 0 s.chip)).addPend (closePend s.chip)).modBill
        (Bill.closing s.chip.tix.next (s.chip.stampAfter 1)), { st := stPENDING, ticket := s.chip.tix.next }) :=
    long_issued r 0x0601 0 s.chip hfull _
  generalize Chip.toEngines _ _ = z at he hc hfn
  have htix : z.tix = _ := he.tix
  have hbill : z.bill = s.chip.bill := he.bill
  have hsave : z.save = s.chip.save := he.save
  have htime : z.now = s.chip.now := congrArg Time.six he.time
  refine completes_timed (f := .billClose) (x := rowBillClose) (by simp [commandRows]) hs ht hfn
    ((((calm_issued _ _ _ _).trans hc).timed.trans (timed_addPend _ _)).trans (timed_closing _ _ _)) (fun p hp hk hst => ?_)
    (fun d' hans => ⟨hans.pends htix, ?_, closePend s.chip, ?_, rfl, rfl⟩)
  · change p ∈ insPend _ z.save.pendTime at hp
    change p.stamp ≤ z.now at hst
    rw [hsave] at hp
    rw [htime] at hst
    rcases mem_insPend.mp hp with rfl | hp
    · exact absurd (show 4 % 8 = 0 from hk) (by decide)
    · exact ⟨hp, hst⟩
  · refine (hans.same Chip.bill).trans ?_
    show Bill.closing _ _ z.bill = _
    rw [hbill]
    rfl
  · rw [hans.same (fun d => d.save.pendTime)]
    exact mem_insPend.mpr (.inl rfl)

omit hs in
/-- A session at a running meter point is asked to close at an instant. -/
theorem sessionAsk_running {m : Nat} {reason : W8} {z : Nat} {c : Chip} (hno : (c.session m).no ≠ 0)
    (hcl : (c.session m).closeSix = none) (hrun : c.mpRuns m = true) : ∃ ev, c.sessionAsk m reason z =
      (c.modBill (Bill.putSess m
        { c.session m with closeSix := some z, reason := reason, eng := c.mpEngine m })).toEngines ev := by
  have hmet : (c.engRuns (c.mpEngine m) || c.engLoads (c.mpEngine m)) = true := by
    rw [show c.engRuns (c.mpEngine m) = true from hrun, Bool.true_or]
  unfold Chip.sessionAsk
  dsimp only
  rw [if_neg (by simp [show ¬ (c.session m).no = 0#32 from hno, hcl]), hmet]
  exact ⟨_, if_pos rfl⟩

theorem completes_billSessClose {m : Nat} (ht : takes rowBillSessClose r s.chip) (hm : s.chip.sessMp r.a0 = some m)
    (hno : (s.chip.session m).no ≠ 0) (hcl : (s.chip.session m).closeSix = none) (hrun : s.chip.mpRuns m = true) :
    completes (.billSessClose r) s (fun d => acked r 0 0 d ∧
      (d.session m).closeSix = some (s.chip.stampAfter 1) ∧ (d.session m).reason = 0x11) := by
  let x : Session :=
    { s.chip.session m with closeSix := some (s.chip.stampAfter 1), reason := 0x11, eng := s.chip.mpEngine m }
  obtain ⟨ev, hask⟩ := sessionAsk_running (c := argued r s.chip) (reason := 0x11) (z := s.chip.stampAfter 1) hno hcl hrun
  have hfn : cmdBillSessClose r (argued r s.chip) =
      (((argued r s.chip).modBill (Bill.putSess m x)).toEngines ev, {}) := by
    unfold cmdBillSessClose
    rw [show (argued r s.chip).sessMp r.a0 = some m from hm]
    exact congrArg (fun d => (d, ({} : Ans))) hask
  have he := engNoted_toEngines ev ((argued r s.chip).modBill (Bill.putSess m x))
  have hc := calm_toEngines ev ((argued r s.chip).modBill (Bill.putSess m x))
  generalize Chip.toEngines _ _ = z at he hc hfn
  have hx : z.session m = x := by
    show Tbl.get ({} : Session) z.bill.sess m = _
    rw [he.bill]
    exact (putSess_session m x _ m).trans (if_pos rfl)
  refine completes_command (x := rowBillSessClose) rfl hs ⟨fun _ _ => rfl, fun _ _ => rfl⟩ ht hfn
    ((calm_sessions m x Bill.sessNext _).trans hc).eased (fun d' hans _ => ⟨hans.acked, ?_, ?_⟩)
  · rw [hans.same (fun d => d.session m), hx]
  · rw [hans.same (fun d => d.session m), hx]

omit hs in
theorem completes_billZero (ht : takes rowBillZero r s.chip) (hfull : s.chip.tixFull = false)
    (hrole : (s.chip.master r.m.val).role = 4) (hlsw : s.chip.tamper.lsw = true) (hcom : s.chip.commCond = true) :
    completes (.billZero r) s (fun d => pends r 0x0603 0 s.chip d ∧ d.bill.qty = s.chip.bill.qty ∧
      d.bill.cost = s.chip.bill.cost ∧
      ({ kind := 0x101, ticket := s.chip.tix.next, stamp := some (s.chip.stampAfter 1) } : PendCommit) ∈ d.cfg.pend) := by
  let ev : CtxEv := { stamp := s.chip.stampAfter 1, src := 3, change := .billZero }
  let x : PendCommit := { kind := 0x101, ticket := s.chip.tix.next, stamp := some (s.chip.stampAfter 1) }
  have hc := carried_toEngines ev (issued r 0x0603 0 s.chip)
  have he := engNoted_toEngines ev (issued r 0x0603 0 s.chip)
  have hfn : cmdBillZero r (argued r s.chip) = ((Chip.toEngines ev (issued r 0x0603 0 s.chip)).modCfg
      (fun g => { g with pend := g.pend ++ [x] }), { st := stPENDING, ticket := s.chip.tix.next }) :=
    (if_neg (by rw [argued_role, hrole]; decide)).trans ((if_neg (by rw [argued_tamper, hlsw]; decide)).trans
      ((if_neg (by rw [show (argued r s.chip).commCond = s.chip.commCond from rfl, hcom]; decide)).trans
        (long_issued _ _ _ _ hfull _)))
  generalize Chip.toEngines _ _ = z at hc he hfn
  have hb : z.bill = s.chip.bill := he.bill
  refine completes_acknowledged (x := rowBillZero) rfl ⟨fun _ _ => rfl, fun _ _ => rfl⟩ ht hfn (fun e hans _ => ?_)
  obtain ⟨se, ls, aw, sp, hbill⟩ := settle_bill s.chip e
  refine ⟨pends_settle (hc.chosen.trans (chosen_modPend _ _)).tame hans, ?_, ?_, settle_waits ?_ rfl (by simp)⟩
  · rw [hbill]
    refine (hans.same (fun d => d.bill.qty)).trans ?_
    show z.bill.qty = _
    rw [hb]
  · rw [hbill]
    refine (hans.same (fun d => d.bill.cost)).trans ?_
    show z.bill.cost = _
    rw [hb]
  · rw [hans.same (fun d => d.cfg.pend)]
    exact List.mem_append_right _ (List.mem_singleton.mpr rfl)

/-- The load profile entries of a channel that BILL_LP_READ sends. -/
def lpSent (r : CmdReq) (ch : Nat) (c : Chip) : List LpEntry :=
  ((c.bill.lpc ch).entries.reverse.filter (fun e => decide (r.a1.toNat ≤ e.utc.toNat))).take r.a2.toNat

/-- The packet that brings load profile entries. -/
def lpPkt (ch : Nat) (p : List LpEntry) : List W32 :=
  mkPkt 0x12 0x06 (w32 (p.length * 65536 + ch) :: p.flatMap LpEntry.words)

theorem completes_billLpRead (ht : takes rowBillLpRead r s.chip) (hfull : s.chip.tixFull = false)
    (hen : s.chip.cb (0x60400 + 4 * (r.a0.toNat % 256)) 31 = true) (h0 : 0 < r.a2.toNat) (h1 : r.a2.toNat ≤ 9600)
    (ho : (s.chip.fq 1).owner = some r.m.val) :
    completes (.billLpRead r) s (fun d => acked r 0x01 s.chip.tix.next d ∧ d.bill = s.chip.bill ∧
      d.tix.done.head? = some (s.chip.tix.next, 0)) := by
  rw [← show fld r.a0 0 8 = r.a0.toNat % 256 from fld_low _ _] at hen
  have hz : r.a2 ≠ 0 := by
    rintro h
    simp [h] at h0
  have hlong := long_issued r 0x0604 (fld r.a0 0 8) s.chip hfull (fun t c =>
    let es := lpSent r (fld r.a0 0 8) c
    (each (chunks 255 es.length es) (fun p c => c.fqPut 1 (lpPkt (fld r.a0 0 8) p)) c).complete t stOK (w32 es.length))
  have hfn : cmdBillLpRead r (argued r s.chip) = _ := (if_neg (by
    rw [show (argued r s.chip).cb _ 31 = s.chip.cb _ 31 from rfl, hen]
    simpa using h1)).trans ((if_neg (not_not.mpr ho)).trans ((if_neg hz).trans hlong))
  obtain ⟨t, hex, hp, hack, hdone, hk⟩ := completes_sends (f := .billLpRead) (x := rowBillLpRead) hs (by decide)
    (by simp [commandRows]) ht hfn
  exact ⟨t, hex, hp, hack, hk .bill (by decide), hdone⟩

/-! ### Tariffs -/

theorem completes_tariffSchedule (ht : takes rowTariffSchedule r s.chip) (hn : s.chip.tariff.sched = none)
    (hok : tariffBad s.chip.tariff.pas = none)
    (hlead : s.chip.civil s.chip.now + 2000000000 ≤ (r.a0.toNat : Int) * 1000000000)
    (hgrid : ((r.a0.toNat : Int) + s.chip.zoning.std) % max 1 ((s.chip.demandCfg.toNat % 64 * 60 : Nat) : Int) = 0) :
    completes (.tariffSchedule r) s (fun d => acked r 0 0 d ∧
      d.tariff = { s.chip.tariff with sched := some r.a0.toNat, stamp := none } ∧
      keepsBut [.masters, .hint, .tariff, .ledger] s.chip d) := by
  have hfn : cmdTariffSchedule r (argued r s.chip) =
      (((argued r s.chip).modTariff (fun t => { t with sched := some r.a0.toNat, stamp := none })).stage 0x0B 0
        s.chip.now (tariffPayload s.chip.tariff.pas r.a0), {}) := by
    unfold cmdTariffSchedule
    dsimp only
    rw [if_neg (by rw [argued_tariff, hn]; decide)]
    rw [argued_tariff, hok]
    dsimp only
    refine if_neg (not_or.mpr ⟨?_, not_not.mpr ?_⟩)
    · exact Int.not_lt.mpr hlead
    · rw [fld_low]
      exact hgrid
  exact completes_plain (f := .tariffSchedule) (x := rowTariffSchedule) (bs := [.masters, .hint, .tariff, .ledger])
    (by simp [commandRows]) hs ht hfn
    ((calm_far _ _ _ _ _ _ _ _ _ _ _ _ _ _).trans (calm_stageAt _ _ _ _ _ _ _)).eased (by decide)
    (.inr fun q h => by
      rw [Chip.stage, stageAt_holdOver] at h
      exact h)
    (keepsBut_trans (keepsBut_tariff (by decide) _) (keepsBut_stageAt (by decide) _ _ _ _ _ _ _))
    (fun d' hans hk => ⟨hans.acked, (hans.same Chip.tariff).trans (stage_tariff ..), hk⟩)

theorem completes_tariffUnschedule {u : Int} (ht : takes rowTariffUnschedule r s.chip) (hu : s.chip.actAt = some u)
    (hlead : s.chip.civil s.chip.now + 1000000000 ≤ u) (hst : s.chip.tariff.stamp = none) :
    completes (.tariffUnschedule r) s (fun d => acked r 0 0 d ∧
      d.tariff = { s.chip.tariff with sched := none } ∧ keepsBut [.masters, .hint, .tariff] s.chip d) := by
  have hat : s.chip.schedAt = some u := (Option.filter_eq_some_iff.mp hu).1
  have hfn : cmdTariffUnschedule r (argued r s.chip) =
      ((argued r s.chip).modTariff (fun t => { t with sched := none }), {}) := by
    unfold cmdTariffUnschedule
    rw [show (argued r s.chip).schedAt = some u from hat]
    refine if_neg ?_
    rintro (⟨h, -⟩ | h)
    · exact absurd h (by show ¬ (u - s.chip.civil s.chip.now < nsS); unfold nsS; omega)
    · exact h hst
  exact completes_plain (f := .tariffUnschedule) (x := rowTariffUnschedule) (bs := [.masters, .hint, .tariff])
    (by simp [commandRows]) hs ht hfn (calm_far _ _ _ _ _ _ _ _ _ _ _ _ _ _).eased (by decide) (.inr fun _ => id)
    (keepsBut_tariff (by decide) _) (fun d' hans hk => ⟨hans.acked, hans.same Chip.tariff, hk⟩)

theorem completes_tariffCopy (ht : takes rowTariffCopy r s.chip) (hn : s.chip.tariff.sched = none) :
    completes (.tariffCopy r) s (fun d => acked r 0 0 d ∧
      d.tariff = { s.chip.tariff with pas := s.chip.tariff.act } ∧ keepsBut [.masters, .hint, .tariff] s.chip d) := by
  have hfn : cmdTariffCopy r (argued r s.chip) = _ := if_neg (by rw [argued_tariff, hn]; decide)
  exact completes_plain (f := .tariffCopy) (x := rowTariffCopy) (bs := [.masters, .hint, .tariff])
    (by simp [commandRows]) hs ht hfn (calm_far _ _ _ _ _ _ _ _ _ _ _ _ _ _).eased (by decide) (.inr fun _ => id)
    (keepsBut_tariff (by decide) _) (fun d' hans hk => ⟨hans.acked, hans.same Chip.tariff, hk⟩)

/-! ### The clock -/

omit hs in
theorem tame_modTime (g : Time → Time) (c : Chip) : Tame c (c.modTime g) := ⟨rfl, rfl, rfl, fun _ => id⟩

omit hs in
theorem tame_hostSet (c : Chip) : Tame c c.hostSet := by
  unfold Chip.hostSet Chip.when
  split
  · exact tame_modTime _ c
  · exact Tame.refl c

omit hs in
/-- A slew places a new piece of civil time and sets what is left of it. -/
theorem slewTo_time (x : Int) (c : Chip) : ∃ a, (c.slewTo x).time =
    { c.time.piece c.pieceStart 0 a with slewRem := x, leapPending := false } :=
  ⟨_, (handed_replace _).time⟩

omit hs in
theorem slewTo_cb (x : Int) (c : Chip) (a i : Nat) : (c.slewTo x).cb a i = c.cb a i := by
  unfold Chip.cb Chip.live
  rw [show (c.slewTo x).cfg = c.cfg from (handed_replace _).cfg]

omit hs in
theorem hostSet_time (c : Chip) : c.hostSet.time =
    { c.time with srcState := if c.cb 0x80000 31 then c.time.srcState else 4 } := by
  unfold Chip.hostSet
  cases c.cb 0x80000 31 <;> rfl

omit hs in
theorem completes_timeAdjust (ht : takes rowTimeAdjust r s.chip) (h0 : r.a0.toInt ≠ 0) (hlo : -1000000 ≤ r.a0.toInt)
    (hhi : r.a0.toInt ≤ 1000000) (hsrc : s.chip.time.srcState ≠ 3) :
    completes (.timeAdjust r) s (fun d => acked r 0 0 d ∧ d.time.slewRem = r.a0.toInt * 1000 ∧
      d.time.six = s.chip.time.six ∧ d.time.valid = s.chip.time.valid ∧
      (s.chip.cb 0x80000 31 = false → d.time.srcState = 4)) := by
  have hfn : cmdTimeAdjust r (argued r s.chip) = (((argued r s.chip).slewTo (r.a0.toInt * 1000)).hostSet, {}) := by
    unfold cmdTimeAdjust
    dsimp only
    rw [if_neg (by omega), if_neg (show ¬ (argued r s.chip).time.srcState = 3 from hsrc), if_neg h0]
    rfl
  obtain ⟨y, hy⟩ := slewTo_time (r.a0.toInt * 1000) (argued r s.chip)
  have hb : (Chip.slewTo (r.a0.toInt * 1000) (argued r s.chip)).cb 0x80000 31 = s.chip.cb 0x80000 31 := slewTo_cb _ _ _ _
  refine completes_acknowledged (x := rowTimeAdjust) rfl ⟨fun _ _ => rfl, fun _ _ => rfl⟩ ht hfn (fun e hans _ => ?_)
  rw [settle_time, hans.same Chip.time, hostSet_time, hy, hb]
  refine ⟨settle_acked _ _ hans.acked, rfl, rfl, rfl, fun h => ?_⟩
  rw [h]
  rfl

omit hs in
theorem completes_timeSet {x : Int} (hx : (r.a0.toNat : Int) * 1000000000 + (r.a1.toNat % 2 ^ 30 : Nat) - s.chip.civil s.chip.now = x)
    (ht : takes rowTimeSet r s.chip) (hfull : s.chip.tixFull = false) (hns : r.a1.toNat % 2 ^ 30 < 1000000000)
    (hsrc : s.chip.time.srcState ≠ 3 ∨ s.chip.time.valid = false) (hstep : s.chip.time.step = none) (hbig : 1000000000 < x) :
    completes (.timeSet r) s (fun d => pends r 0x0802 0 s.chip d ∧
      d.time.step = some { stamp := s.chip.stampAfter 1, ofs := x, ticket := s.chip.tix.next } ∧
      d.time.six = s.chip.time.six) := by
  let ev : CtxEv := { stamp := s.chip.stampAfter 1, src := 3, change := .clockStep }
  let y : PendStep := { stamp := s.chip.stampAfter 1, ofs := x, ticket := s.chip.tix.next }
  have hofs : (argued r s.chip).setOffset r = x := by
    rw [← hx]
    unfold Chip.setOffset
    rw [fld_low]
    rfl
  have hset : (argued r s.chip).stepSet x = true := by
    unfold Chip.stepSet
    rw [decide_eq_true (show nsS < x from hbig), Bool.or_true, Bool.true_or]
  have hlock : ¬ ((argued r s.chip).time.srcState = 3 ∧ (argued r s.chip).time.valid = true) := fun h =>
    hsrc.elim (absurd h.1) (fun hv => absurd (hv.symm.trans h.2) Bool.false_ne_true)
  have hfn : cmdTimeSet r (argued r s.chip) =
      (Chip.hostSet ((Chip.toEngines ev (issued r 0x0802 0 s.chip)).modTime (fun t => { t with step := some y })),
        { st := stPENDING, ticket := s.chip.tix.next }) := by
    unfold cmdTimeSet
    dsimp only
    rw [hofs, hset, fld_low, if_neg (Nat.not_le.mpr hns), if_neg hlock, if_neg (by decide),
      if_neg (by rw [argued_time, hstep]; decide)]
    exact long_issued _ _ _ _ hfull _
  have hc := carried_toEngines ev (issued r 0x0802 0 s.chip)
  have he := engNoted_toEngines ev (issued r 0x0802 0 s.chip)
  generalize Chip.toEngines _ _ = z at hc he hfn
  have hz : z.time.six = s.chip.time.six := congrArg Time.six he.time
  refine completes_acknowledged (x := rowTimeSet) rfl ⟨fun _ _ => rfl, fun c r => mayTimeSet_argued r c⟩ ht hfn
    (fun e hans _ => ?_)
  rw [settle_time, hans.same Chip.time, hostSet_time]
  exact ⟨pends_settle (hc.tame.trans ((tame_modTime _ _).trans (tame_hostSet _))) hans, rfl, hz⟩

end

/-- Settles O30: the commands of billing, the tariffs and the clock. -/
theorem billingCommands : Obligations.BillingCommands := by
  unfold Obligations.BillingCommands
  intro r m s hs c d64
  exact ⟨completes_billClose hs, completes_billSessClose hs, completes_billZero, completes_billLpRead hs,
    completes_tariffSchedule hs, fun u => completes_tariffUnschedule hs, completes_tariffCopy hs, completes_timeAdjust,
    fun ht hfull hns _ hsrc hstep => completes_timeSet rfl ht hfull hns hsrc hstep⟩

end Sys2Proof.Machine
end

section
/-! The end of a session (R355): what it takes from its master and what it leaves. -/

namespace Sys2Proof.Machine

open Sys2Proof Sys2Proof.Claims

/-! ### Rows of updates -/

/-- What one update of a row brings about from what all keep, and all keep, the row brings about. -/
theorem each_brings {α : Type} {f : α → Chip → Chip} {P Q : Chip → Prop} {a : α} (hP : ∀ b c, P c → P (f b c))
    (hQ : ∀ b c, Q c → Q (f b c)) (ha : ∀ c, P c → Q (f a c)) : ∀ (l : List α) (c : Chip), a ∈ l → P c → Q (each l f c)
  | [], _, hl, _ => absurd hl List.not_mem_nil
  | b :: t, c, hl, hc => by
    rcases List.mem_cons.mp hl with rfl | hl
    · clear hP hl
      have keep : ∀ (t : List α) (c : Chip), Q c → Q (each t f c) := by
        intro t
        induction t with
        | nil => exact fun _ h => h
        | cons b t ih => exact fun c h => ih _ (hQ b c h)
      exact keep t _ (ha c hc)
    · exact each_brings hP hQ ha t (f b c) hl (hP b c hc)

/-! ### The owners of the queues -/

theorem deliverRing_owner : ∀ (l : List EvtEntry) (f : Ferry), (deliverRing l f).2.1.owner = f.owner
  | [], _ => rfl
  | x :: t, f => by
    unfold deliverRing
    split
    · exact deliverRing_owner t f
    · split
      · exact deliverRing_owner t _
      · split
        · exact (deliverRing_owner t _).trans (push_owner _ f)
        · rfl

theorem deliverOnce_owner (c : Chip) (q : Nat) : (c.deliverOnce.fq q).owner = (c.fq q).owner := by
  unfold Chip.deliverOnce
  dsimp only
  have h : ∀ d : Chip, d.ferry = (c.modFq 3 (fun _ => (deliverRing c.evt.ring (c.fq 3)).2.1)).ferry →
      (d.fq q).owner = (c.fq q).owner := by
    intro d hd
    rw [Chip.fq, hd, ← Chip.fq, modFq_fq]
    split
    · next hq =>
      rw [hq]
      exact deliverRing_owner _ _
    · rfl
  split
  · exact h _ rfl
  · exact h _ rfl

/-- The delivery of events leaves the owners of the queues. -/
theorem deliver_owner (c : Chip) (q : Nat) : (c.deliver.fq q).owner = (c.fq q).owner := by
  unfold Chip.deliver
  dsimp only
  split
  · rw [deliverOnce_owner]
    show ((c.deliverOnce.endOverrun).fq q).owner = _
    rw [endOverrun_fq, deliverOnce_owner]
  · exact deliverOnce_owner c q

theorem endClaim_owner (c : Chip) (j q : Nat) : ((c.endClaim j).fq q).owner = if q = j then none else (c.fq q).owner := by
  have h : ((c.modFq j Ferry.endClaim).fq q).owner = if q = j then none else (c.fq q).owner := by
    rw [modFq_fq]
    split <;> rfl
  unfold Chip.endClaim Chip.when
  split
  · rw [deliver_owner, h]
  · exact h

/-- An event leaves the owners of the queues. -/
theorem raise_owner (code : W16) (unit : Nat) (a0 a1 : W32) (c : Chip) (q : Nat) :
    ((c.raise code unit a0 a1).fq q).owner = (c.fq q).owner := by
  unfold Chip.raise Chip.raiseAt
  dsimp only
  split
  · exact deliver_owner _ q
  · split <;> rfl

/-- A queue that nobody owns stays so behind a packet. -/
theorem fqPut_owner_none {j : Nat} (p : List W32) {c : Chip} (h : (c.fq j).owner = none) (q : Nat) :
    ((c.fqPut j p).fq q).owner = (c.fq q).owner := by
  have hm : ∀ g : Ferry → Ferry, (∀ f, (g f).owner = f.owner) → ((c.modFq j g).fq q).owner = (c.fq q).owner := by
    intro g hg
    rw [modFq_fq]
    split
    · next hq => rw [hg, hq]
    · rfl
  unfold Chip.fqPut
  split
  · rw [raise_owner]
    exact hm _ (fun _ => rfl)
  · have : c.fqOffer j p = (c.modFq j (Ferry.dropped 1), false) := if_pos (by rw [h]; rfl)
    rw [this]
    exact hm _ (fun _ => rfl)

/-- The end of the bay program's packet leaves the owners of the queues. -/
theorem signalLost_owner (old c : Chip) (q : Nat) : ((Chip.signalLost old c).fq q).owner = (c.fq q).owner := by
  unfold Chip.signalLost
  split
  · next rd p hs =>
    split
    · next h =>
      have ho : (c.fq 5).owner = none := by
        simp only [Chip.signalDue, Bool.and_eq_true, Option.isNone_iff_eq_none] at h
        exact h.1.2
      exact fqPut_owner_none (c := Chip.modBay _ c) p ho q
    · rfl
  · rfl

/-! ### The end of a session -/

/-- The block with other masters, landings, shadow words and claims on configuration groups. -/
def Chip.ended (c : Chip) (ma : Tbl Master) (la : Tbl Landing) (sh : Tbl W32) (ow : Tbl W8) : Chip :=
  { c with masters := ma, lands := la, cfg := { c.cfg with shadow := sh, owner := ow } }

/-- `d` differs from `c` in masters, landings, shadows and claims, and in what an event reaches. -/
def Ended (c d : Chip) : Prop := ∃ ma la sh ow, Noted (c.ended ma la sh ow) d

theorem Ended.refl (c : Chip) : Ended c c := ⟨c.masters, c.lands, c.cfg.shadow, c.cfg.owner, Noted.refl c⟩

theorem Noted.ended {c d : Chip} (h : Noted c d) : Ended c d := ⟨c.masters, c.lands, c.cfg.shadow, c.cfg.owner, h⟩

theorem Ended.trans {a b c : Chip} : Ended a b → Ended b c → Ended a c := by
  rintro ⟨ma, la, sh, ow, e, f, x, rfl⟩ ⟨ma', la', sh', ow', e', f', x', rfl⟩
  exact ⟨ma', la', sh', ow', e', f', x', rfl⟩

theorem ended_ite {p : Prop} [Decidable p] {c d e : Chip} (hd : Ended c d) (he : Ended c e) :
    Ended c (if p then d else e) := by
  split
  · exact hd
  · exact he

theorem ended_each {α : Type} {f : α → Chip → Chip} (h : ∀ a c, Ended c (f a c)) :
    ∀ (l : List α) (c : Chip), Ended c (each l f c)
  | [], c => Ended.refl c
  | a :: t, c => (h a c).trans (ended_each h t (f a c))

theorem ended_modMaster (m : Nat) (g : Master → Master) (c : Chip) : Ended c (c.modMaster m g) :=
  ⟨_, c.lands, c.cfg.shadow, c.cfg.owner, Noted.refl _⟩

theorem ended_modLand (n : Nat) (g : Landing → Landing) (c : Chip) : Ended c (c.modLand n g) :=
  ⟨c.masters, _, c.cfg.shadow, c.cfg.owner, Noted.refl _⟩

theorem ended_discardShadow (g : Nat) (c : Chip) : Ended c (c.discardShadow g) :=
  ⟨c.masters, c.lands, _, _, Noted.refl _⟩

section
variable {c d : Chip} (h : Ended c d)
include h

theorem Ended.key : d.key = c.key := by
  obtain ⟨_, _, _, _, h⟩ := h
  exact h.key

theorem Ended.tix : d.tix = c.tix := by
  obtain ⟨_, _, _, _, h⟩ := h
  exact h.tix

theorem Ended.live : d.cfg.live = c.cfg.live := by
  obtain ⟨_, _, _, _, h⟩ := h
  rw [h.cfg]
  rfl

end

section
variable (c : Chip) (m : Nat)

/-- The landings of a master that are given up, the claims on configuration groups and on queues. -/
def Chip.landsFreed : Chip := each (landsOf m) (fun n c => c.modLand n (fun _ => {})) c

def Chip.groupsFreed : Chip :=
  each (List.range 12) (fun g c => if c.cfgOwner g = some m then c.discardShadow g else c) c

/-- The claim of a master on one queue that ends. -/
def Chip.queueFreed (m q : Nat) (c : Chip) : Chip := if (c.fq q).owner = some m then c.endClaim q else c

def Chip.queuesFreed : Chip := each (List.range 8) (Chip.queueFreed m) c

theorem queueFreed_owner (q j : Nat) (c : Chip) : ((c.queueFreed m j).fq q).owner =
    if q = j ∧ (c.fq j).owner = some m then none else (c.fq q).owner := by
  unfold Chip.queueFreed
  split
  · next h => rw [endClaim_owner]; simp [h]
  · next h => simp [h]

theorem endSession_eq : c.endSession m = (((c.landsFreed m).groupsFreed m).queuesFreed m).modMaster m
    (fun x => { x with role := 0, account := 0xFF, sess := x.sess + 1 }) := rfl

theorem landsFreed_fq (q : Nat) : (c.landsFreed m).fq q = c.fq q := by
  unfold Chip.landsFreed
  exact each_keeps (fun c => c.fq q) (fun n c => c.modLand n (fun _ => {})) (fun _ _ => rfl) _ c

theorem landsFreed_cfg : (c.landsFreed m).cfg = c.cfg := by
  unfold Chip.landsFreed
  exact each_keeps Chip.cfg (fun n c => c.modLand n (fun _ => {})) (fun _ _ => rfl) _ c

theorem landsFreed_masters : (c.landsFreed m).masters = c.masters := by
  unfold Chip.landsFreed
  exact each_keeps Chip.masters (fun n c => c.modLand n (fun _ => {})) (fun _ _ => rfl) _ c

theorem groupsFreed_masters : (c.groupsFreed m).masters = c.masters := by
  unfold Chip.groupsFreed
  refine each_keeps Chip.masters _ (fun g c => ?_) _ c
  split <;> rfl

theorem groupsFreed_lands : (c.groupsFreed m).lands = c.lands := by
  unfold Chip.groupsFreed
  refine each_keeps Chip.lands _ (fun g c => ?_) _ c
  split <;> rfl

theorem groupsFreed_fq (q : Nat) : (c.groupsFreed m).fq q = c.fq q := by
  unfold Chip.groupsFreed
  refine each_keeps (fun c => c.fq q) _ (fun g c => ?_) _ c
  split <;> rfl

theorem queuesFreed_noted : Noted c (c.queuesFreed m) := by
  refine noted_each (fun q c => ?_) _ c
  unfold Chip.queueFreed
  split
  · exact noted_endClaim q c
  · exact Noted.refl c

/-- What the end of a session leaves of the block. -/
theorem ended_endSession : Ended c (c.endSession m) := by
  rw [endSession_eq]
  refine (((ended_each (fun n c => ended_modLand n _ c) _ c).trans (ended_each (fun g c => ?_) _ _)).trans
    (queuesFreed_noted _ m).ended).trans (ended_modMaster m _ _)
  exact ended_ite (ended_discardShadow g c) (Ended.refl c)

theorem endSession_master (j : Nat) : (c.endSession m).master j =
    if j = m then { c.master j with role := 0, account := 0xFF, sess := (c.master j).sess + 1 } else c.master j := by
  have h : ∀ i, (((c.landsFreed m).groupsFreed m).queuesFreed m).master i = c.master i := fun i => by
    rw [Chip.master, (queuesFreed_noted _ m).masters, groupsFreed_masters, landsFreed_masters]
    rfl
  rw [endSession_eq, modMaster_master]
  split
  · next hj => rw [h, hj]
  · exact h j

theorem endSession_land {n : Nat} (hn : n ∈ landsOf m) : (c.endSession m).land n = {} := by
  have h : (c.landsFreed m).land n = {} := by
    refine each_brings (P := fun _ => True) (Q := fun c => c.land n = {}) (fun _ _ => id) (fun b c h => ?_) (fun c _ => ?_)
      (landsOf m) c hn trivial
    · rw [modLand_land]
      split
      · rfl
      · exact h
    · rw [modLand_land, if_pos rfl]
  rw [endSession_eq, Chip.land, modMaster_lands, (queuesFreed_noted _ m).lands, groupsFreed_lands]
  exact h

theorem setOwner_cfgOwner (g j : Nat) : (c.setOwner g none).cfgOwner j = if j = g then none else c.cfgOwner j := by
  have h : Tbl.get (0 : W8) (c.setOwner g none).cfg.owner j = if j = g then 0 else Tbl.get 0 c.cfg.owner j :=
    Tbl.get_put (0 : W8) c.cfg.owner g j 0
  unfold Chip.cfgOwner
  rw [h]
  split
  · rfl
  · rfl

theorem endSession_cfgOwner {g : Nat} (hg : g < 12) (h : c.cfgOwner g = some m) : (c.endSession m).cfgOwner g = none := by
  have hstep : ∀ b (c : Chip), ((if c.cfgOwner b = some m then c.discardShadow b else c).cfgOwner g) =
      if g = b ∧ c.cfgOwner b = some m then none else c.cfgOwner g := by
    intro b c
    split
    · next hb =>
      rw [show (c.discardShadow b).cfgOwner g = _ from setOwner_cfgOwner _ b g]
      simp [hb]
      rfl
    · next hb => simp [hb]
  have hfree : ((c.landsFreed m).groupsFreed m).cfgOwner g = none := by
    refine each_brings (P := fun c => c.cfgOwner g = some m ∨ c.cfgOwner g = none) (Q := fun c => c.cfgOwner g = none)
      (a := g) (fun b c hc => ?_) (fun b c hc => ?_) (fun c hc => ?_) (List.range 12) _ (List.mem_range.mpr hg) (.inl ?_)
    · rw [hstep]
      split
      · exact .inr rfl
      · exact hc
    · rw [hstep]
      split
      · rfl
      · exact hc
    · rw [hstep]
      rcases hc with hc | hc
      · rw [if_pos ⟨rfl, hc⟩]
      · rw [hc]
        split <;> rfl
    · unfold Chip.cfgOwner at h ⊢
      rw [landsFreed_cfg]
      exact h
  unfold Chip.cfgOwner at hfree ⊢
  rw [endSession_eq, modMaster_cfg, (queuesFreed_noted _ m).cfg]
  exact hfree

theorem queuesFreed_owner {q : Nat} (hq : q < 8) (h : (c.fq q).owner = some m) : ((c.queuesFreed m).fq q).owner = none := by
  have keeps : ∀ b (c : Chip), (c.fq q).owner = none → ((c.queueFreed m b).fq q).owner = none := fun b c hc => by
    rw [queueFreed_owner, hc]
    split <;> rfl
  refine each_brings (f := Chip.queueFreed m) (P := fun c => (c.fq q).owner = some m ∨ (c.fq q).owner = none)
    (Q := fun c => (c.fq q).owner = none) (a := q) (fun b c hc => ?_) keeps (fun c hc => ?_) (List.range 8) c
    (List.mem_range.mpr hq) (.inl h)
  · rcases hc with hc | hc
    · rw [queueFreed_owner]
      split
      · exact .inr rfl
      · exact .inl hc
    · exact .inr (keeps b c hc)
  · rcases hc with hc | hc
    · rw [queueFreed_owner, if_pos ⟨rfl, hc⟩]
    · exact keeps q c hc

theorem endSession_owner {q : Nat} (hq : q < 8) (h : (c.fq q).owner = some m) : ((c.endSession m).fq q).owner = none := by
  have hf := queuesFreed_owner ((c.landsFreed m).groupsFreed m) m hq (by rw [groupsFreed_fq, landsFreed_fq]; exact h)
  rw [endSession_eq]
  unfold Chip.fq at hf ⊢
  rw [modMaster_ferry]
  exact hf

end

end Sys2Proof.Machine
end

section
/-! The session commands (R353, R354, R355). -/

namespace Sys2Proof.Machine

open Sys2Proof Sys2Proof.Claims

/-! ### Settling and sessions -/

theorem settle_acct (old d : Chip) (a : Nat) : (Chip.settle old d).acct a = d.acct a := by
  unfold Chip.acct
  rw [settle_key]

theorem settle_land (old d : Chip) (n : Nat) : (Chip.settle old d).land n = d.land n := by
  unfold Chip.land
  rw [settle_lands]

theorem settle_cfgOwner (old d : Chip) (g : Nat) : (Chip.settle old d).cfgOwner g = d.cfgOwner g := by
  obtain ⟨p, hp⟩ := settle_cfg old d
  unfold Chip.cfgOwner
  rw [hp]

@[simp] theorem modAcct_acct (a : Nat) (g : Account → Account) (c : Chip) (j : Nat) :
    (c.modAcct a g).acct j = if j = a then g (c.acct a) else c.acct j := Tbl.get_put ..

theorem modAcct_master (a : Nat) (g : Account → Account) (c : Chip) (j : Nat) :
    (c.modAcct a g).master j = c.master j := rfl

section
variable (r : CmdReq) (c : Chip) (m : Nat)

@[simp] theorem argued_acct (a : Nat) : (argued r c).acct a = c.acct a := rfl

@[simp] theorem argued_keyBufBytes : (argued r c).keyBufBytes m = c.keyBufBytes m := by
  obtain ⟨_, _, _, _, h⟩ := argued_master r c m
  unfold Chip.keyBufBytes
  rw [h]

/-- A command of a session that has taken its ticket, with what SC works on until its completion. -/
def working (code i : Nat) (c : Chip) : Chip :=
  (issued r code i c).modKey (fun k => { k with pending := k.pending ++
    [{ ticket := c.tix.next, a1 := r.a1, a2 := r.a2, a3 := r.a3, buf := c.keyBufBytes r.m.val }] })

theorem keyWork_argued (code i : Nat) (hfull : c.tixFull = false) : (argued r c).keyWork r code i =
    (working r code i c, { st := stPENDING, ticket := c.tix.next }) := by
  unfold Chip.keyWork
  rw [long_issued _ _ _ _ hfull]
  have h : (issued r code i c).keyBufBytes r.m.val = c.keyBufBytes r.m.val := argued_keyBufBytes r c r.m.val
  rw [h]
  rfl

end

/-- Key slots, accounts and operations are nothing that settling follows, while the life cycle is the same. -/
theorem calm_key (k : Key) (c : Chip) : Calm c { c with key := { k with lc := c.key.lc } } :=
  ⟨rfl, rfl, rfl, rfl, rfl, rfl, rfl, fun _ => rfl, fun _ => rfl, fun _ => rfl, fun _ => rfl, rfl, rfl⟩

theorem calm_modKey {g : Key → Key} {c : Chip} (h : (g c.key).lc = c.key.lc) : Calm c (c.modKey g) := by
  have hk := calm_key (g c.key) c
  rw [← h] at hk
  exact hk

/-- The block of a login, which notes the account that was tried. -/
def tried (r : CmdReq) (a : Nat) (c : Chip) : Chip :=
  (argued r c).modMaster r.m.val (fun x => { x with tried := some (BitVec.ofNat 4 a) })

/-- A failed authentication as it is counted and reported. -/
def Chip.failCounted (a : Nat) (c : Chip) : Chip :=
  (c.modAcct (c.failIx a) (fun x => { x with fails := min ((c.acct (c.failIx a)).fails + 1) 15 })).raise 0x1004 a 0 0

/-- The block in which the nonce of a master is spent. -/
def spent (m : Nat) (c : Chip) : Chip := c.modMaster m (fun x => { x with nonceOk := false })

theorem spent_master (m : Nat) (c : Chip) : (spent m c).master m = { c.master m with nonceOk := false } :=
  (modMaster_master ..).trans (if_pos rfl)

/-! ### Commands that start an operation of SC -/

section
variable {r : CmdReq} {s : State} (hs : Settled s)
include hs

/-- What a command that starts an operation of SC leaves. -/
def Starts (r : CmdReq) (code i : Nat) (c d : Chip) : Prop :=
  pends r code i c d ∧ d.key = { c.key with pending := c.key.pending ++
    [{ ticket := c.tix.next, a1 := r.a1, a2 := r.a2, a3 := r.a3, buf := c.keyBufBytes r.m.val }] } ∧
  keepsBut [.masters, .hint, .tix, .key] c d

/-- A command whose checks pass starts its operation. -/
theorem completes_keyWork {f : CmdReq → Instr} {x : CmdRow} {code i : Nat} (hmem : (f, x) ∈ commandRows)
    (ht : takes x r s.chip) (hfull : s.chip.tixFull = false)
    (hfn : x.fn r (argued r s.chip) = (argued r s.chip).keyWork r code i) :
    completes (f r) s (Starts r code i s.chip) := by
  rw [keyWork_argued r s.chip code i hfull] at hfn
  exact completes_plain (bs := [.masters, .hint, .tix, .key]) hmem hs ht hfn
    ((calm_issued r code i s.chip).trans (calm_modKey rfl)).eased (by decide) (.inr fun _ => id)
    (keepsBut_trans (keepsBut_tix (by decide) _) (keepsBut_key (by decide) _))
    (fun d' hans hk => ⟨hans.pends rfl, hans.same Chip.key, hk⟩)

omit hs in
theorem passLen_ok {n : Nat} (hlo : 12 ≤ n) (hhi : n ≤ 64) : passLen n = none :=
  (if_neg (by omega)).trans (if_neg (by omega))

omit hs in
theorem passwd_good {a : Nat} {pw : List W8} {c : Chip} (hen : (c.acct a).en = true) (hmeth : (c.acct a).method = 0)
    (hslot : 2 ≤ (c.acct a).slot.toNat) (hpw : ∀ b ∈ pw, 0x20 ≤ b.toNat ∧ b.toNat ≤ 0x7E) : c.passwdBad a pw = false := by
  have hany : pw.any (fun b => decide (b.toNat < 0x20) || decide (0x7E < b.toNat)) = false := by
    rw [List.any_eq_false]
    intro b hb
    obtain ⟨h1, h2⟩ := hpw b hb
    simp [h1, h2]
  have hs : ¬ (c.acct a).slot.toNat < 2 := Nat.not_lt.mpr hslot
  simp only [Chip.passwdBad, hen, hmeth, hany, decide_eq_false hs]
  rfl

theorem completes_keyPasswd {a : Nat} (ha : r.a0.toNat % 16 = a) (ht : takes rowKeyPasswd r s.chip)
    (hfull : s.chip.tixFull = false) (hlo : 12 ≤ r.a1.toNat) (hhi : r.a1.toNat ≤ 64) (hen : (s.chip.acct a).en = true)
    (hmeth : (s.chip.acct a).method = 0) (hslot : 2 ≤ (s.chip.acct a).slot.toNat)
    (hpw : ∀ b ∈ (s.chip.keyBufBytes r.m.val).take r.a1.toNat, 0x20 ≤ b.toNat ∧ b.toNat ≤ 0x7E) :
    completes (.keyPasswd r) s (Starts r 0x1004 a s.chip) := by
  rw [← show fld r.a0 0 4 = r.a0.toNat % 16 from fld_low _ _] at ha
  subst ha
  refine completes_keyWork (f := .keyPasswd) (x := rowKeyPasswd) hs (by simp [commandRows]) ht hfull ?_
  have hl := passLen_ok hlo hhi
  have hbad : (argued r s.chip).passwdBad (fld r.a0 0 4) (((argued r s.chip).keyBufBytes r.m.val).take r.a1.toNat) = false := by
    rw [argued_keyBufBytes]
    exact passwd_good (c := argued r s.chip) hen hmeth hslot hpw
  show cmdKeyPasswd r _ = _
  unfold cmdKeyPasswd
  rw [hl]
  exact if_neg (by rw [hbad]; decide)

/-! ### Logins -/

omit hs in
/-- The master of a login, which notes the account that was tried. -/
theorem tried_master (a : Nat) (c : Chip) (j : Nat) : ∃ a0 a1 a2 a3 t, (tried r a c).master j =
    { c.master j with arg0 := a0, arg1 := a1, arg2 := a2, arg3 := a3, tried := t } := by
  obtain ⟨_, _, _, _, h⟩ := argued_master r c j
  unfold tried
  rw [modMaster_master]
  split
  · next hj =>
    subst hj
    rw [h]
    exact ⟨_, _, _, _, _, rfl⟩
  · rw [h]
    exact ⟨_, _, _, _, _, rfl⟩

omit hs in
theorem tried_acct (a j : Nat) (c : Chip) : (tried r a c).acct j = c.acct j := rfl

omit hs in
theorem tried_keyBufBytes (a m : Nat) (c : Chip) : (tried r a c).keyBufBytes m = c.keyBufBytes m := by
  obtain ⟨_, _, _, _, _, h⟩ := tried_master (r := r) a c m
  unfold Chip.keyBufBytes
  rw [h]

omit hs in
/-- A failed authentication is counted, and may lock its entry. -/
theorem authFail_eq (a : Nat) (c : Chip) : c.authFail a = c.failCounted a ∨ ∃ len, c.authFail a =
    (((c.failCounted a).modAcct (c.failIx a) (fun x => { x with
      lockLen := len, lockTo := (c.failCounted a).now + 32000 * len })).tamperInst 16 0xFF
        (c.failCounted a).now 0 []).raise 0x1005 a 0 0 := by
  unfold Chip.authFail
  dsimp only
  generalize (if (c.acct (c.failIx a)).lockLen ≠ 0 then _ else _ : Nat) = len
  by_cases h : len = 0
  · exact .inl (if_pos h)
  · exact .inr ⟨len, if_neg h⟩

omit hs in
theorem authFail_masters (a : Nat) (c : Chip) : (c.authFail a).masters = c.masters := by
  rcases authFail_eq a c with h | ⟨len, h⟩
  · rw [h]
    exact raise_masters ..
  · rw [h, raise_masters, tamperInst_masters]
    exact raise_masters ..

omit hs in
theorem failCounted_acct (a j : Nat) (c : Chip) : (c.failCounted a).acct j =
    if j = c.failIx a then { c.acct j with fails := min ((c.acct j).fails + 1) 15 } else c.acct j := by
  unfold Chip.acct Chip.failCounted
  rw [raise_key, ← Chip.acct, modAcct_acct]
  split
  · next h => rw [h]; rfl
  · rfl

omit hs in
/-- A failed authentication is counted in its entry, and every other account is as it was. -/
theorem authFail_acct (a j : Nat) (c : Chip) : ∃ l z, (c.authFail a).acct j =
    if j = c.failIx a then { c.acct j with fails := min ((c.acct j).fails + 1) 15, lockLen := l, lockTo := z } else c.acct j := by
  rcases authFail_eq a c with h | ⟨len, h⟩
  · rw [h, failCounted_acct]
    exact ⟨_, _, rfl⟩
  · refine ⟨len, (c.failCounted a).now + 32000 * len, ?_⟩
    unfold Chip.acct
    rw [h, raise_key, tamperInst_key, ← Chip.acct, modAcct_acct, failCounted_acct, failCounted_acct]
    split
    · next hj =>
      rw [← hj, if_pos rfl]
      rfl
    · rfl

omit hs in
theorem completes_keyLogin_disabled {a : Nat} (ha : r.a0.toNat % 16 = a) (ht : takes rowKeyLogin r s.chip)
    (hlock : (s.chip.acct 16).lockTo ≤ s.chip.now) (hen : (s.chip.acct a).en = false) :
    completes (.keyLogin r) s (fun d =>
      acked r 0x05 0 d ∧ (d.acct 16).fails = min ((s.chip.acct 16).fails + 1) 15 ∧
      (d.master r.m.val).role = (s.chip.master r.m.val).role ∧ (∀ j, j ≠ 16 → d.acct j = s.chip.acct j)) := by
  rw [← show fld r.a0 0 4 = r.a0.toNat % 16 from fld_low _ _] at ha
  subst ha
  let c := tried r (fld r.a0 0 4) s.chip
  have hix : c.failIx (fld r.a0 0 4) = 16 := if_neg (by rw [show (c.acct (fld r.a0 0 4)).en = false from hen]; decide)
  have hfn : cmdKeyLogin r (argued r s.chip) = (c.authFail (fld r.a0 0 4), { st := stAUTH }) := by
    refine (if_neg ?_).trans (if_pos ?_)
    · show ¬ c.now < (c.acct (c.failIx (fld r.a0 0 4))).lockTo
      rw [hix]
      exact Nat.not_lt.mpr hlock
    · show (!(s.chip.acct (fld r.a0 0 4)).en) = true
      rw [hen]
      rfl
  have hacct : ∀ j, ∃ l z, (c.authFail (fld r.a0 0 4)).acct j = if j = 16 then
      { s.chip.acct j with fails := min ((s.chip.acct j).fails + 1) 15, lockLen := l, lockTo := z } else s.chip.acct j := by
    intro j
    have h := authFail_acct (fld r.a0 0 4) j c
    rw [hix] at h
    exact h
  refine completes_acknowledged (x := rowKeyLogin) rfl ⟨fun _ _ => rfl, fun c r => notReader_argued r c⟩ ht hfn
    (fun e hans _ => ⟨settle_acked _ _ hans.acked, ?_, ?_, fun j hj => ?_⟩)
  · obtain ⟨l, z, h⟩ := hacct 16
    rw [settle_acct, hans.same (fun d => d.acct 16), h, if_pos rfl]
  · obtain ⟨x, hx⟩ := settle_master s.chip e r.m.val
    obtain ⟨b, hb⟩ := hans.mine
    obtain ⟨_, _, _, _, _, ht⟩ := tried_master (r := r) (fld r.a0 0 4) s.chip r.m.val
    rw [hx, hb, Chip.master, authFail_masters, ← Chip.master, ht]
  · obtain ⟨l, z, h⟩ := hacct j
    rw [settle_acct, hans.same (fun d => d.acct j), h, if_neg hj]

/-! ### A session that opens -/

omit hs in
theorem openSession_acct (m a j : Nat) (role : BitVec 3) (c : Chip) : (c.openSession m a role).acct j =
    if j = a then { c.acct j with fails := 0, lockLen := 0, lockTo := 0 } else c.acct j := by
  unfold Chip.openSession
  have h : ∀ i, ((c.endSession m).modMaster m (fun x => { x with role := role, account := BitVec.ofNat 8 a })).acct i =
      c.acct i := fun i => by
    unfold Chip.acct
    rw [modMaster_key, (ended_endSession c m).key]
  rw [modAcct_acct, h, h]
  split
  · next hj => rw [hj]
  · rfl

omit hs in
theorem openSession_master (m a j : Nat) (role : BitVec 3) (c : Chip) : (c.openSession m a role).master j =
    if j = m then { c.master j with role := role, account := BitVec.ofNat 8 a, sess := (c.master j).sess + 1 }
    else c.master j := by
  unfold Chip.openSession
  rw [modAcct_master, modMaster_master, endSession_master, endSession_master]
  split
  · next hj => rw [hj, if_pos rfl]
  · rfl

omit hs in
/-- A login's HMAC and buffer are the same in blocks with the same keys whose masters differ elsewhere. -/
theorem loginMac_same {m a : Nat} {c d : Chip} (hk : d.key = c.key) (hs : d.sys = c.sys)
    (hm : (d.master m).nonce = (c.master m).nonce) : d.loginMac m a = c.loginMac m a := by
  unfold Chip.loginMac Chip.kslot Chip.acct Chip.idBytes
  rw [hk, hs, hm]

omit hs in
theorem keyBufBytes_same {m : Nat} {c d : Chip} (h : (d.master m).keyBuf = (c.master m).keyBuf) :
    d.keyBufBytes m = c.keyBufBytes m := by
  unfold Chip.keyBufBytes
  rw [h]

omit hs in
/-- A fresh nonce and its HMAC open a session. -/
theorem hmacLogin_opens {m a : Nat} {c : Chip} (hok : (c.master m).nonceOk = true)
    (hsix : c.now ≤ (c.master m).nonceSix + 320000) (hkey : c.acctKey a 3 = 0)
    (hmac : digBytes (c.loginMac m a) = (c.keyBufBytes m).take 32) : c.hmacLogin m a =
      ((spent m c).openSession m a (c.acct a).role, {}) := by
  have hmac' : digBytes ((spent m c).loginMac m a) =
      ((spent m c).keyBufBytes m).take 32 := by
    rw [loginMac_same (c := c) (d := spent m c) rfl rfl (by rw [spent_master]),
      keyBufBytes_same (c := c) (d := spent m c) (by rw [spent_master])]
    exact hmac
  have hkey' : (spent m c).acctKey a 3 = 0 := hkey
  exact (if_neg (by simp [hok, hsix])).trans ((if_neg (fun h => absurd (hkey'.symm.trans h) (by decide))).trans
    (if_pos ⟨hkey', hmac'⟩))

omit hs in
theorem completes_keyLogin_hmac {a : Nat} (ha : r.a0.toNat % 16 = a) (ht : takes rowKeyLogin r s.chip)
    (hlock : (s.chip.acct (s.chip.failIx a)).lockTo ≤ s.chip.now) (hen : (s.chip.acct a).en = true)
    (hmeth : (s.chip.acct a).method = 1) (hok : (s.chip.master r.m.val).nonceOk = true)
    (hsix : s.chip.now ≤ (s.chip.master r.m.val).nonceSix + 320000) (hkey : s.chip.acctKey a 3 = 0)
    (hmac : digBytes (s.chip.loginMac r.m.val a) = (s.chip.keyBufBytes r.m.val).take 32) :
    completes (.keyLogin r) s (fun d =>
      acked r 0 0 d ∧ (d.master r.m.val).role = (s.chip.acct a).role ∧ (d.master r.m.val).account.toNat = a ∧
      (d.master r.m.val).sess = (s.chip.master r.m.val).sess + 1 ∧ (d.master r.m.val).nonceOk = false ∧
      (d.acct a).fails = 0 ∧ (d.acct a).lockLen = 0 ∧ (∀ j, j ≠ a → d.acct j = s.chip.acct j)) := by
  rw [← show fld r.a0 0 4 = r.a0.toNat % 16 from fld_low _ _] at ha
  have hlt : a < 16 := ha ▸ Nat.mod_lt _ (by decide)
  subst ha
  let c := tried r (fld r.a0 0 4) s.chip
  obtain ⟨_, _, _, _, _, hme⟩ := tried_master (r := r) (fld r.a0 0 4) s.chip r.m.val
  have hmac' : digBytes (c.loginMac r.m.val (fld r.a0 0 4)) = (c.keyBufBytes r.m.val).take 32 := by
    rw [loginMac_same (c := s.chip) (d := c) rfl rfl (by rw [hme]), keyBufBytes_same (c := s.chip) (d := c) (by rw [hme])]
    exact hmac
  have hfn : cmdKeyLogin r (argued r s.chip) = ((spent r.m.val c).openSession
      r.m.val (fld r.a0 0 4) (s.chip.acct (fld r.a0 0 4)).role, {}) := by
    refine (if_neg (Nat.not_lt.mpr hlock)).trans ((if_neg ?_).trans ((if_pos hmeth).trans
      (hmacLogin_opens (c := c) (by rw [hme]; exact hok) (by rw [hme]; exact hsix) hkey hmac')))
    show ¬ (!(s.chip.acct (fld r.a0 0 4)).en) = true
    rw [hen]
    decide
  have hmaster := openSession_master r.m.val (fld r.a0 0 4) r.m.val (s.chip.acct (fld r.a0 0 4)).role
    (spent r.m.val c)
  rw [if_pos rfl, spent_master, hme] at hmaster
  have hacct : ∀ j, ((spent r.m.val c).openSession r.m.val (fld r.a0 0 4) (s.chip.acct (fld r.a0 0 4)).role).acct j =
      if j = fld r.a0 0 4 then { s.chip.acct j with fails := 0, lockLen := 0, lockTo := 0 } else s.chip.acct j :=
    fun j => openSession_acct ..
  generalize Chip.openSession _ _ _ _ = z at hfn hmaster hacct
  refine completes_acknowledged (x := rowKeyLogin) rfl ⟨fun _ _ => rfl, fun c r => notReader_argued r c⟩ ht hfn
    (fun e hans _ => ?_)
  obtain ⟨x, hx⟩ := settle_master s.chip e r.m.val
  obtain ⟨b, hb⟩ := hans.mine
  rw [hmaster] at hb
  have ha : ∀ j, (Chip.settle s.chip e).acct j = _ := fun j =>
    (settle_acct s.chip e j).trans ((hans.same (fun d => d.acct j)).trans (hacct j))
  refine ⟨settle_acked _ _ hans.acked, ?_, ?_, ?_, ?_, ?_, ?_, fun j hj => ?_⟩
  · rw [hx, hb]
  · rw [hx, hb]
    exact (BitVec.toNat_ofNat _ _).trans (Nat.mod_eq_of_lt (by omega))
  · rw [hx, hb]
  · rw [hx, hb]
  · rw [ha, if_pos rfl]
  · rw [ha, if_pos rfl]
  · rw [ha, if_neg hj]

omit hs in
theorem tried_issue_tix (code arg a : Nat) (c : Chip) : ((tried r a c).issue r.m.val code arg).1.tix = (issued r code arg c).tix := by
  obtain ⟨_, _, _, _, _, h⟩ := tried_master (r := r) a c r.m.val
  rw [issued_tix]
  unfold ticketOf
  rw [show (c.master r.m.val).sess = ((tried r a c).master r.m.val).sess by rw [h]]
  rfl

/-- A login by password that has taken its ticket, with what SC works on. -/
def loginWorking (r : CmdReq) (a : Nat) (c : Chip) : Chip :=
  ((tried r a c).issue r.m.val 0x1002 a).1.modKey (fun k => { k with pending := k.pending ++
    [{ ticket := c.tix.next, a1 := r.a1, a2 := r.a2, a3 := r.a3, buf := c.keyBufBytes r.m.val }] })

omit hs in
theorem keyWork_tried (a : Nat) (c : Chip) (hfull : c.tixFull = false) : (tried r a c).keyWork r 0x1002 a =
    (loginWorking r a c, { st := stPENDING, ticket := c.tix.next }) := by
  unfold loginWorking
  have h : ((tried r a c).issue r.m.val 0x1002 a).1.keyBufBytes r.m.val = c.keyBufBytes r.m.val := tried_keyBufBytes a _ c
  unfold Chip.keyWork
  rw [← h]
  exact if_neg (by rw [show (tried r a c).tixFull = c.tixFull from rfl, hfull]; decide)

theorem completes_keyLogin_password {a : Nat} (ha : r.a0.toNat % 16 = a) (ht : takes rowKeyLogin r s.chip)
    (hfull : s.chip.tixFull = false) (hlock : (s.chip.acct (s.chip.failIx a)).lockTo ≤ s.chip.now)
    (hen : (s.chip.acct a).en = true) (hmeth : (s.chip.acct a).method = 0) (hm : r.m.val ≠ 0) (hlo : 12 ≤ r.a1.toNat)
    (hhi : r.a1.toNat ≤ 64) (hst : s.chip.slotState (s.chip.acct a).slot.toNat ≠ 2) :
    completes (.keyLogin r) s (fun d => Starts r 0x1002 a s.chip d ∧
      (d.master r.m.val).role = (s.chip.master r.m.val).role) := by
  rw [← show fld r.a0 0 4 = r.a0.toNat % 16 from fld_low _ _] at ha
  subst ha
  have hkey : (tried r (fld r.a0 0 4) s.chip).acctKey (fld r.a0 0 4) 6 ≠ stCONDEMNED := by
    intro h
    have h' : s.chip.acctKey (fld r.a0 0 4) 6 = stCONDEMNED := h
    unfold Chip.acctKey at h'
    rw [if_neg hst] at h'
    split at h' <;> exact absurd h' (by decide)
  have hfn : cmdKeyLogin r (argued r s.chip) = (loginWorking r (fld r.a0 0 4) s.chip,
      { st := stPENDING, ticket := s.chip.tix.next }) := (if_neg (Nat.not_lt.mpr hlock)).trans ((if_neg (by
    show ¬ (!(s.chip.acct (fld r.a0 0 4)).en) = true
    rw [hen]
    decide)).trans ((if_neg (by
    show ¬ (s.chip.acct (fld r.a0 0 4)).method = 1
    simp [hmeth])).trans ((if_pos hmeth).trans ((if_neg hm).trans (by
    rw [passLen_ok hlo hhi]
    exact (if_neg hkey).trans (keyWork_tried (fld r.a0 0 4) s.chip hfull))))))
  have htix := tried_issue_tix (r := r) 0x1002 (fld r.a0 0 4) (fld r.a0 0 4) s.chip
  refine completes_plain (f := .keyLogin) (x := rowKeyLogin) (bs := [.masters, .hint, .tix, .key]) (by simp [commandRows])
    hs ht hfn ((calm_far _ _ _ _ _ _ _ _ _ _ _ _ _ _).trans (calm_modKey rfl)).eased (by decide) (.inr fun _ => id) ?_
    (fun d' hans hk => ⟨⟨hans.pends htix, hans.same Chip.key, hk⟩, ?_⟩)
  · exact keepsBut_trans (keepsBut_masters (by decide) _) (keepsBut_trans (keepsBut_tix (by decide) _) (keepsBut_key (by decide) _))
  · obtain ⟨b, hb⟩ := hans.mine
    obtain ⟨_, _, _, _, _, hme⟩ := tried_master (r := r) (fld r.a0 0 4) s.chip r.m.val
    rw [hb]
    exact (congrArg Master.role hme :)

/-! ### A session that is ended -/

omit hs in
/-- The end of a session makes nothing due but the loss of the bay program's packet. -/
theorem Ended.firm {c d : Chip} (h : Ended c d) : Firm c d ∧ d.pilotWord = c.pilotWord ∧ d.monWord = c.monWord ∧
    d.bay.run = c.bay.run ∧ ∀ n, d.driveOn n = true → c.driveOn n = true := by
  obtain ⟨_, _, _, _, _, _, _, rfl⟩ := h
  exact ⟨⟨rfl, rfl, rfl, rfl, fun _ => id, fun _ => id, fun _ => id, id⟩, rfl, rfl, rfl, fun _ => id⟩

/-- A queue without an owner has none behind what settling ends. -/
theorem settle_ended_owner {d : Chip} (h : Ended s.chip d) (q : Nat) :
    ((Chip.settle s.chip d).fq q).owner = (d.fq q).owner := by
  obtain ⟨hf, hp, hm, hr, hd⟩ := h.firm
  rw [hf.settle_signal hp hm hr hd hs]
  obtain ⟨f, hq, he⟩ := holdsOver_queues s.chip (Chip.signalLost s.chip d)
  obtain ⟨b, hb⟩ := hq.1 q
  rw [he, show (({ Chip.signalLost s.chip d with ferry := f } : Chip).fq q) = _ from hb]
  exact signalLost_owner s.chip d q

theorem completes_keyLogout (ht : takes rowKeyLogout r s.chip) : completes (.keyLogout r) s (fun d => acked r 0 0 d ∧
      (d.master r.m.val).role = 0 ∧ (d.master r.m.val).account = 0xFF ∧
      (d.master r.m.val).sess = (s.chip.master r.m.val).sess + 1 ∧
      (∀ n ∈ landsOf r.m.val, d.land n = {}) ∧
      (∀ g, g < 12 → s.chip.cfgOwner g = some r.m.val → d.cfgOwner g = none) ∧
      (∀ q, q < 8 → (s.chip.fq q).owner = some r.m.val → (d.fq q).owner = none) ∧ d.cfg.live = s.chip.cfg.live) := by
  have hend := ended_endSession (argued r s.chip) r.m.val
  have hmaster := endSession_master (argued r s.chip) r.m.val r.m.val
  have hland := fun n => endSession_land (argued r s.chip) r.m.val (n := n)
  have howner := fun g => endSession_cfgOwner (argued r s.chip) r.m.val (g := g)
  have hqueue := fun q => endSession_owner (argued r s.chip) r.m.val (q := q)
  obtain ⟨_, _, _, _, hme⟩ := argued_master r s.chip r.m.val
  rw [if_pos rfl, hme] at hmaster
  have hfn : cmdKeyLogout r (argued r s.chip) = ((argued r s.chip).endSession r.m.val, {}) := rfl
  generalize Chip.endSession _ _ = z at hend hmaster hland howner hqueue hfn
  refine completes_acknowledged (x := rowKeyLogout) rfl ⟨fun _ _ => rfl, fun _ _ => rfl⟩ ht hfn
    (fun e hans hferry => ?_)
  have hargued : Ended s.chip (argued r s.chip) := ended_modMaster r.m.val _ s.chip
  have hz : Ended z e := by
    obtain ⟨h, he⟩ := hans.rest
    exact ⟨e.masters, z.lands, z.cfg.shadow, z.cfg.owner, z.evt, e.ferry, h, he⟩
  obtain ⟨x, hx⟩ := settle_master s.chip e r.m.val
  obtain ⟨b, hb⟩ := hans.mine
  rw [hmaster] at hb
  refine ⟨settle_acked _ _ hans.acked, ?_, ?_, ?_, fun n hn => ?_, fun g hg hown => ?_, fun q hq hown => ?_, ?_⟩
  · rw [hx, hb]
  · rw [hx, hb]
  · rw [hx, hb]
  · rw [settle_land, hans.same (fun d => d.land n)]
    exact hland n hn
  · rw [settle_cfgOwner, hans.same (fun d => d.cfgOwner g)]
    exact howner g hg hown
  · rw [settle_ended_owner hs ((hargued.trans hend).trans hz), Chip.fq, hferry]
    exact hqueue q hq hown
  · obtain ⟨p, hp⟩ := settle_cfg s.chip e
    rw [hp]
    exact (hans.same (fun d => d.cfg.live)).trans hend.live

/-! ### A fresh nonce -/

omit hs in
/-- A key command leaves its master's buffer empty. -/
theorem answered_keyBuf {m code : Nat} (h : code / 256 = 0x10) (a : Ans) (d : Chip) :
    (((d.keyBufClear m code).acknowledge m a).master m).keyBuf = [] := by
  have hb : ((d.keyBufClear m code).master m).keyBuf = [] := by
    unfold Chip.keyBufClear
    rw [if_pos h, modMaster_master, if_pos rfl]
  obtain ⟨_, hh⟩ := acknowledge_facts m a (d.keyBufClear m code)
  have hm := (modMaster_master (d.keyBufClear m code) m
    (fun y => { y with ticket := a.ticket, ack := true, lost := false, status := a.st }) m).trans (if_pos rfl)
  rw [hh]
  exact (congrArg Master.keyBuf hm).trans hb

/-- The block in which a master has a nonce that was just drawn. -/
def challenged (r : CmdReq) (c : Chip) : Chip :=
  (argued r c).draw128.2.modMaster r.m.val
    (fun x => { x with nonce := c.draw128.1, nonceOk := true, nonceSix := c.now })

theorem completes_keyChallenge (ht : takes rowKeyChallenge r s.chip) : completes (.keyChallenge r) s (fun d =>
    acked r 0 0 d ∧ (d.master r.m.val).nonce = s.chip.draw128.1 ∧ (d.master r.m.val).nonceOk = true ∧
    (d.master r.m.val).nonceSix = s.chip.now ∧ (d.master r.m.val).keyBuf = [] ∧
    keepsBut [.masters, .hint, .free] s.chip d) := by
  have hw := writeCode_takes (x := rowKeyChallenge) (d := challenged r s.chip) (a := {})
    ⟨fun _ _ => rfl, fun c r => notReader_argued r c⟩ ht rfl
  have hbuf := answered_keyBuf (m := r.m.val) (code := rowKeyChallenge.code) (by decide) {} (challenged r s.chip)
  have hme : (challenged r s.chip).master r.m.val = { (argued r s.chip).master r.m.val with
      nonce := s.chip.draw128.1, nonceOk := true, nonceSix := s.chip.now } := (modMaster_master ..).trans (if_pos rfl)
  obtain ⟨hq, hferry, hans⟩ := answered_acknowledge r rowKeyChallenge.code {} (challenged r s.chip)
  have h := hans (challenged r s.chip).ferry (fun q => ⟨((challenged r s.chip).fq q).stalled, rfl⟩)
  have hk : keepsBut [.masters, .hint, .free] s.chip (challenged r s.chip) :=
    keepsBut_trans (keepsBut_masters (by decide) _) (keepsBut_free (by decide) _)
  have hqc : Quiet s.chip (challenged r s.chip) :=
    ⟨rfl, rfl, rfl, rfl, rfl, rfl, rfl, fun _ => rfl, fun _ => rfl, fun _ => rfl, fun _ => rfl, rfl, fun _ => rfl, rfl⟩
  rw [← hferry] at h
  generalize Chip.acknowledge _ _ _ = e at hw hbuf hq hferry h
  obtain ⟨b, hb⟩ := h.mine
  refine completes_quiet (i := .keyChallenge r) (f := Chip.writeCode rowKeyChallenge r) rfl hw hs (hqc.trans hq)
    ⟨h.acked, ?_, ?_, ?_, hbuf, keepsBut_trans hk (h.keepsBut (by decide) (by decide) (.inr hferry))⟩
  · rw [hb, hme]
  · rw [hb, hme]
  · rw [hb, hme]

/-! ### Accounts -/

/-- The account that a request describes. -/
def accountSet (r : CmdReq) (x : Account) : Account :=
  { x with en := r.a1.getLsbD 31, role := BitVec.ofNat 3 (fld r.a1 28 3), method := BitVec.ofNat 2 (fld r.a1 26 2),
           slot := BitVec.ofNat 6 (fld r.a1 20 6) }

/-- The sessions of an account that end with its change. -/
def acctSessions (r : CmdReq) (x : Account) : Chip → Chip :=
  each [0, 1, 2, 3, 4] (fun n c =>
    if (c.master n).role != 0 && (c.master n).account.toNat == fld r.a0 0 4 && (!r.a1.getLsbD 31 ||
      ((x.slot != (accountSet r x).slot || x.method != (accountSet r x).method) && n != r.m.val)) then c.endSession n
    else c)

omit hs in
/-- An account that passes its checks is written, and sessions of it may end. -/
theorem cmdKeyAcctSet_fits {c : Chip} (hrole : fld r.a1 28 3 ≤ 4) (h0 : fld r.a1 28 3 ≠ 0) (hmeth : fld r.a1 26 2 = 1)
    (hi : 2 ≤ fld r.a1 20 6) (hu : c.slotUsable (fld r.a1 20 6) = true) (hcls : c.slotCls (fld r.a1 20 6) = 7)
    (htyp : (c.kslot (fld r.a1 20 6)).half.typ = 3) : ∃ d, cmdKeyAcctSet r c = (d, {}) ∧
      Ended (c.modAcct (fld r.a0 0 4) (fun _ => accountSet r (c.acct (fld r.a0 0 4)))) d := by
  have hst : (c.slotState (fld r.a1 20 6) == 2) = false := by
    unfold Chip.slotState
    rw [hu, Bool.or_true]
    split <;> rfl
  have hbad : (fld r.a1 28 3 == 0 || decide (4 < fld r.a1 28 3) || fld r.a1 26 2 == 3 || decide (fld r.a1 20 6 < 2)) = false := by
    simp [hmeth]
    omega
  have hfit : ¬ (r.a1.getLsbD 31 && !((c.slotUsable (fld r.a1 20 6) && c.slotCls (fld r.a1 20 6) == 7 &&
      (c.kslot (fld r.a1 20 6)).half.typ == [6, 3, 5].getD (fld r.a1 26 2) 0) ||
      (fld r.a1 26 2 == 0 && (c.kslot (fld r.a1 20 6)).empty))) = true := by
    simp [hmeth, hu, hcls, htyp]
  exact ⟨acctSessions r (c.acct (fld r.a0 0 4)) (c.modAcct (fld r.a0 0 4) (fun _ => accountSet r (c.acct (fld r.a0 0 4)))),
    (if_neg (by rw [hbad, Bool.and_false]; decide)).trans ((if_neg (by rw [hst, Bool.and_false]; decide)).trans
    (if_neg hfit)), ended_each (fun n c => ended_ite (ended_endSession c n) (Ended.refl c)) _ _⟩

omit hs in
theorem completes_keyAcctSet {a i : Nat} (ha : r.a0.toNat % 16 = a) (hi : r.a1.toNat / 2 ^ 20 % 64 = i)
    (ht : takes rowKeyAcctSet r s.chip) (hrole : (r.a1.extractLsb' 28 3).toNat ≤ 4) (h0 : r.a1.extractLsb' 28 3 ≠ 0)
    (hmeth : r.a1.extractLsb' 26 2 = 1) (hi2 : 2 ≤ i) (hu : s.chip.slotUsable i = true) (hcls : s.chip.slotCls i = 7)
    (htyp : (s.chip.kslot i).half.typ = 3) : completes (.keyAcctSet r) s (fun d => acked r 0 0 d ∧
      d.acct a = { s.chip.acct a with en := r.a1.getLsbD 31, role := r.a1.extractLsb' 28 3,
                                      method := r.a1.extractLsb' 26 2, slot := BitVec.ofNat 6 i } ∧
      (∀ j, j ≠ a → d.acct j = s.chip.acct j)) := by
  rw [← show fld r.a0 0 4 = r.a0.toNat % 16 from fld_low _ _] at ha
  have hi : fld r.a1 20 6 = i := (congrArg (· % 2 ^ 6) (Nat.shiftRight_eq_div_pow _ _)).trans hi
  subst ha hi
  have he : ∀ n k, fld r.a1 k n = (r.a1.extractLsb' k n).toNat := fun n k => by
    simp [fld, BitVec.extractLsb'_toNat]
  obtain ⟨d, hfn, hd⟩ := cmdKeyAcctSet_fits (r := r) (c := argued r s.chip) (by rw [he]; exact hrole)
    (by rw [he]; exact fun h => h0 (BitVec.eq_of_toNat_eq h)) (by rw [he, hmeth]; rfl) hi2 hu hcls htyp
  refine completes_acknowledged (x := rowKeyAcctSet) rfl ⟨fun _ _ => rfl, fun c r => mayAcctSet_argued r c⟩ ht hfn
    (fun e hans _ => ⟨settle_acked _ _ hans.acked, ?_, fun j hj => ?_⟩)
  · rw [settle_acct, hans.same (fun d => d.acct _), Chip.acct, hd.key, ← Chip.acct, modAcct_acct, if_pos rfl]
    unfold accountSet
    rw [fld_extract, fld_extract]
    rfl
  · rw [settle_acct, hans.same (fun d => d.acct _), Chip.acct, hd.key, ← Chip.acct, modAcct_acct, if_neg hj]
    rfl

end

/-- Settles O34: the commands of the sessions. -/
theorem sessionCommands : Obligations.SessionCommands := by
  unfold Obligations.SessionCommands
  intro r s hs
  exact ⟨completes_keyChallenge hs, completes_keyLogin_hmac rfl, completes_keyLogin_disabled rfl, completes_keyLogout hs,
    completes_keyLogin_password hs rfl, fun ht hfull _ => completes_keyPasswd hs rfl ht hfull,
    fun ht _ _ _ _ hrole h0 hmeth hi hu hcls htyp => completes_keyAcctSet rfl rfl ht hrole h0 hmeth hi hu hcls htyp⟩

end Sys2Proof.Machine
end

section
/-! What the commit of a gate leaves of the block (R78, R161, R184). -/

namespace Sys2Proof.Machine

open Sys2Proof Sys2Proof.Claims

/-- The blocks that the commit of a gate may change, but for the notes of the update unit. -/
def commitBlocks : List Block := [.engs, .bill, .evt, .ferry, .hint, .tamper, .ledger, .bay]

theorem commit_noted {c d : Chip} (h : Noted c d) : keepsBut commitBlocks c d := h.keepsBut (by decide)

theorem commit_recorded {c d : Chip} (h : Recorded c d) : keepsBut commitBlocks c d := h.keepsBut (by decide)

theorem commit_modBill (g : Bill → Bill) (c : Chip) : keepsBut commitBlocks c (c.modBill g) := keepsBut_bill (by decide) _

theorem commit_modEng (k : Nat) (g : Engine → Engine) (c : Chip) : keepsBut commitBlocks c (c.modEng k g) :=
  keepsBut_engs (by decide) _

theorem commit_raise (code : W16) (unit : Nat) (a b : W32) (c : Chip) : keepsBut commitBlocks c (c.raise code unit a b) :=
  commit_noted (noted_raise code unit a b c)

theorem commit_bounds (k start : Nat) (c : Chip) : keepsBut commitBlocks c (c.bounds k start) :=
  keepsBut_each (f := fun (x : Nat × Bool) c => if x.2 then c.zeroTake (some k) x.1 else c.snapTake k x.1)
    (fun _ _ => keepsBut_ite (commit_modBill _ _) (commit_modBill _ _)) _ _

theorem commit_lpTake (k start : Nat) (c : Chip) : keepsBut commitBlocks c (c.lpTake k start) := by
  refine keepsBut_ite (keepsBut_refl _ _) (keepsBut_each (fun ch c => ?_) _ _)
  cases c.lpDue ch with
  | none => exact keepsBut_refl _ _
  | some p => exact keepsBut_when (commit_modBill _ _)

theorem commit_binSession (b : Bin) (cost : Option Int) (c : Chip) : keepsBut commitBlocks c (c.binSession b cost) :=
  keepsBut_ite (keepsBut_refl _ _) (commit_modBill _ _)

theorem commit_binDemand (start : Nat) (b : Bin) (c : Chip) : keepsBut commitBlocks c (c.binDemand start b) :=
  keepsBut_ite (commit_modBill _ _) (keepsBut_ite (commit_modBill _ _) (commit_modBill _ _))

theorem commit_commitBin (start : Nat) (b : Bin) (c : Chip) : keepsBut commitBlocks c (c.commitBin start b) :=
  keepsBut_ite (commit_modBill _ _)
    (keepsBut_trans (keepsBut_trans (commit_modBill _ _) (commit_binSession _ _ _)) (commit_binDemand _ _ _))

theorem commit_slotEvts (code : W16) (k : Nat) (l : List Bin) (c : Chip) : keepsBut commitBlocks c (c.slotEvts code k l) :=
  keepsBut_each (fun _ _ => commit_raise _ _ _ _ _) _ _

theorem commit_spillFeed (k m s : Nat) (v : Int) (c : Chip) : keepsBut commitBlocks c (c.spillFeed k m s v) :=
  keepsBut_trans (keepsBut_trans (commit_modBill _ _) (keepsBut_when (commit_raise _ _ _ _ _)))
    (keepsBut_each (fun _ _ => commit_raise _ _ _ _ _) _ _)

theorem commit_commitSpills (k : Nat) (seg : Seg) (c : Chip) : keepsBut commitBlocks c (c.commitSpills k seg) :=
  keepsBut_each (fun _ _ => commit_spillFeed _ _ _ _ _) _ _

theorem commit_targetCheck (m : Nat) (c : Chip) : keepsBut commitBlocks c (c.targetCheck m) :=
  keepsBut_ite (keepsBut_refl _ _)
    (keepsBut_ite (keepsBut_trans (commit_modBill _ _) (keepsBut_bay (by decide) _)) (keepsBut_refl _ _))

theorem commit_commitSeg (k gate : Nat) (seg : Seg) (c : Chip) : keepsBut commitBlocks c (c.commitSeg k gate seg) := by
  unfold Chip.commitSeg
  dsimp only
  refine keepsBut_trans ?_ (keepsBut_each (fun p c => commit_noted (noted_fqPut 1 p c)) _ _)
  refine keepsBut_trans ?_ (keepsBut_each (fun _ c => commit_noted (noted_raiseAt _ _ _ _ _ c)) _ _)
  refine keepsBut_trans ?_ (keepsBut_each (fun m c => commit_targetCheck m c) _ _)
  refine keepsBut_trans ?_ (commit_commitSpills _ _ _)
  refine keepsBut_trans (keepsBut_trans ?_ (commit_slotEvts _ _ _ _)) (commit_slotEvts _ _ _ _)
  refine keepsBut_trans ?_ (keepsBut_each (fun b c => commit_commitBin _ b c) _ _)
  exact keepsBut_trans (keepsBut_trans (commit_bounds k _ c) (commit_lpTake k _ _)) (commit_modBill _ _)

theorem commit_tracePkt (k : Nat) (seg : Seg) (c : Chip) : keepsBut commitBlocks c (c.tracePkt k seg) :=
  keepsBut_ite (keepsBut_each (fun _ c => commit_noted (noted_fqPut 7 _ c)) _ _) (keepsBut_refl _ _)

theorem commit_revWatch (e : CtxEv) (c : Chip) : keepsBut commitBlocks c (c.revWatch e) := by
  unfold Chip.revWatch
  split
  · exact keepsBut_ite (commit_recorded (recorded_tamperInst _ _ _ _ _ _)) (keepsBut_refl _ _)
  · exact keepsBut_refl _ _

theorem commit_postNow (six : Nat) (c : Chip) : keepsBut commitBlocks c (c.postNow six) := by
  unfold Chip.postNow
  split
  · exact keepsBut_refl _ _
  · exact keepsBut_trans (keepsBut_ledger (by decide) _) (keepsBut_each (fun _ c => commit_recorded (recorded_stage _ _ _ _ c)) _ _)

/-- `d` differs from `c` in the blocks of a commit and in the update unit's notes of commits at most. -/
def Gated (c d : Chip) : Prop := ∃ g f, keepsBut commitBlocks (c.modUpd (fun u => { u with gated := g, fwRecPend := f })) d

theorem Gated.of_keeps {c d : Chip} (h : keepsBut commitBlocks c d) : Gated c d := ⟨c.upd.gated, c.upd.fwRecPend, h⟩

theorem Gated.trans {a b c : Chip} (h : Gated a b) (h' : Gated b c) : Gated a c := by
  obtain ⟨g, f, h⟩ := h
  obtain ⟨g', f', h'⟩ := h'
  refine ⟨g', f', fun x hx => ?_⟩
  by_cases hu : x = .upd
  · subst hu
    have h1 : b.upd = _ := h .upd hx
    have h2 : c.upd = _ := h' .upd hx
    show c.upd = _
    rw [h2]
    show ({ b.upd with gated := g', fwRecPend := f' } : Upd) = _
    rw [h1]
    rfl
  · have hm : ∀ (y : Chip) (g : BitVec 8) (f : Bool), x.same y (y.modUpd (fun u => { u with gated := g, fwRecPend := f })) :=
      fun y g f => keepsBut_upd (bs := [.upd]) (by decide) _ x (fun h => hu (List.mem_singleton.mp h))
    have hback : x.same (a.modUpd (fun u => { u with gated := g', fwRecPend := f' })) a :=
      keepsBut_upd (bs := [.upd]) (c := a.modUpd _) (by decide) a.upd x (fun h => hu (List.mem_singleton.mp h))
    exact Block.same_trans (Block.same_trans (Block.same_trans hback (hm a g f)) (h x hx))
      (Block.same_trans (hm b g' f') (h' x hx))

theorem gated_firstGate (k six : Nat) (c : Chip) : Gated c (c.firstGate k six) := by
  have hp : keepsBut commitBlocks c (if c.running.contains k then c.postNow six else c) :=
    keepsBut_ite (commit_postNow six c) (keepsBut_refl _ _)
  unfold Chip.firstGate
  dsimp only
  generalize (if c.running.contains k then c.postNow six else c) = d at hp
  split
  · exact (Gated.of_keeps hp).trans ⟨d.upd.gated, false, commit_recorded (recorded_stage _ _ _ _ _)⟩
  · exact .of_keeps hp

theorem gated_commitGate (k : Nat) (forced : Bool) (c : Chip) : Gated c (c.commitGate k forced) := by
  unfold Chip.commitGate
  split
  · exact .of_keeps (keepsBut_refl _ _)
  · dsimp only
    refine Gated.trans (.trans (.of_keeps ?_) ⟨_, _, keepsBut_refl _ _⟩) (gated_firstGate _ _ _)
    refine keepsBut_trans (keepsBut_trans ?_ (commit_commitSeg _ _ _ _)) (commit_tracePkt _ _ _)
    refine keepsBut_trans ?_ (keepsBut_each (fun e c => commit_revWatch e c) _ _)
    exact keepsBut_trans (commit_modEng _ _ _) (keepsBut_each (fun _ _ => commit_modBill _ _) _ _)

theorem gated_gateCommit (k : Nat) (c : Chip) : Gated c (c.gateCommit k) := by
  unfold Chip.gateCommit
  split
  · exact .of_keeps (keepsBut_refl _ _)
  · split
    · exact gated_commitGate _ _ _
    · exact .of_keeps (keepsBut_refl _ _)

theorem gated_commitAllowed (k : Nat) : ∀ (n : Nat) (c : Chip), Gated c (c.commitAllowed k n)
  | 0, c => .of_keeps (keepsBut_refl _ c)
  | n + 1, c => (gated_gateCommit k c).trans (gated_commitAllowed k n _)

end Sys2Proof.Machine
end

section
/-! The stop of a changeover (R362 steps 1 to 3): what it leaves of the update unit and of SV's readiness. -/

namespace Sys2Proof.Machine

open Sys2Proof Sys2Proof.Claims

/-- The update unit but for what stops and resets of SV write of it. -/
def Upd.course (u : Upd) : Upd :=
  { u with stagings := [], healthOk := false, handover := [], coStep := 0, gated := 0, fwRecPend := false }

/-- The images and the changeover are the same, and SV that is not ready has not become so. -/
structure Course (c d : Chip) : Prop where
  upd : d.upd.course = c.upd.course
  changing : d.sys.changeover = c.sys.changeover
  cause : d.sys.cause = c.sys.cause
  rdy : c.rdy rSV = false → d.rdy rSV = false

theorem Course.refl (c : Chip) : Course c c := ⟨rfl, rfl, rfl, id⟩

theorem Course.trans {a b c : Chip} (h : Course a b) (h' : Course b c) : Course a c :=
  ⟨h'.upd.trans h.upd, h'.changing.trans h.changing, h'.cause.trans h.cause, h'.rdy ∘ h.rdy⟩

theorem course_ite {p : Prop} [Decidable p] {c d e : Chip} (hd : Course c d) (he : Course c e) :
    Course c (if p then d else e) := by
  split
  · exact hd
  · exact he

theorem course_when {b : Bool} {f : Chip → Chip} {c : Chip} (h : Course c (f c)) : Course c (c.when b f) := by
  cases b
  · exact Course.refl c
  · exact h

theorem course_each {α : Type} {f : α → Chip → Chip} (h : ∀ a c, Course c (f a c)) :
    ∀ (l : List α) (c : Chip), Course c (each l f c)
  | [], c => Course.refl c
  | a :: t, c => (h a c).trans (course_each h t (f a c))

/-- What changes neither the update unit nor SY changes nothing of the course. -/
theorem course_keeps {bs : List Block} {c d : Chip} (hu : Block.upd ∉ bs) (hs : Block.sys ∉ bs) (h : keepsBut bs c d) :
    Course c d := by
  have hu : d.upd = c.upd := h .upd hu
  have hs : { d.sys with hintStatus := 0 } = { c.sys with hintStatus := 0 } := h .sys hs
  refine ⟨congrArg Upd.course hu, congrArg (fun s => s.changeover) hs, congrArg (fun s => s.cause) hs, fun hr => ?_⟩
  have hready : d.sys.ready = c.sys.ready := congrArg (fun s => s.ready) hs
  unfold Chip.rdy at hr ⊢
  rw [hready]
  exact hr

theorem Gated.course {c d : Chip} (h : Gated c d) : Course c d := by
  obtain ⟨g, f, h⟩ := h
  exact Course.trans (b := c.modUpd _) ⟨rfl, rfl, rfl, id⟩ (course_keeps (by decide) (by decide) h)

theorem Noted.course {c d : Chip} (h : Noted c d) : Course c d := course_keeps (by decide) (by decide) (commit_noted h)

theorem Recorded.course {c d : Chip} (h : Recorded c d) : Course c d :=
  course_keeps (by decide) (by decide) (commit_recorded h)

theorem Ended.course {c d : Chip} (h : Ended c d) : Course c d := by
  obtain ⟨ma, la, sh, ow, h⟩ := h
  exact Course.trans (b := c.ended ma la sh ow) ⟨rfl, rfl, rfl, id⟩ h.course

theorem course_complete (t : W16) (st : W8) (res : W32) (c : Chip) : Course c (c.complete t st res) :=
  course_keeps (bs := [.tix, .masters, .evt, .ferry, .hint]) (by decide) (by decide) (keepsBut_complete (by decide) t st res c)

/-- A function that is not ready stays so when another is taken away. -/
theorem setRdy_false_rdy (i : Nat) (c : Chip) (j : Nat) (hj : j < 20) :
    (c.setRdy i false).rdy j = (c.rdy j && decide (j ≠ i)) := by
  show (c.sys.ready &&& ~~~ BitVec.ofNat 20 (2 ^ i)).getLsbD j = _
  rw [BitVec.getLsbD_and, BitVec.getLsbD_not, BitVec.getLsbD_ofNat, Nat.testBit_two_pow]
  simp [Chip.rdy, hj, eq_comm]

theorem course_setRdy (i : Nat) (c : Chip) : Course c (c.setRdy i false) :=
  ⟨rfl, rfl, rfl, fun h => by rw [setRdy_false_rdy i c _ (by decide), h]; rfl⟩

/-! ### Stops -/

theorem course_modUpd {c d : Chip} {g : Upd → Upd} (h : Course c d) (hg : (g d.upd).course = d.upd.course) :
    Course c (d.modUpd g) := h.trans ⟨hg, rfl, rfl, id⟩

theorem course_modTime (g : Time → Time) (c : Chip) : Course c (c.modTime g) := ⟨rfl, rfl, rfl, id⟩

theorem course_modDrive (n : Nat) (g : Drive → Drive) (c : Chip) : Course c (c.modDrive n g) := ⟨rfl, rfl, rfl, id⟩

theorem course_modPair (g : Pair → Pair) (c : Chip) : Course c (c.modPair g) := ⟨rfl, rfl, rfl, id⟩

theorem course_modBay (g : Bay → Bay) (c : Chip) : Course c (c.modBay g) := ⟨rfl, rfl, rfl, id⟩

theorem course_modLink (g : Link → Link) (c : Chip) : Course c (c.modLink g) := ⟨rfl, rfl, rfl, id⟩

theorem course_modDrv (g : Drives → Drives) (c : Chip) : Course c (c.modDrv g) := ⟨rfl, rfl, rfl, id⟩

theorem course_modBill (g : Bill → Bill) (c : Chip) : Course c (c.modBill g) := ⟨rfl, rfl, rfl, id⟩

theorem course_modTix (g : Tickets → Tickets) (c : Chip) : Course c (c.modTix g) := ⟨rfl, rfl, rfl, id⟩

theorem course_modNet (g : Net → Net) (c : Chip) : Course c (c.modNet g) := ⟨rfl, rfl, rfl, id⟩

theorem course_modDisp (g : Disp → Disp) (c : Chip) : Course c (c.modDisp g) := ⟨rfl, rfl, rfl, id⟩

theorem course_modFq (q : Nat) (g : Ferry → Ferry) (c : Chip) : Course c (c.modFq q g) := ⟨rfl, rfl, rfl, id⟩

theorem course_modMaster (m : Nat) (g : Master → Master) (c : Chip) : Course c (c.modMaster m g) := ⟨rfl, rfl, rfl, id⟩

theorem course_setDead (mask : Nat) (b : Bool) (c : Chip) : Course c (c.setDead mask b) := ⟨rfl, rfl, rfl, id⟩

theorem course_modEng (k : Nat) (g : Engine → Engine) (c : Chip) : Course c (c.modEng k g) := ⟨rfl, rfl, rfl, id⟩

theorem course_modGroup (k : Nat) (g : TapGroup → TapGroup) (c : Chip) : Course c (c.modGroup k g) := ⟨rfl, rfl, rfl, id⟩

theorem course_engineStop (k : Nat) (c : Chip) : Course c (c.engineStop k) := by
  unfold Chip.engineStop
  dsimp only
  refine course_ite (Course.refl c) ?_
  refine course_modUpd ?_ ?_
  · exact (((gated_commitAllowed k _ c).course.trans (course_modEng k _ _)).trans (course_modGroup k _ _)).trans
      (course_setRdy (rQE k) _)
  · rfl

theorem course_closeConn (m : Nat) (c : Chip) : Course c (c.closeConn m) :=
  course_ite (Course.refl c) ((ended_endSession c m).trans (ended_modMaster m _ _)).course

theorem course_slewEnd (c : Chip) : Course c c.slewEnd :=
  course_ite (Course.refl c) ((course_modTime _ c).trans
    (course_keeps (bs := [.engs, .save, .tariff, .evt, .ferry, .hint]) (by decide) (by decide)
      ((handed_replace _).keepsBut (by decide))))

theorem course_svFields (c : Chip) : Course c c.svFields := by
  have h : Course c (c.modSys (fun s => { s with hintStatus := 0, hintEn := 0, deniedAddr := 0 })) := ⟨rfl, rfl, rfl, id⟩
  unfold Chip.svFields
  refine course_modUpd ?_ ?_
  · exact (h.trans (course_slewEnd _)).trans (course_modTime _ _)
  · rfl

theorem course_dropStagings (c : Chip) : Course c c.dropStagings := by
  unfold Chip.dropStagings
  refine course_modUpd ?_ ?_
  · exact course_each (fun _ _ => course_complete _ _ _ _) _ _
  · rfl

theorem course_linkRestart (c : Chip) : Course c c.linkRestart :=
  (course_modLink _ c).trans (course_each (fun _ _ => course_complete _ _ _ _) _ _)

theorem course_drvEvt (code : W16) (n : Nat) (c : Chip) : Course c (c.drvEvt code n) :=
  (noted_raise _ _ _ _ _).course.trans (course_when (course_modBay _ _))

theorem course_drvFail (n : Nat) (c : Chip) : Course c (c.drvFail n) :=
  course_ite ((course_modDrive n _ c).trans (course_drvEvt _ _ _)) (course_modDrive n _ c)

theorem course_controllerLost (b : Bool) (c : Chip) : Course c (c.controllerLost b) :=
  (course_modDrv _ c).trans (course_ite (course_each (fun n c => course_drvFail n c) _ _)
    (course_each (fun n c => course_modDrive n _ c) _ _))

theorem course_pairPlanned (c : Chip) : Course c c.pairPlanned := by
  unfold Chip.pairPlanned
  exact (course_when (b := c.pair.deviating) (f := fun c => c.tamperEnd 24 0xFF c.now)
    (recorded_tamperEnd 24 0xFF c.now c).course).trans (course_modPair _ _)

theorem course_bayPause (c : Chip) : Course c c.bayPause := course_ite (course_modBay _ c) (Course.refl c)

theorem course_clearBank (m : Nat) (c : Chip) : Course c (c.clearBank m) := course_modMaster m _ c

theorem course_dropQuality (c : Chip) : Course c c.dropQuality := course_modBill _ c

theorem course_ptpRestart (c : Chip) : Course c c.ptpRestart := course_modTime _ c

/-- The masters' connections that SV's reset closes. -/
theorem course_banks (c : Chip) : Course c (each [1, 2, 3, 4] (fun m c => (c.closeConn m).clearBank m) c) :=
  course_each (fun m c => (course_closeConn m c).trans (course_clearBank m _)) _ c

/-- SV's reset for a changeover: the masters' banks and the tickets, then stagings, links and readiness. -/
def Chip.svEmptied (c : Chip) : Chip :=
  (((each [1, 2, 3, 4] (fun m c => (c.closeConn m).clearBank m) c).clearBank 0).svFields).modTix
    (fun t => { t with base := t.next })

def Chip.svStopped (c : Chip) : Chip :=
  let c := ((((c.svEmptied.dropStagings.dropQuality).linkRestart).setRdy rSV false).setRdy rLINK false).setRdy rNET false
  ((c.modNet (fun n => { n with nxUp := false })).setDead svIslands true).ptpRestart

/-- The ferry queues, the display, the drives and the pair behind the count of resets. -/
def Chip.queuesParity (c : Chip) : Chip :=
  each (List.range 8) (fun q c => c.modFq q (fun f =>
    { f with parity := true, leaving := false, testing := f.testing && true })) c

def Chip.svLeft (c : Chip) : Chip :=
  (((c.bayPause.queuesParity).modDisp (fun d => { d with page := 0, alt := false, hold := false, test := 0 })).controllerLost
    true).pairPlanned

theorem svDown_eq {cause : Nat} (hk : (cause == 5 || cause == 6) = true) (c : Chip) :
    c.svDown cause = ((c.svStopped.countReset cause).svLeft).raise 0x000B 0xFF (w32 cause) 0 := by
  unfold Chip.svDown Chip.svLeft Chip.svStopped Chip.svEmptied Chip.queuesParity
  simp only [hk, if_true]

theorem course_svEmptied (c : Chip) : Course c c.svEmptied :=
  (((course_banks c).trans (course_clearBank 0 _)).trans (course_svFields _)).trans (course_modTix _ _)

theorem course_svStopped (c : Chip) : Course c c.svStopped ∧ c.svStopped.rdy rSV = false := by
  have h := (((course_svEmptied c).trans (course_dropStagings _)).trans (course_dropQuality _)).trans (course_linkRestart _)
  generalize hd : c.svEmptied.dropStagings.dropQuality.linkRestart = d at h
  have he : c.svStopped = ((((((d.setRdy rSV false).setRdy rLINK false).setRdy rNET false).modNet
      (fun n => { n with nxUp := false })).setDead svIslands true).ptpRestart) := by
    rw [← hd]
    rfl
  have ht : Course (d.setRdy rSV false) c.svStopped := by
    rw [he]
    exact ((((course_setRdy rLINK _).trans (course_setRdy rNET _)).trans (course_modNet _ _)).trans
      (course_setDead _ _ _)).trans (course_ptpRestart _)
  exact ⟨(h.trans (course_setRdy rSV d)).trans ht, ht.rdy (by rw [setRdy_false_rdy rSV d _ (by decide)]; simp)⟩

theorem course_queuesParity (c : Chip) : Course c c.queuesParity := course_each (fun q c => course_modFq q _ c) _ c

theorem course_svLeft (c : Chip) : Course c c.svLeft :=
  ((((course_bayPause c).trans (course_queuesParity _)).trans (course_modDisp _ _)).trans
    (course_controllerLost _ _)).trans (course_pairPlanned _)

/-- SV's reset for a changeover has its cause, and SV is not ready behind it. -/
theorem svDown_changeover {cause : Nat} (hk : (cause == 5 || cause == 6) = true) (c : Chip) :
    (c.svDown cause).upd.course = c.upd.course ∧ (c.svDown cause).sys.changeover = c.sys.changeover ∧
      (c.svDown cause).sys.cause = BitVec.ofNat 8 cause ∧ (c.svDown cause).rdy rSV = false := by
  obtain ⟨h, hr⟩ := course_svStopped c
  have ha := (course_svLeft (c.svStopped.countReset cause)).trans
    (noted_raise 0x000B 0xFF (w32 cause) 0 (c.svStopped.countReset cause).svLeft).course
  rw [← svDown_eq hk] at ha
  generalize c.svStopped = d at h hr ha
  generalize c.svDown cause = e at ha
  exact ⟨ha.upd.trans h.upd, ha.changing.trans h.changing, ha.cause, ha.rdy hr⟩

/-- What precedes SV's reset in a changeover. -/
def Chip.changeoverBegun (c : Chip) : Chip :=
  each engs8 (fun k c => c.engineStop k) ((((c.modSys (fun s => { s with changeover := true })).modPair
    (fun p => { p with excl := true })).modDrv (fun d => { d with holdExt := true })).bayPause)

theorem course_changeoverBegun (c : Chip) : Course (c.modSys (fun s => { s with changeover := true })) c.changeoverBegun :=
  (((course_modPair _ _).trans (course_modDrv _ _)).trans (course_bayPause _)).trans
    (course_each (fun k c => course_engineStop k c) _ _)

/-- A changeover stops with its cause; the images are as they were and SV is not ready. -/
theorem changeoverStop_facts {cause : Nat} (hk : (cause == 5 || cause == 6) = true) (c : Chip) :
    (c.changeoverStop cause).upd.course = c.upd.course ∧ (c.changeoverStop cause).sys.changeover = true ∧
      (c.changeoverStop cause).sys.cause = BitVec.ofNat 8 cause ∧ (c.changeoverStop cause).rdy rSV = false := by
  have hb := course_changeoverBegun c
  obtain ⟨hu, hc, hs, hr⟩ := svDown_changeover hk c.changeoverBegun
  have he : c.changeoverStop cause =
      (c.changeoverBegun.svDown cause).modUpd (fun u => { u with coStep := 3, healthOk := false }) := rfl
  rw [he]
  generalize c.changeoverBegun.svDown cause = d at hu hc hs hr
  generalize c.changeoverBegun = b at hb hu hc
  exact ⟨hu.trans hb.upd, hc.trans hb.changing, hs, hr⟩

end Sys2Proof.Machine
end

section
/-! The commands of firmware and the pair (R357, R362, R367, R390). -/

namespace Sys2Proof.Machine

open Sys2Proof Sys2Proof.Claims

/-! ### Stagings -/

theorem stageLimits_pos {kind len : Nat} (h : stageLimits kind len = true) : len ≠ 0 := by
  rintro rfl
  unfold stageLimits at h
  split at h <;> exact absurd h (by decide)

/-- The first entry that a predicate finds is the changed one, where the change is of what it finds. -/
theorem find?_mapIf {α : Type} {p q : α → Bool} {x y : α} (hq : ∀ z, q z = true → p z = true) (hx : q x = true)
    (hy : p y = true) : ∀ l : List α, l.find? p = some x → (mapIf q (fun _ => y) l).find? p = some y
  | [], h => absurd h (by simp)
  | z :: t, h => by
    rw [List.find?_cons] at h
    have hm : mapIf q (fun _ => y) (z :: t) = (if q z then y else z) :: mapIf q (fun _ => y) t := rfl
    rw [hm, List.find?_cons]
    cases hz : q z with
    | true => simp [hy]
    | false =>
      cases hp : p z with
      | true =>
        rw [hp] at h
        rw [Option.some.inj h] at hz
        rw [hz] at hx
        cases hx
      | false =>
        rw [hp] at h
        simpa [hp] using find?_mapIf hq hx hy t h

theorem staging_ticket {c : Chip} {t : Nat} {x : Staging} (h : c.staging t = some x) : x.ticket.toNat = t :=
  beq_iff_eq.mp (List.find?_some (p := fun s : Staging => s.ticket.toNat == t) h)

theorem modFw_slot (b j : Bool) (g : FwSlot → FwSlot) (c : Chip) :
    (c.modFw b g).upd.slot j = if j = b then g (c.upd.slot b) else c.upd.slot j := by
  cases b <;> cases j <;> rfl

/-- The inactive slot is the one that holds the staged image. -/
theorem stagedSlot_other {c : Chip} (h : (c.upd.slot c.otherSlot).st = 1) : c.stagedSlot = c.otherSlot :=
  if_neg (by simp [h])

/-- The slots and the running image of an update unit. -/
def Upd.images (u : Upd) : FwSlot × FwSlot × BitVec 2 := (u.slotA, u.slotB, u.runSlot)

theorem images_slot {u v : Upd} (h : u.images = v.images) (b : Bool) : u.slot b = v.slot b := by
  simp only [Upd.images, Prod.mk.injEq] at h
  obtain ⟨ha, hb, -⟩ := h
  unfold Upd.slot
  rw [ha, hb]

theorem complete_upd (t : W16) (st : W8) (res : W32) (c : Chip) : (c.complete t st res).upd = c.upd :=
  keepsBut_complete (bs := [.masters, .tix, .evt, .ferry, .hint]) (by decide) t st res c .upd (by decide)

theorem openPlatform_slot (c : Chip) (b : Bool) :
    c.openPlatform.upd.slot b = if b = c.otherSlot then {} else c.upd.slot b := by
  have h : ∀ l : List Staging, (each l (fun s c => (c.dropStaging s.ticket).complete s.ticket stABORTED 0) c).upd.images =
      c.upd.images := fun l => each_keeps (fun c => c.upd.images) _ (fun s c => by rw [complete_upd]; rfl) l c
  unfold Chip.openPlatform
  dsimp only
  rw [modFw_slot]
  have ho : ∀ l : List Staging, Chip.otherSlot (each l (fun s c => (c.dropStaging s.ticket).complete s.ticket stABORTED 0) c) =
      c.otherSlot := fun l => by
    unfold Chip.otherSlot
    rw [show (each l _ c).upd.runSlot = c.upd.runSlot from congrArg (fun p => p.2.2) (h l)]
  rw [ho, images_slot (h _) b]

theorem keepsBut_openPlatform (c : Chip) : keepsBut [.masters, .tix, .evt, .ferry, .hint, .upd] c c.openPlatform := by
  unfold Chip.openPlatform
  refine keepsBut_trans (keepsBut_each (fun s c => ?_) _ _) (keepsBut_upd (by decide) _)
  exact keepsBut_trans (keepsBut_upd (by decide) _) (keepsBut_complete (by decide) _ _ _ _)

section
variable {r : CmdReq} {s : State} (hs : Settled s)
include hs

theorem completes_updStage {kind : Nat} (hk : r.a0.toNat % 16 = kind) (ht : takes rowUpdStage r s.chip)
    (hfull : s.chip.tixFull = false) (hl : stageLimits kind r.a1.toNat = true) (h1 : kind ≠ 1) (hd : s.chip.dramUsed < 4) :
    completes (.updStage r) s (fun d => pends r 0x1101 kind s.chip d ∧
      d.upd = { s.chip.upd with stagings := s.chip.upd.stagings ++
        [{ ticket := s.chip.tix.next, master := r.m.val, kind := kind, len := r.a1.toNat, at_ := s.chip.now }] } ∧
      keepsBut [.masters, .hint, .tix, .upd] s.chip d) := by
  rw [← show fld r.a0 0 4 = r.a0.toNat % 16 from fld_low _ _] at hk
  subst hk
  have hfn : cmdUpdStage r (argued r s.chip) = ((issued r 0x1101 (fld r.a0 0 4) s.chip).modUpd (fun u => { u with
      stagings := u.stagings ++ [{ ticket := s.chip.tix.next, master := r.m.val, kind := fld r.a0 0 4, len := r.a1.toNat,
                                   at_ := s.chip.now }] }), { st := stPENDING, ticket := s.chip.tix.next }) := by
    refine (if_neg (stageLimits_pos hl)).trans ((if_neg (by rw [hl]; decide)).trans
      ((if_neg (fun h => absurd h.2 (Nat.not_le.mpr hd))).trans ((if_neg (fun h => h1 h.1)).trans ?_)))
    rw [long_issued _ _ _ _ hfull, if_neg h1]
    rfl
  exact completes_plain (f := .updStage) (x := rowUpdStage) (bs := [.masters, .hint, .tix, .upd]) (by simp [commandRows])
    hs ht hfn ((calm_issued _ _ _ _).trans (calm_far _ _ _ _ _ _ _ _ _ _ _ _ _ _)).eased (by decide) (.inr fun _ => id)
    (keepsBut_trans (keepsBut_tix (by decide) _) (keepsBut_upd (by decide) _))
    (fun d' hans hk => ⟨hans.pends rfl, hans.same Chip.upd, hk⟩)

omit hs in
theorem completes_updStage_platform {kind : Nat} (hk : r.a0.toNat % 16 = kind) (ht : takes rowUpdStage r s.chip)
    (hfull : s.chip.tixFull = false) (hl : stageLimits kind r.a1.toNat = true) (h1 : kind = 1)
    (htr : s.chip.onTrial = false) (hch : s.chip.sys.changeover = false) : completes (.updStage r) s (fun d =>
      acked r 0x01 s.chip.tix.next d ∧ d.upd.slot s.chip.otherSlot = {} ∧
      d.upd.slot (!s.chip.otherSlot) = s.chip.upd.slot (!s.chip.otherSlot) ∧
      d.upd.stagings.getLast? =
        some { ticket := s.chip.tix.next, master := r.m.val, kind := 1, len := r.a1.toNat, at_ := s.chip.now }) := by
  rw [← show fld r.a0 0 4 = r.a0.toNat % 16 from fld_low _ _] at hk
  subst hk
  have hnow : (issued r 0x1101 (fld r.a0 0 4) s.chip).openPlatform.now = s.chip.now := by
    have h := keepsBut_openPlatform (issued r 0x1101 (fld r.a0 0 4) s.chip) .time (by decide)
    exact congrArg (fun x : Time => x.six) h
  have hslot := openPlatform_slot (issued r 0x1101 (fld r.a0 0 4) s.chip)
  have hfn : cmdUpdStage r (argued r s.chip) = ((issued r 0x1101 (fld r.a0 0 4) s.chip).openPlatform.modUpd (fun u => { u with
      stagings := u.stagings ++ [{ ticket := s.chip.tix.next, master := r.m.val, kind := fld r.a0 0 4, len := r.a1.toNat,
                                   at_ := s.chip.now }] }), { st := stPENDING, ticket := s.chip.tix.next }) := by
    refine (if_neg (stageLimits_pos hl)).trans ((if_neg (by rw [hl]; decide)).trans
      ((if_neg (fun h => h.1 h1)).trans ((if_neg ?_).trans ?_)))
    · show ¬ (_ ∧ (s.chip.onTrial = true ∨ s.chip.sys.changeover = true))
      rw [htr, hch]
      simp
    · rw [long_issued _ _ _ _ hfull, if_pos h1]
      dsimp only
      rw [hnow]
  generalize Chip.openPlatform _ = z at hfn hslot
  refine completes_acknowledged (x := rowUpdStage) rfl ⟨fun _ _ => rfl, fun _ _ => rfl⟩ ht hfn (fun e hans _ => ?_)
  have hu : (Chip.settle s.chip e).upd = _ := (settle_upd _ _).trans (hans.same Chip.upd)
  refine ⟨settle_acked _ _ hans.acked, ?_, ?_, ?_⟩
  · rw [hu]
    exact (hslot _).trans (if_pos rfl)
  · rw [hu]
    exact (hslot _).trans (if_neg (Bool.not_ne_self _))
  · rw [hu, ← h1]
    exact List.getLast?_concat

/-- The bytes of a chunk in its master's buffer. -/
def chunkData (r : CmdReq) (c : Chip) : List W8 :=
  ((List.range 256).flatMap (fun i => wordBytes (Tbl.get 0 (c.master r.m.val).updBuf i))).take r.a2.toNat

omit hs in
theorem chunkData_length (c : Chip) (h : r.a2.toNat ≤ 1024) : (chunkData r c).length = r.a2.toNat := by
  have hw : ∀ w : W32, (wordBytes w).length = 4 := fun w => by simp [wordBytes, leBytes]
  unfold chunkData
  have hl : (List.range 256).length = 256 := List.length_range
  generalize List.range 256 = l at hl
  rw [List.length_take, List.length_flatMap, List.map_congr_left (fun i _ => hw _), List.map_const', List.sum_replicate, hl]
  exact Nat.min_eq_left h

omit hs in
theorem argued_chunkData (c : Chip) : chunkData r (argued r c) = chunkData r c := by
  obtain ⟨_, _, _, _, h⟩ := argued_master r c r.m.val
  unfold chunkData
  rw [h]

/-- A staging that has received a chunk. -/
def chunked (r : CmdReq) (c : Chip) (x : Staging) : Staging := { x with got := x.got ++ chunkData r c, at_ := c.now }

theorem completes_updChunk {x : Staging} {t : Nat} (hn : r.a0.toNat % 65536 = t) (ht : takes rowUpdChunk r s.chip)
    (hx : s.chip.staging t = some x) (h0 : 0 < r.a2.toNat) (h1024 : r.a2.toNat ≤ 1024) (hdone : x.done = false)
    (hofs : r.a1.toNat = x.got.length) (hlen : r.a1.toNat + r.a2.toNat < x.len) :
    completes (.updChunk r) s (fun d => acked r 0 0 d ∧
      (∃ y, d.staging t = some y ∧ y.at_ = s.chip.now ∧ y.len = x.len ∧ y.got = x.got ++
        ((List.range 256).flatMap (fun i =>
          wordBytes (Tbl.get 0 (s.chip.master r.m.val).updBuf i))).take r.a2.toNat) ∧
      keepsBut [.masters, .hint, .upd] s.chip d) := by
  rw [← show fld r.a0 0 16 = r.a0.toNat % 65536 from fld_low _ _] at hn
  subst hn
  have htick := staging_ticket hx
  have hfn : cmdUpdChunk r (argued r s.chip) =
      ((argued r s.chip).modStaging x.ticket (fun _ => chunked r s.chip x), { st := stOK }) := by
    have hgot : (chunked r s.chip x).got.length ≠ (chunked r s.chip x).len := by
      show (x.got ++ chunkData r s.chip).length ≠ x.len
      rw [List.length_append, chunkData_length _ h1024]
      omega
    have hst : (argued r s.chip).staging (fld r.a0 0 16) = some x := hx
    have hdata := argued_chunkData (r := r) s.chip
    unfold cmdUpdChunk
    dsimp only
    rw [hst]
    refine (if_neg (Nat.pos_iff_ne_zero.mp h0)).trans ((if_neg (Nat.not_lt.mpr h1024)).trans
      ((if_neg (by rw [hdone]; decide)).trans ((if_neg (by omega)).trans ?_)))
    unfold chunked at hgot ⊢
    rw [← hdata] at hgot ⊢
    exact congrArg (fun c => (c, ({ st := stOK } : Ans))) (if_neg hgot)
  refine completes_plain (f := .updChunk) (x := rowUpdChunk) (bs := [.masters, .hint, .upd]) (by simp [commandRows])
    hs ht hfn (calm_far _ _ _ _ _ _ _ _ _ _ _ _ _ _).eased (by decide) (.inr fun _ => id) (keepsBut_upd (by decide) _)
    (fun d' hans hk => ⟨hans.acked, ⟨chunked r s.chip x, ?_, rfl, rfl, rfl⟩, hk⟩)
  unfold Chip.staging
  rw [hans.same Chip.upd]
  refine find?_mapIf (p := fun s : Staging => s.ticket.toNat == fld r.a0 0 16) (q := fun z : Staging => z.ticket == x.ticket)
    (y := chunked r s.chip x) (fun z hz => ?_) (beq_self_eq_true _) (beq_iff_eq.mpr htick) _ hx
  rw [beq_iff_eq.mp hz]
  exact beq_iff_eq.mpr htick

/-! ### Changeovers -/

/-- The block of an activation, with its slot on trial and recorded, before its changeover stops. -/
def Chip.activated (t : W16) (o : Bool) (c : Chip) : Chip :=
  let c := c.modUpd (fun u => { u with coTicket := t, coAt := c.now, coRevert := false, bootSlot := o,
                                       trialGen := c.cfg.gen })
  let c := (c.modFw o (fun x => { x with st := fwTRIAL })).modCfg (fun x => { x with trialChanged := 0 })
  let c := c.legalDigest (c.upd.slot o).legal
  (c.tamperInst 14 0xFF c.now 0 []).raise 0x1102 (b2n o) 0 0

omit hs in
theorem legalDigest_upd (new : BitVec 256) (c : Chip) : (c.legalDigest new).upd = { c.upd with legalNow := new } := by
  unfold Chip.legalDigest
  split
  · next h => rw [← h]
  · rfl

omit hs in
theorem activated_upd (t : W16) (o : Bool) (c : Chip) : (((c.activated t o).upd.slot o).st = 2) ∧
    (c.activated t o).upd.bootSlot = o ∧ (c.activated t o).upd.coTicket = t := by
  unfold Chip.activated
  dsimp only
  rw [raise_upd, tamperInst_upd, legalDigest_upd]
  cases o <;> exact ⟨rfl, rfl, rfl⟩

omit hs in
/-- A command that stops for a changeover completes PENDING with the changeover begun and SV in reset. -/
theorem completes_changeoverStop {f : CmdReq → Instr} {x : CmdRow} {cause : Nat} {b : Chip} (hmem : (f, x) ∈ commandRows)
    (ht : takes x r s.chip) (hk : (cause == 5 || cause == 6) = true)
    (hfn : x.fn r (argued r s.chip) = (b.changeoverStop cause, { st := stPENDING, ticket := s.chip.tix.next })) :
    completes (f r) s (fun d => acked r 0x01 s.chip.tix.next d ∧ d.sys.changeover = true ∧ d.upd.course = b.upd.course ∧
      d.rdy rSV = false ∧ d.sys.cause = BitVec.ofNat 8 cause) := by
  obtain ⟨hu, hc, hs, hr⟩ := changeoverStop_facts hk b
  generalize Chip.changeoverStop _ _ = z at hfn hu hc hs hr
  refine completes_acknowledged (commandRows_exec _ hmem r s) (commandRows_blind _ hmem) ht hfn (fun e hans _ => ?_)
  obtain ⟨h, m, hse⟩ := settle_sys s.chip e
  obtain ⟨h', he⟩ := hans.rest
  have hsz : (Chip.settle s.chip e).sys = { z.sys with hintStatus := h, mode := m } := by rw [hse, he]
  refine ⟨settle_acked _ _ hans.acked, ?_, ?_, ?_, ?_⟩
  · rw [hsz]
    exact hc
  · rw [settle_upd, hans.same Chip.upd]
    exact hu
  · unfold Chip.rdy at hr ⊢
    rw [hsz]
    exact hr
  · rw [hsz]
    exact hs

omit hs in
theorem completes_updActivate {o : Bool} (ho : s.chip.otherSlot = o) (ht : takes rowUpdActivate r s.chip)
    (hfull : s.chip.tixFull = false) (hch : s.chip.sys.changeover = false) (hret : s.chip.retired = false)
    (htr : s.chip.onTrial = false) (hst : (s.chip.upd.slot o).st = 1) (hleg : (s.chip.upd.slot o).legal = s.chip.runImg.legal)
    (haux : s.chip.power.onAux = false) (hchg : s.chip.power.holdupChg = false) (hweak : s.chip.power.holdupWeak = false)
    (hpair : s.chip.pair.formed = false) (hrole : 3 ≤ s.chip.roleNo r.m.val) :
    completes (.updActivate r) s (fun d => acked r 0x01 s.chip.tix.next d ∧ d.sys.changeover = true ∧
        (d.upd.slot o).st = 2 ∧ d.upd.bootSlot = o ∧ d.upd.coTicket = s.chip.tix.next ∧ d.rdy rSV = false ∧
        d.sys.cause = 5) := by
  subst ho
  have hslot : s.chip.stagedSlot = s.chip.otherSlot := stagedSlot_other hst
  have hfn : cmdUpdActivate r (argued r s.chip) =
      (((issued r 0x1103 0 s.chip).activated s.chip.tix.next s.chip.otherSlot).changeoverStop 5,
        { st := stPENDING, ticket := s.chip.tix.next }) := by
    have h1 : ¬ (s.chip.sys.changeover = true ∨ s.chip.retired = true ∨ s.chip.onTrial = true) := by simp [hch, hret, htr]
    have hl : ((s.chip.upd.slot s.chip.stagedSlot).st == fwSTAGED &&
      (s.chip.upd.slot s.chip.stagedSlot).legal != s.chip.runImg.legal) = false := by simp [hslot, hleg]
    refine (if_neg h1).trans ((if_neg ?_).trans ((if_neg ?_).trans ((if_neg ?_).trans ((if_neg ?_).trans ?_))))
    · show ¬ ((argued r s.chip).roleNo r.m.val < 3 ∨ (((s.chip.upd.slot s.chip.stagedSlot).st == fwSTAGED &&
        (s.chip.upd.slot s.chip.stagedSlot).legal != s.chip.runImg.legal) = true ∧ _))
      rw [hl, argued_roleNo]
      simp [hrole]
    · show ¬ (((s.chip.upd.slot s.chip.stagedSlot).st == fwSTAGED &&
        (s.chip.upd.slot s.chip.stagedSlot).legal != s.chip.runImg.legal) = true ∧ _)
      rw [hl]
      simp
    · show ¬ (!((s.chip.upd.slot s.chip.stagedSlot).st == fwSTAGED)) = true
      rw [hslot, hst]
      decide
    · simp [haux, hchg, hweak, hpair]
    · rw [long_issued _ _ _ _ hfull, if_neg (by simp [show (issued r 0x1103 0 s.chip).pair = s.chip.pair from rfl, hpair])]
      rw [← hslot]
      rfl
  obtain ⟨hst', hboot, hco⟩ := activated_upd s.chip.tix.next s.chip.otherSlot (issued r 0x1103 0 s.chip)
  generalize Chip.activated _ _ _ = b at hst' hboot hco hfn
  refine completes_imp (completes_changeoverStop (f := .updActivate) (x := rowUpdActivate) (by simp [commandRows]) ht
    (by decide) hfn) (fun d ⟨hack, hc, hu, hr, hs⟩ => ⟨hack, hc, ?_, ?_, ?_, hr, hs⟩)
  · exact (congrArg (fun u : Upd => (u.slot s.chip.otherSlot).st) hu).trans hst'
  · exact (congrArg (fun u : Upd => u.bootSlot) hu).trans hboot
  · exact (congrArg (fun u : Upd => u.coTicket) hu).trans hco

/-- The block of a revert before its changeover stops. -/
def Chip.reverted (why : BitVec 3) (c : Chip) : Chip :=
  let c := (c.giveUpTrial c.upd.bootSlot why).modUpd (fun u => { u with coRevert := true, coAt := c.now })
  c.tamperInst 14 0xFF c.now 0 []

omit hs in
theorem revert_eq (why : BitVec 3) (c : Chip) : c.revert why = (c.reverted why).changeoverStop 6 := by
  unfold Chip.revert Chip.reverted
  rfl

omit hs in
theorem giveUpTrial_upd (b : Bool) (why : BitVec 3) (c : Chip) : (c.giveUpTrial b why).upd =
    { (((c.legalDigest (c.fallLegal b)).modFw b (fun x => { x with st := fwFAILED })).upd) with
      bootSlot := !b, lastFail := why, fellBack := true } := by
  unfold Chip.giveUpTrial Chip.fallbackEvt
  generalize c.legalDigest _ = d
  dsimp only
  unfold Chip.when
  split
  · rw [raise_upd, raise_upd]
    rfl
  · rw [raise_upd]
    rfl

omit hs in
theorem reverted_upd (why : BitVec 3) (c : Chip) : ((c.reverted why).upd.slot c.upd.bootSlot).st = 4 ∧
    (c.reverted why).upd.bootSlot = (!c.upd.bootSlot) ∧ (c.reverted why).upd.lastFail = why := by
  have hu : (c.reverted why).upd = { (c.giveUpTrial c.upd.bootSlot why).upd with coRevert := true, coAt := c.now } := by
    unfold Chip.reverted
    exact tamperInst_upd ..
  rw [hu, giveUpTrial_upd]
  refine ⟨?_, rfl, rfl⟩
  generalize c.legalDigest _ = d
  exact congrArg FwSlot.st ((modFw_slot _ _ _ d).trans (if_pos rfl))

omit hs in
theorem completes_updRevert (ht : takes rowUpdRevert r s.chip) (hfull : s.chip.tixFull = false)
    (hch : s.chip.sys.changeover = false) (htr : s.chip.onTrial = true) : completes (.updRevert r) s (fun d =>
      acked r 0x01 s.chip.tix.next d ∧ d.sys.changeover = true ∧
        (d.upd.slot s.chip.upd.bootSlot).st = 4 ∧ d.upd.bootSlot = (!s.chip.upd.bootSlot) ∧ d.upd.lastFail = 5 ∧
        d.rdy rSV = false ∧ d.sys.cause = 6) := by
  have hfn : cmdUpdRevert r (argued r s.chip) = ((Chip.reverted 5 ((issued r 0x1104 0 s.chip).modUpd
      (fun u => { u with coTicket := s.chip.tix.next }))).changeoverStop 6,
        { st := stPENDING, ticket := s.chip.tix.next }) := by
    rw [← revert_eq]
    refine (if_neg ?_).trans (long_issued _ _ _ _ hfull _)
    show ¬ (s.chip.sys.changeover = true ∨ (!s.chip.onTrial) = true)
    simp [hch, htr]
  obtain ⟨hst, hboot, hwhy⟩ := reverted_upd 5 ((issued r 0x1104 0 s.chip).modUpd (fun u => { u with coTicket := s.chip.tix.next }))
  generalize Chip.reverted _ _ = b at hst hboot hwhy hfn
  refine completes_imp (completes_changeoverStop (f := .updRevert) (x := rowUpdRevert) (by simp [commandRows]) ht
    (by decide) hfn) (fun d ⟨hack, hc, hu, hr, hs⟩ => ⟨hack, hc, ?_, ?_, ?_, hr, hs⟩)
  · exact (congrArg (fun u : Upd => (u.slot s.chip.upd.bootSlot).st) hu).trans hst
  · exact (congrArg (fun u : Upd => u.bootSlot) hu).trans hboot
  · exact (congrArg (fun u : Upd => u.lastFail) hu).trans hwhy

/-! ### Discards, the pair and expiries -/

theorem completes_updDiscard {o : Bool} (ho : s.chip.otherSlot = o) (ht : takes rowUpdDiscard r s.chip)
    (h0 : r.a0.toNat % 65536 = 0) (hst : (s.chip.upd.slot o).st = 1) : completes (.updDiscard r) s (fun d =>
      acked r 0 0 d ∧ d.upd.slot o = {} ∧ d.upd.slot (!o) = s.chip.upd.slot (!o) ∧
      d.upd.stagings = s.chip.upd.stagings ∧ keepsBut [.masters, .hint, .upd] s.chip d) := by
  subst ho
  rw [← show fld r.a0 0 16 = r.a0.toNat % 65536 from fld_low _ _] at h0
  have hslot : s.chip.stagedSlot = s.chip.otherSlot := stagedSlot_other hst
  have hfn : cmdUpdDiscard r (argued r s.chip) = ((argued r s.chip).modFw s.chip.stagedSlot (fun _ => {}), { st := stOK }) :=
    (if_pos h0).trans (if_pos (show (s.chip.upd.slot s.chip.stagedSlot).st = fwSTAGED by rw [hslot]; exact hst))
  rw [hslot] at hfn
  refine completes_plain (f := .updDiscard) (x := rowUpdDiscard) (bs := [.masters, .hint, .upd]) (by simp [commandRows])
    hs ht hfn (calm_far _ _ _ _ _ _ _ _ _ _ _ _ _ _).eased (by decide) (.inr fun _ => id) (keepsBut_upd (by decide) _)
    (fun d' hans hk => ?_)
  have hm := fun j => modFw_slot s.chip.otherSlot j (fun _ => {}) (argued r s.chip)
  have hu := hans.same Chip.upd
  refine ⟨hans.acked, ?_, ?_, ?_, hk⟩
  · rw [hu, hm, if_pos rfl]
  · rw [hu, hm, if_neg (Bool.not_ne_self _)]
    rfl
  · rw [hu]
    unfold Chip.modFw
    cases s.chip.otherSlot <;> rfl

theorem completes_pairSwitch (ht : takes rowPairSwitch r s.chip) (hfull : s.chip.tixFull = false)
    (hrole : s.chip.pair.role ≠ 2) (hch : s.chip.sys.changeover = false) (hrdy : s.chip.rdy rPAIR = true)
    (hmode : s.chip.pair.pMode ≠ 0) (hsw : s.chip.pair.switching = false) : completes (.pairSwitch r) s (fun d =>
        pends r 0x1301 0 s.chip d ∧ d.pair = { s.chip.pair with switchT := s.chip.tix.next } ∧
        keepsBut [.masters, .hint, .tix, .pair] s.chip d) := by
  have hfn : cmdPairSwitch r (argued r s.chip) = ((issued r 0x1301 0 s.chip).modPair
      (fun p => { p with switchT := s.chip.tix.next }), { st := stPENDING, ticket := s.chip.tix.next }) := by
    refine (if_neg ?_).trans ((if_neg ?_).trans ((if_neg ?_).trans (long_issued _ _ _ _ hfull _)))
    · show ¬ (s.chip.pair.role == 2 || s.chip.sys.changeover) = true
      rw [hch, Bool.or_false]
      exact fun h => hrole (beq_iff_eq.mp h)
    · show ¬ (!s.chip.rdy rPAIR || s.chip.pair.pMode == 0) = true
      rw [hrdy]
      exact fun h => hmode (beq_iff_eq.mp h)
    · show ¬ s.chip.pair.switching = true
      simp [hsw]
  exact completes_plain (f := .pairSwitch) (x := rowPairSwitch) (bs := [.masters, .hint, .tix, .pair])
    (by simp [commandRows]) hs ht hfn (Calm.eased ((calm_issued r 0x1301 0 s.chip).trans
      ⟨rfl, rfl, rfl, rfl, rfl, rfl, rfl, fun _ => rfl, fun _ => rfl, fun _ => rfl, fun _ => rfl, rfl, rfl⟩))
    (by decide) (.inr fun _ => id) (keepsBut_trans (keepsBut_tix (by decide) _) (keepsBut_pair (by decide) _))
    (fun d' hans hk => ⟨hans.pends rfl, hans.same Chip.pair, hk⟩)

omit hs in
theorem dropStaging_none (t : W16) (c : Chip) : ∀ y ∈ (c.dropStaging t).upd.stagings, y.ticket ≠ t := by
  intro y hy
  exact bne_iff_ne.mp (List.mem_filter.mp hy).2

omit hs in
theorem completes_stagingTimeout {t : W16} {x : Staging} (hx : s.chip.staging t.toNat = some x) (hd : x.done = false) :
    completes (.stagingTimeout t) s (fun d => (∀ y ∈ d.upd.stagings, y.ticket ≠ t) ∧
      ((s.chip.ticketOut t).isSome = true → d.tix.done.head? = some (t, 0x11))) := by
  have hf : s.chip.stagingTimeout t = (s.chip.dropStaging t).complete t stTIMEOUT 0 := by
    unfold Chip.stagingTimeout
    rw [hx]
    exact if_neg (by rw [hd]; decide)
  refine completes_settle rfl hf ⟨?_, fun h => ?_⟩
  · rw [settle_upd, complete_upd]
    exact dropStaging_none t s.chip
  · obtain ⟨y, hy⟩ := Option.isSome_iff_exists.mp h
    exact (completed_settle hy (c := s.chip.dropStaging t) ⟨rfl, rfl, rfl, fun _ => id⟩ (Tame.refl _)).2.1

theorem completes_stagedExpiry {t : W16} {x : Staging} (hx : s.chip.staging t.toNat = some x) (hd : x.done = true) :
    completes (.stagedImageExpiry t) s (fun d => (∀ y ∈ d.upd.stagings, y.ticket ≠ t) ∧ keepsBut [.upd] s.chip d) := by
  have hf : s.chip.stagedExpiry t = s.chip.dropStaging t := by
    unfold Chip.stagedExpiry
    rw [hx]
    exact if_pos hd
  exact completes_quiet rfl hf hs
    ⟨rfl, rfl, rfl, rfl, rfl, rfl, rfl, fun _ => rfl, fun _ => rfl, fun _ => rfl, fun _ => rfl, rfl, fun _ => rfl, rfl⟩
    ⟨dropStaging_none t s.chip, keepsBut_upd (by decide) _⟩

end

/-- Settles O36: the commands of firmware and the pair, and the stagings that expire. -/
theorem updateCommands : Obligations.UpdateCommands := by
  unfold Obligations.UpdateCommands
  intro r x t s hs
  exact ⟨completes_updStage hs rfl, fun ht hfull hl h1 htr hch => completes_updStage_platform rfl ht hfull hl h1 htr hch,
    fun ht hx _ h0 h1024 hdone hofs hlen => completes_updChunk hs rfl ht hx h0 h1024 hdone hofs hlen,
    completes_updActivate rfl, completes_updRevert, completes_updDiscard hs rfl, completes_pairSwitch hs,
    completes_stagingTimeout, completes_stagedExpiry hs⟩

end Sys2Proof.Machine
end

section
/-! What changes of key slots and of the life cycle leave of SC's operations, of the stagings and of the masters
(R341, R345, R347). -/

namespace Sys2Proof.Machine

open Sys2Proof Sys2Proof.Claims

/-- SC's operations, the life cycle, the anti-replay counter and the stagings are the same, and a master that was
connected or had no session is still so. -/
structure Kept (c d : Chip) : Prop where
  pending : d.key.pending = c.key.pending
  lc : d.key.lc = c.key.lc
  ctr : d.key.ctr = c.key.ctr
  stagings : d.upd.stagings = c.upd.stagings
  parted : ∀ m, (c.master m).conn = true ∨ (c.master m).role = 0 → (d.master m).conn = true ∨ (d.master m).role = 0

theorem Kept.refl (c : Chip) : Kept c c := ⟨rfl, rfl, rfl, rfl, fun _ => id⟩

theorem Kept.trans {a b c : Chip} (h : Kept a b) (h' : Kept b c) : Kept a c :=
  ⟨h'.pending.trans h.pending, h'.lc.trans h.lc, h'.ctr.trans h.ctr, h'.stagings.trans h.stagings,
    fun m => h'.parted m ∘ h.parted m⟩

theorem kept_ite {p : Prop} [Decidable p] {c d e : Chip} (hd : Kept c d) (he : Kept c e) :
    Kept c (if p then d else e) := by
  split
  · exact hd
  · exact he

theorem kept_when {b : Bool} {f : Chip → Chip} {c : Chip} (h : Kept c (f c)) : Kept c (c.when b f) := by
  cases b
  · exact Kept.refl c
  · exact h

theorem kept_each {α : Type} {f : α → Chip → Chip} (h : ∀ a c, Kept c (f a c)) :
    ∀ (l : List α) (c : Chip), Kept c (each l f c)
  | [], c => Kept.refl c
  | a :: t, c => (h a c).trans (kept_each h t (f a c))

theorem kept_keeps {bs : List Block} {c d : Chip} (hk : Block.key ∉ bs) (hu : Block.upd ∉ bs) (hm : Block.masters ∉ bs)
    (h : keepsBut bs c d) : Kept c d := by
  have hk : d.key = c.key := h .key hk
  have hu : d.upd = c.upd := h .upd hu
  have hm : d.masters = c.masters := h .masters hm
  refine ⟨by rw [hk], by rw [hk], by rw [hk], by rw [hu], fun m hc => ?_⟩
  unfold Chip.master at hc ⊢
  rw [hm]
  exact hc

theorem Noted.kept {c d : Chip} (h : Noted c d) : Kept c d :=
  kept_keeps (by decide) (by decide) (by decide) (commit_noted h)

theorem Recorded.kept {c d : Chip} (h : Recorded c d) : Kept c d :=
  kept_keeps (by decide) (by decide) (by decide) (commit_recorded h)

theorem Carried.kept {c d : Chip} : Carried c d → Kept c d := by
  rintro ⟨_, _, _, _, _, _, _, _, _, rfl⟩
  exact ⟨rfl, rfl, rfl, rfl, fun _ => id⟩

theorem Gated.kept {c d : Chip} (h : Gated c d) : Kept c d := by
  obtain ⟨g, f, h⟩ := h
  exact Kept.trans (b := c.modUpd _) ⟨rfl, rfl, rfl, rfl, fun _ => id⟩ (kept_keeps (by decide) (by decide) (by decide) h)

theorem kept_modKey {g : Key → Key} {c : Chip} (hp : (g c.key).pending = c.key.pending) (hl : (g c.key).lc = c.key.lc)
    (hc : (g c.key).ctr = c.key.ctr) : Kept c (c.modKey g) := ⟨hp, hl, hc, rfl, fun _ => id⟩

theorem kept_modLink (g : Link → Link) (c : Chip) : Kept c (c.modLink g) := ⟨rfl, rfl, rfl, rfl, fun _ => id⟩

theorem kept_modEng (k : Nat) (g : Engine → Engine) (c : Chip) : Kept c (c.modEng k g) := ⟨rfl, rfl, rfl, rfl, fun _ => id⟩

theorem kept_modLedger (g : Ledger → Ledger) (c : Chip) : Kept c (c.modLedger g) := ⟨rfl, rfl, rfl, rfl, fun _ => id⟩

theorem kept_modBay (g : Bay → Bay) (c : Chip) : Kept c (c.modBay g) := ⟨rfl, rfl, rfl, rfl, fun _ => id⟩

theorem kept_modSys (g : Sys → Sys) (c : Chip) : Kept c (c.modSys g) := ⟨rfl, rfl, rfl, rfl, fun _ => id⟩

theorem kept_modSlot (i : Nat) (g : Slot → Slot) (c : Chip) : Kept c (c.modSlot i g) := kept_modKey rfl rfl rfl

theorem kept_commitHalf (i : Nat) (h : Half) (c : Chip) : Kept c (c.commitHalf i h) :=
  ⟨rfl, rfl, rfl, rfl, fun _ => id⟩

/-! ### Sessions that end -/

theorem kept_modMaster {m : Nat} {g : Master → Master} {c : Chip}
    (hg : ((c.master m).conn = true ∨ (c.master m).role = 0) → ((g (c.master m)).conn = true ∨ (g (c.master m)).role = 0)) :
    Kept c (c.modMaster m g) := by
  refine ⟨rfl, rfl, rfl, rfl, fun j hj => ?_⟩
  rw [modMaster_master]
  split
  · next h =>
    subst h
    exact hg hj
  · exact hj

theorem kept_endSession (m : Nat) (c : Chip) : Kept c (c.endSession m) := by
  have he := ended_endSession c m
  have hu : (c.endSession m).upd = c.upd := by
    obtain ⟨_, _, _, _, h⟩ := he
    exact h.upd
  refine ⟨by rw [he.key], by rw [he.key], by rw [he.key], by rw [hu], fun j hj => ?_⟩
  rw [endSession_master]
  split
  · exact .inr rfl
  · exact hj

theorem closeConn_master {m : Nat} (hm : m ≠ 0) (c : Chip) (h : (c.master m).conn = true) :
    ((c.closeConn m).master m).role = 0 := by
  have hc : c.closeConn m = (c.endSession m).modMaster m (fun x => { x with conn := false }) :=
    if_neg (by simp [hm, h])
  rw [hc, modMaster_master, if_pos rfl, endSession_master, if_pos rfl]

theorem kept_closeConn (m : Nat) (c : Chip) : Kept c (c.closeConn m) := by
  refine kept_ite (Kept.refl c) ((kept_endSession m c).trans (kept_modMaster fun _ => .inr ?_))
  rw [endSession_master, if_pos rfl]

theorem kept_send (m : Nat) (msg : YhpMsg) (c : Chip) : Kept c (c.send m msg) := kept_modMaster id

theorem kept_sessClosed (n : Nat) (c : Chip) : Kept c (c.sessClosed n) := (noted_raise _ _ _ _ c).kept

theorem carried_v2gFields (l : List (W64 × Nat)) (c : Chip) :
    Carried c (each l (fun p c => if p.2 < 8 then c.bayField (aV2g (0x040 + 8 * p.2)) p.1 else c) c) :=
  carried_each (f := fun p (c : Chip) => if p.2 < 8 then c.bayField (aV2g (0x040 + 8 * p.2)) p.1 else c)
    (fun _ c => carried_ite (carried_bayField _ _ c) (Carried.refl c)) l c

theorem carried_v2gPost (msg : Nat) (q : V2gReq) (b : Bool) (c : Chip) : Carried c (c.v2gPost msg q b) := by
  unfold Chip.v2gPost
  dsimp only
  refine Carried.trans ?_ (noted_fqPut _ _ _).carried
  refine (((Carried.trans ?_ (carried_modBay _ _)).trans (carried_bayField _ _ _)).trans (carried_bayEvent _ _))
  refine Carried.trans ?_ (carried_v2gFields _ _)
  refine Carried.trans ?_ (carried_bayField _ _ _)
  refine Carried.trans ?_ (carried_bayField _ _ _)
  refine Carried.trans ?_ (carried_bayField _ _ _)
  refine Carried.trans ?_ (carried_bayField _ _ _)
  refine Carried.trans ?_ (carried_bayField _ _ _)
  refine Carried.trans ?_ (carried_bayField _ _ _)
  exact (carried_bayField _ _ _).trans (carried_bayField _ _ _)

theorem kept_v2gAbort (q : V2gReq) (c : Chip) : Kept c (c.v2gAbort q) :=
  ((noted_raise _ _ _ _ c).kept.trans (kept_modBay _ _)).trans (carried_v2gPost _ _ _ _).kept

theorem kept_platePkt (what block count : Nat) (ver : W16) (c : Chip) : Kept c (c.platePkt what block count ver) :=
  kept_ite (noted_fqPut _ _ c).kept (kept_modLink _ c)

theorem kept_plateSessEnd (c : Chip) : Kept c c.plateSessEnd :=
  kept_ite ((kept_modLink _ c).trans (kept_platePkt _ _ _ _ _)) (kept_modLink _ c)

/-- The session of a master that ends with a key it was opened with. -/
theorem kept_dependant (m : Nat) (msg : YhpMsg) (c : Chip) : Kept c (if m = 0 then (c.endSession 0).sessClosed 0
    else ((c.send m msg).closeConn m).sessClosed m) :=
  kept_ite ((kept_endSession 0 c).trans (kept_sessClosed 0 _))
    (((kept_send m msg c).trans (kept_closeConn m _)).trans (kept_sessClosed m _))

/-- Sessions, the plate tag's session and the vehicle's, as they end with the keys they were opened with. -/
def Chip.dependSessions (l : List Nat) (c : Chip) : Chip :=
  each [0, 1, 2, 3, 4] (fun m c =>
    let x := c.master m
    if !(x.role != 0 && x.account != 0xFF &&
      l.contains (Tbl.get ({} : Account) c.key.accts x.account.toNat).slot.toNat) then c
    else if m = 0 then (c.endSession 0).sessClosed 0
    else ((c.send m { kind := 0x90, payload := mkPkt 0x01 m [w32 stCONDEMNED.toNat, 0] }).closeConn m).sessClosed m) c

def Chip.dependPlate (l : List Nat) (c : Chip) : Chip :=
  let p := c.link.plate
  if p.auth != 0 && l.contains (if p.authKey = 1 then p.src1 else p.src2) then c.plateSessEnd.sessClosed 0xFF else c

def Chip.dependV2g (l : List Nat) (c : Chip) : Chip :=
  if l.any (fun i => (c.kslot i).half.dest.getLsbD 4) && c.bay.v2gConn then (c.v2gAbort {}).sessClosed 0xFF else c

theorem closeDependants_eq (l : List Nat) (c : Chip) :
    c.closeDependants l = ((c.dependSessions l).dependPlate l).dependV2g l := by
  unfold Chip.closeDependants Chip.dependV2g Chip.dependPlate Chip.dependSessions
  dsimp only

theorem kept_closeDependants (l : List Nat) (c : Chip) : Kept c (c.closeDependants l) := by
  have h1 : Kept c (c.dependSessions l) := kept_each (fun m c => kept_ite (Kept.refl c) (kept_dependant m _ c)) _ c
  have h2 : ∀ c : Chip, Kept c (c.dependPlate l) := fun c =>
    kept_ite ((kept_plateSessEnd c).trans (kept_sessClosed _ _)) (Kept.refl c)
  have h3 : ∀ c : Chip, Kept c (c.dependV2g l) := fun c =>
    kept_ite ((kept_v2gAbort {} c).trans (kept_sessClosed _ _)) (Kept.refl c)
  rw [closeDependants_eq]
  exact (h1.trans (h2 _)).trans (h3 _)

/-! ### Condemned keys -/

theorem kept_plateErase (l : List Nat) (c : Chip) : Kept c (c.plateErase l) := kept_modLink _ c

theorem kept_condemnFinish (l : List Nat) (c : Chip) : Kept c (c.condemnFinish l) := by
  unfold Chip.condemnFinish
  dsimp only
  refine Kept.trans ?_ (kept_each (fun _ c => (noted_raise _ _ _ _ c).kept) _ _)
  refine Kept.trans ?_ (kept_each (fun i c => kept_modSlot i _ c) _ _)
  exact (kept_closeDependants l c).trans (kept_plateErase l _)

theorem kept_condemn (c : Chip) : Kept c c.condemn := by
  unfold Chip.condemn
  dsimp only
  refine kept_ite (Kept.refl c) ?_
  have h := fun l => kept_each (fun i c => kept_modSlot i (fun s => { s with condemned := true }) c) l c
  exact kept_ite ((h _).trans (kept_modKey rfl rfl rfl))
    (kept_ite (h _) ((h _).trans (kept_condemnFinish _ _)))

theorem kept_secretChanged (m i : Nat) (c : Chip) : Kept c (c.secretChanged m i) :=
  kept_each (fun n c => kept_ite (kept_endSession n c) (Kept.refl c)) _ c

theorem kept_keyChanged (i : Nat) (c : Chip) : Kept c (c.keyChanged i) :=
  (((kept_condemn c).trans (kept_modSlot i _ _)).trans (recorded_tamperInst _ _ _ _ _ _).kept).trans
    (noted_raise _ _ _ _ _).kept

/-! ### Slots behind condemned keys -/

/-- A slot but for what condemning it or recording its change writes of it. -/
def Slot.core (s : Slot) : Slot :=
  { s with a := { s.a with mat := [] }, b := { s.b with mat := [] }, condemned := false, recGen := 0 }

theorem modSlot_kslot (i j : Nat) (g : Slot → Slot) (c : Chip) :
    (c.modSlot i g).kslot j = if j = i then g (c.kslot i) else c.kslot j := Tbl.get_put ..

theorem modSlot_core {g : Slot → Slot} (hg : ∀ s, (g s).core = s.core) (i j : Nat) (c : Chip) :
    ((c.modSlot i g).kslot j).core = (c.kslot j).core := by
  rw [modSlot_kslot]
  split
  · next h => rw [hg, h]
  · rfl

theorem slot_core {c d : Chip} (h : d.key = c.key) (j : Nat) : (d.kslot j).core = (c.kslot j).core := by
  unfold Chip.kslot
  rw [h]

theorem endSession_key (m : Nat) (c : Chip) : (c.endSession m).key = c.key := (ended_endSession c m).key

theorem key_ite {p : Prop} [Decidable p] {d e : Chip} {k : Key} (hd : d.key = k) (he : e.key = k) :
    (if p then d else e).key = k := by
  split
  · exact hd
  · exact he

theorem closeConn_key (m : Nat) (c : Chip) : (c.closeConn m).key = c.key :=
  key_ite rfl ((modMaster_key ..).trans (endSession_key m c))

theorem sessClosed_key (n : Nat) (c : Chip) : (c.sessClosed n).key = c.key := raise_key ..

theorem platePkt_key (what block count : Nat) (ver : W16) (c : Chip) : (c.platePkt what block count ver).key = c.key := by
  unfold Chip.platePkt
  dsimp only
  split
  · exact fqPut_key ..
  · rfl

theorem plateSessEnd_key (c : Chip) : c.plateSessEnd.key = c.key := key_ite (platePkt_key _ _ _ _ (c.modLink _)) rfl

theorem v2gPost_key (msg : Nat) (q : V2gReq) (b : Bool) (c : Chip) : (c.v2gPost msg q b).key = c.key :=
  (carried_v2gPost msg q b c).follows.key

theorem closeDependants_key (l : List Nat) (c : Chip) : (c.closeDependants l).key = c.key := by
  have h1 : (c.dependSessions l).key = c.key := each_keeps Chip.key _ (fun m c => key_ite rfl (key_ite
    ((sessClosed_key _ _).trans (endSession_key _ _)) ((sessClosed_key _ _).trans (closeConn_key _ (c.send m _))))) _ c
  have h2 : ∀ c : Chip, (c.dependPlate l).key = c.key := fun c =>
    key_ite ((sessClosed_key _ _).trans (plateSessEnd_key c)) rfl
  have h3 : ∀ c : Chip, (c.dependV2g l).key = c.key := fun c => key_ite ((sessClosed_key _ _).trans
    ((v2gPost_key _ _ _ _).trans (raise_key ..))) rfl
  rw [closeDependants_eq, h3, h2, h1]

theorem each_core {α : Type} {f : α → Chip → Chip} (h : ∀ a c j, ((f a c).kslot j).core = (c.kslot j).core) (l : List α)
    (c : Chip) (j : Nat) : ((each l f c).kslot j).core = (c.kslot j).core :=
  each_keeps (fun c => (c.kslot j).core) f (fun a c => h a c j) l c

theorem condemnFinish_core (l : List Nat) (c : Chip) (j : Nat) : ((c.condemnFinish l).kslot j).core = (c.kslot j).core := by
  unfold Chip.condemnFinish
  dsimp only
  rw [each_core (fun _ c j => slot_core (raise_key ..) j)]
  refine (each_core (fun i c j => modSlot_core (fun s => ?_) i j c) _ _ _).trans (slot_core (closeDependants_key l c) j)
  rfl

theorem condemn_core (c : Chip) (j : Nat) : (c.condemn.kslot j).core = (c.kslot j).core := by
  have h := fun l => each_core (f := fun i (c : Chip) => c.modSlot i (fun s => { s with condemned := true }))
    (fun i c j => modSlot_core (g := fun s => { s with condemned := true }) (fun _ => rfl) i j c) l c j
  unfold Chip.condemn
  dsimp only
  split
  · rfl
  · split
    · exact h _
    · split
      · exact h _
      · rw [condemnFinish_core, h]

theorem secretChanged_key (m i : Nat) (c : Chip) : (c.secretChanged m i).key = c.key :=
  each_keeps Chip.key _ (fun n c => by
    dsimp only
    split
    · exact endSession_key n c
    · rfl) _ c

theorem keyChanged_core (i : Nat) (c : Chip) (j : Nat) : ((c.keyChanged i).kslot j).core = (c.kslot j).core := by
  unfold Chip.keyChanged
  dsimp only
  rw [slot_core ((raise_key ..).trans (tamperInst_key ..)), modSlot_core (g := fun s => { s with recGen := s.lastGen }) (fun _ => rfl),
    condemn_core]

end Sys2Proof.Machine
end

section
/-! What a change of the life cycle leaves of SC's operations and of the masters (R347). -/

namespace Sys2Proof.Machine

open Sys2Proof Sys2Proof.Claims

/-! ### Metrology that stops -/

theorem kept_adjLate (k s : Nat) (e : CtxEv) (c : Chip) : Kept c (c.adjLate k s e) := by
  unfold Chip.adjLate
  have h1 : Kept c ((c.markAdj (c.lateMps k e)).pendLate k s e) := ⟨rfl, rfl, rfl, rfl, fun _ => id⟩
  exact (h1.trans (recorded_stage _ _ _ _ _).kept).trans (noted_raise _ _ _ _ _).kept

theorem kept_placeGate (k : Nat) (rep : Bool) (s : Nat) (c : Chip) : Kept c (c.placeGate k rep s) :=
  (kept_modEng k _ c).trans (kept_each (fun e c => kept_adjLate k s e c) _ _)

theorem kept_commitAll (k : Nat) (c : Chip) : Kept c (c.commitAll k) :=
  kept_each (fun _ c => (gated_commitGate k true c).kept) _ c

theorem kept_forcedNote (k : Nat) (c : Chip) : Kept c (c.forcedNote k) :=
  (kept_modEng k _ c).trans (noted_raise _ _ _ _ _).kept

theorem kept_forceGate (k s : Nat) (c : Chip) : Kept c (c.forceGate k s) := by
  have h1 : Kept c (if (c.eng k).hasGate s && (c.eng k).gates.isEmpty then c else c.forcedNote k) :=
    kept_ite (Kept.refl c) (kept_forcedNote k c)
  unfold Chip.forceGate
  generalize (if (c.eng k).hasGate s && (c.eng k).gates.isEmpty then c else c.forcedNote k) = d at h1
  have h2 : Kept d (if (d.eng k).hasGate s then d else d.placeGate k false s) :=
    kept_ite (Kept.refl d) (kept_placeGate k false s d)
  exact ((h1.trans h2).trans (kept_commitAll k _)).trans (kept_modEng k _ _)

theorem kept_forceAtH (k : Nat) (short : Bool) (c : Chip) : Kept c (c.forceAtH k short) := by
  have h1 := kept_modEng k (fun q => q.abandon.unbegin) c
  unfold Chip.forceAtH
  generalize c.modEng k (fun q => q.abandon.unbegin) = d at h1
  have h2 := h1.trans (kept_modEng k (fun q => { q with seg := { q.seg with saveShort := q.seg.saveShort || short } }) d)
  exact kept_ite h1 (kept_ite ((h2.trans (kept_forcedNote k _)).trans (kept_commitAll k _))
    (h2.trans (kept_forceGate k _ _)))

theorem kept_setRdy (i : Nat) (b : Bool) (c : Chip) : Kept c (c.setRdy i b) := kept_modSys _ c

theorem kept_stopEngine (k : Nat) (run : BitVec 4) (c : Chip) : Kept c (c.stopEngine k run) :=
  (kept_modEng k _ c).trans (kept_setRdy (rQE k) false _)

theorem kept_metrologyEnd (k : Nat) (c : Chip) : Kept c (c.metrologyEnd k) := by
  unfold Chip.metrologyEnd
  dsimp only
  split
  · exact Kept.refl c
  · exact kept_ite (((kept_forceAtH k false c).trans (kept_stopEngine k _ _)).trans (kept_modEng k _ _)) (Kept.refl c)

theorem kept_unloaded (k : Nat) (c : Chip) :
    Kept c ((c.stopEngine k ruUNLOADED).modEng k (fun q => { q with img := none })) :=
  (kept_stopEngine k _ c).trans (kept_modEng k _ _)

theorem kept_stopMetrology (c : Chip) : Kept c c.stopMetrology := by
  unfold Chip.stopMetrology
  dsimp only
  refine Kept.trans ?_ (kept_each (fun k c => kept_metrologyEnd k c) _ _)
  refine Kept.trans ?_ (kept_modSys _ _)
  refine Kept.trans ?_ (kept_each (fun k c => kept_unloaded k c) _ _)
  exact (carried_closeSessions 0x12 c).kept.trans (kept_each (fun m c => (carried_sessionEnd m c).kept) _ _)

/-! ### The ledger -/

theorem kept_ledgerRoom (n : Nat) (c : Chip) : Kept c (c.ledgerRoom n) := by
  unfold Chip.ledgerRoom
  dsimp only
  refine kept_ite (Kept.refl c) ?_
  exact kept_ite ((((kept_modLedger _ c).trans (kept_modLedger _ _)).trans (recorded_tamperInst _ _ _ _ _ _).kept).trans
    (noted_raise _ _ _ _ _).kept) (kept_modLedger _ c)

theorem kept_ledgerFull (c : Chip) : Kept c c.ledgerFull :=
  kept_ite (Kept.refl c) ((kept_modLedger _ c).trans (noted_raise _ _ _ _ _).kept)

theorem kept_ledgerPut (c : Chip) : Kept c c.ledgerPut := by
  unfold Chip.ledgerPut
  split
  · exact Kept.refl c
  · dsimp only
    refine Kept.trans ?_ (kept_ledgerFull _)
    have h := fun (l : List LedgerRec) (n : Nat) (g : Ledger → Ledger) =>
      ((kept_modLedger (fun x => { x with staging := l }) c).trans (kept_ledgerRoom n _)).trans (kept_modLedger g _)
    exact kept_ite (h _ _ _) (kept_ite ((h _ _ _).trans (kept_modLedger _ _)) ((h _ _ _).trans (noted_raise _ _ _ _ _).kept))

theorem kept_ledgerPutN : ∀ (n : Nat) (c : Chip), Kept c (Chip.ledgerPutN n c)
  | 0, c => Kept.refl c
  | n + 1, c => (kept_ledgerPut c).trans (kept_ledgerPutN n _)

/-! ### Keys that are destroyed and drawn -/

theorem kept_kwrAnswer (e : Nat) (st : W8) (c : Chip) : Kept c (c.kwrAnswer e st) := kept_modKey rfl rfl rfl

theorem kept_kwrNext : ∀ (n : Nat) (c : Chip), Kept c (Chip.kwrNext n c)
  | 0, c => Kept.refl c
  | n + 1, c => by
    unfold Chip.kwrNext
    split
    · exact Kept.refl c
    · next e i t _ =>
      dsimp only
      have h : Kept c (c.modKey (fun k => { k with kwr := { k.kwr with queue := t } })) := kept_modKey rfl rfl rfl
      exact kept_ite ((h.trans (kept_modKey rfl rfl rfl)).trans (kept_kwrAnswer _ _ _))
        ((h.trans (kept_kwrAnswer _ _ _)).trans (kept_kwrNext n _))

theorem kept_linkUse (i : Nat) (c : Chip) : Kept c (c.linkUse i).2.2 := by
  unfold Chip.linkUse
  dsimp only
  generalize (if !c.rdy rKEYS then stBUSY else c.linkKey i) = st
  split
  · exact kept_kwrAnswer _ _ c
  · split
    · exact Kept.refl c
    · exact kept_kwrAnswer _ _ c

theorem kept_plateDerive (c : Chip) : Kept c c.plateDerive := by
  have h := (kept_linkUse 1 c).trans (kept_linkUse 0 _)
  unfold Chip.plateDerive
  dsimp only
  generalize (c.linkUse 1).2.2.linkUse 0 = u at h
  exact (h.trans (kept_modLink _ _)).trans (kept_modKey rfl rfl rfl)

theorem kept_plateKeys (c : Chip) : Kept c c.plateKeys := kept_ite (kept_modKey rfl rfl rfl) (kept_plateDerive c)

theorem kept_kwrClear (c : Chip) : Kept c c.kwrClear := by
  have h1 : Kept c (c.modKey (fun k => { k with kwr := { k.kwr with eng := none, slot := 0, grace := false } })) :=
    kept_modKey rfl rfl rfl
  unfold Chip.kwrClear
  generalize c.modKey (fun k => { k with kwr := { k.kwr with eng := none, slot := 0, grace := false } }) = d at h1
  exact (h1.trans (kept_when (kept_plateDerive d))).trans (kept_kwrNext _ _)

theorem kept_destroySlots (l : List Nat) (c : Chip) : Kept c (c.destroySlots l) := by
  unfold Chip.destroySlots
  refine Kept.trans ?_ (kept_kwrClear _)
  refine Kept.trans ?_ (kept_condemn _)
  refine Kept.trans ?_ (kept_modKey rfl rfl rfl)
  exact (kept_closeDependants l c).trans (kept_each (fun i c => kept_modSlot i _ c) _ _)

theorem kept_free (n : Nat) (c : Chip) : Kept c { c with free := n } := ⟨rfl, rfl, rfl, rfl, fun _ => id⟩

theorem kept_storageCheck (c : Chip) : Kept c c.storageCheck := kept_commitHalf 0 _ c

theorem kept_newKek (c : Chip) : Kept c c.newKek :=
  ((kept_free _ c).trans (kept_modKey rfl rfl rfl)).trans (kept_storageCheck _)

theorem kept_newLedgerKey (gen : W32) (c : Chip) : Kept c (c.newLedgerKey gen) := by
  have h : Kept c c.draw128.2.draw128.2 := ⟨rfl, rfl, rfl, rfl, fun _ => id⟩
  unfold Chip.newLedgerKey
  exact (h.trans (kept_commitHalf 1 _ _)).trans (kept_modLedger _ _)

theorem kept_vendorEnd (c : Chip) : Kept c c.vendorEnd :=
  kept_ite (kept_each (fun m c => kept_ite (kept_endSession m c) (Kept.refl c)) _ c) (Kept.refl c)

theorem kept_endAllSessions (c : Chip) : Kept c c.endAllSessions :=
  (kept_ite (Kept.refl c) (kept_endSession 0 c)).trans (kept_each (fun m c => kept_closeConn m c) _ _)

end Sys2Proof.Machine
end

section
/-! The commands of the key slots and of the life cycle (R341, R343, R345, R346, R347). -/

namespace Sys2Proof.Machine

open Sys2Proof Sys2Proof.Claims

/-! ### Changes of the life cycle -/

/-- A change of the life cycle with its records, before the new state is in force. -/
def Chip.lcBegun (t : BitVec 3) (c : Chip) : Chip :=
  let f := c.key.lc
  let c := c.when (t == lcRETIRED) Chip.stopMetrology
  let c := c.lcRecords f t
  (c.when (c.canSign || t == lcRETIRED) (Chip.signBehind 0xF c.now)).ledgerFlush

/-- The block in which the new state of the life cycle is in force. -/
def Chip.lcSet (t : BitVec 3) (c : Chip) : Chip :=
  ((c.lcBegun t).modKey (fun k => { k with lc := t })).raise 0x1006 0xFF (w32 c.key.lc.toNat) (w32 t.toNat)

/-- The retirement of a block behind the change of its state. -/
def Chip.retire (every : List Nat) (c : Chip) : Chip :=
  ((((c.destroySlots every).modLedger (fun l => { l with closed := true })).modKey (fun k =>
    { k with kekSeed := 0, idKey := false, zeroPend := false, debug := false, testRoot := false })).plateSessEnd.modLink
      (fun l => { l with plate := { l.plate with key1 := none, key2 := none }, field := false })).endAllSessions

theorem kept_lcBegun (t : BitVec 3) (c : Chip) : Kept c (c.lcBegun t) := by
  have h1 : Kept c (c.when (t == lcRETIRED) Chip.stopMetrology) := kept_when (kept_stopMetrology c)
  unfold Chip.lcBegun
  generalize c.when (t == lcRETIRED) Chip.stopMetrology = d at h1
  have h2 : Kept d (d.lcRecords c.key.lc t) := (recorded_tamperInst _ _ _ _ _ _).kept.trans (recorded_stage _ _ _ _ _).kept
  dsimp only
  generalize d.lcRecords c.key.lc t = e at h2
  exact ((h1.trans h2).trans (kept_when (carried_signBehind _ _ e).kept)).trans (kept_ledgerPutN _ _)

theorem lcSet_facts (t : BitVec 3) (c : Chip) : (c.lcSet t).key.lc = t ∧ (c.lcSet t).key.pending = c.key.pending ∧
    ∀ m, (c.master m).conn = true ∨ (c.master m).role = 0 → ((c.lcSet t).master m).conn = true ∨ ((c.lcSet t).master m).role = 0 := by
  have h := kept_lcBegun t c
  unfold Chip.lcSet
  generalize c.lcBegun t = d at h
  have hr := (noted_raise 0x1006 0xFF (w32 c.key.lc.toNat) (w32 t.toNat) (d.modKey (fun k => { k with lc := t }))).kept
  exact ⟨hr.lc, hr.pending.trans h.pending, fun m hm => hr.parted m (h.parted m hm)⟩

/-- The keys that a change of the life cycle destroys, and those it draws anew. -/
def Chip.lcOpened (f t : BitVec 3) (every : List Nat) (c : Chip) : Chip :=
  let debug := t == lcSERVICEDEBUG
  (c.destroySlots every).modKey (fun k =>
    { k with debug := debug, testRoot := debug, helper := if f = lcMANUFACTURE then k.helper + 1 else k.helper })

def Chip.redrawn (f t : BitVec 3) (gen : W32) (every : List Nat) (c : Chip) : Chip :=
  let c := c.lcOpened f t every
  ((if t = lcPROVISIONED then c.newKek else c.storageCheck).newLedgerKey gen).when (t == lcPROVISIONED) Chip.plateKeys

/-- What a change of the life cycle but a retirement does behind its new state. -/
def Chip.lcRest (f t : BitVec 3) (every : List Nat) (c : Chip) : Chip :=
  if t = lcDEPLOYED then
    ((c.modKey (fun k => { k with zeroised := false })).modSys
      (fun s => { s with qcause := s.qcause &&& 0xB })).vendorEnd
  else if f = lcDEPLOYED ∧ t = lcPROVISIONED then (c.destroySlots (c.slotsOf [3, 4, 5, 6, 7])).plateKeys
  else
    let gen : W32 := if f = lcMANUFACTURE then 1 else c.ledger.keyGen + 1
    let c := c.redrawn f t gen every
    if f = lcMANUFACTURE then c.stage 1 0 c.now (c.keyBlock gen)
    else (c.when (t == lcSERVICEDEBUG) (Chip.tamperInst 26 0xFF c.now 0 [])).lcKeyRecord f t gen

theorem lcChange_eq {t : BitVec 3} (ht : t ≠ lcRETIRED) (c : Chip) :
    c.lcChange t = (c.lcSet t).lcRest c.key.lc t (c.slotsOf [0, 1, 2, 3, 4, 5, 6, 7]) := by
  unfold Chip.lcChange Chip.lcRest Chip.redrawn Chip.lcOpened Chip.lcSet Chip.lcBegun
  dsimp only
  rw [if_neg ht]

theorem kept_lcOpened (f t : BitVec 3) (every : List Nat) (c : Chip) : Kept c (c.lcOpened f t every) := by
  have h := kept_destroySlots every c
  unfold Chip.lcOpened
  exact h.trans (kept_modKey rfl rfl rfl)

theorem kept_redrawn (f t : BitVec 3) (gen : W32) (every : List Nat) (c : Chip) : Kept c (c.redrawn f t gen every) := by
  have h := kept_lcOpened f t every c
  unfold Chip.redrawn
  generalize c.lcOpened f t every = d at h
  exact ((h.trans (kept_ite (kept_newKek d) (kept_storageCheck d))).trans (kept_newLedgerKey gen _)).trans
    (kept_when (kept_plateKeys _))

theorem kept_lcRest (f t : BitVec 3) (every : List Nat) (c : Chip) : Kept c (c.lcRest f t every) := by
  have h := fun gen => kept_redrawn f t gen every c
  have hz : Kept c (c.modKey (fun k => { k with zeroised := false })) := kept_modKey rfl rfl rfl
  unfold Chip.lcRest
  exact kept_ite ((hz.trans (kept_modSys _ _)).trans (kept_vendorEnd _))
    (kept_ite ((kept_destroySlots _ c).trans (kept_plateKeys _)) (kept_ite ((h _).trans (recorded_stage _ _ _ _ _).kept)
      (((h _).trans (kept_when (recorded_tamperInst _ _ _ _ _ _).kept)).trans (recorded_stage _ _ _ _ _).kept)))

/-! ### The end of every session -/

theorem endSession_ledger (m : Nat) (c : Chip) : (c.endSession m).ledger = c.ledger := by
  obtain ⟨_, _, _, _, h⟩ := ended_endSession c m
  exact h.ledger

theorem closeConn_ledger (m : Nat) (c : Chip) : (c.closeConn m).ledger = c.ledger := by
  unfold Chip.closeConn
  split
  · rfl
  · rw [modMaster_ledger, endSession_ledger]

theorem closeConn_role {j : Nat} (m : Nat) (c : Chip) (h : (c.master j).role = 0) : ((c.closeConn m).master j).role = 0 := by
  unfold Chip.closeConn
  split
  · exact h
  · rw [modMaster_master, endSession_master, endSession_master]
    split
    · rw [if_pos rfl]
    · exact h

theorem endAllSessions_key (c : Chip) : c.endAllSessions.key = c.key := by
  refine (each_keeps Chip.key Chip.closeConn closeConn_key _ _).trans ?_
  split
  · rfl
  · exact endSession_key 0 c

theorem endAllSessions_ledger (c : Chip) : c.endAllSessions.ledger = c.ledger := by
  refine (each_keeps Chip.ledger Chip.closeConn closeConn_ledger _ _).trans ?_
  split
  · rfl
  · exact endSession_ledger 0 c

theorem endAllSessions_role {m : Nat} (hm : m < 5) {c : Chip}
    (h : m ≠ 0 → (c.master m).conn = true ∨ (c.master m).role = 0) : (c.endAllSessions.master m).role = 0 := by
  have hfirst : Kept c (if (c.master 0).role = 0 then c else c.endSession 0) := kept_ite (Kept.refl c) (kept_endSession 0 c)
  have h0 : ((if (c.master 0).role = 0 then c else c.endSession 0).master 0).role = 0 := by
    split
    · assumption
    · rw [endSession_master, if_pos rfl]
  unfold Chip.endAllSessions
  generalize (if (c.master 0).role = 0 then c else c.endSession 0) = d at hfirst h0
  have keeps : ∀ b (c : Chip), (c.master m).role = 0 → ((c.closeConn b).master m).role = 0 := fun b c => closeConn_role b c
  by_cases hz : m = 0
  · subst hz
    exact each_brings (f := Chip.closeConn) (P := fun c => (c.master 0).role = 0) (Q := fun c => (c.master 0).role = 0)
      (a := 1) keeps keeps (keeps 1) [1, 2, 3, 4] d (by decide) h0
  · refine each_brings (f := Chip.closeConn) (P := fun c => (c.master m).conn = true ∨ (c.master m).role = 0)
      (Q := fun c => (c.master m).role = 0) (a := m) (fun b c => (kept_closeConn b c).parted m) keeps (fun c hc => ?_)
      [1, 2, 3, 4] d ?_ (hfirst.parted m (h hz))
    · rcases hc with hc | hc
      · exact closeConn_master hz c hc
      · exact keeps m c hc
    · have : m = 1 ∨ m = 2 ∨ m = 3 ∨ m = 4 := by omega
      rcases this with rfl | rfl | rfl | rfl <;> decide

theorem plateSessEnd_ledger (c : Chip) : c.plateSessEnd.ledger = c.ledger := by
  unfold Chip.plateSessEnd Chip.platePkt
  dsimp only
  split
  · split
    · exact fqPut_ledger ..
    · rfl
  · rfl

/-- A retirement ends every session, overwrites the seed and closes the ledger. -/
theorem retire_facts (every : List Nat) (c : Chip) : (c.retire every).key.lc = c.key.lc ∧
    (c.retire every).key.pending = c.key.pending ∧ (c.retire every).key.kekSeed = 0 ∧
    (c.retire every).ledger.closed = true ∧
    ∀ m : Nat, m < 5 → (m ≠ 0 → (c.master m).conn = true ∨ (c.master m).role = 0) → ((c.retire every).master m).role = 0 := by
  have h := kept_destroySlots every c
  unfold Chip.retire
  generalize c.destroySlots every = d at h
  rw [endAllSessions_key, endAllSessions_ledger, modLink_key, modLink_ledger, plateSessEnd_key, plateSessEnd_ledger]
  refine ⟨h.lc, h.pending, rfl, rfl, fun m hm hp => endAllSessions_role hm (fun hz => ?_)⟩
  exact ((kept_plateSessEnd _).trans (kept_modLink _ _)).parted m (h.parted m (hp hz))

theorem lcChange_retired (c : Chip) :
    c.lcChange lcRETIRED = (c.lcSet lcRETIRED).retire (c.slotsOf [0, 1, 2, 3, 4, 5, 6, 7]) := by
  unfold Chip.lcChange Chip.retire Chip.lcSet Chip.lcBegun
  dsimp only
  rfl

/-- A change of the life cycle leaves its state and SC's operations. -/
theorem lcChange_key (t : BitVec 3) (c : Chip) : (c.lcChange t).key.lc = t ∧ (c.lcChange t).key.pending = c.key.pending := by
  obtain ⟨hl, hp, -⟩ := lcSet_facts t c
  by_cases ht : t = lcRETIRED
  · subst ht
    obtain ⟨h1, h2, -⟩ := retire_facts (c.slotsOf [0, 1, 2, 3, 4, 5, 6, 7]) (c.lcSet lcRETIRED)
    rw [lcChange_retired]
    exact ⟨h1.trans hl, h2.trans hp⟩
  · have h := kept_lcRest c.key.lc t (c.slotsOf [0, 1, 2, 3, 4, 5, 6, 7]) (c.lcSet t)
    rw [← lcChange_eq ht] at h
    exact ⟨h.lc.trans hl, h.pending.trans hp⟩

/-! ### Key messages -/

theorem ofLe_lt : ∀ l : List W8, ofLe l < 256 ^ l.length
  | [] => by decide
  | b :: t => by
    have h := ofLe_lt t
    have hb := b.isLt
    rw [ofLe, List.length_cons, pow_succ]
    omega

theorem leAt_toNat (l : List W8) (o : Nat) : (w32 (leAt l o 4)).toNat = leAt l o 4 := by
  have h := ofLe_lt (slice l o 4)
  have hl : (slice l o 4).length ≤ 4 := List.length_take_le _ _
  have hp : 256 ^ (slice l o 4).length ≤ 256 ^ 4 := Nat.pow_le_pow_right (by decide) hl
  have hlt : leAt l o 4 < 2 ^ 32 := lt_of_lt_of_le h hp
  exact (BitVec.toNat_ofNat _ _).trans (Nat.mod_eq_of_lt hlt)

/-- The other branch of a choice, where the first does not answer what is answered. -/
theorem else_of {α : Type} {p : Prop} [Decidable p] {x y z : α} (h : (if p then x else y) = z) (hx : p → x ≠ z) :
    ¬ p ∧ y = z := by
  split at h
  · next hp => exact absurd h (hx hp)
  · next hp => exact ⟨hp, h⟩

theorem refused_ne {st : W8} (h : st ≠ 0) (mat : List W8) : ((st, []) : W8 × List W8) ≠ (0, mat) :=
  fun he => h (congrArg Prod.fst he)

/-- What a key message that passes its checks is known by: the session's role has no part in it, and its generation is new. -/
theorem msgCheck_ok {c : Chip} {role : Nat} {b mat : List W8} (hr : role ≠ roleVENDOR)
    (h : c.msgCheck role b = (0, mat)) : (∀ role', c.msgCheck role' b = (0, mat)) ∧
      (c.kslot (leAt b 0x14 1)).lastGen.toNat < leAt b 0x18 4 := by
  unfold Chip.msgCheck at h
  dsimp only at h
  obtain ⟨h1, h⟩ := else_of h (fun _ => refused_ne (by decide) mat)
  obtain ⟨h2, h⟩ := else_of h (fun _ => refused_ne (by decide) mat)
  obtain ⟨h3, h⟩ := else_of h (fun _ => refused_ne (by decide) mat)
  obtain ⟨h4, h⟩ := else_of h (fun _ => refused_ne (by decide) mat)
  obtain ⟨h5, h⟩ := else_of h (fun hp => refused_ne hp mat)
  obtain ⟨h6, h⟩ := else_of h (fun _ => refused_ne (by decide) mat)
  have hauth : leAt b 0x1D 1 ≠ 0x3F := fun ha => h4 ⟨ha, .inl hr⟩
  refine ⟨fun role' => ?_, Nat.not_le.mp (not_or.mp h6).2⟩
  exact (if_neg h1).trans ((if_neg h2).trans ((if_neg h3).trans ((if_neg (fun hp => hauth hp.1)).trans
    ((if_neg h5).trans ((if_neg h6).trans h)))))

/-- The half of a slot that a key message writes. -/
def msgHalf (c : Chip) (b mat : List W8) : Half :=
  let par : BitVec 6 := BitVec.ofNat 6 (leAt b 0x17 1)
  { gen := w32 (leAt b 0x18 4), cls := leAt b 0x15 1, typ := leAt b 0x16 1, dest := BitVec.ofNat 5 (leAt b 0x1C 1),
    compat := leAt b 0x1E 1 / 2 % 2 == 1, parent := par,
    pgen := if par = 0x3F then 0 else (c.kslot par.toNat).half.gen, ctr := w32 (leAt b 0x10 4), mat := mat }

/-- The slot of a key message is written or emptied. -/
def Chip.msgSlot (b mat : List W8) (c : Chip) : Chip :=
  if leAt b 0x1E 1 % 2 = 1 then
    (c.emptySlot (leAt b 0x14 1)).modSlot (leAt b 0x14 1) (fun s => { s with lastGen := w32 (leAt b 0x18 4) })
  else c.commitHalf (leAt b 0x14 1) (msgHalf c b mat)

theorem msgApply_eq (m : Nat) (b mat : List W8) (c : Chip) : c.msgApply m b mat =
    (((c.msgSlot b mat).modKey (fun k => { k with ctr := w32 (leAt b 0x10 4) })).keyChanged (leAt b 0x14 1)).secretChanged m
      (leAt b 0x14 1) := by
  unfold Chip.msgApply Chip.msgSlot msgHalf
  rfl

theorem kept_msgSlot (b mat : List W8) (c : Chip) : Kept c (c.msgSlot b mat) :=
  kept_ite ((kept_modSlot _ _ c).trans (kept_modSlot _ _ _)) (kept_commitHalf _ _ c)

/-- What a slot holds of its key: whether it is empty, its generations, and the class and type of its half. -/
def Slot.shown (s : Slot) : Bool × W32 × W32 × Nat × Nat := (s.empty, s.lastGen, s.half.gen, s.half.cls, s.half.typ)

theorem shown_of_core {s t : Slot} (h : s.core = t.core) : s.shown = t.shown := by
  have hs : ∀ s : Slot, s.shown = s.core.shown := fun s => by
    unfold Slot.shown Slot.core Slot.half
    dsimp only
    split <;> rfl
  rw [hs s, hs t, h]

theorem msgSlot_shown {b mat : List W8} {c : Chip} (hg : (c.kslot (leAt b 0x14 1)).lastGen.toNat < leAt b 0x18 4) :
    ((c.msgSlot b mat).kslot (leAt b 0x14 1)).lastGen = w32 (leAt b 0x18 4) ∧
    (leAt b 0x1E 1 % 2 = 1 → ((c.msgSlot b mat).kslot (leAt b 0x14 1)).empty = true) ∧
    (leAt b 0x1E 1 % 2 = 0 → ((c.msgSlot b mat).kslot (leAt b 0x14 1)).shown =
      (false, w32 (leAt b 0x18 4), w32 (leAt b 0x18 4), leAt b 0x15 1, leAt b 0x16 1)) := by
  unfold Chip.msgSlot
  split
  · next h1 =>
    rw [modSlot_kslot, if_pos rfl]
    refine ⟨rfl, fun _ => ?_, fun h0 => by omega⟩
    show ((c.emptySlot _).kslot _).empty = true
    unfold Chip.emptySlot
    rw [modSlot_kslot, if_pos rfl]
  · next h1 =>
    have hlast : (c.kslot (leAt b 0x14 1)).lastGen.toNat < (w32 (leAt b 0x18 4)).toNat := by
      rw [leAt_toNat]
      exact hg
    have hs : ((c.commitHalf (leAt b 0x14 1) (msgHalf c b mat)).kslot (leAt b 0x14 1)).shown =
        (false, w32 (leAt b 0x18 4), w32 (leAt b 0x18 4), leAt b 0x15 1, leAt b 0x16 1) := by
      unfold Chip.commitHalf
      dsimp only
      rw [modSlot_kslot, if_pos rfl]
      unfold Slot.shown Slot.half
      cases (c.kslot (leAt b 0x14 1)).useB <;> simp [msgHalf, hlast]
    exact ⟨congrArg (fun p => p.2.1) hs, fun h => absurd h h1, fun _ => hs⟩

/-! ### Operations whose work is done with the command -/

/-- What a key operation leaves whose checks and work are done with the command. -/
def Ends (r : CmdReq) (res : Nat) (c d : Chip) : Prop := acked r 0x01 c.tix.next d ∧
  d.key.pending = c.key.pending ++ [{ ticket := c.tix.next, st := 0, res := BitVec.ofNat 32 res }]

/-- A block with an operation of SC outstanding that has passed its checks. -/
def Chip.jobDone (t : W16) (res : W32) (c : Chip) : Chip :=
  c.modKey (fun k => { k with pending := k.pending ++ [{ ticket := t, st := stOK, res := res }] })

theorem jobDone_pending (t : W16) (res : W32) (c : Chip) :
    (c.jobDone t res).key.pending = c.key.pending ++ [{ ticket := t, st := 0, res := res }] := rfl

theorem keyLong_done (r : CmdReq) (code i : Nat) {st : W8} (hst : st = stOK) (res : W32) (c : Chip) (f : Chip → Chip)
    (hfull : c.tixFull = false) : Chip.keyLong r code i st res (argued r c) f =
      ((f (issued r code i c)).jobDone c.tix.next res, { st := stPENDING, ticket := c.tix.next }) := by
  unfold Chip.keyLong
  rw [long_issued _ _ _ _ hfull, if_pos hst, hst]
  rfl

section
variable {r : CmdReq} {s : State}

/-- A key operation that its command has done completes PENDING, with SC's operation and the keys as they were left. -/
theorem completes_keyDone {f : CmdReq → Instr} {x : CmdRow} {d : Chip} {res : Nat} (hmem : (f, x) ∈ commandRows)
    (ht : takes x r s.chip) (hp : d.key.pending = s.chip.key.pending)
    (hfn : x.fn r (argued r s.chip) = (d.jobDone s.chip.tix.next (BitVec.ofNat 32 res),
      { st := stPENDING, ticket := s.chip.tix.next })) :
    completes (f r) s (fun e => Ends r res s.chip e ∧
      e.key = (d.jobDone s.chip.tix.next (BitVec.ofNat 32 res)).key ∧ e.upd = d.upd ∧
      e.ledger.closed = d.ledger.closed ∧ (e.master r.m.val).role = (d.master r.m.val).role) := by
  refine completes_acknowledged (commandRows_exec _ hmem r s) (commandRows_blind _ hmem) ht hfn (fun e hans _ => ?_)
  have hk : (Chip.settle s.chip e).key = _ := (settle_key _ _).trans (hans.same Chip.key)
  obtain ⟨x, hx⟩ := settle_master s.chip e r.m.val
  obtain ⟨b, hb⟩ := hans.mine
  refine ⟨⟨settle_acked _ _ hans.acked, ?_⟩, hk, (settle_upd _ _).trans (hans.same Chip.upd),
    (settle_closed _ _).trans (hans.same (fun d => d.ledger.closed)), ?_⟩
  · rw [hk, jobDone_pending, hp]
  · rw [hx, hb]
    rfl

theorem completes_keyUpdate {x : Staging} {mat : List W8} (ht : takes rowKeyUpdate r s.chip) (hfull : s.chip.tixFull = false)
    (hx : s.chip.upd.stagings.find? (fun y => y.ticket.toNat == r.a0.toNat % 65536 && y.kind == 4 && y.done) = some x)
    (hok : s.chip.msgCheck r.m.val x.got = (0, mat)) : completes (.keyUpdate r) s (fun d =>
        let j := leAt x.got 0x14 1
        Ends r (leAt x.got 0x18 4) s.chip d ∧ d.key.ctr.toNat = leAt x.got 0x10 4 ∧
        (d.kslot j).lastGen.toNat = leAt x.got 0x18 4 ∧
        (leAt x.got 0x1E 1 % 2 = 1 → (d.kslot j).empty = true) ∧
        (leAt x.got 0x1E 1 % 2 = 0 → (d.kslot j).half.gen.toNat = leAt x.got 0x18 4 ∧
          (d.kslot j).half.cls = leAt x.got 0x15 1 ∧ (d.kslot j).half.typ = leAt x.got 0x16 1) ∧
        (∀ y ∈ d.upd.stagings, y.ticket ≠ x.ticket)) := by
  rw [← show fld r.a0 0 16 = r.a0.toNat % 65536 from fld_low _ _] at hx
  have hm := r.m.isLt
  obtain ⟨hrole, hgen⟩ := msgCheck_ok (show r.m.val ≠ roleVENDOR by unfold roleVENDOR; omega) hok
  have hok' : (argued r s.chip).msgCheck ((argued r s.chip).master r.m.val).role.toNat x.got = (0, mat) := hrole _
  let c0 := (issued r 0x1006 (leAt x.got 0x14 1) s.chip).modUpd
    (fun u => { u with stagings := u.stagings.filter (fun y => y.ticket != x.ticket) })
  have hfn : cmdKeyUpdate r (argued r s.chip) = ((c0.msgApply r.m.val x.got mat).jobDone s.chip.tix.next
      (BitVec.ofNat 32 (leAt x.got 0x18 4)), { st := stPENDING, ticket := s.chip.tix.next }) := by
    have hx' : (argued r s.chip).upd.stagings.find? (fun y => y.ticket.toNat == fld r.a0 0 16 && y.kind == 4 && y.done) =
        some x := hx
    unfold cmdKeyUpdate
    dsimp only
    rw [hx']
    dsimp only
    rw [hok']
    exact keyLong_done _ _ _ rfl _ _ _ hfull
  have hstag : ∀ y ∈ c0.upd.stagings, y.ticket ≠ x.ticket := fun y hy => bne_iff_ne.mp (List.mem_filter.mp hy).2
  have hp0 : c0.key.pending = s.chip.key.pending := rfl
  have h1 := kept_msgSlot x.got mat c0
  obtain ⟨hlast, hempty, hshown⟩ := msgSlot_shown (b := x.got) (mat := mat) (c := c0) hgen
  rw [msgApply_eq] at hfn
  generalize c0.msgSlot x.got mat = c1 at h1 hlast hempty hshown hfn
  have hctr : (c1.modKey (fun k => { k with ctr := w32 (leAt x.got 0x10 4) })).key.ctr = w32 (leAt x.got 0x10 4) := rfl
  have hslot : ∀ j, (c1.modKey (fun k => { k with ctr := w32 (leAt x.got 0x10 4) })).kslot j = c1.kslot j := fun _ => rfl
  have hp : (c1.modKey (fun k => { k with ctr := w32 (leAt x.got 0x10 4) })).key.pending = c1.key.pending := rfl
  have hu : (c1.modKey (fun k => { k with ctr := w32 (leAt x.got 0x10 4) })).upd = c1.upd := rfl
  generalize c1.modKey _ = c2 at hfn hctr hslot hp hu
  have h2 := (kept_keyChanged (leAt x.got 0x14 1) c2).trans (kept_secretChanged r.m.val (leAt x.got 0x14 1) _)
  have hcore : (((c2.keyChanged (leAt x.got 0x14 1)).secretChanged r.m.val (leAt x.got 0x14 1)).kslot (leAt x.got 0x14 1)).core =
      (c1.kslot (leAt x.got 0x14 1)).core := by
    rw [slot_core (secretChanged_key _ _ _), keyChanged_core, hslot]
  generalize Chip.secretChanged _ _ _ = z at hfn h2 hcore
  have hz := shown_of_core hcore
  refine completes_imp (completes_keyDone (f := .keyUpdate) (x := rowKeyUpdate) (by simp [commandRows]) ht
    (h2.pending.trans (hp.trans (h1.pending.trans hp0))) hfn) (fun d ⟨hends, hk, hud, _, _⟩ => ?_)
  have hd : (d.kslot (leAt x.got 0x14 1)).shown = (c1.kslot (leAt x.got 0x14 1)).shown := by
    rw [← hz]
    unfold Chip.kslot
    rw [hk]
    rfl
  have hgenNat := leAt_toNat x.got 0x18
  refine ⟨hends, ?_, ?_, fun h => ?_, fun h => ?_, ?_⟩
  · rw [hk]
    show z.key.ctr.toNat = _
    rw [h2.ctr, hctr, leAt_toNat]
  · rw [show (d.kslot (leAt x.got 0x14 1)).lastGen = _ from congrArg (fun p => p.2.1) hd]
    show (c1.kslot _).lastGen.toNat = _
    rw [hlast, hgenNat]
  · exact (congrArg (fun p => p.1) hd).trans (hempty h)
  · have hs := hd.trans (hshown h)
    refine ⟨?_, congrArg (fun p => p.2.2.2.1) hs, congrArg (fun p => p.2.2.2.2) hs⟩
    rw [show (d.kslot (leAt x.got 0x14 1)).half.gen = _ from congrArg (fun p => p.2.2.1) hs]
    exact hgenNat
  · rw [hud, h2.stagings, hu, h1.stagings]
    exact hstag

/-- Every state that a change of the life cycle can lead to is at most RETIRED (4). -/
theorem lcRow_le {f t : BitVec 3} {p : Bool × Bool} (h : lcRow f t = some p) : t.toNat ≤ 4 := by
  have hle : ∀ {u : BitVec 3}, u.toNat ≤ 4 → t = u → t.toNat ≤ 4 := fun hu ht => ht ▸ hu
  unfold lcRow at h
  split at h
  · next hp => exact hle (by decide) hp.2
  split at h
  · next hp => exact hle (by decide) hp.2
  split at h
  · next hp => exact hle (by decide) hp.2
  split at h
  · next hp => exact hle (by decide) hp.2
  split at h
  · next hp => exact hle (by decide) hp.2
  split at h
  · next hp => exact hle (by decide) hp.2
  · cases h

/-- The retirement of a block in which a master is connected ends its session. -/
theorem lcChange_retires {t : BitVec 3} (ht : t = lcRETIRED) {m : Nat} (hm : m < 5) {c : Chip}
    (hc : m ≠ 0 → (c.master m).conn = true) : ((c.lcChange t).master m).role = 0 ∧ (c.lcChange t).key.kekSeed = 0 ∧
      (c.lcChange t).ledger.closed = true := by
  subst ht
  obtain ⟨-, -, hpart⟩ := lcSet_facts lcRETIRED c
  obtain ⟨-, -, hkek, hclosed, hrole⟩ := retire_facts (c.slotsOf [0, 1, 2, 3, 4, 5, 6, 7]) (c.lcSet lcRETIRED)
  rw [← lcChange_retired] at hkek hclosed hrole
  exact ⟨hrole m hm (fun hz => hpart m (.inl (hc hz))), hkek, hclosed⟩

theorem completes_keyLcSet {t : BitVec 3} {vendor lsw : Bool} (ht : takes rowKeyLcSet r s.chip)
    (hfull : s.chip.tixFull = false) (hn : r.a0.toNat % 16 = t.toNat) (hrow : lcRow s.chip.key.lc t = some (vendor, lsw))
    (hid : r.a1.toNat = s.chip.sys.deviceId.toNat % 2 ^ 32) (hlsw : lsw = true → s.chip.tamper.lsw = true)
    (hdep : t = 2 → s.chip.mayDeploy = true) :
      completes (.keyLcSet r) s (fun d => Ends r 0 s.chip d ∧ d.key.lc = t ∧
        (t = 4 → (d.master r.m.val).role = 0 ∧ d.key.kekSeed = 0 ∧ d.ledger.closed = true)) := by
  rw [← show fld r.a0 0 4 = r.a0.toNat % 16 from fld_low _ _] at hn
  have ht4 := lcRow_le hrow
  have hof : BitVec.ofNat 3 (fld r.a0 0 4) = t := by
    rw [hn, BitVec.ofNat_toNat, BitVec.setWidth_eq]
  have hfn : cmdKeyLcSet r (argued r s.chip) =
      (((issued r 0x100A (fld r.a0 0 4) s.chip).lcChange t).jobDone s.chip.tix.next (BitVec.ofNat 32 0),
        { st := stPENDING, ticket := s.chip.tix.next }) := by
    have hrow' : (if 4 < fld r.a0 0 4 then none else lcRow (argued r s.chip).key.lc (BitVec.ofNat 3 (fld r.a0 0 4))) =
        some (vendor, lsw) := by
      rw [if_neg (by omega), hof]
      exact hrow
    unfold cmdKeyLcSet
    dsimp only
    rw [hrow', hof]
    exact (if_neg (not_not.mpr hid)).trans ((if_neg (fun h => h.2 (hlsw h.1))).trans ((if_neg (fun h => h.2 (hdep h.1))).trans
      (keyLong_done _ _ _ rfl _ _ _ hfull)))
  obtain ⟨hl, hp⟩ := lcChange_key t (issued r 0x100A (fld r.a0 0 4) s.chip)
  have hconn : r.m.val ≠ 0 → ((issued r 0x100A (fld r.a0 0 4) s.chip).master r.m.val).conn = true := fun hm => by
    have hhear : (if r.m.val = 0 then _ else (s.chip.master r.m.val).conn) = true := ht.1
    rw [if_neg hm] at hhear
    exact (argued_conn r s.chip r.m.val).trans hhear
  have hret := fun h : t = 4 => lcChange_retires h r.m.isLt hconn
  generalize Chip.lcChange _ _ = z at hfn hl hp hret
  refine completes_imp (completes_keyDone (f := .keyLcSet) (x := rowKeyLcSet) (by simp [commandRows]) ht hp hfn)
    (fun d ⟨hends, hk, _, hc, hr⟩ => ⟨hends, ?_, fun h4 => ?_⟩)
  · rw [hk]
    exact hl
  · obtain ⟨h1, h2, h3⟩ := hret h4
    refine ⟨hr.trans h1, ?_, hc.trans h3⟩
    rw [hk]
    exact h2

/-! ### Operations that their ticket completes, and a slot that is invalidated -/

theorem completes_keyReplace (hs : Settled s) {i : Nat} (hn : r.a0.toNat % 64 = i) (ht : takes rowKeyReplace r s.chip)
    (hfull : s.chip.tixFull = false) (he : (s.chip.kslot i).empty = false) (hc : (s.chip.kslot i).half.compat = true)
    (htyp : (s.chip.kslot i).half.typ = 1 ∨ (s.chip.kslot i).half.typ = 2)
    (hlen : r.a1.toNat = (if (s.chip.kslot i).half.typ = 1 then 24 else 40) + 4) (hu : s.chip.slotUsable i = true) :
    completes (.keyReplace r) s (Starts r 0x1007 i s.chip) := by
  rw [← show fld r.a0 0 6 = r.a0.toNat % 64 from fld_low _ _] at hn
  subst hn
  refine completes_keyWork (f := .keyReplace) (x := rowKeyReplace) hs (by simp [commandRows]) ht hfull ?_
  have hbad : s.chip.replaceBad (fld r.a0 0 6) r.a1.toNat = stOK := by
    have ht' : ((s.chip.kslot (fld r.a0 0 6)).half.typ == 1 || (s.chip.kslot (fld r.a0 0 6)).half.typ == 2) = true := by
      simpa using htyp
    have hl : (r.a1.toNat != wrapLen (s.chip.kslot (fld r.a0 0 6)).half.typ + 4) = false := by
      rw [hlen]
      exact bne_self_eq_false _
    exact (if_neg (by omega)).trans ((if_neg (by simp only [he, hc, ht', hl]; decide)).trans
      (if_neg (by rw [hu]; decide)))
  exact if_neg (not_not.mpr hbad)

theorem completes_keyDerive (hs : Settled s) {i p typ dest : Nat} (hn : r.a0.toNat % 64 = i) (hpn : r.a1.toNat % 64 = p)
    (htn : r.a3.toNat / 2 ^ 28 = typ) (hdn : r.a3.toNat % 32 = dest) (ht : takes rowKeyDerive r s.chip)
    (hfull : s.chip.tixFull = false) (h0 : 0 < r.a2.toNat) (h64 : r.a2.toNat ≤ 64) (hi : 2 ≤ i) (hp : 2 ≤ p)
    (hp3 : p ≠ 0x3F) (hip : i ≠ p) (hst : s.chip.slotState i ≠ 1) (he : (s.chip.kslot p).empty = false)
    (hu : s.chip.slotUsable p = true) (hpt1 : 1 ≤ (s.chip.kslot p).half.typ) (hpt3 : (s.chip.kslot p).half.typ ≤ 3)
    (ht1 : 1 ≤ typ) (ht3 : typ ≤ 3) (hfit : keyFits (s.chip.kslot p).half.cls typ dest = true)
    (hdest : (dest &&& (s.chip.kslot p).half.dest.toNat) = dest) :
    completes (.keyDerive r) s (Starts r 0x1009 i s.chip) := by
  rw [← show fld r.a0 0 6 = r.a0.toNat % 64 from fld_low _ _] at hn
  rw [← show fld r.a1 0 6 = r.a1.toNat % 64 from fld_low _ _] at hpn
  rw [← show fld r.a3 0 5 = r.a3.toNat % 32 from fld_low _ _] at hdn
  have htn : fld r.a3 28 4 = typ := by
    have := r.a3.isLt
    rw [← htn]
    unfold fld
    rw [Nat.shiftRight_eq_div_pow]
    exact Nat.mod_eq_of_lt (by omega)
  subst hn hpn htn hdn
  refine completes_keyWork (f := .keyDerive) (x := rowKeyDerive) hs (by simp [commandRows]) ht hfull ?_
  have hbad : s.chip.deriveBad (fld r.a0 0 6) (fld r.a1 0 6) r.a2.toNat (fld r.a3 28 4) (fld r.a3 0 5) = stOK := by
    refine (if_neg (by omega)).trans ((if_neg ?_).trans ((if_neg (by rw [hu]; decide)).trans (if_neg ?_)))
    · rw [he]
      simp only [not_or]
      exact ⟨by omega, by omega, by omega, hip, hst, by decide⟩
    · simp [hfit, hdest, hp3]
      omega
  exact if_neg (not_not.mpr hbad)

theorem completes_keyInvalidate {i : Nat} (hn : r.a0.toNat % 64 = i) (ht : takes rowKeyInvalidate r s.chip) (hi : 2 ≤ i)
    (he : (s.chip.kslot i).empty = false) (hu : s.chip.slotUsable i = true) :
    completes (.keyInvalidate r) s (fun d => acked r 0 0 d ∧ (d.kslot i).empty = true ∧
        (d.kslot i).lastGen = (s.chip.kslot i).lastGen ∧ d.key.lc = s.chip.key.lc) := by
  rw [← show fld r.a0 0 6 = r.a0.toNat % 64 from fld_low _ _] at hn
  subst hn
  have hfn : cmdKeyInvalidate r (argued r s.chip) = ((((argued r s.chip).emptySlot (fld r.a0 0 6)).condemn).secretChanged
      r.m.val (fld r.a0 0 6), {}) := (if_neg (Nat.not_lt.mpr hi)).trans ((if_neg (by
    show ¬ (s.chip.kslot (fld r.a0 0 6)).empty = true
    rw [he]
    decide)).trans (if_neg (by
    show ¬ (!s.chip.slotUsable (fld r.a0 0 6)) = true
    rw [hu]
    decide)))
  have hkept := ((kept_modSlot (fld r.a0 0 6) (fun s => { s with a := {}, b := {}, useB := false, empty := true, condemned := false })
    (argued r s.chip)).trans (kept_condemn _)).trans (kept_secretChanged r.m.val (fld r.a0 0 6) _)
  have hcore : (((((argued r s.chip).emptySlot (fld r.a0 0 6)).condemn).secretChanged r.m.val (fld r.a0 0 6)).kslot
      (fld r.a0 0 6)).core = (((argued r s.chip).emptySlot (fld r.a0 0 6)).kslot (fld r.a0 0 6)).core := by
    rw [slot_core (secretChanged_key _ _ _), condemn_core]
  have hempty : ((argued r s.chip).emptySlot (fld r.a0 0 6)).kslot (fld r.a0 0 6) = { s.chip.kslot (fld r.a0 0 6) with
      a := {}, b := {}, useB := false, empty := true, condemned := false } := (modSlot_kslot ..).trans (if_pos rfl)
  rw [hempty] at hcore
  change Kept _ ((((argued r s.chip).emptySlot (fld r.a0 0 6)).condemn).secretChanged r.m.val (fld r.a0 0 6)) at hkept
  generalize Chip.secretChanged _ _ _ = z at hfn hkept hcore
  refine completes_acknowledged (x := rowKeyInvalidate) rfl ⟨fun _ _ => rfl, fun _ _ => rfl⟩ ht hfn (fun e hans _ => ?_)
  have hk : (Chip.settle s.chip e).key = z.key := (settle_key _ _).trans (hans.same Chip.key)
  have hz := shown_of_core hcore
  refine ⟨settle_acked _ _ hans.acked, ?_, ?_, ?_⟩
  · unfold Chip.kslot
    rw [hk]
    exact congrArg (fun p => p.1) hz
  · unfold Chip.kslot
    rw [hk]
    exact congrArg (fun p => p.2.1) hz
  · rw [hk]
    exact hkept.lc

end

/-- Settles O35: the commands of the key slots and of the life cycle. -/
theorem keySlotCommands : Obligations.KeySlotCommands := by
  unfold Obligations.KeySlotCommands
  intro r x mat t vendor lsw s hs
  exact ⟨completes_keyUpdate, completes_keyReplace hs rfl, completes_keyInvalidate rfl, completes_keyDerive hs rfl rfl rfl rfl,
    fun ht hfull hn hrow _ hid hlsw hdep => completes_keyLcSet ht hfull hn hrow hid hlsw hdep⟩

end Sys2Proof.Machine
end

section
/-! The completion of the key operations by their tickets (R44, R341, R342, R343, R346, R353). -/

namespace Sys2Proof.Machine

open Sys2Proof Sys2Proof.Claims

/-! ### What key operations leave of the tickets -/

theorem Noted.tame {c d : Chip} (h : Noted c d) : Tame c d := h.carried.tame

theorem Recorded.tame {c d : Chip} : Recorded c d → Tame c d := by
  rintro ⟨_, _, _, _, _, rfl⟩
  exact ⟨rfl, rfl, rfl, fun _ => id⟩

theorem Ended.tame {c d : Chip} : Ended c d → Tame c d := by
  rintro ⟨_, _, _, _, _, _, _, rfl⟩
  exact ⟨rfl, rfl, rfl, fun _ => id⟩

theorem tame_modMaster (m : Nat) (g : Master → Master) (c : Chip) : Tame c (c.modMaster m g) := ⟨rfl, rfl, rfl, fun _ => id⟩

theorem tame_modLink (g : Link → Link) (c : Chip) : Tame c (c.modLink g) := ⟨rfl, rfl, rfl, fun _ => id⟩

theorem tame_modBay (g : Bay → Bay) (c : Chip) : Tame c (c.modBay g) := ⟨rfl, rfl, rfl, fun _ => id⟩

theorem tame_modKey {g : Key → Key} {c : Chip} (h : (g c.key).lc = c.key.lc) : Tame c (c.modKey g) :=
  ⟨rfl, rfl, by unfold Chip.retired; rw [show (c.modKey g).key.lc = c.key.lc from h],
    fun i hi => ((calm_modKey h).pulse i).symm.trans hi⟩

theorem tame_modSlot (i : Nat) (g : Slot → Slot) (c : Chip) : Tame c (c.modSlot i g) := ⟨rfl, rfl, rfl, fun _ => id⟩

theorem tame_commitHalf (i : Nat) (h : Half) (c : Chip) : Tame c (c.commitHalf i h) := ⟨rfl, rfl, rfl, fun _ => id⟩

theorem tame_endSession (m : Nat) (c : Chip) : Tame c (c.endSession m) := (ended_endSession c m).tame

theorem tame_closeConn (m : Nat) (c : Chip) : Tame c (c.closeConn m) :=
  tame_ite (Tame.refl c) ((tame_endSession m c).trans (tame_modMaster m _ _))

theorem tame_sessClosed (n : Nat) (c : Chip) : Tame c (c.sessClosed n) := (noted_raise _ _ _ _ c).tame

theorem tame_platePkt (what block count : Nat) (ver : W16) (c : Chip) : Tame c (c.platePkt what block count ver) :=
  tame_ite (noted_fqPut _ _ c).tame (tame_modLink _ c)

theorem tame_plateSessEnd (c : Chip) : Tame c c.plateSessEnd :=
  tame_ite ((tame_modLink _ c).trans (tame_platePkt _ _ _ _ _)) (tame_modLink _ c)

theorem tame_v2gAbort (q : V2gReq) (c : Chip) : Tame c (c.v2gAbort q) :=
  ((noted_raise _ _ _ _ c).tame.trans (tame_modBay _ _)).trans (carried_v2gPost _ _ _ _).tame

theorem tame_closeDependants (l : List Nat) (c : Chip) : Tame c (c.closeDependants l) := by
  have h1 : Tame c (c.dependSessions l) := tame_each (fun m c => tame_ite (Tame.refl c)
    (tame_ite ((tame_endSession 0 c).trans (tame_sessClosed 0 _))
      (((tame_modMaster m _ c).trans (tame_closeConn m _)).trans (tame_sessClosed m _)))) _ c
  have h2 : ∀ c : Chip, Tame c (c.dependPlate l) := fun c =>
    tame_ite ((tame_plateSessEnd c).trans (tame_sessClosed _ _)) (Tame.refl c)
  have h3 : ∀ c : Chip, Tame c (c.dependV2g l) := fun c =>
    tame_ite ((tame_v2gAbort {} c).trans (tame_sessClosed _ _)) (Tame.refl c)
  rw [closeDependants_eq]
  exact (h1.trans (h2 _)).trans (h3 _)

theorem tame_plateErase (l : List Nat) (c : Chip) : Tame c (c.plateErase l) := tame_modLink _ c

theorem tame_condemnFinish (l : List Nat) (c : Chip) : Tame c (c.condemnFinish l) := by
  unfold Chip.condemnFinish
  dsimp only
  refine Tame.trans ?_ (tame_each (fun _ c => (noted_raise _ _ _ _ c).tame) _ _)
  refine Tame.trans ?_ (tame_each (fun i c => tame_modSlot i _ c) _ _)
  exact (tame_closeDependants l c).trans (tame_plateErase l _)

theorem tame_condemn (c : Chip) : Tame c c.condemn := by
  have h := fun l => tame_each (fun i c => tame_modSlot i (fun s => { s with condemned := true }) c) l c
  unfold Chip.condemn
  dsimp only
  exact tame_ite (Tame.refl c) (tame_ite ((h _).trans (tame_modKey rfl))
    (tame_ite (h _) ((h _).trans (tame_condemnFinish _ _))))

theorem tame_secretChanged (m i : Nat) (c : Chip) : Tame c (c.secretChanged m i) :=
  tame_each (fun n c => tame_ite (tame_endSession n c) (Tame.refl c)) _ c

theorem tame_keyChanged (i : Nat) (c : Chip) : Tame c (c.keyChanged i) :=
  (((tame_condemn c).trans (tame_modSlot i _ _)).trans (recorded_tamperInst _ _ _ _ _ _).tame).trans
    (noted_raise _ _ _ _ _).tame

/-! ### A slot that stays usable -/

theorem eachSlot_other {g : Slot → Slot} {i : Nat} : ∀ (l : List Nat) (c : Chip), i ∉ l →
    (each l (fun j c => c.modSlot j g) c).kslot i = c.kslot i
  | [], _, _ => rfl
  | j :: t, c, h => by
    rw [List.mem_cons, not_or] at h
    obtain ⟨hj, ht⟩ := h
    refine (eachSlot_other t (c.modSlot j g) ht).trans ?_
    rw [modSlot_kslot, if_neg hj]

theorem condemnFinish_other {l : List Nat} {i : Nat} (hi : i ∉ l) (c : Chip) :
    (c.condemnFinish l).kslot i = c.kslot i := by
  unfold Chip.condemnFinish
  dsimp only
  have hr : ∀ (l : List Nat) (c : Chip), (each l (fun i c => c.raise 0x1002 i 0 0) c).key = c.key :=
    fun l c => each_keeps Chip.key _ (fun _ c => raise_key ..) l c
  refine Eq.trans (by unfold Chip.kslot; rw [hr]) ((eachSlot_other l _ hi).trans ?_)
  unfold Chip.kslot
  rw [show ((c.closeDependants l).plateErase l).key = c.key from closeDependants_key l c]

/-- A usable slot is not condemned. -/
theorem condemn_usable {c : Chip} {i : Nat} (h : c.slotUsable i = true) : c.condemn.kslot i = c.kslot i := by
  have hi : i ∉ (slots64.drop 1).filter (fun i => let s := c.kslot i; !s.empty && !s.condemned && !c.slotUsable i) := by
    simp [h]
  unfold Chip.condemn
  dsimp only at hi ⊢
  generalize (slots64.drop 1).filter _ = l at hi
  have he := eachSlot_other (g := fun s => { s with condemned := true }) l c hi
  split
  · rfl
  · split
    · exact he
    · split
      · exact he
      · rw [condemnFinish_other hi, he]

/-- The half in force of a slot that was written. -/
theorem commitHalf_half (i : Nat) (h : Half) (c : Chip) : ∃ u, ((c.commitHalf i h).kslot i).half = { h with under := u } ∧
    ((c.commitHalf i h).kslot i).empty = false ∧ ((c.commitHalf i h).kslot i).condemned = false := by
  refine ⟨(c.key.kekSeed, c.key.testRoot), ?_⟩
  unfold Chip.commitHalf Slot.half
  dsimp only
  rw [modSlot_kslot, if_pos rfl]
  cases (c.kslot i).useB <;> exact ⟨rfl, rfl, rfl⟩

/-- A slot with a key of its own is usable. -/
theorem usable_root {c : Chip} {i : Nat} (he : (c.kslot i).empty = false) (hc : (c.kslot i).condemned = false)
    (hcls : (c.kslot i).half.cls ≠ 0) (hp : (c.kslot i).half.parent = 0x3F) : c.slotUsable i = true := by
  unfold Chip.slotUsable Chip.usableIn
  simp [he, hc, hcls, hp]

/-- A key of its own that is written stays in its slot behind what is condemned for it. -/
theorem commit_stays {i : Nat} {h : Half} (hcls : h.cls ≠ 0) (hp : h.parent = 0x3F) (m : Nat) (c : Chip) :
    ∃ u, ((((c.commitHalf i h).condemn).secretChanged m i).kslot i).half = { h with under := u } := by
  obtain ⟨u, hu, he, hc⟩ := commitHalf_half i h c
  refine ⟨u, ?_⟩
  have hus := usable_root he hc (by rw [hu]; exact hcls) (by rw [hu]; exact hp)
  rw [← hu, ← condemn_usable hus]
  unfold Chip.kslot
  rw [secretChanged_key]

theorem half_core {s t : Slot} (h : s.core = t.core) : ({ s.half with mat := [] } : Half) = { t.half with mat := [] } := by
  have hs : ∀ s : Slot, ({ s.half with mat := [] } : Half) = s.core.half := fun s => by
    unfold Slot.core Slot.half
    dsimp only
    split <;> rfl
  rw [hs s, hs t, h]

/-! ### Checks that rest on the slots alone -/

section
variable {c d : Chip} (h : d.key.slots = c.key.slots)
include h

theorem kslot_slots (i : Nat) : d.kslot i = c.kslot i := by
  unfold Chip.kslot
  rw [h]

theorem slotUsable_slots (i : Nat) : d.slotUsable i = c.slotUsable i := by
  have hu : ∀ n i, d.usableIn n i = c.usableIn n i := by
    intro n
    induction n with
    | zero => exact fun _ => rfl
    | succ n ih =>
      intro i
      unfold Chip.usableIn
      simp only [kslot_slots h, ih]
  exact hu 64 i

theorem replaceBad_slots (i n : Nat) : d.replaceBad i n = c.replaceBad i n := by
  unfold Chip.replaceBad
  simp only [kslot_slots h, slotUsable_slots h]

theorem deriveBad_slots (i p n typ dest : Nat) : d.deriveBad i p n typ dest = c.deriveBad i p n typ dest := by
  unfold Chip.deriveBad Chip.slotState
  simp only [kslot_slots h, slotUsable_slots h]

end

/-! ### The completion of an operation -/

/-- The block in which the operation of a ticket is no longer outstanding. -/
def Chip.jobTaken (t : W16) (c : Chip) : Chip :=
  c.modKey (fun k => { k with pending := k.pending.filter (fun y => y.ticket != t) })

/-- An operation has ended with a status: its ticket and what SC worked on are gone. -/
def Finished (t : W16) (z : W8) (c d : Chip) : Prop :=
  d.tix.out = c.tix.out.filter (fun y => y.no != t) ∧ d.tix.done.head? = some (t, z) ∧
    d.key.pending = c.key.pending.filter (fun y => y.ticket != t)

section
variable {t : W16} {st : W8} {res : W32} {x : Ticket} {j : KeyJob} {s : State} (hx : s.chip.ticketOut t = some x)
  (hno : x.no = t) (hj : s.chip.key.pending.find? (fun y => y.ticket == t) = some j)
include hx hno hj

/-- The ticket of an operation but a login completes with what SC's work on it leaves. -/
theorem completes_keyJob {d : Chip} {z : W8} {w : W32} (hcode : x.code.toNat / 256 = 0x10) (hne : x.code ≠ 0x1002)
    (hrun : (s.chip.jobTaken t).jobRun x j = (d, z, w)) (hd : Tame (s.chip.jobTaken t) d)
    (hp : d.key.pending = (s.chip.jobTaken t).key.pending) :
    completes (.ticketCompletion t st res) s (fun e => Finished t z s.chip e ∧ e.key = d.key) := by
  have hf : s.chip.opDone t st res = d.complete t z w := by
    unfold Chip.opDone
    rw [hx]
    refine (if_pos hcode).trans ?_
    unfold Chip.keyDone
    rw [hno, hj]
    have hrun' : Chip.jobRun x j (s.chip.modKey (fun k => { k with pending := k.pending.filter (fun y => y.ticket != t) })) =
        (d, z, w) := hrun
    dsimp only
    rw [hrun']
    exact if_pos hne
  obtain ⟨hout, hdone, -⟩ := completed_settle (res := w) (st := z) hx (Tame.trans (tame_modKey rfl) hd) (Tame.refl _)
  have hk : (Chip.settle s.chip (d.complete t z w)).key = d.key := (settle_key _ _).trans
    (keepsBut_complete (bs := [.masters, .tix, .evt, .ferry, .hint]) (by decide) t z w d .key (by decide))
  refine completes_settle rfl hf ⟨⟨hout, hdone, ?_⟩, hk⟩
  rw [hk, hp]
  rfl

omit hx hno hj in
theorem jobRun_done {c : Chip} (hc : x.code = 0x1006 ∨ x.code = 0x100A) : c.jobRun x j = (c, j.st, j.res) := by
  unfold Chip.jobRun
  rcases hc with h | h <;> rw [h] <;> rfl

omit hx hno hj in
theorem jobRun_work {c : Chip} (hr : c.rdy rKEYS = true) (b : Bool) : ¬ (b && !c.rdy rKEYS) = true := by
  rw [hr]
  simp

/-- KEY_UPDATE and KEY_LC_SET report the result of what they did. -/
theorem completes_keyReported (hc : x.code = 0x1006 ∨ x.code = 0x100A) :
    completes (.ticketCompletion t st res) s (fun e => Finished t j.st s.chip e ∧ e.key.slots = s.chip.key.slots ∧
      e.key.lc = s.chip.key.lc) := by
  refine completes_imp (completes_keyJob hx hno hj (by rcases hc with h | h <;> rw [h] <;> decide)
    (by rcases hc with h | h <;> rw [h] <;> decide) (jobRun_done hc) (Tame.refl _) rfl) (fun e ⟨hf, hk⟩ => ⟨hf, ?_, ?_⟩)
  · rw [hk]
    rfl
  · rw [hk]
    rfl

variable (hr : s.chip.rdy rKEYS = true)
include hr

/-- The verifier that SC writes for a password. -/
def passwdHalf (x : Ticket) (j : KeyJob) (c : Chip) : Half :=
  { gen := (c.kslot (c.acct x.arg).slot.toNat).lastGen + 1, cls := 7, typ := 6
    mat := leBytes 16 c.draw128.1.toNat ++
      digBytes (Config.pbkdf2 (leBytes 16 c.draw128.1.toNat) (j.buf.take j.a1.toNat)) }

theorem completes_passwdDone (hc : x.code = 0x1004) (hen : (s.chip.acct x.arg).en = true)
    (hmeth : (s.chip.acct x.arg).method = 0) (hslot : 2 ≤ (s.chip.acct x.arg).slot.toNat)
    (hpw : ∀ b ∈ j.buf.take j.a1.toNat, 0x20 ≤ b.toNat ∧ b.toNat ≤ 0x7E) :
    completes (.ticketCompletion t st res) s (fun d => Finished t 0 s.chip d ∧
      let v := (d.kslot (s.chip.acct x.arg).slot.toNat).half
      v.gen = (s.chip.kslot (s.chip.acct x.arg).slot.toNat).lastGen + 1 ∧ v.cls = 7 ∧ v.typ = 6 ∧
        v.mat.drop 16 = digBytes (Config.pbkdf2 (v.mat.take 16) (j.buf.take j.a1.toNat))) := by
  obtain ⟨u, hu⟩ := commit_stays (i := (s.chip.acct x.arg).slot.toNat) (h := passwdHalf x j s.chip)
    (show (7 : Nat) ≠ 0 by decide) rfl x.master
    (s.chip.jobTaken t).draw128.2
  have hrun : (s.chip.jobTaken t).jobRun x j = ((((s.chip.jobTaken t).draw128.2.commitHalf (s.chip.acct x.arg).slot.toNat
      (passwdHalf x j s.chip)).condemn).secretChanged x.master (s.chip.acct x.arg).slot.toNat, stOK, 0) := by
    have hbad : (s.chip.jobTaken t).passwdBad x.arg (j.buf.take j.a1.toNat) = false :=
      passwd_good (c := s.chip.jobTaken t) hen hmeth hslot hpw
    unfold Chip.jobRun
    refine (if_neg (jobRun_work hr _)).trans ?_
    rw [hc]
    show Chip.passwdRun _ _ _ _ = _
    unfold Chip.passwdRun
    exact (if_neg (by rw [hbad]; decide)).trans rfl
  have hdraw : Tame (s.chip.jobTaken t) (s.chip.jobTaken t).draw128.2 := ⟨rfl, rfl, rfl, fun _ => id⟩
  have hkd : Kept (s.chip.jobTaken t) (s.chip.jobTaken t).draw128.2 := ⟨rfl, rfl, rfl, rfl, fun _ => id⟩
  have hd := hdraw.trans (((tame_commitHalf (s.chip.acct x.arg).slot.toNat (passwdHalf x j s.chip) _).trans
    (tame_condemn _)).trans (tame_secretChanged x.master (s.chip.acct x.arg).slot.toNat _))
  have hk := hkd.trans (((kept_commitHalf (s.chip.acct x.arg).slot.toNat (passwdHalf x j s.chip) _).trans
    (kept_condemn _)).trans (kept_secretChanged x.master (s.chip.acct x.arg).slot.toNat _))
  generalize Chip.secretChanged _ _ _ = z at hrun hd hk hu
  refine completes_imp (completes_keyJob hx hno hj (by rw [hc]; decide) (by rw [hc]; decide) hrun hd hk.pending)
    (fun e ⟨hf, hek⟩ => ⟨hf, ?_⟩)
  have he : (e.kslot (s.chip.acct x.arg).slot.toNat).half = { passwdHalf x j s.chip with under := u } := by
    unfold Chip.kslot at hu ⊢
    rw [hek]
    exact hu
  have hl : (leBytes 16 s.chip.draw128.1.toNat).length = 16 := by simp [leBytes]
  dsimp only
  rw [he]
  refine ⟨rfl, rfl, rfl, ?_⟩
  show (leBytes 16 s.chip.draw128.1.toNat ++ _).drop 16 = digBytes (Config.pbkdf2 ((leBytes 16 s.chip.draw128.1.toNat ++ _).take 16) _)
  rw [List.drop_left' hl, List.take_left' hl]

omit hx hno hj hr in
theorem replaceBad_ok {c : Chip} {i n : Nat} (he : (c.kslot i).empty = false) (hc : (c.kslot i).half.compat = true)
    (htyp : (c.kslot i).half.typ = 1 ∨ (c.kslot i).half.typ = 2)
    (hlen : n = (if (c.kslot i).half.typ = 1 then 24 else 40) + 4) (hu : c.slotUsable i = true) : c.replaceBad i n = stOK := by
  have ht' : ((c.kslot i).half.typ == 1 || (c.kslot i).half.typ == 2) = true := by
    simpa using htyp
  have hl : (n != wrapLen (c.kslot i).half.typ + 4) = false := by
    rw [hlen]
    exact bne_self_eq_false _
  exact (if_neg (by omega)).trans ((if_neg (by simp only [he, hc, ht', hl]; decide)).trans (if_neg (by rw [hu]; decide)))

omit hx hno hj hr in
theorem jobRun_replace {c : Chip} (hkeys : c.rdy rKEYS = true) (hc : x.code = 0x1007)
    (hok : c.replaceBad x.arg j.a1.toNat = stOK) : c.jobRun x j =
      match Config.unwrap (c.kslot x.arg).half.mat (j.buf.take (wrapLen (c.kslot x.arg).half.typ)) with
      | none => (c, stAUTH, 0)
      | some k =>
        if Config.kcv k ≠ slice j.buf (wrapLen (c.kslot x.arg).half.typ) 4 then (c, stINTEGRITY, 0)
        else (((c.commitHalf x.arg { (c.kslot x.arg).half with gen := (c.kslot x.arg).half.gen + 1, mat := k }).keyChanged
          x.arg).secretChanged x.master x.arg, stOK, (c.kslot x.arg).half.gen + 1) := by
  unfold Chip.jobRun
  refine (if_neg (jobRun_work hkeys _)).trans ?_
  rw [hc]
  show Chip.replaceRun _ _ _ _ _ = _
  unfold Chip.replaceRun
  exact (if_neg (not_not.mpr hok)).trans rfl

omit hr in
/-- A replacement that SC refuses leaves the slots as they were. -/
theorem completes_replaceRefused {z : W8} (hc : x.code = 0x1007) (hrun : (s.chip.jobTaken t).jobRun x j = (s.chip.jobTaken t, z, 0)) :
    completes (.ticketCompletion t st res) s (fun d => Finished t z s.chip d ∧ d.key.slots = s.chip.key.slots) :=
  completes_imp (completes_keyJob hx hno hj (by rw [hc]; decide) (by rw [hc]; decide) hrun (Tame.refl _) rfl)
    (fun e ⟨hf, hek⟩ => ⟨hf, by rw [hek]; rfl⟩)

omit hr in
theorem completes_replaced {k : List W8} (hc : x.code = 0x1007)
    (hrun : (s.chip.jobTaken t).jobRun x j = ((((s.chip.jobTaken t).commitHalf x.arg { (s.chip.kslot x.arg).half with
      gen := (s.chip.kslot x.arg).half.gen + 1, mat := k }).keyChanged x.arg).secretChanged x.master x.arg, stOK,
        (s.chip.kslot x.arg).half.gen + 1)) :
    completes (.ticketCompletion t st res) s (fun d => Finished t 0 s.chip d ∧
      (d.kslot x.arg).half.gen = (s.chip.kslot x.arg).half.gen + 1 ∧
      (d.kslot x.arg).half.cls = (s.chip.kslot x.arg).half.cls ∧ (d.kslot x.arg).half.typ = (s.chip.kslot x.arg).half.typ) := by
  obtain ⟨u, hu, -, -⟩ := commitHalf_half x.arg
    { (s.chip.kslot x.arg).half with gen := (s.chip.kslot x.arg).half.gen + 1, mat := k } (s.chip.jobTaken t)
  have hd := (tame_commitHalf x.arg { (s.chip.kslot x.arg).half with gen := (s.chip.kslot x.arg).half.gen + 1, mat := k }
    (s.chip.jobTaken t)).trans ((tame_keyChanged x.arg _).trans (tame_secretChanged x.master x.arg _))
  have hk := (kept_commitHalf x.arg { (s.chip.kslot x.arg).half with gen := (s.chip.kslot x.arg).half.gen + 1, mat := k }
    (s.chip.jobTaken t)).trans ((kept_keyChanged x.arg _).trans (kept_secretChanged x.master x.arg _))
  generalize (s.chip.jobTaken t).commitHalf x.arg _ = y at hrun hu hd hk
  have hcore : (((y.keyChanged x.arg).secretChanged x.master x.arg).kslot x.arg).core = (y.kslot x.arg).core := by
    rw [slot_core (secretChanged_key _ _ _), keyChanged_core]
  generalize Chip.secretChanged _ _ _ = z at hrun hd hk hcore
  have hz := half_core hcore
  rw [hu] at hz
  refine completes_imp (completes_keyJob hx hno hj (by rw [hc]; decide) (by rw [hc]; decide) hrun hd hk.pending)
    (fun e ⟨hf, hek⟩ => ?_)
  have he : e.kslot x.arg = z.kslot x.arg := by
    unfold Chip.kslot
    rw [hek]
  rw [he]
  exact ⟨hf, (congrArg (fun h : Half => h.gen) hz :), (congrArg (fun h : Half => h.cls) hz :),
    (congrArg (fun h : Half => h.typ) hz :)⟩

/-- The child key that a derivation writes. -/
def childHalf (x : Ticket) (j : KeyJob) (c : Chip) : Half :=
  let ph := (c.kslot (fld j.a1 0 6)).half
  { gen := (c.kslot x.arg).lastGen + 1, cls := ph.cls, typ := fld j.a3 28 4, dest := BitVec.ofNat 5 (fld j.a3 0 5)
    parent := BitVec.ofNat 6 (fld j.a1 0 6), pgen := ph.gen
    mat := (Config.hkdf ph.mat c.idBytes (j.buf.take j.a2.toNat)).take (typeLen (fld j.a3 28 4)) }

theorem completes_derived (hc : x.code = 0x1009)
    (hok : s.chip.deriveBad x.arg (fld j.a1 0 6) j.a2.toNat (fld j.a3 28 4) (fld j.a3 0 5) = stOK) :
    completes (.ticketCompletion t st res) s (fun d => Finished t 0 s.chip d ∧
      ({ (d.kslot x.arg).half with mat := [], under := (0, false) } : Half) =
        { childHalf x j s.chip with mat := [], under := (0, false) }) := by
  obtain ⟨u, hu, -, -⟩ := commitHalf_half x.arg (childHalf x j s.chip) (s.chip.jobTaken t)
  have hrun : (s.chip.jobTaken t).jobRun x j =
      (((s.chip.jobTaken t).commitHalf x.arg (childHalf x j s.chip)).condemn, stOK, 0) := by
    unfold Chip.jobRun
    refine (if_neg (jobRun_work hr _)).trans ?_
    rw [hc]
    show Chip.deriveRun _ _ _ _ _ _ _ = _
    unfold Chip.deriveRun
    exact (if_neg (not_not.mpr ((deriveBad_slots (c := s.chip) (d := s.chip.jobTaken t) rfl _ _ _ _ _).trans hok))).trans rfl
  have hd := (tame_commitHalf x.arg (childHalf x j s.chip) (s.chip.jobTaken t)).trans (tame_condemn _)
  have hk := (kept_commitHalf x.arg (childHalf x j s.chip) (s.chip.jobTaken t)).trans (kept_condemn _)
  have hcore := condemn_core ((s.chip.jobTaken t).commitHalf x.arg (childHalf x j s.chip)) x.arg
  have hz := half_core hcore
  rw [hu] at hz
  generalize Chip.condemn _ = z at hrun hd hk hz
  refine completes_imp (completes_keyJob hx hno hj (by rw [hc]; decide) (by rw [hc]; decide) hrun hd hk.pending)
    (fun e ⟨hf, hek⟩ => ?_)
  have he : e.kslot x.arg = z.kslot x.arg := by
    unfold Chip.kslot
    rw [hek]
  rw [he]
  exact ⟨hf, congrArg (fun h : Half => ({ h with under := (0, false) } : Half)) hz⟩

/-! ### Logins by password -/

omit hx hno hj hr in
theorem complete_master (t : W16) (z : W8) (w : W32) (c : Chip) (m : Nat) :
    ∃ o, (c.complete t z w).master m = { c.master m with outbox := o } := by
  cases h : c.ticketOut t with
  | none =>
    unfold Chip.complete
    rw [h]
    exact ⟨_, rfl⟩
  | some x =>
    obtain ⟨ma, e, f, g, hm, he⟩ := complete_facts h z w
    rw [he]
    exact hm m

omit hx hno hj hr in
theorem complete_key (t : W16) (z : W8) (w : W32) (c : Chip) : (c.complete t z w).key = c.key :=
  keepsBut_complete (bs := [.masters, .tix, .evt, .ferry, .hint]) (by decide) t z w c .key (by decide)

omit hx hno hj hr in
theorem tame_modAcct (a : Nat) (g : Account → Account) (c : Chip) : Tame c (c.modAcct a g) := ⟨rfl, rfl, rfl, fun _ => id⟩

omit hx hno hj hr in
theorem tame_openSession (m a : Nat) (role : BitVec 3) (c : Chip) : Tame c (c.openSession m a role) :=
  ((tame_endSession m c).trans (tame_modMaster m _ _)).trans (tame_modAcct a _ _)

omit hx hno hj hr in
theorem tame_authFail (a : Nat) (c : Chip) : Tame c (c.authFail a) := by
  have hc : Tame c (c.failCounted a) := (tame_modAcct _ _ c).trans (noted_raise _ _ _ _ _).tame
  rcases authFail_eq a c with h | ⟨len, h⟩
  · rw [h]
    exact hc
  · rw [h]
    exact ((hc.trans (tame_modAcct _ _ _)).trans (recorded_tamperInst _ _ _ _ _ _).tame).trans (noted_raise _ _ _ _ _).tame

omit hx hno hj hr in
theorem authFail_pending (a : Nat) (c : Chip) : (c.authFail a).key.pending = c.key.pending := by
  have hc : (c.failCounted a).key.pending = c.key.pending := by
    unfold Chip.failCounted
    rw [raise_key]
    rfl
  rcases authFail_eq a c with h | ⟨len, h⟩
  · rw [h, hc]
  · rw [h, raise_key, tamperInst_key]
    exact hc

omit hx hno hj hr in
theorem openSession_pending (m a : Nat) (role : BitVec 3) (c : Chip) :
    (c.openSession m a role).key.pending = c.key.pending := by
  have h := endSession_key m c
  unfold Chip.openSession
  generalize c.endSession m = e at h
  exact (congrArg (fun k : Key => k.pending) h :)

/-- Whether the master of a ticket is still in the session it was given in. -/
def Chip.liveFor (c : Chip) (x : Ticket) : Bool :=
  (c.master x.master).sess == x.sess && (x.master == 0 || (c.master x.master).conn)

/-- The end of a login by password, with the status that SC answers. -/
theorem opDone_login {z : W8} (hc : x.code = 0x1002)
    (hrun : (s.chip.jobTaken t).loginRun x.arg (j.buf.take j.a1.toNat) = z) : s.chip.opDone t st res =
      if z = stAUTH then ((s.chip.jobTaken t).complete t z 0).authFail x.arg
      else if z = stOK && s.chip.liveFor x then ((s.chip.jobTaken t).complete t z 0).openSession x.master x.arg
        (((s.chip.jobTaken t).complete t z 0).acct x.arg).role
      else (s.chip.jobTaken t).complete t z 0 := by
  have hrun' : (s.chip.jobTaken t).jobRun x j = (s.chip.jobTaken t, z, 0) := by
    unfold Chip.jobRun
    refine (if_neg (jobRun_work hr _)).trans ?_
    rw [hc]
    show (s.chip.jobTaken t, (s.chip.jobTaken t).loginRun x.arg (j.buf.take j.a1.toNat), 0) = _
    rw [hrun]
  unfold Chip.opDone
  rw [hx]
  refine (if_pos (by rw [hc]; decide)).trans ?_
  unfold Chip.keyDone
  rw [hno, hj]
  dsimp only
  have he : s.chip.modKey (fun k => { k with pending := k.pending.filter (fun y => y.ticket != t) }) = s.chip.jobTaken t := rfl
  rw [he, hrun']
  exact if_neg (not_not.mpr hc)

omit hno hj hr in
/-- What completes a ticket behind the loss of its operation has ended it. -/
theorem finished_settle {d : Chip} {z : W8} (hd : Tame ((s.chip.jobTaken t).complete t z 0) d)
    (hp : d.key.pending = ((s.chip.jobTaken t).complete t z 0).key.pending) : Finished t z s.chip (Chip.settle s.chip d) := by
  obtain ⟨hout, hdone, -⟩ := completed_settle (res := 0) (st := z) hx (tame_modKey (c := s.chip)
    (g := fun k => { k with pending := k.pending.filter (fun y => y.ticket != t) }) rfl) hd
  refine ⟨hout, hdone, ?_⟩
  rw [settle_key, hp, complete_key]
  rfl

theorem completes_loginDone (hc : x.code = 0x1002) (hi : x.arg < 16)
    (hrun : (s.chip.jobTaken t).loginRun x.arg (j.buf.take j.a1.toNat) = stOK) (hlive : s.chip.liveFor x = true) :
    completes (.ticketCompletion t st res) s (fun d => Finished t 0 s.chip d ∧
      (d.master x.master).role = (s.chip.acct x.arg).role ∧ (d.master x.master).account.toNat = x.arg ∧
      (d.master x.master).sess = (s.chip.master x.master).sess + 1 ∧ (d.acct x.arg).fails = 0) := by
  have hf := opDone_login (st := st) (res := res) hx hno hj hr hc hrun
  rw [if_neg (show ¬ stOK = stAUTH by decide), if_pos (by rw [hlive]; rfl)] at hf
  obtain ⟨o, ho⟩ := complete_master t stOK 0 (s.chip.jobTaken t) x.master
  have hk := complete_key t stOK 0 (s.chip.jobTaken t)
  have hfin := finished_settle (z := stOK) hx (d := ((s.chip.jobTaken t).complete t stOK 0).openSession x.master x.arg
    (((s.chip.jobTaken t).complete t stOK 0).acct x.arg).role) (tame_openSession _ _ _ _) (openSession_pending _ _ _ _)
  have hrole : (((s.chip.jobTaken t).complete t stOK 0).acct x.arg).role = (s.chip.acct x.arg).role := by
    unfold Chip.acct
    rw [hk]
    rfl
  have hm := openSession_master x.master x.arg x.master (((s.chip.jobTaken t).complete t stOK 0).acct x.arg).role
    ((s.chip.jobTaken t).complete t stOK 0)
  have ha := openSession_acct x.master x.arg x.arg (((s.chip.jobTaken t).complete t stOK 0).acct x.arg).role
    ((s.chip.jobTaken t).complete t stOK 0)
  rw [if_pos rfl, ho] at hm
  rw [if_pos rfl] at ha
  generalize Chip.openSession _ _ _ _ = d at hf hfin hm ha
  obtain ⟨y, hy⟩ := settle_master s.chip d x.master
  refine completes_settle rfl hf ⟨hfin, ?_, ?_, ?_, ?_⟩
  · rw [hy, hm]
    exact hrole
  · rw [hy, hm]
    exact (BitVec.toNat_ofNat _ _).trans (Nat.mod_eq_of_lt (by omega))
  · rw [hy, hm]
    rfl
  · rw [settle_acct, ha]

theorem completes_loginFailed (hc : x.code = 0x1002)
    (hrun : (s.chip.jobTaken t).loginRun x.arg (j.buf.take j.a1.toNat) = stAUTH) :
    completes (.ticketCompletion t st res) s (fun d => Finished t 0x05 s.chip d ∧
      (d.master x.master).role = (s.chip.master x.master).role ∧
      (d.acct (s.chip.failIx x.arg)).fails = min ((s.chip.acct (s.chip.failIx x.arg)).fails + 1) 15) := by
  have hf := opDone_login (st := st) (res := res) hx hno hj hr hc hrun
  rw [if_pos rfl] at hf
  obtain ⟨o, ho⟩ := complete_master t stAUTH 0 (s.chip.jobTaken t) x.master
  have hk := complete_key t stAUTH 0 (s.chip.jobTaken t)
  have hix : ((s.chip.jobTaken t).complete t stAUTH 0).failIx x.arg = s.chip.failIx x.arg := by
    unfold Chip.failIx Chip.acct
    rw [hk]
    rfl
  have hfin := finished_settle (z := stAUTH) hx (tame_authFail x.arg _) (authFail_pending x.arg _)
  obtain ⟨l, z, ha⟩ := authFail_acct x.arg (s.chip.failIx x.arg) ((s.chip.jobTaken t).complete t stAUTH 0)
  have hm := authFail_masters x.arg ((s.chip.jobTaken t).complete t stAUTH 0)
  rw [hix, if_pos rfl] at ha
  have hfails : ((s.chip.jobTaken t).complete t stAUTH 0).acct (s.chip.failIx x.arg) = s.chip.acct (s.chip.failIx x.arg) := by
    unfold Chip.acct
    rw [hk]
    rfl
  generalize (s.chip.jobTaken t).complete t stAUTH 0 = e at hf hfin hm ha ho hfails
  generalize e.authFail x.arg = d at hf hfin hm ha
  obtain ⟨y, hy⟩ := settle_master s.chip d x.master
  refine completes_settle rfl hf ⟨hfin, ?_, ?_⟩
  · rw [hy, Chip.master, hm, ← Chip.master, ho]
    rfl
  · rw [settle_acct, ha, hfails]

/-- A password that verifies: its slot holds a usable verifier, and the digest is the one kept. -/
def Chip.passRight (c : Chip) (i : Nat) (pw : List W8) : Prop :=
  c.slotUsable i = true ∧ c.slotCls i = 7 ∧ (c.kslot i).half.typ = 6 ∧
    digBytes (Config.pbkdf2 ((c.kslot i).half.mat.take 16) pw) = (c.kslot i).half.mat.drop 16

end

section
variable {c : Chip} {i : Nat} {pw : List W8} (hlock : (c.acct (c.failIx i)).lockTo ≤ c.now)
include hlock

theorem loginRun_right (hen : (c.acct i).en = true) (hp : c.passRight (c.acct i).slot.toNat pw) : c.loginRun i pw = stOK := by
  obtain ⟨hu, hcls, htyp, hdig⟩ := hp
  have hst : c.slotState (c.acct i).slot.toNat ≠ 2 := by
    unfold Chip.slotState
    rw [hu, Bool.or_true, if_pos rfl]
    split <;> decide
  have hkey : c.acctKey i 6 = stOK :=
    (if_neg hst).trans (if_pos (by rw [hu, hcls, htyp]; rfl))
  unfold Chip.loginRun
  rw [if_neg (by omega), if_neg (by rw [hkey]; decide), if_pos]
  refine ⟨hen, ?_⟩
  unfold Chip.passOk
  simp [hkey, hdig]

theorem loginRun_wrong (hp : ¬ c.passRight (c.acct i).slot.toNat pw) (hst : c.slotState (c.acct i).slot.toNat ≠ 2) :
    c.loginRun i pw = stAUTH := by
  have hkey : c.acctKey i 6 ≠ stCONDEMNED := by
    unfold Chip.acctKey
    dsimp only
    rw [if_neg hst]
    split <;> decide
  unfold Chip.loginRun
  rw [if_neg (by omega), if_neg hkey, if_neg]
  rintro ⟨-, hok⟩
  refine hp ?_
  unfold Chip.passOk Chip.acctKey at hok
  dsimp only at hok
  rw [if_neg hst, Bool.and_eq_true, beq_iff_eq, beq_iff_eq] at hok
  obtain ⟨hk, hdig⟩ := hok
  have hbits := by_contra (fun hn => absurd ((if_neg hn).symm.trans hk) (by decide))
  simp only [Bool.and_eq_true, beq_iff_eq] at hbits
  obtain ⟨⟨hu, hcls⟩, htyp⟩ := hbits
  exact ⟨hu, hcls, htyp, hdig⟩

end

theorem jobTaken_login (t : W16) (i : Nat) (pw : List W8) (c : Chip) : (c.jobTaken t).loginRun i pw = c.loginRun i pw := by
  have hu := slotUsable_slots (c := c) (d := c.jobTaken t) rfl
  unfold Chip.loginRun Chip.passOk Chip.acctKey Chip.slotState
  simp only [hu]
  rfl


theorem deriveBad_ok {c : Chip} {i p n typ dest : Nat} (h0 : 0 < n) (h64 : n ≤ 64) (hi : 2 ≤ i) (hp : 2 ≤ p)
    (hp3 : p ≠ 0x3F) (hip : i ≠ p) (hst : c.slotState i ≠ 1) (he : (c.kslot p).empty = false)
    (hu : c.slotUsable p = true) (hpt1 : 1 ≤ (c.kslot p).half.typ) (hpt3 : (c.kslot p).half.typ ≤ 3)
    (ht1 : 1 ≤ typ) (ht3 : typ ≤ 3) (hfit : keyFits (c.kslot p).half.cls typ dest = true)
    (hdest : (dest &&& (c.kslot p).half.dest.toNat) = dest) : c.deriveBad i p n typ dest = stOK := by
  refine (if_neg (by omega)).trans ((if_neg ?_).trans ((if_neg (by rw [hu]; decide)).trans (if_neg ?_)))
  · rw [he]
    simp only [not_or]
    exact ⟨by omega, by omega, by omega, hip, hst, by decide⟩
  · simp [hfit, hdest, hp3]
    omega

theorem liveFor_iff {c : Chip} {x : Ticket} (hsess : (c.master x.master).sess = x.sess)
    (hconn : x.master = 0 ∨ (c.master x.master).conn = true) : c.liveFor x = true := by
  unfold Chip.liveFor
  rw [hsess, beq_self_eq_true, Bool.true_and, Bool.or_eq_true, beq_iff_eq]
  exact hconn

/-- What a completion leaves, in the words of the obligation. -/
theorem completes_finished {t : W16} {st z : W8} {res : W32} {s : State} {P : Chip → Prop}
    (h : completes (.ticketCompletion t st res) s (fun d => Finished t z s.chip d ∧ P d)) :
    completes (.ticketCompletion t st res) s (fun d => d.tix.out = s.chip.tix.out.filter (fun y => y.no != t) ∧
      d.tix.done.head? = some (t, z) ∧ d.key.pending = s.chip.key.pending.filter (fun y => y.ticket != t) ∧ P d) :=
  completes_imp h (fun _ ⟨⟨hout, hdone, hp⟩, hP⟩ => ⟨hout, hdone, hp, hP⟩)

/-- Settles O26: SC's work on an operation, and then the completion of its ticket, case by case of its code. -/
theorem keyOperationsComplete : Obligations.KeyOperationsComplete := by
  unfold Obligations.KeyOperationsComplete
  intro t st res x j k s _ c i m a h p ph typ dest pw wrap mat right ends hx hno hj hr
  have hl := jobTaken_login t i pw c
  refine ⟨fun hc => ?_, fun hc hi hlock hen => ⟨fun hp hsess hconn => ?_, fun hp hst => ?_⟩,
    fun hc hen hm hslot hpw => ?_, fun hc hi he hcp htyp hlen hu => ?_,
    fun hc h0 h64 hi hi64 hp hp3 hip hst he hu hpt1 hpt3 ht1 ht3 hfit hdest => ?_⟩
  · exact completes_finished (completes_keyReported hx hno hj hc)
  · rw [loginRun_right hlock hen hp] at hl
    exact completes_finished (completes_loginDone hx hno hj hr hc hi hl (liveFor_iff hsess hconn))
  · rw [loginRun_wrong hlock hp hst] at hl
    exact completes_finished (completes_loginFailed hx hno hj hr hc hl)
  · exact completes_finished (completes_passwdDone hx hno hj hr hc hen hm hslot hpw)
  · have hrun := jobRun_replace (c := c.jobTaken t) (x := x) (j := j) hr hc
      ((replaceBad_slots (c := c) (d := c.jobTaken t) rfl _ _).trans (replaceBad_ok he hcp htyp hlen hu))
    rw [kslot_slots (c := c) (d := c.jobTaken t) rfl] at hrun
    have hw : wrap = wrapLen h.typ := rfl
    rw [hw]
    refine ⟨fun hk hkcv => ?_, fun hk hkcv => ?_, fun hk => ?_⟩
    · rw [hk] at hrun
      exact completes_finished (completes_replaced hx hno hj hc (hrun.trans (if_neg (not_not.mpr hkcv))))
    · rw [hk] at hrun
      exact completes_finished (completes_replaceRefused hx hno hj hc (hrun.trans (if_pos hkcv)))
    · rw [hk] at hrun
      exact completes_finished (completes_replaceRefused hx hno hj hc hrun)
  · have hp' : fld j.a1 0 6 = p := fld_low _ _
    have hd' : fld j.a3 0 5 = dest := fld_low _ _
    have htyp : fld j.a3 28 4 = typ := by
      have := j.a3.isLt
      unfold fld
      rw [Nat.shiftRight_eq_div_pow]
      exact Nat.mod_eq_of_lt (by omega)
    refine completes_finished (completes_imp (completes_derived hx hno hj hr hc (by
      rw [hp', hd', htyp]
      exact deriveBad_ok h0 h64 hi hp hp3 hip hst he hu hpt1 hpt3 ht1 ht3 hfit hdest)) (fun d ⟨hf, hh⟩ => ⟨hf, ?_⟩))
    unfold childHalf at hh
    rw [hp', hd', htyp] at hh
    refine ⟨(congrArg (fun h : Half => h.gen) hh :), (congrArg (fun h : Half => h.cls) hh :),
      (congrArg (fun h : Half => h.typ) hh :), (congrArg (fun h : Half => h.dest.toNat) hh :).trans ?_,
      (congrArg (fun h : Half => h.parent.toNat) hh :).trans ?_, (congrArg (fun h : Half => h.pgen) hh :)⟩
    · exact (BitVec.toNat_ofNat _ _).trans (Nat.mod_eq_of_lt (Nat.mod_lt _ (by decide)))
    · exact (BitVec.toNat_ofNat _ _).trans (Nat.mod_eq_of_lt (Nat.mod_lt _ (by decide)))

end Sys2Proof.Machine
end

section
/-! The landings of the register window and an island that does not answer (R17, R35, R36). -/

namespace Sys2Proof.Machine

open Sys2Proof Sys2Proof.Claims

set_option Elab.async false in
/-- The request word of a landing is no configuration word, and the last word of its value no queue's. -/
theorem landing_addresses (n : Fin 16) : cmtFind (0x10000 + 0x20 * n.val) = none ∧
    ixOf (0x10000 + 0x20 * n.val) 0x10000 0x20 16 = some n.val ∧ (0x10000 + 0x20 * n.val - 0x10000) / 0x20 = n.val ∧
    ixOf (0x1001C + 0x20 * n.val) 0xA0000 0x20 8 = none ∧ ixOf (0x1001C + 0x20 * n.val) 0x1001C 0x20 16 = some n.val := by
  revert n
  decide +kernel

section
variable {m : Master5} {n : Fin 16} {c : Chip} (hm : (landsOf m.val).contains n.val = true)
include hm

theorem put1_landing {v : W32} (hw : writes m (0x10000 + 0x20 * n.val) v c) :
    c.put1 m (0x10000 + 0x20 * n.val) v = c.landWrite n.val v := by
  obtain ⟨hc, hx, hd, -⟩ := landing_addresses n
  have hf : foreignLand m.val (0x10000 + 0x20 * n.val) = false := by
    unfold foreignLand
    rw [hd, hm]
    simp
  rw [put1_writes hw]
  unfold Chip.regWrite
  simp only [hc, hf, hx, Bool.false_eq_true, if_false]

theorem get1_landing (hr : reads m (0x1001C + 0x20 * n.val) c) :
    c.get1 m (0x1001C + 0x20 * n.val) = c.modLand n.val (fun l => { l with valid := false }) := by
  obtain ⟨-, -, -, hq, hx⟩ := landing_addresses n
  obtain ⟨hh, ha, hs, hd, hmay⟩ := hr
  have he : (c.readEffect m.val (0x1001C + 0x20 * n.val)).1 = c.modLand n.val (fun l => { l with valid := false }) := by
    unfold Chip.readEffect
    simp only [hq, hx]
    exact if_pos hm
  unfold Chip.get1 Chip.readWord
  simp [hh, ha, hs, hd, hmay, he]

end

section
variable {n : Nat} {c : Chip} (hb : (c.land n).busy = true)
  (hr : billSpace ((c.land n).req.toNat / 2 ^ 28) = true → c.rdy rBILL = true)
include hb hr

/-- A landing that is asked for takes the value at its request, or the refusal of a request that names none. -/
theorem fill_asked : c.fill n =
    match c.fillValue ((c.land n).req.toNat / 2 ^ 28) ((c.land n).req.toNat / 2 ^ 22 % 64) ((c.land n).req.toNat % 65536) with
    | none => c.modLand n (Landing.refused stRANGE)
    | some x => c.modLand n (fun l =>
      { req := l.req, valid := true, d0 := w32 x.v, d1 := w32 (x.v / 2 ^ 32), d2 := w32 (x.v / 2 ^ 64)
        d3 := w32 (c.bill.seq.toNat % 2 ^ 24 * 256 + x.flags) }) := by
  have h28 : fld (c.land n).req 28 4 = (c.land n).req.toNat / 2 ^ 28 := by
    have := (c.land n).req.isLt
    unfold fld
    rw [Nat.shiftRight_eq_div_pow]
    exact Nat.mod_eq_of_lt (by omega)
  have h22 : fld (c.land n).req 22 6 = (c.land n).req.toNat / 2 ^ 22 % 64 := by
    unfold fld
    rw [Nat.shiftRight_eq_div_pow]
    rfl
  unfold Chip.fill
  dsimp only
  rewrite [h28, h22, fld_low16, if_neg (by rw [hb]; decide), if_neg]
  · rfl
  · simp only [Bool.and_eq_true, Bool.not_eq_true', not_and, Bool.not_eq_false]
    exact hr

end

/-- Settles O23: each access to a landing and what an island leaves that does not answer. -/
theorem landings : Obligations.Landings := by
  unfold Obligations.Landings
  intro m n a v w s hs c l
  have land {i : Instr} {f : Chip → Chip} {g : Landing → Landing} {P : Chip → Prop} (hi : exec i s = run f s)
      (hf : f c = c.modLand n.val g) (hP : P (c.modLand n.val g)) : completes i s P :=
    completes_quiet hi hf hs (quiet_far c _ _ _ _ _ _ _ _ _) hP
  have self (g : Landing → Landing) : (c.modLand n.val g).land n.val = g l := (modLand_land ..).trans (if_pos rfl)
  have keeps (g : Landing → Landing) : keepsBut [.lands] c (c.modLand n.val g) := keepsBut_lands (by decide) _
  refine ⟨fun hw hm => ?_, fun x hb hr hx => ?_, fun hb hr hx => ?_, fun hr hm => ?_, fun k hh hk ha => ?_⟩
  · exact land rfl (put1_landing hm hw) ⟨self _, fun j hj => (modLand_land ..).trans (if_neg hj), keeps _⟩
  · have hf := fill_asked hb hr
    rw [hx] at hf
    exact land rfl hf ⟨self _, keeps _⟩
  · have hf := fill_asked hb hr
    rw [hx] at hf
    have h := self (Landing.refused stRANGE)
    exact land rfl hf ⟨by rw [h]; rfl, by rw [h]; rfl, by rw [h]; rfl, keeps _⟩
  · exact land rfl (get1_landing hm hr) ⟨self _, keeps _⟩
  · have hn : Noted c (c.bridgeTimeout k m.val a.toNat w) := noted_raise ..
    have hcnt : (Tbl.get {} (c.bridgeTimeout k m.val a.toNat w).evt.src 2).cnt = satInc (Tbl.get {} c.evt.src 2).cnt :=
      raise_cnt (code := 0x0002) (by decide) k (w32 (m.val * 2 ^ 24 + a.toNat % 2 ^ 24)) (w32 (b2n w)) c
    have hcalm : Calm c (c.bridgeTimeout k m.val a.toNat w) := calm_raise ..
    have hkeep : keepsBut [.host, .evt, .ferry, .hint] c (c.bridgeTimeout k m.val a.toNat w) := hn.keepsBut (by decide)
    let r := let x : BitVec 24 := BitVec.ofNat 24 a.toNat
      if w then writeReply x stTIMEOUT else readReply x 0 stTIMEOUT
    have hst : r.status = 0x11 := by
      show (if w then writeReply _ stTIMEOUT else readReply _ 0 stTIMEOUT).status = _
      cases w <;> rfl
    have hf : c.noAnswer m a.toNat w = (c.bridgeTimeout k m.val a.toNat w).when (m.val == 0) (Chip.answer r) := by
      unfold Chip.noAnswer
      rw [hk]
      exact if_neg (by rw [hh]; decide)
    generalize c.bridgeTimeout k m.val a.toNat w = d at hf hcnt hcalm hkeep
    by_cases h0 : m = 0
    · subst h0
      refine completes_calm (f := fun c => c.noAnswer 0 a.toNat w) rfl hf hs (hcalm.trans (calm_far d _ _ _ _ _ _ _ _ _ _ _ _ _))
        (fun f _ => ⟨hcnt, fun _ => hst, ?_⟩)
      exact keepsBut_trans (keepsBut_trans hkeep (keepsBut_host (by decide) _)) (keepsBut_ferry (by decide) f)
    · have hb : (m.val == 0) = false := beq_eq_false_iff_ne.mpr fun h => h0 (Fin.ext h)
      rw [hb] at hf
      exact completes_calm (f := fun c => c.noAnswer m a.toNat w) rfl hf hs hcalm
        (fun f _ => ⟨hcnt, fun h => absurd h h0, keepsBut_trans hkeep (keepsBut_ferry (by decide) f)⟩)

end Sys2Proof.Machine
end

section
/-! Connections and messages of host software (R23, R30, R31, R355). -/

namespace Sys2Proof.Machine

open Sys2Proof Sys2Proof.Claims

/-- Blocks whose only difference is what a master's bank holds beside its connection and its role. -/
def Banked (m : Nat) (c d : Chip) : Prop :=
  ∃ t, d = { c with masters := t } ∧ (d.master m).conn = (c.master m).conn ∧ (d.master m).role = (c.master m).role

theorem Banked.refl (m : Nat) (c : Chip) : Banked m c c := ⟨c.masters, rfl, rfl, rfl⟩

theorem Banked.modMaster {m : Nat} {c d : Chip} (h : Banked m c d) {g : Master → Master}
    (hg : ∀ x, (g x).conn = x.conn ∧ (g x).role = x.role) : Banked m c (d.modMaster m g) := by
  obtain ⟨t, rfl, hc, hr⟩ := h
  refine ⟨_, rfl, ?_, ?_⟩
  · rw [modMaster_master, if_pos rfl, (hg _).1, hc]
  · rw [modMaster_master, if_pos rfl, (hg _).2, hr]

/-- Such blocks take the same writes. -/
theorem Banked.writes {m : Master5} {a : Nat} {v : W32} {c d : Chip} (h : Banked m.val c d) (hw : writes m a v c) :
    writes m a v d := by
  obtain ⟨t, rfl, hconn, hrole⟩ := h
  obtain ⟨hh, ha, hc, hd, hw⟩ := hw
  refine ⟨?_, ha, hc, hd, ?_⟩
  · unfold Chip.hears at hh ⊢
    rw [hconn]
    exact hh
  · unfold Chip.mayWrite Chip.roleNo at hw ⊢
    rw [hrole]
    exact hw

/-! ### The commands of a COMMAND message -/

/-- The block in which a master's bank holds the arguments of a command. -/
def Chip.withArgs (m : Nat) (a0 a1 a2 a3 : W32) (c : Chip) : Chip :=
  (((c.modMaster m (fun x => { x with arg0 := a0 })).modMaster m (fun x => { x with arg1 := a1 })).modMaster m
    (fun x => { x with arg2 := a2 })).modMaster m (fun x => { x with arg3 := a3 })

section
variable {m : Master5} {a0 a1 a2 a3 : W32} {c : Chip}

/-- A word that goes to the bank of its master. -/
theorem writeWord_plain {a : Nat} {v : W32} {d : Chip} (ha : a ∈ plainRegisters) (h : writes m a v d)
    {g : Master → Master} (hg : d.plainWrite m a v = d.modMaster m.val g) : (d.writeWord m a v).1 = d.modMaster m.val g := by
  rw [writeWord_writes h, regWrite_plain ha, hg]

theorem withArgs_master (j : Nat) : (c.withArgs m.val a0 a1 a2 a3).master j =
    if j = m.val then { c.master j with arg0 := a0, arg1 := a1, arg2 := a2, arg3 := a3 } else c.master j := by
  unfold Chip.withArgs
  simp only [modMaster_master]
  split
  · next h => simp [h]
  · rfl

theorem cmdStatus_acked {x : Master} (ht : x.ticket = 0) (ha : x.ack = true) (hl : x.lost = false) (hs : x.status = 0) :
    x.cmdStatus = BitVec.ofNat 32 0x8000 := by
  unfold Master.cmdStatus
  rw [ht, ha, hl, hs]
  rfl

/-- NOP of a master with a session only acknowledges. -/
theorem codeWrite_nop (hm : m.val ≠ 0) (hchg : c.sys.changeover = false) (hret : c.retired = false)
    (hrole : 1 ≤ (c.master m.val).role.toNat) (hsv : c.rdy rSV = true) :
    ∃ t, c.codeWrite m 0x200 = { c with masters := t } ∧
      (c.codeWrite m 0x200).master m.val = { c.master m.val with ticket := 0, ack := true, lost := false, status := 0 } := by
  let r : CmdReq := { m := m, a0 := (c.master m.val).arg0, a1 := (c.master m.val).arg1, a2 := (c.master m.val).arg2
                      a3 := (c.master m.val).arg3 }
  have hcmd : c.command rowNop r = (c, {}) := by
    have hcl : c.cmdClosed rowNop r = false := by
      unfold Chip.cmdClosed
      rw [hchg, hret]
      simp [rowNop]
    have hal : c.cmdAllowed rowNop r = true := by
      unfold Chip.cmdAllowed Chip.roleNo
      rw [hret]
      simpa [rowNop, roleHolds, r] using hrole
    unfold Chip.command
    rw [hcl, hal]
    simp [rowNop, hsv, cmdNop]
  have hcode : c.codeWrite m 0x200 = c.acknowledge m.val {} := by
    have h : c.codeWrite m 0x200 = c.cmdCode (some rowNop) 0x200 r := rfl
    rw [h]
    unfold Chip.cmdCode
    dsimp only
    rw [hcmd]
    rfl
  have hack : c.acknowledge m.val {} =
      c.modMaster m.val (fun y => { y with ticket := 0, ack := true, lost := false, status := 0 }) := by
    unfold Chip.acknowledge
    rw [beq_eq_false_iff_ne.mpr hm]
    rfl
  rw [hcode, hack]
  exact ⟨_, rfl, by rw [modMaster_master, if_pos rfl]⟩

/-- A COMMAND message answers CMD_STATUS behind its writes. -/
theorem yhpCmd_done {d : Chip} {code : W32} (h : (Chip.writeWord m 0x20010 code (Chip.writeWord m 0x2000C a3 (Chip.writeWord m 0x20008 a2
      (Chip.writeWord m 0x20004 a1 (c.writeWord m 0x20000 a0).1).1).1).1).1 = d) (hd : d.deadAt 0x20014 = none) :
    c.yhpCmd m [code, a0, a1, a2, a3] = (d, (d.master m.val).cmdStatus) := by
  have he : c.yhpCmd m [code, a0, a1, a2, a3] = match d.deadAt 0x20014 with
      | some i => (d.bridgeTimeout i m.val 0x20014 false, 0)
      | none => (d, (d.master m.val).cmdStatus) := by
    rw [← h]
    rfl
  rw [he, hd]

variable (h0 : writes m 0x20000 a0 c) (h1 : writes m 0x20004 a1 c) (h2 : writes m 0x20008 a2 c)
  (h3 : writes m 0x2000C a3 c) (h4 : writes m 0x20010 0x200 c)
include h0 h1 h2 h3 h4

/-- The words of a COMMAND message come to the bank they are for. -/
theorem commandWords_writes : Banked m.val c (c.withArgs m.val a0 a1 a2 a3) ∧
    (Chip.writeWord m 0x20010 0x200 (Chip.writeWord m 0x2000C a3 (Chip.writeWord m 0x20008 a2
      (Chip.writeWord m 0x20004 a1 (c.writeWord m 0x20000 a0).1).1).1).1).1 =
        (c.withArgs m.val a0 a1 a2 a3).codeWrite m 0x200 := by
  have b1 := (Banked.refl m.val c).modMaster (g := fun x => { x with arg0 := a0 }) (fun _ => ⟨rfl, rfl⟩)
  have b2 := b1.modMaster (g := fun x => { x with arg1 := a1 }) (fun _ => ⟨rfl, rfl⟩)
  have b3 := b2.modMaster (g := fun x => { x with arg2 := a2 }) (fun _ => ⟨rfl, rfl⟩)
  have b4 : Banked m.val c (c.withArgs m.val a0 a1 a2 a3) :=
    b3.modMaster (g := fun x => { x with arg3 := a3 }) (fun _ => ⟨rfl, rfl⟩)
  refine ⟨b4, ?_⟩
  rw [writeWord_plain (by decide) h0 (g := fun x => { x with arg0 := a0 }) rfl,
    writeWord_plain (by decide) (b1.writes h1) (g := fun x => { x with arg1 := a1 }) rfl,
    writeWord_plain (by decide) (b2.writes h2) (g := fun x => { x with arg2 := a2 }) rfl,
    writeWord_plain (by decide) (b3.writes h3) (g := fun x => { x with arg3 := a3 }) rfl]
  exact congrArg Prod.fst ((writeWord_writes (b4.writes h4)).trans (regWrite_plain (by decide) m _ _))

/-- A COMMAND message with NOP leaves the acknowledged bank and answers its CMD_STATUS. -/
theorem yhpCmd_nop (hm : m.val ≠ 0) (hd : c.deadAt 0x20014 = none) (hret : c.retired = false)
    (hrole : 1 ≤ (c.master m.val).role.toNat) (hsv : c.rdy rSV = true) :
    ∃ d, c.yhpCmd m [0x200, a0, a1, a2, a3] = (d, BitVec.ofNat 32 0x8000) ∧ (∃ t, d = { c with masters := t }) ∧
      d.master m.val = { c.master m.val with arg0 := a0, arg1 := a1, arg2 := a2, arg3 := a3, ticket := 0, ack := true
                                             lost := false, status := 0 } := by
  obtain ⟨hb, hchain⟩ := commandWords_writes h0 h1 h2 h3 h4
  have hmaster := withArgs_master (m := m) (a0 := a0) (a1 := a1) (a2 := a2) (a3 := a3) (c := c) m.val
  rw [if_pos rfl] at hmaster
  generalize c.withArgs m.val a0 a1 a2 a3 = e at hb hchain hmaster
  obtain ⟨t, rfl, -, hr⟩ := hb
  obtain ⟨u, hu, hlast⟩ := codeWrite_nop (c := { c with masters := t }) hm h0.2.2.1 hret (by rw [hr]; exact hrole) hsv
  rw [hmaster] at hlast
  rw [hu] at hchain hlast
  refine ⟨_, ?_, ⟨u, rfl⟩, hlast⟩
  rw [yhpCmd_done hchain hd, hlast]
  exact congrArg (Prod.mk _) (cmdStatus_acked rfl rfl rfl rfl)

end

/-! ### Connections, reads and replies -/

section
variable {m : Master5} {c d : Chip} {msg : YhpIn} {p : List W32}

/-- The lowest free session is the one below which every session is in use. -/
theorem find_session {f : Nat → Bool} (i : Fin 4) (h : f (i.val + 1) = true) (hl : ∀ j, j < i.val + 1 → 0 < j → f j = false) :
    [1, 2, 3, 4].find? f = some (i.val + 1) := by
  fin_cases i <;> simp_all [List.find?]

theorem yhpReply_conn (h : (d.master m.val).conn = true) : d.yhpReply m.val msg p = d.modMaster m.val (fun x => { x with
    outbox := x.outbox ++ [{ kind := msg.kind + 0x80, hi := BitVec.ofNat 8 msg.n, req := msg.req, payload := p }] }) :=
  if_pos h

/-- What a read of host software may leave is nothing that settling follows. -/
theorem calm_readWord (hm : m.val ≠ 0) (a : Nat) (c : Chip) : Calm c (c.readWord m.val a).1 := by
  have hfx : Calm c (c.readEffect m.val a).1 := by
    unfold Chip.readEffect
    dsimp only
    split
    · unfold Chip.ferryRead
      rw [if_pos (Or.inl hm)]
      exact Calm.refl c
    · exact calm_ite (calm_far c _ _ _ _ _ _ _ _ _ _ _ _ _) (Calm.refl c)
    · exact ⟨rfl, rfl, rfl, rfl, rfl, rfl, rfl, fun _ => rfl, fun _ => rfl, fun _ => rfl, fun _ => rfl, rfl, rfl⟩
    · exact Calm.refl c
  unfold Chip.readWord
  split
  · exact Calm.refl c
  split
  · exact Calm.refl c
  split
  · exact calm_raise _ _ _ _ c
  split
  · exact Calm.refl c
  · exact hfx

theorem calm_yhpReads (hm : m.val ≠ 0) : ∀ (l : List W32) (c : Chip), Calm c (c.yhpReads m.val l).1
  | [], c => Calm.refl c
  | a :: l, c => (calm_readWord hm a.toNat c).trans (calm_yhpReads hm l _)

end

/-- Settles O22: what each message and the ends of a connection leave. -/
theorem yhpMessages : Obligations.YhpMessages := by
  unfold Obligations.YhpMessages
  intro i req v a0 a1 a2 a3 l s hs c m x msg
  have hm : m.val ≠ 0 := by
    show i.val + 1 ≠ 0
    omega
  have opened (h : x.conn = true) : ¬ (!(c.master m.val).conn) = true := by
    rw [show (c.master m.val).conn = true from h]
    decide
  refine ⟨fun hnet hnx hch hret hx hlow => ?_, fun hx => ⟨?_, fun hl hconn => ?_, fun hw => ?_, fun hw hd hret hrole hsv => ?_⟩⟩
  · have hfind : [1, 2, 3, 4].find? (fun j => !(c.master j).conn) = some m.val :=
      find_session i (f := fun j => !(c.master j).conn) (congrArg (!·) hx) (fun j hj h0 => by rw [hlow j hj h0]; rfl)
    have hf : c.connect .anonymous = c.modMaster m.val (fun x => { x with conn := true, outbox := [], sess := x.sess + 1 }) := by
      unfold Chip.connect
      rw [hnet, hnx, hch, hret, hfind]
      rfl
    exact completes_quiet (f := Chip.connect .anonymous) rfl hf hs (quiet_masters _ c)
      ⟨(modMaster_master ..).trans (if_pos rfl), keepsBut_masters (by decide) _⟩
  · have hf : c.closeConn m.val = (c.endSession m.val).modMaster m.val (fun x => { x with conn := false }) :=
      if_neg (by rw [not_or]; exact ⟨hm, by rw [show (c.master m.val).conn = true from hx]; decide⟩)
    obtain ⟨y, hy⟩ := settle_master c ((c.endSession m.val).modMaster m.val (fun x => { x with conn := false })) m.val
    rw [modMaster_master, if_pos rfl, endSession_master, if_pos rfl] at hy
    exact completes_settle (f := Chip.closeConn (i.val + 1)) rfl hf (by rw [hy]; exact ⟨rfl, rfl, rfl⟩)
  · have hopen := opened hx
    have hf : c.yhpIn i (msg 0x01 l.length l) = (c.yhpReads m.val l).1.modMaster m.val (fun x => { x with outbox := x.outbox ++
        [{ kind := 0x81, hi := BitVec.ofNat 8 l.length, req := req
           payload := (c.yhpReads m.val l).2.1 ++ toWords (c.yhpReads m.val l).2.2 }] }) := by
      refine (if_neg hopen).trans ((if_pos ⟨rfl, (Nat.mod_eq_of_lt hl).symm⟩).trans (yhpReply_conn hconn))
    refine completes_calm (f := fun c => c.yhpIn i (msg 0x01 l.length l)) rfl hf hs ((calm_yhpReads hm l c).trans
      (calm_far _ _ _ _ _ _ _ _ _ _ _ _ _ _)) (fun f _ => ?_)
    have hlast := congrArg (fun y : Master => y.outbox.getLast?) ((modMaster_master (n := m.val) (c := (c.yhpReads m.val l).1)
      (g := fun x => { x with outbox := x.outbox ++ [{ kind := 0x81, hi := BitVec.ofNat 8 l.length, req := req
                                                       payload := (c.yhpReads m.val l).2.1 ++ toWords (c.yhpReads m.val l).2.2 }] })
      m.val).trans (if_pos rfl))
    exact hlast.trans List.getLast?_concat
  · have hopen := opened hx
    have hwrite : c.yhpWrites m true [0x20000, v] = (c.modMaster m.val (fun x => { x with arg0 := v }), [stOK]) := by
      have h := writeWord_writes hw
      rw [regWrite_plain (by decide)] at h
      have he : c.yhpWrites m true [0x20000, v] = ((c.writeWord m 0x20000 v).1, [(c.writeWord m 0x20000 v).2]) := rfl
      rw [he, h]
      rfl
    have hf : c.yhpIn i (msg 0x02 1 [0x20000, v]) = (c.modMaster m.val (fun x => { x with arg0 := v })).modMaster m.val
        (fun x => { x with outbox := x.outbox ++ [{ kind := 0x82, hi := 1, req := req, payload := [0] }] }) := by
      have hconn : ((c.modMaster m.val (fun x => { x with arg0 := v })).master m.val).conn = true := by
        rw [modMaster_master, if_pos rfl]
        exact hx
      refine (if_neg hopen).trans ((if_neg (fun h => absurd h.1 (show ¬ (0x02 : W8) = 0x01 by decide))).trans
        ((if_neg (fun h => absurd h.2 (Nat.succ_ne_zero 1))).trans ((if_pos ⟨rfl, rfl⟩).trans ?_)))
      show (c.yhpWrites m true [0x20000, v]).1.yhpReply m.val _ (packStatus (c.yhpWrites m true [0x20000, v]).2) = _
      rw [hwrite]
      exact yhpReply_conn hconn
    refine completes_quiet (f := fun c => c.yhpIn i (msg 0x02 1 [0x20000, v])) rfl hf hs (quiet_masters _ c) ?_
    rw [modMaster_master, if_pos rfl, modMaster_master, if_pos rfl]
    exact ⟨rfl, rfl, keepsBut_trans (keepsBut_masters (by decide) _) (keepsBut_masters (by decide) _)⟩
  · have hopen := opened hx
    obtain ⟨d, hcmd, ⟨t, rfl⟩, hbank⟩ := yhpCmd_nop (hw (0x20000, a0) (by simp)) (hw (0x20004, a1) (by simp))
      (hw (0x20008, a2) (by simp)) (hw (0x2000C, a3) (by simp)) (hw (0x20010, 0x200) (by simp)) hm hd hret hrole hsv
    have hf : c.yhpIn i (msg 0x03 1 [0x200, a0, a1, a2, a3]) = ({ c with masters := t } : Chip).modMaster m.val
        (fun x => { x with outbox := x.outbox ++ [{ kind := 0x83, hi := 1, req := req, payload := [BitVec.ofNat 32 0x8000] }] }) := by
      have hconn : (({ c with masters := t } : Chip).master m.val).conn = true := by
        rw [hbank]
        exact hx
      refine (if_neg hopen).trans ((if_neg (fun h => absurd h.1 (show ¬ (0x03 : W8) = 0x01 by decide))).trans
        ((if_neg (fun h => absurd h.2 (Nat.succ_ne_zero 4))).trans ((if_neg (fun h => absurd h.1 (show ¬ (0x03 : W8) = 0x02 by decide))).trans
        ((if_pos ⟨rfl, rfl⟩).trans ?_))))
      show (c.yhpCmd m [0x200, a0, a1, a2, a3]).1.yhpReply m.val _ [(c.yhpCmd m [0x200, a0, a1, a2, a3]).2] = _
      rw [hcmd]
      exact yhpReply_conn hconn
    refine completes_quiet (f := fun c => c.yhpIn i (msg 0x03 1 [0x200, a0, a1, a2, a3])) rfl hf hs (quiet_masters _ c) ?_
    rw [modMaster_master, if_pos rfl, hbank]
    exact ⟨rfl, rfl, rfl, rfl, keepsBut_masters (by decide) _⟩

end Sys2Proof.Machine
end

section
/-! Sample instants, zero crossings and phase loss (R54, R57, R134, R224). -/

namespace Sys2Proof.Machine

open Sys2Proof Sys2Proof.Claims

/-! ### What time alone makes due: demand intervals that begin and frames that connections owe -/

/-- The block with other windows latched ahead. -/
def Chip.withAhead (w : List Win) (c : Chip) : Chip := { c with bill := { c.bill with aheadW := w } }

/-- The block with other connections. -/
def Chip.withConns (k : Tbl Conn) (c : Chip) : Chip := { c with safe := { c.safe with conns := k } }

theorem each_ahead {α : Type} {f : α → Chip → Chip} (h : ∀ a c, ∃ w, f a c = Chip.withAhead w c) :
    ∀ (l : List α) (c : Chip), ∃ w, each l f c = c.withAhead w
  | [], c => ⟨c.bill.aheadW, rfl⟩
  | a :: l, c => by
    obtain ⟨w, hw⟩ := h a c
    obtain ⟨w', hw'⟩ := each_ahead h l (f a c)
    exact ⟨w', hw'.trans (by rw [hw]; rfl)⟩

theorem latchWins_ahead (old d : Chip) : ∃ w, Chip.latchWins old d = d.withAhead w := by
  refine each_ahead (fun p c => ?_) _ d
  split
  · exact ⟨c.bill.aheadW, rfl⟩
  · exact ⟨_, rfl⟩

/-- Connections that differ in what they send alone. -/
def SameLinks (c d : Chip) : Prop :=
  ∃ k, d = c.withConns k ∧ ∀ j, (d.conn j).st = (c.conn j).st ∧ (d.conn j).rx = (c.conn j).rx

theorem SameLinks.refl (c : Chip) : SameLinks c c := ⟨c.safe.conns, rfl, fun _ => ⟨rfl, rfl⟩⟩

theorem SameLinks.trans {a b c : Chip} : SameLinks a b → SameLinks b c → SameLinks a c := by
  rintro ⟨k, rfl, h⟩ ⟨k', rfl, h'⟩
  exact ⟨k', rfl, fun j => ⟨(h' j).1.trans (h j).1, (h' j).2.trans (h j).2⟩⟩

theorem modConn_conn (i j : Nat) (g : Conn → Conn) (c : Chip) :
    (c.modConn i g).conn j = if j = i then g (c.conn i) else c.conn j := Tbl.get_put ..

theorem sameLinks_modConn {i : Nat} {g : Conn → Conn} (h : ∀ x, (g x).st = x.st ∧ (g x).rx = x.rx) (c : Chip) :
    SameLinks c (c.modConn i g) := by
  refine ⟨_, rfl, fun j => ?_⟩
  rw [modConn_conn]
  split
  · next hj => rw [(h _).1, (h _).2, hj]; exact ⟨rfl, rfl⟩
  · exact ⟨rfl, rfl⟩

/-- A frame of a connection changes what that connection sends. -/
theorem escNext_cases (i : Nat) (c : Chip) : c.escNext i = c ∨
    ∃ g, c.escNext i = c.modConn i g ∧ ∀ x, (g x).st = x.st ∧ (g x).rx = x.rx := by
  have send (start : Bool) (seq : W16) : c.escSend i start seq = c ∨
      ∃ g, c.escSend i start seq = c.modConn i g ∧ ∀ x, (g x).st = x.st ∧ (g x).rx = x.rx := by
    unfold Chip.escSend
    split
    · exact .inl rfl
    split
    · exact .inr ⟨_, rfl, fun _ => ⟨rfl, rfl⟩⟩
    · exact .inr ⟨_, rfl, fun _ => ⟨rfl, rfl⟩⟩
  unfold Chip.escNext
  dsimp only
  split
  · split
    · exact .inl rfl
    · exact send _ _
  split
  · exact send _ _
  · exact .inl rfl

theorem sameLinks_escNext (i : Nat) (c : Chip) : SameLinks c (c.escNext i) := by
  rcases escNext_cases i c with h | ⟨g, h, hg⟩
  · rw [h]
    exact SameLinks.refl c
  · rw [h]
    exact sameLinks_modConn hg c

theorem escNext_other {i j : Nat} (hj : j ≠ i) (c : Chip) : (c.escNext i).conn j = c.conn j := by
  rcases escNext_cases i c with h | ⟨g, h, -⟩
  · rw [h]
  · rw [h, modConn_conn, if_neg hj]

theorem sameLinks_each : ∀ (l : List Nat) (c : Chip), SameLinks c (each l Chip.escNext c) ∧
    ∀ j, j ∉ l → (each l Chip.escNext c).conn j = c.conn j
  | [], c => ⟨SameLinks.refl c, fun _ _ => rfl⟩
  | i :: l, c => by
    obtain ⟨h, ho⟩ := sameLinks_each l (c.escNext i)
    refine ⟨(sameLinks_escNext i c).trans h, fun j hj => ?_⟩
    rw [List.mem_cons, not_or] at hj
    exact (ho j hj.2).trans (escNext_other hj.1 c)

/-- The frames that are owed leave what the safety zones rest on. -/
theorem SameLinks.safeState {c d : Chip} (h : SameLinks c d) : d.safeState = c.safeState := by
  obtain ⟨k, rfl, h⟩ := h
  have hr : ∀ i, (c.withConns k).remoteCause i = c.remoteCause i := by
    intro i
    unfold Chip.remoteCause
    simp only [(h _).1, (h _).2]
    rfl
  have ha : ∀ x i, (c.withConns k).ackable x i = c.ackable x i := by
    intro x i
    unfold Chip.ackable Chip.tripCause
    rw [hr]
    rfl
  unfold Chip.safeState
  simp only [show (c.withConns k).safe.sf = c.safe.sf from rfl, ha]
  rfl

/-- The block at another time, with other taps and other groups. -/
def Chip.sampledWith (t : Tbl Tap) (g : Tbl TapGroup) (x : Time) (c : Chip) : Chip := { c with taps := t, groups := g, time := x }

/-- The parts of settling that follow the windows, the legal changes and the connections. -/
def Chip.settleTail (old c : Chip) : Chip :=
  Chip.holdsOver old (Chip.setMode (Chip.bayWatch old (Chip.settleField (Chip.tripCheck old (Chip.lampStart old
    (Chip.settleSafe old (Chip.settleAux old (Chip.settleStop old c))))))))

theorem settle_tail (old d : Chip) : Chip.settle old d = Chip.settleTail old (Chip.escPermits old
    (Chip.pulses old (Chip.chooseAll old (Chip.latchWins old d)).settleQuar)) := rfl

/-- What a sample instant leaves makes nothing due but windows and frames of connections. -/
theorem settle_sampled {c : Chip} {l : List Instr} (hs : Settled ⟨c, l⟩) (t : Tbl Tap) (g : Tbl TapGroup) (x : Time)
    (hx : c.now ≤ x.six) : ∃ w k, Chip.settle c (c.sampledWith t g x) = ((c.sampledWith t g x).withAhead w).withConns k ∧
      ((∀ p ∈ c.save.pendTime, p.kind % 8 = 0 → p.stamp ≤ c.now ∨ x.six < p.stamp) → w = c.bill.aheadW) ∧
      ∀ j, (c.escFree j = true ∨ ((c.conn j).st ≠ 1 ∧ (c.conn j).st ≠ 2)) → (c.withConns k).conn j = c.conn j := by
  obtain ⟨w, hw⟩ := latchWins_ahead c (c.sampledWith t g x)
  have hnone : (∀ p ∈ c.save.pendTime, p.kind % 8 = 0 → p.stamp ≤ c.now ∨ x.six < p.stamp) →
      Chip.latchWins c (c.sampledWith t g x) = c.sampledWith t g x := fun h =>
    latchWins_none (fun p hp hk hst => ⟨hp, (h p hp hk).resolve_right (Nat.not_lt.mpr hst)⟩)
  have hw' : (∀ p ∈ c.save.pendTime, p.kind % 8 = 0 → p.stamp ≤ c.now ∨ x.six < p.stamp) → w = c.bill.aheadW := fun h =>
    congrArg (fun c : Chip => c.bill.aheadW) (hw.symm.trans (hnone h))
  let d := (c.sampledWith t g x).withAhead w
  have e1 : Chip.chooseAll c d = d := if_pos ⟨rfl, by
    rw [Bool.not_eq_true', List.any_eq_false]
    intro p _ hp
    obtain ⟨hd, ho⟩ := Bool.and_eq_true_iff.mp hp
    rw [show c.pendDone p = d.pendDone p from rfl, hd] at ho
    cases ho⟩
  have e2 : d.settleQuar = d := settleQuar_noted hs.2.1
  have e3 : Chip.pulses c d = d := each_nil (filter_stale _ (fun _ => id))
  obtain ⟨hl, ho⟩ := sameLinks_each ((List.range 16).filter (fun i => d.permitDue i && !c.permitDue i)) d
  have hset : Chip.settle c (c.sampledWith t g x) = Chip.settleTail c (Chip.escPermits c d) := by
    rw [settle_tail, hw]
    show Chip.settleTail c (Chip.escPermits c (Chip.pulses c (Chip.chooseAll c d).settleQuar)) = _
    rw [e1, e2, e3]
  change SameLinks d (Chip.escPermits c d) at hl
  change ∀ j, _ → (Chip.escPermits c d).conn j = d.conn j at ho
  have hss := hl.safeState
  generalize Chip.escPermits c d = e at hl ho hset hss
  obtain ⟨k, rfl, -⟩ := hl
  refine ⟨w, k, ?_, hw', fun j hj => ho j ?_⟩
  · rw [hset]
    let c' : Chip := ({ c with time := x } : Chip).withConns k
    have hs' : Settled ⟨c', l⟩ := hs
    have hq : Quiet c' (d.withConns k) :=
      ⟨rfl, rfl, rfl, rfl, rfl, rfl, rfl, fun _ => rfl, fun _ => rfl, fun _ => rfl, fun _ => rfl, rfl, fun _ => rfl, rfl⟩
    have hdone := (hq.calm.eased.toFirm.core hs').settle.symm.trans (settle_quiet hs' hq)
    have e5 : Chip.settleStop c (d.withConns k) = d.withConns k := by
      show (if (c.sys.qcause != 0 && c.sys.qcause == 0) || (c.retired && !c.retired) then _ else d.withConns k) = _
      exact if_neg (by cases c.retired <;> simp)
    have e6 : Chip.settleAux c (d.withConns k) = d.withConns k := by
      show Chip.when (c.power.onAux && !c.power.onAux && c.bay.v2gConn) _ (d.withConns k) = _
      cases c.power.onAux <;> rfl
    have e7 : Chip.settleSafe c (d.withConns k) = d.withConns k := if_pos ⟨hss, rfl⟩
    have e7' : Chip.settleSafe c' (d.withConns k) = d.withConns k := if_pos ⟨rfl, rfl⟩
    rw [e7'] at hdone
    unfold Chip.settleTail
    rw [e5, e6, e7]
    exact hdone
  · intro hm
    obtain ⟨hd, hc⟩ := Bool.and_eq_true_iff.mp (List.mem_filter.mp hm).2
    rcases hj with hfree | ⟨h1, h2⟩
    · have hfree' : d.escFree j = true := by
        unfold Chip.escFree at hfree ⊢
        rw [Option.all_eq_true] at hfree ⊢
        intro z hz
        have := of_decide_eq_true (hfree z hz)
        exact decide_eq_true (this.trans hx)
      have : c.permitDue j = d.permitDue j := by
        unfold Chip.permitDue
        rw [hfree, hfree']
        rfl
      rw [this, hd] at hc
      cases hc
    · have h1' : ((c.conn j).st == 1) = false := beq_eq_false_iff_ne.mpr h1
      have h2' : ((c.conn j).st == 2) = false := beq_eq_false_iff_ne.mpr h2
      have hn : d.permitDue j = false := by
        unfold Chip.permitDue
        dsimp only
        rw [show (d.conn j).st = (c.conn j).st from rfl, h1', h2']
        simp
      rw [hn] at hd
      cases hd

/-! ### One sample instant of a group -/

/-- The block whose group has the temperature that comes with a sample. -/
def Chip.warmed (k : Nat) (temp : Option W16) (c : Chip) : Chip :=
  match temp with
  | some v => c.modGroup k (fun g => { g with temp := v })
  | none => c

theorem sampleGroup_warmed (k : Nat) (raw : List RawSample) (temp : Option W16) (c : Chip) :
    c.sampleGroup k raw temp = (c.warmed k temp).sampleGroup k raw none := by
  cases temp <;> rfl

/-- The temperature that a sample instant counts with. -/
def Chip.degrees (k : Nat) (temp : Option W16) (c : Chip) : Int :=
  match temp with
  | some v => v.toInt
  | none => (c.group k).temp.toInt

theorem warmed_eq (k : Nat) (temp : Option W16) (c : Chip) : ∃ g, c.warmed k temp = { c with groups := g } ∧
    (∃ v, (c.warmed k temp).group k = { c.group k with temp := v } ∧ v.toInt = c.degrees k temp) ∧
    ∀ j, j ≠ k → (c.warmed k temp).group j = c.group j := by
  cases temp with
  | none => exact ⟨c.groups, rfl, ⟨(c.group k).temp, rfl, rfl⟩, fun _ _ => rfl⟩
  | some v =>
    exact ⟨_, rfl, ⟨v, (modGroup_group ..).trans (if_pos rfl), rfl⟩, fun j hj => (modGroup_group ..).trans (if_neg hj)⟩

theorem each_taps {α : Type} (f : α → Nat) (g : α → Tap) : ∀ (l : List α) (c : Chip), ∃ t,
    each l (fun x c => c.modTap (f x) (fun _ => g x)) c = { c with taps := t }
  | [], c => ⟨c.taps, rfl⟩
  | a :: l, c => by
    obtain ⟨t, ht⟩ := each_taps f g l (c.modTap (f a) (fun _ => g a))
    exact ⟨t, ht⟩

/-- The values of one instant of a group. -/
def Chip.instantTaps (k : Nat) (raw : List RawSample) (temp : Int) (c : Chip) : List Sample :=
  (List.range 16).map (fun i => ((c.viewAt (c.nextSample k)).convert (16 * k + i) (c.nextSample k)
    (c.nextSample k - (c.group k).newest) temp (raw.getD i {})).2)

theorem modTime_group (f : Time → Time) (c : Chip) (j : Nat) : (c.modTime f).group j = c.group j := rfl

/-- What a sample instant leaves of its group. -/
theorem sampleGroup_facts (k : Nat) (raw : List RawSample) (c : Chip) :
    ∃ t g, c.sampleGroup k raw none = c.sampledWith t g { c.time with six := max c.time.six (c.nextSample k) } ∧
      ((c.sampleGroup k raw none).group k).newest = c.nextSample k ∧
      (∃ x, ((c.sampleGroup k raw none).group k).buf.head? = some x ∧ x.six = c.nextSample k ∧
        x.taps = c.instantTaps k raw (c.group k).temp.toInt) ∧
      ∀ j, j ≠ k → (c.sampleGroup k raw none).group j = c.group j := by
  unfold Chip.sampleGroup
  dsimp only
  obtain ⟨t, ht⟩ := each_taps (fun x : Nat × Tap × Sample => x.1) (fun x => x.2.1) ((List.range 16).map (fun i =>
    (16 * k + i, (c.viewAt (c.nextSample k)).convert (16 * k + i) (c.nextSample k)
      (c.nextSample k - (c.group k).newest) (c.group k).temp.toInt (raw.getD i {})))) c
  rw [ht]
  refine ⟨t, _, rfl, ?_, ⟨c.instant k (c.nextSample k) (c.instantTaps k raw (c.group k).temp.toInt), ?_, rfl, rfl⟩, fun j hj => ?_⟩
  · rw [modTime_group, modGroup_group, if_pos rfl]
  · rw [modTime_group, modGroup_group, if_pos rfl, List.map_map]
    rfl
  · rw [modTime_group, modGroup_group, if_neg hj]
    rfl

/-- A sample instant of a group that records nothing, while no end of metrology is due, leaves its samples alone. -/
theorem afeSample_eq {k : Nat} {raw : List RawSample} {temp : Option W16} {c : Chip} (hoff : c.power.off = false)
    (hstop : c.sys.stopAt = none) (hrec : (c.eng k).recMask = 0) :
    (if c.power.off then c else ((c.sampleGroup k raw temp).tapRecord k).metrologyEnd k) = c.sampleGroup k raw temp := by
  obtain ⟨g, hg, -⟩ := warmed_eq k temp c
  obtain ⟨t, g', he, -⟩ := sampleGroup_facts k raw (c.warmed k temp)
  have h1 : (c.sampleGroup k raw temp).tapRecord k = c.sampleGroup k raw temp := by
    rw [sampleGroup_warmed, he, hg]
    exact if_pos hrec
  rw [if_neg (by rw [hoff]; decide), h1, sampleGroup_warmed, he, hg]
  unfold Chip.metrologyEnd
  show (match c.sys.stopAt with | none => _ | some z => _) = _
  rw [hstop]

/-! ### Zero crossings and phase loss -/

/-- A unit holds a tamper condition. -/
def Chip.tamperHeld (ty : Nat) (c : Chip) (unit : Nat) : Bool := (c.trec ty).holders.any (fun h => h.1 == unit)

theorem tamperHeld_start (ty unit six v : Nat) (c : Chip) :
    (c.tamperStart ty unit six).tamperHeld ty v = (v == unit || c.tamperHeld ty v) := by
  unfold Chip.tamperStart Chip.tamperHeld
  split
  · next h =>
    by_cases hv : v = unit
    · rw [hv, h]
      simp
    · rw [beq_eq_false_iff_ne.mpr hv, Bool.false_or]
  · rw [tamperNote_trec, modTrec_trec, if_pos rfl]
    simp only [List.any_append, List.any_cons, List.any_nil, Bool.or_false]
    rw [Bool.or_comm, BEq.comm]

theorem tamperHeld_end (ty unit six v : Nat) (c : Chip) :
    (c.tamperEnd ty unit six).tamperHeld ty v = (v != unit && c.tamperHeld ty v) := by
  unfold Chip.tamperEnd Chip.tamperHeld
  split
  · next h =>
    by_cases hv : v = unit
    · subst hv
      have hn : (c.trec ty).holders.any (fun h => h.1 == v) = false := by
        simpa [List.find?_eq_none] using h
      rw [hn, Bool.and_false]
    · rw [bne_iff_ne.mpr hv, Bool.true_and]
  · rw [tamperNote_trec, modTrec_trec, if_pos rfl, Bool.eq_iff_iff]
    simp only [List.any_eq_true, List.mem_filter, Bool.and_eq_true, bne_iff_ne, beq_iff_eq]
    constructor
    · rintro ⟨h, ⟨hm, hu⟩, rfl⟩
      exact ⟨hu, h, hm, rfl⟩
    · rintro ⟨hv, h, hm, rfl⟩
      exact ⟨h, ⟨hm, hv⟩, rfl⟩

theorem tamperHeld_starts (ty : Nat) (six : Chip → Nat) (v : Nat) : ∀ (l : List Nat) (c : Chip),
    (each l (fun n c => c.tamperStart ty n (six c)) c).tamperHeld ty v = (l.contains v || c.tamperHeld ty v)
  | [], _ => rfl
  | n :: l, c => by
    refine (tamperHeld_starts ty six v l (c.tamperStart ty n (six c))).trans ?_
    rw [tamperHeld_start, List.contains_cons]
    cases v == n <;> cases l.contains v <;> rfl

theorem tamperHeld_ends (ty : Nat) (six : Chip → Nat) (v : Nat) : ∀ (l : List Nat) (c : Chip),
    (each l (fun n c => c.tamperEnd ty n (six c)) c).tamperHeld ty v = (!l.contains v && c.tamperHeld ty v)
  | [], _ => rfl
  | n :: l, c => by
    refine (tamperHeld_ends ty six v l (c.tamperEnd ty n (six c))).trans ?_
    rw [tamperHeld_end, List.contains_cons, bne]
    cases v == n <;> cases l.contains v <;> rfl

theorem phaseLost_taps {c : Chip} {m n : Nat} (h : n ∈ c.phaseLost m) : n ∈ c.mpTaps m := by
  unfold Chip.phaseLost at h
  dsimp only at h
  split at h
  · cases h
  · exact List.mem_of_mem_filter (List.mem_of_mem_filter h)

/-- The taps that the criterion names hold the condition, and the other taps of the meter point do not. -/
theorem phaseLossCheck_held (m n : Nat) (c : Chip) : (c.phaseLossCheck m).tamperHeld 6 n =
    if n ∈ c.phaseLost m then true else if n ∈ c.mpTaps m then false else c.tamperHeld 6 n := by
  have he : c.phaseLossCheck m = each ((c.phaseLost m).filter (fun n => !c.tamperHeld 6 n)) (fun n c => c.tamperStart 6 n c.now)
      (each ((c.mpTaps m).filter (fun n => c.tamperHeld 6 n && !(c.phaseLost m).contains n)) (fun n c => c.tamperEnd 6 n c.now) c) := rfl
  rw [he, tamperHeld_starts, tamperHeld_ends, Bool.eq_iff_iff]
  have hm := phaseLost_taps (c := c) (m := m) (n := n)
  simp only [Bool.or_eq_true, Bool.and_eq_true, Bool.not_eq_true', List.contains_eq_mem, decide_eq_true_eq,
    decide_eq_false_iff_not, List.mem_filter]
  by_cases hl : n ∈ c.phaseLost m
  · cases c.tamperHeld 6 n <;> simp [hl]
  · by_cases ht : n ∈ c.mpTaps m <;> cases c.tamperHeld 6 n <;> simp [hl, ht]

theorem recorded_each {α : Type} {f : α → Chip → Chip} (h : ∀ a c, Recorded c (f a c)) :
    ∀ (l : List α) (c : Chip), Recorded c (each l f c)
  | [], c => Recorded.refl c
  | a :: t, c => (h a c).trans (recorded_each h t (f a c))

theorem phaseLossCheck_facts (m : Nat) (c : Chip) : Recorded c (c.phaseLossCheck m) ∧ Calm c (c.phaseLossCheck m) := by
  unfold Chip.phaseLossCheck
  dsimp only
  exact ⟨(recorded_each (fun n c => recorded_tamperEnd 6 n _ c) _ c).trans (recorded_each (fun n c => recorded_tamperStart 6 n _ c) _ _),
    (calm_each (fun n c => calm_tamperEnd (by decide) n _ c) _ c).trans (calm_each (fun n c => calm_tamperStart (by decide) n _ c) _ _)⟩

/-- The temperature moves no sample instant. -/
theorem warmed_next {k : Nat} {temp : Option W16} {v : W16} {c : Chip} (h : (c.warmed k temp).group k = { c.group k with temp := v })
    {g : Tbl TapGroup} (hg : c.warmed k temp = { c with groups := g }) : (c.warmed k temp).nextSample k = c.nextSample k := by
  rw [hg] at h ⊢
  unfold Chip.nextSample Chip.gridDAt Chip.rateAt
  rw [h]
  rfl

/-- What settling leaves of a sample instant lies in the taps, the groups, the time, the windows ahead and the connections. -/
theorem keepsBut_sampled (t : Tbl Tap) (g : Tbl TapGroup) (x : Time) (w : List Win) (k : Tbl Conn) (c : Chip) :
    keepsBut [.taps, .groups, .time, .bill, .safe] c (((c.sampledWith t g x).withAhead w).withConns k) :=
  keepsBut_trans (keepsBut_trans (keepsBut_trans (keepsBut_trans (keepsBut_taps (by decide) t) (keepsBut_groups (by decide) g))
    (keepsBut_time (by decide) x)) (keepsBut_bill (by decide) _)) (keepsBut_safe (by decide) _)

/-- A sample instant completes with the samples of its group, the windows that begin and the frames that are owed. -/
theorem completes_afeSample {k : Fin 8} {raw : Vector RawSample 16} {temp : Option W16} {s : State} (hs : Settled s)
    (hoff : s.chip.power.off = false) (hstop : s.chip.sys.stopAt = none) (hrec : (s.chip.eng k.val).recMask = 0) :
    completes (.afeSample k raw temp) s (fun d => (d.group k.val).newest = s.chip.nextSample k.val ∧
      (∃ x, (d.group k.val).buf.head? = some x ∧ x.six = s.chip.nextSample k.val ∧
        x.taps = s.chip.instantTaps k.val raw.toList (s.chip.degrees k.val temp)) ∧
      d.time.six = max s.chip.time.six (s.chip.nextSample k.val) ∧ (∀ j, j ≠ k.val → d.group j = s.chip.group j) ∧
      d.bill = { s.chip.bill with aheadW := d.bill.aheadW } ∧
      ((∀ p ∈ s.chip.save.pendTime, p.kind % 8 = 0 → p.stamp ≤ s.chip.now ∨ d.now < p.stamp) → d.bill = s.chip.bill) ∧
      d.safe = { s.chip.safe with conns := d.safe.conns } ∧
      (∀ j, (s.chip.escFree j = true ∨ ((s.chip.conn j).st ≠ 1 ∧ (s.chip.conn j).st ≠ 2)) → d.conn j = s.chip.conn j) ∧
      keepsBut [.taps, .groups, .time, .bill, .safe] s.chip d) := by
  obtain ⟨g0, hw, ⟨v, hv, hdeg⟩, hother⟩ := warmed_eq k.val temp s.chip
  have hnext := warmed_next hv hw
  obtain ⟨t, g, he, hnew, hbuf, hoth⟩ := sampleGroup_facts k.val raw.toList (s.chip.warmed k.val temp)
  rw [hnext] at he hnew hbuf
  have hinst : (s.chip.warmed k.val temp).instantTaps k.val raw.toList ((s.chip.warmed k.val temp).group k.val).temp.toInt =
      s.chip.instantTaps k.val raw.toList (s.chip.degrees k.val temp) := by
    unfold Chip.instantTaps
    rw [hnext, hv, ← hdeg, hw]
    rfl
  rw [hinst] at hbuf
  have he' : (s.chip.warmed k.val temp).sampleGroup k.val raw.toList none =
      s.chip.sampledWith t g { s.chip.time with six := max s.chip.time.six (s.chip.nextSample k.val) } := by
    rw [he, hw]
    rfl
  rw [he'] at hnew hbuf hoth
  obtain ⟨w, kk, hset, hahead, hconn⟩ := settle_sampled (l := s.pending) hs t g
    { s.chip.time with six := max s.chip.time.six (s.chip.nextSample k.val) } (Nat.le_max_left _ _)
  refine completes_settle (f := fun c => if c.power.off then c else ((c.sampleGroup k.val raw.toList temp).tapRecord k.val).metrologyEnd k.val)
    rfl ((afeSample_eq hoff hstop hrec).trans ((sampleGroup_warmed ..).trans he')) ?_
  rw [hset]
  refine ⟨hnew, hbuf, rfl, fun j hj => (hoth j hj).trans (hother j hj), rfl, fun h => ?_, rfl, hconn, keepsBut_sampled _ _ _ _ _ _⟩
  rw [hahead h]
  rfl

/-- Settles O37: a sample instant, a zero-crossing timeout and the check of phase loss. -/
theorem samplesAndZeroCrossings : Obligations.SamplesAndZeroCrossings := by
  unfold Obligations.SamplesAndZeroCrossings
  intro k raw temp t m n s hs c z degrees
  refine ⟨fun hoff hstop hrec => ?_, fun hcb hmode => ?_, ?_⟩
  · exact completes_imp (completes_afeSample hs hoff hstop hrec)
      (fun d ⟨hn, hb, hx, hg, hbill, hahead, hsafe, hconn, hk⟩ => ⟨hn, hb, hx, hg, hbill, hahead, hsafe, fun j _ => hconn j, hk⟩)
  · have hf : c.zcTimeout t.val = c.modTap t.val (fun t => { t with noac := true, zcPos := 0, zcNeg := 0 }) := by
      refine if_pos ?_
      unfold Chip.zcOn zcMode
      rw [hcb]
      rcases hmode with h | h | h <;> rw [h] <;> rfl
    exact completes_quiet (f := Chip.zcTimeout t.val) rfl hf hs (quiet_far c _ _ _ _ _ _ _ _ _)
      ⟨(modTap_tap ..).trans (if_pos rfl), fun j hj => (modTap_tap ..).trans (if_neg hj), keepsBut_taps (by decide) _⟩
  · obtain ⟨hrec, hcalm⟩ := phaseLossCheck_facts m.val c
    have hheld : (c.phaseLossCheck m.val).tamperHeld 6 n = _ := phaseLossCheck_held m.val n c
    refine completes_calm (f := Chip.phaseLossCheck m.val) rfl rfl hs hcalm (fun f _ => ?_)
    have hk := keepsBut_trans (hrec.keepsBut (bs := [.tamper, .ledger, .evt, .ferry, .hint]) (by decide)) (keepsBut_ferry (by decide) f)
    change (({ c.phaseLossCheck m.val with ferry := f } : Chip)).tamperHeld 6 n = _ at hheld
    refine ⟨fun h => ?_, fun h h' => ?_, fun h => ?_, hk⟩
    · exact hheld.trans (if_pos h)
    · exact hheld.trans ((if_neg h).trans (if_pos h'))
    · exact hheld.trans ((if_neg (fun hl => h (phaseLost_taps hl))).trans (if_neg h))

end Sys2Proof.Machine
end

section
/-! What the AO island and HK sample, and the class A detector of the mesh (R222, R223, R349, R398, R414). -/

namespace Sys2Proof.Machine

open Sys2Proof Sys2Proof.Claims

/-! ### Tamper records behind settling -/

/-- Settling changes no tamper record but that of the quarantine. -/
theorem settle_tamper_quar (old d : Chip) :
    (Chip.settle old d).tamper = (Chip.chooseAll old (Chip.latchWins old d)).settleQuar.tamper := by
  obtain ⟨y, z, hq, hf, hm⟩ := settle_stages old d
  obtain ⟨h, b, hz⟩ := setMode_eq z
  rw [hm.tamper, hz, hf.tamper, settleField_eq, hq.tamper]

/-- What comes before the record of the quarantine leaves its cause and the records. -/
theorem chosen_quar (old d : Chip) : (Chip.chooseAll old (Chip.latchWins old d)).tamper = d.tamper ∧
    (Chip.chooseAll old (Chip.latchWins old d)).sys.qcause = d.sys.qcause := by
  obtain ⟨p, h, en, se, ls, aw, ev, le, fe, ba, he⟩ := (carried_latchWins old d).chosen.trans (chosen_chooseAll old _)
  rw [he]
  exact ⟨rfl, rfl⟩

/-- Where the record of the quarantine agrees with its causes, settling changes no tamper record. -/
theorem settle_tamper {old d : Chip} (h : quarHeld d = (d.sys.qcause != 0)) : (Chip.settle old d).tamper = d.tamper := by
  obtain ⟨ht, hs⟩ := chosen_quar old d
  rw [settle_tamper_quar, settleQuar_noted, ht]
  unfold quarHeld Chip.trec at h ⊢
  rw [ht, hs, h]

/-! ### Changes that the AO island captures -/

theorem tamperStart_other {ty j : Nat} (hj : j ≠ ty) (unit six : Nat) (c : Chip) :
    (c.tamperStart ty unit six).trec j = c.trec j := by
  unfold Chip.tamperStart
  split
  · rfl
  · rw [tamperNote_trec, modTrec_trec, if_neg hj]

theorem tamperEnd_other {ty j : Nat} (hj : j ≠ ty) (unit six : Nat) (c : Chip) :
    (c.tamperEnd ty unit six).trec j = c.trec j := by
  unfold Chip.tamperEnd
  split
  · rfl
  · rw [tamperNote_trec, modTrec_trec, if_neg hj]

/-- Of what is sampled, a tamper record changes nothing. -/
theorem tamperNote_tamper (ty unit six : Nat) (start : Bool) (x : List W8) (c : Chip) :
    (c.tamperNote ty unit six start x).tamper = c.tamper :=
  ((noted_raiseAt _ _ _ _ _ c).follows.trans (carried_stageAt _ _ _ _ _ _ _).follows).tamper

/-- Blocks whose tamper condition differs in the records and in what is captured alone. -/
def SameSampled (c d : Chip) : Prop := ∃ r k, d.tamper = { c.tamper with recs := r, captured := k }

theorem SameSampled.refl (c : Chip) : SameSampled c c := ⟨c.tamper.recs, c.tamper.captured, rfl⟩

theorem SameSampled.trans {a b c : Chip} : SameSampled a b → SameSampled b c → SameSampled a c := by
  rintro ⟨r, k, h⟩ ⟨r', k', h'⟩
  exact ⟨r', k', by rw [h', h]⟩

theorem tamperStart_tamper (ty unit six : Nat) (c : Chip) :
    ∃ r, (c.tamperStart ty unit six).tamper = { c.tamper with recs := r } := by
  unfold Chip.tamperStart
  split
  · exact ⟨c.tamper.recs, rfl⟩
  · rw [tamperNote_tamper]
    exact ⟨_, rfl⟩

theorem tamperEnd_tamper (ty unit six : Nat) (c : Chip) :
    ∃ r, (c.tamperEnd ty unit six).tamper = { c.tamper with recs := r } := by
  unfold Chip.tamperEnd
  split
  · exact ⟨c.tamper.recs, rfl⟩
  · rw [tamperNote_tamper]
    exact ⟨_, rfl⟩

section
variable {ty : Nat} {b : Bool} {c : Chip}

theorem aoChange_powered (h : c.power.off = false) (ty : Nat) (b : Bool) :
    c.aoChange ty b = if b then c.tamperStart ty 0xFF c.now else c.tamperEnd ty 0xFF c.now :=
  if_neg (by rw [h]; decide)

theorem aoChange_unpowered (h : c.power.off = true) (ty : Nat) (b : Bool) : c.aoChange ty b = c.modTamper (fun t =>
    { t with captured := t.captured ++ [(ty, b, c.time.sixP + 320 * t.aoTicks)] }) := if_pos h

theorem recorded_aoChange (ty : Nat) (b : Bool) (c : Chip) : Recorded c (c.aoChange ty b) := by
  unfold Chip.aoChange
  split
  · exact ⟨c.evt, c.ferry, c.sys.hintStatus, _, c.ledger, rfl⟩
  split
  · exact recorded_tamperStart _ _ _ c
  · exact recorded_tamperEnd _ _ _ c

theorem calm_aoChange (h : ty ≠ 23) (b : Bool) (c : Chip) : Calm c (c.aoChange ty b) := by
  unfold Chip.aoChange
  split
  · exact ⟨rfl, rfl, rfl, rfl, rfl, rfl, rfl, fun _ => rfl, fun _ => rfl, fun _ => rfl, fun _ => rfl, rfl, rfl⟩
  split
  · exact calm_tamperStart h _ _ c
  · exact calm_tamperEnd h _ _ c

theorem sameSampled_aoChange (ty : Nat) (b : Bool) (c : Chip) : SameSampled c (c.aoChange ty b) := by
  unfold Chip.aoChange
  split
  · exact ⟨c.tamper.recs, _, rfl⟩
  split
  · obtain ⟨r, h⟩ := tamperStart_tamper ty 0xFF c.now c
    exact ⟨r, c.tamper.captured, h⟩
  · obtain ⟨r, h⟩ := tamperEnd_tamper ty 0xFF c.now c
    exact ⟨r, c.tamper.captured, h⟩

theorem aoChange_captured (h : c.power.off = false) : (c.aoChange ty b).tamper.captured = c.tamper.captured := by
  rw [aoChange_powered h]
  split
  · obtain ⟨r, h⟩ := tamperStart_tamper ty 0xFF c.now c
    rw [h]
  · obtain ⟨r, h⟩ := tamperEnd_tamper ty 0xFF c.now c
    rw [h]

theorem aoChange_other {j : Nat} (hj : j ≠ ty) : (c.aoChange ty b).trec j = c.trec j := by
  unfold Chip.aoChange
  split
  · rfl
  split
  · exact tamperStart_other hj _ _ c
  · exact tamperEnd_other hj _ _ c

theorem aoChange_held (h : c.power.off = false) : (c.aoChange ty b).tamperHeld ty 0xFF = b := by
  rw [aoChange_powered h]
  cases b
  · exact (tamperHeld_end ..).trans (by simp)
  · exact (tamperHeld_start ..).trans (by simp)

theorem aoChange_off (h : c.power.off = true) (j : Nat) : (c.aoChange ty b).trec j = c.trec j := by
  rw [aoChange_unpowered h]
  rfl

end

/-! ### Switches -/

section
variable {ty : Nat} {was is : Bool} {c : Chip}

theorem aoSwitch_same (h : is = was) : c.aoSwitch ty was is = c := if_pos h.symm

theorem aoSwitch_changed (h : is ≠ was) : c.aoSwitch ty was is = c.aoChange ty is := if_neg (Ne.symm h)

theorem recorded_aoSwitch (ty : Nat) (was is : Bool) (c : Chip) : Recorded c (c.aoSwitch ty was is) := by
  unfold Chip.aoSwitch
  split
  · exact Recorded.refl c
  · exact recorded_aoChange _ _ c

theorem calm_aoSwitch (h : ty ≠ 23) (was is : Bool) (c : Chip) : Calm c (c.aoSwitch ty was is) :=
  calm_ite (Calm.refl c) (calm_aoChange h is c)

theorem sameSampled_aoSwitch (ty : Nat) (was is : Bool) (c : Chip) : SameSampled c (c.aoSwitch ty was is) := by
  unfold Chip.aoSwitch
  split
  · exact SameSampled.refl c
  · exact sameSampled_aoChange _ _ c

theorem aoSwitch_other {j : Nat} (hj : j ≠ ty) : (c.aoSwitch ty was is).trec j = c.trec j := by
  unfold Chip.aoSwitch
  split
  · rfl
  · exact aoChange_other hj

theorem aoSwitch_captured (h : c.power.off = false) : (c.aoSwitch ty was is).tamper.captured = c.tamper.captured := by
  unfold Chip.aoSwitch
  split
  · rfl
  · exact aoChange_captured h

theorem aoSwitch_off (h : c.power.off = true) (j : Nat) : (c.aoSwitch ty was is).trec j = c.trec j := by
  unfold Chip.aoSwitch
  split
  · rfl
  · exact aoChange_off h j

end

/-- What a debounced switch shows, and its run of samples unlike it. -/
theorem debounce_seen (was now_ : Bool) (run : Nat) : (now_ = was → (debounce was now_ run).1 = was ∧ (debounce was now_ run).2 = 0) ∧
    (now_ ≠ was → run < 3 → (debounce was now_ run).1 = was ∧ (debounce was now_ run).2 = run + 1) ∧
    (now_ ≠ was → 3 ≤ run → (debounce was now_ run).1 = now_ ∧ (debounce was now_ run).2 = 0) := by
  unfold debounce
  refine ⟨fun h => ?_, fun h hr => ?_, fun h hr => ?_⟩
  · rw [if_pos h]
    exact ⟨rfl, rfl⟩
  · rw [if_neg h, if_neg (by omega)]
    exact ⟨rfl, rfl⟩
  · rw [if_neg h, if_pos hr]
    exact ⟨rfl, rfl⟩

/-- A switch that changes shows what it was sampled as. -/
theorem debounce_changed {was now_ : Bool} {run : Nat} (h : (debounce was now_ run).1 ≠ was) : (debounce was now_ run).1 = now_ := by
  unfold debounce at h ⊢
  split
  · next h' => exact h'.symm
  · next h' =>
    rw [if_neg h'] at h
    split
    · rfl
    · next hr => rw [if_neg hr] at h; exact absurd rfl h

/-! ### The switches as sampled -/

/-- The block behind one period of the island's own clock, which runs while the module has no power. -/
def Chip.ticked (c : Chip) : Chip :=
  c.modTamper (fun t => { t with aoTicks := if c.power.off then t.aoTicks + 1 else t.aoTicks })

/-- The block behind the changes of the three switches. -/
def Chip.switched (cover seal_ lsw : Bool) (c : Chip) : Chip :=
  let t := c.tamper
  ((c.ticked.aoSwitch 0 t.cover
    (debounce t.cover cover t.coverRun).1).aoSwitch 1 t.sealOpen (debounce t.sealOpen seal_ t.sealRun).1).aoSwitch 2 t.lsw
    (debounce t.lsw lsw t.lswRun).1

section
variable (cover seal_ lsw mesh : Bool) (c : Chip)

theorem aoSample_eq : c.aoSample cover seal_ lsw mesh = (c.switched cover seal_ lsw).modTamper (fun t => { t with
    cover := (debounce c.tamper.cover cover c.tamper.coverRun).1
    sealOpen := (debounce c.tamper.sealOpen seal_ c.tamper.sealRun).1
    lsw := (debounce c.tamper.lsw lsw c.tamper.lswRun).1, mesh := mesh
    coverRun := (debounce c.tamper.cover cover c.tamper.coverRun).2
    sealRun := (debounce c.tamper.sealOpen seal_ c.tamper.sealRun).2
    lswRun := (debounce c.tamper.lsw lsw c.tamper.lswRun).2 }) := rfl

theorem calm_modTamper {g : Tamper → Tamper} (h : ∀ t, (g t).recs = t.recs) : Calm c (c.modTamper g) := by
  have ht : (c.modTamper g).trec 23 = c.trec 23 := by
    unfold Chip.trec
    rw [show (c.modTamper g).tamper = g c.tamper from rfl, h]
  refine ⟨?_, rfl, rfl, rfl, rfl, rfl, rfl, fun _ => rfl, fun _ => rfl, fun _ => rfl, fun _ => rfl, rfl, rfl⟩
  unfold Chip.watched
  rw [ht]
  rfl

theorem recorded_modTamper (g : Tamper → Tamper) : Recorded c (c.modTamper g) :=
  ⟨c.evt, c.ferry, c.sys.hintStatus, _, c.ledger, rfl⟩

theorem recorded_ticked : Recorded c c.ticked := recorded_modTamper c _

theorem calm_ticked : Calm c c.ticked := calm_modTamper c (fun _ => rfl)

theorem recorded_switched : Recorded c (c.switched cover seal_ lsw) :=
  (((recorded_ticked c).trans (recorded_aoSwitch _ _ _ _)).trans (recorded_aoSwitch _ _ _ _)).trans (recorded_aoSwitch _ _ _ _)

theorem calm_switched : Calm c (c.switched cover seal_ lsw) :=
  (((calm_ticked c).trans (calm_aoSwitch (by decide) _ _ _)).trans (calm_aoSwitch (by decide) _ _ _)).trans
    (calm_aoSwitch (by decide) _ _ _)

theorem switched_tamper : ∃ r k, (c.switched cover seal_ lsw).tamper = { c.tamper with
    recs := r, captured := k, aoTicks := if c.power.off then c.tamper.aoTicks + 1 else c.tamper.aoTicks } := by
  obtain ⟨r, k, h⟩ := ((sameSampled_aoSwitch 0 c.tamper.cover (debounce c.tamper.cover cover c.tamper.coverRun).1 c.ticked).trans
    (sameSampled_aoSwitch 1 c.tamper.sealOpen (debounce c.tamper.sealOpen seal_ c.tamper.sealRun).1 _)).trans
    (sameSampled_aoSwitch 2 c.tamper.lsw (debounce c.tamper.lsw lsw c.tamper.lswRun).1 _)
  exact ⟨r, k, h⟩

theorem switched_other {j : Nat} (h : 2 < j) : (c.switched cover seal_ lsw).trec j = c.trec j := by
  unfold Chip.switched
  dsimp only
  rw [aoSwitch_other (by omega), aoSwitch_other (by omega), aoSwitch_other (by omega)]
  rfl

section
variable (h : c.power.off = false)
include h

theorem switched_captured : (c.switched cover seal_ lsw).tamper.captured = c.tamper.captured := by
  have h0 : c.ticked.power.off = false := h
  unfold Chip.switched
  dsimp only
  rw [aoSwitch_captured (by rw [(recorded_aoSwitch _ _ _ _).power, (recorded_aoSwitch _ _ _ _).power]; exact h0),
    aoSwitch_captured (by rw [(recorded_aoSwitch _ _ _ _).power]; exact h0), aoSwitch_captured h0]
  rfl

theorem switched_held0 (hc : (debounce c.tamper.cover cover c.tamper.coverRun).1 ≠ c.tamper.cover) :
    (c.switched cover seal_ lsw).tamperHeld 0 0xFF = cover := by
  unfold Chip.switched Chip.tamperHeld
  dsimp only
  rw [aoSwitch_other (by decide), aoSwitch_other (by decide), aoSwitch_changed hc, debounce_changed hc]
  exact aoChange_held h

theorem switched_held1 (hc : (debounce c.tamper.sealOpen seal_ c.tamper.sealRun).1 ≠ c.tamper.sealOpen) :
    (c.switched cover seal_ lsw).tamperHeld 1 0xFF = seal_ := by
  unfold Chip.switched Chip.tamperHeld
  dsimp only
  rw [aoSwitch_other (by decide), aoSwitch_changed hc, debounce_changed hc]
  exact aoChange_held (by rw [(recorded_aoSwitch _ _ _ _).power]; exact h)

theorem switched_held2 (hc : (debounce c.tamper.lsw lsw c.tamper.lswRun).1 ≠ c.tamper.lsw) :
    (c.switched cover seal_ lsw).tamperHeld 2 0xFF = lsw := by
  unfold Chip.switched Chip.tamperHeld
  dsimp only
  rw [aoSwitch_changed hc, debounce_changed hc]
  exact aoChange_held (by rw [(recorded_aoSwitch _ _ _ _).power, (recorded_aoSwitch _ _ _ _).power]; exact h)

end

section
variable (h : c.power.off = true)
include h

theorem switched_off (j : Nat) : (c.switched cover seal_ lsw).trec j = c.trec j := by
  have h0 : c.ticked.power.off = true := h
  unfold Chip.switched
  dsimp only
  rw [aoSwitch_off (by rw [(recorded_aoSwitch _ _ _ _).power, (recorded_aoSwitch _ _ _ _).power]; exact h0),
    aoSwitch_off (by rw [(recorded_aoSwitch _ _ _ _).power]; exact h0), aoSwitch_off h0]
  rfl

omit h in
theorem switched_same (h0 : (debounce c.tamper.cover cover c.tamper.coverRun).1 = c.tamper.cover)
    (h1 : (debounce c.tamper.sealOpen seal_ c.tamper.sealRun).1 = c.tamper.sealOpen)
    (h2 : (debounce c.tamper.lsw lsw c.tamper.lswRun).1 = c.tamper.lsw) :
    (c.switched cover seal_ lsw).tamper.captured = c.tamper.captured := by
  unfold Chip.switched
  dsimp only
  rw [aoSwitch_same h2, aoSwitch_same h1, aoSwitch_same h0]
  rfl

end

end

theorem recorded_aoSample (cover seal_ lsw mesh : Bool) (c : Chip) : Recorded c (c.aoSample cover seal_ lsw mesh) := by
  rw [aoSample_eq]
  exact (recorded_switched cover seal_ lsw c).trans (recorded_modTamper _ _)

theorem calm_aoSample (cover seal_ lsw mesh : Bool) (c : Chip) : Calm c (c.aoSample cover seal_ lsw mesh) := by
  rw [aoSample_eq]
  exact (calm_switched cover seal_ lsw c).trans (calm_modTamper _ (fun _ => rfl))

/-- What a sample of the switches shows. -/
theorem aoSample_tamper (cover seal_ lsw mesh : Bool) (c : Chip) : ∃ r, (c.aoSample cover seal_ lsw mesh).tamper =
    { c.tamper with
      recs := r, captured := (c.switched cover seal_ lsw).tamper.captured
      aoTicks := if c.power.off then c.tamper.aoTicks + 1 else c.tamper.aoTicks
      cover := (debounce c.tamper.cover cover c.tamper.coverRun).1
      sealOpen := (debounce c.tamper.sealOpen seal_ c.tamper.sealRun).1
      lsw := (debounce c.tamper.lsw lsw c.tamper.lswRun).1, mesh := mesh
      coverRun := (debounce c.tamper.cover cover c.tamper.coverRun).2
      sealRun := (debounce c.tamper.sealOpen seal_ c.tamper.sealRun).2
      lswRun := (debounce c.tamper.lsw lsw c.tamper.lswRun).2 } := by
  obtain ⟨r, k, h⟩ := switched_tamper cover seal_ lsw c
  refine ⟨r, ?_⟩
  rw [aoSample_eq]
  show Tamper.mk .. = _
  rw [h]

/-! ### The end of a session of VENDOR with the seal -/

theorem Ended.tamper {c d : Chip} : Ended c d → d.tamper = c.tamper := by
  rintro ⟨_, _, _, _, _, _, _, rfl⟩
  rfl

theorem Ended.sys {c d : Chip} : Ended c d → ∃ h, d.sys = { c.sys with hintStatus := h } := by
  rintro ⟨_, _, _, _, _, _, _, rfl⟩
  exact ⟨_, rfl⟩

theorem ended_vendorEnd (c : Chip) : Ended c c.vendorEnd :=
  ended_ite (ended_each (fun m c => ended_ite (ended_endSession c m) (Ended.refl c)) _ c) (Ended.refl c)

section
variable {s : State} (hs : Settled s) {e : Chip}
include hs

/-- What settling leaves of the records behind a change of conditions other than the quarantine's. -/
theorem settle_vendorEnd_tamper (hq : e.trec 23 = s.chip.trec 23) (hc : e.sys.qcause = s.chip.sys.qcause) :
    (Chip.settle s.chip e.vendorEnd).tamper = e.tamper := by
  have hv := ended_vendorEnd e
  refine (settle_tamper ?_).trans hv.tamper
  obtain ⟨h, hh⟩ := hv.sys
  have hheld : quarHeld e.vendorEnd = quarHeld s.chip := by
    unfold quarHeld Chip.trec
    rw [hv.tamper, ← Chip.trec, hq]
    rfl
  rw [hheld, hh]
  exact hs.2.1.trans (by rw [hc])

end

theorem trec_of_tamper {c d : Chip} (h : d.tamper = c.tamper) (j : Nat) : d.trec j = c.trec j := by
  unfold Chip.trec
  rw [h]

/-- What a sample of the switches leaves, while the mesh is whole or was not. -/
theorem completes_aoTamperSample {cover seal_ lsw mesh : Bool} {s : State} (hs : Settled s)
    (hm : mesh = false ∨ s.chip.tamper.mesh = true) :
    completes (.aoTamperSample cover seal_ lsw mesh) s (fun d =>
      d.tamper = (s.chip.aoSample cover seal_ lsw mesh).tamper ∧
      (s.chip.key.lc ≠ 2 → keepsBut [.tamper, .ledger, .evt, .ferry, .hint] s.chip d)) := by
  have hb : (mesh && !s.chip.tamper.mesh) = false := by
    rcases hm with h | h <;> simp [h]
  have he := recorded_aoSample cover seal_ lsw mesh s.chip
  have hcalm := calm_aoSample cover seal_ lsw mesh s.chip
  have hq : (s.chip.aoSample cover seal_ lsw mesh).trec 23 = s.chip.trec 23 := switched_other cover seal_ lsw s.chip (by decide)
  refine completes_settle (f := fun c => ((c.aoSample cover seal_ lsw mesh).when (mesh && !c.tamper.mesh) (Chip.classA 30)).vendorEnd)
    rfl (d := (s.chip.aoSample cover seal_ lsw mesh).vendorEnd) (by rw [hb]; rfl) ?_
  generalize s.chip.aoSample cover seal_ lsw mesh = e at he hcalm hq
  refine ⟨settle_vendorEnd_tamper hs hq he.sys_qcause, fun hlc => ?_⟩
  have hv : e.vendorEnd = e := if_neg (by rw [he.key]; exact fun h => hlc h.1)
  obtain ⟨f, -, hf⟩ := holdsOver_queues s.chip e
  rw [hv, hcalm.eased.settle (l := s.pending) hs, hf]
  exact keepsBut_trans (he.keepsBut (by decide)) (keepsBut_ferry (by decide) f)

/-! ### The mesh -/

section
variable {cover seal_ lsw : Bool} {s : State}

/-- A mesh that trips without the security engine's power is captured, and the KEK seed is overwritten. -/
theorem completes_meshTrip_unpowered (hs : Settled s) (hm : s.chip.tamper.mesh = false)
    (hp : s.chip.power.off = true ∨ s.chip.power.saving = true) (h0 : s.chip.key.lc ≠ 0) (h4 : s.chip.key.lc ≠ 4) :
    completes (.aoTamperSample cover seal_ lsw true) s (fun d => d.key.kekSeed = 0 ∧ d.key.meshTrip = true ∧
      d.key.lc = s.chip.key.lc ∧ (d.trec 30).cnt = (s.chip.trec 30).cnt ∧
      d.tamper.captured.any (fun x => x.1 == 30) = true) := by
  have he := recorded_aoSample cover seal_ lsw true s.chip
  have h23 : (s.chip.aoSample cover seal_ lsw true).trec 23 = s.chip.trec 23 := switched_other cover seal_ lsw s.chip (by decide)
  have h30 : (s.chip.aoSample cover seal_ lsw true).trec 30 = s.chip.trec 30 := switched_other cover seal_ lsw s.chip (by decide)
  refine completes_settle (f := fun c => ((c.aoSample cover seal_ lsw true).when (true && !c.tamper.mesh) (Chip.classA 30)).vendorEnd)
    rfl (d := ((s.chip.aoSample cover seal_ lsw true).classA 30).vendorEnd) (by rw [hm]; rfl) ?_
  generalize s.chip.aoSample cover seal_ lsw true = e at he h23 h30
  have hcl : e.classA 30 = ({ e with tamper := { e.tamper with
      captured := e.tamper.captured ++ [(30, true, e.time.sixP + 320 * e.tamper.aoTicks)] } } : Chip).modKey
        (fun k => { k with kekSeed := 0, meshTrip := true }) := by
    have hz : (e.key.lc != lcRETIRED && e.key.lc != lcMANUFACTURE) = true := by
      rw [he.key]
      exact Bool.and_eq_true_iff.mpr ⟨bne_iff_ne.mpr h4, bne_iff_ne.mpr h0⟩
    have hoff : e.secOff = true := by
      unfold Chip.secOff
      rw [he.power]
      rcases hp with h | h <;> simp [h]
    unfold Chip.classA
    dsimp only
    rw [if_pos hoff, hz]
    rfl
  rw [hcl]
  have ht := settle_vendorEnd_tamper hs (e := ({ e with tamper := { e.tamper with
      captured := e.tamper.captured ++ [(30, true, e.time.sixP + 320 * e.tamper.aoTicks)] } } : Chip).modKey
        (fun k => { k with kekSeed := 0, meshTrip := true })) h23 he.sys_qcause
  rw [settle_key, (ended_vendorEnd _).key, trec_of_tamper ht 30, ht]
  exact ⟨rfl, rfl, (congrArg Key.lc he.key :), (congrArg TampRec.cnt h30 :), by
    show (e.tamper.captured ++ _).any _ = true
    simp⟩

end

/-! ### Zeroisation -/

/-- The tamper records and the seed of the KEK are as they were. -/
def Seeded (c d : Chip) : Prop := d.tamper = c.tamper ∧ d.key.kekSeed = c.key.kekSeed

theorem Seeded.refl (c : Chip) : Seeded c c := ⟨rfl, rfl⟩

theorem Seeded.trans {a b c : Chip} (h : Seeded a b) (h' : Seeded b c) : Seeded a c := ⟨h'.1.trans h.1, h'.2.trans h.2⟩

theorem seeded_ite {p : Prop} [Decidable p] {c d e : Chip} (hd : Seeded c d) (he : Seeded c e) : Seeded c (if p then d else e) := by
  split
  · exact hd
  · exact he

theorem seeded_each {α : Type} {f : α → Chip → Chip} (h : ∀ a c, Seeded c (f a c)) :
    ∀ (l : List α) (c : Chip), Seeded c (each l f c)
  | [], c => Seeded.refl c
  | a :: t, c => (h a c).trans (seeded_each h t (f a c))

theorem Ended.seeded {c d : Chip} (h : Ended c d) : Seeded c d := ⟨h.tamper, congrArg Key.kekSeed h.key⟩

theorem Follows.seeded {c d : Chip} (h : Follows c d) : Seeded c d := ⟨h.tamper, congrArg Key.kekSeed h.key⟩

theorem seeded_modKey {g : Key → Key} {c : Chip} (h : (g c.key).kekSeed = c.key.kekSeed) : Seeded c (c.modKey g) := ⟨rfl, h⟩

theorem seeded_emptySlot (i : Nat) (c : Chip) : Seeded c (c.emptySlot i) := ⟨rfl, rfl⟩

theorem seeded_modLink (g : Link → Link) (c : Chip) : Seeded c (c.modLink g) := ⟨rfl, rfl⟩

theorem seeded_modSys (g : Sys → Sys) (c : Chip) : Seeded c (c.modSys g) := ⟨rfl, rfl⟩

theorem seeded_setRdy (i : Nat) (b : Bool) (c : Chip) : Seeded c (c.setRdy i b) := seeded_modSys _ c

theorem seeded_endAllSessions (c : Chip) : Seeded c c.endAllSessions :=
  (seeded_ite (Seeded.refl c) (ended_endSession c 0).seeded).trans (seeded_each (fun m c => seeded_ite (Seeded.refl c)
    ((ended_endSession c m).trans (ended_modMaster m _ _)).seeded) _ _)

theorem seeded_platePkt (what block count : Nat) (ver : W16) (c : Chip) : Seeded c (c.platePkt what block count ver) :=
  seeded_ite (noted_fqPut _ _ c).follows.seeded (seeded_modLink _ c)

theorem seeded_plateSessEnd (c : Chip) : Seeded c c.plateSessEnd :=
  seeded_ite ((seeded_modLink _ c).trans (seeded_platePkt _ _ _ _ _)) (seeded_modLink _ c)

theorem seeded_kwrAnswer (e : Nat) (st : W8) (c : Chip) : Seeded c (c.kwrAnswer e st) := seeded_modKey rfl

theorem seeded_linkUse (i : Nat) (c : Chip) : Seeded c (c.linkUse i).2.2 := by
  unfold Chip.linkUse
  dsimp only
  generalize (if !c.rdy rKEYS then stBUSY else c.linkKey i) = st
  split
  · exact seeded_kwrAnswer _ _ c
  · split
    · exact Seeded.refl c
    · exact seeded_kwrAnswer _ _ c

theorem seeded_plateDerive (c : Chip) : Seeded c c.plateDerive := by
  have h := (seeded_linkUse 1 c).trans (seeded_linkUse 0 _)
  unfold Chip.plateDerive
  dsimp only
  generalize (c.linkUse 1).2.2.linkUse 0 = u at h
  exact (h.trans (seeded_modLink _ _)).trans (seeded_modKey rfl)

theorem seeded_plateKeys (c : Chip) : Seeded c c.plateKeys := seeded_ite (seeded_modKey rfl) (seeded_plateDerive c)

theorem seeded_v2gAbort (q : V2gReq) (c : Chip) : Seeded c (c.v2gAbort q) :=
  ((noted_raise _ _ _ _ c).follows.trans ((follows_modBay _ _).trans (carried_v2gPost _ _ _ _).follows)).seeded

/-- What zeroisation leaves of the life cycle, of its cause of quarantine, of the seed and of the readiness of the keys. -/
theorem zeroise2_facts (c : Chip) : Seeded c c.zeroise2 ∧ c.zeroise2.key.lc = 1 ∧ (c.zeroise2.sys.qcause != 0) = true ∧
    c.zeroise2.rdy rKEYS = false := by
  have hslots : ∀ l c, Seeded c (each l (fun i c => if (c.kslot i).empty then c else c.emptySlot i) c) :=
    seeded_each (fun i c => seeded_ite (Seeded.refl c) (seeded_emptySlot i c))
  have h : Seeded c (each slots64 (fun i c => if (c.kslot i).empty then c else c.emptySlot i) c.endAllSessions).plateSessEnd.plateKeys :=
    (((seeded_endAllSessions c).trans (hslots slots64 _)).trans (seeded_plateSessEnd _)).trans (seeded_plateKeys _)
  unfold Chip.zeroise2
  dsimp only
  generalize Chip.plateKeys _ = y at h
  have h2 : Seeded c (if y.bay.v2gConn then y.v2gAbort {} else y) := h.trans (seeded_ite (seeded_v2gAbort {} y) (Seeded.refl y))
  generalize (if y.bay.v2gConn then y.v2gAbort {} else y) = z at h2
  have h3 := h2.trans (seeded_modKey (c := z) (g := fun k =>
    { k with zeroFrom := if k.zeroPend then k.zeroFrom else k.lc, lc := lcPROVISIONED,
             zeroised := true, zeroPend := true, debug := false, testRoot := false, meshTrip := false,
             kwr := { k.kwr with eng := none, slot := 0, queue := [], grace := false } }) rfl)
  have hlc : (z.modKey (fun k =>
    { k with zeroFrom := if k.zeroPend then k.zeroFrom else k.lc, lc := lcPROVISIONED,
             zeroised := true, zeroPend := true, debug := false, testRoot := false, meshTrip := false,
             kwr := { k.kwr with eng := none, slot := 0, queue := [], grace := false } })).key.lc = 1 := rfl
  generalize z.modKey _ = w at h3 hlc
  have hn : Noted ((w.modSys (fun s => { s with qcause := s.qcause ||| 4 })).setRdy rKEYS false) _ :=
    noted_raise 0x1003 0xFF 0 0 ((w.modSys (fun s => { s with qcause := s.qcause ||| 4 })).setRdy rKEYS false)
  refine ⟨(h3.trans ((seeded_modSys _ w).trans (seeded_setRdy _ _ _))).trans hn.follows.seeded, ?_, ?_, ?_⟩
  · rw [hn.follows.key]
    exact hlc
  · rw [hn.follows.qcause]
    show (w.sys.qcause ||| 4 != 0) = true
    generalize w.sys.qcause = q
    revert q
    decide
  · obtain ⟨x, hx⟩ := hn.follows.sys
    unfold Chip.rdy
    rw [hx]
    exact (setRdy_false_rdy rKEYS _ rKEYS (by decide)).trans (by simp)

theorem tamperInst_trec (ty unit six : Nat) (dur : W32) (x : List W8) (j : Nat) (c : Chip) :
    (c.tamperInst ty unit six dur x).trec j = if j = ty then { (c.trec ty).start (c.utc six) with dur := dur } else c.trec j := by
  unfold Chip.tamperInst
  rw [tamperNote_trec, modTrec_trec]

theorem settleQuar_other {j : Nat} (hj : j ≠ 23) (c : Chip) : c.settleQuar.trec j = c.trec j := by
  unfold Chip.settleQuar
  split
  · exact tamperStart_other hj _ _ c
  · exact tamperEnd_other hj _ _ c

/-- The class A detector of the mesh, while the security engine has power: the quarantine is recorded, the trip is
counted, and the keys are zeroised. -/
theorem classA_powered {c : Chip} (hoff : c.power.off = false) (hsav : c.power.saving = false) (h0 : c.key.lc ≠ 0)
    (h4 : c.key.lc ≠ 4) : ∃ x : Chip, quarHeld x = true ∧ (x.trec 30).cnt = satInc (c.trec 30).cnt ∧ x.key.kekSeed = 0 ∧
      c.classA 30 = x.zeroise2 := by
  have hz : (c.key.lc != lcRETIRED && c.key.lc != lcMANUFACTURE) = true :=
    Bool.and_eq_true_iff.mpr ⟨bne_iff_ne.mpr h4, bne_iff_ne.mpr h0⟩
  have hs : c.secOff = false := by
    unfold Chip.secOff
    rw [hoff, hsav]
    rfl
  let y := (c.modSys (fun s => { s with qcause := s.qcause ||| 4 })).settleQuar
  have hy : quarHeld y = true := by
    rw [settleQuar_agrees, (recorded_settleQuar _).sys_qcause]
    show (c.sys.qcause ||| 4 != 0) = true
    generalize c.sys.qcause = q
    revert q
    decide
  refine ⟨(y.tamperInst 30 0xFF y.now 0 []).modKey (fun k => { k with kekSeed := 0 }), ?_, ?_, rfl, ?_⟩
  · unfold quarHeld at hy ⊢
    rw [← hy]
    exact congrArg (fun r : TampRec => r.holders.any _) ((tamperInst_trec 30 0xFF y.now 0 [] 23 y).trans (if_neg (by decide)))
  · refine (congrArg TampRec.cnt ((tamperInst_trec 30 0xFF y.now 0 [] 30 y).trans (if_pos rfl))).trans ?_
    show satInc (y.trec 30).cnt = _
    rw [show y.trec 30 = c.trec 30 from settleQuar_other (by decide) _]
  · unfold Chip.classA
    dsimp only
    rw [if_neg (by rw [hs]; decide), hz, when_true, when_true]

/-- A mesh that trips while the security engine has power zeroises the keys. -/
theorem completes_meshTrip_powered {cover seal_ lsw : Bool} {s : State} (hm : s.chip.tamper.mesh = false)
    (hoff : s.chip.power.off = false) (hsav : s.chip.power.saving = false) (h0 : s.chip.key.lc ≠ 0) (h4 : s.chip.key.lc ≠ 4) :
    completes (.aoTamperSample cover seal_ lsw true) s (fun d => d.key.kekSeed = 0 ∧ d.key.lc = 1 ∧ d.rdy rKEYS = false ∧
      (d.trec 30).cnt = satInc (s.chip.trec 30).cnt) := by
  have he := recorded_aoSample cover seal_ lsw true s.chip
  have h30 : (s.chip.aoSample cover seal_ lsw true).trec 30 = s.chip.trec 30 := switched_other cover seal_ lsw s.chip (by decide)
  refine completes_settle (f := fun c => ((c.aoSample cover seal_ lsw true).when (true && !c.tamper.mesh) (Chip.classA 30)).vendorEnd)
    rfl (d := ((s.chip.aoSample cover seal_ lsw true).classA 30).vendorEnd) (by rw [hm]; rfl) ?_
  generalize s.chip.aoSample cover seal_ lsw true = e at he h30
  obtain ⟨x, hq, hcnt, hk, hx⟩ := classA_powered (by rw [he.power]; exact hoff) (by rw [he.power]; exact hsav) (by rw [he.key]; exact h0)
    (by rw [he.key]; exact h4)
  rw [hx]
  obtain ⟨⟨ht, hseed⟩, hlc, hqc, hrdy⟩ := zeroise2_facts x
  generalize x.zeroise2 = z at ht hseed hlc hqc hrdy
  have hv : z.vendorEnd = z := if_neg (by rw [hlc]; exact fun h => absurd h.1 (by decide))
  have hheld : quarHeld z = (z.sys.qcause != 0) := by
    unfold quarHeld at hq ⊢
    rw [trec_of_tamper ht, hq, hqc]
  obtain ⟨h, m, hsys⟩ := settle_sys s.chip z
  rw [hv, settle_key, trec_of_tamper (settle_tamper hheld) 30, trec_of_tamper ht 30, hcnt, h30]
  refine ⟨hseed.trans hk, hlc, ?_, rfl⟩
  unfold Chip.rdy
  rw [hsys]
  exact hrdy

/-! ### The magnetometer and the temperatures -/

/-- The block behind a magnetometer sample. -/
def Chip.magCounted (v : Nat) (c : Chip) : Chip := c.modTamper (fun t => { t with
  mag := v, magOver := if 400 < v then min 3 (t.magOver + 1) else 0, magUnder := if v < 300 then min 3 (t.magUnder + 1) else 0 })

theorem magSampled_eq (v : Nat) (c : Chip) : c.magSampled v =
    if !c.magHeld && (if 400 < v then min 3 (c.tamper.magOver + 1) else 0) == 3 then (c.magCounted v).aoChange 3 true
    else if c.magHeld && (if v < 300 then min 3 (c.tamper.magUnder + 1) else 0) == 3 then (c.magCounted v).aoChange 3 false
    else c.magCounted v := rfl

theorem magSampled_facts (v : Nat) (c : Chip) : Recorded c (c.magSampled v) ∧ Calm c (c.magSampled v) ∧
    (c.magSampled v).tamper.mag = v := by
  have hr : Recorded c (c.magCounted v) := recorded_modTamper c _
  have hc : Calm c (c.magCounted v) := calm_modTamper c (fun _ => rfl)
  have hm (b : Bool) : ((c.magCounted v).aoChange 3 b).tamper.mag = v := by
    obtain ⟨r, k, h⟩ := sameSampled_aoChange 3 b (c.magCounted v)
    rw [h]
    rfl
  rw [magSampled_eq]
  generalize (!c.magHeld && _) = starts
  generalize (c.magHeld && _) = ends
  split
  · exact ⟨hr.trans (recorded_aoChange 3 true _), hc.trans (calm_aoChange (by decide) true _), hm true⟩
  split
  · exact ⟨hr.trans (recorded_aoChange 3 false _), hc.trans (calm_aoChange (by decide) false _), hm false⟩
  · exact ⟨hr, hc, rfl⟩

theorem magSampled_between {v : Nat} (h3 : 300 ≤ v) (h4 : v ≤ 400) (c : Chip) : (c.magSampled v).trec 3 = c.trec 3 := by
  rw [magSampled_eq, if_neg (Nat.not_lt.mpr h4), if_neg (Nat.not_lt.mpr h3)]
  simp only [show ((0 : Nat) == 3) = false from rfl, Bool.and_false, Bool.false_eq_true, if_false]
  rfl

section
variable {v : Nat} {c : Chip} (hoff : c.power.off = false)
include hoff

theorem magSampled_starts (hh : c.magHeld = false) (ho : 2 ≤ c.tamper.magOver) (hv : 400 < v) :
    (c.magSampled v).tamperHeld 3 0xFF = true := by
  rw [magSampled_eq, if_pos hv, hh, show min 3 (c.tamper.magOver + 1) = 3 by omega]
  exact aoChange_held hoff

theorem magSampled_ends (hh : c.magHeld = true) (hu : 2 ≤ c.tamper.magUnder) (hv : v < 300) :
    (c.magSampled v).tamperHeld 3 0xFF = false := by
  rw [magSampled_eq, if_pos hv, hh, show min 3 (c.tamper.magUnder + 1) = 3 by omega]
  exact aoChange_held hoff

end

/-- The block behind a measured temperature of the backplate. -/
def Chip.backplateSet (b : Int) (c : Chip) : Chip := c.modSys (fun s => { s with backplate := b })

/-- A temperature is out of range. -/
def Chip.tempOut (b : Int) (c : Chip) : Bool :=
  decide (9000 < b) || (List.range 8).any (fun k => decide ((c.group k).temp.toInt < -4000))

theorem tempCheck_eq (b : Int) (c : Chip) : c.tempCheck b =
    if c.tempOut b then (c.backplateSet b).tamperStart 17 0xFF c.now else (c.backplateSet b).tamperEnd 17 0xFF c.now := rfl

theorem tempCheck_facts (b : Int) (c : Chip) : Recorded (c.backplateSet b) (c.tempCheck b) ∧ Calm c (c.tempCheck b) ∧
    (c.tempCheck b).tamperHeld 17 0xFF = c.tempOut b := by
  have hc : Calm c (c.backplateSet b) :=
    ⟨rfl, rfl, rfl, rfl, rfl, rfl, rfl, fun _ => rfl, fun _ => rfl, fun _ => rfl, fun _ => rfl, rfl, rfl⟩
  rw [tempCheck_eq]
  split
  · next h =>
    refine ⟨recorded_tamperStart _ _ _ _, hc.trans (calm_tamperStart (by decide) _ _ _), ?_⟩
    rw [tamperHeld_start, h]
    rfl
  · next h =>
    refine ⟨recorded_tamperEnd _ _ _ _, hc.trans (calm_tamperEnd (by decide) _ _ _), ?_⟩
    rw [tamperHeld_end, Bool.eq_false_iff.mpr h]
    rfl

/-- Settles O48: the switches, the mesh, the magnetometer and the temperatures. -/
theorem tamperSamples : Obligations.TamperSamples := by
  unfold Obligations.TamperSamples
  intro cover seal_ lsw mesh v b s hs c t held frame seen
  refine ⟨fun hm => ?_, fun hmesh hm hp h0 h4 => ?_, fun hmesh hm hoff hsav h0 h4 => ?_, ?_, ?_⟩
  · refine completes_imp (completes_aoTamperSample hs hm) (fun d ⟨ht, hframe⟩ => ?_)
    obtain ⟨r, he⟩ := aoSample_tamper cover seal_ lsw mesh c
    have htrec : ∀ ty, d.trec ty = (c.switched cover seal_ lsw).trec ty := fun ty => trec_of_tamper ht ty
    have hheld : ∀ ty, held ty d = (c.switched cover seal_ lsw).tamperHeld ty 0xFF := fun ty =>
      congrArg (fun r : TampRec => r.holders.any _) (htrec ty)
    rw [ht, he]
    refine ⟨rfl, debounce_seen _ _ _, debounce_seen _ _ _, debounce_seen _ _ _, fun hoff => ⟨?_, ?_, ?_, ?_, ?_⟩,
      fun hoff => ⟨?_, ?_, ?_⟩, hframe⟩
    · exact if_neg (by rw [hoff]; decide)
    · exact switched_captured cover seal_ lsw c hoff
    · exact fun h => (hheld 0).trans (switched_held0 cover seal_ lsw c hoff h)
    · exact fun h => (hheld 1).trans (switched_held1 cover seal_ lsw c hoff h)
    · exact fun h => (hheld 2).trans (switched_held2 cover seal_ lsw c hoff h)
    · exact if_pos hoff
    · exact fun ty => (htrec ty).trans (switched_off cover seal_ lsw c hoff ty)
    · exact fun h0 h1 h2 => switched_same cover seal_ lsw c h0 h1 h2
  · rw [hmesh]
    exact completes_meshTrip_unpowered hs hm hp h0 h4
  · rw [hmesh]
    exact completes_meshTrip_powered hm hoff hsav h0 h4
  · obtain ⟨hr, hcalm, hmag⟩ := magSampled_facts v.toNat c
    have hb := fun h3 h4 => magSampled_between (v := v.toNat) h3 h4 c
    have h1 := fun hoff hh ho hv => magSampled_starts (v := v.toNat) (c := c) hoff hh ho hv
    have h2 := fun hoff hh hu hv => magSampled_ends (v := v.toNat) (c := c) hoff hh hu hv
    refine completes_calm (f := Chip.magSampled v.toNat) rfl rfl hs hcalm (fun f _ => ?_)
    generalize c.magSampled v.toNat = d at hr hmag hb h1 h2
    exact ⟨hmag, keepsBut_trans (hr.keepsBut (by decide)) (keepsBut_ferry (by decide) f), hb, h1, h2⟩
  · obtain ⟨hr, hcalm, hheld⟩ := tempCheck_facts b c
    refine completes_calm (f := Chip.tempCheck b) rfl rfl hs hcalm (fun f _ => ?_)
    have hsys : (c.tempCheck b).sys.backplate = b := by
      obtain ⟨_, _, _, _, _, h⟩ := hr
      rw [h]
      rfl
    generalize c.tempCheck b = d at hr hheld hsys
    refine ⟨hsys, fun hb => hheld.trans ?_, fun hb hg => hheld.trans ?_, keepsBut_trans (keepsBut_trans
      (keepsBut_sys (by decide) (c.backplateSet b).sys rfl) (hr.keepsBut (by decide))) (keepsBut_ferry (by decide) f)⟩
    · unfold Chip.tempOut
      rw [decide_eq_true hb, Bool.true_or]
    · unfold Chip.tempOut
      rw [decide_eq_false (by omega), Bool.false_or, List.any_eq_false]
      intro k hk
      have := hg k (List.mem_range.mp hk)
      simp only [decide_eq_true_eq]
      omega

end Sys2Proof.Machine
end

section
/-! The life of events and the chain of the ledger (R216, R218, R220, R230-R232). -/

namespace Sys2Proof.Machine

open Sys2Proof Sys2Proof.Claims

/-! ### The order of persistence -/

theorem mem_insBy {α : Type} {before : α → α → Bool} {x y : α} : ∀ {l : List α}, y ∈ insBy before x l ↔ y = x ∨ y ∈ l
  | [] => List.mem_singleton.trans (by simp)
  | z :: t => by
    unfold insBy
    split
    · exact List.mem_cons
    · rw [List.mem_cons, mem_insBy, List.mem_cons]
      tauto

theorem mem_sortBy {α : Type} {before : α → α → Bool} {y : α} {l : List α} : y ∈ sortBy before l ↔ y ∈ l := by
  have h : ∀ (l a : List α), y ∈ l.foldl (fun a x => insBy before x a) a ↔ y ∈ a ∨ y ∈ l := by
    intro l
    induction l with
    | nil => simp
    | cons x l ih =>
      intro a
      rw [List.foldl_cons, ih, mem_insBy, List.mem_cons]
      tauto
  exact (h l []).trans (by simp)

/-- Entries in the order of their instants. -/
def Timely (l : List EvtEntry) : Prop := l.Pairwise (fun a b => a.six ≤ b.six)

theorem timely_insBy {x : EvtEntry} : ∀ {l : List EvtEntry}, Timely l → Timely (insBy (fun a b => decide (a.six < b.six)) x l)
  | [], _ => List.pairwise_singleton _ _
  | y :: t, h => by
    obtain ⟨hy, ht⟩ := List.pairwise_cons.mp h
    unfold insBy
    split
    · next hb =>
      have hxy : x.six < y.six := of_decide_eq_true hb
      refine List.pairwise_cons.mpr ⟨fun z hz => ?_, h⟩
      rcases List.mem_cons.mp hz with rfl | hz
      · exact hxy.le
      · exact hxy.le.trans (hy z hz)
    · next hb =>
      have hyx : y.six ≤ x.six := by simpa using hb
      refine List.pairwise_cons.mpr ⟨fun z hz => ?_, timely_insBy ht⟩
      rcases mem_insBy.mp hz with rfl | hz
      · exact hyx
      · exact hy z hz

theorem timely_sortBy (l : List EvtEntry) : Timely (sortBy (fun a b => decide (a.six < b.six)) l) := by
  have h : ∀ (l a : List EvtEntry), Timely a → Timely (l.foldl (fun a x => insBy (fun a b => decide (a.six < b.six)) x a) a) := by
    intro l
    induction l with
    | nil => exact fun _ => id
    | cons x l ih => exact fun a ha => ih _ (timely_insBy ha)
  exact h l [] List.Pairwise.nil

/-- While no closed overrun waits, the oldest reserved entry is persisted first. -/
theorem nextPersist_reserved {e : Evt} {x : EvtEntry} (hovr : ∀ y ∈ e.ring, y.persisted = false → y.ovr = false)
    (hx : x ∈ e.ring) (hp : x.persisted = false) (hr : x.rsv = true) : ∃ z, e.nextPersist = some z ∧
      (z ∈ e.ring ∧ z.persisted = false) ∧ z.rsv = true ∧
      ∀ y, (y ∈ e.ring ∧ y.persisted = false) → y.rsv = true → z.six ≤ y.six := by
  have hnone : (e.ring.filter (fun x => !x.persisted)).find? (fun x => x.ovr) = none := by
    rw [List.find?_eq_none]
    intro y hy
    obtain ⟨hm, hpy⟩ := List.mem_filter.mp hy
    rw [hovr y hm (by simpa using hpy)]
    decide
  have hmem : ∀ y, y ∈ sortBy (fun a b => decide (a.six < b.six)) ((e.ring.filter (fun x => !x.persisted)).filter (fun x => x.rsv)) ↔
      (y ∈ e.ring ∧ y.persisted = false) ∧ y.rsv = true := fun y => by
    rw [mem_sortBy, List.mem_filter, List.mem_filter, Bool.not_eq_true']
  have hsort := timely_sortBy ((e.ring.filter (fun x => !x.persisted)).filter (fun x => x.rsv))
  unfold Evt.nextPersist
  dsimp only
  rw [hnone]
  generalize sortBy _ _ = l at hmem hsort
  cases l with
  | nil => exact absurd ((hmem x).mpr ⟨⟨hx, hp⟩, hr⟩) (by simp)
  | cons z t =>
    obtain ⟨hz, hrz⟩ := (hmem z).mp List.mem_cons_self
    refine ⟨z, rfl, hz, hrz, fun y hy hry => ?_⟩
    rcases List.mem_cons.mp ((hmem y).mpr ⟨hy, hry⟩) with rfl | hm
    · exact Nat.le_refl _
    · exact (List.pairwise_cons.mp hsort).1 y hm

/-! ### Events that enter -/

theorem calm_deliver (c : Chip) : Calm c c.deliver := (noted_deliver c).calm (deliver_owner c 5)

theorem calm_modEvt (g : Evt → Evt) (c : Chip) : Calm c (c.modEvt g) := (noted_modEvt g c).calm rfl

section
variable (x : EvtEntry) (e : Evt)

theorem fold_heldQ : (e.fold x).heldQ = e.heldQ := rfl

theorem enter_heldQ : (Evt.enter x e).heldQ = e.heldQ := by
  unfold Evt.enter
  split
  · split
    · rfl
    · split
      · rfl
      · split <;> rfl
  · split <;> rfl

theorem enters_heldQ : ∀ (l : List EvtEntry) (e : Evt), (l.foldl (fun e x => Evt.enter x e) e).heldQ = e.heldQ
  | [], _ => rfl
  | x :: l, e => (enters_heldQ l (Evt.enter x e)).trans (enter_heldQ x e)

end

theorem deliverOnce_heldQ (c : Chip) : c.deliverOnce.evt.heldQ = c.evt.heldQ := by
  unfold Chip.deliverOnce
  dsimp only
  split <;> rfl

theorem endOverrun_heldQ (c : Chip) : c.endOverrun.evt.heldQ = c.evt.heldQ := by
  unfold Chip.endOverrun Chip.closeOverrun
  dsimp only
  split
  · rfl
  · split <;> rfl

theorem deliver_heldQ (c : Chip) : c.deliver.evt.heldQ = c.evt.heldQ := by
  unfold Chip.deliver
  dsimp only
  split
  · rw [deliverOnce_heldQ]
    exact (enters_heldQ _ _).trans ((endOverrun_heldQ _).trans (deliverOnce_heldQ c))
  · exact deliverOnce_heldQ c

/-- While SV runs, an event is not held. -/
theorem raise_heldQ {c : Chip} (h : c.rdy rSV = true) (code : W16) (unit : Nat) (a0 a1 : W32) :
    (c.raise code unit a0 a1).evt.heldQ = c.evt.heldQ := by
  unfold Chip.raise Chip.raiseAt
  refine (congrArg (fun c : Chip => c.evt.heldQ) (if_pos h)).trans ?_
  exact (deliver_heldQ _).trans (enter_heldQ _ _)

theorem noted_raiseHeld (code : W16) (unit : Nat) (c : Chip) : Noted c (c.raiseHeld code unit) :=
  ((noted_modEvt _ c).trans (noted_modEvt _ _)).trans (noted_deliver _)

theorem calm_raiseHeld (code : W16) (unit : Nat) (c : Chip) : Calm c (c.raiseHeld code unit) :=
  ((calm_modEvt _ c).trans (calm_modEvt _ _)).trans (calm_deliver _)

theorem raiseHeld_heldQ (code : W16) (unit : Nat) (c : Chip) : (c.raiseHeld code unit).evt.heldQ = c.evt.heldQ :=
  (deliver_heldQ _).trans (enter_heldQ _ _)

/-- An offer to a queue is no event. -/
theorem fqOffer_evt (q : Nat) (p : List W32) (c : Chip) : (c.fqOffer q p).1.evt = c.evt ∧ (c.fqOffer q p).1.sys.ready = c.sys.ready := by
  unfold Chip.fqOffer
  dsimp only
  split
  · exact ⟨rfl, rfl⟩
  split
  · exact ⟨rfl, rfl⟩
  split
  · exact ⟨rfl, rfl⟩
  split <;> exact ⟨rfl, rfl⟩

theorem fqPut_heldQ {c : Chip} (h : c.rdy rSV = true) (q : Nat) (p : List W32) : (c.fqPut q p).evt.heldQ = c.evt.heldQ := by
  obtain ⟨he, hr⟩ := fqOffer_evt q p c
  unfold Chip.fqPut
  dsimp only
  split
  · exact raise_heldQ (c := c.modFq q _) h _ _ _ _
  · generalize c.fqOffer q p = r at he hr
    split
    · rw [raise_heldQ (by unfold Chip.rdy at h ⊢; rw [hr]; exact h), he]
    · rw [he]

/-- The packets and the events of the plate enter. -/
theorem plateHeld_enter : ∀ (l : List (List W32 × Bool)) (c : Chip), c.rdy rSV = true →
    let d := each l (fun p c => (c.fqPut 4 p.1).when p.2 (Chip.raiseHeld 0x0F04 0xFF)) c
    Noted c d ∧ Calm c d ∧ d.evt.heldQ = c.evt.heldQ
  | [], c, _ => ⟨Noted.refl c, Calm.refl c, rfl⟩
  | p :: l, c, h => by
    have hstep : Noted c ((c.fqPut 4 p.1).when p.2 (Chip.raiseHeld 0x0F04 0xFF)) ∧
        Calm c ((c.fqPut 4 p.1).when p.2 (Chip.raiseHeld 0x0F04 0xFF)) ∧
        ((c.fqPut 4 p.1).when p.2 (Chip.raiseHeld 0x0F04 0xFF)).evt.heldQ = c.evt.heldQ := by
      have hq := fqPut_heldQ h 4 p.1
      cases p.2 with
      | false => exact ⟨noted_fqPut _ _ c, calm_fqPut (by decide) _ c, hq⟩
      | true =>
        exact ⟨(noted_fqPut _ _ c).trans (noted_raiseHeld _ _ _), (calm_fqPut (by decide) _ c).trans (calm_raiseHeld _ _ _),
          (raiseHeld_heldQ _ _ _).trans hq⟩
    obtain ⟨hn, hc, hq⟩ := hstep
    obtain ⟨hn', hc', hq'⟩ := plateHeld_enter l _ (show Chip.rdy _ rSV = true by
      unfold Chip.rdy
      rw [hn.sys_ready]
      exact h)
    exact ⟨hn.trans hn', hc.trans hc', hq'.trans hq⟩

/-! ### The chain of the ledger -/

/-- Blocks whose ledgers differ in what is known of signatures and of the room alone. -/
def SameChain (c d : Chip) : Prop :=
  keepsBut [.ledger, .evt, .ferry, .hint] c d ∧ Calm c d ∧ ∃ f g w, d.ledger = { c.ledger with firstSeq := f, lastGood := g, fullRaised := w }

theorem SameChain.refl (c : Chip) : SameChain c c :=
  ⟨keepsBut_refl _ c, Calm.refl c, c.ledger.firstSeq, c.ledger.lastGood, c.ledger.fullRaised, rfl⟩

theorem SameChain.trans {a b c : Chip} : SameChain a b → SameChain b c → SameChain a c := by
  rintro ⟨hr, hc, f, g, w, h⟩ ⟨hr', hc', f', g', w', h'⟩
  exact ⟨keepsBut_trans hr hr', hc.trans hc', f', g', w', by rw [h', h]⟩

theorem calm_modLedger (g : Ledger → Ledger) (c : Chip) : Calm c (c.modLedger g) := (quiet_far c _ _ _ _ _ _ _ _ _).calm

theorem sameChain_modLedger {g : Ledger → Ledger} {c : Chip}
    (h : ∃ f l w, g c.ledger = { c.ledger with firstSeq := f, lastGood := l, fullRaised := w }) : SameChain c (c.modLedger g) :=
  ⟨keepsBut_ledger (by decide) _, calm_modLedger g c, h⟩

theorem sameChain_raise (code : W16) (unit : Nat) (a0 a1 : W32) (c : Chip) : SameChain c (c.raise code unit a0 a1) :=
  ⟨(noted_raise _ _ _ _ c).keepsBut (by decide), calm_raise _ _ _ _ c, _, _, _, (noted_raise _ _ _ _ c).ledger⟩

theorem sameChain_ledgerFull (c : Chip) : SameChain c c.ledgerFull := by
  unfold Chip.ledgerFull
  split
  · exact SameChain.refl c
  · exact (sameChain_modLedger (g := fun l => { l with fullRaised := true }) ⟨c.ledger.firstSeq, c.ledger.lastGood, true, rfl⟩).trans
      (sameChain_raise _ _ _ _ _)

/-- The payload of a SIGNATURE record, over what the chain holds. -/
def Chip.signature (c : Chip) : List W8 :=
  sigPayload c.ledger.firstSeq c.ledger.keyGen (if c.canSign then some (Config.sign c.ledger.keyGen.toNat c.ledger.h) else none)

/-- The record that an append takes from a staged one. -/
def Chip.appended (r : LedgerRec) (c : Chip) : LedgerRec :=
  if r.kind == 2 then { r with seq := c.ledger.seq, prev := c.ledger.h, payload := c.signature }
  else { r with seq := c.ledger.seq, prev := c.ledger.h }

theorem appended_facts (r : LedgerRec) (c : Chip) : (c.appended r).seq = c.ledger.seq ∧ (c.appended r).prev = c.ledger.h ∧
    (c.appended r).kind = r.kind ∧ (c.appended r).six = r.six ∧ (c.appended r).len = r.len ∧
    (r.kind ≠ 2 → (c.appended r).payload = r.payload) := by
  unfold Chip.appended LedgerRec.len
  by_cases h : r.kind = 2
  · simp [h]
  · rw [if_neg (by simpa using h)]
    exact ⟨rfl, rfl, rfl, rfl, rfl, fun _ => rfl⟩

/-- What is known of signatures behind a record. -/
def Chip.sealed (sig ok : Bool) (r : LedgerRec) (c : Chip) : Chip :=
  if !sig then c
  else if ok then c.modLedger (fun l => { l with firstSeq := r.seq, lastGood := r.six.toNat })
  else c.raise 0x0903 0xFF 0 0

theorem sameChain_sealed (sig ok : Bool) (r : LedgerRec) (c : Chip) : SameChain c (c.sealed sig ok r) := by
  unfold Chip.sealed
  split
  · exact SameChain.refl c
  split
  · exact sameChain_modLedger ⟨r.seq, r.six.toNat, c.ledger.fullRaised, rfl⟩
  · exact sameChain_raise _ _ _ _ c

/-- The block behind the chaining of a staged record. -/
def Chip.chained (r : LedgerRec) (l : List LedgerRec) (c : Chip) : Chip :=
  (c.modLedger (fun g => { g with staging := l })).modLedger (Ledger.chain c.sys.deviceId (c.appended r))

/-- An append with room puts the oldest staged record at the head of the chain. -/
theorem ledgerPut_chain {r : LedgerRec} {l : List LedgerRec} {c : Chip} (hst : c.ledger.staging = r :: l)
    (hroom : c.ledger.used + r.len ≤ 6442450944) : SameChain (c.chained r l) c.ledgerPut := by
  obtain ⟨-, -, -, -, hlen, -⟩ := appended_facts r c
  have hr : (c.modLedger (fun g => { g with staging := l })).ledgerRoom (c.appended r).len =
      c.modLedger (fun g => { g with staging := l }) := if_pos (by rw [hlen]; exact hroom)
  have he : c.ledgerPut = ((((c.modLedger (fun g => { g with staging := l })).ledgerRoom (c.appended r).len).modLedger
      (Ledger.chain ((c.modLedger (fun g => { g with staging := l })).ledgerRoom (c.appended r).len).sys.deviceId
        (c.appended r))).sealed (r.kind == 2) c.canSign (c.appended r)).ledgerFull := by
    unfold Chip.ledgerPut Chip.sealed Chip.appended Chip.signature
    rw [hst]
  rw [he, hr]
  exact (sameChain_sealed _ _ _ _).trans (sameChain_ledgerFull _)

/-! ### The staging of a signature -/

theorem insRec_length (x : LedgerRec) : ∀ l : List LedgerRec, (insRec x l).length = l.length + 1
  | [] => rfl
  | y :: t => by
    unfold insRec
    split
    · rfl
    · exact congrArg (· + 1) (insRec_length x t)

theorem mem_insRec (x : LedgerRec) : ∀ l : List LedgerRec, x ∈ insRec x l
  | [] => List.mem_cons_self
  | y :: t => by
    unfold insRec
    split
    · exact List.mem_cons_self
    · exact List.mem_cons_of_mem _ (mem_insRec x t)

/-- The record of a signature that is due at an instant. -/
def Chip.sigRec (six : Nat) (c : Chip) : LedgerRec :=
  { c.mkRec 2 0 six [] with place := 2 * recRank (2 : W16).toNat, ord := 0 }

/-- A staged signature is one more record. -/
theorem stageSig_open {c : Chip} (h : c.ledger.closed = false) (six : Nat) : c.stageSig six =
    c.modLedger (fun l => { l with staging := insRec (c.sigRec six) l.staging, lastSig := six }) := by
  have hs : c.stage 2 0 six [] = c.modLedger (fun l => { l with staging := insRec (c.sigRec six) l.staging }) := by
    unfold Chip.stage Chip.stageAt
    rw [if_neg (by rw [h]; decide)]
    rfl
  unfold Chip.stageSig
  rw [hs]
  rfl

/-! ### The copies of the counters -/

/-- A counter that changed is copied to MRAM. -/
theorem countersPersist_src (n : Nat) : ∀ t : Tbl EvtSrc,
    Tbl.get ({} : EvtSrc) (t.map (fun p => (p.1, if p.2.dirty then p.2.persist else p.2))) n =
      if (Tbl.get ({} : EvtSrc) t n).dirty then (Tbl.get ({} : EvtSrc) t n).persist else Tbl.get ({} : EvtSrc) t n
  | [] => rfl
  | (j, y) :: t => by
    unfold Tbl.get
    by_cases h : j = n
    · rw [List.map_cons, if_pos h]
      exact if_pos h
    · rw [List.map_cons, if_neg h]
      exact (if_neg h).trans (countersPersist_src n t)

theorem countersPersist_due {c : Chip} (h : ∀ z, c.evt.srcAt = some z → z + 32000 ≤ c.now) : c.countersPersist =
    c.modEvt (fun e => { e with
      srcAt := some c.now, src := e.src.map (fun p => (p.1, if p.2.dirty then p.2.persist else p.2)) }) := by
  unfold Chip.countersPersist
  dsimp only
  cases hz : c.evt.srcAt with
  | none => rfl
  | some z => exact if_neg (by simpa using h z hz)

theorem countersPersist_soon {c : Chip} {z : Nat} (hz : c.evt.srcAt = some z) (h : c.now < z + 32000) : c.countersPersist = c := by
  unfold Chip.countersPersist
  rw [hz]
  exact if_pos (decide_eq_true h)

/-- The block whose held events have entered the ring, with the packets of the plate on their way. -/
def Chip.heldEntered (c : Chip) : Chip :=
  (c.modEvt (fun e => c.evt.heldQ.foldl (fun e x => Evt.enter x e)
    { e with heldQ := [], src := e.src.map (fun p => (p.1, { p.2 with held := 0 })) })).modLink
      (fun l => { l with plate := { l.plate with heldEv := [] } })

theorem enterHeld_eq {c : Chip} (h : c.rdy rSV = true) : c.enterHeld = Chip.deliver (each c.link.plate.heldEv
    (fun p c => (c.fqPut 4 p.1).when p.2 (Chip.raiseHeld 0x0F04 0xFF)) c.heldEntered) := by
  unfold Chip.enterHeld
  rw [if_neg (by rw [h]; decide)]
  rfl

/-- What the events held while SV was away leave. -/
theorem enterHeld_facts {c : Chip} (h : c.rdy rSV = true) : Calm c c.enterHeld ∧ c.enterHeld.evt.heldQ = [] ∧
    c.enterHeld.link.plate.heldEv = [] ∧ keepsBut [.evt, .ferry, .hint, .link] c c.enterHeld := by
  have hc : Calm c c.heldEntered := (calm_modEvt _ c).trans
    ⟨rfl, rfl, rfl, rfl, rfl, rfl, rfl, fun _ => rfl, fun _ => rfl, fun _ => rfl, fun _ => rfl, rfl, rfl⟩
  have hq : c.heldEntered.evt.heldQ = [] := enters_heldQ _ _
  have hk : keepsBut [.evt, .ferry, .hint, .link] c c.heldEntered :=
    keepsBut_trans (keepsBut_evt (by decide) _) (keepsBut_link (by decide) _)
  have hl : c.heldEntered.link.plate.heldEv = [] := rfl
  obtain ⟨hn, hc', hq'⟩ := plateHeld_enter c.link.plate.heldEv c.heldEntered h
  have hd := hn.trans (noted_deliver _)
  rw [enterHeld_eq h]
  refine ⟨(hc.trans hc').trans (calm_deliver _), (deliver_heldQ _).trans (hq'.trans hq), ?_, keepsBut_trans hk (hd.keepsBut (by decide))⟩
  rw [hd.link]
  exact hl

/-! ### The obligation -/

/-- The persistence of one entry. -/
theorem evtPersist_facts (c : Chip) : Calm c (c.modEvt Evt.persist).deliver ∧ keepsBut noteBlocks c (c.modEvt Evt.persist).deliver ∧
    (c.modEvt Evt.persist).deliver.evt.log = c.evt.persist.log ∧ (c.modEvt Evt.persist).deliver.evt.unarch = c.evt.persist.unarch := by
  have hr := rung_deliver (l := [0x0901]) (by simp) (c.modEvt Evt.persist)
  exact ⟨(calm_modEvt _ c).trans (calm_deliver _), ((noted_modEvt _ c).trans (noted_deliver _)).keepsBut (fun _ => id), hr.log, hr.unarch⟩

theorem persist_some {e : Evt} {x : EvtEntry} (h : e.nextPersist = some x) : e.persist.log = (x :: e.log).take 8192 ∧
    e.persist.unarch = e.unarch + 1 := by
  unfold Evt.persist
  rw [h]
  exact ⟨rfl, rfl⟩

theorem persist_none {e : Evt} (h : e.nextPersist = none) : e.persist.log = e.log := by
  unfold Evt.persist
  rw [h]

/-- Settles O47: the life of events, and the chain of the ledger. -/
theorem eventsAndLedger : Obligations.EventsAndLedger := by
  unfold Obligations.EventsAndLedger
  constructor
  · intro x s hs c open_
    have persists {P : Chip → Prop} (hP : ∀ d : Chip, keepsBut noteBlocks c d → d.evt.log = c.evt.persist.log →
        d.evt.unarch = c.evt.persist.unarch → P d) : completes .evtPersist s P := by
      obtain ⟨hc, hk, hl, hu⟩ := evtPersist_facts c
      refine completes_calm (f := fun c => (c.modEvt Evt.persist).deliver) rfl rfl hs hc (fun f _ => ?_)
      generalize (c.modEvt Evt.persist).deliver = d at hk hl hu
      exact hP _ (keepsBut_trans hk (keepsBut_ferry (by decide) f)) hl hu
    have idle {f : Chip → Chip} {i : Instr} (hi : exec i s = run f s) (hf : f c = c) : answers i s c :=
      answers_quiet hi hf hs (Quiet.refl c)
    refine ⟨fun h => persists (fun d hk hl hu => ?_), fun hovr hx hr => persists (fun d _ hl _ => ?_), fun h => persists (fun d hk hl _ => ?_),
      fun hsv => ?_, fun h => ?_, fun ⟨z, hz, hlt⟩ => ?_, fun hsv => ?_, fun hsv => ⟨?_, ?_⟩⟩
    · obtain ⟨hl', hu'⟩ := persist_some h
      exact ⟨hl.trans hl', hu.trans hu', hk⟩
    · obtain ⟨z, hz, ho, hrz, hmin⟩ := nextPersist_reserved hovr hx.1 hx.2 hr
      exact ⟨z, by rw [hl, (persist_some hz).1]; rfl, ho, hrz, hmin⟩
    · exact ⟨hl.trans (persist_none h), hk⟩
    · exact completes_quiet (f := fun c => if c.rdy rSV then c.modEvt (fun e =>
        { e with archive := (e.log.take e.unarch ++ e.archive).take 4194304, unarch := 0 }) else c) rfl (if_pos hsv) hs
        ((calm_modEvt _ c).quiet (fun _ => rfl)) ⟨rfl, keepsBut_evt (by decide) _⟩
    · exact completes_quiet (f := Chip.countersPersist) rfl (countersPersist_due h) hs ((calm_modEvt _ c).quiet (fun _ => rfl))
        ⟨fun n => countersPersist_src n c.evt.src, rfl, rfl, keepsBut_evt (by decide) _⟩
    · exact idle rfl (countersPersist_soon hz hlt)
    · obtain ⟨hc, hq, hl, hk⟩ := enterHeld_facts hsv
      refine completes_calm (f := Chip.enterHeld) rfl rfl hs hc (fun f _ => ?_)
      generalize c.enterHeld = d at hq hl hk
      exact ⟨hq, hl, keepsBut_trans hk (keepsBut_ferry (by decide) f)⟩
    · exact idle rfl (if_pos (by rw [hsv]; rfl))
    · exact idle rfl (if_neg (by rw [hsv]; decide))
  · intro r l s hs c g
    have idle (h : (c.rdy rSV && !c.ledgerWaits) = true → c.ledgerPut = c) : answers .ledgerAppend s c := by
      refine answers_quiet (f := fun c => if c.rdy rSV && !c.ledgerWaits then c.ledgerPut else c) rfl ?_ hs (Quiet.refl c)
      split
      · next hp => exact h hp
      · rfl
    refine ⟨fun hcl => ?_, fun hsv hst hw hroom => ?_, fun hst hlate => idle (fun h => ?_), fun h => idle (fun h' => ?_), ?_⟩
    · refine completes_quiet (f := fun c => c.stageSig c.now) rfl (stageSig_open hcl _) hs (quiet_far c _ _ _ _ _ _ _ _ _)
        ⟨rfl, insRec_length _ _, ⟨c.sigRec c.now, mem_insRec _ _, rfl, rfl⟩, keepsBut_ledger (by decide) _⟩
    · obtain ⟨hkeep, hcalm, fs, lg, fr, hl⟩ := ledgerPut_chain (c := c) hst hroom
      obtain ⟨hseq, hprev, hkind, hsix, hlen, hpay⟩ := appended_facts r c
      have hdev : (c.chained r l).ledger.h = Config.sha256 ((c.appended r).bytes c.sys.deviceId) := rfl
      have hused : (c.chained r l).ledger.used = g.used + (c.appended r).len := rfl
      refine completes_calm (f := fun c => if c.rdy rSV && !c.ledgerWaits then c.ledgerPut else c) rfl
        (if_pos (by rw [hsv, hw]; rfl)) hs (((calm_modLedger _ c).trans (calm_modLedger _ _)).trans hcalm) (fun f _ => ?_)
      generalize c.ledgerPut = d at hkeep hl
      have hk : keepsBut [.ledger, .evt, .ferry, .hint] c (c.chained r l) :=
        keepsBut_trans (keepsBut_ledger (by decide) _) (keepsBut_ledger (by decide) _)
      refine ⟨congrArg Ledger.staging hl, congrArg Ledger.seq hl, (congrArg Ledger.used hl).trans (by rw [← hlen]; rfl),
        ⟨c.appended r, congrArg Ledger.recs hl, hseq, hprev, hkind, hsix, hpay, congrArg Ledger.h hl⟩,
        keepsBut_trans (keepsBut_trans hk hkeep) (keepsBut_ferry (by decide) f)⟩
    · obtain ⟨k, hk, hlt⟩ := hlate
      have hwait : c.ledgerWaits = true := by
        unfold Chip.ledgerWaits
        rw [show c.ledger.staging = r :: l from hst]
        exact Bool.or_eq_true_iff.mpr (.inl (List.any_eq_true.mpr ⟨k, hk, decide_eq_true hlt⟩))
      rw [hwait, Bool.not_true, Bool.and_false] at h
      cases h
    · rcases h with hsv | hst
      · rw [hsv, Bool.false_and] at h'
        cases h'
      · unfold Chip.ledgerPut
        rw [show c.ledger.staging = [] from hst]
    · refine completes_calm (f := fun c => c.tamperInst 25 0xFF c.now 0 []) rfl rfl hs (calm_tamperInst (by decide) _ _ _ _ c) (fun f _ => ?_)
      have hr := recorded_tamperInst 25 0xFF c.now 0 [] c
      have hcnt := congrArg TampRec.cnt ((tamperInst_trec 25 0xFF c.now 0 [] 25 c).trans (if_pos rfl))
      generalize c.tamperInst 25 0xFF c.now 0 [] = d at hr hcnt
      exact ⟨hcnt, keepsBut_trans (hr.keepsBut (by decide)) (keepsBut_ferry (by decide) f)⟩

end Sys2Proof.Machine
end

section
/-! Civil time and precision time (R194-R201): the mapping's pieces, steps and slews, the frozen mapping, the PTP clock. -/

namespace Sys2Proof.Machine

open Sys2Proof Sys2Proof.Claims

/-! ### Changes of the time block -/

/-- A change of the time block that leaves the newest instant is nothing that settling follows. -/
theorem quiet_modTime {g : Time → Time} {c : Chip} (h : (g c.time).six = c.time.six) : Quiet c (c.modTime g) := by
  have hf : ∀ i, (c.modTime g).escFree i = c.escFree i := fun i => by
    unfold Chip.escFree
    rw [show (c.modTime g).now = c.now from h]
    rfl
  exact Calm.quiet ⟨rfl, rfl, rfl, rfl, h, rfl, rfl, fun _ => rfl, fun _ => rfl, fun i => by
    unfold Chip.permitDue
    rw [hf i]
    rfl, fun _ => rfl, rfl, rfl⟩ (fun _ => rfl)

/-- A command that changes the time block alone, but for its newest instant, completes with that change. -/
theorem completes_modTime {i : Instr} {s : State} {f : Chip → Chip} {g : Time → Time} {P : Chip → Prop}
    (hi : exec i s = run f s) (hs : Settled s) (hf : f s.chip = s.chip.modTime g) (h : (g s.chip.time).six = s.chip.time.six)
    (hP : keepsBut [.time] s.chip (s.chip.modTime g) → P (s.chip.modTime g)) : completes i s P :=
  completes_quiet hi hf hs (quiet_modTime h) (hP (keepsBut_time (by decide) _))

/-- A command that does nothing answers the block. -/
theorem answers_idle {i : Instr} {s : State} {f : Chip → Chip} (hi : exec i s = run f s) (hs : Settled s)
    (hf : f s.chip = s.chip) : answers i s s.chip :=
  answers_quiet hi hf hs (Quiet.refl s.chip)

theorem timeOf_keepsBut {bs : List Block} {c d : Chip} (h : keepsBut bs c d) (hb : Block.time ∉ bs) : d.time = c.time := h .time hb

/-! ### Steps -/

/-- The change of the mapping that a step makes. -/
def Time.stepped (x : PendStep) (t : Time) : Time :=
  { t.piece x.stamp x.ofs (clampRate t.tcxo) with
    slewRem := 0, leapPending := false, stepNeeded := false, valid := true, step := none }

/-- The block whose mapping a step has changed. -/
def Chip.stepTaken (x : PendStep) (c : Chip) : Chip := (c.withdraw (max x.stamp c.now)).modTime (Time.stepped x)

/-- The tamper record of a step, of its sign. -/
def Chip.stepNoted (x : PendStep) (c : Chip) : Chip :=
  if x.ofs < 0 then c.tamperInst 8 0xFF x.stamp (durMs (x.ofs.natAbs / 1000000)) []
  else if 0 < x.ofs then c.tamperInst 9 0xFF x.stamp (durMs (x.ofs.natAbs / 1000000)) [] else c

/-- What follows the tamper record of a step: its record in the ledger, the boundaries it skips or repeats, its ticket. -/
def Chip.stepAfter (x : PendStep) (base : Int) (c : Chip) : Chip :=
  let c := c.stage 0x0C 0 x.stamp (clockPayload 1 x.ofs)
  let c := if 0 < x.ofs then c.handMissed true x.stamp base else c.backFrom (c.civil x.stamp)
  c.complete x.ticket stOK 0

theorem clockStep_eq {x : PendStep} {c : Chip} (h : c.time.step = some x) (hz : x.stamp ≤ c.now) :
    c.clockStep = ((c.stepTaken x).stepNoted x).stepAfter x (c.civil x.stamp) := by
  unfold Chip.clockStep
  rw [h]
  exact if_neg (Nat.not_lt.mpr hz)

theorem handed_handMissed (fwd : Bool) (stamp : Nat) (base : Int) (c : Chip) : Handed c (c.handMissed fwd stamp base) :=
  handed_each (fun _ _ => handed_handTariff ..) _ _

theorem keepsBut_backFrom {bs : List Block} (h : Block.bill ∈ bs) (u : Int) (c : Chip) : keepsBut bs c (c.backFrom u) :=
  keepsBut_each (fun _ _ => keepsBut_when (keepsBut_bill h _)) _ _

/-- The blocks that a step reaches but for civil time and the tamper records. -/
def stepBlocks : List Block := [.masters, .tix, .engs, .save, .tariff, .bill, .ledger, .evt, .ferry, .hint]

theorem keepsBut_stepAfter (x : PendStep) (base : Int) (c : Chip) : keepsBut stepBlocks c (c.stepAfter x base) :=
  keepsBut_trans (keepsBut_trans (keepsBut_stageAt (bs := stepBlocks) (by decide) _ _ _ _ _ _ c) (keepsBut_ite
    ((handed_handMissed ..).keepsBut (by decide)) (keepsBut_backFrom (by decide) _ _))) (keepsBut_complete (by decide) _ _ _ _)

theorem recorded_stepNoted (x : PendStep) (c : Chip) : Recorded c (c.stepNoted x) := by
  unfold Chip.stepNoted
  split
  · exact recorded_tamperInst ..
  · split
    · exact recorded_tamperInst ..
    · exact Recorded.refl c

/-- A step back is counted as tamper record 8, one forward as record 9, and no other record changes. -/
theorem stepNoted_trec (x : PendStep) (c : Chip) :
    ((c.stepNoted x).trec 8).cnt = (if x.ofs < 0 then satInc (c.trec 8).cnt else (c.trec 8).cnt) ∧
    ((c.stepNoted x).trec 9).cnt = (if 0 < x.ofs then satInc (c.trec 9).cnt else (c.trec 9).cnt) ∧
    (c.stepNoted x).trec 23 = c.trec 23 := by
  unfold Chip.stepNoted
  by_cases hn : x.ofs < 0
  · rw [if_pos hn, if_pos hn, if_neg (by omega)]
    simp only [tamperInst_trec]
    exact ⟨rfl, rfl, rfl⟩
  · rw [if_neg hn, if_neg hn]
    by_cases hp : 0 < x.ofs
    · rw [if_pos hp, if_pos hp]
      simp only [tamperInst_trec]
      exact ⟨rfl, rfl, rfl⟩
    · rw [if_neg hp, if_neg hp]
      exact ⟨rfl, rfl, rfl⟩

/-- What a step leaves of civil time and of the tamper records. -/
theorem completes_clockStep {x : PendStep} {s : State} (hs : Settled s) (h : s.chip.time.step = some x)
    (hz : x.stamp ≤ s.chip.now) : completes .clockStep s (fun d => d.time = s.chip.time.stepped x ∧
      (d.trec 8).cnt = (if x.ofs < 0 then satInc (s.chip.trec 8).cnt else (s.chip.trec 8).cnt) ∧
      (d.trec 9).cnt = (if 0 < x.ofs then satInc (s.chip.trec 9).cnt else (s.chip.trec 9).cnt)) := by
  refine completes_settle (f := Chip.clockStep) rfl (clockStep_eq h hz) ?_
  have h0 : keepsBut (.time :: stepBlocks) s.chip (s.chip.stepTaken x) :=
    keepsBut_trans ((handed_withdraw _ _).keepsBut (by decide)) (keepsBut_time (by decide) _)
  have ht : (s.chip.stepTaken x).time = s.chip.time.stepped x := congrArg (Time.stepped x) (handed_withdraw _ _).time
  have hr := recorded_stepNoted x (s.chip.stepTaken x)
  obtain ⟨h8, h9, h23⟩ := stepNoted_trec x (s.chip.stepTaken x)
  have hk := keepsBut_stepAfter x (s.chip.civil x.stamp) ((s.chip.stepTaken x).stepNoted x)
  rw [trec_of_tamper (h0 .tamper (by decide)) 8] at h8
  rw [trec_of_tamper (h0 .tamper (by decide)) 9] at h9
  rw [trec_of_tamper (h0 .tamper (by decide)) 23] at h23
  have hq0 : (s.chip.stepTaken x).sys.qcause = s.chip.sys.qcause := (congrArg Sys.qcause (h0 .sys (by decide)) :)
  have hq1 := hr.sys_qcause.trans hq0
  have ht1 := (timeOf_keepsBut (hr.keepsBut (bs := [.tamper, .ledger, .evt, .ferry, .hint]) (by decide)) (by decide)).trans ht
  generalize (s.chip.stepTaken x).stepNoted x = a at h8 h9 h23 hk hq1 ht1
  generalize a.stepAfter x (s.chip.civil x.stamp) = d at hk
  have hd : d.tamper = a.tamper := hk .tamper (by decide)
  have hq2 : d.sys.qcause = s.chip.sys.qcause := (congrArg Sys.qcause (hk .sys (by decide)) :).trans hq1
  have hheld : quarHeld d = (d.sys.qcause != 0) := by
    unfold quarHeld
    rw [trec_of_tamper hd, h23, hq2]
    exact hs.2.1
  have hset := (settle_tamper (old := s.chip) hheld).trans hd
  rw [settle_time, trec_of_tamper hset, trec_of_tamper hset]
  exact ⟨(timeOf_keepsBut hk (by decide)).trans ht1, h8, h9⟩

/-! ### Time-zone changes -/

theorem cg10Apply_time {y : TzPend} {rest : List TzPend} {c : Chip} (h : c.time.tz = y :: rest) (hz : y.stamp ≤ c.now) :
    c.cg10Apply.time = { c.time with tz := rest } := by
  unfold Chip.cg10Apply
  rw [h]
  dsimp only
  rw [if_neg (Nat.not_lt.mpr hz)]
  have hw := (handed_withdraw c (max y.stamp c.now)).time
  split
  · exact (handed_handMissed ..).time.trans (congrArg (fun t : Time => { t with tz := rest }) hw)
  · exact congrArg (fun t : Time => { t with tz := rest }) hw

theorem cg10Apply_ahead {c : Chip} (h : ∀ y ∈ c.time.tz.head?, c.now < y.stamp) : c.cg10Apply = c := by
  unfold Chip.cg10Apply
  cases hz : c.time.tz with
  | nil => rfl
  | cons y rest => exact if_pos (h y (by rw [hz]; rfl))

/-! ### The rate -/

/-- A change of the mapping's rate that places the boundaries handed on anew leaves the changed time block. -/
theorem replaced_time (g : Time → Time) (c : Chip) : (c.modTime g).replace.time = g c.time := (handed_replace _).time

/-- The block that a freeze of the mapping leaves. -/
def Time.frozen (t : Time) : Time := { t with horizon := max t.horizon t.six }

/-- The error of the crystal as measured next, within its bound. -/
def Chip.crystal (c : Chip) : Int := tcxoBound (Config.free c.free).toInt

/-- The block with the mapping frozen, after a value has been measured. -/
def Chip.measured (c : Chip) : Chip := { c.modTime Time.frozen with free := c.free + 1 }

theorem mapFreeze_free {c : Chip} (hr : c.rdy rSV = true) (h : c.time.srcState = 0) : c.mapFreeze = c.modTime Time.frozen := by
  unfold Chip.mapFreeze
  rw [hr]
  exact if_pos h

theorem mapFreeze_measured {c : Chip} (hr : c.rdy rSV = true) (h : c.time.srcState ≠ 0) :
    c.mapFreeze = c.measured.tcxoSet c.crystal := by
  unfold Chip.mapFreeze
  rw [hr]
  exact if_neg h

/-- A crystal error newly measured while nothing is slewed enters the rate. -/
theorem tcxoSet_time {e : Int} {c : Chip} (he : e ≠ c.time.tcxo) (h0 : c.time.slewRem = 0) :
    (c.tcxoSet e).time = { c.time.piece c.pieceStart 0 (clampRate e) with slewRem := 0, tcxo := e } := by
  have hl : c.time.slewLeft c.pieceStart = 0 := by
    unfold Time.slewLeft
    split
    · rfl
    · exact if_pos h0
  have hx : ∀ slew left : Int, slew = 0 → left = 0 → (c.modTime (fun t =>
      { t.piece c.pieceStart 0 (clampRate (e + slew)) with slewRem := left, tcxo := e })).replace.time =
      { c.time.piece c.pieceStart 0 (clampRate e) with slewRem := 0, tcxo := e } := by
    rintro _ _ rfl rfl
    rw [replaced_time, Int.add_zero]
  unfold Chip.tcxoSet
  rw [if_neg he]
  refine hx _ _ ?_ hl
  split
  · rfl
  · exact if_pos h0

/-! ### Precision time -/

theorem cf_lt (a lo len : Nat) (c : Chip) : c.cf a lo len < 2 ^ len := Nat.mod_lt _ (Nat.two_pow_pos _)

/-- The time block after an offset within 1 µs has been measured. -/
def Time.offsetSeen (o : Int) (t : Time) : Time :=
  { t with offset := o, ptp := { t.ptp with syncs := t.ptp.syncs + 1, twoStep := false }
           srcState := if 16 ≤ t.ptp.syncs + 1 then 3 else t.srcState
           stepNeeded := false }

theorem ptpOffset_small {o : Int} {c : Chip} (hv : c.time.valid = true) (hlo : -1000 < o) (hhi : o < 1000) :
    c.ptpOffset o = c.modTime (Time.offsetSeen o) := by
  have hmax : max (-2147483647) (min 2147483647 o) = o := by omega
  have h1 : decide (nsS < o) = false := decide_eq_false (by unfold nsS; omega)
  have h2 : decide (o < -nsS) = false := decide_eq_false (by unfold nsS; omega)
  unfold Chip.ptpOffset
  dsimp only
  rw [if_pos (c := -100000 < o ∧ o < 100000) (by omega), hmax, h1, h2, if_neg (by rw [Chip.modTime]; dsimp only; rw [hv]; decide),
    if_pos (by omega)]
  unfold Time.offsetSeen
  simp only [Bool.or_false, Bool.and_false]
  rfl

/-- A frame of the domain, the port and the transport that the block is configured for. -/
def Chip.ptpFrame (c : Chip) (src : W64) (m : PtpMsg) : PtpFrame :=
  { port := c.cb 0x80000 28, udp := c.cb 0x80000 29, domain := BitVec.ofNat 8 (c.cf 0x80000 16 8), src := src, msg := m }

theorem ptpRx_mine {c : Chip} (h : c.ptpOn = true) (src : W64) (m : PtpMsg) : c.ptpRx (c.ptpFrame src m) = c.ptpTake src m := by
  have hd : (c.ptpFrame src m).domain.toNat = c.cf 0x80000 16 8 := by
    show (BitVec.ofNat 8 (c.cf 0x80000 16 8)).toNat = _
    rw [BitVec.toNat_ofNat]
    exact Nat.mod_eq_of_lt (cf_lt _ _ 8 c)
  have hm : c.ptpMine (c.ptpFrame src m) = true := by
    unfold Chip.ptpMine
    rw [hd]
    simp [Chip.ptpFrame]
  unfold Chip.ptpRx
  rw [h, hm]
  rfl

theorem ptpRx_other {c : Chip} {f : PtpFrame} (h : c.ptpOn = false ∨ f.port ≠ c.cb 0x80000 28 ∨ f.udp ≠ c.cb 0x80000 29 ∨
    f.domain.toNat ≠ c.cf 0x80000 16 8) : c.ptpRx f = c := by
  have hx : (c.ptpOn && c.ptpMine f) = false := by
    unfold Chip.ptpMine
    rcases h with h | h | h | h <;> simp [h]
  unfold Chip.ptpRx
  rw [hx]
  rfl

/-- The time block after the first announced master has been selected. -/
def Time.announced (src : W64) (ds : List Nat) (id : W64) (uo : W8) (leap leapAt : Int) (early : Bool) (t : Time) : Time :=
  { t with
    srcState := 2, utcOffset := uo
    ptp := { t.ptp with
      gmId := id, parent := src, gmData := ds, syncs := 0
      leap := if early then leap else if leap = 0 then 0 else t.ptp.leap
      leapAt := if early then leapAt else t.ptp.leapAt } }

theorem ptpAnnounce_first {c : Chip} (h : c.time.srcState.toNat < 2) (src : W64) (ds : List Nat) (id : W64) (uo : W8)
    (leap leapAt : Int) : c.ptpAnnounce src ds id uo leap leapAt =
      c.modTime (Time.announced src ds id uo leap leapAt (leap != 0 && decide (c.civil c.now + 2000 * nsS ≤ leapAt))) := by
  unfold Chip.ptpAnnounce Time.announced
  simp only [decide_eq_true h, Bool.true_or, Bool.not_true, Bool.false_eq_true, if_false, if_true]

/-- A one-step Sync of the clock that is followed is a measured offset. -/
theorem ptpTake_sync {c : Chip} (h : c.time.srcState = 2 ∨ c.time.srcState = 3) (seq : W16) (origin rx : Int) :
    c.ptpTake c.time.ptp.parent (.sync false seq origin rx) = c.ptpOffset (rx - origin - c.time.ptp.delay) := by
  refine (if_neg ?_).trans (if_neg (by decide))
  rcases h with h | h <;> rw [h] <;> simp

/-- A two-step Sync of the clock that is followed waits for its Follow_Up. -/
theorem ptpTake_twoStep {c : Chip} (h : c.time.srcState = 2 ∨ c.time.srcState = 3) (seq : W16) (origin rx : Int) :
    c.ptpTake c.time.ptp.parent (.sync true seq origin rx) =
      c.modTime (fun t => { t with ptp := { t.ptp with twoStep := true, seq := seq, rx := rx } }) := by
  refine (if_neg ?_).trans (if_pos rfl)
  rcases h with h | h <;> rw [h] <;> simp

/-- The rate that a leap second is smeared with, and what its slew still has to apply. -/
def Time.smeared (start : Nat) (t : Time) : Time :=
  { t.piece start 0 (clampRate (t.tcxo + (if 0 < t.ptp.leap then -maxRate else maxRate))) with
    slewRem := if 0 < t.ptp.leap then -nsS else nsS, leapPending := true, ptp := { t.ptp with leap := 0 } }

theorem leapStart_time {c : Chip} (hl : c.time.ptp.leap ≠ 0) (hp : c.ptpOn = true) (hv : c.time.valid = true) :
    c.leapStart.time = c.time.smeared c.pieceStart := by
  unfold Chip.leapStart
  dsimp only
  rw [if_neg (by rw [hp, hv]; simp [hl]), (noted_raise _ _ _ _ _).time]
  exact replaced_time _ c

/-! ### The obligation -/

/-- Settles O44: what the commands of civil time and of the PTP clock leave in the time block. -/
theorem civilAndPrecisionTime : Obligations.CivilAndPrecisionTime := by
  unfold Obligations.CivilAndPrecisionTime
  constructor
  · intro x y rest meas s hs c t err
    refine ⟨fun h hz _ => ?_, fun h hz => ?_, fun h => ?_, fun hr h => ?_, fun hr => ?_, fun hr h => ⟨fun he => ?_, fun he h0 => ?_⟩,
      fun h => ?_, fun h => ?_, fun hl hp hv => ?_⟩
    · exact completes_imp (completes_clockStep hs h hz) (fun d ⟨ht, h8, h9⟩ => by
        rw [ht]
        exact ⟨rfl, rfl, rfl, rfl, rfl, rfl, h8, h9⟩)
    · refine completes_settle (f := Chip.cg10Apply) rfl rfl ?_
      rw [settle_time, cg10Apply_time h hz]
      exact ⟨rfl, rfl, rfl⟩
    · exact answers_idle (f := Chip.cg10Apply) rfl hs (cg10Apply_ahead h)
    · exact completes_modTime (f := Chip.mapFreeze) rfl hs (mapFreeze_free hr h) rfl (fun hk => ⟨rfl, hk⟩)
    · exact answers_idle (f := Chip.mapFreeze) rfl hs (by unfold Chip.mapFreeze; rw [hr]; rfl)
    · have hm : c.mapFreeze = c.measured := (mapFreeze_measured hr h).trans (if_pos he)
      have hq : Quiet c c.measured := ((quiet_modTime (g := Time.frozen) (c := c) rfl).calm.trans
        (calm_far _ _ _ _ _ _ _ _ _ _ _ _ _ _)).quiet (fun _ => rfl)
      exact completes_quiet (f := Chip.mapFreeze) rfl hm hs hq
        ⟨rfl, keepsBut_trans (keepsBut_time (by decide) _) (keepsBut_free (by decide) _)⟩
    · refine completes_settle (f := Chip.mapFreeze) rfl (mapFreeze_measured hr h) ?_
      rw [settle_time, tcxoSet_time (c := s.chip.measured) (e := s.chip.crystal) he h0]
      exact ⟨rfl, rfl, rfl, rfl, rfl⟩
    · exact completes_modTime (f := Chip.aoCalibrate meas) rfl hs (if_neg (by rw [h]; decide)) rfl (fun hk => ⟨rfl, hk⟩)
    · refine completes_settle (f := Chip.slewEnd) rfl (if_neg h) ?_
      rw [settle_time, replaced_time]
      exact ⟨rfl, rfl, rfl, rfl, rfl, rfl⟩
    · refine completes_settle (f := Chip.leapStart) rfl rfl ?_
      rw [settle_time, leapStart_time hl hp hv]
      exact ⟨rfl, rfl, rfl, rfl⟩
  · intro ds id src uo leap leapAt o rx seq f s hs c t n kept mine
    have took {src : W64} {m : PtpMsg} (hp : c.ptpOn = true) {d : Chip} (h : c.ptpTake src m = d) :
        c.ptpRx (c.ptpFrame src m) = d := (ptpRx_mine hp src m).trans h
    have hkept (hk : keepsBut [.time] c (c.modTime (Time.offsetSeen o))) : kept (c.modTime (Time.offsetSeen o)) :=
      ⟨rfl, rfl, rfl, rfl, hk⟩
    refine ⟨fun h => answers_idle (f := Chip.ptpRx f) rfl hs (ptpRx_other h), fun hp => ⟨fun h => ?_, ?_, fun h => ⟨fun hne => ⟨?_, ?_⟩, ?_,
      fun hv hlo hhi => ⟨?_, fun h2 hq => ?_⟩⟩⟩, fun h => ?_, fun h3 ho hn => ?_⟩
    · exact completes_modTime (f := Chip.ptpRx _) rfl hs (took hp (ptpAnnounce_first h src ds id uo leap leapAt)) rfl
        (fun hk => ⟨rfl, rfl, rfl, rfl, rfl, rfl, hk⟩)
    · refine completes_modTime (f := Chip.ptpRx _) rfl hs (took hp (d := c.modTime (fun t => { t with ptp := { t.ptp with delay := o } })) ?_)
        rfl (fun hk => ⟨rfl, hk⟩)
      show c.when (c.cb 0x80000 30 == c.cb 0x80000 30 && (c.cb 0x80000 30 || t.ptp.parent == t.ptp.parent)) _ = _
      rw [beq_self_eq_true, beq_self_eq_true, Bool.or_true]
      rfl
    · exact answers_idle (f := Chip.ptpRx _) rfl hs (took hp (if_pos (.inr (.inr (Ne.symm hne)))))
    · exact answers_idle (f := Chip.ptpRx _) rfl hs (took hp (if_neg (fun h => hne h.2.2.symm)))
    · exact completes_modTime (f := Chip.ptpRx _) rfl hs (took hp (ptpTake_twoStep h seq o rx)) rfl (fun hk => ⟨rfl, hk⟩)
    · have hx : rx - (rx - c.time.ptp.delay - o) - c.time.ptp.delay = o := by omega
      refine completes_modTime (f := Chip.ptpRx _) rfl hs (took hp ((ptpTake_sync h seq _ rx).trans ?_)) rfl hkept
      rw [hx]
      exact ptpOffset_small hv hlo hhi
    · have hx : c.time.ptp.rx - (c.time.ptp.rx - c.time.ptp.delay - o) - c.time.ptp.delay = o := by omega
      refine completes_modTime (f := Chip.ptpRx _) rfl hs (took hp ((if_pos ⟨h2, hq, rfl⟩).trans ?_)) rfl hkept
      rw [hx]
      exact ptpOffset_small hv hlo hhi
    · exact completes_modTime (f := Chip.ptpTimeout) rfl hs (if_pos h.symm) rfl (fun hk => ⟨rfl, rfl, rfl, rfl, hk⟩)
    · let a := c.modTime (fun t => { t with stepNeeded := true })
      have hcalm : Calm c (a.raise 0x0801 0xFF 0 0) := (quiet_modTime rfl).calm.trans (calm_raise _ _ _ _ a)
      refine completes_calm (f := Chip.stepNeeded) rfl (if_pos ⟨h3, ho, by rw [show c.time.stepNeeded = false from hn]; rfl⟩) hs hcalm (fun f _ => ?_)
      have hr := noted_raise 0x0801 0xFF 0 0 a
      have hcnt := raise_cnt (code := 0x0801) (by decide) 0xFF 0 0 a
      have hk : keepsBut [.time, .evt, .ferry, .hint] c a := keepsBut_time (by decide) _
      have ht : a.time = { t with stepNeeded := true } := rfl
      have he : a.evt = c.evt := rfl
      rw [he] at hcnt
      generalize a.raise 0x0801 0xFF 0 0 = d at hr hcnt
      exact ⟨hr.time.trans ht, hcnt, keepsBut_trans (keepsBut_trans hk (hr.keepsBut (by decide))) (keepsBut_ferry (by decide) f)⟩

end Sys2Proof.Machine
end

section
/-! The boundaries that civil time schedules (R75, R168-R177): how the next ones are handed over, and what the first one
leaves at its turn. -/

namespace Sys2Proof.Machine

open Sys2Proof Sys2Proof.Claims

/-! ### Settling after a hand-over -/

theorem calm_withAhead (w : List Win) (c : Chip) : Calm c (c.withAhead w) :=
  ⟨rfl, rfl, rfl, rfl, rfl, rfl, rfl, fun _ => rfl, fun _ => rfl, fun _ => rfl, fun _ => rfl, rfl, rfl⟩

/-- Once the windows of what has begun are fixed, settling is the same whatever was scheduled. -/
theorem settle_handed {old d : Chip} {l : List Instr} (ht : Timed old d) (hs : Settled ⟨old, l⟩) :
    ∃ w f, Chip.settle old d = { d.withAhead w with ferry := f } := by
  obtain ⟨w, hw⟩ := latchWins_ahead old d
  have hn : d.now = old.now := (ht.calm []).time
  have hl : Chip.latchWins (old.scheduled d.save.pendTime) (d.withAhead w) = d.withAhead w :=
    latchWins_none (fun p hp _ hst => ⟨hp, hn ▸ hst⟩)
  have hset : Chip.settle old d = Chip.settle (old.scheduled d.save.pendTime) (d.withAhead w) := by
    unfold Chip.settle
    dsimp only
    rw [hl, hw, chooseAll_scheduled, pulses_scheduled, escPermits_scheduled, settleStop_scheduled, settleAux_scheduled,
      settleSafe_scheduled, lampStart_scheduled, tripCheck_scheduled, bayWatch_scheduled, holdsOver_scheduled]
  have hc : Calm (old.scheduled d.save.pendTime) (d.withAhead w) := (ht.calm d.save.pendTime).trans (calm_withAhead w d)
  rw [hset, hc.eased.settle (settled_scheduled hs _)]
  obtain ⟨f, -, he⟩ := holdsOver_queues (old.scheduled d.save.pendTime) (d.withAhead w)
  exact ⟨w, f, he⟩

/-! ### The hand-over -/

theorem each_pendTime {α : Type} {f : α → Chip → Chip} {y : PendTime}
    (h : ∀ a c, y ∈ c.save.pendTime → y ∈ (f a c).save.pendTime) :
    ∀ (l : List α) (c : Chip), y ∈ c.save.pendTime → y ∈ (each l f c).save.pendTime
  | [], _, hy => hy
  | a :: t, c, hy => each_pendTime h t (f a c) (h a c hy)

theorem mem_handBoundary {y : PendTime} (src k ord stamp tar : Nat) (u : Int) (c : Chip) (hy : y ∈ c.save.pendTime) :
    y ∈ (c.handBoundary src k ord u stamp tar).save.pendTime := by
  rw [handBoundary_pendTime]
  exact mem_insPend.mpr (.inr hy)

theorem mem_handTariff {y : PendTime} (src fwd ord stamp : Nat) (p : Nat × Int × Nat) (c : Chip) (hy : y ∈ c.save.pendTime) :
    y ∈ (c.handTariff src fwd ord stamp p).save.pendTime := by
  rw [handTariff_pendTime]
  exact mem_insPend.mpr (.inr hy)

/-- The next demand boundary. -/
def Chip.nextDemand (c : Chip) : Int := c.nextBoundary c.demandCfg (c.execBase 0 (c.civil c.now))

/-- The hand-over of the closes and of the tariff's boundaries behind that of the demand boundary. -/
def Chip.handRest (from_ : Int) (c : Chip) : Chip :=
  let c := each (c.closesIn (c.execBase 1 from_) (from_ + nsS)) (fun u c => c.handBoundary 0 1 0 u (c.sixOfCivil u) 0) c
  each (c.tariffPlan (c.execBase 2 from_) (from_ + nsS)) (fun p c => c.handTariff 0 0 0 (c.sixOfCivil p.2.1) p) c

theorem handoff_eq {c : Chip} (hv : c.time.valid = true) (hr : c.rdy rSV = true) (h : c.nextDemand ≤ c.civil c.now + nsS) :
    c.handoff = (c.handBoundary 0 0 0 c.nextDemand (c.sixOfCivil c.nextDemand) 0).handRest (c.civil c.now) :=
  (if_neg (by rw [hv, hr]; decide)).trans (congrArg (Chip.handRest (c.civil c.now)) (if_pos h))

theorem handoff_idle {c : Chip} (h : c.time.valid = false ∨ c.rdy rSV = false) : c.handoff = c :=
  if_pos (by rcases h with h | h <;> rw [h] <;> simp)

theorem mem_handRest {y : PendTime} (u : Int) {c : Chip} (hy : y ∈ c.save.pendTime) : y ∈ (c.handRest u).save.pendTime :=
  each_pendTime (fun _ _ => mem_handTariff _ _ _ _ _ _) _ _ (each_pendTime (fun _ _ => mem_handBoundary _ _ _ _ _ _ _) _ _ hy)

/-! ### The turn of the first boundary -/

/-- An adjustment of the registers to zero lies before the boundary. -/
def Chip.zeroBefore (c : Chip) (p : PendTime) : Prop :=
  ∃ e ∈ c.cfg.pend, e.kind = 0x101 ∧ e.applied = false ∧ e.stamp.getD 0 < p.stamp

section
variable {kinds : List Nat} {commit : Bool} {f : PendTime → Chip → Chip} {c : Chip} {p : PendTime} {rest : List PendTime}
  (h : c.save.pendTime = p :: rest)
include h

theorem pendExec_takes (hk : kinds.contains p.kind = true) (hz : p.stamp ≤ c.now)
    (hc : commit = false ∨ (c.pendReached p = true ∧ ¬ c.zeroBefore p)) : c.pendExec kinds commit f = f p c.dropPend := by
  have hx : (!commit || (c.pendReached p && !c.cfg.pend.any (fun x =>
      x.kind == 0x101 && !x.applied && decide (x.stamp.getD 0 < p.stamp)))) = true := by
    rcases hc with hc | ⟨hr, hn⟩
    · rw [hc]
      rfl
    · rw [hr, List.any_eq_false.mpr (fun e he hb => ?_)]
      · cases commit <;> rfl
      · simp only [Bool.and_eq_true, beq_iff_eq, Bool.not_eq_true', decide_eq_true_eq] at hb
        exact hn ⟨e, he, hb.1.1, hb.1.2, hb.2⟩
  unfold Chip.pendExec
  rw [h]
  exact if_pos (by rw [hk, hx, decide_eq_true hz]; rfl)

theorem pendExec_waits (hr : c.pendReached p = false) : c.pendExec kinds true f = c := by
  unfold Chip.pendExec
  rw [h]
  exact if_neg (by rw [hr]; simp)

end

/-- The first boundary at its turn: all that settling does is to end holds of the queues. -/
theorem completes_pendExec {i : Instr} {s : State} {kinds : List Nat} {commit : Bool} {f : PendTime → Chip → Chip} {d : Chip} {P : Chip → Prop}
    (hi : exec i s = run (Chip.pendExec kinds commit f) s) (hs : Settled s)
    (hf : s.chip.pendExec kinds commit f = d) (hd : Calm s.chip.dropPend d)
    (hP : ∀ f, ((∀ q, d.holdOver q = s.chip.holdOver q) → f = d.ferry) → P { d with ferry := f }) : completes i s P := by
  refine completes_settle hi hf ?_
  have hn : NoneBegins s.chip d := fun x hx _ hst =>
    ⟨List.mem_of_mem_tail (by rwa [hd.pendTime] at hx), by rwa [hd.time] at hst⟩
  obtain ⟨f, -, hsame, he⟩ := Timed.settle (l := s.pending) ((timed_scheduled _ s.chip).trans hd.timed) hn hs
  rw [he]
  exact hP f (fun hq => hsame (fun q hd => (hq q).symm.trans hd))

/-! ### Demand boundaries -/

/-- What settling follows of billing is the pulses alone. -/
theorem calm_modBill {g : Bill → Bill} {c : Chip} (h : (g c.bill).spill = c.bill.spill) : Calm c (c.modBill g) :=
  ⟨rfl, rfl, rfl, rfl, rfl, rfl, rfl, fun _ => rfl, fun i => by
    have hx : ∀ m n, (c.modBill g).spill m n = c.spill m n := fun m n => by
      unfold Chip.spill
      rw [show (c.modBill g).bill.spill = c.bill.spill from h]
    unfold Chip.pulseDue
    rw [hx]
    rfl, fun _ => rfl, fun _ => rfl, rfl, rfl⟩

/-- The interval that a demand boundary closes. -/
def Chip.shutWin (stamp : Nat) (fwd : Bool) (c : Chip) : Win := c.bill.win.judge (stepSec c.bill.win.cfg * 32000) stamp fwd false

theorem calm_closeInterval (utc : Int) (stamp : Nat) (fwd pf : Bool) (ord : Nat) (c : Chip) :
    Calm c (c.closeInterval utc stamp fwd pf ord) :=
  (calm_modBill rfl).trans (calm_stageAt _ _ _ _ _ _ _)

theorem stageAt_bill (place ord : Nat) (kind : W16) (flags six : Nat) (x : List W8) (c : Chip) :
    (c.stageAt place ord kind flags six x).bill = c.bill :=
  keepsBut_stageAt (bs := [.ledger]) (by decide) place ord kind flags six x c .bill (by decide)

/-- Closing an interval keeps it in the history and leaves the registers and the windows ahead. -/
theorem closeInterval_bill (utc : Int) (stamp : Nat) (fwd : Bool) (ord : Nat) (c : Chip) :
    let b := (c.closeInterval utc stamp fwd false ord).bill
    b.qty = c.bill.qty ∧ b.cost = c.bill.cost ∧ b.aheadW = c.bill.aheadW ∧
      b.closedW = (c.shutWin stamp fwd :: c.bill.closedW).take 16 := by
  intro b
  have hb : b = _ := stageAt_bill _ _ _ _ _ _ _
  rw [hb]
  exact ⟨rfl, rfl, rfl, rfl⟩

theorem closeInterval_engs (utc : Int) (stamp : Nat) (fwd pf : Bool) (ord : Nat) (c : Chip) :
    (c.closeInterval utc stamp fwd pf ord).engs = c.engs :=
  (keepsBut_stageAt (bs := [.ledger]) (by decide) _ _ _ _ _ _ (c.modBill _) .engs (by decide) :)

/-- The interval that a boundary opens has the boundary's number, and is partial as the boundary says where none is
latched under that number. -/
theorem openNext_win (p : PendTime) (c : Chip) : (c.openNext p).bill.win.no = p.no ∧
    ((∀ w ∈ c.bill.aheadW, w.no ≠ p.no) → (c.openNext p).bill.win.partl = p.partl) := by
  show ((c.bill.aheadW.find? (fun w => w.no == p.no && w.openSix == p.stamp)).getD (c.winAt p)).no = p.no ∧ (_ →
    ((c.bill.aheadW.find? (fun w => w.no == p.no && w.openSix == p.stamp)).getD (c.winAt p)).partl = p.partl)
  constructor
  · cases hf : c.bill.aheadW.find? (fun w => w.no == p.no && w.openSix == p.stamp) with
    | none => rfl
    | some w =>
      have hw := List.find?_some hf
      exact eq_of_beq (Bool.and_eq_true_iff.mp hw).1
  · intro h
    rw [List.find?_eq_none.mpr (fun w hw hb => h w hw (eq_of_beq (Bool.and_eq_true_iff.mp hb).1))]
    rfl

theorem calm_openNext (p : PendTime) (c : Chip) : Calm c (c.openNext p) := by
  unfold Chip.openNext
  exact calm_modBill rfl

theorem calm_setExec (k : Nat) (u : Int) (c : Chip) : Calm c (c.setExec k u) := calm_modBill rfl

theorem demandExec_eq {p : PendTime} {c : Chip} (h : (p.kind = 0 ∧ p.partl = false) ∨ c.bill.win.openSix ≠ p.done) :
    c.demandExec p = ((c.closeInterval (p.civil / nsS) p.done (decide (8 ≤ p.kind)) false p.ord).openNext p).when (!p.partl)
      (Chip.setExec 0 p.civil) := by
  have hx : ((decide (8 ≤ p.kind) || p.partl) && c.bill.win.openSix == p.done) = false := by
    rcases h with ⟨hk, hp⟩ | h
    · rw [hk, hp]
      rfl
    · rw [beq_eq_false_iff_ne.mpr h, Bool.and_false]
  unfold Chip.demandExec
  dsimp only
  rw [hx]
  rfl

theorem calm_demandExec {p : PendTime} {c : Chip} (h : (p.kind = 0 ∧ p.partl = false) ∨ c.bill.win.openSix ≠ p.done) :
    Calm c (c.demandExec p) := by
  rw [demandExec_eq h]
  exact ((calm_closeInterval ..).trans (calm_openNext p _)).trans (calm_when (calm_setExec _ _ _))

/-- What a demand boundary leaves of billing: the interval `w` has closed and the next is open. -/
structure IntervalTurned (p : PendTime) (w : Win) (b b' : Bill) : Prop where
  qty : b'.qty = b.qty
  cost : b'.cost = b.cost
  closed : b'.closedW = (w :: b.closedW).take 16
  openSix : b'.win.openSix = p.done
  no : b'.win.no = p.no
  partl : (∀ w ∈ b.aheadW, w.no ≠ p.no) → b'.win.partl = p.partl

/-- A demand boundary closes the interval and opens the next. -/
theorem demandExec_facts {p : PendTime} {c : Chip} (h : (p.kind = 0 ∧ p.partl = false) ∨ c.bill.win.openSix ≠ p.done) :
    IntervalTurned p (c.shutWin p.done (decide (8 ≤ p.kind))) c.bill (c.demandExec p).bill ∧ (c.demandExec p).engs = c.engs := by
  rw [demandExec_eq h]
  obtain ⟨hq, hc, ha, hw⟩ := closeInterval_bill (p.civil / nsS) p.done (decide (8 ≤ p.kind)) p.ord c
  have he := closeInterval_engs (p.civil / nsS) p.done (decide (8 ≤ p.kind)) false p.ord c
  generalize c.closeInterval (p.civil / nsS) p.done (decide (8 ≤ p.kind)) false p.ord = x at hq hc ha hw he
  obtain ⟨hno, hp⟩ := openNext_win p x
  have hx : IntervalTurned p (c.shutWin p.done (decide (8 ≤ p.kind))) c.bill (x.openNext p).bill :=
    ⟨hq, hc, hw, rfl, hno, fun h => hp (by rwa [ha])⟩
  have he' : (x.openNext p).engs = c.engs := he
  generalize x.openNext p = y at hx he'
  cases p.partl
  · exact ⟨⟨hx.qty, hx.cost, hx.closed, hx.openSix, hx.no, hx.partl⟩, he'⟩
  · exact ⟨hx, he'⟩

/-! ### Billing closes -/

/-- The registers of a period that closes with none of them taken before. -/
theorem histAt_plain {c : Chip} (h : c.bill.snaps = []) (kind : Nat) (utc : Int) (stamp : Nat) :
    (c.histAt kind utc stamp).qty = c.bill.qty ∧ (c.histAt kind utc stamp).cost = c.bill.cost := by
  unfold Chip.histAt
  dsimp only
  rw [h]
  constructor
  · exact List.filter_eq_self.mpr (fun _ _ => rfl)
  · exact List.filter_eq_self.mpr (fun _ _ => rfl)

theorem calm_signBehind (kind : W16) (six : Nat) (c : Chip) : Calm c (c.signBehind kind six) :=
  calm_ite (Calm.refl c) (quiet_far _ _ _ _ _ _ _ _ _ _).calm

theorem signBehind_bill (kind : W16) (six : Nat) (c : Chip) : (c.signBehind kind six).bill = c.bill := by
  unfold Chip.signBehind
  split <;> rfl

theorem calm_periodClose (kind : Nat) (utc : Int) (stamp ord : Nat) (c : Chip) : Calm c (c.periodClose kind utc stamp ord) := by
  unfold Chip.periodClose
  exact ((calm_modBill rfl).trans (calm_stageAt _ _ _ _ _ _ _)).trans (calm_signBehind _ _ _)

/-- What the close of a period leaves of it. -/
def PeriodClosed (b : Bill) (h : Hist) (b' : Bill) : Prop :=
  b'.hist = (h :: b.hist).take 36 ∧ b'.maxd = [] ∧ b'.period = b.period + 1 ∧ b'.win = b.win

theorem periodClose_bill (kind : Nat) (utc : Int) (stamp ord : Nat) (c : Chip) :
    PeriodClosed c.bill (c.histAt kind utc stamp) (c.periodClose kind utc stamp ord).bill := by
  unfold Chip.periodClose PeriodClosed
  dsimp only
  rw [signBehind_bill, stageAt_bill]
  exact ⟨rfl, rfl, rfl, rfl⟩

theorem calm_closeTickets (stamp : Nat) (c : Chip) : Calm c (c.closeTickets stamp) :=
  (calm_modBill rfl).trans (calm_each (fun _ _ => calm_complete _ _ _ _) _ _)

theorem closeTickets_bill (stamp : Nat) (c : Chip) : ∃ t, (c.closeTickets stamp).bill = { c.bill with closeT := t } :=
  ⟨_, (keepsBut_each (bs := [.masters, .tix, .evt, .ferry, .hint]) (fun _ _ => keepsBut_complete (by decide) _ _ _ _) _ _ .bill (by decide) :)⟩

theorem calm_closeExec (p : PendTime) (c : Chip) : Calm c (c.closeExec p) := by
  unfold Chip.closeExec
  exact ((calm_periodClose ..).trans (calm_ite (calm_setExec _ _ _) (Calm.refl _))).trans (calm_closeTickets _ _)

/-- A billing close keeps the registers of its period and starts the next. -/
theorem closeExec_bill {c : Chip} (h : c.bill.snaps = []) (p : PendTime) : ∃ x : Hist, PeriodClosed c.bill x (c.closeExec p).bill ∧
    x.qty = c.bill.qty ∧ x.cost = c.bill.cost ∧ x.maxd = c.bill.maxd ∧ x.period = c.bill.period := by
  let kind := if p.kind = 9 then 3 else if p.kind % 8 == 1 then 0 else 1
  let utc := if p.kind % 8 == 1 then p.civil / nsS else c.civil p.stamp / nsS
  obtain ⟨hq, hc⟩ := histAt_plain h kind utc p.stamp
  refine ⟨c.histAt kind utc p.stamp, ?_, hq, hc, rfl, rfl⟩
  obtain ⟨h1, h2, h3, h4⟩ := periodClose_bill kind utc p.stamp p.ord c
  show PeriodClosed c.bill _ (Chip.closeTickets p.stamp (if p.kind % 8 == 1 then (c.periodClose kind utc p.stamp p.ord).setExec 1 p.civil
    else c.periodClose kind utc p.stamp p.ord)).bill
  generalize c.periodClose kind utc p.stamp p.ord = x at h1 h2 h3 h4
  obtain ⟨t, ht⟩ := closeTickets_bill p.stamp (if p.kind % 8 == 1 then x.setExec 1 p.civil else x)
  rw [ht]
  split
  · exact ⟨h1, h2, h3, h4⟩
  · exact ⟨h1, h2, h3, h4⟩

/-! ### Switch points and activations -/

theorem mem_insRec_of_mem {x y : LedgerRec} : ∀ {l : List LedgerRec}, y ∈ l → y ∈ insRec x l
  | z :: t, h => by
    unfold insRec
    split
    · exact List.mem_cons_of_mem _ h
    · rcases List.mem_cons.mp h with h | h
      · exact List.mem_cons.mpr (.inl h)
      · exact List.mem_cons_of_mem _ (mem_insRec_of_mem h)

theorem mem_foldl_insRec {y : LedgerRec} (new : List W8 → LedgerRec) : ∀ (l : List (List W8)) (s : List LedgerRec), y ∈ s →
    y ∈ l.foldl (fun s p => insRec (new p) s) s
  | [], _, h => h
  | _ :: t, _, h => mem_foldl_insRec new t _ (mem_insRec_of_mem h)

/-- A payload is one part or more. -/
theorem recParts_cons : ∀ (n : Nat) (x : List W8), ∃ a l, recParts n x = a :: l
  | 0, x => ⟨x, [], rfl⟩
  | n + 1, x => by
    unfold recParts
    split
    · exact ⟨x, [], rfl⟩
    · exact ⟨_, _, rfl⟩

/-- A staged record stands among those that wait, while the ledger is open. -/
theorem stageAt_staged {c : Chip} (h : c.ledger.closed = false) (place ord : Nat) (kind : W16) (flags six : Nat) (x : List W8) :
    ∃ y ∈ (c.stageAt place ord kind flags six x).ledger.staging, y.kind = kind ∧ y.six = BitVec.ofNat 64 six := by
  let new (p : List W8) : LedgerRec := { c.mkRec kind flags six p with place := place, ord := ord }
  obtain ⟨a, l, hl⟩ := recParts_cons 64 x
  refine ⟨new a, ?_, rfl, rfl⟩
  have hm : new a ∈ (recParts 64 x).foldl (fun s p => insRec (new p) s) c.ledger.staging := by
    rw [hl]
    exact mem_foldl_insRec new l _ (mem_insRec _ _)
  unfold Chip.stageAt
  rw [if_neg (by rw [h]; decide)]
  exact hm

theorem calm_modTariff (g : Tariff → Tariff) (c : Chip) : Calm c (c.modTariff g) := calm_far _ _ _ _ _ _ _ _ _ _ _ _ _ _

theorem calm_switchExec (p : PendTime) (c : Chip) : Calm c (c.switchExec p) :=
  ((calm_modTariff _ c).trans (calm_setExec _ _ _)).trans (calm_stageAt _ _ _ _ _ _ _)

theorem keepsBut_switchExec (p : PendTime) (c : Chip) : keepsBut [.save, .tariff, .bill, .ledger] c (c.switchExec p) :=
  keepsBut_trans (keepsBut_trans (keepsBut_tariff (by decide) _) (keepsBut_bill (by decide) _)) (keepsBut_stageAt (by decide) _ _ _ _ _ _ _)

/-- A switch point sets its tariff and stages its record. -/
theorem switchExec_facts (p : PendTime) (c : Chip) : (c.switchExec p).tariff = { c.tariff with inForce := p.tar } ∧
    (c.ledger.closed = false → ∃ y ∈ (c.switchExec p).ledger.staging, y.kind = 0x0B ∧ y.six = BitVec.ofNat 64 p.stamp) := by
  unfold Chip.switchExec
  constructor
  · exact (keepsBut_stageAt (bs := [.ledger]) (by decide) 8 p.ord 0x0B 0 p.stamp _ ((c.setInForce p.tar).setExec 2 p.civil)
      .tariff (by decide) :)
  · exact fun hc => stageAt_staged (c := (c.setInForce p.tar).setExec 2 p.civil) hc 8 p.ord 0x0B 0 p.stamp _

theorem calm_newRef (g : Nat) (c : Chip) : Calm c (c.newRef g) :=
  ⟨rfl, rfl, rfl, rfl, rfl, rfl, rfl, fun _ => rfl, fun _ => rfl, fun _ => rfl, fun _ => rfl, rfl, rfl⟩

/-- The tariff once the set that was scheduled is in force. -/
def Tariff.activated (p : PendTime) (t : Tariff) : Tariff :=
  { t with prev := t.act, gen := t.gen + 1, act := t.pas, sched := none, stamp := none, inForce := p.tar,
           lastAct := w32 (p.civil / nsS).toNat }

theorem calm_activate (p : PendTime) (c : Chip) : Calm c (c.activate p) :=
  ((((calm_modTariff _ c).trans (calm_newRef _ _)).trans (calm_setExec _ _ _)).trans (calm_modBill rfl)).trans
    (calm_stageAt _ _ _ _ _ _ _)

theorem keepsBut_activate (p : PendTime) (c : Chip) : keepsBut [.save, .bill, .cfg, .ledger] (c.modTariff (Tariff.activated p)) (c.activate p) :=
  keepsBut_trans (keepsBut_trans (keepsBut_trans (keepsBut_cfg (by decide) _) (keepsBut_bill (by decide) _))
    (keepsBut_bill (by decide) _)) (keepsBut_stageAt (by decide) _ _ _ _ _ _ _)

/-! ### The obligation -/

/-- A queue is over its hold as before where the queues, the events and the bay are as they were. -/
theorem holdOver_keepsBut {bs : List Block} {c d : Chip} (h : keepsBut bs c d) (hf : Block.ferry ∉ bs) (he : Block.evt ∉ bs)
    (hb : Block.bay ∉ bs) (q : Nat) : d.holdOver q = c.holdOver q := by
  have h1 : d.ferry = c.ferry := h .ferry hf
  have h2 : d.evt = c.evt := h .evt he
  have h3 : d.bay = c.bay := h .bay hb
  unfold Chip.holdOver Chip.holds Chip.ringHolds Chip.fq
  rw [h1, h2, h3]

/-- Settles O42: the hand-over of the next boundaries, and what each kind of boundary leaves at its turn. -/
theorem scheduledBoundaries : Obligations.ScheduledBoundaries := by
  unfold Obligations.ScheduledBoundaries
  intro p rest s hs c u zero
  have hdrop (h : c.save.pendTime = p :: rest) : c.dropPend.save.pendTime = rest := congrArg List.tail h
  refine ⟨fun h => answers_idle (f := Chip.handoff) rfl hs (handoff_idle h), fun hv hr hu => ?_, fun h hz => ⟨fun hk hr hn hw => ?_,
    fun _ hr => answers_idle (f := Chip.pendExec [0, 8] true Chip.demandExec) rfl hs (pendExec_waits h hr),
    fun hk hr hn hsn => ?_, fun hk => ?_, fun hk => ?_⟩⟩
  · let b := c.handBoundary 0 0 0 u (c.sixOfCivil u) 0
    have hd : c.handoff = b.handRest (c.civil c.now) := handoff_eq hv hr hu
    refine completes_settle (f := Chip.handoff) rfl rfl ?_
    obtain ⟨w, f, he⟩ := settle_handed (l := s.pending) (timed_handoff c) hs
    have hx : { c.boundary 0 u (c.sixOfCivil u) 0 with ord := 0 } ∈ c.handoff.save.pendTime := by
      rw [hd]
      refine mem_handRest _ ?_
      rw [handBoundary_pendTime]
      exact mem_insPend.mpr (.inl rfl)
    have hall : ∀ x ∈ c.save.pendTime, x ∈ c.handoff.save.pendTime := fun x hx => by
      rw [hd]
      exact mem_handRest _ (mem_handBoundary _ _ _ _ _ _ _ hx)
    have hk : keepsBut [.engs, .save, .tariff, .bill, .evt, .ferry, .hint] c c.handoff := (handed_handoff c).keepsBut (by decide)
    rw [he]
    generalize c.handoff = d at hx hall hk
    exact ⟨⟨_, hx, rfl, rfl, rfl⟩, hall, keepsBut_trans (keepsBut_trans hk (keepsBut_bill (by decide) _)) (keepsBut_ferry (by decide) f)⟩
  · have hw' : (p.kind = 0 ∧ p.partl = false) ∨ c.dropPend.bill.win.openSix ≠ p.done := hw
    refine completes_pendExec rfl hs (pendExec_takes h (by rcases hk with hk | hk <;> rw [hk] <;> decide) hz (.inr ⟨hr, hn⟩))
      (calm_demandExec hw') (fun f _ => ?_)
    have hpend : (c.dropPend.demandExec p).save.pendTime = rest := (calm_demandExec hw').pendTime.trans (hdrop h)
    obtain ⟨hb, he⟩ := demandExec_facts hw'
    generalize c.dropPend.demandExec p = d at hpend hb he
    refine ⟨hpend, hb.qty, hb.cost, ⟨_, congrArg List.head? hb.closed, rfl, rfl, rfl, rfl⟩, hb.openSix, hb.no, he, hb.partl⟩
  · refine completes_pendExec rfl hs (pendExec_takes h (by rcases hk with hk | hk | hk <;> rw [hk] <;> decide) hz (.inr ⟨hr, hn⟩))
      (calm_closeExec p _) (fun f _ => ?_)
    have hpend : (c.dropPend.closeExec p).save.pendTime = rest := (calm_closeExec p _).pendTime.trans (hdrop h)
    obtain ⟨x, ⟨hh, hm, hp, hw⟩, hx⟩ := closeExec_bill (c := c.dropPend) hsn p
    generalize c.dropPend.closeExec p = d at hpend hh hm hp hw
    exact ⟨hpend, hp, hm, ⟨x, congrArg List.head? hh, hx⟩, congrArg Win.no hw⟩
  · have hkeep : keepsBut [.save, .tariff, .bill, .ledger] c (c.dropPend.switchExec p) :=
      keepsBut_trans (keepsBut_save (by decide) _) (keepsBut_switchExec p _)
    refine completes_pendExec rfl hs (pendExec_takes h (by rcases hk with hk | hk <;> rw [hk] <;> decide) hz (.inl rfl))
      (calm_switchExec p _) (fun f hf => ?_)
    rw [hf (holdOver_keepsBut hkeep (by decide) (by decide) (by decide))]
    have hpend : (c.dropPend.switchExec p).save.pendTime = rest := (calm_switchExec p _).pendTime.trans (hdrop h)
    obtain ⟨ht, hst⟩ := switchExec_facts p c.dropPend
    generalize c.dropPend.switchExec p = d at hpend ht hst hkeep
    exact ⟨hpend, ht, hst, hkeep⟩
  · have hact := keepsBut_activate p c.dropPend
    have hkeep : keepsBut [.save, .tariff, .bill, .cfg, .ledger] c (c.dropPend.activate p) :=
      keepsBut_trans (keepsBut_trans (keepsBut_save (by decide) _) (keepsBut_tariff (by decide) _)) (keepsBut_mono hact (by decide))
    refine completes_pendExec rfl hs (pendExec_takes h (by rcases hk with hk | hk <;> rw [hk] <;> decide) hz (.inl rfl))
      (calm_activate p _) (fun f hf => ?_)
    rw [hf (holdOver_keepsBut hkeep (by decide) (by decide) (by decide))]
    have hpend : (c.dropPend.activate p).save.pendTime = rest := (calm_activate p _).pendTime.trans (hdrop h)
    have ht : (c.dropPend.activate p).tariff = c.tariff.activated p := hact .tariff (by decide)
    generalize c.dropPend.activate p = d at ht hkeep hpend
    exact ⟨hpend, congrArg Tariff.act ht, (congrArg Tariff.pas ht :), congrArg Tariff.prev ht, congrArg Tariff.sched ht,
      congrArg Tariff.inForce ht, congrArg Tariff.gen ht, hkeep⟩

end Sys2Proof.Machine
end

section
/-! Events, queues, tickets and taps leave the Edge logic as it is (R291): a step reaches its zones by the functions
of the safety subsystem alone. -/

namespace Sys2Proof.Machine

open Sys2Proof Sys2Proof.Claims

/-! ### How branches and repetitions keep the Edge logic -/

/-- A repetition keeps what each of its steps keeps. The hypothesis is an equation with `True`, so that `simp` can
find it. -/
theorem each_edge {α : Type} (l : List α) {f : α → Chip → Chip}
    (h : (∀ a c, (f a c).safe.edge = c.safe.edge) = True) (c : Chip) :
    (each l f c).safe.edge = c.safe.edge := each_keeps (fun c => c.safe.edge) f (of_eq_true h) l c

theorem when_edge (b : Bool) (f : Chip → Chip) (c : Chip) :
    (c.when b f).safe.edge = if b then (f c).safe.edge else c.safe.edge := by
  cases b <;> rfl

theorem ite_edge {p : Prop} [Decidable p] {c d : Chip} :
    (if p then c else d).safe.edge = if p then c.safe.edge else d.safe.edge := by
  split <;> rfl

theorem ite_fst_edge {α : Type} {p : Prop} [Decidable p] {c d : Chip × α} :
    (if p then c else d).1.safe.edge = if p then c.1.safe.edge else d.1.safe.edge := by
  split <;> rfl

/-- An instruction that completes leaves the Edge logic as it was. -/
def KeepsEdge (c : Chip) (x : Except W8 Chip) : Prop := ∀ d, x = .ok d → d.safe.edge = c.safe.edge

theorem keepsEdge_ok {c d : Chip} : KeepsEdge c (.ok d) ↔ d.safe.edge = c.safe.edge :=
  ⟨fun h => h d rfl, fun h _ he => (Except.ok.inj he) ▸ h⟩

theorem keepsEdge_error {c : Chip} {e : W8} : KeepsEdge c (.error e) ↔ True :=
    ⟨fun _ => trivial, fun _ _ he => nomatch he⟩

theorem keepsEdge_ite {p : Prop} [Decidable p] {c : Chip} {x y : Except W8 Chip} :
    KeepsEdge c (if p then x else y) = if p then KeepsEdge c x else KeepsEdge c y := by
  split <;> rfl

/-! ### What each function leaves -/

theorem draw_edge (c : Chip) : (Chip.draw c).2.safe.edge = c.safe.edge := by
  simp only [Chip.draw]

theorem draw128_edge (c : Chip) : (Chip.draw128 c).2.safe.edge = c.safe.edge := by
  simp only [Chip.draw128]

theorem newRef_edge (g : Nat) (c : Chip) : (Chip.newRef g c).safe.edge = c.safe.edge := by
  simp only [Chip.newRef, modCfg_safe]

theorem setRdy_edge (i : Nat) (b : Bool) (c : Chip) : (Chip.setRdy i b c).safe.edge = c.safe.edge := by
  simp only [Chip.setRdy, modSys_safe]

theorem bayEvent_edge (i : Nat) (c : Chip) : (Chip.bayEvent i c).safe.edge = c.safe.edge := by
  simp only [Chip.bayEvent, modBay_safe]

theorem deliverOnce_edge (c : Chip) : (Chip.deliverOnce c).safe.edge = c.safe.edge := by
  simp only [Chip.deliverOnce, hint_safe, modFq_safe, ite_edge, ite_self]

theorem countSrc_edge (code : W16) (utc : W32) (c : Chip) : (Chip.countSrc code utc c).safe.edge = c.safe.edge := by
  simp only [Chip.countSrc, modEvt_safe]

theorem closeOverrun_edge (c : Chip) : (Chip.closeOverrun c).safe.edge = c.safe.edge := by
  simp only [Chip.closeOverrun, countSrc_edge, modEvt_safe, ite_edge, ite_self]

theorem endOverrun_edge (c : Chip) : (Chip.endOverrun c).safe.edge = c.safe.edge := by
  simp only [Chip.endOverrun, closeOverrun_edge, ite_edge, ite_self]

theorem deliver_edge (c : Chip) : (Chip.deliver c).safe.edge = c.safe.edge := by
  simp only [Chip.deliver, deliverOnce_edge, endOverrun_edge, modEvt_safe, ite_edge, ite_self]

theorem holdsOver_edge (old c : Chip) : (Chip.holdsOver old c).safe.edge = c.safe.edge := by
  simp only [Chip.holdsOver, modFq_safe, each_edge, implies_true]

theorem raiseHeld_edge (code : W16) (unit : Nat) (c : Chip) :
    (Chip.raiseHeld code unit c).safe.edge = c.safe.edge := by
  simp only [Chip.raiseHeld, countSrc_edge, deliver_edge, modEvt_safe]

theorem endClaim_edge (q : Nat) (c : Chip) : (Chip.endClaim q c).safe.edge = c.safe.edge := by
  simp only [Chip.endClaim, deliver_edge, modFq_safe, when_edge, ite_self]

theorem denied_edge (m : Nat) (addr : Nat) (c : Chip) : (Chip.denied m addr c).safe.edge = c.safe.edge := by
  simp only [Chip.denied, modSys_safe, raise_safe]

theorem stageAt_edge (place ord : Nat) (kind : W16) (flags six : Nat) (payload : List W8) (c : Chip) :
    (Chip.stageAt place ord kind flags six payload c).safe.edge = c.safe.edge := by
  simp only [Chip.stageAt, modLedger_safe, ite_edge, ite_self]

theorem postNow_edge (six : Nat) (c : Chip) : (Chip.postNow six c).safe.edge = c.safe.edge := by
  unfold Chip.postNow
  split <;> simp only [modLedger_safe, stage_safe, each_edge, implies_true]

theorem stageSig_edge (six : Nat) (c : Chip) : (Chip.stageSig six c).safe.edge = c.safe.edge := by
  simp only [Chip.stageSig, modLedger_safe, stage_safe]

theorem signBehind_edge (kind : W16) (six : Nat) (c : Chip) :
    (Chip.signBehind kind six c).safe.edge = c.safe.edge := by
  simp only [Chip.signBehind, modLedger_safe, ite_edge, ite_self]

theorem stageSigned_edge (kind : W16) (flags six : Nat) (payload : List W8) (c : Chip) :
    (Chip.stageSigned kind flags six payload c).safe.edge = c.safe.edge := by
  simp only [Chip.stageSigned, signBehind_edge, stage_safe]

theorem modTrec_edge (ty : Nat) (f : TampRec → TampRec) (c : Chip) :
    (Chip.modTrec ty f c).safe.edge = c.safe.edge := by
  simp only [Chip.modTrec, modTamper_safe]

theorem issue_edge (m code arg : Nat) (c : Chip) : (Chip.issue m code arg c).1.safe.edge = c.safe.edge := by
  simp only [Chip.issue, modTix_safe]

theorem long_edge {k : W16 → Chip → Chip} (h : (∀ t d, (k t d).safe.edge = d.safe.edge) = True) (m code arg : Nat)
    (c : Chip) :
    (Chip.long m code arg c k).1.safe.edge = c.safe.edge := by
  unfold Chip.long
  split
  · rfl
  · exact of_eq_true h _ _

theorem send_edge (m : Nat) (msg : YhpMsg) (c : Chip) : (Chip.send m msg c).safe.edge = c.safe.edge := by
  simp only [Chip.send, modMaster_safe]

theorem complete_edge (t : W16) (st : W8) (result : W32) (c : Chip) :
    (Chip.complete t st result c).safe.edge = c.safe.edge := by
  unfold Chip.complete
  split <;> simp only [fqPut_safe, modTix_safe, send_edge, ite_edge, ite_self]

theorem sampleGroup_edge (k : Nat) (raw : List RawSample) (temp : Option W16) (c : Chip) :
    (Chip.sampleGroup k raw temp c).safe.edge = c.safe.edge := by
  unfold Chip.sampleGroup
  dsimp only
  rw [modTime_safe, modGroup_safe, each_edge _ (eq_true (fun x c => by rw [modTap_safe]))]
  cases temp with
  | none => rfl
  | some v => rw [modGroup_safe]

theorem tapEvt_edge (code : W16) (n : Nat) (a0 a1 : Nat) (c : Chip) :
    (Chip.tapEvt code n a0 a1 c).safe.edge = c.safe.edge := by
  simp only [Chip.tapEvt, raise_safe]

theorem endRound_edge (n : Nat) (st : W8) (c : Chip) : (Chip.endRound n st c).safe.edge = c.safe.edge := by
  simp only [Chip.endRound, complete_edge, modTap_safe, ite_edge, ite_self]

theorem enterArb_edge (n : Nat) (arb : BitVec 4) (c : Chip) : (Chip.enterArb n arb c).safe.edge = c.safe.edge := by
  simp only [Chip.enterArb, endRound_edge, modTap_safe, ite_edge, ite_self]

theorem tapFail_edge (n : Nat) (c : Chip) : (Chip.tapFail n c).safe.edge = c.safe.edge := by
  simp only [Chip.tapFail, enterArb_edge, tapEvt_edge]

theorem primaryCheck_edge (n : Nat) (l : List Nat) (c : Chip) :
    (Chip.primaryCheck n l c).safe.edge = c.safe.edge := by
  simp only [Chip.primaryCheck, tapFail_edge, ite_edge, ite_self]

theorem askRound_edge (n : Nat) (routine : Bool) (c : Chip) :
    (Chip.askRound n routine c).safe.edge = c.safe.edge := by
  simp only [Chip.askRound, modTap_safe, ite_edge, ite_self]

theorem identStart_edge (n : Nat) (c : Chip) : (Chip.identStart n c).safe.edge = c.safe.edge := by
  simp only [Chip.identStart, askRound_edge, modTap_safe, tapEvt_edge]

theorem windowEnd_edge (n : Nat) (c : Chip) : (Chip.windowEnd n c).safe.edge = c.safe.edge := by
  simp only [Chip.windowEnd, identStart_edge, modTap_safe, tapFail_edge, ite_edge, ite_self]

theorem routineSlot_edge (n : Nat) (c : Chip) : (Chip.routineSlot n c).safe.edge = c.safe.edge := by
  simp only [Chip.routineSlot, askRound_edge, ite_edge, ite_self]

theorem verdict_edge (n : Nat) (arb : BitVec 4) (v : Nat) (c : Chip) :
    (Chip.verdict n arb v c).safe.edge = c.safe.edge := by
  simp only [Chip.verdict, enterArb_edge, primaryCheck_edge, tapEvt_edge]

theorem monitored_edge (n : Nat) (x : Excitation) (c : Chip) : (Chip.monitored n x c).safe.edge = c.safe.edge := by
  simp only [Chip.monitored, modTap_safe]

theorem roundEnd_edge (n : Nat) (r : RefReading) (c : Chip) : (Chip.roundEnd n r c).safe.edge = c.safe.edge := by
  unfold Chip.roundEnd
  split <;> simp only [endRound_edge, modTap_safe, monitored_edge, tapEvt_edge, verdict_edge, ite_edge, ite_self]

theorem faultSet_edge (n : Nat) (cls : BitVec 4) (c : Chip) : (Chip.faultSet n cls c).safe.edge = c.safe.edge := by
  unfold Chip.faultSet
  split <;> simp only [modTap_safe, tamperStart_safe, tapEvt_edge, ite_edge, ite_self]

theorem faultDeclare_edge (n : Nat) (cls : BitVec 4) (lost : Bool) (c : Chip) :
    (Chip.faultDeclare n cls lost c).safe.edge = c.safe.edge := by
  simp only [Chip.faultDeclare, faultSet_edge, primaryCheck_edge, ite_edge, ite_self]

theorem faultDrop_edge (n cls : Nat) (c : Chip) : (Chip.faultDrop n cls c).safe.edge = c.safe.edge := by
  unfold Chip.faultDrop
  split <;> simp only [modTap_safe, tamperEnd_safe, ite_edge, ite_self]

theorem faultClear_edge (n : Nat) (lost : Bool) (c : Chip) : (Chip.faultClear n lost c).safe.edge = c.safe.edge := by
  simp only [Chip.faultClear, faultDrop_edge, each_edge, implies_true]

theorem zcTimeout_edge (n : Nat) (c : Chip) : (Chip.zcTimeout n c).safe.edge = c.safe.edge := by
  simp only [Chip.zcTimeout, modTap_safe, ite_edge, ite_self]

theorem phaseLossCheck_edge (m : Nat) (c : Chip) : (Chip.phaseLossCheck m c).safe.edge = c.safe.edge := by
  simp only [Chip.phaseLossCheck, tamperEnd_safe, tamperStart_safe, each_edge, implies_true]

theorem toEngine_edge (k : Nat) (ev : CtxEv) (c : Chip) : (Chip.toEngine k ev c).safe.edge = c.safe.edge := by
  simp only [Chip.toEngine, modEng_safe, raise_safe, ite_edge, ite_self]

theorem toEngines_edge (ev : CtxEv) (c : Chip) : (Chip.toEngines ev c).safe.edge = c.safe.edge := by
  simp only [Chip.toEngines, toEngine_edge, each_edge, implies_true]

theorem publish_edge (k src : Nat) (c : Chip) : (Chip.publish k src c).safe.edge = c.safe.edge := by
  simp only [Chip.publish, modEng_safe]

end Sys2Proof.Machine
end

section
/-! Drives, tariffs and billing leave the Edge logic as it is. -/

namespace Sys2Proof.Machine

open Sys2Proof Sys2Proof.Claims

theorem modDrive_edge (n : Nat) (f : Drive → Drive) (c : Chip) : (Chip.modDrive n f c).safe.edge = c.safe.edge := by
  simp only [Chip.modDrive, modDrv_safe]

theorem lampStart_edge (old c : Chip) : (Chip.lampStart old c).safe.edge = c.safe.edge := by
  simp only [Chip.lampStart, modDrive_edge, each_edge, implies_true, ite_edge, ite_self]

theorem drvEvt_edge (code : W16) (n : Nat) (c : Chip) : (Chip.drvEvt code n c).safe.edge = c.safe.edge := by
  simp only [Chip.drvEvt, bayEvent_edge, raise_safe, when_edge, ite_self]

theorem drvTestDone_edge (n : Nat) (st : W8) (c : Chip) : (Chip.drvTestDone n st c).safe.edge = c.safe.edge := by
  simp only [Chip.drvTestDone, complete_edge, modDrive_edge, ite_edge, ite_self]

theorem drvInconclusive_edge (n : Nat) (c : Chip) : (Chip.drvInconclusive n c).safe.edge = c.safe.edge := by
  simp only [Chip.drvInconclusive, drvEvt_edge, drvTestDone_edge, modDrive_edge, when_edge, ite_self]

theorem drvRearm_edge (n : Nat) (c : Chip) : (Chip.drvRearm n c).safe.edge = c.safe.edge := by
  simp only [Chip.drvRearm, modDrive_edge]

theorem drvConclusive_edge (n : Nat) (pass : Bool) (c : Chip) :
    (Chip.drvConclusive n pass c).safe.edge = c.safe.edge := by
  simp only [Chip.drvConclusive, drvRearm_edge, drvTestDone_edge]

theorem drvAbortTest_edge (n : Nat) (c : Chip) : (Chip.drvAbortTest n c).safe.edge = c.safe.edge := by
  simp only [Chip.drvAbortTest, drvInconclusive_edge, ite_edge, ite_self]

theorem drvCommand_edge (n : Nat) (on : Bool) (c : Chip) : (Chip.drvCommand n on c).safe.edge = c.safe.edge := by
  simp only [Chip.drvCommand, drvAbortTest_edge, modDrive_edge]

theorem drvSet_edge (n : Nat) (on : Bool) (c : Chip) : (Chip.drvSet n on c).1.safe.edge = c.safe.edge := by
  simp only [Chip.drvSet, drvCommand_edge, ite_fst_edge, ite_self]

theorem drvCmdWrite_edge (m k : Nat) (v : W32) (c : Chip) : (Chip.drvCmdWrite m k v c).safe.edge = c.safe.edge := by
  simp only [Chip.drvCmdWrite, denied_edge, drvCommand_edge, each_edge, implies_true, ite_edge, ite_self]

theorem drvFail_edge (n : Nat) (c : Chip) : (Chip.drvFail n c).safe.edge = c.safe.edge := by
  simp only [Chip.drvFail, drvEvt_edge, modDrive_edge, ite_edge, ite_self]

theorem drvFailFrom_edge (phases : List (BitVec 2)) (c : Chip) :
    (Chip.drvFailFrom phases c).safe.edge = c.safe.edge := by
  simp only [Chip.drvFailFrom, drvFail_edge, each_edge, implies_true]

theorem controllerLost_edge (planned : Bool) (c : Chip) :
    (Chip.controllerLost planned c).safe.edge = c.safe.edge := by
  simp only [Chip.controllerLost, drvFailFrom_edge, modDrive_edge, modDrv_safe, each_edge, implies_true, ite_edge,
    ite_self]

theorem holdExpire_edge (c : Chip) : (Chip.holdExpire c).safe.edge = c.safe.edge := by
  simp only [Chip.holdExpire, drvFailFrom_edge, modDrv_safe, raise_safe, each_edge, implies_true]

theorem claimDie_edge (d : Nat) (c : Chip) : (Chip.claimDie d c).safe.edge = c.safe.edge := by
  simp only [Chip.claimDie, modDrive_edge, modDrv_safe, raise_safe, each_edge, implies_true]

theorem drvMismatch_edge (c : Chip) : (Chip.drvMismatch c).safe.edge = c.safe.edge := by
  simp only [Chip.drvMismatch, drvFailFrom_edge, modDrv_safe]

theorem latchCg5_edge (oldRetry : Nat → Nat) (c : Chip) : (Chip.latchCg5 oldRetry c).safe.edge = c.safe.edge := by
  simp only [Chip.latchCg5, modDrive_edge, modDrv_safe, each_edge, implies_true]

theorem bayDrivesOff_edge (c : Chip) : (Chip.bayDrivesOff c).safe.edge = c.safe.edge := by
  simp only [Chip.bayDrivesOff, drvCommand_edge, each_edge, implies_true]

theorem undervolt_edge (b : Bool) (c : Chip) : (Chip.undervolt b c).safe.edge = c.safe.edge := by
  simp only [Chip.undervolt, bayEvent_edge, modDrive_edge, modDrv_safe, modPower_safe, raise_safe, each_edge,
    implies_true, when_edge, ite_edge, ite_self]

theorem voutRecovered_edge (b : Bool) (c : Chip) : (Chip.voutRecovered b c).safe.edge = c.safe.edge := by
  simp only [Chip.voutRecovered, modDrv_safe, modPower_safe]

theorem overcurrent_edge (n : Nat) (c : Chip) : (Chip.overcurrent n c).safe.edge = c.safe.edge := by
  simp only [Chip.overcurrent, drvEvt_edge, modDrive_edge, when_edge, ite_edge, ite_self]

theorem retryEnd_edge (n : Nat) (c : Chip) : (Chip.retryEnd n c).safe.edge = c.safe.edge := by
  simp only [Chip.retryEnd, modDrive_edge, ite_edge, ite_self]

theorem retryReload_edge (n : Nat) (c : Chip) : (Chip.retryReload n c).safe.edge = c.safe.edge := by
  simp only [Chip.retryReload, modDrive_edge, ite_edge, ite_self]

theorem thermalLatch_edge (n : Nat) (c : Chip) : (Chip.thermalLatch n c).safe.edge = c.safe.edge := by
  simp only [Chip.thermalLatch, drvEvt_edge, modDrive_edge, ite_edge, ite_self]

theorem testPulse_edge (due : Bool) (n : Nat) (fell conclusive : Bool) (c : Chip) :
    (Chip.testPulse due n fell conclusive c).safe.edge = c.safe.edge := by
  simp only [Chip.testPulse, drvConclusive_edge, drvEvt_edge, drvInconclusive_edge, modDrive_edge, ite_edge, ite_self]

theorem openLoad_edge (n : Nat) (seen : OpenLoad) (c : Chip) : (Chip.openLoad n seen c).safe.edge = c.safe.edge := by
  simp only [Chip.openLoad, drvConclusive_edge, drvEvt_edge, drvInconclusive_edge, drvRearm_edge, modDrive_edge,
    when_edge, ite_edge, ite_self]

theorem testRetry_edge (n : Nat) (fell conclusive : Bool) (c : Chip) :
    (Chip.testRetry n fell conclusive c).safe.edge = c.safe.edge := by
  simp only [Chip.testRetry, drvConclusive_edge, drvEvt_edge, drvInconclusive_edge, modDrive_edge, testPulse_edge,
    when_edge, ite_edge, ite_self]

theorem clampTest_edge (n : Nat) (ok : Bool) (c : Chip) : (Chip.clampTest n ok c).safe.edge = c.safe.edge := by
  simp only [Chip.clampTest, drvEvt_edge, modDrive_edge, when_edge, ite_edge, ite_self]

theorem cmdDrvClr_edge (r : CmdReq) (c : Chip) : (cmdDrvClr r c).1.safe.edge = c.safe.edge := by
  simp only [cmdDrvClr, modDrive_edge, ite_fst_edge, ite_self]

theorem cmdDrvReclaim_edge (_r : CmdReq) (c : Chip) : (cmdDrvReclaim _r c).1.safe.edge = c.safe.edge := by
  simp only [cmdDrvReclaim, claimDie_edge, modDrv_safe, each_edge, implies_true, ite_fst_edge, ite_self]

theorem cmdDrvTestNow_edge (r : CmdReq) (c : Chip) : (cmdDrvTestNow r c).1.safe.edge = c.safe.edge := by
  simp only [cmdDrvTestNow, long_edge, modDrive_edge, implies_true, ite_fst_edge, ite_self]

theorem dieReport_edge (c : Chip) : (Chip.dieReport c).safe.edge = c.safe.edge := by
  simp only [Chip.dieReport, modDrive_edge, modDrv_safe, each_edge, implies_true]

theorem addPend_edge (x : PendTime) (c : Chip) : (Chip.addPend x c).safe.edge = c.safe.edge := by
  simp only [Chip.addPend, modSave_safe]

theorem handBoundary_edge (src k ord : Nat) (u : Int) (stamp tar : Nat) (c : Chip) :
    (Chip.handBoundary src k ord u stamp tar c).safe.edge = c.safe.edge := by
  simp only [Chip.handBoundary, addPend_edge, toEngines_edge]

theorem handTariff_edge (src fwd ord : Nat) (stamp : Nat) (p : Nat × Int × Nat) (c : Chip) :
    (Chip.handTariff src fwd ord stamp p c).safe.edge = c.safe.edge := by
  simp only [Chip.handTariff, handBoundary_edge, modTariff_safe, when_edge, ite_self]

theorem handoff_edge (c : Chip) : (Chip.handoff c).safe.edge = c.safe.edge := by
  simp only [Chip.handoff, handBoundary_edge, handTariff_edge, each_edge, implies_true, ite_edge, ite_self]

theorem setInForce_edge (t : BitVec 6) (c : Chip) : (Chip.setInForce t c).safe.edge = c.safe.edge := by
  simp only [Chip.setInForce, modTariff_safe]

theorem setExec_edge (k : Nat) (u : Int) (c : Chip) : (Chip.setExec k u c).safe.edge = c.safe.edge := by
  simp only [Chip.setExec, modBill_safe]

theorem setFrom_edge (k : Nat) (u : Int) (c : Chip) : (Chip.setFrom k u c).safe.edge = c.safe.edge := by
  simp only [Chip.setFrom, modBill_safe]

theorem switchExec_edge (p : PendTime) (c : Chip) : (Chip.switchExec p c).safe.edge = c.safe.edge := by
  simp only [Chip.switchExec, setExec_edge, setInForce_edge, stageAt_edge]

theorem activate_edge (p : PendTime) (c : Chip) : (Chip.activate p c).safe.edge = c.safe.edge := by
  simp only [Chip.activate, modTariff_safe, newRef_edge, setExec_edge, setFrom_edge, stageAt_edge]

theorem cfgFail_edge (m a : Nat) (c : Chip) : (Chip.cfgFail m a c).safe.edge = c.safe.edge := by
  simp only [Chip.cfgFail, modMaster_safe]

theorem cmdTariffSchedule_edge (r : CmdReq) (c : Chip) : (cmdTariffSchedule r c).1.safe.edge = c.safe.edge := by
  unfold cmdTariffSchedule
  (repeat' split) <;> simp only [cfgFail_edge, modTariff_safe, stage_safe, ite_fst_edge, ite_self]

theorem cmdTariffUnschedule_edge (_r : CmdReq) (c : Chip) : (cmdTariffUnschedule _r c).1.safe.edge = c.safe.edge := by
  unfold cmdTariffUnschedule
  split <;> simp only [modTariff_safe, ite_fst_edge, ite_self]

theorem cmdTariffCopy_edge (_r : CmdReq) (c : Chip) : (cmdTariffCopy _r c).1.safe.edge = c.safe.edge := by
  simp only [cmdTariffCopy, modTariff_safe, ite_fst_edge, ite_self]

theorem binDemand_edge (start : Nat) (b : Bin) (c : Chip) : (Chip.binDemand start b c).safe.edge = c.safe.edge := by
  simp only [Chip.binDemand, modBill_safe, ite_edge, ite_self]

theorem binSession_edge (b : Bin) (cost : Option Int) (c : Chip) :
    (Chip.binSession b cost c).safe.edge = c.safe.edge := by
  simp only [Chip.binSession, modBill_safe, ite_edge, ite_self]

theorem commitBin_edge (start : Nat) (b : Bin) (c : Chip) : (Chip.commitBin start b c).safe.edge = c.safe.edge := by
  simp only [Chip.commitBin, binDemand_edge, binSession_edge, modBill_safe, ite_edge, ite_self]

theorem slotEvts_edge (code : W16) (k : Nat) (l : List Bin) (c : Chip) :
    (Chip.slotEvts code k l c).safe.edge = c.safe.edge := by
  simp only [Chip.slotEvts, raise_safe, each_edge, implies_true]

theorem modSpill_edge (m s : Nat) (f : Spill → Spill) (c : Chip) :
    (Chip.modSpill m s f c).safe.edge = c.safe.edge := by
  simp only [Chip.modSpill, modBill_safe]

theorem pulseStart_edge (m s : Nat) (c : Chip) : (Chip.pulseStart m s c).safe.edge = c.safe.edge := by
  unfold Chip.pulseStart
  dsimp only
  (repeat' split) <;> simp only [drvCommand_edge, modSpill_edge]

theorem pulses_edge (old c : Chip) : (Chip.pulses old c).safe.edge = c.safe.edge := by
  simp only [Chip.pulses, pulseStart_edge, each_edge, implies_true]

theorem spillFeed_edge (k m s : Nat) (v : Int) (c : Chip) : (Chip.spillFeed k m s v c).safe.edge = c.safe.edge := by
  simp only [Chip.spillFeed, modSpill_edge, raise_safe, each_edge, implies_true, when_edge, ite_self]

theorem commitSpills_edge (k : Nat) (seg : Seg) (c : Chip) : (Chip.commitSpills k seg c).safe.edge = c.safe.edge := by
  have key (f : Nat × Nat → Chip → Chip) (hf : ∀ p c, f p c = Chip.spillFeed k p.1 p.2 (c.spillAmount seg p.1 p.2) c)
      (l : List (Nat × Nat)) : (each l f c).safe.edge = c.safe.edge :=
    each_edge l (eq_true (fun p c => by rw [hf p c, spillFeed_edge])) c
  exact key _ (fun _ _ => rfl) _

theorem targetCheck_edge (m : Nat) (c : Chip) : (Chip.targetCheck m c).safe.edge = c.safe.edge := by
  simp only [Chip.targetCheck, bayEvent_edge, modBill_safe, ite_edge, ite_self]

theorem snapTake_edge (k stamp : Nat) (c : Chip) : (Chip.snapTake k stamp c).safe.edge = c.safe.edge := by
  simp only [Chip.snapTake, modBill_safe]

theorem zeroTake_edge (k : Option Nat) (stamp : Nat) (c : Chip) :
    (Chip.zeroTake k stamp c).safe.edge = c.safe.edge := by
  simp only [Chip.zeroTake, modBill_safe]

theorem bounds_edge (k start : Nat) (c : Chip) : (Chip.bounds k start c).safe.edge = c.safe.edge := by
  simp only [Chip.bounds, snapTake_edge, zeroTake_edge, each_edge, implies_true, ite_edge, ite_self]

theorem lpTake_edge (k start : Nat) (c : Chip) : (Chip.lpTake k start c).safe.edge = c.safe.edge := by
  unfold Chip.lpTake
  split
  · rfl
  · refine each_edge _ (eq_true (fun ch c => ?_)) c
    dsimp only
    split
    · rfl
    · simp only [when_edge, modBill_safe, ite_self]

theorem commitSeg_edge (k gate : Nat) (seg : Seg) (c : Chip) :
    (Chip.commitSeg k gate seg c).safe.edge = c.safe.edge := by
  simp only [Chip.commitSeg, bounds_edge, commitBin_edge, commitSpills_edge, fqPut_safe, lpTake_edge, modBill_safe,
    raiseAt_safe, slotEvts_edge, targetCheck_edge, each_edge, implies_true]

theorem pendLate_edge (k gate : Nat) (e : CtxEv) (c : Chip) : (Chip.pendLate k gate e c).safe.edge = c.safe.edge := by
  simp only [Chip.pendLate, modSave_safe]

theorem latchWins_edge (old c : Chip) : (Chip.latchWins old c).safe.edge = c.safe.edge := by
  simp only [Chip.latchWins, modBill_safe, each_edge, implies_true, ite_edge, ite_self]

theorem openInterval_edge (utc : Int) (stamp : Nat) (partl : Bool) (c : Chip) :
    (Chip.openInterval utc stamp partl c).safe.edge = c.safe.edge := by
  simp only [Chip.openInterval, modBill_safe]

theorem closeInterval_edge (utc : Int) (stamp : Nat) (fwd pf : Bool) (c : Chip) (ord : Nat ) :
    (Chip.closeInterval utc stamp fwd pf c ord).safe.edge = c.safe.edge := by
  simp only [Chip.closeInterval, modBill_safe, stageAt_edge]

theorem openNext_edge (p : PendTime) (c : Chip) : (Chip.openNext p c).safe.edge = c.safe.edge := by
  simp only [Chip.openNext, modBill_safe]

theorem demandExec_edge (p : PendTime) (c : Chip) : (Chip.demandExec p c).safe.edge = c.safe.edge := by
  simp only [Chip.demandExec, closeInterval_edge, openNext_edge, setExec_edge, when_edge, ite_edge, ite_self]

theorem periodClose_edge (kind : Nat) (utc : Int) (stamp : Nat) (c : Chip) (ord : Nat ) :
    (Chip.periodClose kind utc stamp c ord).safe.edge = c.safe.edge := by
  simp only [Chip.periodClose, modBill_safe, signBehind_edge, stageAt_edge]

theorem dropPend_edge (c : Chip) : (Chip.dropPend c).safe.edge = c.safe.edge := by
  simp only [Chip.dropPend, modSave_safe]

theorem closeTickets_edge (stamp : Nat) (c : Chip) : (Chip.closeTickets stamp c).safe.edge = c.safe.edge := by
  simp only [Chip.closeTickets, complete_edge, modBill_safe, each_edge, implies_true]

theorem pendExec_edge {f : PendTime → Chip → Chip} (h : ∀ p d, (f p d).safe.edge = d.safe.edge) (kinds : List Nat)
    (commit : Bool)
    (c : Chip) : (Chip.pendExec kinds commit f c).safe.edge = c.safe.edge := by
  unfold Chip.pendExec
  split
  · rfl
  · dsimp only
    split
    · exact (h _ _).trans (dropPend_edge c)
    · rfl

theorem closeExec_edge (p : PendTime) (c : Chip) : (Chip.closeExec p c).safe.edge = c.safe.edge := by
  simp only [Chip.closeExec, closeTickets_edge, periodClose_edge, setExec_edge, ite_edge, ite_self]

theorem sessionEnd_edge (m : Nat) (c : Chip) : (Chip.sessionEnd m c).safe.edge = c.safe.edge := by
  simp only [Chip.sessionEnd, bayEvent_edge, modBill_safe, signBehind_edge, stageAt_edge, ite_edge, ite_self]

theorem sessionAsk_edge (m : Nat) (reason : W8) (stamp : Nat) (c : Chip) :
    (Chip.sessionAsk m reason stamp c).safe.edge = c.safe.edge := by
  simp only [Chip.sessionAsk, modBill_safe, sessionEnd_edge, toEngines_edge, ite_edge, ite_self]

theorem closeSessions_edge (reason : W8) (c : Chip) : (Chip.closeSessions reason c).safe.edge = c.safe.edge := by
  simp only [Chip.closeSessions, sessionAsk_edge, each_edge, implies_true]

theorem sessOpen_edge (m : Nat) (d : List W8) (c : Chip) : (Chip.sessOpen m d c).1.safe.edge = c.safe.edge := by
  unfold Chip.sessOpen
  dsimp only
  split
  · rfl
  · dsimp only
    split
    · simp only [sessionAsk_edge, toEngines_edge, modBill_safe]
    · simp only [toEngines_edge, modBill_safe]

theorem sessClose_edge (no : W32) (reason : W8) (c : Chip) :
    (Chip.sessClose no reason c).1.safe.edge = c.safe.edge := by
  unfold Chip.sessClose
  (repeat' split) <;> simp only [sessionAsk_edge]

theorem markAdj_edge (ms : List Nat) (c : Chip) : (Chip.markAdj ms c).safe.edge = c.safe.edge := by
  simp only [Chip.markAdj, modBill_safe]

theorem lpOpen_edge (ch stamp : Nat) (utc v : Int) (partl outage : Bool) (c : Chip) :
    (Chip.lpOpen ch stamp utc v partl outage c).safe.edge = c.safe.edge := by
  simp only [Chip.lpOpen, modBill_safe]

theorem lpEnd_edge (ch : Nat) (c : Chip) : (Chip.lpEnd ch c).safe.edge = c.safe.edge := by
  unfold Chip.lpEnd
  split <;> simp only [lpOpen_edge, modBill_safe, ite_edge, ite_self]

theorem billZero_edge (stamp : Nat) (c : Chip) : (Chip.billZero stamp c).safe.edge = c.safe.edge := by
  simp only [Chip.billZero, modBill_safe, recordLegal_safe, tamperInst_safe, zeroTake_edge, each_edge, implies_true]

theorem cmdBillClose_edge (r : CmdReq) (c : Chip) : (cmdBillClose r c).1.safe.edge = c.safe.edge := by
  simp only [cmdBillClose, addPend_edge, long_edge, modBill_safe, toEngines_edge, implies_true]

theorem cmdBillSessClose_edge (r : CmdReq) (c : Chip) : (cmdBillSessClose r c).1.safe.edge = c.safe.edge := by
  unfold cmdBillSessClose
  split <;> simp only [sessionAsk_edge]

theorem cmdBillZero_edge (r : CmdReq) (c : Chip) : (cmdBillZero r c).1.safe.edge = c.safe.edge := by
  simp only [cmdBillZero, long_edge, modCfg_safe, toEngines_edge, implies_true, ite_fst_edge, ite_self]

theorem cmdBillLpRead_edge (r : CmdReq) (c : Chip) : (cmdBillLpRead r c).1.safe.edge = c.safe.edge := by
  simp only [cmdBillLpRead, complete_edge, fqPut_safe, long_edge, each_edge, implies_true, ite_fst_edge, ite_self]

end Sys2Proof.Machine
end

section
/-! The quantity engines leave the Edge logic of the safety channels as it is. -/

namespace Sys2Proof.Machine

open Sys2Proof Sys2Proof.Claims

theorem adjLate_edge (k s : Nat) (e : CtxEv) (c : Chip) : (Chip.adjLate k s e c).safe.edge = c.safe.edge := by
  simp only [Chip.adjLate, markAdj_edge, pendLate_edge, raise_safe, stage_safe]

theorem placeGate_edge (k : Nat) (rep : Bool) (s : Nat) (c : Chip) :
    (Chip.placeGate k rep s c).safe.edge = c.safe.edge := by
  simp only [Chip.placeGate, adjLate_edge, modEng_safe, each_edge, implies_true]

theorem firstGate_edge (k six : Nat) (c : Chip) : (Chip.firstGate k six c).safe.edge = c.safe.edge := by
  simp only [Chip.firstGate, modUpd_safe, postNow_edge, stage_safe, ite_edge, ite_self]

theorem revWatch_edge (e : CtxEv) (c : Chip) : (Chip.revWatch e c).safe.edge = c.safe.edge := by
  unfold Chip.revWatch
  split <;> simp only [tamperInst_safe, ite_edge, ite_self]

theorem tracePkt_edge (k : Nat) (seg : Seg) (c : Chip) : (Chip.tracePkt k seg c).safe.edge = c.safe.edge := by
  simp only [Chip.tracePkt, fqPut_safe, each_edge, implies_true, ite_edge, ite_self]

theorem commitGate_edge (k : Nat) (forced : Bool) (c : Chip) :
    (Chip.commitGate k forced c).safe.edge = c.safe.edge := by
  unfold Chip.commitGate
  split <;> simp only [commitSeg_edge, firstGate_edge, modBill_safe, modEng_safe, modUpd_safe, revWatch_edge,
    tracePkt_edge, each_edge, implies_true]

theorem commitAll_edge (k : Nat) (c : Chip) : (Chip.commitAll k c).safe.edge = c.safe.edge := by
  simp only [Chip.commitAll, commitGate_edge, each_edge, implies_true]

theorem forcedNote_edge (k : Nat) (c : Chip) : (Chip.forcedNote k c).safe.edge = c.safe.edge := by
  simp only [Chip.forcedNote, modEng_safe, raise_safe]

theorem forceGate_edge (k s : Nat) (c : Chip) : (Chip.forceGate k s c).safe.edge = c.safe.edge := by
  simp only [Chip.forceGate, commitAll_edge, forcedNote_edge, modEng_safe, placeGate_edge, ite_edge, ite_self]

theorem forceAtH_edge (k : Nat) (short : Bool) (c : Chip) : (Chip.forceAtH k short c).safe.edge = c.safe.edge := by
  simp only [Chip.forceAtH, commitAll_edge, forceGate_edge, forcedNote_edge, modEng_safe, ite_edge, ite_self]

theorem progSwitch_edge (k : Nat) (c : Chip) : (Chip.progSwitch k c).safe.edge = c.safe.edge := by
  simp only [Chip.progSwitch, commitAll_edge, modEng_safe, placeGate_edge, raise_safe, setRdy_edge, ite_edge,
    ite_self]

theorem gateAt_edge (k : Nat) (rep : Bool) (s : Nat) (c : Chip) :
    (Chip.gateAt k rep s c).safe.edge = c.safe.edge := by
  simp only [Chip.gateAt, commitGate_edge, forceGate_edge, forcedNote_edge, modEng_safe, placeGate_edge, ite_edge,
    ite_self]

theorem bridgeGap_edge (k : Nat) (c : Chip) : (Chip.bridgeGap k c).safe.edge = c.safe.edge := by
  unfold Chip.bridgeGap
  split <;> simp only [modEng_safe, modGroup_safe, ite_edge, ite_self]

theorem gapGate_edge (k : Nat) (rep : Bool) (pos : Nat) (c : Chip) :
    (Chip.gapGate k rep pos c).safe.edge = c.safe.edge := by
  simp only [Chip.gapGate, commitGate_edge, forcedNote_edge, placeGate_edge, ite_edge, ite_self]

theorem skipGap_edge (k : Nat) (rep : Bool) (c : Chip) : (Chip.skipGap k rep c).safe.edge = c.safe.edge := by
  unfold Chip.skipGap
  dsimp only
  (repeat' split) <;> simp only [gapGate_edge, modEng_safe]

theorem beginInstant_edge (k : Nat) (rep : Bool) (pos : Nat) (c : Chip) :
    (Chip.beginInstant k rep pos c).safe.edge = c.safe.edge := by
  simp only [Chip.beginInstant, modEng_safe]

theorem stopEngine_edge (k : Nat) (run : BitVec 4) (c : Chip) :
    (Chip.stopEngine k run c).safe.edge = c.safe.edge := by
  simp only [Chip.stopEngine, modEng_safe, setRdy_edge]

theorem metrologyEnd_edge (k : Nat) (c : Chip) : (Chip.metrologyEnd k c).safe.edge = c.safe.edge := by
  unfold Chip.metrologyEnd
  split <;> simp only [forceAtH_edge, modEng_safe, stopEngine_edge, ite_edge, ite_self]

theorem ready_edge (k : Nat) (rep : Bool) (c : Chip) : (Chip.ready k rep c).safe.edge = c.safe.edge := by
  simp only [Chip.ready, beginInstant_edge, bridgeGap_edge, gateAt_edge, metrologyEnd_edge, progSwitch_edge,
    skipGap_edge, ite_edge, ite_self]

theorem doneIf_edge (t : W16) (st : W8) (c : Chip) : (Chip.doneIf t st c).safe.edge = c.safe.edge := by
  simp only [Chip.doneIf, complete_edge, ite_edge, ite_self]

theorem gateCommit_edge (k : Nat) (c : Chip) : (Chip.gateCommit k c).safe.edge = c.safe.edge := by
  unfold Chip.gateCommit
  split <;> simp only [commitGate_edge, ite_edge, ite_self]

theorem tallyFault_edge (k : Nat) (rep : Bool) (code : W8) (imm : W16) (c : Chip) :
    (Chip.tallyFault k rep code imm c).safe.edge = c.safe.edge := by
  simp only [Chip.tallyFault, doneIf_edge, forceAtH_edge, gateCommit_edge, modEng_safe, raise_safe, stopEngine_edge,
    each_edge, implies_true, ite_edge, ite_self]

theorem qPure_edge (k : Nat) (rep : Bool) (f : Thread → Except W8 Thread) (c : Chip) :
    (Chip.qPure k rep f c).safe.edge = c.safe.edge := by
  unfold Chip.qPure
  dsimp only
  (repeat' split) <;> simp only [modEng_safe, ready_edge, tallyFault_edge]

theorem qInstr_edge {f : Chip → Thread → Except W8 Chip} (h : ∀ c t, KeepsEdge c (f c t)) (k : Nat) (rep : Bool)
    (c : Chip) : (Chip.qInstr k rep f c).safe.edge = c.safe.edge := by
  unfold Chip.qInstr
  dsimp only
  split
  · exact ready_edge k rep c
  · have hf := h (c.ready k rep) (((c.ready k rep).eng k).thr rep)
    split
    · next d he => exact (hf d he).trans (ready_edge k rep c)
    · exact (tallyFault_edge ..).trans (ready_edge k rep c)

theorem qNext_edge (k : Nat) (rep : Bool) (t : Thread) (c : Chip) :
    (Chip.qNext k rep t c).safe.edge = c.safe.edge := by
  simp only [Chip.qNext, modEng_safe]

theorem stall_edge (k : Nat) (c : Chip) : (Chip.stall k c).safe.edge = c.safe.edge := by
  simp only [Chip.stall, modEng_safe]

theorem qStore_edge (k : Nat) (rep : Bool) (t : Thread) (l : List (Nat × W64)) (c : Chip) :
    KeepsEdge c (Chip.qStore k rep t l c) := by
  unfold Chip.qStore
  dsimp only
  (repeat' split) <;> simp only [keepsEdge_ok, keepsEdge_error, qNext_edge, stall_edge, modEng_safe]

theorem qLd_edge (k : Nat) (rep : Bool) (rd rs1 : Reg) (imm : W16) (c : Chip) :
    (Chip.qLd k rep rd rs1 imm c).safe.edge = c.safe.edge := by
  unfold Chip.qLd
  refine qInstr_edge (fun c t => ?_) k rep c
  dsimp only
  (repeat' split) <;> simp only [qNext_edge, keepsEdge_ok, keepsEdge_error]

theorem qSt_edge (k : Nat) (rep : Bool) (rs2 rs1 : Reg) (imm : W16) (c : Chip) :
    (Chip.qSt k rep rs2 rs1 imm c).safe.edge = c.safe.edge := by
  unfold Chip.qSt
  refine qInstr_edge (fun c t => ?_) k rep c
  dsimp only
  (repeat' split) <;> simp only [qStore_edge, keepsEdge_error]

theorem qLdw_edge (k : Nat) (rep : Bool) (wa : WReg) (rs1 : Reg) (imm : W8) (c : Chip) :
    (Chip.qLdw k rep wa rs1 imm c).safe.edge = c.safe.edge := by
  unfold Chip.qLdw
  refine qInstr_edge (fun c t => ?_) k rep c
  dsimp only
  (repeat' split) <;> simp only [qNext_edge, keepsEdge_ok, keepsEdge_error]

theorem qStw_edge (k : Nat) (rep : Bool) (wa : WReg) (rs1 : Reg) (imm : W8) (c : Chip) :
    (Chip.qStw k rep wa rs1 imm c).safe.edge = c.safe.edge := by
  unfold Chip.qStw
  refine qInstr_edge (fun c t => ?_) k rep c
  dsimp only
  (repeat' split) <;> simp only [qStore_edge, keepsEdge_error]

theorem qTap_edge (k : Nat) (rep chk st : Bool) (rd rs1 : Reg) (imm : W16) (c : Chip) :
    (Chip.qTap k rep chk st rd rs1 imm c).safe.edge = c.safe.edge := by
  unfold Chip.qTap
  refine qInstr_edge (fun c t => ?_) k rep c
  dsimp only
  (repeat' split) <;> simp only [qNext_edge, keepsEdge_ok, keepsEdge_error]

theorem qCtx_edge (k : Nat) (rep : Bool) (rd rs1 : Reg) (sel : W16) (c : Chip) :
    (Chip.qCtx k rep rd rs1 sel c).safe.edge = c.safe.edge := by
  unfold Chip.qCtx
  refine qInstr_edge (fun c t => ?_) k rep c
  dsimp only
  (repeat' split) <;> simp only [qNext_edge, keepsEdge_ok, keepsEdge_error]

theorem qBin_edge (k : Nat) (rep bySign : Bool) (wa : WReg) (rs1 : Reg) (slot : Fin 8) (keep : Bool) (c : Chip) :
    (Chip.qBin k rep bySign wa rs1 slot keep c).safe.edge = c.safe.edge := by
  unfold Chip.qBin
  refine qInstr_edge (fun c t => ?_) k rep c
  dsimp only
  (repeat' split) <;> simp only [modEng_safe, qNext_edge, stall_edge, keepsEdge_ok, keepsEdge_error]

theorem qSpill_edge (k : Nat) (rep : Bool) (wa : WReg) (rs1 : Reg) (slot : Fin 8) (keep : Bool) (c : Chip) :
    (Chip.qSpill k rep wa rs1 slot keep c).safe.edge = c.safe.edge := by
  unfold Chip.qSpill
  refine qInstr_edge (fun c t => ?_) k rep c
  dsimp only
  (repeat' split) <;> simp only [modEng_safe, qNext_edge, keepsEdge_ok, keepsEdge_error]

theorem qMark_edge (k : Nat) (rep : Bool) (rs1 rs2 : Reg) (c : Chip) :
    (Chip.qMark k rep rs1 rs2 c).safe.edge = c.safe.edge := by
  unfold Chip.qMark
  refine qInstr_edge (fun c t => ?_) k rep c
  rw [keepsEdge_ite]
  split
  · exact keepsEdge_error.mpr trivial
  · extract_lets w v ok d
    clear_value w
    split
    · exact keepsEdge_error.mpr trivial
    · extract_lets two r t' d1 d2
      have hd : d2.safe.edge = c.safe.edge := by simp only [d2, d1, qNext_edge, ite_edge, modBill_safe, ite_self]
      clear_value r d2
      obtain ⟨x, z⟩ := r
      cases z <;> simp only [keepsEdge_ite, keepsEdge_ok, keepsEdge_error, toEngine_edge, hd, ite_self]

theorem qPushl_edge (k : Nat) (rep : Bool) (rs1 rs2 : Reg) (tag : BitVec 6) (c : Chip) :
    (Chip.qPushl k rep rs1 rs2 tag c).safe.edge = c.safe.edge := by
  unfold Chip.qPushl
  refine qInstr_edge (fun c t => ?_) k rep c
  dsimp only
  (repeat' split) <;> simp only [keepsEdge_ok, keepsEdge_error, modDisp_safe, qNext_edge]

theorem qPushr_edge (k : Nat) (rep : Bool) (rs1 rs2 : Reg) (tag : BitVec 6) (c : Chip) :
    (Chip.qPushr k rep rs1 rs2 tag c).safe.edge = c.safe.edge := by
  unfold Chip.qPushr
  refine qInstr_edge (fun c t => ?_) k rep c
  dsimp only
  (repeat' split) <;> simp only [modEng_safe, qNext_edge, keepsEdge_ok, keepsEdge_error]

theorem flushLive_edge (k : Nat) (rep : Bool) (c : Chip) : (Chip.flushLive k rep c).safe.edge = c.safe.edge := by
  simp only [Chip.flushLive, fqPut_safe, modDisp_safe, modEng_safe, each_edge, implies_true]

theorem qGate_edge (k : Nat) (rep : Bool) (c : Chip) : (Chip.qGate k rep c).safe.edge = c.safe.edge := by
  unfold Chip.qGate
  refine qInstr_edge (fun c t => ?_) k rep c
  dsimp only
  (repeat' split) <;> simp only [gateAt_edge, modEng_safe, keepsEdge_ok, keepsEdge_error]

theorem qFence_edge (k : Nat) (rep : Bool) (c : Chip) : (Chip.qFence k rep c).safe.edge = c.safe.edge := by
  unfold Chip.qFence
  refine qInstr_edge (fun c t => ?_) k rep c
  simp only [flushLive_edge, qNext_edge, keepsEdge_ok]

theorem qYield_edge (k : Nat) (rep : Bool) (cycles : Nat) (c : Chip) :
    (Chip.qYield k rep cycles c).safe.edge = c.safe.edge := by
  unfold Chip.qYield
  refine qInstr_edge (fun c t => ?_) k rep c
  simp only [keepsEdge_ite, keepsEdge_ok, keepsEdge_error, flushLive_edge, modEng_safe, progSwitch_edge, ite_self]

theorem qHalt_edge (k : Nat) (rep : Bool) (c : Chip) : (Chip.qHalt k rep c).safe.edge = c.safe.edge := by
  unfold Chip.qHalt
  refine qInstr_edge (fun c t => ?_) k rep c
  dsimp only
  (repeat' split) <;> simp only [modEng_safe, keepsEdge_ok, keepsEdge_error]

theorem qTrap_edge (k : Nat) (rep : Bool) (imm : W16) (c : Chip) :
    (Chip.qTrap k rep imm c).safe.edge = c.safe.edge := by
  simp only [Chip.qTrap, ready_edge, tallyFault_edge, ite_edge, ite_self]

theorem retract_edge (k first last : Nat) (c : Chip) : (Chip.retract k first last c).safe.edge = c.safe.edge := by
  simp only [Chip.retract, fqPut_safe, modDisp_safe]

theorem newEpoch_edge (k first : Nat) (c : Chip) : (Chip.newEpoch k first c).safe.edge = c.safe.edge := by
  simp only [Chip.newEpoch, modEng_safe, retract_edge]

theorem switchover_edge (k : Nat) (c : Chip) : (Chip.switchover k c).safe.edge = c.safe.edge := by
  simp only [Chip.switchover, modEng_safe, newEpoch_edge, ite_edge, ite_self]

theorem engineFault_edge (k : Nat) (c : Chip) : (Chip.engineFault k c).safe.edge = c.safe.edge := by
  simp only [Chip.engineFault, doneIf_edge, modEng_safe, modGroup_safe, raise_safe, setRdy_edge, stopEngine_edge,
    ite_edge, ite_self]

theorem engLockstep_edge (k : Nat) (c : Chip) : (Chip.engLockstep k c).safe.edge = c.safe.edge := by
  simp only [Chip.engLockstep, engineFault_edge, modEng_safe, raise_safe, ite_edge, ite_self]

theorem recoverDone_edge (k : Nat) (c : Chip) : (Chip.recoverDone k c).safe.edge = c.safe.edge := by
  simp only [Chip.recoverDone, modEng_safe, newEpoch_edge, ite_edge, ite_self]

theorem imgVerify_edge (i : Nat) (c : Chip) : (Chip.imgVerify i c).1.safe.edge = c.safe.edge := by
  simp only [Chip.imgVerify, modImg_safe, ite_fst_edge, ite_self]

theorem imgBad_edge (k i : Nat) (c : Chip) : (Chip.imgBad k i c).safe.edge = c.safe.edge := by
  simp only [Chip.imgBad, doneIf_edge, modEng_safe, modSys_safe, raise_safe, stopEngine_edge]

theorem writeBanks_edge (k : Nat) (bank : Bool) (c : Chip) : (Chip.writeBanks k bank c).safe.edge = c.safe.edge := by
  simp only [Chip.writeBanks, modEng_safe]

theorem loadFresh_edge (k i : Nat) (ctx : EngCtx) (dirs : Tbl DirUnit) (c : Chip) :
    (Chip.loadFresh k i ctx dirs c).safe.edge = c.safe.edge := by
  simp only [Chip.loadFresh, imgBad_edge, imgVerify_edge, modEng_safe, writeBanks_edge, ite_edge, ite_self]

theorem progLoaded_edge (k : Nat) (c : Chip) : (Chip.progLoaded k c).safe.edge = c.safe.edge := by
  simp only [Chip.progLoaded, loadFresh_edge, ite_edge, ite_self]

theorem reloadDone_edge (k : Nat) (c : Chip) : (Chip.reloadDone k c).safe.edge = c.safe.edge := by
  simp only [Chip.reloadDone, imgBad_edge, imgVerify_edge, loadFresh_edge, modEng_safe, ite_edge, ite_self]

theorem catchUp_edge (k : Nat) (c : Chip) : (Chip.catchUp k c).safe.edge = c.safe.edge := by
  simp only [Chip.catchUp, doneIf_edge, modEng_safe, modGroup_safe, newEpoch_edge, setRdy_edge, ite_edge, ite_self]

theorem headCaught_edge (k : Nat) (c : Chip) : (Chip.headCaught k c).safe.edge = c.safe.edge := by
  simp only [Chip.headCaught, modEng_safe, modGroup_safe, setRdy_edge, ite_edge, ite_self]

theorem unstall_edge (k : Nat) (c : Chip) : (Chip.unstall k c).safe.edge = c.safe.edge := by
  simp only [Chip.unstall, modEng_safe]

theorem stallEnd_edge (k : Nat) (c : Chip) : (Chip.stallEnd k c).safe.edge = c.safe.edge := by
  simp only [Chip.stallEnd, unstall_edge, ite_edge, ite_self]

theorem forcedDue_edge (k : Nat) (c : Chip) : (Chip.forcedDue k c).safe.edge = c.safe.edge := by
  simp only [Chip.forcedDue, forceAtH_edge, modEng_safe, unstall_edge, ite_edge, ite_self]

theorem tapRecord_edge (k : Nat) (c : Chip) : (Chip.tapRecord k c).safe.edge = c.safe.edge := by
  unfold Chip.tapRecord
  split <;> simp only [fqPut_safe, modEng_safe, ite_edge, ite_self]

theorem recordEnd_edge (k : Nat) (st : W8) (c : Chip) : (Chip.recordEnd k st c).safe.edge = c.safe.edge := by
  simp only [Chip.recordEnd, complete_edge, modEng_safe, ite_edge, ite_self]

theorem qualEvent_edge (m stamp : Nat) (v : Option W64) (c : Chip) :
    (Chip.qualEvent m stamp v c).safe.edge = c.safe.edge := by
  unfold Chip.qualEvent
  dsimp only
  (repeat' split) <;> simp only [modBill_safe, toEngine_edge]

theorem qualSend_edge (m : Nat) (c : Chip) : (Chip.qualSend m c).safe.edge = c.safe.edge := by
  unfold Chip.qualSend
  split <;> simp only [modBill_safe]

theorem qualPoll_edge (m : Nat) (c : Chip) : (Chip.qualPoll m c).safe.edge = c.safe.edge := by
  simp only [Chip.qualPoll, modBill_safe, qualSend_edge, ite_edge, ite_self]

theorem qualNext_edge (m : Nat) (c : Chip) : (Chip.qualNext m c).safe.edge = c.safe.edge := by
  unfold Chip.qualNext
  split <;> simp only [qualSend_edge]

theorem qualFail_edge (m : Nat) (c : Chip) : (Chip.qualFail m c).safe.edge = c.safe.edge := by
  unfold Chip.qualFail
  dsimp only
  (repeat' split) <;> simp only [modBill_safe, qualEvent_edge, qualNext_edge, raise_safe]

theorem qualAnswer_edge (m : Nat) (raw : List W16) (c : Chip) :
    (Chip.qualAnswer m raw c).safe.edge = c.safe.edge := by
  unfold Chip.qualAnswer
  split <;> simp only [modBill_safe, qualEvent_edge, qualFail_edge, qualNext_edge, ite_edge, ite_self]

theorem cmdQeRestart_edge (r : CmdReq) (c : Chip) : (cmdQeRestart r c).1.safe.edge = c.safe.edge := by
  simp only [cmdQeRestart, long_edge, modEng_safe, implies_true, ite_fst_edge, ite_self]

theorem restartCancel_edge (k : Nat) (c : Chip) : (Chip.restartCancel k c).safe.edge = c.safe.edge := by
  simp only [Chip.restartCancel, modEng_safe, stopEngine_edge, ite_edge, ite_self]

theorem cmdQeCntClr_edge (r : CmdReq) (c : Chip) : (cmdQeCntClr r c).1.safe.edge = c.safe.edge := by
  simp only [cmdQeCntClr, modEng_safe]

theorem cmdQeTrace_edge (r : CmdReq) (c : Chip) : (cmdQeTrace r c).1.safe.edge = c.safe.edge := by
  simp only [cmdQeTrace, modEng_safe, ite_fst_edge, ite_self]

theorem cmdQeTapRecord_edge (r : CmdReq) (c : Chip) : (cmdQeTapRecord r c).1.safe.edge = c.safe.edge := by
  simp only [cmdQeTapRecord, long_edge, modEng_safe, implies_true, ite_fst_edge, ite_self]

end Sys2Proof.Machine
end

section
/-! The bay and the instructions of both machines leave the Edge logic as it is. -/

namespace Sys2Proof.Machine

open Sys2Proof Sys2Proof.Claims

theorem bayField_edge (a : Nat) (v : W64) (c : Chip) : (Chip.bayField a v c).safe.edge = c.safe.edge := by
  simp only [Chip.bayField, modBay_safe]

theorem signalLost_edge (old c : Chip) : (Chip.signalLost old c).safe.edge = c.safe.edge := by
  unfold Chip.signalLost
  split <;> simp only [fqPut_safe, modBay_safe, ite_edge, ite_self]

theorem bayWatch_edge (old c : Chip) : (Chip.bayWatch old c).safe.edge = c.safe.edge := by
  simp only [Chip.bayWatch, bayEvent_edge, bayField_edge, fqPut_safe, signalLost_edge, when_edge, ite_edge, ite_self]

theorem bayStep2_edge (c : Chip) : (Chip.bayStep2 c).safe.edge = c.safe.edge := by
  simp only [Chip.bayStep2, bayDrivesOff_edge, modBay_safe]

theorem bayStop_edge (run : BitVec 4) (c : Chip) : (Chip.bayStop run c).safe.edge = c.safe.edge := by
  simp only [Chip.bayStop, modBay_safe]

theorem bayCancel_edge (t : W16) (c : Chip) : (Chip.bayCancel t c).safe.edge = c.safe.edge := by
  simp only [Chip.bayCancel, modBay_safe, ite_edge, ite_self]

theorem bayTicketsDone_edge (st : W8) (c : Chip) : (Chip.bayTicketsDone st c).safe.edge = c.safe.edge := by
  simp only [Chip.bayTicketsDone, doneIf_edge, modBay_safe, each_edge, implies_true]

theorem bayFault_edge (code : W8) (c : Chip) : (Chip.bayFault code c).safe.edge = c.safe.edge := by
  simp only [Chip.bayFault, bayStep2_edge, bayStop_edge, bayTicketsDone_edge, closeSessions_edge, modBay_safe,
    raise_safe, setRdy_edge, when_edge, ite_self]

theorem bayHalt_edge (c : Chip) : (Chip.bayHalt c).safe.edge = c.safe.edge := by
  simp only [Chip.bayHalt, bayStep2_edge, bayStop_edge, closeSessions_edge, modBay_safe, raise_safe, setRdy_edge]

theorem bayLoad_edge (run : BitVec 4) (c : Chip) : (Chip.bayLoad run c).safe.edge = c.safe.edge := by
  simp only [Chip.bayLoad, bayDrivesOff_edge, bayStop_edge, modBay_safe, setRdy_edge]

theorem modBayImg_edge (i : Nat) (f : TallyImg → TallyImg) (c : Chip) :
    (Chip.modBayImg i f c).safe.edge = c.safe.edge := by
  simp only [Chip.modBayImg, modBay_safe]

theorem bayReloaded_edge (c : Chip) : (Chip.bayReloaded c).safe.edge = c.safe.edge := by
  simp only [Chip.bayReloaded, bayStop_edge, bayTicketsDone_edge, modBay_safe, modBayImg_edge, raise_safe,
    setRdy_edge, ite_edge, ite_self]

theorem bayPause_edge (c : Chip) : (Chip.bayPause c).safe.edge = c.safe.edge := by
  simp only [Chip.bayPause, modBay_safe, ite_edge, ite_self]

theorem bayTrip_edge (cause : BitVec 3) (c : Chip) : (Chip.bayTrip cause c).safe.edge = c.safe.edge := by
  simp only [Chip.bayTrip, bayEvent_edge, modBay_safe, raise_safe, ite_edge, ite_self]

theorem tripCheck_edge (old c : Chip) : (Chip.tripCheck old c).safe.edge = c.safe.edge := by
  simp only [Chip.tripCheck, bayTrip_edge, ite_edge, ite_self]

theorem bayUntrip_edge (c : Chip) : (Chip.bayUntrip c).safe.edge = c.safe.edge := by
  simp only [Chip.bayUntrip, modBay_safe]

theorem pilotSamples_edge (hi : Plateaus) (lo : Int) (c : Chip) :
    (Chip.pilotSamples hi lo c).safe.edge = c.safe.edge := by
  simp only [Chip.pilotSamples, bayEvent_edge, bayUntrip_edge, modBay_safe, when_edge, ite_edge, ite_self]

theorem ppMeasured_edge (r : Nat) (c : Chip) : (Chip.ppMeasured r c).safe.edge = c.safe.edge := by
  simp only [Chip.ppMeasured, bayEvent_edge, modBay_safe, ite_edge, ite_self]

theorem imdMeasured_edge (kohm : W16) (c : Chip) : (Chip.imdMeasured kohm c).safe.edge = c.safe.edge := by
  simp only [Chip.imdMeasured, bayTrip_edge, modBay_safe, raise_safe, when_edge, ite_edge, ite_self]

theorem rcmInput_edge (k : Nat) (on : Bool) (c : Chip) : (Chip.rcmInput k on c).safe.edge = c.safe.edge := by
  simp only [Chip.rcmInput, bayTrip_edge, modBay_safe, when_edge, ite_self]

theorem modCan_edge (p : Nat) (f : CanPort → CanPort) (c : Chip) : (Chip.modCan p f c).safe.edge = c.safe.edge := by
  simp only [Chip.modCan, modBay_safe]

theorem canKeep_edge (p : Nat) (id : W32) (data : List W8) (t : W32) (c : Chip) :
    (Chip.canKeep p id data t c).safe.edge = c.safe.edge := by
  simp only [Chip.canKeep, bayEvent_edge, modCan_edge, ite_edge, ite_self]

theorem v2gPost_edge (msg : Nat) (q : V2gReq) (failed : Bool) (c : Chip) :
    (Chip.v2gPost msg q failed c).safe.edge = c.safe.edge := by
  simp only [Chip.v2gPost, bayEvent_edge, bayField_edge, fqPut_safe, modBay_safe, each_edge, implies_true, ite_edge,
    ite_self]

theorem v2gAbort_edge (q : V2gReq) (c : Chip) : (Chip.v2gAbort q c).safe.edge = c.safe.edge := by
  simp only [Chip.v2gAbort, modBay_safe, raise_safe, v2gPost_edge]

theorem v2gAnswer_edge (q : V2gReq) (c : Chip) : (Chip.v2gAnswer q c).safe.edge = c.safe.edge := by
  simp only [Chip.v2gAnswer, bayField_edge, modBay_safe, v2gAbort_edge, v2gPost_edge, each_edge, implies_true,
    when_edge, ite_edge, ite_self]

theorem v2gRequest_edge (q : V2gReq) (c : Chip) : (Chip.v2gRequest q c).safe.edge = c.safe.edge := by
  simp only [Chip.v2gRequest, modBay_safe, v2gAnswer_edge, ite_edge, ite_self]

theorem bayResume_edge (c : Chip) : (Chip.bayResume c).safe.edge = c.safe.edge := by
  simp only [Chip.bayResume, bayLoad_edge, modBay_safe, v2gAnswer_edge, each_edge, implies_true, when_edge, ite_edge,
    ite_self]

theorem modemRelease_edge (c : Chip) : (Chip.modemRelease c).safe.edge = c.safe.edge := by
  simp only [Chip.modemRelease, modBay_safe]

theorem modemPut_edge (took : List W8) :
    ∀ (again : Bool) (c : Chip), (Chip.modemPut took again c).safe.edge = c.safe.edge := by
  induction took with
  | nil => exact fun _ _ => rfl
  | cons a t ih =>
    intro again c
    unfold Chip.modemPut
    split
    · rfl
    · split
      · rfl
      · rw [ih, modBay_safe]

theorem bayTimer_edge (n : Nat) (c : Chip) : (Chip.bayTimer n c).safe.edge = c.safe.edge := by
  simp only [Chip.bayTimer, bayEvent_edge, modBay_safe, ite_edge, ite_self]

theorem setCore_edge (t : Thread) (c : Chip) : (Chip.setCore t c).safe.edge = c.safe.edge := by
  simp only [Chip.setCore, modBay_safe]

theorem bPure_edge (f : Thread → Except W8 Thread) (c : Chip) : (Chip.bPure f c).safe.edge = c.safe.edge := by
  unfold Chip.bPure
  (repeat' split) <;> simp only [bayFault_edge, setCore_edge]

theorem bInstr_edge {f : Chip → Thread → Except W8 Chip} (h : ∀ c t, KeepsEdge c (f c t)) (c : Chip) :
    (Chip.bInstr f c).safe.edge = c.safe.edge := by
  unfold Chip.bInstr
  split
  · rfl
  · have hf := h c c.bay.core
    split
    · next d he => exact hf d he
    · exact bayFault_edge ..

theorem bIllegal_edge (c : Chip) : (Chip.bIllegal c).safe.edge = c.safe.edge := by
  simp only [Chip.bIllegal, bPure_edge]

theorem bPut_edge (rd : Reg) (v : W64) (c : Chip) : (Chip.bPut rd v c).safe.edge = c.safe.edge := by
  simp only [Chip.bPut, setCore_edge]

theorem bRet_edge (rd : Reg) (x : Chip × W8) : (Chip.bRet rd x).safe.edge = x.1.safe.edge :=
  bPut_edge ..

theorem bLd_edge (rd rs1 : Reg) (imm : W16) (c : Chip) : (Chip.bLd rd rs1 imm c).safe.edge = c.safe.edge := by
  unfold Chip.bLd
  refine bInstr_edge (fun c t => ?_) c
  dsimp only
  (repeat' split) <;> simp only [bPut_edge, keepsEdge_ok, keepsEdge_error]

theorem bSt_edge (rs2 rs1 : Reg) (imm : W16) (c : Chip) : (Chip.bSt rs2 rs1 imm c).safe.edge = c.safe.edge := by
  unfold Chip.bSt
  refine bInstr_edge (fun c t => ?_) c
  dsimp only
  (repeat' split) <;> simp only [bayField_edge, setCore_edge, keepsEdge_ok, keepsEdge_error]

theorem bDrvset_edge (rd rs1 rs2 : Reg) (c : Chip) : (Chip.bDrvset rd rs1 rs2 c).safe.edge = c.safe.edge := by
  unfold Chip.bDrvset
  refine bInstr_edge (fun c t => ?_) c
  simp only [bRet_edge, drvSet_edge, keepsEdge_ok]

theorem bDrvget_edge (rd rs1 : Reg) (c : Chip) : (Chip.bDrvget rd rs1 c).safe.edge = c.safe.edge := by
  unfold Chip.bDrvget
  refine bInstr_edge (fun c t => ?_) c
  dsimp only
  (repeat' split) <;> simp only [bPut_edge, keepsEdge_ok]

theorem bEvwait_edge (rd rs1 : Reg) (c : Chip) : (Chip.bEvwait rd rs1 c).safe.edge = c.safe.edge := by
  simp only [Chip.bEvwait, bPut_edge, bayFault_edge, modBay_safe, ite_edge, ite_self]

theorem bTmset_edge (rd rs1 rs2 : Reg) (c : Chip) : (Chip.bTmset rd rs1 rs2 c).safe.edge = c.safe.edge := by
  unfold Chip.bTmset
  refine bInstr_edge (fun c t => ?_) c
  dsimp only
  (repeat' split) <;> simp only [bPut_edge, modBay_safe, keepsEdge_ok]

theorem bTmsetCancel_edge (rd rs1 : Reg) (c : Chip) : (Chip.bTmsetCancel rd rs1 c).safe.edge = c.safe.edge := by
  unfold Chip.bTmsetCancel
  refine bInstr_edge (fun c t => ?_) c
  dsimp only
  (repeat' split) <;> simp only [bPut_edge, modBay_safe, keepsEdge_ok]

theorem bSignal_edge (rd rs1 rs2 : Reg) (c : Chip) : (Chip.bSignal rd rs1 rs2 c).safe.edge = c.safe.edge := by
  simp only [Chip.bSignal, bPut_edge, fqPut_safe, modBay_safe, ite_edge, ite_self]

theorem bPilot_edge (rd rs1 rs2 : Reg) (c : Chip) : (Chip.bPilot rd rs1 rs2 c).safe.edge = c.safe.edge := by
  unfold Chip.bPilot
  refine bInstr_edge (fun c t => ?_) c
  dsimp only
  (repeat' split) <;> simp only [bPut_edge, modBay_safe, keepsEdge_ok]

theorem bSliptx_edge (rd rs1 rs2 rs3 : Reg) (c : Chip) : (Chip.bSliptx rd rs1 rs2 rs3 c).safe.edge = c.safe.edge := by
  unfold Chip.bSliptx
  refine bInstr_edge (fun c t => ?_) c
  dsimp only
  (repeat' split) <;> simp only [bPut_edge, modCan_edge, keepsEdge_ok, keepsEdge_error]

theorem bSliprx_edge (rd rs1 rs2 : Reg) (c : Chip) : (Chip.bSliprx rd rs1 rs2 c).safe.edge = c.safe.edge := by
  unfold Chip.bSliprx
  refine bInstr_edge (fun c t => ?_) c
  dsimp only
  (repeat' split) <;> simp only [bPut_edge, modBay_safe, modCan_edge, keepsEdge_ok, keepsEdge_error]

theorem bSessopen_edge (rd rs1 rs2 : Reg) (c : Chip) : (Chip.bSessopen rd rs1 rs2 c).safe.edge = c.safe.edge := by
  unfold Chip.bSessopen
  refine bInstr_edge (fun c t => ?_) c
  dsimp only
  (repeat' split) <;> simp only [bPut_edge, sessOpen_edge, keepsEdge_ok, keepsEdge_error]

theorem bSessclose_edge (rd rs1 rs2 : Reg) (c : Chip) : (Chip.bSessclose rd rs1 rs2 c).safe.edge = c.safe.edge := by
  unfold Chip.bSessclose
  refine bInstr_edge (fun c t => ?_) c
  dsimp only
  (repeat' split) <;> simp only [bRet_edge, sessClose_edge, keepsEdge_ok]

theorem bHalt_edge (c : Chip) : (Chip.bHalt c).safe.edge = c.safe.edge := by
  simp only [Chip.bHalt, bayHalt_edge, ite_edge, ite_self]

theorem cmdBaySignal_edge (r : CmdReq) (c : Chip) : (cmdBaySignal r c).1.safe.edge = c.safe.edge := by
  simp only [cmdBaySignal, bayEvent_edge, bayField_edge, modBay_safe, ite_fst_edge, ite_self]

theorem cmdBayRestart_edge (r : CmdReq) (c : Chip) : (cmdBayRestart r c).1.safe.edge = c.safe.edge := by
  simp only [cmdBayRestart, bayStep2_edge, bayStop_edge, closeSessions_edge, long_edge, modBay_safe, setRdy_edge,
    implies_true, ite_fst_edge, ite_self]

theorem cmdBayTripClr_edge (_r : CmdReq) (c : Chip) : (cmdBayTripClr _r c).1.safe.edge = c.safe.edge := by
  simp only [cmdBayTripClr, bayUntrip_edge, ite_fst_edge, ite_self]

theorem legalTo_edge (g : Nat) (ws : List (Nat × W32)) (s k : Nat) (c : Chip) :
    (Chip.legalTo g ws s k c).safe.edge = c.safe.edge := by
  simp only [Chip.legalTo, modEng_safe, toEngine_edge, ite_edge, ite_self]

theorem choose_edge (p : PendCommit) (c : Chip) : (Chip.choose p c).safe.edge = c.safe.edge := by
  simp only [Chip.choose, legalTo_edge, modCfg_safe, sessionAsk_edge, each_edge, implies_true, ite_edge, ite_self]

theorem chooseAll_edge (old c : Chip) : (Chip.chooseAll old c).safe.edge = c.safe.edge := by
  simp only [Chip.chooseAll, choose_edge, modCfg_safe, each_edge, implies_true, ite_edge, ite_self]

theorem tapNewMode_edge (n : Nat) (c : Chip) : (Chip.tapNewMode n c).safe.edge = c.safe.edge := by
  simp only [Chip.tapNewMode, endRound_edge, faultDrop_edge, modTap_safe, each_edge, implies_true, ite_edge, ite_self]

theorem tapChange_edge (s : Nat) (old : Nat → W32) (c : Chip) : (Chip.tapChange s old c).safe.edge = c.safe.edge := by
  simp only [Chip.tapChange, modGroup_safe, tapNewMode_edge, each_edge, implies_true]

theorem progChange_edge (s : Nat) (old : Nat → W32) (c : Chip) :
    (Chip.progChange s old c).safe.edge = c.safe.edge := by
  simp only [Chip.progChange, modEng_safe, progSwitch_edge, raise_safe, each_edge, implies_true, ite_edge, ite_self]

theorem mpChange_edge (old : Nat → W32) (ws : List (Nat × W32)) (c : Chip) :
    (Chip.mpChange old ws c).safe.edge = c.safe.edge := by
  simp only [Chip.mpChange, modBill_safe, each_edge, implies_true, when_edge, ite_self]

theorem pureI_edge (e : Exec) (f : Bool → Thread → Except W8 Thread) (c : Chip) :
    (Chip.pureI e f c).safe.edge = c.safe.edge := by
  unfold Chip.pureI
  split <;> simp only [bPure_edge, qPure_edge]

theorem bothI_edge {q : Nat → Bool → Chip → Chip} {b : Chip → Chip} (hq : ∀ k rep c, (q k rep c).safe.edge =
    c.safe.edge)
    (hb : ∀ c, (b c).safe.edge = c.safe.edge) (e : Exec) (c : Chip) : (Chip.bothI e q b c).safe.edge = c.safe.edge
      := by
  cases e with
  | head k => exact hq ..
  | replay k => exact hq ..
  | bay => exact hb c

theorem onlyQ_edge {q : Nat → Bool → Chip → Chip} (h : ∀ k rep c, (q k rep c).safe.edge = c.safe.edge) (e : Exec)
    (c : Chip) : (Chip.onlyQ e q c).safe.edge = c.safe.edge :=
  bothI_edge h bIllegal_edge e c

theorem pureQ_edge (e : Exec) (f : Thread → Except W8 Thread) (c : Chip) :
    (Chip.pureQ e f c).safe.edge = c.safe.edge :=
  onlyQ_edge (fun k rep c => qPure_edge k rep f c) e c

theorem onlyS_edge {b : Chip → Chip} (h : ∀ c, (b c).safe.edge = c.safe.edge) (e : Exec) (c : Chip) :
    (Chip.onlyS e b c).safe.edge = c.safe.edge :=
  bothI_edge (fun k rep c => qPure_edge k rep _ c) h e c

end Sys2Proof.Machine
end

section
/-! Frames of the safe connections, the counts and events of zones, and settling leave the Edge logic as it is. -/

namespace Sys2Proof.Machine

open Sys2Proof Sys2Proof.Claims

theorem modConn_edge (i : Nat) (f : Conn → Conn) (c : Chip) : (Chip.modConn i f c).safe.edge = c.safe.edge := by
  simp only [Chip.modConn, modSafe_safe]

theorem zoneEvt_edge (edge : Bool) (code : W16) (k : Nat) (cause : BitVec 5) (c : Chip) :
    (Chip.zoneEvt edge code k cause c).safe.edge = c.safe.edge := by
  simp only [Chip.zoneEvt, raise_safe, ite_edge, ite_self]

theorem zoneCount_edge (edge trips : Bool) (k : Nat) (c : Chip) :
    (Chip.zoneCount edge trips k c).safe.edge = c.safe.edge := by
  unfold Chip.zoneCount
  (repeat' split) <;> simp only [modSafe_safe]

theorem swRecord_edge (before : W16) (c : Chip) : (Chip.swRecord before c).safe.edge = c.safe.edge := by
  simp only [Chip.swRecord, raise_safe, tamperInst_safe, ite_edge, ite_self]

theorem escSend_edge (i : Nat) (start : Bool) (seq : W16) (c : Chip) :
    (Chip.escSend i start seq c).safe.edge = c.safe.edge := by
  simp only [Chip.escSend, modConn_edge, ite_edge, ite_self]

theorem escNext_edge (i : Nat) (c : Chip) : (Chip.escNext i c).safe.edge = c.safe.edge := by
  simp only [Chip.escNext, escSend_edge, ite_edge, ite_self]

theorem escStart_edge (i : Nat) (c : Chip) : (Chip.escStart i c).safe.edge = c.safe.edge := by
  simp only [Chip.escStart, draw_edge, escSend_edge, modConn_edge, ite_edge, ite_self]

theorem escPermits_edge (old c : Chip) : (Chip.escPermits old c).safe.edge = c.safe.edge := by
  simp only [Chip.escPermits, escNext_edge, each_edge, implies_true]

theorem settleQuar_edge (c : Chip) : (Chip.settleQuar c).safe.edge = c.safe.edge := by
  simp only [Chip.settleQuar, tamperEnd_safe, tamperStart_safe, ite_edge, ite_self]

theorem settleStop_edge (old c : Chip) : (Chip.settleStop old c).safe.edge = c.safe.edge := by
  simp only [Chip.settleStop, bayStep2_edge, closeSessions_edge, ite_edge, ite_self]

theorem settleAux_edge (old c : Chip) : (Chip.settleAux old c).safe.edge = c.safe.edge := by
  simp only [Chip.settleAux, modBay_safe, when_edge, ite_self]

theorem settleSafe_edge (old c : Chip) : (Chip.settleSafe old c).safe.edge = c.safe.edge := by
  simp only [Chip.settleSafe, bayEvent_edge, bayField_edge, fqPut_safe, ite_edge, ite_self]

theorem settleField_edge (c : Chip) : (Chip.settleField c).safe.edge = c.safe.edge := by
  simp only [Chip.settleField, modLink_safe, when_edge, ite_self]

theorem setMode_edge (c : Chip) : (Chip.setMode c).safe.edge = c.safe.edge := by
  simp only [Chip.setMode, ite_edge, ite_self]

theorem settle_edge (old c : Chip) : (Chip.settle old c).safe.edge = c.safe.edge := by
  simp only [Chip.settle, bayWatch_edge, chooseAll_edge, escPermits_edge, holdsOver_edge, lampStart_edge,
    latchWins_edge, pulses_edge, setMode_edge, settleAux_edge, settleField_edge, settleQuar_edge, settleSafe_edge,
    settleStop_edge, tripCheck_edge]

end Sys2Proof.Machine
end

section
/-! Keys, sessions and the ledger leave the Edge logic as it is. -/

namespace Sys2Proof.Machine

open Sys2Proof Sys2Proof.Claims

theorem modSlot_edge (i : Nat) (f : Slot → Slot) (c : Chip) : (Chip.modSlot i f c).safe.edge = c.safe.edge := by
  simp only [Chip.modSlot, modKey_safe]

theorem setOwner_edge (g : Nat) (m : Option Nat) (c : Chip) : (Chip.setOwner g m c).safe.edge = c.safe.edge := by
  simp only [Chip.setOwner, modCfg_safe]

theorem discardShadow_edge (g : Nat) (c : Chip) : (Chip.discardShadow g c).safe.edge = c.safe.edge := by
  simp only [Chip.discardShadow, modCfg_safe, setOwner_edge]

theorem endSession_edge (m : Nat) (c : Chip) : (Chip.endSession m c).safe.edge = c.safe.edge := by
  simp only [Chip.endSession, discardShadow_edge, endClaim_edge, modLand_safe, modMaster_safe, each_edge,
    implies_true, ite_edge, ite_self]

theorem closeConn_edge (m : Nat) (c : Chip) : (Chip.closeConn m c).safe.edge = c.safe.edge := by
  simp only [Chip.closeConn, endSession_edge, modMaster_safe, ite_edge, ite_self]

theorem endAllSessions_edge (c : Chip) : (Chip.endAllSessions c).safe.edge = c.safe.edge := by
  simp only [Chip.endAllSessions, closeConn_edge, endSession_edge, each_edge, implies_true, ite_edge, ite_self]

theorem platePkt_edge (what block count : Nat) (ver : W16) (c : Chip) :
    (Chip.platePkt what block count ver c).safe.edge = c.safe.edge := by
  simp only [Chip.platePkt, fqPut_safe, modLink_safe, ite_edge, ite_self]

theorem plateSessEnd_edge (c : Chip) : (Chip.plateSessEnd c).safe.edge = c.safe.edge := by
  simp only [Chip.plateSessEnd, modLink_safe, platePkt_edge, ite_edge, ite_self]

theorem sessClosed_edge (unit : Nat) (c : Chip) : (Chip.sessClosed unit c).safe.edge = c.safe.edge := by
  simp only [Chip.sessClosed, raise_safe]

theorem closeDependants_edge (l : List Nat) (c : Chip) : (Chip.closeDependants l c).safe.edge = c.safe.edge := by
  simp only [Chip.closeDependants, closeConn_edge, endSession_edge, plateSessEnd_edge, send_edge, sessClosed_edge,
    v2gAbort_edge, each_edge, implies_true, ite_edge, ite_self]

theorem plateErase_edge (l : List Nat) (c : Chip) : (Chip.plateErase l c).safe.edge = c.safe.edge := by
  simp only [Chip.plateErase, modLink_safe]

theorem condemnFinish_edge (l : List Nat) (c : Chip) : (Chip.condemnFinish l c).safe.edge = c.safe.edge := by
  simp only [Chip.condemnFinish, closeDependants_edge, modSlot_edge, plateErase_edge, raise_safe, each_edge,
    implies_true]

theorem kwrAnswer_edge (e : Nat) (st : W8) (c : Chip) : (Chip.kwrAnswer e st c).safe.edge = c.safe.edge := by
  simp only [Chip.kwrAnswer, modKey_safe]

theorem linkUse_edge (i : Nat) (c : Chip) : (Chip.linkUse i c).2.2.safe.edge = c.safe.edge := by
  unfold Chip.linkUse
  dsimp only
  (repeat' split) <;> simp only [kwrAnswer_edge]

theorem plateDerive_edge (c : Chip) : (Chip.plateDerive c).safe.edge = c.safe.edge := by
  simp only [Chip.plateDerive, linkUse_edge, modKey_safe, modLink_safe]

theorem plateKeys_edge (c : Chip) : (Chip.plateKeys c).safe.edge = c.safe.edge := by
  simp only [Chip.plateKeys, modKey_safe, plateDerive_edge, ite_edge, ite_self]

theorem kwrNext_edge : ∀ (n : Nat) (c : Chip), (Chip.kwrNext n c).safe.edge = c.safe.edge := by
  intro n
  induction n with
  | zero => exact fun _ => rfl
  | succ n ih =>
    intro c
    unfold Chip.kwrNext
    split
    · rfl
    · dsimp only
      split
      · simp only [kwrAnswer_edge, modKey_safe]
      · rw [ih, kwrAnswer_edge, modKey_safe]

theorem kwrClear_edge (c : Chip) : (Chip.kwrClear c).safe.edge = c.safe.edge := by
  simp only [Chip.kwrClear, kwrNext_edge, modKey_safe, plateDerive_edge, when_edge, ite_self]

theorem graceEnd_edge (st : W8) (c : Chip) : (Chip.graceEnd st c).safe.edge = c.safe.edge := by
  unfold Chip.graceEnd
  (repeat' split) <;> simp only [condemnFinish_edge, kwrAnswer_edge, kwrClear_edge]

theorem condemn_edge (c : Chip) : (Chip.condemn c).safe.edge = c.safe.edge := by
  simp only [Chip.condemn, condemnFinish_edge, modKey_safe, modSlot_edge, each_edge, implies_true, ite_edge, ite_self]

theorem vendorEnd_edge (c : Chip) : (Chip.vendorEnd c).safe.edge = c.safe.edge := by
  simp only [Chip.vendorEnd, endSession_edge, each_edge, implies_true, ite_edge, ite_self]

theorem ledgerRoom_edge (n : Nat) (c : Chip) : (Chip.ledgerRoom n c).safe.edge = c.safe.edge := by
  simp only [Chip.ledgerRoom, modLedger_safe, raise_safe, tamperInst_safe, ite_edge, ite_self]

theorem ledgerFull_edge (c : Chip) : (Chip.ledgerFull c).safe.edge = c.safe.edge := by
  simp only [Chip.ledgerFull, modLedger_safe, raise_safe, ite_edge, ite_self]

theorem ledgerPut_edge (c : Chip) : (Chip.ledgerPut c).safe.edge = c.safe.edge := by
  unfold Chip.ledgerPut
  split <;> simp only [ledgerFull_edge, ledgerRoom_edge, modLedger_safe, raise_safe, ite_edge, ite_self]

theorem ledgerPutN_edge : ∀ (n : Nat) (c : Chip), (Chip.ledgerPutN n c).safe.edge = c.safe.edge := by
  intro n
  induction n with
  | zero => exact fun _ => rfl
  | succ n ih => exact fun c => (ih c.ledgerPut).trans (ledgerPut_edge c)

theorem ledgerFlush_edge (c : Chip) : (Chip.ledgerFlush c).safe.edge = c.safe.edge := by
  simp only [Chip.ledgerFlush, ledgerPutN_edge]

theorem countersPersist_edge (c : Chip) : (Chip.countersPersist c).safe.edge = c.safe.edge := by
  simp only [Chip.countersPersist, modEvt_safe, ite_edge, ite_self]

theorem enterHeld_edge (c : Chip) : (Chip.enterHeld c).safe.edge = c.safe.edge := by
  simp only [Chip.enterHeld, deliver_edge, fqPut_safe, modEvt_safe, modLink_safe, raiseHeld_edge, each_edge,
    implies_true, when_edge, ite_edge, ite_self]

theorem aoChange_edge (ty : Nat) (start : Bool) (c : Chip) : (Chip.aoChange ty start c).safe.edge = c.safe.edge := by
  simp only [Chip.aoChange, modTamper_safe, tamperEnd_safe, tamperStart_safe, ite_edge, ite_self]

theorem aoSwitch_edge (ty : Nat) (old new : Bool) (c : Chip) :
    (Chip.aoSwitch ty old new c).safe.edge = c.safe.edge := by
  simp only [Chip.aoSwitch, aoChange_edge, ite_edge, ite_self]

theorem aoSample_edge (cover sealOpen lsw mesh : Bool) (c : Chip) :
    (Chip.aoSample cover sealOpen lsw mesh c).safe.edge = c.safe.edge := by
  simp only [Chip.aoSample, aoSwitch_edge, modTamper_safe]

theorem magSampled_edge (v : Nat) (c : Chip) : (Chip.magSampled v c).safe.edge = c.safe.edge := by
  simp only [Chip.magSampled, aoChange_edge, modTamper_safe, ite_edge, ite_self]

theorem tempCheck_edge (backplate : Int) (c : Chip) : (Chip.tempCheck backplate c).safe.edge = c.safe.edge := by
  simp only [Chip.tempCheck, modSys_safe, tamperEnd_safe, tamperStart_safe, ite_edge, ite_self]

theorem cmdEvtRead_edge (r : CmdReq) (c : Chip) : (cmdEvtRead r c).1.safe.edge = c.safe.edge := by
  simp only [cmdEvtRead, complete_edge, fqPut_safe, long_edge, each_edge, implies_true, ite_fst_edge, ite_self]

theorem cmdEvtCntClr_edge (r : CmdReq) (c : Chip) : (cmdEvtCntClr r c).1.safe.edge = c.safe.edge := by
  simp only [cmdEvtCntClr, modEvt_safe, ite_fst_edge, ite_self]

theorem cmdLedgerRead_edge (r : CmdReq) (c : Chip) : (cmdLedgerRead r c).1.safe.edge = c.safe.edge := by
  simp only [cmdLedgerRead, complete_edge, fqPut_safe, long_edge, each_edge, implies_true, ite_fst_edge, ite_self]

theorem cmdLedgerAck_edge (r : CmdReq) (c : Chip) : (cmdLedgerAck r c).1.safe.edge = c.safe.edge := by
  simp only [cmdLedgerAck, modLedger_safe, ite_fst_edge, ite_self]

theorem cmdFerryTest_edge (r : CmdReq) (c : Chip) : (cmdFerryTest r c).1.safe.edge = c.safe.edge := by
  simp only [cmdFerryTest, long_edge, modFq_safe, implies_true, ite_fst_edge, ite_self]

theorem ferryTestEnd_edge (q : Nat) (c : Chip) : (Chip.ferryTestEnd q c).safe.edge = c.safe.edge := by
  simp only [Chip.ferryTestEnd, modFq_safe]

theorem holdRelease_edge (q : Nat) (c : Chip) : (Chip.holdRelease q c).safe.edge = c.safe.edge := by
  simp only [Chip.holdRelease, deliver_edge, hint_safe, modFq_safe, when_edge, ite_edge, ite_self]

theorem stallTime_edge (q : Nat) (ten : Bool) (c : Chip) : (Chip.stallTime q ten c).safe.edge = c.safe.edge := by
  simp only [Chip.stallTime, endClaim_edge, modFq_safe, raise_safe, ite_edge, ite_self]

theorem ptrMismatch_edge (q : Nat) (c : Chip) : (Chip.ptrMismatch q c).safe.edge = c.safe.edge := by
  simp only [Chip.ptrMismatch, holdRelease_edge, modFq_safe, raise_safe, ite_edge, ite_self]

theorem nextPage_edge (c : Chip) : (Chip.nextPage c).safe.edge = c.safe.edge := by
  simp only [Chip.nextPage, modDisp_safe]

theorem btnShort_edge (c : Chip) : (Chip.btnShort c).safe.edge = c.safe.edge := by
  simp only [Chip.btnShort, modDisp_safe, nextPage_edge, ite_edge, ite_self]

theorem btnLong_edge (c : Chip) : (Chip.btnLong c).safe.edge = c.safe.edge := by
  simp only [Chip.btnLong, modDisp_safe, ite_edge, ite_self]

theorem pageTimer_edge (c : Chip) : (Chip.pageTimer c).safe.edge = c.safe.edge := by
  simp only [Chip.pageTimer, modDisp_safe, nextPage_edge, ite_edge, ite_self]

theorem cmdDispTest_edge (_r : CmdReq) (c : Chip) : (cmdDispTest _r c).1.safe.edge = c.safe.edge := by
  simp only [cmdDispTest, modDisp_safe]

theorem modAcct_edge (a : Nat) (f : Account → Account) (c : Chip) : (Chip.modAcct a f c).safe.edge = c.safe.edge := by
  simp only [Chip.modAcct, modKey_safe]

theorem authFail_edge (a : Nat) (c : Chip) : (Chip.authFail a c).safe.edge = c.safe.edge := by
  simp only [Chip.authFail, modAcct_edge, raise_safe, tamperInst_safe, ite_edge, ite_self]

theorem openSession_edge (m a : Nat) (role : BitVec 3) (c : Chip) :
    (Chip.openSession m a role c).safe.edge = c.safe.edge := by
  simp only [Chip.openSession, endSession_edge, modAcct_edge, modMaster_safe]

theorem cmdKeyChallenge_edge (r : CmdReq) (c : Chip) : (cmdKeyChallenge r c).1.safe.edge = c.safe.edge := by
  simp only [cmdKeyChallenge, draw128_edge, modMaster_safe]

theorem keyWork_edge (r : CmdReq) (code i : Nat) (c : Chip) :
    (Chip.keyWork r code i c).1.safe.edge = c.safe.edge := by
  simp only [Chip.keyWork, long_edge, modKey_safe, implies_true]

theorem hmacLogin_edge (m a : Nat) (c : Chip) : (Chip.hmacLogin m a c).1.safe.edge = c.safe.edge := by
  simp only [Chip.hmacLogin, authFail_edge, modMaster_safe, openSession_edge, ite_fst_edge, ite_self]

theorem cmdKeyLogin_edge (r : CmdReq) (c : Chip) : (cmdKeyLogin r c).1.safe.edge = c.safe.edge := by
  unfold cmdKeyLogin
  split <;> simp only [authFail_edge, hmacLogin_edge, keyWork_edge, modMaster_safe, ite_fst_edge, ite_self]

theorem cmdKeyLogout_edge (r : CmdReq) (c : Chip) : (cmdKeyLogout r c).1.safe.edge = c.safe.edge := by
  simp only [cmdKeyLogout, endSession_edge]

theorem secretChanged_edge (m i : Nat) (c : Chip) : (Chip.secretChanged m i c).safe.edge = c.safe.edge := by
  simp only [Chip.secretChanged, endSession_edge, each_edge, implies_true, ite_edge, ite_self]

theorem commitHalf_edge (i : Nat) (h : Half) (c : Chip) : (Chip.commitHalf i h c).safe.edge = c.safe.edge := by
  simp only [Chip.commitHalf, modSlot_edge]

theorem emptySlot_edge (i : Nat) (c : Chip) : (Chip.emptySlot i c).safe.edge = c.safe.edge := by
  simp only [Chip.emptySlot, modSlot_edge]

theorem keyChanged_edge (i : Nat) (c : Chip) : (Chip.keyChanged i c).safe.edge = c.safe.edge := by
  simp only [Chip.keyChanged, condemn_edge, modSlot_edge, raise_safe, tamperInst_safe]

theorem keyLong_edge {f : Chip → Chip} (h : (∀ d, (f d).safe.edge = d.safe.edge) = True) (r : CmdReq) (code i : Nat)
    (st : W8)
    (result : W32) (c : Chip) : (Chip.keyLong r code i st result c f).1.safe.edge = c.safe.edge :=
  long_edge (eq_true (fun t d => by
    rw [modKey_safe]
    split
    · exact of_eq_true h d
    · rfl)) _ _ _ _

theorem passwdRun_edge (m a : Nat) (pw : List W8) (c : Chip) :
    (Chip.passwdRun m a pw c).1.safe.edge = c.safe.edge := by
  simp only [Chip.passwdRun, commitHalf_edge, condemn_edge, draw128_edge, secretChanged_edge, ite_fst_edge, ite_self]

theorem cmdKeyPasswd_edge (r : CmdReq) (c : Chip) : (cmdKeyPasswd r c).1.safe.edge = c.safe.edge := by
  unfold cmdKeyPasswd
  split <;> simp only [keyWork_edge, ite_fst_edge, ite_self]

theorem cmdKeyAcctSet_edge (r : CmdReq) (c : Chip) : (cmdKeyAcctSet r c).1.safe.edge = c.safe.edge := by
  simp only [cmdKeyAcctSet, endSession_edge, modAcct_edge, each_edge, implies_true, ite_edge, ite_fst_edge, ite_self]

theorem msgApply_edge (m : Nat) (b mat : List W8) (c : Chip) : (Chip.msgApply m b mat c).safe.edge = c.safe.edge := by
  simp only [Chip.msgApply, commitHalf_edge, emptySlot_edge, keyChanged_edge, modKey_safe, modSlot_edge,
    secretChanged_edge, ite_edge, ite_self]

theorem cmdKeyUpdate_edge (r : CmdReq) (c : Chip) : (cmdKeyUpdate r c).1.safe.edge = c.safe.edge := by
  unfold cmdKeyUpdate
  dsimp only
  split
  · exact keyLong_edge (eq_true (fun _ => rfl)) ..
  · exact keyLong_edge (eq_true (fun d => by rw [msgApply_edge, modUpd_safe])) ..

theorem replaceRun_edge (m i n : Nat) (b : List W8) (c : Chip) :
    (Chip.replaceRun m i n b c).1.safe.edge = c.safe.edge := by
  unfold Chip.replaceRun
  dsimp only
  (repeat' split) <;> simp only [commitHalf_edge, keyChanged_edge, secretChanged_edge]

theorem cmdKeyReplace_edge (r : CmdReq) (c : Chip) : (cmdKeyReplace r c).1.safe.edge = c.safe.edge := by
  simp only [cmdKeyReplace, keyWork_edge, ite_fst_edge, ite_self]

theorem cmdKeyInvalidate_edge (r : CmdReq) (c : Chip) : (cmdKeyInvalidate r c).1.safe.edge = c.safe.edge := by
  simp only [cmdKeyInvalidate, condemn_edge, emptySlot_edge, secretChanged_edge, ite_fst_edge, ite_self]

theorem deriveRun_edge (i p n typ dest : Nat) (b : List W8) (c : Chip) :
    (Chip.deriveRun i p n typ dest b c).1.safe.edge = c.safe.edge := by
  simp only [Chip.deriveRun, commitHalf_edge, condemn_edge, ite_fst_edge, ite_self]

theorem cmdKeyDerive_edge (r : CmdReq) (c : Chip) : (cmdKeyDerive r c).1.safe.edge = c.safe.edge := by
  simp only [cmdKeyDerive, keyWork_edge, ite_fst_edge, ite_self]

theorem destroySlots_edge (l : List Nat) (c : Chip) : (Chip.destroySlots l c).safe.edge = c.safe.edge := by
  simp only [Chip.destroySlots, closeDependants_edge, condemn_edge, emptySlot_edge, kwrClear_edge, modKey_safe,
    each_edge, implies_true]

theorem newLedgerKey_edge (gen : W32) (c : Chip) : (Chip.newLedgerKey gen c).safe.edge = c.safe.edge := by
  simp only [Chip.newLedgerKey, commitHalf_edge, draw128_edge, modLedger_safe]

theorem storageCheck_edge (c : Chip) : (Chip.storageCheck c).safe.edge = c.safe.edge := by
  simp only [Chip.storageCheck, commitHalf_edge]

theorem newKek_edge (c : Chip) : (Chip.newKek c).safe.edge = c.safe.edge := by
  simp only [Chip.newKek, draw_edge, modKey_safe, storageCheck_edge]

theorem lcRecords_edge (old new : BitVec 3) (c : Chip) : (Chip.lcRecords old new c).safe.edge = c.safe.edge := by
  simp only [Chip.lcRecords, stage_safe, tamperInst_safe]

theorem stopMetrology_edge (c : Chip) : (Chip.stopMetrology c).safe.edge = c.safe.edge := by
  simp only [Chip.stopMetrology, closeSessions_edge, metrologyEnd_edge, modEng_safe, modSys_safe, sessionEnd_edge,
    stopEngine_edge, each_edge, implies_true]

theorem lcKeyRecord_edge (old new : BitVec 3) (gen : W32) (c : Chip) :
    (Chip.lcKeyRecord old new gen c).safe.edge = c.safe.edge := by
  simp only [Chip.lcKeyRecord, stage_safe]

theorem lcChange_edge (t : BitVec 3) (c : Chip) : (Chip.lcChange t c).safe.edge = c.safe.edge := by
  simp only [Chip.lcChange, destroySlots_edge, endAllSessions_edge, lcKeyRecord_edge, lcRecords_edge,
    ledgerFlush_edge, modKey_safe, modLedger_safe, modLink_safe, modSys_safe, newKek_edge, newLedgerKey_edge,
    plateKeys_edge, plateSessEnd_edge, raise_safe, signBehind_edge, stage_safe, stopMetrology_edge, storageCheck_edge,
    tamperInst_safe, vendorEnd_edge, when_edge, ite_edge, ite_self]

theorem cmdKeyLcSet_edge (r : CmdReq) (c : Chip) : (cmdKeyLcSet r c).1.safe.edge = c.safe.edge := by
  unfold cmdKeyLcSet
  dsimp only
  (repeat' split) <;> simp only [keyLong_edge, lcChange_edge, implies_true]

theorem zeroise2_edge (c : Chip) : (Chip.zeroise2 c).safe.edge = c.safe.edge := by
  simp only [Chip.zeroise2, emptySlot_edge, endAllSessions_edge, modKey_safe, modSys_safe, plateKeys_edge,
    plateSessEnd_edge, raise_safe, setRdy_edge, v2gAbort_edge, each_edge, implies_true, ite_edge, ite_self]

theorem classA_edge (ty : Nat) (c : Chip) : (Chip.classA ty c).safe.edge = c.safe.edge := by
  simp only [Chip.classA, modKey_safe, modSys_safe, modTamper_safe, settleQuar_edge, tamperInst_safe, zeroise2_edge,
    when_edge, ite_edge, ite_self]

theorem zeroRekey_edge (c : Chip) : (Chip.zeroRekey c).safe.edge = c.safe.edge := by
  simp only [Chip.zeroRekey, lcKeyRecord_edge, lcRecords_edge, modKey_safe, newKek_edge, newLedgerKey_edge,
    raise_safe, setRdy_edge, ite_edge, ite_self]

theorem secStart_edge (c : Chip) : (Chip.secStart c).safe.edge = c.safe.edge := by
  unfold Chip.secStart
  generalize hd : each slots64 _ c = d
  have hd : d.safe.edge = c.safe.edge := by simp only [← hd, modSlot_edge, each_edge, implies_true]
  dsimp only
  rw [when_edge, zeroise2_edge, ite_self, condemn_edge, modKey_safe, hd]

theorem secRecords_edge (c : Chip) : (Chip.secRecords c).safe.edge = c.safe.edge := by
  simp only [Chip.secRecords, keyChanged_edge, each_edge, implies_true]

theorem jobRun_edge (x : Ticket) (j : KeyJob) (c : Chip) : (Chip.jobRun x j c).1.safe.edge = c.safe.edge := by
  unfold Chip.jobRun
  split <;> simp only [deriveRun_edge, passwdRun_edge, replaceRun_edge, ite_fst_edge, ite_self]

theorem keyDone_edge (x : Ticket) (c : Chip) : (Chip.keyDone x c).safe.edge = c.safe.edge := by
  unfold Chip.keyDone
  split <;> simp only [authFail_edge, complete_edge, jobRun_edge, modKey_safe, openSession_edge, ite_edge, ite_self]

end Sys2Proof.Machine
end

section
/-! The plate tag, the reader and the pair leave the Edge logic as it is. -/

namespace Sys2Proof.Machine

open Sys2Proof Sys2Proof.Claims

theorem linkRecord_edge (kind action : Nat) (id : W64) (auth : Bool) (medium : W8) (c : Chip) :
    (Chip.linkRecord kind action id auth medium c).safe.edge = c.safe.edge := by
  simp only [Chip.linkRecord, bayEvent_edge, bayField_edge, modBay_safe]

theorem postBadge_edge (action : Nat) (b : Badge) (c : Chip) :
    (Chip.postBadge action b c).safe.edge = c.safe.edge := by
  simp only [Chip.postBadge, fqPut_safe, linkRecord_edge]

theorem postTag_edge (action i : Nat) (t : TagRec) (c : Chip) :
    (Chip.postTag action i t c).safe.edge = c.safe.edge := by
  simp only [Chip.postTag, fqPut_safe, linkRecord_edge, ite_edge, ite_self]

theorem tagAuthFail_edge (unit : Nat) (c : Chip) : (Chip.tagAuthFail unit c).safe.edge = c.safe.edge := by
  simp only [Chip.tagAuthFail, modLink_safe, raise_safe]

theorem airSend_edge (f : List W8) (c : Chip) : (Chip.airSend f c).safe.edge = c.safe.edge := by
  simp only [Chip.airSend, modLink_safe]

theorem linkAuth_edge (slot : Nat) (id : List W8) (k : Nat) (x : AuthReply) (c : Chip) :
    (Chip.linkAuth slot id k x c).2.2.safe.edge = c.safe.edge := by
  have h := linkUse_edge slot c
  unfold Chip.linkAuth
  generalize c.linkUse slot = u at h
  obtain ⟨m, st, d⟩ := u
  cases m with
  | none => exact h
  | some m => simpa only [airSend_edge, draw128_edge] using h

theorem badgeAuth_edge (b : BadgeSeen) (c : Chip) : (Chip.badgeAuth b c).2.2.safe.edge = c.safe.edge := by
  have h := linkAuth_edge 3 (leBytes 8 b.uid.toNat) 0 b.auth c
  unfold Chip.badgeAuth
  generalize c.linkAuth 3 (leBytes 8 b.uid.toNat) 0 b.auth = u at h
  obtain ⟨st, s, d⟩ := u
  dsimp only
  split
  · exact h
  · split
    · exact (airSend_edge ..).trans h
    · exact (airSend_edge ..).trans h

theorem badgeSeen_edge (b : BadgeSeen) (c : Chip) : (Chip.badgeSeen b c).safe.edge = c.safe.edge := by
  simp only [Chip.badgeSeen, badgeAuth_edge, modLink_safe, postBadge_edge, tagAuthFail_edge, ite_edge, ite_self]

theorem badgeRound_edge (l : List BadgeSeen) (c : Chip) : (Chip.badgeRound l c).safe.edge = c.safe.edge := by
  simp only [Chip.badgeRound, badgeSeen_edge, modLink_safe, each_edge, implies_true]

theorem tagHalt_edge (c : Chip) : (Chip.tagHalt c).safe.edge = c.safe.edge := by
  simp only [Chip.tagHalt, airSend_edge]

theorem tagSeen_edge (t : TagSeen) (c : Chip) : (Chip.tagSeen t c).safe.edge = c.safe.edge := by
  unfold Chip.tagSeen
  dsimp only
  (repeat' split) <;> simp only [linkAuth_edge, modLink_safe, postTag_edge, raise_safe, tagAuthFail_edge,
    tagHalt_edge, when_edge, ite_self]

theorem xferPoll_edge (replies : List XferReply) (x : Xfer) (c : Chip) :
    (Chip.xferPoll replies x c).safe.edge = c.safe.edge := by
  unfold Chip.xferPoll
  dsimp only
  (repeat' split) <;> simp only [airSend_edge, complete_edge, fqPut_safe, linkAuth_edge, modLink_safe,
    tagAuthFail_edge]

theorem crossRounds_edge (bad : List Nat) : ∀ (n : Nat) (tags : List TagSeen) (heard : Nat) (c : Chip),
    (Chip.crossRounds bad n tags heard c).safe.edge = c.safe.edge := by
  intro n
  induction n with
  | zero => exact fun _ _ _ => rfl
  | succ n ih =>
    intro tags heard c
    unfold Chip.crossRounds
    split
    · rfl
    · dsimp only
      split
      · rfl
      · exact (ih ..).trans (tagSeen_edge ..)

theorem crossRound_edge (r : PollResult) (c : Chip) : (Chip.crossRound r c).safe.edge = c.safe.edge := by
  simp only [Chip.crossRound, crossRounds_edge, xferPoll_edge, each_edge, implies_true, when_edge, ite_self]

theorem fieldOn_edge (antennaOk : Bool) (c : Chip) : (Chip.fieldOn antennaOk c).safe.edge = c.safe.edge := by
  simp only [Chip.fieldOn, modLink_safe, raise_safe, ite_edge, ite_self]

theorem linkPoll_edge (r : PollResult) (c : Chip) : (Chip.linkPoll r c).safe.edge = c.safe.edge := by
  simp only [Chip.linkPoll, badgeRound_edge, crossRound_edge, fieldOn_edge, modLink_safe, when_edge, ite_edge,
    ite_self]

theorem tagsLeft_edge (c : Chip) : (Chip.tagsLeft c).safe.edge = c.safe.edge := by
  simp only [Chip.tagsLeft, modLink_safe, postBadge_edge, postTag_edge, each_edge, implies_true]

theorem sliceMark_edge (c : Chip) : (Chip.sliceMark c).safe.edge = c.safe.edge := by
  simp only [Chip.sliceMark, draw_edge, fieldOn_edge, modLink_safe, modPair_safe, ite_edge, ite_self]

theorem linkRestart_edge (c : Chip) : (Chip.linkRestart c).safe.edge = c.safe.edge := by
  simp only [Chip.linkRestart, complete_edge, modLink_safe, each_edge, implies_true]

theorem modPlate_edge (f : Plate → Plate) (c : Chip) : (Chip.modPlate f c).safe.edge = c.safe.edge := by
  simp only [Chip.modPlate, modLink_safe]

theorem plateSend_edge (l : List W8) (c : Chip) : (Chip.plateSend l c).safe.edge = c.safe.edge := by
  simp only [Chip.plateSend, modPlate_edge]

theorem plateId_edge (c : Chip) : (Chip.plateId c).safe.edge = c.safe.edge := by
  simp only [Chip.plateId, plateSend_edge]

theorem plateSt_edge (st : W8) (l : List W8) (c : Chip) : (Chip.plateSt st l c).safe.edge = c.safe.edge := by
  simp only [Chip.plateSt, plateSend_edge]

theorem plateDo_edge (x : PlateAcc) (c : Chip) : (Chip.plateDo x c).1.safe.edge = c.safe.edge := by
  simp only [Chip.plateDo, modMaster_safe, modPlate_edge, ite_fst_edge, ite_self]

theorem holdEnd_edge (c : Chip) : (Chip.holdEnd c).safe.edge = c.safe.edge := by
  simp only [Chip.holdEnd, complete_edge, modPlate_edge, plateDo_edge, each_edge, implies_true]

theorem plateLeave_edge (c : Chip) : (Chip.plateLeave c).safe.edge = c.safe.edge := by
  simp only [Chip.plateLeave, plateSessEnd_edge]

theorem plateReq_edge (c : Chip) : (Chip.plateReq c).safe.edge = c.safe.edge := by
  simp only [Chip.plateReq, modPlate_edge, plateId_edge, plateLeave_edge, when_edge, ite_self]

theorem plateSel_edge (b : List W8) (c : Chip) : (Chip.plateSel b c).safe.edge = c.safe.edge := by
  simp only [Chip.plateSel, modPlate_edge, plateId_edge, plateSt_edge, ite_edge, ite_self]

theorem plateHalt_edge (c : Chip) : (Chip.plateHalt c).safe.edge = c.safe.edge := by
  simp only [Chip.plateHalt, modPlate_edge, plateLeave_edge, plateSt_edge]

theorem plateQuiet_edge (b : List W8) (c : Chip) : (Chip.plateQuiet b c).safe.edge = c.safe.edge := by
  simp only [Chip.plateQuiet, modPlate_edge, plateSt_edge, ite_edge, ite_self]

theorem plateHold_edge (b : Nat) (c : Chip) : (Chip.plateHold b c).safe.edge = c.safe.edge := by
  simp only [Chip.plateHold, modPlate_edge]

theorem plateRead_edge (b : List W8) (c : Chip) : (Chip.plateRead b c).safe.edge = c.safe.edge := by
  simp only [Chip.plateRead, plateHold_edge, plateSt_edge, ite_edge, ite_self]

theorem plateWrite_edge (b : List W8) (c : Chip) : (Chip.plateWrite b c).safe.edge = c.safe.edge := by
  simp only [Chip.plateWrite, plateSt_edge, ite_edge, ite_self]

theorem plateAuth1_edge (b : List W8) (c : Chip) : (Chip.plateAuth1 b c).safe.edge = c.safe.edge := by
  simp only [Chip.plateAuth1, draw128_edge, modPlate_edge, plateLeave_edge, plateSt_edge, ite_edge, ite_self]

theorem plateAuth2_edge (b : List W8) (was : BitVec 2) (c : Chip) :
    (Chip.plateAuth2 b was c).safe.edge = c.safe.edge := by
  unfold Chip.plateAuth2
  dsimp only
  (repeat' split) <;> simp only [modPlate_edge, plateSt_edge]

theorem plateSecure_edge (aad payload : List W8) (c : Chip) :
    (Chip.plateSecure aad payload c).safe.edge = c.safe.edge := by
  simp only [Chip.plateSecure, modPlate_edge, plateSt_edge]

theorem plateAuth3_edge (b : List W8) (was : BitVec 2) (c : Chip) :
    (Chip.plateAuth3 b was c).safe.edge = c.safe.edge := by
  unfold Chip.plateAuth3
  dsimp only
  (repeat' split) <;> simp only [modPlate_edge, platePkt_edge, plateSecure_edge, plateSt_edge]

theorem plateSread_edge (b : List W8) (was : BitVec 2) (c : Chip) :
    (Chip.plateSread b was c).safe.edge = c.safe.edge := by
  simp only [Chip.plateSread, plateHold_edge, plateSecure_edge, plateSt_edge, ite_edge, ite_self]

theorem plateSwrite_edge (b : List W8) (was : BitVec 2) (c : Chip) :
    (Chip.plateSwrite b was c).safe.edge = c.safe.edge := by
  unfold Chip.plateSwrite
  dsimp only
  (repeat' split) <;> simp only [modPlate_edge, plateHold_edge, plateLeave_edge, platePkt_edge, plateSt_edge,
    raise_safe, when_edge, ite_self]

theorem plateGap_edge (ms : Nat) (c : Chip) : (Chip.plateGap ms c).safe.edge = c.safe.edge := by
  simp only [Chip.plateGap, modPlate_edge, plateLeave_edge, ite_edge, ite_self]

theorem plateQuietEnd_edge (c : Chip) : (Chip.plateQuietEnd c).safe.edge = c.safe.edge := by
  simp only [Chip.plateQuietEnd, modPlate_edge, ite_edge, ite_self]

theorem mirrorUpdate_edge (c : Chip) : (Chip.mirrorUpdate c).safe.edge = c.safe.edge := by
  simp only [Chip.mirrorUpdate, modPlate_edge]

theorem plateAccess_edge (code : Nat) (x : PlateAcc) (c : Chip) :
    (Chip.plateAccess code x c).1.safe.edge = c.safe.edge := by
  simp only [Chip.plateAccess, issue_edge, modPlate_edge, plateDo_edge, ite_fst_edge, ite_self]

theorem cmdLinkPtRead_edge (r : CmdReq) (c : Chip) : (cmdLinkPtRead r c).1.safe.edge = c.safe.edge := by
  simp only [cmdLinkPtRead, plateAccess_edge, ite_fst_edge, ite_self]

theorem cmdLinkPtWrite_edge (r : CmdReq) (c : Chip) : (cmdLinkPtWrite r c).1.safe.edge = c.safe.edge := by
  simp only [cmdLinkPtWrite, plateAccess_edge, ite_fst_edge, ite_self]

theorem cmdLinkXfer_edge (r : CmdReq) (c : Chip) : (cmdLinkXfer r c).1.safe.edge = c.safe.edge := by
  simp only [cmdLinkXfer, long_edge, modLink_safe, implies_true, ite_fst_edge, ite_self]

theorem cmdLinkCntClr_edge (_r : CmdReq) (c : Chip) : (cmdLinkCntClr _r c).1.safe.edge = c.safe.edge := by
  simp only [cmdLinkCntClr, modLink_safe]

theorem pairReset_edge (c : Chip) : (Chip.pairReset c).safe.edge = c.safe.edge := by
  simp only [Chip.pairReset, modPair_safe, setRdy_edge, tamperEnd_safe, when_edge, ite_self]

theorem pairPlanned_edge (c : Chip) : (Chip.pairPlanned c).safe.edge = c.safe.edge := by
  simp only [Chip.pairPlanned, modPair_safe, tamperEnd_safe, when_edge, ite_self]

theorem pairTake_edge (c : Chip) : (Chip.pairTake c).safe.edge = c.safe.edge := by
  simp only [Chip.pairTake, bayEvent_edge, modPair_safe, raise_safe]

theorem pairStandby_edge (c : Chip) : (Chip.pairStandby c).safe.edge = c.safe.edge := by
  simp only [Chip.pairStandby, modBay_safe, modPair_safe]

theorem pairDual_edge (h : Heartbeat) (c : Chip) : (Chip.pairDual h c).safe.edge = c.safe.edge := by
  simp only [Chip.pairDual, modPair_safe, pairStandby_edge, raise_safe, ite_edge, ite_self]

theorem pairForm_edge (h : Heartbeat) (c : Chip) : (Chip.pairForm h c).safe.edge = c.safe.edge := by
  simp only [Chip.pairForm, modPair_safe, pairDual_edge, pairStandby_edge, raise_safe, setRdy_edge, ite_edge,
    ite_self]

theorem pairCompare_edge (x : PairCheck) (c : Chip) : (Chip.pairCompare x c).safe.edge = c.safe.edge := by
  unfold Chip.pairCompare
  (repeat' split) <;> simp only [modPair_safe, raise_safe, tamperEnd_safe, tamperStart_safe, ite_edge, ite_self]

end Sys2Proof.Machine
end

section
/-! Resets, firmware, time and power leave the Edge logic as it is. -/

namespace Sys2Proof.Machine

open Sys2Proof Sys2Proof.Claims

theorem modFw_edge (b : Bool) (f : FwSlot → FwSlot) (c : Chip) : (Chip.modFw b f c).safe.edge = c.safe.edge := by
  simp only [Chip.modFw, modUpd_safe]

theorem writeGen_edge (words : Tbl W32) (c : Chip) : (Chip.writeGen words c).safe.edge = c.safe.edge := by
  simp only [Chip.writeGen, modCfg_safe, ite_edge, ite_self]

theorem loadWords_edge (words : Tbl W32) (c : Chip) : (Chip.loadWords words c).safe.edge = c.safe.edge := by
  simp only [Chip.loadWords, modCfg_safe, progChange_edge, tapChange_edge, when_edge, ite_self]

theorem loadSettings_edge (c : Chip) : (Chip.loadSettings c).safe.edge = c.safe.edge := by
  unfold Chip.loadSettings
  dsimp only
  (repeat' split) <;> simp only [loadWords_edge, modCfg_safe, raise_safe, writeGen_edge]

theorem netFollow_edge (c : Chip) : (Chip.netFollow c).safe.edge = c.safe.edge := by
  simp only [Chip.netFollow, setRdy_edge]

theorem setDead_edge (mask : Nat) (dead : Bool) (c : Chip) : (Chip.setDead mask dead c).safe.edge = c.safe.edge := by
  simp only [Chip.setDead, modSys_safe]

theorem countReset_edge (cause : Nat) (c : Chip) : (Chip.countReset cause c).safe.edge = c.safe.edge := by
  simp only [Chip.countReset, modSys_safe]

theorem loseTickets_edge (c : Chip) : (Chip.loseTickets c).safe.edge = c.safe.edge := by
  simp only [Chip.loseTickets, modTix_safe]

theorem clearBank_edge (m : Nat) (c : Chip) : (Chip.clearBank m c).safe.edge = c.safe.edge := by
  simp only [Chip.clearBank, modMaster_safe]

theorem withdraw_edge (after : Nat) (c : Chip) : (Chip.withdraw after c).safe.edge = c.safe.edge := by
  simp only [Chip.withdraw, modEng_safe, modSave_safe, modTariff_safe, each_edge, implies_true, when_edge, ite_self]

theorem replace_edge (c : Chip) : (Chip.replace c).safe.edge = c.safe.edge := by
  simp only [Chip.replace, handoff_edge, withdraw_edge, ite_edge, ite_self]

theorem slewEnd_edge (c : Chip) : (Chip.slewEnd c).safe.edge = c.safe.edge := by
  simp only [Chip.slewEnd, modTime_safe, replace_edge, ite_edge, ite_self]

theorem svFields_edge (c : Chip) : (Chip.svFields c).safe.edge = c.safe.edge := by
  simp only [Chip.svFields, modSys_safe, modTime_safe, modUpd_safe, slewEnd_edge]

theorem dropStagings_edge (c : Chip) : (Chip.dropStagings c).safe.edge = c.safe.edge := by
  simp only [Chip.dropStagings, complete_edge, modUpd_safe, each_edge, implies_true]

theorem dropQuality_edge (c : Chip) : (Chip.dropQuality c).safe.edge = c.safe.edge := by
  simp only [Chip.dropQuality, modBill_safe]

theorem ptpRestart_edge (c : Chip) : (Chip.ptpRestart c).safe.edge = c.safe.edge := by
  simp only [Chip.ptpRestart, modTime_safe]

theorem svDown_edge (cause : Nat) (c : Chip) : (Chip.svDown cause c).safe.edge = c.safe.edge := by
  simp only [Chip.svDown, bayPause_edge, clearBank_edge, closeConn_edge, controllerLost_edge, countReset_edge,
    dropQuality_edge, dropStagings_edge, endSession_edge, linkRestart_edge, loseTickets_edge, modDisp_safe,
    modFq_safe, modKey_safe, modNet_safe, modTix_safe, pairPlanned_edge, pairReset_edge, ptpRestart_edge, raise_safe,
    setDead_edge, setRdy_edge, svFields_edge, each_edge, implies_true, ite_edge, ite_self]

theorem fallbackEvt_edge (slot : Bool) (c : Chip) : (Chip.fallbackEvt slot c).safe.edge = c.safe.edge := by
  simp only [Chip.fallbackEvt, raise_safe]

theorem legalDigest_edge (new : BitVec 256) (c : Chip) : (Chip.legalDigest new c).safe.edge = c.safe.edge := by
  simp only [Chip.legalDigest, modEvt_safe, modUpd_safe, ite_edge, ite_self]

theorem giveUpTrial_edge (slot : Bool) (why : BitVec 3) (c : Chip) :
    (Chip.giveUpTrial slot why c).safe.edge = c.safe.edge := by
  simp only [Chip.giveUpTrial, fallbackEvt_edge, legalDigest_edge, modCfg_safe, modFw_edge, modUpd_safe, raise_safe,
    when_edge, ite_self]

theorem slotFailed_edge (b : Bool) (c : Chip) : (Chip.slotFailed b c).safe.edge = c.safe.edge := by
  simp only [Chip.slotFailed, modFw_edge, modUpd_safe, raise_safe]

theorem startImage_edge (n : BitVec 2) (c : Chip) : (Chip.startImage n c).safe.edge = c.safe.edge := by
  simp only [Chip.startImage, modSys_safe, modUpd_safe]

theorem bootSelect_edge (planned : Bool) (c : Chip) : (Chip.bootSelect planned c).safe.edge = c.safe.edge := by
  simp only [Chip.bootSelect, giveUpTrial_edge, legalDigest_edge, modUpd_safe, slotFailed_edge, startImage_edge,
    when_edge, ite_edge, ite_self]

theorem svUp_edge (c : Chip) : (Chip.svUp c).safe.edge = c.safe.edge := by
  simp only [Chip.svUp, bayResume_edge, claimDie_edge, loadSettings_edge, modFq_safe, modNet_safe, netFollow_edge,
    pairTake_edge, setDead_edge, setRdy_edge, each_edge, implies_true, ite_edge, ite_self]

theorem modStaging_edge (t : W16) (f : Staging → Staging) (c : Chip) :
    (Chip.modStaging t f c).safe.edge = c.safe.edge := by
  simp only [Chip.modStaging, modUpd_safe]

theorem dropStaging_edge (t : W16) (c : Chip) : (Chip.dropStaging t c).safe.edge = c.safe.edge := by
  simp only [Chip.dropStaging, modUpd_safe]

theorem openPlatform_edge (c : Chip) : (Chip.openPlatform c).safe.edge = c.safe.edge := by
  simp only [Chip.openPlatform, complete_edge, dropStaging_edge, modFw_edge, each_edge, implies_true]

theorem cmdUpdStage_edge (r : CmdReq) (c : Chip) : (cmdUpdStage r c).1.safe.edge = c.safe.edge := by
  simp only [cmdUpdStage, long_edge, modUpd_safe, openPlatform_edge, implies_true, ite_edge, ite_fst_edge, ite_self]

theorem stagingCheck_edge (s : Staging) (c : Chip) : (Chip.stagingCheck s c).safe.edge = c.safe.edge := by
  simp only [Chip.stagingCheck, complete_edge, dropStaging_edge, modFw_edge, modStaging_edge, raise_safe, ite_edge,
    ite_self]

theorem cmdUpdChunk_edge (r : CmdReq) (c : Chip) : (cmdUpdChunk r c).1.safe.edge = c.safe.edge := by
  unfold cmdUpdChunk
  dsimp only
  (repeat' split) <;> simp only [modStaging_edge, stagingCheck_edge]

theorem cmdUpdDiscard_edge (r : CmdReq) (c : Chip) : (cmdUpdDiscard r c).1.safe.edge = c.safe.edge := by
  unfold cmdUpdDiscard
  dsimp only
  (repeat' split) <;> simp only [complete_edge, dropStaging_edge, modFw_edge]

theorem stagingTimeout_edge (t : W16) (c : Chip) : (Chip.stagingTimeout t c).safe.edge = c.safe.edge := by
  unfold Chip.stagingTimeout
  split <;> simp only [complete_edge, dropStaging_edge, ite_edge, ite_self]

theorem stagedExpiry_edge (t : W16) (c : Chip) : (Chip.stagedExpiry t c).safe.edge = c.safe.edge := by
  unfold Chip.stagedExpiry
  split <;> simp only [dropStaging_edge, ite_edge, ite_self]

theorem commitAllowed_edge (k : Nat) :
    ∀ (n : Nat) (c : Chip), (Chip.commitAllowed k n c).safe.edge = c.safe.edge := by
  intro n
  induction n with
  | zero => exact fun _ => rfl
  | succ n ih => exact fun c => (ih (c.gateCommit k)).trans (gateCommit_edge k c)

theorem engineStop_edge (k : Nat) (c : Chip) : (Chip.engineStop k c).safe.edge = c.safe.edge := by
  simp only [Chip.engineStop, commitAllowed_edge, modEng_safe, modGroup_safe, modUpd_safe, setRdy_edge, ite_edge,
    ite_self]

theorem changeoverStop_edge (cause : Nat) (c : Chip) : (Chip.changeoverStop cause c).safe.edge = c.safe.edge := by
  simp only [Chip.changeoverStop, bayPause_edge, engineStop_edge, modDrv_safe, modPair_safe, modSys_safe, modUpd_safe,
    svDown_edge, each_edge, implies_true]

theorem startChangeover_edge (t : W16) (c : Chip) : (Chip.startChangeover t c).safe.edge = c.safe.edge := by
  simp only [Chip.startChangeover, changeoverStop_edge, legalDigest_edge, modCfg_safe, modFw_edge, modUpd_safe,
    raise_safe, tamperInst_safe]

theorem cmdUpdActivate_edge (r : CmdReq) (c : Chip) : (cmdUpdActivate r c).1.safe.edge = c.safe.edge := by
  simp only [cmdUpdActivate, long_edge, modPair_safe, modUpd_safe, startChangeover_edge, implies_true, ite_edge,
    ite_fst_edge, ite_self]

theorem revert_edge (why : BitVec 3) (c : Chip) : (Chip.revert why c).safe.edge = c.safe.edge := by
  simp only [Chip.revert, changeoverStop_edge, giveUpTrial_edge, modUpd_safe, tamperInst_safe]

theorem cmdUpdRevert_edge (r : CmdReq) (c : Chip) : (cmdUpdRevert r c).1.safe.edge = c.safe.edge := by
  simp only [cmdUpdRevert, long_edge, modUpd_safe, revert_edge, implies_true, ite_fst_edge, ite_self]

theorem trialWatchdog_edge (c : Chip) : (Chip.trialWatchdog c).safe.edge = c.safe.edge := by
  simp only [Chip.trialWatchdog, modUpd_safe, revert_edge, ite_edge, ite_self]

theorem changeoverWatchdog_edge (c : Chip) : (Chip.changeoverWatchdog c).safe.edge = c.safe.edge := by
  simp only [Chip.changeoverWatchdog, revert_edge, ite_edge, ite_self]

theorem changeoverBoot_edge (c : Chip) : (Chip.changeoverBoot c).safe.edge = c.safe.edge := by
  simp only [Chip.changeoverBoot, bootSelect_edge, modUpd_safe, svUp_edge, ite_edge, ite_self]

theorem changeoverEnd_edge (c : Chip) : (Chip.changeoverEnd c).safe.edge = c.safe.edge := by
  simp only [Chip.changeoverEnd, bayResume_edge, complete_edge, modSys_safe, modUpd_safe]

theorem changeoverResume_edge (c : Chip) : (Chip.changeoverResume c).safe.edge = c.safe.edge := by
  simp only [Chip.changeoverResume, changeoverEnd_edge, modUpd_safe, reloadDone_edge, each_edge, implies_true,
    ite_edge, ite_self]

theorem bridgeOverflow_edge (k : Nat) (c : Chip) : (Chip.bridgeOverflow k c).safe.edge = c.safe.edge := by
  simp only [Chip.bridgeOverflow, modGroup_safe, raise_safe, ite_edge, ite_self]

theorem healthWrite_edge (c : Chip) : (Chip.healthWrite c).safe.edge = c.safe.edge := by
  simp only [Chip.healthWrite, modCfg_safe, modFw_edge, modUpd_safe, raise_safe, ite_edge, ite_self]

theorem svReset_edge (cause : Nat) (c : Chip) : (Chip.svReset cause c).safe.edge = c.safe.edge := by
  simp only [Chip.svReset, svDown_edge, ite_edge, ite_self]

theorem svExit_edge (c : Chip) : (Chip.svExit c).safe.edge = c.safe.edge := by
  simp only [Chip.svExit, bootSelect_edge, changeoverBoot_edge, svUp_edge, ite_edge, ite_self]

theorem slewTo_edge (d : Int) (c : Chip) : (Chip.slewTo d c).safe.edge = c.safe.edge := by
  simp only [Chip.slewTo, modTime_safe, replace_edge]

theorem hostSet_edge (c : Chip) : (Chip.hostSet c).safe.edge = c.safe.edge := by
  simp only [Chip.hostSet, modTime_safe, when_edge, ite_self]

theorem cmdTimeAdjust_edge (r : CmdReq) (c : Chip) : (cmdTimeAdjust r c).1.safe.edge = c.safe.edge := by
  simp only [cmdTimeAdjust, hostSet_edge, slewTo_edge, ite_fst_edge, ite_self]

theorem planStep_edge (ofs : Int) (t : W16) (c : Chip) : (Chip.planStep ofs t c).safe.edge = c.safe.edge := by
  simp only [Chip.planStep, modTime_safe, toEngines_edge]

theorem cmdTimeSet_edge (r : CmdReq) (c : Chip) : (cmdTimeSet r c).1.safe.edge = c.safe.edge := by
  simp only [cmdTimeSet, hostSet_edge, long_edge, planStep_edge, slewTo_edge, stage_safe, implies_true, ite_fst_edge,
    ite_self]

theorem handMissed_edge (fwd : Bool) (stamp : Nat) (base : Int) (c : Chip) :
    (Chip.handMissed fwd stamp base c).safe.edge = c.safe.edge := by
  simp only [Chip.handMissed, handTariff_edge, each_edge, implies_true]

theorem backFrom_edge (u : Int) (c : Chip) : (Chip.backFrom u c).safe.edge = c.safe.edge := by
  simp only [Chip.backFrom, setFrom_edge, each_edge, implies_true, when_edge, ite_self]

theorem clockStep_edge (c : Chip) : (Chip.clockStep c).safe.edge = c.safe.edge := by
  unfold Chip.clockStep
  split <;> simp only [backFrom_edge, complete_edge, handMissed_edge, modTime_safe, stage_safe, tamperInst_safe,
    withdraw_edge, ite_edge, ite_self]

theorem cg10Apply_edge (c : Chip) : (Chip.cg10Apply c).safe.edge = c.safe.edge := by
  unfold Chip.cg10Apply
  split <;> simp only [handMissed_edge, modTime_safe, withdraw_edge, ite_edge, ite_self]

theorem tcxoSet_edge (e : Int) (c : Chip) : (Chip.tcxoSet e c).safe.edge = c.safe.edge := by
  simp only [Chip.tcxoSet, modTime_safe, replace_edge, ite_edge, ite_self]

theorem mapFreeze_edge (c : Chip) : (Chip.mapFreeze c).safe.edge = c.safe.edge := by
  simp only [Chip.mapFreeze, draw_edge, modTime_safe, tcxoSet_edge, ite_edge, ite_self]

theorem aoCalibrate_edge (meas : Int) (c : Chip) : (Chip.aoCalibrate meas c).safe.edge = c.safe.edge := by
  simp only [Chip.aoCalibrate, modTime_safe, ite_edge, ite_self]

theorem ptpAnnounce_edge (src : W64) (ds : List Nat) (id : W64) (utcOffset : W8) (leap leapAt : Int) (c : Chip) :
    (Chip.ptpAnnounce src ds id utcOffset leap leapAt c).safe.edge = c.safe.edge := by
  simp only [Chip.ptpAnnounce, modTime_safe, ite_edge, ite_self]

theorem ptpOffset_edge (o : Int) (c : Chip) : (Chip.ptpOffset o c).safe.edge = c.safe.edge := by
  simp only [Chip.ptpOffset, modTime_safe, planStep_edge, slewTo_edge, ite_edge, ite_self]

theorem ptpTake_edge (src : W64) (m : PtpMsg) (c : Chip) : (Chip.ptpTake src m c).safe.edge = c.safe.edge := by
  unfold Chip.ptpTake
  split <;> simp only [modTime_safe, ptpAnnounce_edge, ptpOffset_edge, when_edge, ite_edge, ite_self]

theorem ptpRx_edge (f : PtpFrame) (c : Chip) : (Chip.ptpRx f c).safe.edge = c.safe.edge := by
  simp only [Chip.ptpRx, ptpTake_edge, when_edge, ite_self]

theorem ptpTimeout_edge (c : Chip) : (Chip.ptpTimeout c).safe.edge = c.safe.edge := by
  simp only [Chip.ptpTimeout, modTime_safe, ite_edge, ite_self]

theorem stepNeeded_edge (c : Chip) : (Chip.stepNeeded c).safe.edge = c.safe.edge := by
  simp only [Chip.stepNeeded, modTime_safe, raise_safe, ite_edge, ite_self]

theorem leapStart_edge (c : Chip) : (Chip.leapStart c).safe.edge = c.safe.edge := by
  simp only [Chip.leapStart, modTime_safe, raise_safe, replace_edge, ite_edge, ite_self]

theorem mainDrop_edge (c : Chip) : (Chip.mainDrop c).safe.edge = c.safe.edge := by
  simp only [Chip.mainDrop, modPower_safe, when_edge, ite_self]

theorem mainTakeover_edge (c : Chip) : (Chip.mainTakeover c).safe.edge = c.safe.edge := by
  simp only [Chip.mainTakeover, modPower_safe, when_edge, ite_self]

theorem auxLost_edge (c : Chip) : (Chip.auxLost c).safe.edge = c.safe.edge := by
  simp only [Chip.auxLost, modPower_safe, raise_safe, ite_edge, ite_self]

theorem auxReturn_edge (c : Chip) : (Chip.auxReturn c).safe.edge = c.safe.edge := by
  simp only [Chip.auxReturn, modPower_safe, when_edge, ite_self]

theorem mainLow_edge (c : Chip) : (Chip.mainLow c).safe.edge = c.safe.edge := by
  simp only [Chip.mainLow, raise_safe, ite_edge, ite_self]

theorem holdupCharged_edge (c : Chip) : (Chip.holdupCharged c).safe.edge = c.safe.edge := by
  simp only [Chip.holdupCharged, modPower_safe, when_edge, ite_self]

theorem testStart_edge (c : Chip) : (Chip.testStart c).safe.edge = c.safe.edge := by
  simp only [Chip.testStart, modPower_safe, ite_edge, ite_self]

theorem testDaily_edge (c : Chip) : (Chip.testDaily c).safe.edge = c.safe.edge := by
  simp only [Chip.testDaily, testStart_edge, when_edge, ite_self]

theorem cmdHoldupTest_edge (r : CmdReq) (c : Chip) : (cmdHoldupTest r c).1.safe.edge = c.safe.edge := by
  simp only [cmdHoldupTest, long_edge, modPower_safe, testStart_edge, implies_true, ite_fst_edge, ite_self]

theorem testEnd_edge (holdup : W16) (cap : W8) (c : Chip) : (Chip.testEnd holdup cap c).safe.edge = c.safe.edge := by
  simp only [Chip.testEnd, complete_edge, modPower_safe, raise_safe, tamperInst_safe, ite_edge, ite_self]

theorem huOverdue_edge (c : Chip) : (Chip.huOverdue c).safe.edge = c.safe.edge := by
  simp only [Chip.huOverdue, raise_safe, when_edge, ite_self]

theorem cellMeasured_edge (v : W8) (c : Chip) : (Chip.cellMeasured v c).safe.edge = c.safe.edge := by
  simp only [Chip.cellMeasured, modPower_safe, raise_safe, ite_edge, ite_self]

theorem hkReport_edge (r : HkReport) (c : Chip) : (Chip.hkReport r c).safe.edge = c.safe.edge := by
  simp only [Chip.hkReport, modPower_safe, modSys_safe, ite_edge, ite_self]

theorem hkSilence_edge (c : Chip) : (Chip.hkSilence c).safe.edge = c.safe.edge := by
  simp only [Chip.hkSilence, modPower_safe, raise_safe, ite_edge, ite_self]

theorem journalPut_edge (c : Chip) : (Chip.journalPut c).safe.edge = c.safe.edge := by
  simp only [Chip.journalPut, modSave_safe]

theorem journalEntry_edge (c : Chip) : (Chip.journalEntry c).safe.edge = c.safe.edge := by
  simp only [Chip.journalEntry, journalPut_edge, ite_edge, ite_self]

theorem gateAtC_edge (k : Nat) (c : Chip) : (Chip.gateAtC k c).safe.edge = c.safe.edge := by
  simp only [Chip.gateAtC, commitAll_edge, forcedNote_edge, modEng_safe, placeGate_edge]

theorem finalGate_edge (p k : Nat) (c : Chip) : (Chip.finalGate p k c).safe.edge = c.safe.edge := by
  simp only [Chip.finalGate, forceAtH_edge, gateAtC_edge, modEng_safe, setRdy_edge, ite_edge, ite_self]

theorem pendRun_edge (p : PendTime) (c : Chip) : (Chip.pendRun p c).safe.edge = c.safe.edge := by
  unfold Chip.pendRun
  split <;> simp only [activate_edge, closeExec_edge, demandExec_edge, switchExec_edge]

theorem pendUpTo_edge (p : Nat) (c : Chip) : (Chip.pendUpTo p c).safe.edge = c.safe.edge := by
  simp only [Chip.pendUpTo, dropPend_edge, pendRun_edge, each_edge, implies_true]

theorem sessUpTo_edge (p : Nat) (c : Chip) : (Chip.sessUpTo p c).safe.edge = c.safe.edge := by
  refine each_edge _ (eq_true (fun m c => ?_)) c
  dsimp only
  split <;> simp only [ite_edge, sessionEnd_edge, modBill_safe, ite_self]

theorem finalSave_edge (c : Chip) : (Chip.finalSave c).safe.edge = c.safe.edge := by
  unfold Chip.finalSave
  dsimp only
  (repeat' split) <;> simp only [cg10Apply_edge, clockStep_edge, closeInterval_edge, closeOverrun_edge,
    finalGate_edge, modEvt_safe, modSave_safe, modTime_safe, pendUpTo_edge, sessUpTo_edge, each_edge, implies_true]

theorem powerFail_edge (c : Chip) : (Chip.powerFail c).safe.edge = c.safe.edge := by
  simp only [Chip.powerFail, bayStop_edge, closeConn_edge, controllerLost_edge, modKey_safe, modLink_safe,
    modNet_safe, modPower_safe, modTamper_safe, modTime_safe, pairReset_edge, setDead_edge, setRdy_edge, each_edge,
    implies_true, ite_edge, ite_self]

theorem exhausted_edge (complete : Bool) (c : Chip) : (Chip.exhausted complete c).safe.edge = c.safe.edge := by
  simp only [Chip.exhausted, finalSave_edge, modPower_safe, modSafe_safe, modSys_safe, ite_edge, ite_self]

theorem startInterval_edge (c : Chip) : (Chip.startInterval c).safe.edge = c.safe.edge := by
  simp only [Chip.startInterval, addPend_edge]

theorem startOver_edge (c : Chip) : (Chip.startOver c).safe.edge = c.safe.edge := by
  simp only [Chip.startOver, modFq_safe, modSys_safe, stageSigned_edge, startInterval_edge, each_edge, implies_true]

theorem startEnd_edge (c : Chip) : (Chip.startEnd c).safe.edge = c.safe.edge := by
  simp only [Chip.startEnd, startOver_edge, ite_edge, ite_self]

theorem startLate_edge (c : Chip) : (Chip.startLate c).safe.edge = c.safe.edge := by
  simp only [Chip.startLate, raise_safe, startOver_edge, ite_edge, ite_self]

theorem legalQueue_edge (kind arg stamp mask : Nat) (t : W16) (c : Chip) :
    (Chip.legalQueue kind arg stamp mask t c).safe.edge = c.safe.edge := by
  simp only [Chip.legalQueue, modCfg_safe]

theorem cmdSysModeSet_edge (r : CmdReq) (c : Chip) : (cmdSysModeSet r c).1.safe.edge = c.safe.edge := by
  simp only [cmdSysModeSet, legalQueue_edge, long_edge, toEngines_edge, implies_true, ite_fst_edge, ite_self]

theorem cmdSysQuarClr_edge (r : CmdReq) (c : Chip) : (cmdSysQuarClr r c).1.safe.edge = c.safe.edge := by
  simp only [cmdSysQuarClr, modSys_safe, ite_fst_edge, ite_self]

theorem cmdSysRestart_edge (r : CmdReq) (c : Chip) : (cmdSysRestart r c).1.safe.edge = c.safe.edge := by
  simp only [cmdSysRestart, long_edge, modPower_safe, implies_true, ite_fst_edge, ite_self]

end Sys2Proof.Machine
end

section
/-! Legal changes, images, the pair and the start leave the Edge logic as it is, but for what the safety subsystem
does. -/

namespace Sys2Proof.Machine

open Sys2Proof Sys2Proof.Claims

theorem cmdTapRefNow_edge (r : CmdReq) (c : Chip) : (cmdTapRefNow r c).1.safe.edge = c.safe.edge := by
  simp only [cmdTapRefNow, long_edge, modTap_safe, implies_true, ite_fst_edge, ite_self]

theorem cmdTapChainReset_edge (r : CmdReq) (c : Chip) : (cmdTapChainReset r c).1.safe.edge = c.safe.edge := by
  simp only [cmdTapChainReset, modCfg_safe, toEngine_edge, ite_fst_edge, ite_self]

theorem cmdTapGlitchClr_edge (r : CmdReq) (c : Chip) : (cmdTapGlitchClr r c).1.safe.edge = c.safe.edge := by
  simp only [cmdTapGlitchClr, modTap_safe]

theorem chainNormal_edge (n stamp : Nat) (c : Chip) : (Chip.chainNormal n stamp c).safe.edge = c.safe.edge := by
  simp only [Chip.chainNormal, modTap_safe, recordLegal_safe]

theorem hintBit_edge (i : Nat) (c : Chip) : (Chip.hintBit i c).safe.edge = c.safe.edge := by
  simp only [Chip.hintBit, modSys_safe]

theorem cfgAnswer_edge (m g : Nat) (st : W8) (ticket : W16) (fail : Nat) (c : Chip) :
    (Chip.cfgAnswer m g st ticket fail c).safe.edge = c.safe.edge := by
  simp only [Chip.cfgAnswer, modMaster_safe]

theorem commitDone_edge (m : Nat) (c : Chip) : (Chip.commitDone m c).safe.edge = c.safe.edge := by
  simp only [Chip.commitDone, hintBit_edge, when_edge, ite_self]

theorem putLive_edge (g : Nat) (ws : List (Nat × W32)) (c : Chip) :
    (Chip.putLive g ws c).safe.edge = c.safe.edge := by
  simp only [Chip.putLive, modCfg_safe, newRef_edge]

theorem postRecord_edge (old : BitVec 18) (c : Chip) : (Chip.postRecord old c).safe.edge = c.safe.edge := by
  simp only [Chip.postRecord, modLedger_safe, postNow_edge, ite_edge, ite_self]

theorem lpChange_edge (ws : List (Nat × W32)) (c : Chip) : (Chip.lpChange ws c).safe.edge = c.safe.edge := by
  simp only [Chip.lpChange, lpOpen_edge, modBill_safe, each_edge, implies_true]

theorem schedChange_edge (ws : List (Nat × W32)) (c : Chip) : (Chip.schedChange ws c).safe.edge = c.safe.edge := by
  simp only [Chip.schedChange, replace_edge, setFrom_edge, when_edge, ite_self]

theorem bayChange_edge (old : W32) (c : Chip) : (Chip.bayChange old c).safe.edge = c.safe.edge := by
  simp only [Chip.bayChange, bayLoad_edge, modBay_safe, modemRelease_edge, v2gAbort_edge, when_edge, ite_edge,
    ite_self]

theorem timeChange_edge (old : List (Nat × W32)) (c : Chip) : (Chip.timeChange old c).safe.edge = c.safe.edge := by
  simp only [Chip.timeChange, modTime_safe, ptpRestart_edge, toEngines_edge, ite_edge, ite_self]

theorem commitLegal_edge (m g : Nat) (ws : List (Nat × W32)) (c : Chip) :
    (Chip.commitLegal m g ws c).safe.edge = c.safe.edge := by
  simp only [Chip.commitLegal, cfgAnswer_edge, issue_edge, modCfg_safe]

theorem cfgDiscard_edge (m g : Nat) (c : Chip) : (Chip.cfgDiscard m g c).safe.edge = c.safe.edge := by
  unfold Chip.cfgDiscard
  (repeat' split) <;> simp only [cfgAnswer_edge, discardShadow_edge]

theorem legalEffect_edge (p : PendCommit) (s : Nat) (c : Chip) :
    (Chip.legalEffect p s c).safe.edge = c.safe.edge := by
  unfold Chip.legalEffect
  dsimp only
  (repeat' split) <;> simp only [commitDone_edge, discardShadow_edge, doneIf_edge, mpChange_edge, progChange_edge,
    putLive_edge, recordLegal_safe, tapChange_edge]

theorem modeEffect_edge (p : PendCommit) (s : Nat) (c : Chip) : (Chip.modeEffect p s c).safe.edge = c.safe.edge := by
  simp only [Chip.modeEffect, doneIf_edge, modSys_safe, recordLegal_safe]

theorem applyOne_edge (p : PendCommit) (c : Chip) : (Chip.applyOne p c).safe.edge = c.safe.edge := by
  simp only [Chip.applyOne, billZero_edge, chainNormal_edge, doneIf_edge, legalEffect_edge, modCfg_safe,
    modeEffect_edge, ite_edge, ite_self]

theorem legalApply_edge (c : Chip) : (Chip.legalApply c).safe.edge = c.safe.edge := by
  unfold Chip.legalApply
  split <;> simp only [applyOne_edge]

theorem reloadGroup_edge (g : Nat) (c : Chip) : (Chip.reloadGroup g c).safe.edge = c.safe.edge := by
  simp only [Chip.reloadGroup, modCfg_safe]

theorem mismatch_edge (g : Nat) (c : Chip) : (Chip.mismatch g c).safe.edge = c.safe.edge := by
  simp only [Chip.mismatch, drvMismatch_edge, modCfg_safe, raise_safe, reloadGroup_edge, ite_edge, ite_self]

theorem resolved_edge (g : Nat) (c : Chip) : (Chip.resolved g c).safe.edge = c.safe.edge := by
  simp only [Chip.resolved, modCfg_safe, raise_safe]

theorem crcPass_edge (g : Nat) (bad : List (W32 × W32)) (c : Chip) :
    (Chip.crcPass g bad c).safe.edge = c.safe.edge := by
  simp only [Chip.crcPass, mismatch_edge, resolved_edge, ite_edge, ite_self]

theorem cfgPersist_edge (g : Nat) (c : Chip) : (Chip.cfgPersist g c).safe.edge = c.safe.edge := by
  simp only [Chip.cfgPersist, modCfg_safe, modSys_safe, raise_safe, when_edge, ite_edge, ite_self]

theorem imgRecord_edge (i : Nat) (x : TallyImg) (c : Chip) : (Chip.imgRecord i x c).safe.edge = c.safe.edge := by
  simp only [Chip.imgRecord, recordLegal_safe, stage_safe]

theorem imgRestart_edge (i k : Nat) (c : Chip) : (Chip.imgRestart i k c).safe.edge = c.safe.edge := by
  simp only [Chip.imgRestart, loadFresh_edge, modEng_safe]

theorem imgPut_edge (i : Nat) (b : List W8) (c : Chip) : (Chip.imgPut i b c).1.safe.edge = c.safe.edge := by
  simp only [Chip.imgPut, imgRecord_edge, imgRestart_edge, modImg_safe, each_edge, implies_true]

theorem cmdQeImgInstall_edge (r : CmdReq) (c : Chip) : (cmdQeImgInstall r c).1.safe.edge = c.safe.edge := by
  unfold cmdQeImgInstall
  dsimp only
  (repeat' split) <;> simp only [complete_edge, dropStaging_edge, imgPut_edge, long_edge, implies_true]

theorem cmdQeImgRemove_edge (r : CmdReq) (c : Chip) : (cmdQeImgRemove r c).1.safe.edge = c.safe.edge := by
  unfold cmdQeImgRemove
  dsimp only
  (repeat' split) <;> simp only [imgRecord_edge, modImg_safe]

theorem cmdBayImgInstall_edge (r : CmdReq) (c : Chip) : (cmdBayImgInstall r c).1.safe.edge = c.safe.edge := by
  unfold cmdBayImgInstall
  (repeat' split) <;> simp only [complete_edge, dropStaging_edge, long_edge, modBayImg_edge, implies_true,
    ite_fst_edge, ite_self]

theorem cmdBayImgRemove_edge (r : CmdReq) (c : Chip) : (cmdBayImgRemove r c).1.safe.edge = c.safe.edge := by
  simp only [cmdBayImgRemove, modBayImg_edge, ite_fst_edge, ite_self]

theorem switchDone_edge (c : Chip) : (Chip.switchDone c).safe.edge = c.safe.edge := by
  simp only [Chip.switchDone, doneIf_edge, modPair_safe, pairStandby_edge, startChangeover_edge, ite_edge, ite_self]

theorem switchLost_edge (c : Chip) : (Chip.switchLost c).safe.edge = c.safe.edge := by
  simp only [Chip.switchLost, doneIf_edge, modPair_safe, startChangeover_edge, ite_edge, ite_self]

theorem heartNote_edge (h : Heartbeat) (c : Chip) : (Chip.heartNote h c).safe.edge = c.safe.edge := by
  simp only [Chip.heartNote, modPair_safe]

theorem heartFormed_edge (h : Heartbeat) (c : Chip) : (Chip.heartFormed h c).safe.edge = c.safe.edge := by
  unfold Chip.heartFormed
  (repeat' split) <;> simp only [modPair_safe, pairCompare_edge, pairDual_edge, switchDone_edge, ite_edge, ite_self]

theorem heartAlone_edge (h : Heartbeat) (c : Chip) : (Chip.heartAlone h c).safe.edge = c.safe.edge := by
  simp only [Chip.heartAlone, modPair_safe, pairForm_edge, raise_safe, ite_edge, ite_self]

theorem heartbeat_edge (h : Heartbeat) (c : Chip) : (Chip.heartbeat h c).safe.edge = c.safe.edge := by
  simp only [Chip.heartbeat, heartAlone_edge, heartFormed_edge, heartNote_edge, ite_edge, ite_self]

theorem pairAlone_edge (c : Chip) : (Chip.pairAlone c).safe.edge = c.safe.edge := by
  simp only [Chip.pairAlone, modPair_safe, ite_edge, ite_self]

theorem partnerLost_edge (c : Chip) : (Chip.partnerLost c).safe.edge = c.safe.edge := by
  simp only [Chip.partnerLost, modPair_safe, pairTake_edge, setRdy_edge, switchLost_edge, ite_edge, ite_self]

theorem laneLoss_edge (l : Nat) (c : Chip) : (Chip.laneLoss l c).safe.edge = c.safe.edge := by
  simp only [Chip.laneLoss, modPair_safe, raise_safe, ite_edge, ite_self]

theorem laneRejoin_edge (l : Nat) (c : Chip) : (Chip.laneRejoin l c).safe.edge = c.safe.edge := by
  simp only [Chip.laneRejoin, modPair_safe]

theorem cmdPairSwitch_edge (r : CmdReq) (c : Chip) : (cmdPairSwitch r c).1.safe.edge = c.safe.edge := by
  simp only [cmdPairSwitch, long_edge, modPair_safe, implies_true, ite_fst_edge, ite_self]

theorem linkChange_edge (port : Nat) (up : Bool) (c : Chip) :
    (Chip.linkChange port up c).safe.edge = c.safe.edge := by
  simp only [Chip.linkChange, modNet_safe, netFollow_edge]

theorem coldGroups_edge (r : Nat) (c : Chip) : (Chip.coldGroups r c).safe.edge = c.safe.edge := by
  simp only [Chip.coldGroups]

theorem tamperLost_edge (ty : Nat) (start : Bool) (c : Chip) :
    (Chip.tamperLost ty start c).safe.edge = c.safe.edge := by
  simp only [Chip.tamperLost, modTrec_edge, tamperNote_safe]

theorem tamperCaptured_edge (ty six : Nat) (start : Bool) (c : Chip) :
    (Chip.tamperCaptured ty six start c).safe.edge = c.safe.edge := by
  simp only [Chip.tamperCaptured, tamperEnd_safe, tamperInst_safe, tamperStart_safe, ite_edge, ite_self]

theorem aoReplay_edge (lost : Bool) (l : List (Nat × Bool × Nat)) (c : Chip) :
    (Chip.aoReplay lost l c).safe.edge = c.safe.edge := by
  simp only [Chip.aoReplay, modTamper_safe, modTrec_edge, tamperCaptured_edge, tamperLost_edge, each_edge,
    implies_true, ite_edge, ite_self]

theorem outageRecords_edge (p : PowerOn) (cause : Nat) (x : Restored) (counts : Nat × Nat) (c : Chip) :
    (Chip.outageRecords p cause x counts c).safe.edge = c.safe.edge := by
  unfold Chip.outageRecords
  (repeat' split) <;> simp only [aoReplay_edge, tamperEnd_safe, tamperInst_safe, tamperLost_edge, ite_edge, ite_self]

theorem cellEmpty_edge (p : PowerOn) (c : Chip) : (Chip.cellEmpty p c).safe.edge = c.safe.edge := by
  simp only [Chip.cellEmpty, raise_safe, tamperInst_safe, when_edge, ite_self]

theorem lateClose_edge (r : Nat) (u : Int) (c : Chip) : (Chip.lateClose r u c).safe.edge = c.safe.edge := by
  simp only [Chip.lateClose, modBill_safe, periodClose_edge, setExec_edge]

theorem calendarAt_edge (r : Nat) (c : Chip) : (Chip.calendarAt r c).safe.edge = c.safe.edge := by
  unfold Chip.calendarAt
  (repeat' split) <;> simp only [activate_edge, setFrom_edge, setInForce_edge, each_edge, implies_true, ite_edge,
    ite_self]

theorem deferred_edge (r : Nat) (closes : List Int) (c : Chip) :
    (Chip.deferred r closes c).safe.edge = c.safe.edge := by
  unfold Chip.deferred
  split <;> simp only [calendarAt_edge, lateClose_edge, modBill_safe, openInterval_edge, sessionEnd_edge,
    setExec_edge, each_edge, implies_true]

theorem lateLegal_edge (l : List PendCommit) (c : Chip) : (Chip.lateLegal l c).safe.edge = c.safe.edge := by
  simp only [Chip.lateLegal, recordLegal_safe, each_edge, implies_true]

theorem startEngines_edge (r : Nat) (up : BitVec 20) (c : Chip) :
    (Chip.startEngines r up c).safe.edge = c.safe.edge := by
  simp only [Chip.startEngines, loadFresh_edge, modEng_safe, each_edge, implies_true, ite_edge, ite_self]

theorem startBay_edge (p : PowerOn) (c : Chip) : (Chip.startBay p c).safe.edge = c.safe.edge := by
  simp only [Chip.startBay, bayLoad_edge, bayReloaded_edge, modemRelease_edge, setDead_edge, when_edge, ite_edge,
    ite_self]

end Sys2Proof.Machine
end

section
/-! Commands and the host window leave the Edge logic as it is, but for commits. -/

namespace Sys2Proof.Machine

open Sys2Proof Sys2Proof.Claims

theorem command_edge {x : CmdRow} (h : ∀ r c, (x.fn r c).1.safe.edge = c.safe.edge) (r : CmdReq) (c : Chip) :
    (Chip.command x r c).1.safe.edge = c.safe.edge := by
  unfold Chip.command
  rw [ite_fst_edge, ite_fst_edge, ite_fst_edge, h r c]
  simp only [ite_self]

theorem keyBufClear_edge (m code : Nat) (c : Chip) : (Chip.keyBufClear m code c).safe.edge = c.safe.edge := by
  simp only [Chip.keyBufClear, modMaster_safe, ite_edge, ite_self]

theorem acknowledge_edge (m : Nat) (a : Ans) (c : Chip) : (Chip.acknowledge m a c).safe.edge = c.safe.edge := by
  simp only [Chip.acknowledge, hint_safe, modMaster_safe, when_edge, ite_self]

theorem bridgeTimeout_edge (isl m a : Nat) (write : Bool) (c : Chip) :
    (Chip.bridgeTimeout isl m a write c).safe.edge = c.safe.edge := by
  simp only [Chip.bridgeTimeout, raise_safe]

theorem cmdNop_edge (_r : CmdReq) (c : Chip) : (cmdNop _r c).1.safe.edge = c.safe.edge := by
  simp only [cmdNop]

theorem sessionKeep_edge (stamp m : Nat) (c : Chip) : (Chip.sessionKeep stamp m c).safe.edge = c.safe.edge := by
  simp only [Chip.sessionKeep, modBill_safe, modEng_safe, each_edge, implies_true]

theorem cancelChange_edge (p : PendCommit) (c : Chip) : (Chip.cancelChange p c).safe.edge = c.safe.edge := by
  unfold Chip.cancelChange
  (repeat' split) <;> simp only [modCfg_safe, modEng_safe, sessionKeep_edge, writeGen_edge, each_edge, implies_true]

theorem cancelPend_edge (p : PendCommit) (c : Chip) : (Chip.cancelPend p c).safe.edge = c.safe.edge := by
  simp only [Chip.cancelPend, cancelChange_edge, modCfg_safe, ite_edge, ite_self]

theorem cancelEffect_edge (x : Ticket) (c : Chip) : (Chip.cancelEffect x c).safe.edge = c.safe.edge := by
  unfold Chip.cancelEffect
  (repeat' split) <;> simp only [bayCancel_edge, cancelPend_edge, dropStaging_edge, ferryTestEnd_edge, modDrive_edge,
    modEng_safe, modKey_safe, modLink_safe, modPair_safe, modPlate_edge, modPower_safe, modTap_safe, modUpd_safe,
    restartCancel_edge]

theorem cmdTicketCancel_edge (r : CmdReq) (c : Chip) : (cmdTicketCancel r c).1.safe.edge = c.safe.edge := by
  unfold cmdTicketCancel
  split <;> simp only [cancelEffect_edge, complete_edge, ite_fst_edge, ite_self]

theorem opDone_edge (t : W16) (st : W8) (result : W32) (c : Chip) :
    (Chip.opDone t st result c).safe.edge = c.safe.edge := by
  unfold Chip.opDone
  split <;> simp only [complete_edge, ferryTestEnd_edge, keyDone_edge, when_edge, ite_edge, ite_self]

theorem ferryRead_edge (m q : Nat) (c : Chip) : (Chip.ferryRead m q c).1.safe.edge = c.safe.edge := by
  simp only [Chip.ferryRead, holdRelease_edge, modFq_safe, raise_safe, when_edge, ite_fst_edge, ite_self]

theorem landRead_edge (m n : Nat) (c : Chip) : (Chip.landRead m n c).safe.edge = c.safe.edge := by
  simp only [Chip.landRead, modLand_safe, ite_edge, ite_self]

theorem readEffect_edge (m a : Nat) (c : Chip) : (Chip.readEffect m a c).1.safe.edge = c.safe.edge := by
  unfold Chip.readEffect
  split <;> simp only [ferryRead_edge, landRead_edge, modBill_safe]

theorem readWord_edge (m a : Nat) (c : Chip) : (Chip.readWord m a c).1.safe.edge = c.safe.edge := by
  unfold Chip.readWord
  (repeat' split) <;> simp only [bridgeTimeout_edge, readEffect_edge]

theorem shadowWrite_edge (m a : Nat) (f : CmtFam) (v : W32) (c : Chip) :
    (Chip.shadowWrite m a f v c).1.safe.edge = c.safe.edge := by
  simp only [Chip.shadowWrite, denied_edge, modCfg_safe, setOwner_edge, ite_fst_edge, ite_self]

theorem landWrite_edge (n : Nat) (v : W32) (c : Chip) : (Chip.landWrite n v c).safe.edge = c.safe.edge := by
  simp only [Chip.landWrite, modLand_safe]

theorem ferryCtl_edge (m q op : Nat) (c : Chip) : (Chip.ferryCtl m q op c).1.safe.edge = c.safe.edge := by
  simp only [Chip.ferryCtl, denied_edge, endClaim_edge, holdRelease_edge, modFq_safe, ite_fst_edge, ite_self]

theorem answer_edge (r : HostReply) (c : Chip) : (Chip.answer r c).safe.edge = c.safe.edge := by
  simp only [Chip.answer, modHost_safe]

theorem get1_edge (m : Master5) (a : Nat) (c : Chip) : (Chip.get1 m a c).safe.edge = c.safe.edge := by
  simp only [Chip.get1, readWord_edge, ite_edge, ite_self]

theorem noAnswer_edge (m : Master5) (a : Nat) (write : Bool) (c : Chip) :
    (Chip.noAnswer m a write c).safe.edge = c.safe.edge := by
  unfold Chip.noAnswer
  split <;> simp only [answer_edge, bridgeTimeout_edge, when_edge, ite_edge, ite_self]

theorem yhpReads_edge (m : Nat) : ∀ (l : List W32) (c : Chip), (Chip.yhpReads m l c).1.safe.edge = c.safe.edge := by
  intro l
  induction l with
  | nil => exact fun _ => rfl
  | cons a t ih => exact fun c => (ih _).trans (readWord_edge m a.toNat c)

theorem yhpReply_edge (m : Nat) (msg : YhpIn) (payload : List W32) (c : Chip) :
    (Chip.yhpReply m msg payload c).safe.edge = c.safe.edge := by
  simp only [Chip.yhpReply, send_edge, ite_edge, ite_self]

theorem tlsSession_edge (m : Nat) (client : TlsClient) (c : Chip) :
    (Chip.tlsSession m client c).safe.edge = c.safe.edge := by
  unfold Chip.tlsSession
  (repeat' split) <;> simp only [endSession_edge, modMaster_safe, openSession_edge]

theorem connect_edge (client : TlsClient) (c : Chip) : (Chip.connect client c).safe.edge = c.safe.edge := by
  unfold Chip.connect
  (repeat' split) <;> simp only [modMaster_safe, modNet_safe, tlsSession_edge]

theorem fill_edge (n : Nat) (c : Chip) : (Chip.fill n c).safe.edge = c.safe.edge := by
  unfold Chip.fill
  dsimp only
  (repeat' split) <;> simp only [modLand_safe]

theorem islandStop_edge (i : Island) (c : Chip) : (Chip.islandStop i c).safe.edge = c.safe.edge := by
  unfold Chip.islandStop
  split <;> simp only [closeConn_edge, modLink_safe, modNet_safe, modSafe_safe, setDead_edge, setRdy_edge, each_edge,
    implies_true]

theorem kwrAsk_edge (e i : Nat) (c : Chip) : (Chip.kwrAsk e i c).safe.edge = c.safe.edge := by
  simp only [Chip.kwrAsk, kwrAnswer_edge, modKey_safe, ite_edge, ite_self]

theorem kwrFree_edge (e : Nat) (c : Chip) : (Chip.kwrFree e c).safe.edge = c.safe.edge := by
  simp only [Chip.kwrFree, graceEnd_edge, kwrClear_edge, ite_edge, ite_self]

theorem kwrExpire_edge (c : Chip) : (Chip.kwrExpire c).safe.edge = c.safe.edge := by
  unfold Chip.kwrExpire
  split <;> simp only [graceEnd_edge, kwrAnswer_edge, kwrClear_edge, raise_safe, ite_edge, ite_self]

end Sys2Proof.Machine
end

section
/-! No function of the safety subsystem but the acknowledgement restarts a zone of the Edge logic (R296): a zone in
GRANT or DEMAND after it was in one of them before. -/

namespace Sys2Proof.Machine

open Sys2Proof Sys2Proof.Claims

/-! ### Zones that run and the rules of their writes -/

/-- A zone runs in GRANT and DEMAND (R293). -/
def ZoneRuns (z : Zone) : Prop := z.st = zGRANT ∨ z.st = zDEMAND

/-- Every zone that runs in the logic `y` runs in `x`. -/
structure NoRestart (x y : SafeChan) : Prop where
  ran : ∀ k, ZoneRuns (y.zone k) → ZoneRuns (x.zone k)

theorem noRestart_refl (x : SafeChan) : NoRestart x x := ⟨fun _ h => h⟩

theorem NoRestart.trans {x y z : SafeChan} (hxy : NoRestart x y) (hyz : NoRestart y z) : NoRestart x z :=
  ⟨fun k h => hxy.ran k (hyz.ran k h)⟩

/-- The zones alone say what runs. -/
theorem noRestart_of_zones {x y z : SafeChan} (h : z.zones = y.zones) (hxy : NoRestart x y) : NoRestart x z := by
  refine ⟨fun k hk => hxy.ran k ?_⟩
  unfold SafeChan.zone at hk ⊢
  rwa [← h]

/-- Zones that have just begun stand in START. -/
theorem noRestart_of_begun {x y : SafeChan} (h : y.zones = []) : NoRestart x y := by
  refine ⟨fun k hk => absurd hk ?_⟩
  unfold ZoneRuns SafeChan.zone
  rw [h]
  exact (by decide : ¬ ((1 : BitVec 3) = zGRANT ∨ (1 : BitVec 3) = zDEMAND))

/-- A write of a zone restarts none where the new zone runs only if the zone it replaces did. -/
theorem noRestart_setZone {y : SafeChan} {k : Nat} {z : Zone} (h : ZoneRuns z → ZoneRuns (y.zone k)) :
    NoRestart y (y.setZone k z) := by
  refine ⟨fun i hi => ?_⟩
  unfold SafeChan.setZone SafeChan.zone at hi
  rw [Tbl.get_put] at hi
  split at hi
  · next e => exact e ▸ h hi
  · exact hi

theorem noRestart_each {α : Type} {x : SafeChan} {f : α → Chip → Chip}
    (h : ∀ a c, NoRestart x c.safe.edge → NoRestart x (f a c).safe.edge) (l : List α) {c : Chip}
    (hc : NoRestart x c.safe.edge) : NoRestart x (each l f c).safe.edge := by
  induction l generalizing c with
  | nil => exact hc
  | cons a l ih => exact ih (h a c hc)

theorem noRestart_ite {x : SafeChan} {p : Prop} [Decidable p] {c d : Chip} (hc : NoRestart x c.safe.edge)
    (hd : NoRestart x d.safe.edge) : NoRestart x (if p then c else d).safe.edge := by
  split
  · exact hc
  · exact hd

theorem noRestart_when {x : SafeChan} {b : Bool} {f : Chip → Chip} {c : Chip} (hc : NoRestart x c.safe.edge)
    (hf : NoRestart x (f c).safe.edge) : NoRestart x (c.when b f).safe.edge := by
  cases b
  · exact hc
  · exact hf

/-- A change of one channel restarts no zone of the Edge logic where the change of that channel restarts none. -/
theorem noRestart_modChan {x : SafeChan} {edge : Bool} {f : SafeChan → SafeChan} {c : Chip}
    (hc : NoRestart x c.safe.edge) (hf : edge = true → NoRestart c.safe.edge (f c.safe.edge)) :
    NoRestart x (c.modChan edge f).safe.edge := by
  cases edge
  · exact hc
  · exact hc.trans (hf rfl)

/-! ### Trips, faults and evaluation of the zones -/

/-- A transition of a zone that runs, to whatever state. -/
theorem zoneGo_noRestart_of_runs {x : SafeChan} {edge : Bool} {k : Nat} (st : BitVec 3) (cause : BitVec 5) {c : Chip}
    (hrun : ZoneRuns ((c.chan edge).zone k)) (hc : NoRestart x c.safe.edge) :
    NoRestart x (c.zoneGo edge k st cause).safe.edge := by
  unfold Chip.zoneGo
  refine noRestart_modChan hc fun he => noRestart_setZone fun _ => ?_
  subst he
  exact hrun

/-- A transition out of GRANT and DEMAND. -/
theorem zoneGo_noRestart {x : SafeChan} (edge : Bool) (k : Nat) {st : BitVec 3} (cause : BitVec 5) {c : Chip}
    (hst : ¬ (st = zGRANT ∨ st = zDEMAND)) (hc : NoRestart x c.safe.edge) :
    NoRestart x (c.zoneGo edge k st cause).safe.edge := by
  unfold Chip.zoneGo
  exact noRestart_modChan hc fun _ => noRestart_setZone fun hz => absurd hz hst

theorem zoneTrip_noRestart {x : SafeChan} (edge : Bool) (k : Nat) (cause : BitVec 5) {c : Chip}
    (hc : NoRestart x c.safe.edge) : NoRestart x (c.zoneTrip edge k cause).safe.edge := by
  simp only [Chip.zoneTrip, zoneEvt_edge, zoneCount_edge]
  exact zoneGo_noRestart edge k cause (by decide) hc

theorem zoneFault_noRestart {x : SafeChan} (edge : Bool) (k : Nat) (cause : BitVec 5) (second : Bool) {c : Chip}
    (hc : NoRestart x c.safe.edge) : NoRestart x (c.zoneFault edge k cause second).safe.edge := by
  unfold Chip.zoneFault
  dsimp only
  split
  · exact hc
  · have hd := noRestart_modChan (edge := edge) hc fun he => noRestart_setZone (k := k)
      (z := { (c.chan edge).zone k with
        flt := ((c.chan edge).zone k).flt ||| pairBit second
        openA := ((c.chan edge).zone k).openA &&& ~~~ pairBit second
        openB := ((c.chan edge).zone k).openB &&& ~~~ pairBit second }) (fun hz => by subst he; exact hz)
    split
    · exact hd
    · simp only [zoneEvt_edge, zoneCount_edge]
      exact zoneGo_noRestart edge k cause (by decide) hd

theorem zoneStep_noRestart {x : SafeChan} (edge : Bool) (k : Nat) {c : Chip} (hc : NoRestart x c.safe.edge) :
    NoRestart x (c.zoneStep edge k).safe.edge := by
  unfold Chip.zoneStep
  dsimp only
  split
  · exact hc
  · next hrun =>
    have hruns : ZoneRuns ((c.chan edge).zone k) := by
      by_contra hz
      exact hrun (not_or.mp hz)
    split
    · exact zoneTrip_noRestart edge k _ hc
    · split
      · split
        · exact hc
        · simp only [zoneEvt_edge, zoneCount_edge]
          exact zoneGo_noRestart_of_runs _ _ hruns hc
      · split
        · rw [zoneEvt_edge]
          exact zoneGo_noRestart_of_runs _ _ hruns hc
        · exact hc

theorem safeEval_noRestart {x : SafeChan} {c : Chip} (hc : NoRestart x c.safe.edge) :
    NoRestart x c.safeEval.safe.edge := by
  unfold Chip.safeEval
  exact noRestart_each (fun _ _ h => zoneStep_noRestart _ _ h) zones8 hc

theorem latchGlobal_noRestart {x : SafeChan} (g : Nat) (arg1 : W32) {c : Chip} (hc : NoRestart x c.safe.edge) :
    NoRestart x (c.latchGlobal g arg1).safe.edge := by
  unfold Chip.latchGlobal
  split
  · exact hc
  · dsimp only
    rw [raise_safe]
    refine noRestart_each (fun p c h => ?_) zones8 hc
    split
    · exact h
    · rw [zoneCount_edge]
      exact zoneGo_noRestart _ _ _ (by decide) h

theorem stuckFound_noRestart {x : SafeChan} (bits : W8) {c : Chip} (hc : NoRestart x c.safe.edge) :
    NoRestart x (c.stuckFound bits).safe.edge := by
  unfold Chip.stuckFound
  refine noRestart_each (fun i c h => ?_) _ hc
  dsimp only
  split
  · exact h
  · split
    · rw [raise_safe]; exact h
    · exact latchGlobal_noRestart _ _ h

theorem tripZones_noRestart {x : SafeChan} (map : Nat) (cause : BitVec 5) {c : Chip} (hc : NoRestart x c.safe.edge) :
    NoRestart x (c.tripZones map cause).safe.edge := by
  unfold Chip.tripZones
  refine noRestart_each (fun p c h => ?_) _ hc
  dsimp only
  split
  · exact zoneTrip_noRestart p.1 p.2 cause h
  · exact h

theorem pulseCheck_noRestart {x : SafeChan} (edge b : Bool) (fell : W16) {c : Chip} (hc : NoRestart x c.safe.edge) :
    NoRestart x (c.pulseCheck edge b fell).safe.edge := by
  unfold Chip.pulseCheck
  split
  · exact hc
  · refine noRestart_each (fun m c h => zoneFault_noRestart _ _ _ _ h) _ (noRestart_modChan hc fun _ => ?_)
    exact noRestart_of_zones (y := c.safe.edge) (by cases b <;> rfl) (noRestart_refl _)

/-! ### The configuration switch and the start of the channels -/

theorem swAdopt_noRestart {x : SafeChan} (w : W16) {c : Chip} (hc : NoRestart x c.safe.edge) :
    NoRestart x (c.swAdopt w).safe.edge := by
  unfold Chip.swAdopt
  exact noRestart_each (fun _ _ h => zoneGo_noRestart _ _ _ (by decide) h) _ hc

theorem switchRead_noRestart {x : SafeChan} (start : Bool) (sf edge : W16) {c : Chip} (hc : NoRestart x c.safe.edge) :
    NoRestart x (c.switchRead start sf edge).safe.edge := by
  have latch : ∀ {b g} {d : Chip}, NoRestart x d.safe.edge → NoRestart x (d.when b (Chip.latchGlobal g 0)).safe.edge
      :=
    fun h => noRestart_when h (latchGlobal_noRestart _ _ h)
  unfold Chip.switchRead
  extract_lets c₁ c₂ c₃
  have h₃ : NoRestart x c₃.safe.edge := latch (latch (noRestart_of_zones (y := c.safe.edge) rfl hc))
  clear_value c₃
  split
  · exact latch h₃
  · exact noRestart_when h₃ (swAdopt_noRestart _ h₃)

/-- The zones begin in START. -/
theorem safeStart_noRestart (x : SafeChan) (sf edge : W16) (bad : W8) (c : Chip) :
    NoRestart x (c.safeStart sf edge bad).safe.edge := by
  unfold Chip.safeStart
  refine stuckFound_noRestart bad (switchRead_noRestart true sf edge ?_)
  rw [modSafe_safe]
  exact noRestart_of_begun rfl

/-! ### Safe connections -/

theorem escLost_noRestart {x : SafeChan} (i : Nat) (reason : BitVec 5) {c : Chip} (hc : NoRestart x c.safe.edge) :
    NoRestart x (c.escLost i reason).safe.edge := by
  unfold Chip.escLost
  refine safeEval_noRestart ?_
  rw [raise_safe, modConn_edge]
  exact hc

theorem escAccept_noRestart {x : SafeChan} (i : Nat) (f : List W8) (zero : Bool) {c : Chip}
    (hc : NoRestart x c.safe.edge) : NoRestart x (c.escAccept i f zero).safe.edge := by
  unfold Chip.escAccept
  extract_lets up d
  refine safeEval_noRestart ?_
  simp only [d, when_edge, escNext_edge, raise_safe, modConn_edge, ite_self]
  exact hc

theorem escDrop_noRestart {x : SafeChan} (i : Nat) (reason : BitVec 5) {c : Chip} (hc : NoRestart x c.safe.edge) :
    NoRestart x (c.escDrop i reason).safe.edge := by
  unfold Chip.escDrop
  split
  · exact hc
  · exact escLost_noRestart i reason hc

theorem escRx_noRestart {x : SafeChan} (i : Nat) (f : List W8) {c : Chip} (hc : NoRestart x c.safe.edge) :
    NoRestart x (c.escRx i f).safe.edge := by
  have mod : ∀ g : Conn → Conn, NoRestart x (c.modConn i g).safe.edge := fun g => by rw [modConn_edge]; exact hc
  have drop : ∀ reason (g : Conn → Conn), NoRestart x ((c.modConn i g).escDrop i reason).safe.edge :=
    fun reason g => escDrop_noRestart i reason (mod g)
  unfold Chip.escRx
  extract_lets conn can frame ty wd fit recent counted seq data echo known
  refine noRestart_ite hc (noRestart_ite (mod _) (noRestart_ite
    (noRestart_ite (escDrop_noRestart i 2 (mod _)) (mod _)) (noRestart_ite (mod _) (noRestart_ite (drop 3 _)
    (noRestart_ite (mod _) (noRestart_ite (drop 4 _) (noRestart_ite hc ?_)))))))
  exact noRestart_ite (escAccept_noRestart i _ _ hc) (noRestart_ite (escAccept_noRestart i _ _ hc) (drop 5 _))

theorem escAdopt_noRestart {x : SafeChan} {c : Chip} (hc : NoRestart x c.safe.edge) :
    NoRestart x c.escAdopt.safe.edge := by
  unfold Chip.escAdopt
  refine noRestart_each (fun i c h => safeEval_noRestart ?_) _ hc
  rw [escStart_edge, modConn_edge]
  split
  · exact h
  · refine tripZones_noRestart _ _ ?_
    rw [raise_safe, modConn_edge]
    exact h

theorem postConns_noRestart {x : SafeChan} {c : Chip} (hc : NoRestart x c.safe.edge) :
    NoRestart x c.postConns.safe.edge := by
  unfold Chip.postConns
  refine noRestart_each (fun i c h => ?_) _ hc
  dsimp only
  split
  · split
    · exact safeEval_noRestart (by rw [modConn_edge]; exact h)
    · exact h
  · split
    · exact safeEval_noRestart (by rw [escStart_edge]; exact h)
    · exact h

theorem postChange_noRestart {x : SafeChan} (old : BitVec 18) {c : Chip} (hc : NoRestart x c.safe.edge) :
    NoRestart x (c.postChange old).safe.edge := by
  unfold Chip.postChange
  split
  · exact hc
  · exact postConns_noRestart (by rw [postRecord_edge]; exact hc)

end Sys2Proof.Machine
end

section
/-! No command, no word written in the host window and no start restarts a zone of the Edge logic (R296). A command
leaves that logic as it is; a commit reaches it by the connections of the safe channel. -/

namespace Sys2Proof.Machine

open Sys2Proof Sys2Proof.Claims

/-! ### Commands -/

theorem cmdRows_edge : ∀ x ∈ cmdRows, ∀ r c, (x.fn r c).1.safe.edge = c.safe.edge := by
  simp only [cmdRows, List.cons_append, List.nil_append, List.forall_mem_cons, List.not_mem_nil, false_imp_iff,
    implies_true, and_true]
  exact ⟨cmdSysModeSet_edge, cmdSysQuarClr_edge, cmdSysRestart_edge, cmdHoldupTest_edge, cmdNop_edge,
    cmdTicketCancel_edge, cmdTapRefNow_edge, cmdTapChainReset_edge, cmdTapGlitchClr_edge, cmdQeRestart_edge,
    cmdQeCntClr_edge, cmdQeTrace_edge, cmdQeImgInstall_edge, cmdQeImgRemove_edge, cmdQeTapRecord_edge,
    cmdBillClose_edge, cmdBillSessClose_edge, cmdBillZero_edge, cmdBillLpRead_edge, cmdTariffSchedule_edge,
    cmdTariffUnschedule_edge, cmdTariffCopy_edge, cmdTimeAdjust_edge, cmdTimeSet_edge, cmdEvtRead_edge,
    cmdEvtCntClr_edge, cmdLedgerRead_edge, cmdLedgerAck_edge, cmdFerryTest_edge, cmdDispTest_edge,
    cmdBaySignal_edge, cmdBayRestart_edge, cmdBayTripClr_edge, cmdBayImgInstall_edge, cmdBayImgRemove_edge,
    cmdDrvClr_edge, cmdDrvReclaim_edge, cmdDrvTestNow_edge, cmdLinkPtRead_edge, cmdLinkPtWrite_edge,
    cmdLinkXfer_edge, cmdLinkCntClr_edge, cmdKeyChallenge_edge, cmdKeyLogin_edge, cmdKeyLogout_edge,
    cmdKeyPasswd_edge, cmdKeyAcctSet_edge, cmdKeyUpdate_edge, cmdKeyReplace_edge, cmdKeyInvalidate_edge,
    cmdKeyDerive_edge, cmdKeyLcSet_edge, cmdUpdStage_edge, cmdUpdChunk_edge, cmdUpdActivate_edge, cmdUpdRevert_edge,
    cmdUpdDiscard_edge, cmdPairSwitch_edge⟩

theorem cmdFind_edge {code : Nat} {x : CmdRow} (h : cmdFind code = some x) (r : CmdReq) (c : Chip) :
    (x.fn r c).1.safe.edge = c.safe.edge := cmdRows_edge x (List.mem_of_find?_eq_some h) r c

/-- A row whose command keeps the Edge logic, or no row. -/
theorem cmdCode_edge {x : Option CmdRow} (hx : ∀ y, x = some y → ∀ r c, (y.fn r c).1.safe.edge = c.safe.edge)
    (code : Nat) (r : CmdReq) (c : Chip) : (c.cmdCode x code r).safe.edge = c.safe.edge := by
  unfold Chip.cmdCode
  dsimp only
  rw [ite_edge, modMaster_safe, acknowledge_edge, keyBufClear_edge]
  cases x with
  | none => exact ite_self _
  | some y => rw [command_edge (hx y rfl), ite_self]

theorem writeCode_edge {x : CmdRow} (hx : ∀ r c, (x.fn r c).1.safe.edge = c.safe.edge) (r : CmdReq) (c : Chip) :
    (Chip.writeCode x r c).safe.edge = c.safe.edge := by
  unfold Chip.writeCode
  dsimp only
  rw [ite_edge, ite_edge, bridgeTimeout_edge, cmdCode_edge (fun y hy => Option.some.inj hy ▸ hx), modMaster_safe,
    ite_self, ite_self]

theorem codeWrite_edge (m : Master5) (v : W32) (c : Chip) : (c.codeWrite m v).safe.edge = c.safe.edge := by
  unfold Chip.codeWrite
  exact cmdCode_edge (fun y hy => cmdFind_edge hy) ..

/-! ### Commits -/

theorem cgEffect_noRestart {x : SafeChan} (g : Nat) (old : Nat → W32) (ws : List (Nat × W32)) {c : Chip}
    (hc : NoRestart x c.safe.edge) : NoRestart x (c.cgEffect g old ws).safe.edge := by
  unfold Chip.cgEffect
  split
  · exact postChange_noRestart _ hc
  · rw [schedChange_edge, lpChange_edge]; exact hc
  · rw [latchCg5_edge]; exact hc
  · rw [bayChange_edge]; exact hc
  · rw [plateKeys_edge, modLink_safe]; exact hc
  · rw [netFollow_edge]; exact escAdopt_noRestart hc
  · rw [timeChange_edge]; exact hc
  · exact noRestart_ite hc (by rw [pairReset_edge]; exact hc)
  · exact hc

theorem commitNow_noRestart {x : SafeChan} (m g : Nat) (ws : List (Nat × W32)) {c : Chip}
    (hc : NoRestart x c.safe.edge) : NoRestart x (c.commitNow m g ws).safe.edge := by
  unfold Chip.commitNow
  dsimp only
  rw [commitDone_edge, cfgAnswer_edge]
  refine cgEffect_noRestart g _ ws ?_
  rw [discardShadow_edge, putLive_edge, modCfg_safe]
  exact hc

theorem cfgCommit_noRestart {x : SafeChan} (m g : Nat) {c : Chip} (hc : NoRestart x c.safe.edge) :
    NoRestart x (c.cfgCommit m g).safe.edge := by
  have answer : ∀ st fail, NoRestart x ((c.cfgAnswer m g st 0 fail).commitDone m).safe.edge := fun st fail => by
    rw [commitDone_edge, cfgAnswer_edge]; exact hc
  unfold Chip.cfgCommit
  split
  · exact answer stRANGE 0
  · split
    · exact answer _ 0
    · split
      · exact answer stRANGE _
      · dsimp only
        refine noRestart_ite (answer stINTEGRITY 0) (noRestart_ite ?_ (commitNow_noRestart m g _ ?_))
        · rw [commitLegal_edge, writeGen_edge]; exact hc
        · rw [writeGen_edge]; exact hc

theorem commitWrite_noRestart {x : SafeChan} (m : Nat) (v : W32) {c : Chip} (hc : NoRestart x c.safe.edge) :
    NoRestart x (c.commitWrite m v).safe.edge := by
  unfold Chip.commitWrite
  refine noRestart_ite (cfgCommit_noRestart m _ hc) (noRestart_ite ?_ ?_)
  · rw [cfgDiscard_edge]; exact hc
  · rw [cfgAnswer_edge]; exact hc

/-! ### The host window -/

theorem plainWrite_noRestart {x : SafeChan} (m : Master5) (a : Nat) (v : W32) {c : Chip}
    (hc : NoRestart x c.safe.edge) : NoRestart x (c.plainWrite m a v).safe.edge := by
  unfold Chip.plainWrite
  dsimp only
  split
  case h_7 => rw [codeWrite_edge]; exact hc
  case h_9 => exact commitWrite_noRestart _ v hc
  case h_14 => split <;> exact hc
  all_goals exact hc

theorem regWrite_noRestart {x : SafeChan} (m : Master5) (a : Nat) (v : W32) {c : Chip}
    (hc : NoRestart x c.safe.edge) : NoRestart x (c.regWrite m a v).1.safe.edge := by
  have denied : NoRestart x (c.denied m.val a).safe.edge := by rw [denied_edge]; exact hc
  unfold Chip.regWrite
  extract_lets n
  split
  · rw [shadowWrite_edge]; exact hc
  · split
    · exact denied
    · split
      · rw [landWrite_edge]; exact hc
      · rw [ferryCtl_edge]; exact hc
      · dsimp only
        rw [drvCmdWrite_edge]; exact hc
      · split
        · exact denied
        · split
          · split
            · exact denied
            · dsimp only
              rw [modTariff_safe]; exact hc
          · exact plainWrite_noRestart m a v hc

theorem writeWord_noRestart {x : SafeChan} (m : Master5) (a : Nat) (v : W32) {c : Chip}
    (hc : NoRestart x c.safe.edge) : NoRestart x (c.writeWord m a v).1.safe.edge := by
  unfold Chip.writeWord
  dsimp only
  split
  · exact hc
  · split
    · exact hc
    · split
      · rw [bridgeTimeout_edge]; exact hc
      · split
        · rw [denied_edge]; exact hc
        · exact regWrite_noRestart m a v hc

theorem frame_noRestart {x : SafeChan} (op : W8) (a : BitVec 24) (d : W32) (crc : W8) {c : Chip}
    (hc : NoRestart x c.safe.edge) : NoRestart x (c.frame op a d crc).safe.edge := by
  have answer : ∀ r, NoRestart x (c.answer r).safe.edge := fun r => by rw [answer_edge]; exact hc
  unfold Chip.frame
  dsimp only
  refine noRestart_ite hc (noRestart_ite ?_ (noRestart_ite (noRestart_ite (answer _) (noRestart_ite (answer _) ?_))
    (answer _)))
  · rw [answer_edge, readWord_edge]; exact hc
  · rw [answer_edge]; exact writeWord_noRestart 0 _ d hc

theorem put1_noRestart {x : SafeChan} (m : Master5) (a : Nat) (v : W32) {c : Chip} (hc : NoRestart x c.safe.edge) :
    NoRestart x (c.put1 m a v).safe.edge := by
  unfold Chip.put1
  exact noRestart_ite (writeWord_noRestart m a v hc) hc

theorem yhpWrites_noRestart {x : SafeChan} (m : Master5) (ok : Bool) (l : List W32) {c : Chip}
    (hc : NoRestart x c.safe.edge) : NoRestart x (Chip.yhpWrites m ok l c).1.safe.edge := by
  induction ok, l, c using Chip.yhpWrites.induct (m := m) with
  | case1 ok a v t c hok ih =>
    unfold Chip.yhpWrites
    rw [if_pos hok]
    exact ih hc
  | case2 ok a v t c hok r ih =>
    unfold Chip.yhpWrites
    rw [if_neg hok]
    exact ih (writeWord_noRestart m _ v hc)
  | case3 l ok c h =>
    unfold Chip.yhpWrites
    split
    · exact absurd rfl (h _ _ _)
    · exact hc

theorem yhpCmd_noRestart {x : SafeChan} (m : Master5) (p : List W32) {c : Chip} (hc : NoRestart x c.safe.edge) :
    NoRestart x (c.yhpCmd m p).1.safe.edge := by
  have put : ∀ (a i : Nat) {d : Chip}, NoRestart x d.safe.edge →
      NoRestart x (d.writeWord m a (p.getD i 0)).1.safe.edge := fun a i _ hd => writeWord_noRestart m a _ hd
  have all := put 0x20010 0 (put 0x2000C 4 (put 0x20008 3 (put 0x20004 2 (put 0x20000 1 hc))))
  unfold Chip.yhpCmd
  dsimp only
  split
  · rw [bridgeTimeout_edge]; exact all
  · exact all

theorem yhpIn_noRestart {x : SafeChan} (s : Fin 4) (msg : YhpIn) {c : Chip} (hc : NoRestart x c.safe.edge) :
    NoRestart x (c.yhpIn s msg).safe.edge := by
  unfold Chip.yhpIn
  dsimp only
  refine noRestart_ite hc (noRestart_ite ?_ (noRestart_ite ?_ (noRestart_ite ?_ (noRestart_ite ?_ ?_))))
  · rw [yhpReply_edge, yhpReads_edge]; exact hc
  · rw [yhpReply_edge]; exact hc
  · rw [yhpReply_edge]; exact yhpWrites_noRestart _ true _ hc
  · rw [yhpReply_edge]; exact yhpCmd_noRestart _ _ hc
  · rw [closeConn_edge]; exact hc

/-! ### The start -/

theorem startIslands_noRestart (x : SafeChan) (p : PowerOn) (c : Chip) :
    NoRestart x (c.startIslands p).safe.edge := by
  unfold Chip.startIslands
  extract_lets up c₁ c₂ c₃ c₄
  have h₃ : NoRestart x c₃.safe.edge := safeStart_noRestart x _ _ _ c₂
  have h₄ : NoRestart x c₄.safe.edge := by
    simp only [c₄, setRdy_edge, drvFailFrom_edge]
    exact h₃
  clear_value c₄
  refine noRestart_ite ?_ (noRestart_when h₄ ?_)
  · rw [secStart_edge, setRdy_edge]; exact h₄
  · rw [zeroise2_edge]; exact h₄

theorem startSv_noRestart {x : SafeChan} (p : PowerOn) {c : Chip} (hc : NoRestart x c.safe.edge) :
    NoRestart x (c.startSv p).safe.edge := by
  unfold Chip.startSv
  extract_lets c₁ c₂
  have h₂ : c₂.safe.edge = c.safe.edge := by
    simp only [c₂, c₁, ite_edge, svUp_edge, loadSettings_edge, bootSelect_edge, ite_self]
  refine escAdopt_noRestart ?_
  rw [ptpRestart_edge, setRdy_edge, h₂]
  exact hc

theorem powerUp_noRestart (p : PowerOn) (c : Chip) : NoRestart c.safe.edge (c.powerUp p).safe.edge := by
  unfold Chip.powerUp
  split
  · exact noRestart_refl _
  · extract_lets first cause c₁ legal x₁ c₂ x₂ r c₃ c₄ sw c₅ closes counts c₆ c₇ c₈ c₉ c₁₀ c₁₁
    have h₅ : NoRestart c.safe.edge c₅.safe.edge := by
      simp only [c₅, coldGroups_edge]
      exact startSv_noRestart p (startIslands_noRestart _ p c₄)
    have h₆ : c₆.safe.edge = c₅.safe.edge := by
      simp only [c₆, ite_edge, lateLegal_edge, outageRecords_edge, ite_self]
    clear_value c₅ c₆ closes counts sw
    have h₁₁ : c₁₁.safe.edge = c₆.safe.edge := by
      simp only [c₁₁, c₁₀, c₉, c₈, c₇, when_edge, ite_edge, secRecords_edge, cellEmpty_edge, swRecord_edge,
        openInterval_edge, deferred_edge, startEngines_edge, journalPut_edge, setRdy_edge, ite_self]
    clear_value c₁₁
    rw [enterHeld_edge, startBay_edge, h₁₁, h₆]
    exact h₅

end Sys2Proof.Machine
end

section
/-! The instructions whose row is written out at its place, and the crossing commands: none but the acknowledgement
restarts a zone of the Edge logic (R296). -/

namespace Sys2Proof.Machine

open Sys2Proof Sys2Proof.Claims

/-- No step by the row of an instruction restarts a zone of the Edge logic. -/
def RestartsNone (row : State → Host.Outcome State Fault Refusal) : Prop :=
  ∀ s t, row s = .next t → NoRestart s.chip.safe.edge t.chip.safe.edge

section
variable {row : State → Host.Outcome State Fault Refusal}

theorem restartsNone_of {f : Chip → Chip} (he : ∀ s, row s = run f s)
    (hf : ∀ c, NoRestart c.safe.edge (f c).safe.edge) : RestartsNone row := by
  intro s t ht
  rw [he, run_eq] at ht
  have hd := Host.Outcome.next.inj ht
  have hc := hf s.chip
  rw [← settle_edge s.chip (f s.chip)] at hc
  clear ht
  generalize Chip.settle s.chip (f s.chip) = d at hc hd
  rw [← hd]
  exact hc

theorem restartsNone_of_edge {f : Chip → Chip} (he : ∀ s, row s = run f s)
    (hf : ∀ c, (f c).safe.edge = c.safe.edge) : RestartsNone row :=
  restartsNone_of he fun c => by rw [hf]; exact noRestart_refl _

theorem restartsNone_of_command {x : CmdRow} {r : CmdReq} (he : ∀ s, row s = run (Chip.writeCode x r) s)
    (hx : ∀ r c, (x.fn r c).1.safe.edge = c.safe.edge) : RestartsNone row :=
  restartsNone_of_edge he (writeCode_edge hx r)

theorem restartsNone_of_put {m : Master5} {a : Nat} {v : W32} (he : ∀ s, row s = run (Chip.put1 m a v) s) :
    RestartsNone row :=
  restartsNone_of he fun _ => put1_noRestart m a v (noRestart_refl _)

end

/-! ### Crossing commands -/

theorem crossRow_edge {x : CrossRow} (hx : ∀ b was c, (x.act b was c).safe.edge = c.safe.edge) (frame : List W8)
    (c : Chip) : (x.run frame c).safe.edge = c.safe.edge := by
  unfold CrossRow.run Chip.plateFrame
  rw [ite_edge]
  simp only [hx, modPlate_edge, holdEnd_edge, ite_self]

theorem crossRows_edge : ∀ x ∈ crossOther :: crossRows, ∀ b was c, (x.act b was c).safe.edge = c.safe.edge := by
  simp only [crossRows, List.forall_mem_cons, List.not_mem_nil, false_imp_iff, implies_true, and_true]
  exact ⟨fun _ _ _ => plateSt_edge .., fun _ _ => plateReq_edge, fun _ _ => plateSel_edge _,
    fun _ _ => plateHalt_edge, fun _ _ => plateQuiet_edge _, fun _ _ _ => plateSt_edge .., fun _ _ => plateRead_edge _,
    fun _ _ => plateWrite_edge _, fun _ _ => plateAuth1_edge _, plateAuth2_edge, plateAuth3_edge, plateSread_edge,
    plateSwrite_edge⟩

theorem crossing_restartsNone {x : CrossRow} (hx : ∀ b was c, (x.act b was c).safe.edge = c.safe.edge)
    (frame : List W8) : RestartsNone (crossing x frame) := by
  unfold crossing
  refine restartsNone_of_edge (fun _ => rfl) fun c => ?_
  split
  · exact crossRow_edge hx frame c
  · refine crossRow_edge (crossRows_edge _ ?_) frame c
    cases h : crossRows.find? (fun y => frame.head? == some y.code) with
    | none => exact List.mem_cons_self
    | some y => exact List.mem_cons_of_mem _ (List.mem_of_find?_eq_some h)

/-! ### The safety subsystem -/

theorem cycle_runs {x : SafeChan} {k : Nat} {z : Zone} : ZoneRuns (Zone.cycle x k z) ↔ ZoneRuns z := Iff.rfl

theorem hands_runs {x : SafeChan} {k now : Nat} {z : Zone} : ZoneRuns (Zone.hands x k now z) ↔ ZoneRuns z := Iff.rfl

theorem safetyInputChange_restartsNone (sf edge : W16) : RestartsNone (execSafetyInputChange sf edge) := by
  refine restartsNone_of (fun _ => rfl) fun c => ?_
  dsimp only
  refine safeEval_noRestart (noRestart_each ?_ zones8 ?_)
  · intro p d hd
    refine noRestart_modChan hd fun _ => noRestart_setZone fun hz => ?_
    rw [cycle_runs] at hz
    split at hz
    · rwa [hands_runs] at hz
    · exact hz
  · rw [modSafe_safe]
    exact noRestart_of_zones (y := c.safe.edge) rfl (noRestart_refl _)

theorem safetyTestPulse_restartsNone (b : Bool) (fell : Fell) (ok : Bool) :
    RestartsNone (execSafetyTestPulse b fell ok) := by
  refine restartsNone_of (fun _ => rfl) fun c => ?_
  have counted : ∀ f : Safe → Safe, (f c.safe).edge = c.safe.edge → NoRestart c.safe.edge (c.modSafe f).safe.edge :=
    fun f hf => by rw [modSafe_safe, hf]; exact noRestart_refl _
  refine noRestart_ite (latchGlobal_noRestart _ _ (counted _ ?_))
    (pulseCheck_noRestart _ _ _ (pulseCheck_noRestart _ _ _ (counted _ ?_)))
  · cases b <;> rfl
  · cases b <;> rfl

theorem discrepancyTimeout_restartsNone (z : Fin 4) (second : Bool) :
    RestartsNone (execDiscrepancyTimeout z second) :=
  restartsNone_of (fun _ => rfl) fun _ =>
    noRestart_each (fun _ _ h => noRestart_ite (zoneFault_noRestart _ _ _ _ h) h) _ (noRestart_refl _)

theorem crossLinkExchange_restartsNone : RestartsNone execCrossLinkExchange := by
  refine restartsNone_of (fun _ => rfl) fun c => noRestart_ite (noRestart_refl _) ?_
  have apart : ∀ (b : Bool) (d : Chip), d.safe.edge = c.safe.edge →
      NoRestart c.safe.edge (d.when b (Chip.latchGlobal gCHANNEL 0)).safe.edge := fun b d hd =>
    have h : NoRestart c.safe.edge d.safe.edge := hd ▸ noRestart_refl _
    noRestart_when h (latchGlobal_noRestart _ _ h)
  exact apart _ _ (by rw [setRdy_edge, modSafe_safe])

theorem sfSilent_restartsNone : RestartsNone execSfSilent :=
  restartsNone_of (fun _ => rfl) fun c => noRestart_ite (noRestart_refl _)
    (latchGlobal_noRestart _ _ (by rw [setRdy_edge, modSafe_safe]; exact noRestart_refl _))

theorem sfReload_restartsNone : RestartsNone execSfReload := by
  refine restartsNone_of_edge (fun _ => rfl) fun c => ?_
  dsimp only
  simp only [ite_edge, each_edge, escStart_edge, implies_true, modSafe_safe, ite_self]

theorem safetySwitchRead_restartsNone (sf edge : W16) : RestartsNone (execSafetySwitchRead sf edge) :=
  restartsNone_of (fun _ => rfl) fun _ =>
    noRestart_ite (noRestart_refl _) (switchRead_noRestart _ _ _ (noRestart_refl _))

theorem safeAckStuck_restartsNone : RestartsNone execSafeAckStuck := by
  refine restartsNone_of_edge (fun _ => rfl) fun c => ?_
  simp only [ite_edge, raise_safe, modSafe_safe, ite_self]

theorem rdcTrip_restartsNone (k : Fin 4) (ac dc : Bool) : RestartsNone (execRdcTrip k ac dc) := by
  refine restartsNone_of (fun _ => rfl) fun c => ?_
  extract_lets bit put
  refine safeEval_noRestart ?_
  rw [modSafe_safe]
  exact noRestart_refl _

theorem safetyDriveOffPulse_restartsNone (edge : Bool) (stuck : StuckSeen) :
    RestartsNone (execSafetyDriveOffPulse edge stuck) :=
  restartsNone_of (fun _ => rfl) fun _ =>
    noRestart_ite (noRestart_refl _) (stuckFound_noRestart _ (noRestart_refl _))

theorem sfTableCheck_restartsNone (bad : Bool) : RestartsNone (execSfTableCheck bad) :=
  restartsNone_of (fun _ => rfl) fun _ =>
    noRestart_ite (latchGlobal_noRestart _ _ (noRestart_refl _)) (noRestart_refl _)

theorem escWatchdog_restartsNone (i : Fin 16) : RestartsNone (execEscWatchdog i) :=
  restartsNone_of (fun _ => rfl) fun _ => noRestart_ite
    (escLost_noRestart _ _ (by rw [modConn_edge]; exact noRestart_refl _)) (noRestart_refl _)

theorem escRestart_restartsNone (i : Fin 16) : RestartsNone (execEscRestart i) := by
  refine restartsNone_of_edge (fun _ => rfl) fun c => ?_
  simp only [ite_edge, modConn_edge, escStart_edge, ite_self]

theorem canFrameRx_restartsNone (p : Fin 2) (id : W32) (data : List W8) (t : W32) :
    RestartsNone (execCanFrameRx p id data t) := by
  refine restartsNone_of (fun _ => rfl) fun c => noRestart_ite (noRestart_refl _) (noRestart_ite ?_ ?_)
  · split
    · exact escRx_noRestart _ _ (noRestart_refl _)
    · exact noRestart_refl _
  · rw [canKeep_edge]; exact noRestart_refl _

end Sys2Proof.Machine
end

section
/-! The remaining instructions whose row is written out at its place leave the Edge logic as it is. -/

namespace Sys2Proof.Machine

open Sys2Proof Sys2Proof.Claims

theorem hostFrameAbandoned_restartsNone : RestartsNone execHostFrameAbandoned := by
  refine restartsNone_of_edge (fun _ => rfl) fun c => ?_
  simp only [answer_edge, ite_edge, ite_self]

theorem hostPortEnable_restartsNone : RestartsNone execHostPortEnable := by
  refine restartsNone_of_edge (fun _ => rfl) fun c => ?_
  simp only [modHost_safe, ite_edge, ite_self]

theorem queuePush_restartsNone (q : Fin 8) : RestartsNone (execQueuePush q) := by
  refine restartsNone_of_edge (fun _ => rfl) fun c => ?_
  split
  · rfl
  · split
    · rfl
    · split
      · rfl
      · dsimp only
        simp only [holdRelease_edge, send_edge, when_edge, raise_safe, modFq_safe, ite_self]

theorem afeSample_restartsNone (k : Fin 8) (raw : Vector RawSample 16) (temp : Option W16) :
    RestartsNone (execAfeSample k raw temp) := by
  refine restartsNone_of_edge (fun _ => rfl) fun c => ?_
  simp only [sampleGroup_edge, tapRecord_edge, metrologyEnd_edge, ite_edge, ite_self]

theorem qeReloadDone_restartsNone (k : Fin 8) : RestartsNone (execQeReloadDone k) := by
  refine restartsNone_of_edge (fun _ => rfl) fun c => ?_
  simp only [reloadDone_edge, ite_edge, ite_self]

theorem progLoadDone_restartsNone (k : Fin 8) : RestartsNone (execProgLoadDone k) := by
  refine restartsNone_of_edge (fun _ => rfl) fun c => ?_
  simp only [progLoaded_edge, ite_edge, ite_self]

theorem identRoundStart_restartsNone (t : TapNo) : RestartsNone (execIdentRoundStart t) := by
  refine restartsNone_of_edge (fun _ => rfl) fun c => ?_
  simp only [askRound_edge, ite_edge, ite_self]

theorem spillPulseOnEnd_restartsNone (mp : MpNo) (slot : Fin 8) : RestartsNone (execSpillPulseOnEnd mp slot) := by
  refine restartsNone_of_edge (fun _ => rfl) fun c => ?_
  dsimp only
  split
  · split <;> simp only [drvCommand_edge, modSpill_edge]
  · rfl

theorem spillPulseOffEnd_restartsNone (mp : MpNo) (slot : Fin 8) : RestartsNone (execSpillPulseOffEnd mp slot) := by
  refine restartsNone_of_edge (fun _ => rfl) fun c => ?_
  simp only [modSpill_edge, ite_edge, ite_self]

theorem sessionOpenApply_restartsNone (mp : MpNo) : RestartsNone (execSessionOpenApply mp) := by
  refine restartsNone_of_edge (fun _ => rfl) fun c => ?_
  simp only [modBill_safe, ite_edge, ite_self]

theorem sessionCloseApply_restartsNone (mp : MpNo) : RestartsNone (execSessionCloseApply mp) := by
  refine restartsNone_of_edge (fun _ => rfl) fun c => ?_
  split
  · rfl
  · rw [when_edge, sessionEnd_edge, ite_self]

theorem cellMeasure_restartsNone (v : W8) : RestartsNone (execCellMeasure v) := by
  refine restartsNone_of_edge (fun _ => rfl) fun c => ?_
  simp only [when_edge, cellMeasured_edge, ite_self]

theorem memoryScrub_restartsNone : RestartsNone execMemoryScrub := by
  refine restartsNone_of_edge (fun _ => rfl) fun c => ?_
  simp only [modPower_safe]

theorem evtPersist_restartsNone : RestartsNone execEvtPersist := by
  refine restartsNone_of_edge (fun _ => rfl) fun c => ?_
  simp only [modEvt_safe, deliver_edge]

theorem evtArchiveCopy_restartsNone : RestartsNone execEvtArchiveCopy := by
  refine restartsNone_of_edge (fun _ => rfl) fun c => ?_
  simp only [modEvt_safe, ite_edge, ite_self]

theorem aoTamperSample_restartsNone (cover sealOpen lsw mesh : Bool) :
    RestartsNone (execAoTamperSample cover sealOpen lsw mesh) := by
  refine restartsNone_of_edge (fun _ => rfl) fun c => ?_
  simp only [aoSample_edge, when_edge, classA_edge, vendorEnd_edge, ite_self]

theorem ledgerSignatureTimer_restartsNone : RestartsNone execLedgerSignatureTimer := by
  refine restartsNone_of_edge (fun _ => rfl) fun c => ?_
  simp only [stageSig_edge]

theorem ledgerAppend_restartsNone : RestartsNone execLedgerAppend := by
  refine restartsNone_of_edge (fun _ => rfl) fun c => ?_
  simp only [ledgerPut_edge, ite_edge, ite_self]

theorem ledgerWriteFail_restartsNone : RestartsNone execLedgerWriteFail := by
  refine restartsNone_of_edge (fun _ => rfl) fun c => ?_
  simp only [tamperInst_safe]

theorem ferryParityEnd_restartsNone (q : Fin 8) : RestartsNone (execFerryParityEnd q) := by
  refine restartsNone_of_edge (fun _ => rfl) fun c => ?_
  simp only [modFq_safe, holdRelease_edge]

theorem canBusOff_restartsNone (p : Fin 2) : RestartsNone (execCanBusOff p) := by
  refine restartsNone_of_edge (fun _ => rfl) fun c => ?_
  simp only [modCan_edge, raise_safe, ite_edge, ite_self]

theorem bayLockstep_restartsNone : RestartsNone execBayLockstep := by
  refine restartsNone_of_edge (fun _ => rfl) fun c => ?_
  simp only [bayFault_edge, ite_edge, ite_self]

theorem modemPoll_restartsNone (status : Option ModemStatus) (frames : List ModemFrame) (sent : List W8) :
    RestartsNone (execModemPoll status frames sent) := by
  refine restartsNone_of_edge (fun _ => rfl) fun c => ?_
  split
  · rfl
  · dsimp only
    rw [ite_edge, modemPut_edge, modBay_safe, ite_self]

theorem modemFault_restartsNone : RestartsNone execModemFault := by
  refine restartsNone_of_edge (fun _ => rfl) fun c => ?_
  simp only [when_edge, v2gAbort_edge, modBay_safe, modemRelease_edge, raise_safe, ite_edge, ite_self]

theorem voutOverload_restartsNone (b : Bool) : RestartsNone (execVoutOverload b) := by
  refine restartsNone_of_edge (fun _ => rfl) fun c => ?_
  simp only [raise_safe]

theorem controllerLost_restartsNone : RestartsNone execControllerLost := by
  refine restartsNone_of_edge (fun _ => rfl) fun c => ?_
  simp only [controllerLost_edge, ite_edge, ite_self]

theorem drvClaim_restartsNone (dies : BitVec 12) (by_ : Option Master5) : RestartsNone (execDrvClaim dies by_) := by
  refine restartsNone_of_edge (fun _ => rfl) fun c => ?_
  split
  · rw [denied_edge]
  · exact each_edge _ (eq_true claimDie_edge) c

theorem lhInputChange_restartsNone (lh : W8) : RestartsNone (execLhInputChange lh) := by
  refine restartsNone_of_edge (fun _ => rfl) fun c => ?_
  simp only [modDrv_safe]

theorem crossingSessionTimeout_restartsNone : RestartsNone execCrossingSessionTimeout := by
  refine restartsNone_of_edge (fun _ => rfl) fun c => ?_
  simp only [plateSessEnd_edge, ite_edge, ite_self]

theorem classATamper_restartsNone (t : Fin 4) : RestartsNone (execClassATamper t) := by
  refine restartsNone_of_edge (fun _ => rfl) fun c => ?_
  simp only [classA_edge, ite_edge, ite_self]

theorem sessionTimeout_restartsNone (m : Master5) : RestartsNone (execSessionTimeout m) := by
  refine restartsNone_of_edge (fun _ => rfl) fun c => ?_
  simp only [endSession_edge, ite_edge, ite_self]

theorem lockoutEnd_restartsNone (a : Fin 16) : RestartsNone (execLockoutEnd a) := by
  refine restartsNone_of_edge (fun _ => rfl) fun c => ?_
  simp only [modAcct_edge]

theorem illegalInstruction_restartsNone (e : Exec) (w : W32) : RestartsNone (execIllegalInstruction e w) := by
  refine restartsNone_of_edge (fun _ => rfl) fun c => ?_
  simp only [pureI_edge, ite_edge, ite_self]

theorem vioChange_restartsNone (ok : Bool) : RestartsNone (execVioChange ok) := by
  refine restartsNone_of_edge (fun _ => rfl) fun c => ?_
  simp only [modHost_safe]

theorem servicePortAccess_restartsNone (debug : Bool) : RestartsNone (execServicePortAccess debug) := by
  refine restartsNone_of_edge (fun _ => rfl) fun c => ?_
  simp only [modKey_safe, tamperInst_safe, ite_edge, ite_self]

theorem canFrameTx_restartsNone (p : Fin 2) : RestartsNone (execCanFrameTx p) := by
  refine restartsNone_of_edge (fun _ => rfl) fun c => ?_
  simp only [modCan_edge, ite_edge, ite_self]

end Sys2Proof.Machine
end

section
/-! Every instruction but SAFE_ACK_EDGE, and with them the obligation O3. -/

namespace Sys2Proof.Machine

open Sys2Proof Sys2Proof.Claims

/-- The rows of the instruction set, one for one. -/
theorem exec_restartsNone : ∀ i : Instr, (∀ high, i ≠ .safeAckEdge high) → RestartsNone (exec i)
  | .hostFrame op addr data crc, _ =>
    restartsNone_of (row := execHostFrame op addr data crc) (fun _ => rfl)
      fun _ => frame_noRestart _ _ _ _ (noRestart_refl _)
  | .hostFrameAbandoned, _ => hostFrameAbandoned_restartsNone
  | .hostPortEnable, _ => hostPortEnable_restartsNone
  | .sysHintStatusWrite m v, _ => restartsNone_of_put (row := execSysHintStatusWrite m v) fun _ => rfl
  | .registerWrite m addr v, _ => restartsNone_of_put (row := execRegisterWrite m addr v) fun _ => rfl
  | .islandTimeout m addr write, _ =>
    restartsNone_of_edge (row := execIslandTimeout m addr write) (fun _ => rfl) (noAnswer_edge m addr.toNat write)
  | .yhpConnect client, _ => restartsNone_of_edge (row := execYhpConnect client) (fun _ => rfl) (connect_edge client)
  | .yhpConnectionClose sess, _ =>
    restartsNone_of_edge (row := execYhpConnectionClose sess) (fun _ => rfl) (closeConn_edge (sess.val + 1))
  | .yhpRead sess msg, _ =>
    restartsNone_of (row := execYhpRead sess msg) (fun _ => rfl) fun _ => yhpIn_noRestart _ _ (noRestart_refl _)
  | .yhpWrite sess msg, _ =>
    restartsNone_of (row := execYhpWrite sess msg) (fun _ => rfl) fun _ => yhpIn_noRestart _ _ (noRestart_refl _)
  | .yhpCommand sess msg, _ =>
    restartsNone_of (row := execYhpCommand sess msg) (fun _ => rfl) fun _ => yhpIn_noRestart _ _ (noRestart_refl _)
  | .queuePush q, _ => queuePush_restartsNone q
  | .landReqWrite m n v, _ => restartsNone_of_put (row := execLandReqWrite m n v) fun _ => rfl
  | .landFillComplete n, _ => restartsNone_of_edge (row := execLandFillComplete n) (fun _ => rfl) (fill_edge n.val)
  | .landD3Read m n, _ =>
    restartsNone_of_edge (row := execLandD3Read m n) (fun _ => rfl) (get1_edge m (0x1001C + 0x20 * n.val))
  | .cfgShadowWrite m addr v, _ => restartsNone_of_put (row := execCfgShadowWrite m addr v) fun _ => rfl
  | .cfgCommit m g, _ => restartsNone_of_put (row := execCfgCommit m g) fun _ => rfl
  | .cfgDiscard m g, _ => restartsNone_of_put (row := execCfgDiscard m g) fun _ => rfl
  | .legalChangeApply, _ => restartsNone_of_edge (row := execLegalChangeApply) (fun _ => rfl) legalApply_edge
  | .cfgCrcPass g bad, _ => restartsNone_of_edge (row := execCfgCrcPass g bad) (fun _ => rfl) (crcPass_edge g.val bad)
  | .cfgPersist g, _ => restartsNone_of_edge (row := execCfgPersist g) (fun _ => rfl) (cfgPersist_edge g.val)
  | .ticketCompletion t status result, _ =>
    restartsNone_of_edge (row := execTicketCompletion t status result) (fun _ => rfl) (opDone_edge t status result)
  | .nop r, _ => restartsNone_of_command (row := execNop r) (fun _ => rfl) cmdNop_edge
  | .ticketCancel r, _ => restartsNone_of_command (row := execTicketCancel r) (fun _ => rfl) cmdTicketCancel_edge
  | .sysModeSet r, _ => restartsNone_of_command (row := execSysModeSet r) (fun _ => rfl) cmdSysModeSet_edge
  | .sysQuarClr r, _ => restartsNone_of_command (row := execSysQuarClr r) (fun _ => rfl) cmdSysQuarClr_edge
  | .sysRestart r, _ => restartsNone_of_command (row := execSysRestart r) (fun _ => rfl) cmdSysRestart_edge
  | .holdupTest r, _ => restartsNone_of_command (row := execHoldupTest r) (fun _ => rfl) cmdHoldupTest_edge
  | .tapRefNow r, _ => restartsNone_of_command (row := execTapRefNow r) (fun _ => rfl) cmdTapRefNow_edge
  | .tapChainReset r, _ => restartsNone_of_command (row := execTapChainReset r) (fun _ => rfl) cmdTapChainReset_edge
  | .tapGlitchClr r, _ => restartsNone_of_command (row := execTapGlitchClr r) (fun _ => rfl) cmdTapGlitchClr_edge
  | .qeRestart r, _ => restartsNone_of_command (row := execQeRestart r) (fun _ => rfl) cmdQeRestart_edge
  | .qeCntClr r, _ => restartsNone_of_command (row := execQeCntClr r) (fun _ => rfl) cmdQeCntClr_edge
  | .qeTrace r, _ => restartsNone_of_command (row := execQeTrace r) (fun _ => rfl) cmdQeTrace_edge
  | .qeImgInstall r, _ => restartsNone_of_command (row := execQeImgInstall r) (fun _ => rfl) cmdQeImgInstall_edge
  | .qeImgRemove r, _ => restartsNone_of_command (row := execQeImgRemove r) (fun _ => rfl) cmdQeImgRemove_edge
  | .qeTapRecord r, _ => restartsNone_of_command (row := execQeTapRecord r) (fun _ => rfl) cmdQeTapRecord_edge
  | .tapRecordEnd k, _ => restartsNone_of_edge (row := execTapRecordEnd k) (fun _ => rfl) (recordEnd_edge k.val stOK)
  | .billClose r, _ => restartsNone_of_command (row := execBillClose r) (fun _ => rfl) cmdBillClose_edge
  | .billSessClose r, _ => restartsNone_of_command (row := execBillSessClose r) (fun _ => rfl) cmdBillSessClose_edge
  | .billZero r, _ => restartsNone_of_command (row := execBillZero r) (fun _ => rfl) cmdBillZero_edge
  | .billLpRead r, _ => restartsNone_of_command (row := execBillLpRead r) (fun _ => rfl) cmdBillLpRead_edge
  | .tariffSchedule r, _ =>
    restartsNone_of_command (row := execTariffSchedule r) (fun _ => rfl) cmdTariffSchedule_edge
  | .tariffUnschedule r, _ =>
    restartsNone_of_command (row := execTariffUnschedule r) (fun _ => rfl) cmdTariffUnschedule_edge
  | .tariffCopy r, _ => restartsNone_of_command (row := execTariffCopy r) (fun _ => rfl) cmdTariffCopy_edge
  | .timeAdjust r, _ => restartsNone_of_command (row := execTimeAdjust r) (fun _ => rfl) cmdTimeAdjust_edge
  | .timeSet r, _ => restartsNone_of_command (row := execTimeSet r) (fun _ => rfl) cmdTimeSet_edge
  | .evtRead r, _ => restartsNone_of_command (row := execEvtRead r) (fun _ => rfl) cmdEvtRead_edge
  | .evtCntClr r, _ => restartsNone_of_command (row := execEvtCntClr r) (fun _ => rfl) cmdEvtCntClr_edge
  | .ledgerRead r, _ => restartsNone_of_command (row := execLedgerRead r) (fun _ => rfl) cmdLedgerRead_edge
  | .ledgerAck r, _ => restartsNone_of_command (row := execLedgerAck r) (fun _ => rfl) cmdLedgerAck_edge
  | .ferryTest r, _ => restartsNone_of_command (row := execFerryTest r) (fun _ => rfl) cmdFerryTest_edge
  | .dispTest r, _ => restartsNone_of_command (row := execDispTest r) (fun _ => rfl) cmdDispTest_edge
  | .baySignal r, _ => restartsNone_of_command (row := execBaySignal r) (fun _ => rfl) cmdBaySignal_edge
  | .bayRestart r, _ => restartsNone_of_command (row := execBayRestart r) (fun _ => rfl) cmdBayRestart_edge
  | .bayTripClr r, _ => restartsNone_of_command (row := execBayTripClr r) (fun _ => rfl) cmdBayTripClr_edge
  | .bayImgInstall r, _ => restartsNone_of_command (row := execBayImgInstall r) (fun _ => rfl) cmdBayImgInstall_edge
  | .bayImgRemove r, _ => restartsNone_of_command (row := execBayImgRemove r) (fun _ => rfl) cmdBayImgRemove_edge
  | .drvClr r, _ => restartsNone_of_command (row := execDrvClr r) (fun _ => rfl) cmdDrvClr_edge
  | .drvReclaim r, _ => restartsNone_of_command (row := execDrvReclaim r) (fun _ => rfl) cmdDrvReclaim_edge
  | .drvTestNow r, _ => restartsNone_of_command (row := execDrvTestNow r) (fun _ => rfl) cmdDrvTestNow_edge
  | .linkPtRead r, _ => restartsNone_of_command (row := execLinkPtRead r) (fun _ => rfl) cmdLinkPtRead_edge
  | .linkPtWrite r, _ => restartsNone_of_command (row := execLinkPtWrite r) (fun _ => rfl) cmdLinkPtWrite_edge
  | .linkXfer r, _ => restartsNone_of_command (row := execLinkXfer r) (fun _ => rfl) cmdLinkXfer_edge
  | .linkCntClr r, _ => restartsNone_of_command (row := execLinkCntClr r) (fun _ => rfl) cmdLinkCntClr_edge
  | .keyChallenge r, _ => restartsNone_of_command (row := execKeyChallenge r) (fun _ => rfl) cmdKeyChallenge_edge
  | .keyLogin r, _ => restartsNone_of_command (row := execKeyLogin r) (fun _ => rfl) cmdKeyLogin_edge
  | .keyLogout r, _ => restartsNone_of_command (row := execKeyLogout r) (fun _ => rfl) cmdKeyLogout_edge
  | .keyPasswd r, _ => restartsNone_of_command (row := execKeyPasswd r) (fun _ => rfl) cmdKeyPasswd_edge
  | .keyAcctSet r, _ => restartsNone_of_command (row := execKeyAcctSet r) (fun _ => rfl) cmdKeyAcctSet_edge
  | .keyUpdate r, _ => restartsNone_of_command (row := execKeyUpdate r) (fun _ => rfl) cmdKeyUpdate_edge
  | .keyReplace r, _ => restartsNone_of_command (row := execKeyReplace r) (fun _ => rfl) cmdKeyReplace_edge
  | .keyInvalidate r, _ => restartsNone_of_command (row := execKeyInvalidate r) (fun _ => rfl) cmdKeyInvalidate_edge
  | .keyDerive r, _ => restartsNone_of_command (row := execKeyDerive r) (fun _ => rfl) cmdKeyDerive_edge
  | .keyLcSet r, _ => restartsNone_of_command (row := execKeyLcSet r) (fun _ => rfl) cmdKeyLcSet_edge
  | .updStage r, _ => restartsNone_of_command (row := execUpdStage r) (fun _ => rfl) cmdUpdStage_edge
  | .updChunk r, _ => restartsNone_of_command (row := execUpdChunk r) (fun _ => rfl) cmdUpdChunk_edge
  | .stagingTimeout t, _ => restartsNone_of_edge (row := execStagingTimeout t) (fun _ => rfl) (stagingTimeout_edge t)
  | .stagedImageExpiry t, _ =>
    restartsNone_of_edge (row := execStagedImageExpiry t) (fun _ => rfl) (stagedExpiry_edge t)
  | .updActivate r, _ => restartsNone_of_command (row := execUpdActivate r) (fun _ => rfl) cmdUpdActivate_edge
  | .updRevert r, _ => restartsNone_of_command (row := execUpdRevert r) (fun _ => rfl) cmdUpdRevert_edge
  | .updDiscard r, _ => restartsNone_of_command (row := execUpdDiscard r) (fun _ => rfl) cmdUpdDiscard_edge
  | .pairSwitch r, _ => restartsNone_of_command (row := execPairSwitch r) (fun _ => rfl) cmdPairSwitch_edge
  | .add e rd rs1 rs2, _ => restartsNone_of_edge (row := execAdd e rd rs1 rs2) (fun _ => rfl) (pureI_edge e _)
  | .sub e rd rs1 rs2, _ => restartsNone_of_edge (row := execSub e rd rs1 rs2) (fun _ => rfl) (pureI_edge e _)
  | .and e rd rs1 rs2, _ => restartsNone_of_edge (row := execAnd e rd rs1 rs2) (fun _ => rfl) (pureI_edge e _)
  | .or e rd rs1 rs2, _ => restartsNone_of_edge (row := execOr e rd rs1 rs2) (fun _ => rfl) (pureI_edge e _)
  | .xor e rd rs1 rs2, _ => restartsNone_of_edge (row := execXor e rd rs1 rs2) (fun _ => rfl) (pureI_edge e _)
  | .mul e rd rs1 rs2, _ => restartsNone_of_edge (row := execMul e rd rs1 rs2) (fun _ => rfl) (pureI_edge e _)
  | .mulh e rd rs1 rs2, _ => restartsNone_of_edge (row := execMulh e rd rs1 rs2) (fun _ => rfl) (pureI_edge e _)
  | .div e rd rs1 rs2, _ => restartsNone_of_edge (row := execDiv e rd rs1 rs2) (fun _ => rfl) (pureI_edge e _)
  | .rem e rd rs1 rs2, _ => restartsNone_of_edge (row := execRem e rd rs1 rs2) (fun _ => rfl) (pureI_edge e _)
  | .slt e rd rs1 rs2, _ => restartsNone_of_edge (row := execSlt e rd rs1 rs2) (fun _ => rfl) (pureI_edge e _)
  | .sltu e rd rs1 rs2, _ => restartsNone_of_edge (row := execSltu e rd rs1 rs2) (fun _ => rfl) (pureI_edge e _)
  | .min e rd rs1 rs2, _ => restartsNone_of_edge (row := execMin e rd rs1 rs2) (fun _ => rfl) (pureI_edge e _)
  | .max e rd rs1 rs2, _ => restartsNone_of_edge (row := execMax e rd rs1 rs2) (fun _ => rfl) (pureI_edge e _)
  | .shl e rd rs1 rs2 sh, _ => restartsNone_of_edge (row := execShl e rd rs1 rs2 sh) (fun _ => rfl) (pureI_edge e _)
  | .shr e rd rs1 rs2 sh, _ => restartsNone_of_edge (row := execShr e rd rs1 rs2 sh) (fun _ => rfl) (pureI_edge e _)
  | .sra e rd rs1 rs2 sh, _ => restartsNone_of_edge (row := execSra e rd rs1 rs2 sh) (fun _ => rfl) (pureI_edge e _)
  | .addi e rd rs1 imm, _ => restartsNone_of_edge (row := execAddi e rd rs1 imm) (fun _ => rfl) (pureI_edge e _)
  | .andi e rd rs1 imm, _ => restartsNone_of_edge (row := execAndi e rd rs1 imm) (fun _ => rfl) (pureI_edge e _)
  | .ori e rd rs1 imm, _ => restartsNone_of_edge (row := execOri e rd rs1 imm) (fun _ => rfl) (pureI_edge e _)
  | .lui e rd imm, _ => restartsNone_of_edge (row := execLui e rd imm) (fun _ => rfl) (pureI_edge e _)
  | .fadd e rd rs1 rs2, _ => restartsNone_of_edge (row := execFadd e rd rs1 rs2) (fun _ => rfl) (pureI_edge e _)
  | .fsub e rd rs1 rs2, _ => restartsNone_of_edge (row := execFsub e rd rs1 rs2) (fun _ => rfl) (pureI_edge e _)
  | .fmul e rd rs1 rs2, _ => restartsNone_of_edge (row := execFmul e rd rs1 rs2) (fun _ => rfl) (pureI_edge e _)
  | .fdiv e rd rs1 rs2, _ => restartsNone_of_edge (row := execFdiv e rd rs1 rs2) (fun _ => rfl) (pureI_edge e _)
  | .fsqrt e rd rs1, _ => restartsNone_of_edge (row := execFsqrt e rd rs1) (fun _ => rfl) (pureI_edge e _)
  | .fma e rd rs1 rs2 rs3, _ => restartsNone_of_edge (row := execFma e rd rs1 rs2 rs3) (fun _ => rfl) (pureI_edge e _)
  | .fcvtI e rm rd rs1, _ => restartsNone_of_edge (row := execFcvtI e rm rd rs1) (fun _ => rfl) (pureI_edge e _)
  | .fcvtFInt e rd rs1, _ => restartsNone_of_edge (row := execFcvtFInt e rd rs1) (fun _ => rfl) (pureI_edge e _)
  | .fcvtFAcc e rd wa, _ => restartsNone_of_edge (row := execFcvtFAcc e rd wa) (fun _ => rfl) (pureQ_edge e _)
  | .fcmp e cond rd rs1 rs2, _ =>
    restartsNone_of_edge (row := execFcmp e cond rd rs1 rs2) (fun _ => rfl) (pureI_edge e _)
  | .ld e rd rs1 imm, _ =>
    restartsNone_of_edge (row := execLd e rd rs1 imm) (fun _ => rfl)
      (bothI_edge (fun k rep => qLd_edge k rep rd rs1 imm) (bLd_edge rd rs1 imm) e)
  | .st e rs2 rs1 imm, _ =>
    restartsNone_of_edge (row := execSt e rs2 rs1 imm) (fun _ => rfl)
      (bothI_edge (fun k rep => qSt_edge k rep rs2 rs1 imm) (bSt_edge rs2 rs1 imm) e)
  | .ldw e wa rs1 imm, _ =>
    restartsNone_of_edge (row := execLdw e wa rs1 imm) (fun _ => rfl)
      (onlyQ_edge (fun k rep => qLdw_edge k rep wa rs1 imm) e)
  | .stw e wa rs1 imm, _ =>
    restartsNone_of_edge (row := execStw e wa rs1 imm) (fun _ => rfl)
      (onlyQ_edge (fun k rep => qStw_edge k rep wa rs1 imm) e)
  | .tap e rd rs1 imm, _ =>
    restartsNone_of_edge (row := execTap e rd rs1 imm) (fun _ => rfl)
      (onlyQ_edge (fun k rep => qTap_edge k rep false false rd rs1 imm) e)
  | .tapc e rd rs1 imm, _ =>
    restartsNone_of_edge (row := execTapc e rd rs1 imm) (fun _ => rfl)
      (onlyQ_edge (fun k rep => qTap_edge k rep true false rd rs1 imm) e)
  | .tapst e rd rs1 imm, _ =>
    restartsNone_of_edge (row := execTapst e rd rs1 imm) (fun _ => rfl)
      (onlyQ_edge (fun k rep => qTap_edge k rep false true rd rs1 imm) e)
  | .macw e wa rs1 rs2 neg, _ =>
    restartsNone_of_edge (row := execMacw e wa rs1 rs2 neg) (fun _ => rfl) (pureQ_edge e _)
  | .addw e wa wb rs1 sel, _ => restartsNone_of_edge (row := execAddw e wa wb rs1 sel) (fun _ => rfl) (pureQ_edge e _)
  | .clrw e wa, _ => restartsNone_of_edge (row := execClrw e wa) (fun _ => rfl) (pureQ_edge e _)
  | .bin e wa rs1 slot keep, _ =>
    restartsNone_of_edge (row := execBin e wa rs1 slot keep) (fun _ => rfl)
      (onlyQ_edge (fun k rep => qBin_edge k rep false wa rs1 slot keep) e)
  | .bins e wa rs1 slot keep, _ =>
    restartsNone_of_edge (row := execBins e wa rs1 slot keep) (fun _ => rfl)
      (onlyQ_edge (fun k rep => qBin_edge k rep true wa rs1 slot keep) e)
  | .spill e wa rs1 slot keep, _ =>
    restartsNone_of_edge (row := execSpill e wa rs1 slot keep) (fun _ => rfl)
      (onlyQ_edge (fun k rep => qSpill_edge k rep wa rs1 slot keep) e)
  | .ctx e rd rs1 sel, _ =>
    restartsNone_of_edge (row := execCtx e rd rs1 sel) (fun _ => rfl)
      (onlyQ_edge (fun k rep => qCtx_edge k rep rd rs1 sel) e)
  | .mark e rs1 rs2, _ =>
    restartsNone_of_edge (row := execMark e rs1 rs2) (fun _ => rfl)
      (onlyQ_edge (fun k rep => qMark_edge k rep rs1 rs2) e)
  | .if97h e rd rs1 rs2 pair, _ =>
    restartsNone_of_edge (row := execIf97h e rd rs1 rs2 pair) (fun _ => rfl) (pureQ_edge e _)
  | .if97d e rd rs1 rs2 pair, _ =>
    restartsNone_of_edge (row := execIf97d e rd rs1 rs2 pair) (fun _ => rfl) (pureQ_edge e _)
  | .if97s e rd rs1 rs2 pair, _ =>
    restartsNone_of_edge (row := execIf97s e rd rs1 rs2 pair) (fun _ => rfl) (pureQ_edge e _)
  | .if97c e rd rs1 rs2 pair, _ =>
    restartsNone_of_edge (row := execIf97c e rd rs1 rs2 pair) (fun _ => rfl) (pureQ_edge e _)
  | .if97x e rd rs1 rs2 pair, _ =>
    restartsNone_of_edge (row := execIf97x e rd rs1 rs2 pair) (fun _ => rfl) (pureQ_edge e _)
  | .airz e rd rs1 rs2 rs3, _ =>
    restartsNone_of_edge (row := execAirz e rd rs1 rs2 rs3) (fun _ => rfl) (pureQ_edge e _)
  | .aird e rd rs1 rs2 rs3, _ =>
    restartsNone_of_edge (row := execAird e rd rs1 rs2 rs3) (fun _ => rfl) (pureQ_edge e _)
  | .gate e, _ =>
    restartsNone_of_edge (row := execGate e) (fun _ => rfl) (onlyQ_edge (fun k rep => qGate_edge k rep) e)
  | .fence e, _ =>
    restartsNone_of_edge (row := execFence e) (fun _ => rfl) (onlyQ_edge (fun k rep => qFence_edge k rep) e)
  | .pushl e rs1 rs2 tag, _ =>
    restartsNone_of_edge (row := execPushl e rs1 rs2 tag) (fun _ => rfl)
      (onlyQ_edge (fun k rep => qPushl_edge k rep rs1 rs2 tag) e)
  | .pushr e rs1 rs2 tag, _ =>
    restartsNone_of_edge (row := execPushr e rs1 rs2 tag) (fun _ => rfl)
      (onlyQ_edge (fun k rep => qPushr_edge k rep rs1 rs2 tag) e)
  | .beq e rs1 rs2 off, _ => restartsNone_of_edge (row := execBeq e rs1 rs2 off) (fun _ => rfl) (pureI_edge e _)
  | .bne e rs1 rs2 off, _ => restartsNone_of_edge (row := execBne e rs1 rs2 off) (fun _ => rfl) (pureI_edge e _)
  | .blt e rs1 rs2 off, _ => restartsNone_of_edge (row := execBlt e rs1 rs2 off) (fun _ => rfl) (pureI_edge e _)
  | .bge e rs1 rs2 off, _ => restartsNone_of_edge (row := execBge e rs1 rs2 off) (fun _ => rfl) (pureI_edge e _)
  | .jal e off, _ => restartsNone_of_edge (row := execJal e off) (fun _ => rfl) (pureI_edge e _)
  | .jr e rs1, _ => restartsNone_of_edge (row := execJr e rs1) (fun _ => rfl) (pureI_edge e _)
  | .loop e rs1 k n, _ => restartsNone_of_edge (row := execLoop e rs1 k n) (fun _ => rfl) (pureI_edge e _)
  | .halt e, _ => restartsNone_of_edge (row := execHalt e) (fun _ => rfl) (bothI_edge qHalt_edge bHalt_edge e)
  | .yield e cycles, _ =>
    restartsNone_of_edge (row := execYield e cycles) (fun _ => rfl)
      (onlyQ_edge (fun k rep => qYield_edge k rep cycles) e)
  | .trap e imm, _ =>
    restartsNone_of_edge (row := execTrap e imm) (fun _ => rfl)
      (bothI_edge (fun k rep => qTrap_edge k rep imm) (bPure_edge (fun _ => .error trTRAP)) e)
  | .bayReloadDone, _ => restartsNone_of_edge (row := execBayReloadDone) (fun _ => rfl) bayReloaded_edge
  | .drvset e rd rs1 rs2, _ =>
    restartsNone_of_edge (row := execDrvset e rd rs1 rs2) (fun _ => rfl) (onlyS_edge (bDrvset_edge rd rs1 rs2) e)
  | .drvget e rd rs1, _ =>
    restartsNone_of_edge (row := execDrvget e rd rs1) (fun _ => rfl) (onlyS_edge (bDrvget_edge rd rs1) e)
  | .evwait e rd rs1, _ =>
    restartsNone_of_edge (row := execEvwait e rd rs1) (fun _ => rfl) (onlyS_edge (bEvwait_edge rd rs1) e)
  | .tmset e rd rs1 rs2, _ =>
    restartsNone_of_edge (row := execTmset e rd rs1 rs2) (fun _ => rfl) (onlyS_edge (bTmset_edge rd rs1 rs2) e)
  | .tmsetCancel e rd rs1, _ =>
    restartsNone_of_edge (row := execTmsetCancel e rd rs1) (fun _ => rfl) (onlyS_edge (bTmsetCancel_edge rd rs1) e)
  | .signal e rd rs1 rs2, _ =>
    restartsNone_of_edge (row := execSignal e rd rs1 rs2) (fun _ => rfl) (onlyS_edge (bSignal_edge rd rs1 rs2) e)
  | .pilot e rd rs1 rs2, _ =>
    restartsNone_of_edge (row := execPilot e rd rs1 rs2) (fun _ => rfl) (onlyS_edge (bPilot_edge rd rs1 rs2) e)
  | .sliptx e rd rs1 rs2 rs3, _ =>
    restartsNone_of_edge (row := execSliptx e rd rs1 rs2 rs3) (fun _ => rfl)
      (onlyS_edge (bSliptx_edge rd rs1 rs2 rs3) e)
  | .sliprx e rd rs1 rs2, _ =>
    restartsNone_of_edge (row := execSliprx e rd rs1 rs2) (fun _ => rfl) (onlyS_edge (bSliprx_edge rd rs1 rs2) e)
  | .sessopen e rd rs1 rs2, _ =>
    restartsNone_of_edge (row := execSessopen e rd rs1 rs2) (fun _ => rfl) (onlyS_edge (bSessopen_edge rd rs1 rs2) e)
  | .sessclose e rd rs1 rs2, _ =>
    restartsNone_of_edge (row := execSessclose e rd rs1 rs2) (fun _ => rfl)
      (onlyS_edge (bSessclose_edge rd rs1 rs2) e)
  | .bayTimerExpire n, _ => restartsNone_of_edge (row := execBayTimerExpire n) (fun _ => rfl) (bayTimer_edge n.val)
  | .afeSample k raw temp, _ => afeSample_restartsNone k raw temp
  | .horizonPublish k src, _ =>
    restartsNone_of_edge (row := execHorizonPublish k src) (fun _ => rfl) (publish_edge k.val src.val)
  | .gateCommit k, _ => restartsNone_of_edge (row := execGateCommit k) (fun _ => rfl) (gateCommit_edge k.val)
  | .contextEvent k ev, _ =>
    restartsNone_of_edge (row := execContextEvent k ev) (fun _ => rfl) (toEngine_edge k.val ev)
  | .sidestepSwitchover k, _ =>
    restartsNone_of_edge (row := execSidestepSwitchover k) (fun _ => rfl) (switchover_edge k.val)
  | .forcedGate k, _ => restartsNone_of_edge (row := execForcedGate k) (fun _ => rfl) (forcedDue_edge k.val)
  | .headStallEnd k, _ => restartsNone_of_edge (row := execHeadStallEnd k) (fun _ => rfl) (stallEnd_edge k.val)
  | .qeLockstep k, _ => restartsNone_of_edge (row := execQeLockstep k) (fun _ => rfl) (engLockstep_edge k.val)
  | .recoverCatchUp k, _ => restartsNone_of_edge (row := execRecoverCatchUp k) (fun _ => rfl) (recoverDone_edge k.val)
  | .qeReloadDone k, _ => qeReloadDone_restartsNone k
  | .qeCatchUp k, _ => restartsNone_of_edge (row := execQeCatchUp k) (fun _ => rfl) (catchUp_edge k.val)
  | .progLoadDone k, _ => progLoadDone_restartsNone k
  | .headCatchUp k, _ => restartsNone_of_edge (row := execHeadCatchUp k) (fun _ => rfl) (headCaught_edge k.val)
  | .cmpWindowEnd t, _ => restartsNone_of_edge (row := execCmpWindowEnd t) (fun _ => rfl) (windowEnd_edge t.val)
  | .refRoundStart t, _ => restartsNone_of_edge (row := execRefRoundStart t) (fun _ => rfl) (routineSlot_edge t.val)
  | .identRoundStart t, _ => identRoundStart_restartsNone t
  | .refRoundEnd t r, _ => restartsNone_of_edge (row := execRefRoundEnd t r) (fun _ => rfl) (roundEnd_edge t.val r)
  | .zcTimeout t, _ => restartsNone_of_edge (row := execZcTimeout t) (fun _ => rfl) (zcTimeout_edge t.val)
  | .tapFaultDeclare t cls lost, _ =>
    restartsNone_of_edge (row := execTapFaultDeclare t cls lost) (fun _ => rfl) (faultDeclare_edge t.val cls lost)
  | .tapFaultClear x, _ =>
    restartsNone_of_edge (row := execTapFaultClear x) (fun _ => rfl) (faultClear_edge x.t.val x.lost)
  | .qualPoll mp, _ => restartsNone_of_edge (row := execQualPoll mp) (fun _ => rfl) (qualPoll_edge mp.val)
  | .qualResponse mp raw, _ =>
    restartsNone_of_edge (row := execQualResponse mp raw) (fun _ => rfl) (qualAnswer_edge mp.val raw)
  | .qualRequestFail mp why, _ =>
    restartsNone_of_edge (row := execQualRequestFail mp why) (fun _ => rfl) (qualFail_edge mp.val)
  | .spillPulseOnEnd mp slot, _ => spillPulseOnEnd_restartsNone mp slot
  | .spillPulseOffEnd mp slot, _ => spillPulseOffEnd_restartsNone mp slot
  | .timeEventHandoff, _ => restartsNone_of_edge (row := execTimeEventHandoff) (fun _ => rfl) handoff_edge
  | .demandClose, _ =>
    restartsNone_of_edge (row := execDemandClose) (fun _ => rfl) (pendExec_edge demandExec_edge _ _)
  | .billingClose, _ =>
    restartsNone_of_edge (row := execBillingClose) (fun _ => rfl) (pendExec_edge closeExec_edge _ _)
  | .tariffSwitch, _ =>
    restartsNone_of_edge (row := execTariffSwitch) (fun _ => rfl) (pendExec_edge switchExec_edge _ _)
  | .calendarActivation, _ =>
    restartsNone_of_edge (row := execCalendarActivation) (fun _ => rfl) (pendExec_edge activate_edge _ _)
  | .sessionOpenApply mp, _ => sessionOpenApply_restartsNone mp
  | .sessionCloseApply mp, _ => sessionCloseApply_restartsNone mp
  | .lpPeriodEnd ch, _ => restartsNone_of_edge (row := execLpPeriodEnd ch) (fun _ => rfl) (lpEnd_edge ch.val)
  | .clockStep, _ => restartsNone_of_edge (row := execClockStep) (fun _ => rfl) clockStep_edge
  | .cg10Apply, _ => restartsNone_of_edge (row := execCg10Apply) (fun _ => rfl) cg10Apply_edge
  | .timeMappingFreeze, _ => restartsNone_of_edge (row := execTimeMappingFreeze) (fun _ => rfl) mapFreeze_edge
  | .aoCalibrate meas, _ => restartsNone_of_edge (row := execAoCalibrate meas) (fun _ => rfl) (aoCalibrate_edge meas)
  | .ptpMessage f, _ => restartsNone_of_edge (row := execPtpMessage f) (fun _ => rfl) (ptpRx_edge f)
  | .ptpSyncTimeout, _ => restartsNone_of_edge (row := execPtpSyncTimeout) (fun _ => rfl) ptpTimeout_edge
  | .timeStepNeeded, _ => restartsNone_of_edge (row := execTimeStepNeeded) (fun _ => rfl) stepNeeded_edge
  | .leapSmear, _ => restartsNone_of_edge (row := execLeapSmear) (fun _ => rfl) leapStart_edge
  | .slewComplete, _ => restartsNone_of_edge (row := execSlewComplete) (fun _ => rfl) slewEnd_edge
  | .mainDrop, _ => restartsNone_of_edge (row := execMainDrop) (fun _ => rfl) mainDrop_edge
  | .mainTakeover, _ => restartsNone_of_edge (row := execMainTakeover) (fun _ => rfl) mainTakeover_edge
  | .auxLost, _ => restartsNone_of_edge (row := execAuxLost) (fun _ => rfl) auxLost_edge
  | .mainLow, _ => restartsNone_of_edge (row := execMainLow) (fun _ => rfl) mainLow_edge
  | .powerFailDetect, _ => restartsNone_of_edge (row := execPowerFailDetect) (fun _ => rfl) powerFail_edge
  | .holdupExhausted complete, _ =>
    restartsNone_of_edge (row := execHoldupExhausted complete) (fun _ => rfl) (exhausted_edge complete)
  | .powerUp p, _ => restartsNone_of (row := execPowerUp p) (fun _ => rfl) fun _ => powerUp_noRestart _ _
  | .startEnd, _ => restartsNone_of_edge (row := execStartEnd) (fun _ => rfl) startEnd_edge
  | .startIncomplete, _ => restartsNone_of_edge (row := execStartIncomplete) (fun _ => rfl) startLate_edge
  | .journalEntry, _ => restartsNone_of_edge (row := execJournalEntry) (fun _ => rfl) journalEntry_edge
  | .holdupTestDaily, _ => restartsNone_of_edge (row := execHoldupTestDaily) (fun _ => rfl) testDaily_edge
  | .chargerReconnect holdup cap, _ =>
    restartsNone_of_edge (row := execChargerReconnect holdup cap) (fun _ => rfl) (testEnd_edge holdup cap)
  | .huOverdue, _ => restartsNone_of_edge (row := execHuOverdue) (fun _ => rfl) huOverdue_edge
  | .holdupCharged, _ => restartsNone_of_edge (row := execHoldupCharged) (fun _ => rfl) holdupCharged_edge
  | .cellMeasure v, _ => cellMeasure_restartsNone v
  | .hkReport r, _ => restartsNone_of_edge (row := execHkReport r) (fun _ => rfl) (hkReport_edge r)
  | .hkSilent, _ => restartsNone_of_edge (row := execHkSilent) (fun _ => rfl) hkSilence_edge
  | .memoryScrub, _ => memoryScrub_restartsNone
  | .evtPersist, _ => evtPersist_restartsNone
  | .evtArchiveCopy, _ => evtArchiveCopy_restartsNone
  | .evtCounterPersist, _ => restartsNone_of_edge (row := execEvtCounterPersist) (fun _ => rfl) countersPersist_edge
  | .heldEventsEnter, _ => restartsNone_of_edge (row := execHeldEventsEnter) (fun _ => rfl) enterHeld_edge
  | .aoTamperSample cover sealOpen lsw mesh, _ => aoTamperSample_restartsNone cover sealOpen lsw mesh
  | .magSample v, _ => restartsNone_of_edge (row := execMagSample v) (fun _ => rfl) (magSampled_edge v.toNat)
  | .phaseLossCheck mp, _ =>
    restartsNone_of_edge (row := execPhaseLossCheck mp) (fun _ => rfl) (phaseLossCheck_edge mp.val)
  | .tempRangeCheck backplate, _ =>
    restartsNone_of_edge (row := execTempRangeCheck backplate) (fun _ => rfl) (tempCheck_edge backplate)
  | .ledgerSignatureTimer, _ => ledgerSignatureTimer_restartsNone
  | .ledgerAppend, _ => ledgerAppend_restartsNone
  | .ledgerWriteFail, _ => ledgerWriteFail_restartsNone
  | .plateMirrorUpdate, _ => restartsNone_of_edge (row := execPlateMirrorUpdate) (fun _ => rfl) mirrorUpdate_edge
  | .dispBtnShort, _ => restartsNone_of_edge (row := execDispBtnShort) (fun _ => rfl) btnShort_edge
  | .dispBtnLong, _ => restartsNone_of_edge (row := execDispBtnLong) (fun _ => rfl) btnLong_edge
  | .dispPageTimer, _ => restartsNone_of_edge (row := execDispPageTimer) (fun _ => rfl) pageTimer_edge
  | .ferryClaim m q, _ => restartsNone_of_put (row := execFerryClaim m q) fun _ => rfl
  | .ferryRelease m q, _ => restartsNone_of_put (row := execFerryRelease m q) fun _ => rfl
  | .ferryFlush m q, _ => restartsNone_of_put (row := execFerryFlush m q) fun _ => rfl
  | .ferryDataRead m q, _ =>
    restartsNone_of_edge (row := execFerryDataRead m q) (fun _ => rfl) (get1_edge m (0xA0000 + 0x20 * q.val))
  | .ferryHoldRelease q, _ =>
    restartsNone_of_edge (row := execFerryHoldRelease q) (fun _ => rfl) (holdRelease_edge q.val)
  | .queueStall q ten, _ =>
    restartsNone_of_edge (row := execQueueStall q ten) (fun _ => rfl) (stallTime_edge q.val ten)
  | .ferryPtrMismatch q, _ =>
    restartsNone_of_edge (row := execFerryPtrMismatch q) (fun _ => rfl) (ptrMismatch_edge q.val)
  | .ferryParityEnd q, _ => ferryParityEnd_restartsNone q
  | .pilotStateChange hi lo, _ =>
    restartsNone_of_edge (row := execPilotStateChange hi lo) (fun _ => rfl) (pilotSamples_edge hi lo)
  | .ppMeasure ohms, _ => restartsNone_of_edge (row := execPpMeasure ohms) (fun _ => rfl) (ppMeasured_edge ohms)
  | .v2gRequest r, _ => restartsNone_of_edge (row := execV2gRequest r) (fun _ => rfl) (v2gRequest_edge r)
  | .canFrameRx p id data t, _ => canFrameRx_restartsNone p id data t
  | .canBusOff p, _ => canBusOff_restartsNone p
  | .rcmFltInput k active, _ =>
    restartsNone_of_edge (row := execRcmFltInput k active) (fun _ => rfl) (rcmInput_edge k.val active)
  | .imdMeasure kohm, _ => restartsNone_of_edge (row := execImdMeasure kohm) (fun _ => rfl) (imdMeasured_edge kohm)
  | .bayLockstep, _ => bayLockstep_restartsNone
  | .bayPauseEnd, _ => restartsNone_of_edge (row := execBayPauseEnd) (fun _ => rfl) bayResume_edge
  | .modemPoll status frames sent, _ => modemPoll_restartsNone status frames sent
  | .modemFault, _ => modemFault_restartsNone
  | .voutUndervolt b, _ => restartsNone_of_edge (row := execVoutUndervolt b) (fun _ => rfl) (undervolt_edge b)
  | .voutRecover b, _ => restartsNone_of_edge (row := execVoutRecover b) (fun _ => rfl) (voutRecovered_edge b)
  | .voutOverload b, _ => voutOverload_restartsNone b
  | .drvOvercurrent n, _ => restartsNone_of_edge (row := execDrvOvercurrent n) (fun _ => rfl) (overcurrent_edge n.val)
  | .drvRetry n, _ => restartsNone_of_edge (row := execDrvRetry n) (fun _ => rfl) (retryEnd_edge n.val)
  | .drvRetryReload n, _ => restartsNone_of_edge (row := execDrvRetryReload n) (fun _ => rfl) (retryReload_edge n.val)
  | .drvThermal n, _ => restartsNone_of_edge (row := execDrvThermal n) (fun _ => rfl) (thermalLatch_edge n.val)
  | .drvTestPulse n fell conclusive, _ =>
    restartsNone_of_edge (row := execDrvTestPulse n fell conclusive) (fun _ => rfl)
      (testPulse_edge true n.val fell conclusive)
  | .drvOpenLoad n result, _ =>
    restartsNone_of_edge (row := execDrvOpenLoad n result) (fun _ => rfl) (openLoad_edge n.val result)
  | .drvClampTest n ok, _ =>
    restartsNone_of_edge (row := execDrvClampTest n ok) (fun _ => rfl) (clampTest_edge n.val ok)
  | .drvTestRetry n fell conclusive, _ =>
    restartsNone_of_edge (row := execDrvTestRetry n fell conclusive) (fun _ => rfl)
      (testRetry_edge n.val fell conclusive)
  | .drvCmdWrite m k v, _ => restartsNone_of_put (row := execDrvCmdWrite m k v) fun _ => rfl
  | .drvHeartbeat, _ => restartsNone_of_edge (row := execDrvHeartbeat) (fun _ => rfl) dieReport_edge
  | .controllerLost, _ => controllerLost_restartsNone
  | .holdWindowExpire, _ => restartsNone_of_edge (row := execHoldWindowExpire) (fun _ => rfl) holdExpire_edge
  | .drvClaim dies by_, _ => drvClaim_restartsNone dies by_
  | .lhInputChange lh, _ => lhInputChange_restartsNone lh
  | .safetyInputChange sf edge, _ => safetyInputChange_restartsNone sf edge
  | .safetyTestPulse b fell ok, _ => safetyTestPulse_restartsNone b fell ok
  | .discrepancyTimeout z second, _ => discrepancyTimeout_restartsNone z second
  | .crossLinkExchange, _ => crossLinkExchange_restartsNone
  | .sfSilent, _ => sfSilent_restartsNone
  | .sfReload, _ => sfReload_restartsNone
  | .safetySwitchRead sf edge, _ => safetySwitchRead_restartsNone sf edge
  | .safeAckEdge high, h => absurd rfl (h high)
  | .safeAckStuck, _ => safeAckStuck_restartsNone
  | .rdcTrip k ac dc, _ => rdcTrip_restartsNone k ac dc
  | .safetyDriveOffPulse edge stuck, _ => safetyDriveOffPulse_restartsNone edge stuck
  | .escFrameRx ec bytes, _ =>
    restartsNone_of (row := execEscFrameRx ec bytes) (fun _ => rfl) fun _ => escRx_noRestart _ _ (noRestart_refl _)
  | .escSendTimer ec, _ => restartsNone_of_edge (row := execEscSendTimer ec) (fun _ => rfl) (escNext_edge ec.val)
  | .escWatchdog ec, _ => escWatchdog_restartsNone ec
  | .escRestart ec, _ => escRestart_restartsNone ec
  | .sfTableCheck bad, _ => sfTableCheck_restartsNone bad
  | .linkPoll r, _ => restartsNone_of_edge (row := execLinkPoll r) (fun _ => rfl) (linkPoll_edge r)
  | .tagLeft, _ => restartsNone_of_edge (row := execTagLeft) (fun _ => rfl) tagsLeft_edge
  | .crossingReq frame, _ => crossing_restartsNone (fun _ _ => plateReq_edge) frame
  | .crossingSel frame, _ => crossing_restartsNone (fun b _ => plateSel_edge b) frame
  | .crossingHalt frame, _ => crossing_restartsNone (fun _ _ => plateHalt_edge) frame
  | .crossingQuiet frame, _ => crossing_restartsNone (fun b _ => plateQuiet_edge b) frame
  | .crossingStatus frame, _ => crossing_restartsNone (fun _ _ _ => plateSt_edge ..) frame
  | .crossingRead frame, _ => crossing_restartsNone (fun b _ => plateRead_edge b) frame
  | .crossingWrite frame, _ => crossing_restartsNone (fun b _ => plateWrite_edge b) frame
  | .crossingAuth1 frame, _ => crossing_restartsNone (fun b _ => plateAuth1_edge b) frame
  | .crossingAuth2 frame, _ => crossing_restartsNone plateAuth2_edge frame
  | .crossingAuth3 frame, _ => crossing_restartsNone plateAuth3_edge frame
  | .crossingSread frame, _ => crossing_restartsNone plateSread_edge frame
  | .crossingSwrite frame, _ => crossing_restartsNone plateSwrite_edge frame
  | .fieldGap ms, _ => restartsNone_of_edge (row := execFieldGap ms) (fun _ => rfl) (plateGap_edge ms)
  | .quietTimeExpire, _ => restartsNone_of_edge (row := execQuietTimeExpire) (fun _ => rfl) plateQuietEnd_edge
  | .crossingSessionTimeout, _ => crossingSessionTimeout_restartsNone
  | .plateHoldEnd, _ => restartsNone_of_edge (row := execPlateHoldEnd) (fun _ => rfl) holdEnd_edge
  | .sliceMarker, _ => restartsNone_of_edge (row := execSliceMarker) (fun _ => rfl) sliceMark_edge
  | .kwrRequest e slot, _ =>
    restartsNone_of_edge (row := execKwrRequest e slot) (fun _ => rfl) (kwrAsk_edge e.val slot.val)
  | .kwrRelease e, _ => restartsNone_of_edge (row := execKwrRelease e) (fun _ => rfl) (kwrFree_edge e.val)
  | .kwrTimeout, _ => restartsNone_of_edge (row := execKwrTimeout) (fun _ => rfl) kwrExpire_edge
  | .condemnGraceEnd, _ =>
    restartsNone_of_edge (row := execCondemnGraceEnd) (fun _ => rfl) (graceEnd_edge stCONDEMNED)
  | .classATamper t, _ => classATamper_restartsNone t
  | .zeroiseRekey, _ => restartsNone_of_edge (row := execZeroiseRekey) (fun _ => rfl) zeroRekey_edge
  | .sessionTimeout m, _ => sessionTimeout_restartsNone m
  | .lockoutEnd a, _ => lockoutEnd_restartsNone a
  | .changeoverBoot, _ => restartsNone_of_edge (row := execChangeoverBoot) (fun _ => rfl) changeoverBoot_edge
  | .changeoverResume, _ => restartsNone_of_edge (row := execChangeoverResume) (fun _ => rfl) changeoverResume_edge
  | .changeoverWatchdog, _ =>
    restartsNone_of_edge (row := execChangeoverWatchdog) (fun _ => rfl) changeoverWatchdog_edge
  | .bridgeOverflow k, _ =>
    restartsNone_of_edge (row := execBridgeOverflow k) (fun _ => rfl) (bridgeOverflow_edge k.val)
  | .updHealthWrite, _ => restartsNone_of_edge (row := execUpdHealthWrite) (fun _ => rfl) healthWrite_edge
  | .trialWatchdog, _ => restartsNone_of_edge (row := execTrialWatchdog) (fun _ => rfl) trialWatchdog_edge
  | .svWatchdog, _ => restartsNone_of_edge (row := execSvWatchdog) (fun _ => rfl) (svReset_edge 2)
  | .svLockstep, _ => restartsNone_of_edge (row := execSvLockstep) (fun _ => rfl) (svReset_edge 3)
  | .svResetExit, _ => restartsNone_of_edge (row := execSvResetExit) (fun _ => rfl) svExit_edge
  | .pairHeartbeat h, _ => restartsNone_of_edge (row := execPairHeartbeat h) (fun _ => rfl) (heartbeat_edge h)
  | .pairAloneTimeout, _ => restartsNone_of_edge (row := execPairAloneTimeout) (fun _ => rfl) pairAlone_edge
  | .pairPartnerLost, _ => restartsNone_of_edge (row := execPairPartnerLost) (fun _ => rfl) partnerLost_edge
  | .pairLaneLoss lane, _ =>
    restartsNone_of_edge (row := execPairLaneLoss lane) (fun _ => rfl) (laneLoss_edge lane.val)
  | .pairLaneRejoin lane, _ =>
    restartsNone_of_edge (row := execPairLaneRejoin lane) (fun _ => rfl) (laneRejoin_edge lane.val)
  | .netLinkChange port up, _ =>
    restartsNone_of_edge (row := execNetLinkChange port up) (fun _ => rfl) (linkChange_edge port.val up)
  | .illegalInstruction e w, _ => illegalInstruction_restartsNone e w
  | .engineLockstepMismatch isl, _ =>
    restartsNone_of_edge (row := execEngineLockstepMismatch isl) (fun _ => rfl) (islandStop_edge isl)
  | .auxRailReturn, _ => restartsNone_of_edge (row := execAuxRailReturn) (fun _ => rfl) auxReturn_edge
  | .vioChange ok, _ => vioChange_restartsNone ok
  | .servicePortAccess debug, _ => servicePortAccess_restartsNone debug
  | .canFrameTx p, _ => canFrameTx_restartsNone p

/-- Settles O3: a zone that runs after a step other than the acknowledgement ran before it. -/
theorem restartOnlyByAcknowledgement : Obligations.RestartOnlyByAcknowledgement := by
  unfold Obligations.RestartOnlyByAcknowledgement
  intro i k s t ht hi hgrant hdemand
  have hran := (exec_restartsNone i hi s t ht).ran k
  exact not_or.mp fun hruns => (hran hruns).elim hgrant hdemand

end Sys2Proof.Machine
end
